-- ==== Sys2Proof/Word.lean ====
section
/-! DEFINITION. The plain word types of the panel and nothing else. Bit-field helpers stand in Machine/Bits.lean. -/

namespace Sys2Proof

/-- One byte. -/
abbrev Byte := BitVec 8
/-- A 16-bit word: cell IDs, tags, sequence numbers. -/
abbrev W16 := BitVec 16
/-- A 32-bit register. -/
abbrev W32 := BitVec 32
/-- A 48-bit counter value (R75). -/
abbrev W48 := BitVec 48
/-- A 56-bit panel global address (R55). -/
abbrev Pga := BitVec 56
/-- A 64-bit word. -/
abbrev W64 := BitVec 64
/-- One tile instruction word (R193). -/
abbrev Insn := BitVec 128

end Sys2Proof
end

