-- ==== Sys2Proof/Syntax.lean ====
section
/-! DEFINITION. The commands the panel takes: one constructor of Instr per row of spec/opcode_table.json, with the row's
operands. What the outside world or another agent supplies (an arriving packet, a sensor reading, the outcome of a
signature check) is an operand. -/

namespace Sys2Proof

/-- A logical tile: L-die × 16 + logical tile (R42). -/
abbrev TileNo := Fin 3840

/-- A logical compute die. -/
abbrev DieNo := Fin 240

/-- A logical stack. -/
abbrev StackNo := Fin 24

/-- A die-cell by the destination index of R294: compute dies 0–239, stack nodes 240–263, the hub 264, port dies 265–268. -/
abbrev NodeNo := Fin 269

/-- A partition ID. -/
abbrev PartNo := Fin 24

/-- The source of a remote operation, as a target's window check sees it (R63, R64). -/
inductive Src where
  /-- a cell ID of R42 carried in the packet header -/
  | cell (id : W16)
  /-- the virtual function of a partition, or the physical function acting for it -/
  | host (part : Nat)
  /-- a port die acting for a transport key of a partition (R423) -/
  | key (part : Nat)
  deriving DecidableEq, Repr

/-- The remote operations of R47. -/
inductive SegOp where
  | put | get | fadd | cswap | for_
  deriving DecidableEq, Repr

/-- Where a segment arrives: the target that the PGA spaces of R55 name after decoding. -/
inductive Tgt where
  | tile (t : Nat)
  | tileReg (t : Nat)
  | stack (k : Nat)
  | dieReg (d : Nat)
  | hub
  | port (p : Nat)
  deriving DecidableEq, Repr

/-- One request segment on the fabric (R49, R286). `node` is the issuer's cell ID, `off` the offset at the target,
`sched` tells the scheduled class. A PUT's length is that of its data; `len` is that of a GET, and 4 or 8 for an atomic. `opid`, `part` and
`phase` are PK_OPID, PK_PART and PK_PHASE; `mates` marks further tiles of the die to which the router delivers a copy that R298 sends to
a cell's members. -/
structure Segment where
  src : Src
  node : W16
  seq : W16
  issue : Nat
  sched : Bool
  op : SegOp
  tag : W16
  off : Nat
  len : Nat
  data : List Byte
  poison : Bool
  opnd : W64
  swap : W64
  opid : BitVec 6 := 0
  part : BitVec 5 := 31
  phase : W32 := 0
  mates : BitVec 16 := 0
  deriving DecidableEq, Repr

/-- The answer to a segment (R67, R302): code, returned bytes, poison bit, old value of an atomic. -/
structure Answer where
  code : BitVec 4
  data : List Byte
  poison : Bool
  old : W64
  deriving DecidableEq, Repr

/-- The signature of an arrival (R311): the instruction, with operator and count for VXSCAN. -/
inductive SyncSig where
  | bar | cwait | flagor | step
  | vxscan (op n : Nat)
  deriving DecidableEq, Repr

/-- What one member sends on a synchronisation channel (R311). `absent` marks a lane that sends no element. -/
structure Arrival where
  sig : SyncSig
  fault : Bool
  poison : Bool
  absent : Bool
  payload : W64
  deriving DecidableEq, Repr

/-- The head of an unscheduled packet as a router meets it (R285, R286): the packet's 32-byte header; the input port and channel, port 4
for a local source of the router's own die; and, for each flit, how the check symbols of the received codeword differ (0: clean). -/
structure PktHead where
  hdr : BitVec 256
  inPort : Nat
  inCh : Nat
  devs : List (BitVec 24)
  deriving DecidableEq, Repr

/-- A child of a synchronisation node (R309, R310): a tile of its die, or the neighbour over an edge N, E, S, W. -/
inductive SyncChild where
  | tile (i : Fin 16)
  | edge (e : Fin 4)
  deriving DecidableEq, Repr

/-- What a control-network register access reaches (R308): a tile's registers, or those of a die-cell. -/
inductive CtlTgt where
  | tile (t : TileNo)
  | die (n : NodeNo)
  deriving DecidableEq, Repr

/-- Where a register lies: a tile, a die-cell (264 is the hub), a PCIe function, 25 × port + number, by a request whose T bit is `tee`, the function's PCI
configuration (assumption log 55), or a partition's composite-cell table, which hub firmware keeps (R44, assumption log 93). -/
inductive RegPlace where
  | tile (t : TileNo)
  | die (n : NodeNo)
  | fn (f : Fin 50) (tee : Bool)
  | cfg (f : Fin 50)
  | composite (p : PartNo)
  deriving DecidableEq, Repr

/-- A TDISP message within the secured session `n` of the VF's DOE mailbox, or an error of the interface (R381, R382). A lock names the
selective IDE stream that the interface uses. -/
inductive TdispMsg where
  | lock (n : Fin 4) (stream : Fin 8)
  | start (n : Fin 4)
  | stop (n : Fin 4)
  | error
  deriving DecidableEq, Repr

/-- A mailbox with a message in flight (R406): a function's inbound or outbound side, or mailbox `m` of sector `k`. -/
inductive MboxRef where
  | inA (f : Fin 50)
  | outA (f : Fin 50)
  | b (k : StackNo) (m : Fin 4)
  deriving DecidableEq, Repr

/-- States a partner can report (R444). -/
inductive PeerState where
  | running | paused | halted
  deriving DecidableEq, Repr

/-- A request of a peer, or to one (R427): operation, remote key, offset, bytes to write, bytes to read or the size of an
atomic, and its operands; `last` ends its message. Every packet of a write names its own offset (assumption log 58). -/
structure PeerReq where
  op : SegOp
  key : W32
  off : Nat
  len : Nat
  data : List Byte
  opnd : W64
  swap : W64
  last : Bool
  deriving DecidableEq, Repr

/-- What an authenticated packet carries once it is opened (R426–R430, R434, R439, R444, R446, R447). -/
inductive PktBody where
  | req (r : PeerReq)
  /-- an operation that the panel does not serve (R427) -/
  | unsupported
  /-- the UET handshake of a new connection is complete (R427) -/
  | handshake
  /-- the sequence numbers acknowledged, and those that a SACK reports missing -/
  | ack (psns missing : List Nat)
  | seqNak (psn : Nat)
  | accessErr
  | invalidReq
  /-- bytes read, from `pos` of the request of number `psn` on -/
  | readData (psn pos : Nat) (data : List Byte)
  | atomicOld (psn : Nat) (old : W64)
  | cnp
  | keepalive (g : Nat) (epoch : W32) (st : PeerState)
  /-- a collective packet of CX_ID `id`: source elements by rank (assumption log 60) -/
  | coll (g : Nat) (epoch id : W32) (parts : List (Nat × List Byte))
  /-- digests of a shrink, by old rank (R447) -/
  | digest (g : Nat) (epoch : W32) (ds : List (Nat × W64))
  | abort (g : Nat) (epoch : W32) (lost : Nat)
  deriving DecidableEq, Repr

/-- The SecTAG of a frame that came under MACsec (R421): secure channel, association, packet number; `ok` tells that the association is
installed and its tag authenticates. -/
structure SecTag where
  sc : Fin 4
  an : Fin 4
  pn : Nat
  ok : Bool
  deriving DecidableEq, Repr

/-- What checks 1–4 of R428 find in an arriving frame, and what a packet that passes them holds: its addresses, connection, seal header,
sequence number and ECN mark. The outcomes of FEC, FCS, the tags and the UET replay test are operands. -/
inductive FrameKind where
  | badCodeword
  | badFcs
  | noClass
  /-- ARP or Neighbour Solicitation for an address, and an echo request to one -/
  | neighbour (ip : BitVec 128)
  | echo (ip : BitVec 128)
  /-- an IEEE 1588 event message: the offset of its stamp from the grandmaster in ns, and the steering that hub firmware's
  servo answers it with (R420, R551, assumption log 62) -/
  | ptp (off adj : Int)
  | unauth
  | uetReplay
  /-- a packet from `src` to `dst` on connection `c`: its seal header (R426), or under UET its counter in bits [95:32] -/
  | packet (dst src : BitVec 128) (c : Nat) (hdr : BitVec 96) (psn : Nat) (ecn : Bool) (body : PktBody)
  deriving DecidableEq, Repr

/-- A frame at a port: its length in bytes, the FEC codewords corrected in it, its destination MAC address and its SecTAG. -/
structure Frame where
  len : Nat
  corrected : Nat
  mac : BitVec 48
  sec : Option SecTag
  kind : FrameKind
  deriving DecidableEq, Repr

/-- What GROUP_CREATE names beside its fields (R437): rank, members, epoch, rails, this rail, and the connection to each
partner. The spec lays out neither the parameters nor the member list (assumption log 59). -/
structure GroupDesc where
  rank : Nat
  n : Nat
  epoch : W32
  nrails : Nat
  rail : Nat
  conns : List (Nat × Nat)
  deriving DecidableEq, Repr

/-- A receiver of the firmware broadcast (R468, R470): a physical tile of a compute die, or a stack node. -/
inductive Receiver where
  | tile (site : Fin 288) (t : Fin 17)
  | stack (k : StackNo)
  deriving DecidableEq, Repr

/-- A receiver's number: 17 × P-site + tile, then the stack nodes. -/
def Receiver.key : Receiver → Nat
  | .tile site t => 17 * site.val + t.val
  | .stack k => 4896 + k.val

/-- A firmware bundle as PD-N reads it (R468, R469), and whether every signature that its signature section carries verifies (R579). -/
structure Bundle where
  bytes : List Byte
  sigOk : Bool
  deriving DecidableEq, Repr

/-- How a link trained in instar 4 (R281, R316): die-cell, edge, and the modules of the own link and of the repeat path that lane repair
could not restore. -/
structure LinkTrain where
  node : NodeNo
  edge : Fin 4
  lost : BitVec 8
  thruLost : BitVec 8
  deriving DecidableEq, Repr

/-- Tables that hub firmware writes into a die-cell's router (R292, R294, R470). -/
structure RouterTables where
  node : NodeNo
  route : List (Nat × BitVec 13)
  tree : List (Nat × BitVec 22)
  phIdx : List (Nat × W32)
  slot : List (Nat × BitVec 80)
  deriving DecidableEq, Repr

/-- What is switched on behind header switches (R520). -/
inductive InrushClass where
  | tileLogic | quarter | fastRails | stackRails | portFast
  deriving DecidableEq, Repr

/-- What a die power manager reports for a division of the budget (R527): its die's power over the last 100 µs and, for a stack
node, the least that its scheduled traffic needs, in 0.1 W; by how many steps of 15.625 MHz it holds the tile clocks below
1 GHz; the microseconds it was throttled and the pauses it made since it last reported. -/
structure DieRead where
  node : NodeNo
  power : W16
  least : W16
  down : Fin 33
  throttled : W16
  pauses : W16
  deriving DecidableEq, Repr

/-- A hot spot's inputs at an update (R561–R563): sensors A and B and the model, in 0.25 °C; none where it gave nothing. -/
structure HotRead where
  h : Fin 18
  a : Option Int
  b : Option Int
  m : Option Int
  deriving DecidableEq, Repr

/-- The comparator that trips (R571): a hot spot's sensor A, or B, of a die-cell; or the outlet's. -/
inductive TripAt where
  | spot (node : NodeNo) (h : Fin 18) (b : Bool)
  | outlet
  deriving DecidableEq, Repr

/-- The body of a policy packet (R589, R591). LAYOUT is held as its bytes and FUSE_WRITE as its records; the bodies that the spec
does not lay out are held by what they name (assumption log 74). -/
inductive PolicyBody where
  /-- a new role set -/
  | roles (bs : List Byte)
  | layout (bs : List Byte)
  | debug (level : Byte) (nonce : W64)
  | fwPolicy (svnHub svnBundle : W16) (signers flags : Byte)
  | fuses (rs : List (BitVec 64))
  | clear (mask : Byte) (site : W16)
  | keys (op : Byte)
  /-- the RWQ field at an offset of hub space whose lowest bit is `lo` -/
  | rwq (off lo : Nat) (v : W32)
  | other
  deriving DecidableEq, Repr

/-- A policy packet (R589): its header, the length and the content of its body, the SHA-384 of the body, and whether both signatures
of each role verify. -/
structure PolicyPkt where
  hdr : List Byte
  len : Nat
  body : PolicyBody
  hash : BitVec 384
  opOk : Bool
  cuOk : Bool
  deriving DecidableEq, Repr

/-- An SPDM responder of the panel (R580): a function's DOE mailbox, or the MCTP endpoint. -/
inductive SpdmVia where
  | doe (f : Fin 50)
  | mctp
  deriving DecidableEq, Repr

/-- An IDE_KM message (R381, assumption log 102): a key for slot 6 × set + 3 × direction + sub-stream, direction 0 receive; a slot goes, or
stops. -/
inductive IdeOp where
  | keyProg (slot : Fin 12) (key : BitVec 256)
  | setGo (slot : Fin 12)
  | setStop (slot : Fin 12)
  deriving DecidableEq, Repr

/-- The algorithms of R575. -/
inductive Algo where
  | sha384 | hkdfSha384 | ecdsaP384 | ecdhP384 | mlDsa87 | mlKem1024 | aes256Gcm | xtsAes256 | ctrDrbgAes256 | other (code : W16)
  deriving DecidableEq, Repr

/-- An SPDM request (R580): the versions offered, 0x12 and 0x13; a certificate slot; a measurement block, of partition `p` for blocks
6 and 7; a key exchange and whether it completes; the end of a session; what the panel does not support. -/
inductive SpdmReq where
  | version (offered : List Byte)
  | capabilities
  | algorithms (asym hash dhe aead : List Algo)
  | digests
  | certificate (slot : Fin 8)
  | challenge (slot : Fin 8)
  | measurements (index : Fin 8) (p : PartNo)
  | keyExchange (ok : Bool)
  | heartbeat (session : Fin 4)
  | keyUpdate (session : Fin 4)
  | endSession (session : Fin 4)
  | ideKm (session : Fin 4) (stream : Fin 9) (op : IdeOp)
  | discovery (index : Byte)
  | unsupported
  deriving DecidableEq, Repr

/-- What REG_WRITE of out-of-band management may name (R606). -/
inductive VdmTarget where
  | fltCfg | glycol | tjThrottle | fwHwm | telPeriod | other
  deriving DecidableEq, Repr

/-- An access over the debug pins (R593): what every level allows; what OBSERVE allows: registers by place and offset, fuses by place,
records of a black-box copy; what FULL allows: memory read or written, scan and EXTEST. -/
inductive DebugAccess where
  | bypass
  | idcode
  | sample
  | reg (t : Tgt) (off : Nat)
  | fuse (place : Fin 292)
  | record (east : Bool) (seq : W32)
  | memRead (t : Tgt) (off len : Nat)
  | memWrite (t : Tgt) (off : Nat) (bs : List Byte)
  | scan
  | extest
  deriving DecidableEq, Repr

/-- The commands of the opcode table. -/
inductive Instr where
  | mainPowerGood (f48 f12 e w : Bool) (vin : W16)
  | secondFeedAppears
  | busbarPairLost (west : Bool)
  | feedUndervoltage
  | standbyPowerOn (hubOk eastOk : Bool)
  | standbyPowerLoss
  | warmRstNLow
  | coldRstNLow
  | perstNAssert (b : Fin 2)
  | pcieLinkUp (b : Fin 2) (lanes : Fin 17) (rate : Fin 4)
  | hotResetOrLinkDown (b : Fin 2) (down : Bool)
  | vfFunctionLevelReset (b : Fin 2) (v : Fin 24)
  | pfFunctionLevelReset (b : Fin 2)
  | busMasterEnableCleared (f : Fin 50)
  | bootGo (target : Fin 8)
  | instarSkeleton (dark : List StackNo) (silent : List (Fin 288)) (silentPorts : List (Fin 4)) (hubFault : Bool)
  | instarIdentify
  | instarClocks (unlocked : List (Fin 288)) (fault : Bool)
  | instarTrain (links : List LinkTrain) (tables : List RouterTables) (lanes : List (Nat × Nat × Nat))
  | stackTrainDone (k : StackNo) (ok : Bool) (step : BitVec 3) (code : Byte) (ms : W16) (bad : List (Fin 32))
  | instarLoad (b : Option Bundle)
  | broadcastRoundEnd (lost : List (Receiver × Nat × Bool))
  | p2pLoadAttempt (r : Receiver) (lost : List Nat)
  | instarProve (results : List (Receiver × Bool))
  | katReportTimeout (r : Receiver)
  | instarReconcile (storeOk : Bool)
  | instarComplete
  | instarTimeout
  | bootCocoon
  | stackWipeComplete (k : StackNo)
  | tileCmdqWrite (t : TileNo) (v : W32)
  | seqEnableSet (t : TileNo)
  | seqEnableClear (t : TileNo)
  | seqReset (t : TileNo)
  | seqTakeEntry (t : TileNo)
  | issueHoldRelease (t : TileNo)
  | nop (t : TileNo)
  | jmp (t : TileNo)
  | pset (t : TileNo)
  | fence (t : TileNo)
  | fenceComplete (t : TileNo)
  | iload (t : TileNo)
  | iloadComplete (t : TileNo)
  | endProg (t : TileNo)
  | endComplete (t : TileNo)
  | wopen (t : TileNo)
  | wopenHoldRelease (t : TileNo)
  | closeNow (t : TileNo)
  | closeQuiesce (t : TileNo)
  | quiesceTimeout (t : Tgt) (i : Nat)
  | closeComplete (t : Tgt)
  | wquery (t : TileNo)
  | ccntSet (t : TileNo)
  | ccntGet (t : TileNo)
  | loopStart (t : TileNo)
  | lstride (t : TileNo)
  | lbind (t : TileNo)
  | waitcnt (t : TileNo)
  | waitcntComplete (t : TileNo)
  | bar (t : TileNo)
  | cwait (t : TileNo)
  | cwaitArrival (t : TileNo)
  | flagor (t : TileNo)
  | stepFence (t : TileNo)
  | ttgt (t : TileNo)
  | putOp (t : TileNo)
  | getOp (t : TileNo)
  | fadd (t : TileNo)
  | cswap (t : TileNo)
  | forOr (t : TileNo)
  | tdmaOpStart (t : TileNo)
  | tdmaResponse (t : CtlTgt) (n : NodeNo) (q : W16) (a : Answer)
  | tdmaRetransmit (t : CtlTgt) (n : NodeNo) (q : W16)
  | segmentArrival (t : Tgt) (g : Segment)
  | segmentWriteVisible (t : Tgt) (i : Nat)
  | mma (t : TileNo)
  | mmaVeinStart (t : TileNo)
  | mmaComplete (t : TileNo)
  | mdrain (t : TileNo)
  | drainStart (t : TileNo)
  | drainResume (t : TileNo)
  | drainEnd (t : TileNo)
  | rbload (t : TileNo)
  | rbloadComplete (t : TileNo)
  | rbshift (t : TileNo)
  | rbshiftComplete (t : TileNo)
  | posld (t : TileNo)
  | posgen (t : TileNo)
  | mxset (t : TileNo)
  | mfence (t : TileNo)
  | vfa (t : TileNo)
  | via (t : TileNo)
  | vcmp (t : TileNo)
  | vsel (t : TileNo)
  | vkop (t : TileNo)
  | vcvt (t : TileNo)
  | vtr (t : TileNo)
  | vred (t : TileNo)
  | vscan (t : TileNo)
  | vxscan (t : TileNo)
  | vxscanPrefixArrival (t : TileNo)
  | vcomb (t : TileNo)
  | vld (t : TileNo)
  | vst (t : TileNo)
  | vdqpop (t : TileNo)
  | vdqpopRowArrival (t : TileNo)
  | viota (t : TileNo)
  | vrot (t : TileNo)
  | vxeInsnStart (t : TileNo)
  | vxeInsnComplete (t : TileNo) (n : Nat)
  | spmMopqWrite (t : TileNo) (off : Nat) (bs : List Byte)
  | mopFill (t : TileNo)
  | mopCopy (t : TileNo)
  | mopEnd (t : TileNo)
  | pwrUp (t : TileNo) (q : Fin 4)
  | pwrRetain (t : TileNo) (q : Fin 4)
  | pwrDown (t : TileNo) (q : Fin 4)
  | quarterOn (t : TileNo) (q : Fin 4)
  | spmScrubTick (t : TileNo)
  | liveRowRepair (t : TileNo)
  | snWopen (k : StackNo)
  | snCloseNow (k : StackNo)
  | snCloseQuiesce (k : StackNo)
  | snWquery (k : StackNo)
  | snCcntSet (k : StackNo)
  | sxeStrided (k : StackNo)
  | sxeTranspose (k : StackNo)
  | sxeCommandEnd (k : StackNo)
  | snFence (k : StackNo)
  | snBadOpcode (k : StackNo)
  | snSelfRefresh (k : StackNo)
  | snOff (k : StackNo) (fw : Bool)
  | snWake (k : StackNo)
  | stackReadRelease (k : StackNo) (j : Nat)
  | stackReadLate (k : StackNo)
  | snPatrolScrub (k : StackNo)
  | snChunkRepair (k : StackNo) (ppr : Bool)
  | snRecalibration (k : StackNo) (failed : List (Fin 32)) (ecc : W32)
  | snTemperatureChange (k : StackNo) (temp : Byte)
  | routerHeadArrival (n : NodeNo) (fc : Nat) (hs : List PktHead)
  | scheduledFlitArrival (n : NodeNo) (fc : Nat) (inPort inCh : Nat) (dev : BitVec 24)
  | ctlRegRd (t : CtlTgt) (tag : Byte) (off n : Nat)
  | ctlRegWr (t : CtlTgt) (tag : Byte) (off : Nat) (vs : List W32)
  | ctlRegRsp (n : NodeNo) (errs : List (Fin 13 × Fin 4))
  | ctlMsg (n : NodeNo) (errs : List (Fin 13 × Fin 4))
  | ctlMbx (g : Segment)
  | ctlHeartbeat (n : NodeNo) (errs : List (Fin 13 × Fin 4))
  | heartbeatSend (n : NodeNo)
  | syncArrival (n : NodeNo) (ch : Fin 17) (c : SyncChild)
  | syncDelivery (n : NodeNo) (ch : Fin 16)
  | wingbeatSend (p : PartNo)
  | wingbeatArrival (n : NodeNo)
  | wingbeatRelease (p : PartNo)
  | xchgStreamStart (n : NodeNo) (i : Fin 16) (j : Nat) (late : List Nat)
  | exchangeReport (n : NodeNo)
  | stepCombine (p : PartNo)
  | resumeWingbeat (p : PartNo)
  | wingbeatWatchdog (p : PartNo) (silent : List NodeNo)
  | probeTimeout (n : NodeNo)
  | qpCtailWrite (f : Fin 50) (q : Fin 8) (v : W32) (tee : Bool)
  | qpSheadWrite (f : Fin 50) (q : Fin 8) (v : W32) (tee : Bool)
  | qpEnable (f : Fin 50) (q : Fin 8) (tee : Bool)
  | qpDisable (f : Fin 50) (q : Fin 8) (tee : Bool)
  | qpRunClear (f : Fin 50) (q : Fin 8) (tee : Bool)
  | commandFetched (f : Fin 50) (q : Fin 8) (ok : Bool) (e : BitVec 512)
  | irqCoalesceTimeout (f : Fin 50) (q : Fin 8)
  | runStep (f : Fin 50) (q : Fin 8) (tag : W16)
  | doorbell (f : Fin 50) (q : Fin 8) (tag : W16)
  | queryCounter (f : Fin 50) (q : Fin 8) (tag : W16)
  | queryCounterTimeout (f : Fin 50) (q : Fin 8) (tag : W16)
  | hostNop (f : Fin 50) (q : Fin 8) (tag : W16)
  | loadImage (f : Fin 50) (q : Fin 8) (tag : W16) (room : Bool) (img : Option (List Byte))
  | halt (f : Fin 50) (q : Fin 8) (tag : W16)
  | resetPartition (f : Fin 50) (q : Fin 8) (tag : W16)
  | dmaWrite (f : Fin 50) (q : Fin 8) (tag : W16) (bs : Option (List Byte))
  | dmaRead (f : Fin 50) (q : Fin 8) (tag : W16)
  | apertureMap (f : Fin 50) (q : Fin 8) (tag : W16)
  | apertureUnmap (f : Fin 50) (q : Fin 8) (tag : W16)
  | apertureUnmapComplete (f : Fin 50) (q : Fin 8) (tag : W16)
  | windowOpen (f : Fin 50) (q : Fin 8) (tag : W16)
  | windowClose (f : Fin 50) (q : Fin 8) (tag : W16)
  | asyncEvent (f : Fin 50) (q : Fin 8) (tag : W16)
  | setTwin (f : Fin 50) (q : Fin 8) (tag : W16) (lat : Fin 257)
  | setPowerCap (f : Fin 50) (q : Fin 8) (tag : W16)
  | setPortRole (f : Fin 50) (q : Fin 8) (tag : W16)
  | policy (f : Fin 50) (q : Fin 8) (tag : W16) (pkt : Option PolicyPkt)
  | apertureWrite (f : Fin 50) (off : Nat) (bs : List Byte) (tee : Bool)
  | apertureRead (f : Fin 50) (off len : Nat) (tee : Bool)
  | fnAptFenceRead (f : Fin 50) (tee : Bool)
  | bar2Write (f : Fin 50) (tee : Bool)
  | tdispMessage (f : Fin 50) (m : TdispMsg)
  | mbaInGo (f : Fin 50) (tee : Bool)
  | mailboxTake (m : MboxRef)
  | mailboxDone (m : MboxRef)
  | mbaOutGo (f : Fin 50) (msg : List W32)
  | mbaOutAck (f : Fin 50) (tee : Bool)
  | mbxTimeoutExpiry (m : MboxRef)
  | mbbLockRead (k : StackNo) (m : Fin 4) (c q : W16)
  | mbbLockRelease (k : StackNo) (m : Fin 4) (c q : W16)
  | mbbGo (k : StackNo) (m : Fin 4) (c q : W16)
  | mbbLockExpiry (k : StackNo) (m : Fin 4)
  | mbbResultAnswered (k : StackNo) (m : Fin 4)
  | mbaPing (f : Fin 50)
  | mbaBbRead (f : Fin 50)
  | mbaHostMark (f : Fin 50)
  | mbbPing (k : StackNo) (m : Fin 4)
  | mbbHaltSelf (k : StackNo) (m : Fin 4)
  | ethFrameRx (q : Fin 4) (port : Fin 8) (f : Frame)
  | tkBind (q : Fin 4) (p : PartNo)
  | tkUnbind (q : Fin 4) (p : PartNo)
  | tkUnbindComplete (q : Fin 4) (p : PartNo)
  | connOpen (q : Fin 4) (p : PartNo)
  | connClose (q : Fin 4) (p : PartNo)
  | connQuery (q : Fin 4) (p : PartNo)
  | wrWrite (q : Fin 4) (p : PartNo)
  | wrRead (q : Fin 4) (p : PartNo)
  | wrFadd (q : Fin 4) (p : PartNo)
  | wrCswap (q : Fin 4) (p : PartNo)
  | wrFor (q : Fin 4) (p : PartNo)
  | wrCompletion (q : Fin 4) (i : Nat)
  | pdOnpanelRetransmit (d : Fin 4) (n : NodeNo) (q : W16)
  | roceAckTimeout (q : Fin 4) (c : Fin 4096)
  | uetRtoExpiry (q : Fin 4) (c : Fin 4096) (psn : Nat)
  | cnpRateIncrease (q : Fin 4) (c : Fin 4096)
  | ethPortUp (q : Fin 4) (port : Fin 8) (ok : Bool)
  | ethPortDown (q : Fin 4) (port : Fin 8)
  | qRetrain (q quad : Fin 4)
  | groupCreate (q : Fin 4) (p : PartNo) (d : GroupDesc)
  | groupShrink (q : Fin 4) (p : PartNo)
  | shrinkDigestsComplete (q : Fin 4) (g : Fin 64)
  | shrinkTimeout (q : Fin 4) (g : Fin 64)
  | groupDissolve (q : Fin 4) (p : PartNo)
  | allReduce (q : Fin 4) (p : PartNo)
  | reduceScatter (q : Fin 4) (p : PartNo)
  | allGather (q : Fin 4) (p : PartNo)
  | broadcast (q : Fin 4) (p : PartNo)
  | collBarrier (q : Fin 4) (p : PartNo)
  | collComplete (q : Fin 4) (i : Nat)
  | ckptStream (q : Fin 4) (p : PartNo)
  | restore (q : Fin 4) (p : PartNo)
  | digest (q : Fin 4) (p : PartNo)
  | epOpen (q : Fin 4) (p : PartNo)
  | epRequestArrival (q : Fin 4) (c : Fin 4096)
  | respond (q : Fin 4) (p : PartNo)
  | epFree (q : Fin 4) (p : PartNo)
  | epClose (q : Fin 4) (p : PartNo)
  | keepaliveSend (q : Fin 4) (g : Fin 64) (r : Fin 4096)
  | partnerLivenessTimeout (q : Fin 4) (g : Fin 64) (r : Fin 4096)
  | partnerPauseTimeout (q : Fin 4) (g : Fin 64) (r : Fin 4096)
  | abortReceived (q : Fin 4) (g : Fin 64) (epoch : W32) (lost : Fin 4096)
  | stragglerTimeout (q : Fin 4) (i : Nat)
  | ecRecordRewrite (p : PartNo)
  | heartbeatTimeout (n : NodeNo)
  | spareWake (site : Fin 288) (ok : Bool) (cause : Fin 8) (lost : List (Fin 4 × BitVec 8))
  | siteEfuseTrip (key : Fin 293)
  | sectorEfuseTrip (k : StackNo)
  | phaseFailure (key : Fin 293) (rail : Fin 8) (phase : Fin 16)
  | inrushRequest (k : StackNo) (cell : W16) (cls : InrushClass)
  | inrushGrant (k : StackNo) (i : BitVec 12)
  | inrushWaitExpiry (k : StackNo)
  | rampEnd (k : StackNo) (cell : W16)
  | sectorOvercurrent (k : StackNo) (i : BitVec 12)
  | budgetDivide (draw : W16) (demand : List W16) (reads : List DieRead)
  | budgetLoanLapse (k : StackNo)
  | inputPowerSample (p vin : W16)
  | regionSleep (d : DieNo)
  | regionAon (d : DieNo)
  | regionWake (d : DieNo)
  | ref10Loss
  | tbmFrefWrite (ext present : Bool)
  | fabricPllLockLoss (n : NodeNo)
  | vlogicDroop (d : DieNo) (t : Fin 17) (periods : W16) (ended : Bool)
  | eyespotReport (n : NodeNo) (e : Fin 18) (code : BitVec 4) (stretched : W16)
  | tbPulseSend
  | tbPulseArrival (n : NodeNo) (drift : Int)
  | tbPulseMissing (n : NodeNo)
  | ppsEdge (off adj : Int)
  | tbLoRead (n : NodeNo)
  | tbmPpsStampLoRead
  | rtcSecWrite (v : W32)
  | thermalBudgetUpdate
  | coolantFlowRead (r : Option (W16 × W16 × W16))
  | coolantTempRead (tin tout : Option W16)
  | flowFailNLow
  | flowStopForcedHalt (p : PartNo)
  | flowStopEnd (pin : Bool)
  | hotspotUpdate (n : NodeNo) (rs : List HotRead)
  | throttleRecoveryStep (n : NodeNo)
  | hardTrip (at_ : TripAt)
  | spdmRequest (v : SpdmVia) (req : SpdmReq)
  | pqEndorse (v : SpdmVia) (n : Fin 4) (nonce : BitVec 256)
  | kemGet (f : Fin 50) (n : Fin 4)
  | ownerBind (f : Fin 50) (n : Fin 4) (id : BitVec 384) (ct : List Byte)
  | nkSet (v : SpdmVia) (n : Fin 4) (p : PartNo) (i : Fin 16) (key : BitVec 256) (macOk wrapOk : Bool)
  | nkClear (v : SpdmVia) (n : Fin 4) (p : PartNo) (i : Fin 16) (macOk : Bool)
  | ownerRelease (v : SpdmVia) (n : Fin 4) (p : PartNo) (macOk : Bool)
  | kpStatus (v : SpdmVia) (n : Fin 4) (p : PartNo)
  | cakSet (v : SpdmVia) (n : Fin 4) (key : BitVec 256)
  | bindRoles
  | rotateRoles
  | layoutPkt
  | debugUnlock
  | fwPolicy
  | fuseWrite
  | recordClear
  | keyHierarchy
  | rwqWrite
  | polCounterLoRead
  | scoreKick
  | scoreWatchdogExpiry
  | fwUnrecoverableError
  | scoreMismatch
  | shedLevelEval (c0 c1 c2 c3 : Fin 101)
  | telemetryWrite
  | mctpSetEndpointId (eid : Byte)
  | vdmRegRead (off : BitVec 24) (n : Nat)
  | vdmRegWrite (t : VdmTarget) (v : W32)
  | vdmBbInfo
  | vdmBbRead (copy : Byte) (first : W32) (n : Byte)
  | vdmCocoon
  | vdmWarmReset
  | vdmPolicyChunk (off : Nat) (bs : List Byte) (last : Option PolicyPkt)
  | pldmFwData (off : Nat) (bs : List Byte)
  | pldmVerifyComplete (sigOk : Bool) (svn : W16) (signer : Fin 4) (opSig : Bool)
  | pldmActivateFirmware (selfContained : Bool)
  | bbRecordAppend
  | repairReport
  | serviceSpiRead (east low : Bool) (off : BitVec 26) (n : Fin 65)
  | cellWopen (p : PartNo)
  | cellCloseNow (p : PartNo)
  | cellCloseQuiesce (p : PartNo)
  | cellCloseEnded (p : PartNo)
  | cellWquery (p : PartNo)
  | registerWrite (p : RegPlace) (off : Nat) (v : W32)
  | fwRestarted
  | proboscisAccess (a : DebugAccess)
  | scpmOverClears (k : StackNo) (i : BitVec 12)
  | selfRefreshExit (k : StackNo)
  deriving DecidableEq, Repr

end Sys2Proof
end

