-- ==== Sys2Proof/Decode.lean ====
section
/-! DEFINITION. What a table word spells. The opcode table gives no row any bits, so no word spells a command. -/

namespace Sys2Proof

/-- The command a word of `nbits` bits spells: none, for the table gives its rows no bits. -/
def decodeTableWord (_nbits _w : Nat) : Option Instr := none

end Sys2Proof
end

