-- ==== Sys2Proof/Machine/Bits.lean ====
section
/-! DEFINITION. Bit fields, sign extension, byte order and the checks sums the spec names. -/

namespace Sys2Proof.Machine

/-- Bits [hi:lo] of a word, as a number. -/
def fld {n : Nat} (w : BitVec n) (hi lo : Nat) : Nat := (w.toNat >>> lo) % 2 ^ (hi + 1 - lo)

/-- Bit `i` of a word. -/
def bit {n : Nat} (w : BitVec n) (i : Nat) : Bool := w.getLsbD i

/-- The word with bits [hi:lo] replaced by `v`, taken modulo the field's width. -/
def setFld {n : Nat} (w : BitVec n) (hi lo v : Nat) : BitVec n :=
  BitVec.ofNat n (w.toNat - fld w hi lo * 2 ^ lo + (v % 2 ^ (hi + 1 - lo)) * 2 ^ lo)

/-- The word with bit `i` set. -/
def setBit {n : Nat} (w : BitVec n) (i : Nat) : BitVec n := w ||| BitVec.ofNat n (2 ^ i)

/-- The word with bit `i` cleared. -/
def clrBit {n : Nat} (w : BitVec n) (i : Nat) : BitVec n := w &&& ~~~(BitVec.ofNat n (2 ^ i))

/-- A counter that stops at its largest value. -/
def satInc {n : Nat} (w : BitVec n) : BitVec n := if w.toNat + 1 < 2 ^ n then w + 1#n else w

/-- A counter that adds `k` and stops at its largest value. -/
def satAdd {n : Nat} (w : BitVec n) (k : Nat) : BitVec n :=
  if w.toNat + k < 2 ^ n then BitVec.ofNat n (w.toNat + k) else BitVec.ofNat n (2 ^ n - 1)

/-- `b` as a number. -/
def b2n (b : Bool) : Nat := if b then 1 else 0

/-- The two's-complement reading of the low `w` bits of `v`. -/
def signedOf (w v : Nat) : Int := if v % 2 ^ w < 2 ^ (w - 1) then Int.ofNat (v % 2 ^ w) else Int.ofNat (v % 2 ^ w) - 2 ^ w

/-- The low `w` bits of an integer, two's complement. -/
def intMod (w : Nat) (v : Int) : Nat := (v % (2 ^ w : Int)).toNat

/-- `n` clamped to `lo … hi`. -/
def clampNat (lo hi n : Nat) : Nat := if n < lo then lo else if hi < n then hi else n

/-- Division rounded up. -/
def ceilDiv (a b : Nat) : Nat := (a + b - 1) / b

/-- Little-endian bytes of `v` (R10). -/
def bytesLE : Nat → Nat → List Byte
  | 0, _ => []
  | k + 1, v => BitVec.ofNat 8 v :: bytesLE k (v / 256)

/-- The number a little-endian byte string spells (R10). -/
def ofLE : List Byte → Nat
  | [] => 0
  | b :: t => b.toNat + 256 * ofLE t

/-- One step of a bit-serial CRC of width `w` and polynomial `poly`, most significant bit first. -/
def crcBit (w poly : Nat) (c : Nat) (b : Bool) : Nat :=
  let top := (c / 2 ^ (w - 1)) % 2 == 1
  let c' := (c * 2) % 2 ^ w
  if top != b then c' ^^^ poly else c'

/-- A CRC over one byte, most significant bit first. -/
def crcByte (w poly c : Nat) (b : Byte) : Nat :=
  [7, 6, 5, 4, 3, 2, 1, 0].foldl (fun a i => crcBit w poly a (b.getLsbD i)) c

/-- CRC-16 with polynomial 0x1021 and initial value 0xFFFF over bytes. -/
def crc16 (bs : List Byte) : Nat := bs.foldl (crcByte 16 0x1021) 0xFFFF

/-- CRC-32 over bytes (R346): polynomial 0x04C11DB7 reflected, initial value and final exclusive-or all ones. -/
def crc32 (bs : List Byte) : Nat :=
  let one := fun (c : Nat) => if c % 2 = 1 then (c / 2) ^^^ 0xEDB88320 else c / 2
  (bs.foldl (fun c b => one (one (one (one (one (one (one (one (c ^^^ b.toNat))))))))) 0xFFFFFFFF) ^^^ 0xFFFFFFFF

/-- Bits of `v` below `k`, from the most significant down. -/
def bitsMsb (v : Nat) : Nat → List Bool
  | 0 => []
  | k + 1 => v.testBit k :: bitsMsb v k

/-- `x` placed by its key among a list with rising keys. -/
def insertBy {α : Type} (k : α → Nat) (x : α) : List α → List α
  | [] => [x]
  | y :: t => if k x < k y then x :: y :: t else y :: insertBy k x t

/-- A list in the order of its keys. -/
def sortBy {α : Type} (k : α → Nat) (l : List α) : List α := l.foldl (fun a x => insertBy k x a) []

end Sys2Proof.Machine
end

