-- ==== Sys2Proof/Machine/RegMap.lean ====
section
/-! DEFINITION. The registers that the panel keeps as words (chapters 12–22): where each field of their tables lies, the
reset values and the bits that a write sets or clears (R14). -/

namespace Sys2Proof.Machine

/-- A register field: the offset of its register in its space, and its bits. -/
structure Fd where
  off : Nat
  hi : Nat
  lo : Nat
  deriving DecidableEq, Repr

/-! ### Queue pair q, at BAR0 0x1000 + 0x40 × q -/

/-- QP_CB_LO. -/
def qpCbLo (q : Nat) : Fd := ⟨0x1000 + 0x40 * q, 31, 0⟩
/-- QP_CB_HI. -/
def qpCbHi (q : Nat) : Fd := ⟨0x1004 + 0x40 * q, 31, 0⟩
/-- QP_SB_LO. -/
def qpSbLo (q : Nat) : Fd := ⟨0x1008 + 0x40 * q, 31, 0⟩
/-- QP_SB_HI. -/
def qpSbHi (q : Nat) : Fd := ⟨0x100C + 0x40 * q, 31, 0⟩
/-- QP_CSZ. -/
def qpCsz (q : Nat) : Fd := ⟨0x1010 + 0x40 * q, 3, 0⟩
/-- QP_SSZ. -/
def qpSsz (q : Nat) : Fd := ⟨0x1010 + 0x40 * q, 7, 4⟩
/-- QP_FMT. -/
def qpFmt (q : Nat) : Fd := ⟨0x1010 + 0x40 * q, 8, 8⟩
/-- QP_EN. -/
def qpEn (q : Nat) : Fd := ⟨0x1010 + 0x40 * q, 9, 9⟩
/-- QP_VEC. -/
def qpVec (q : Nat) : Fd := ⟨0x1010 + 0x40 * q, 15, 10⟩
/-- QP_CTAIL. -/
def qpCtail (q : Nat) : Fd := ⟨0x1014 + 0x40 * q, 11, 0⟩
/-- QP_CHEAD. -/
def qpChead (q : Nat) : Fd := ⟨0x1018 + 0x40 * q, 11, 0⟩
/-- QP_SHEAD. -/
def qpShead (q : Nat) : Fd := ⟨0x101C + 0x40 * q, 12, 0⟩
/-- QP_RUN. -/
def qpRun (q : Nat) : Fd := ⟨0x1020 + 0x40 * q, 0, 0⟩
/-- QP_STALL_STS. -/
def qpStallSts (q : Nat) : Fd := ⟨0x1020 + 0x40 * q, 1, 1⟩
/-- QP_DMA_ERR. -/
def qpDmaErr (q : Nat) : Fd := ⟨0x1020 + 0x40 * q, 2, 2⟩
/-- QP_CFG_ERR. -/
def qpCfgErr (q : Nat) : Fd := ⟨0x1020 + 0x40 * q, 3, 3⟩
/-- QP_OUTST. -/
def qpOutst (q : Nat) : Fd := ⟨0x1020 + 0x40 * q, 28, 16⟩
/-- QP_COAL_N. -/
def qpCoalN (q : Nat) : Fd := ⟨0x1024 + 0x40 * q, 7, 0⟩
/-- QP_COAL_US. -/
def qpCoalUs (q : Nat) : Fd := ⟨0x1024 + 0x40 * q, 23, 8⟩
/-! ### Function registers -/

/-- FN_PART. -/
def fnPart : Fd := ⟨0x0, 4, 0⟩
/-- FN_IS_PF. -/
def fnIsPf : Fd := ⟨0x0, 5, 5⟩
/-- FN_PORT. -/
def fnPort : Fd := ⟨0x0, 6, 6⟩
/-- FN_VF. -/
def fnVf : Fd := ⟨0x0, 11, 7⟩
/-- FN_SCH_STATE. -/
def fnSchState : Fd := ⟨0x4, 2, 0⟩
/-- FN_HALT_WHY. -/
def fnHaltWhy : Fd := ⟨0x4, 6, 3⟩
/-- FN_PFLAGS_LAST. -/
def fnPflagsLast : Fd := ⟨0x8, 7, 0⟩
/-- FN_PFLAGS_RUN. -/
def fnPflagsRun : Fd := ⟨0x8, 15, 8⟩
/-- FN_COMMITTED. -/
def fnCommitted : Fd := ⟨0xC, 31, 0⟩
/-- FN_APT_FENCE. -/
def fnAptFence : Fd := ⟨0x10, 31, 0⟩
/-- FN_APT_FAILS. -/
def fnAptFails : Fd := ⟨0x14, 31, 0⟩
/-- APTERR_CODE. -/
def apterrCode : Fd := ⟨0x18, 3, 0⟩
/-- APTERR_APT. -/
def apterrApt : Fd := ⟨0x18, 7, 4⟩
/-- APTERR_WR. -/
def apterrWr : Fd := ⟨0x18, 8, 8⟩
/-- APTERR_V. -/
def apterrV : Fd := ⟨0x18, 9, 9⟩
/-- APTERR_OFF. -/
def apterrOff : Fd := ⟨0x1C, 31, 0⟩
/-- FN_FWCMDS. -/
def fnFwcmds : Fd := ⟨0x20, 6, 0⟩
/-- FN_EVQ. -/
def fnEvq : Fd := ⟨0x20, 13, 7⟩
/-- FN_BAR2_WR. -/
def fnBar2Wr : Fd := ⟨0x24, 31, 0⟩
/-! ### Class A channel registers -/

/-- MBA_IN_DATA[i]. -/
def mbaInData (i : Nat) : Fd := ⟨0x10000 + 4 * i, 31, 0⟩
/-- MBA_IN_GO. -/
def mbaInGo : Fd := ⟨0x10040, 0, 0⟩
/-- MBA_IN_PEND. -/
def mbaInPend : Fd := ⟨0x10044, 0, 0⟩
/-- MBA_IN_TAKEN. -/
def mbaInTaken : Fd := ⟨0x10044, 1, 1⟩
/-- MBA_IN_DONE. -/
def mbaInDone : Fd := ⟨0x10044, 2, 2⟩
/-- MBA_IN_TIMEOUT. -/
def mbaInTimeout : Fd := ⟨0x10044, 3, 3⟩
/-- MBA_IN_RRESET. -/
def mbaInRreset : Fd := ⟨0x10044, 4, 4⟩
/-- MBA_IN_OVR. -/
def mbaInOvr : Fd := ⟨0x10044, 5, 5⟩
/-- MBA_IN_SEQ. -/
def mbaInSeq : Fd := ⟨0x10044, 31, 16⟩
/-- MBA_IN_RESULT. -/
def mbaInResult : Fd := ⟨0x10048, 31, 0⟩
/-- MBA_OUT_DATA[i]. -/
def mbaOutData (i : Nat) : Fd := ⟨0x10100 + 4 * i, 31, 0⟩
/-- MBA_OUT_ACK. -/
def mbaOutAck : Fd := ⟨0x10140, 0, 0⟩
/-- MBA_OUT_PEND. -/
def mbaOutPend : Fd := ⟨0x10144, 0, 0⟩
/-- MBA_OUT_SEQ. -/
def mbaOutSeq : Fd := ⟨0x10144, 31, 16⟩
/-- MBA_VEC. -/
def mbaVec : Fd := ⟨0x10180, 5, 0⟩
/-- MBA_IRQ_EN. -/
def mbaIrqEn : Fd := ⟨0x10180, 6, 6⟩
/-- MBX_TIMEOUT. -/
def mbxTimeout : Fd := ⟨0x10180, 31, 16⟩
/-! ### Class B mailbox m, at block offset 0x40 × m -/

/-- MBB_LOCK. -/
def mbbLock (sec : Nat) (m : Nat) : Fd := ⟨0x40000 + 0x100 * sec + 0x40 * m, 31, 0⟩
/-- MBB_OWNER. -/
def mbbOwner (sec : Nat) (m : Nat) : Fd := ⟨0x40004 + 0x100 * sec + 0x40 * m, 15, 0⟩
/-- MBB_HELD. -/
def mbbHeld (sec : Nat) (m : Nat) : Fd := ⟨0x40004 + 0x100 * sec + 0x40 * m, 16, 16⟩
/-- MBB_PEND. -/
def mbbPend (sec : Nat) (m : Nat) : Fd := ⟨0x40004 + 0x100 * sec + 0x40 * m, 17, 17⟩
/-- MBB_TAKEN. -/
def mbbTaken (sec : Nat) (m : Nat) : Fd := ⟨0x40004 + 0x100 * sec + 0x40 * m, 18, 18⟩
/-- MBB_DATA[i]. -/
def mbbData (sec : Nat) (m : Nat) (i : Nat) : Fd := ⟨0x40008 + 0x100 * sec + 0x40 * m + 4 * i, 31, 0⟩
/-- MBB_RPGA_LO. -/
def mbbRpgaLo (sec : Nat) (m : Nat) : Fd := ⟨0x40028 + 0x100 * sec + 0x40 * m, 31, 0⟩
/-- MBB_RPGA_HI. -/
def mbbRpgaHi (sec : Nat) (m : Nat) : Fd := ⟨0x4002C + 0x100 * sec + 0x40 * m, 23, 0⟩
/-- MBB_RTAG. -/
def mbbRtag (sec : Nat) (m : Nat) : Fd := ⟨0x40030 + 0x100 * sec + 0x40 * m, 15, 0⟩
/-- MBB_GO. -/
def mbbGo (sec : Nat) (m : Nat) : Fd := ⟨0x40034 + 0x100 * sec + 0x40 * m, 0, 0⟩
/-- MBX_TIMEOUT. -/
def mbbTimeout (sec : Nat) (m : Nat) : Fd := ⟨0x40038 + 0x100 * sec + 0x40 * m, 15, 0⟩
/-- MBB_SEQ. -/
def mbbSeq (sec : Nat) (m : Nat) : Fd := ⟨0x40038 + 0x100 * sec + 0x40 * m, 31, 16⟩
/-! ### ETH_DIE_STATUS, ETH_QUAD_CFG[q], ETH_RTO and ETH_UET_RTO -/

/-- ETH_ROLE. -/
def ethRole : Fd := ⟨0x100000, 0, 0⟩
/-- ETH_PORTS_UP. -/
def ethPortsUp : Fd := ⟨0x100000, 8, 1⟩
/-- QMODE. -/
def qmode (q : Nat) : Fd := ⟨0x100010 + 4 * q, 3, 0⟩
/-- Q_AN. -/
def qAn (q : Nat) : Fd := ⟨0x100010 + 4 * q, 4, 4⟩
/-- Q_RETRAIN. -/
def qRetrain (q : Nat) : Fd := ⟨0x100010 + 4 * q, 5, 5⟩
/-- Q_BADLANE. -/
def qBadlane (q : Nat) : Fd := ⟨0x100010 + 4 * q, 9, 6⟩
/-- ETH_RTO_US. -/
def ethRtoUs : Fd := ⟨0x100020, 15, 0⟩
/-- UET_RTO_US. -/
def uetRtoUs : Fd := ⟨0x100024, 15, 0⟩
/-! ### Port p -/

/-- PT_STATE. -/
def ptState (p : Nat) : Fd := ⟨0x100100 + 0x80 * p, 2, 0⟩
/-- PT_MACSEC. -/
def ptMacsec (p : Nat) : Fd := ⟨0x100100 + 0x80 * p, 3, 3⟩
/-- PT_PTP. -/
def ptPtp (p : Nat) : Fd := ⟨0x100100 + 0x80 * p, 4, 4⟩
/-- PT_ECHO. -/
def ptEcho (p : Nat) : Fd := ⟨0x100100 + 0x80 * p, 5, 5⟩
/-- PT_PFC. -/
def ptPfc (p : Nat) : Fd := ⟨0x100100 + 0x80 * p, 6, 6⟩
/-- PT_PFC_PRIO. -/
def ptPfcPrio (p : Nat) : Fd := ⟨0x100100 + 0x80 * p, 9, 7⟩
/-- PT_FLAPS. -/
def ptFlaps (p : Nat) : Fd := ⟨0x100100 + 0x80 * p, 31, 16⟩
/-- PT_MTU. -/
def ptMtu (p : Nat) : Fd := ⟨0x100104 + 0x80 * p, 13, 0⟩
/-- PT_MS_REPLAY. -/
def ptMsReplay (p : Nat) : Fd := ⟨0x100104 + 0x80 * p, 21, 14⟩
/-- PT_FEC_CORR. -/
def ptFecCorr (p : Nat) : Fd := ⟨0x100108 + 0x80 * p, 31, 0⟩
/-- PT_FEC_UNCORR. -/
def ptFecUncorr (p : Nat) : Fd := ⟨0x10010C + 0x80 * p, 31, 0⟩
/-- PT_RX_FCS. -/
def ptRxFcs (p : Nat) : Fd := ⟨0x100110 + 0x80 * p, 31, 0⟩
/-- PT_RX_NOCLASS. -/
def ptRxNoclass (p : Nat) : Fd := ⟨0x100114 + 0x80 * p, 31, 0⟩
/-- PT_AUTH_FAIL. -/
def ptAuthFail (p : Nat) : Fd := ⟨0x100118 + 0x80 * p, 31, 0⟩
/-- PT_REPLAY. -/
def ptReplay (p : Nat) : Fd := ⟨0x10011C + 0x80 * p, 31, 0⟩
/-- PT_OVER_RATE. -/
def ptOverRate (p : Nat) : Fd := ⟨0x100120 + 0x80 * p, 31, 0⟩
/-- PT_RX_FULL. -/
def ptRxFull (p : Nat) : Fd := ⟨0x100124 + 0x80 * p, 31, 0⟩
/-- PT_MACSEC_DROP. -/
def ptMacsecDrop (p : Nat) : Fd := ⟨0x100128 + 0x80 * p, 31, 0⟩
/-! ### TK[k] -/

/-- TK_OWNER. -/
def tkOwner (k : Nat) : Fd := ⟨0x200000 + 0x20 * k, 4, 0⟩
/-- TK_GEN. -/
def tkGen (k : Nat) : Fd := ⟨0x200000 + 0x20 * k, 12, 5⟩
/-- TK_BOUND. -/
def tkBound (k : Nat) : Fd := ⟨0x200000 + 0x20 * k, 13, 13⟩
/-- TK_RIGHTS. -/
def tkRights (k : Nat) : Fd := ⟨0x200000 + 0x20 * k, 16, 14⟩
/-- TK_LOCAL. -/
def tkLocal (k : Nat) : Fd := ⟨0x200000 + 0x20 * k, 17, 17⟩
/-- TK_CONN. -/
def tkConn (k : Nat) : Fd := ⟨0x200000 + 0x20 * k, 29, 18⟩
/-- TK_CELL. -/
def tkCell (k : Nat) : Fd := ⟨0x200004 + 0x20 * k, 15, 0⟩
/-- TK_TAG. -/
def tkTag (k : Nat) : Fd := ⟨0x200004 + 0x20 * k, 31, 16⟩
/-- TK_PGA_LO. -/
def tkPgaLo (k : Nat) : Fd := ⟨0x200008 + 0x20 * k, 31, 0⟩
/-- TK_PGA_HI. -/
def tkPgaHi (k : Nat) : Fd := ⟨0x20000C + 0x20 * k, 23, 0⟩
/-- TK_LEN64. -/
def tkLen64 (k : Nat) : Fd := ⟨0x200010 + 0x20 * k, 30, 0⟩
/-- TK_INFL. -/
def tkInfl (k : Nat) : Fd := ⟨0x200014 + 0x20 * k, 15, 0⟩
/-- TK_ERR. -/
def tkErr (k : Nat) : Fd := ⟨0x200014 + 0x20 * k, 31, 16⟩
/-! ### CONN[c] -/

/-- CN_STATE. -/
def cnState (c : Nat) : Fd := ⟨0x300000 + 0x40 * c, 2, 0⟩
/-- CN_UET. -/
def cnUet (c : Nat) : Fd := ⟨0x300000 + 0x40 * c, 3, 3⟩
/-- CN_PART. -/
def cnPart (c : Nat) : Fd := ⟨0x300000 + 0x40 * c, 8, 4⟩
/-- CN_PORTS. -/
def cnPorts (c : Nat) : Fd := ⟨0x300000 + 0x40 * c, 16, 9⟩
/-- CN_EPOCH. -/
def cnEpoch (c : Nat) : Fd := ⟨0x300000 + 0x40 * c, 20, 17⟩
/-- CN_ERRWHY. -/
def cnErrwhy (c : Nat) : Fd := ⟨0x300004 + 0x40 * c, 3, 0⟩
/-- CN_RCODE. -/
def cnRcode (c : Nat) : Fd := ⟨0x300004 + 0x40 * c, 7, 4⟩
/-- CN_TXCTR_LO. -/
def cnTxctrLo (c : Nat) : Fd := ⟨0x300008 + 0x40 * c, 31, 0⟩
/-- CN_TXCTR_HI. -/
def cnTxctrHi (c : Nat) : Fd := ⟨0x30000C + 0x40 * c, 31, 0⟩
/-- CN_RETX. -/
def cnRetx (c : Nat) : Fd := ⟨0x300010 + 0x40 * c, 31, 0⟩
/-- CN_DUP. -/
def cnDup (c : Nat) : Fd := ⟨0x300014 + 0x40 * c, 31, 0⟩
/-- CN_RXLIM. -/
def cnRxlim (c : Nat) : Fd := ⟨0x300018 + 0x40 * c, 15, 0⟩
/-- CN_WR_OUTST. -/
def cnWrOutst (c : Nat) : Fd := ⟨0x300018 + 0x40 * c, 24, 16⟩
/-- CN_CMP_DROP. -/
def cnCmpDrop (c : Nat) : Fd := ⟨0x30001C + 0x40 * c, 31, 0⟩
/-! ### Effective-capacity record -/

/-- EC_GEN. -/
def ecGen (n : Nat) : Fd := ⟨0x28000 + 0x40 * n, 31, 0⟩
/-- EC_LDIES. -/
def ecLdies (n : Nat) : Fd := ⟨0x28004 + 0x40 * n, 7, 0⟩
/-- EC_LDIES_IMG. -/
def ecLdiesImg (n : Nat) : Fd := ⟨0x28004 + 0x40 * n, 15, 8⟩
/-- EC_STACKS. -/
def ecStacks (n : Nat) : Fd := ⟨0x28004 + 0x40 * n, 20, 16⟩
/-- EC_STACKS_DEG. -/
def ecStacksDeg (n : Nat) : Fd := ⟨0x28004 + 0x40 * n, 25, 21⟩
/-- EC_VARIANT. -/
def ecVariant (n : Nat) : Fd := ⟨0x28004 + 0x40 * n, 26, 26⟩
/-- EC_DERATE. -/
def ecDerate (n : Nat) : Fd := ⟨0x28004 + 0x40 * n, 27, 27⟩
/-- EC_SCORE. -/
def ecScore (n : Nat) : Fd := ⟨0x28008 + 0x40 * n, 15, 0⟩
/-- EC_CAP_W. -/
def ecCapW (n : Nat) : Fd := ⟨0x28008 + 0x40 * n, 31, 16⟩
/-- EC_SLIPS. -/
def ecSlips (n : Nat) : Fd := ⟨0x2800C + 0x40 * n, 31, 0⟩
/-- EC_TIME_LO. -/
def ecTimeLo (n : Nat) : Fd := ⟨0x28010 + 0x40 * n, 31, 0⟩
/-- EC_TIME_HI. -/
def ecTimeHi (n : Nat) : Fd := ⟨0x28014 + 0x40 * n, 31, 0⟩
/-! ### Group entry g -/

/-- GR_STATE. -/
def grState (g : Nat) : Fd := ⟨0x500000 + 0x40 * g, 2, 0⟩
/-- GR_PART. -/
def grPart (g : Nat) : Fd := ⟨0x500000 + 0x40 * g, 7, 3⟩
/-- GR_RAIL. -/
def grRail (g : Nat) : Fd := ⟨0x500000 + 0x40 * g, 9, 8⟩
/-- GR_NRAILS. -/
def grNrails (g : Nat) : Fd := ⟨0x500000 + 0x40 * g, 11, 10⟩
/-- GR_STATE_SELF. -/
def grStateSelf (g : Nat) : Fd := ⟨0x500000 + 0x40 * g, 12, 12⟩
/-- GR_N. -/
def grN (g : Nat) : Fd := ⟨0x500004 + 0x40 * g, 12, 0⟩
/-- GR_RANK. -/
def grRank (g : Nat) : Fd := ⟨0x500004 + 0x40 * g, 27, 16⟩
/-- GR_EPOCH. -/
def grEpoch (g : Nat) : Fd := ⟨0x500008 + 0x40 * g, 31, 0⟩
/-- GR_LIVE_US. -/
def grLiveUs (g : Nat) : Fd := ⟨0x50000C + 0x40 * g, 16, 0⟩
/-- GR_PAUSE_MS. -/
def grPauseMs (g : Nat) : Fd := ⟨0x500010 + 0x40 * g, 15, 0⟩
/-- GR_SLOW_MS. -/
def grSlowMs (g : Nat) : Fd := ⟨0x500010 + 0x40 * g, 31, 16⟩
/-- GR_LOST. -/
def grLost (g : Nat) : Fd := ⟨0x500014 + 0x40 * g, 11, 0⟩
/-- GR_LOST_V. -/
def grLostV (g : Nat) : Fd := ⟨0x500014 + 0x40 * g, 12, 12⟩
/-- GR_EPOCH_DROP. -/
def grEpochDrop (g : Nat) : Fd := ⟨0x500018 + 0x40 * g, 31, 0⟩
/-- GR_ABORTS. -/
def grAborts (g : Nat) : Fd := ⟨0x50001C + 0x40 * g, 15, 0⟩
/-- GR_HELD. -/
def grHeld (g : Nat) : Fd := ⟨0x50001C + 0x40 * g, 31, 16⟩
/-- GR_OPS. -/
def grOps (g : Nat) : Fd := ⟨0x500020 + 0x40 * g, 31, 0⟩
/-! ### BOOT registers -/

/-- BOOT_INSTAR. -/
def bootInstar : Fd := ⟨0x2000, 2, 0⟩
/-- BOOT_PHASE. -/
def bootPhase : Fd := ⟨0x2000, 4, 3⟩
/-- BOOT_CHRYSALIS. -/
def bootChrysalis : Fd := ⟨0x2000, 5, 5⟩
/-- BOOT_IMAGO. -/
def bootImago : Fd := ⟨0x2000, 6, 6⟩
/-- BOOT_CODE. -/
def bootCode : Fd := ⟨0x2000, 15, 8⟩
/-- BOOT_TRIES. -/
def bootTries : Fd := ⟨0x2000, 17, 16⟩
/-- BOOT_TARGET. -/
def bootTarget : Fd := ⟨0x2004, 2, 0⟩
/-- BOOT_COCOON. -/
def bootCocoon : Fd := ⟨0x2004, 3, 3⟩
/-- BOOT_MS. -/
def bootMs : Fd := ⟨0x2008, 31, 0⟩
/-- BOOT_STEP_MS. -/
def bootStepMs : Fd := ⟨0x200C, 15, 0⟩
/-- BOOT_GO_DROP. -/
def bootGoDrop : Fd := ⟨0x200C, 31, 16⟩
/-- BOOT_FW_ADDR_LO. -/
def bootFwAddrLo : Fd := ⟨0x2010, 31, 0⟩
/-- BOOT_FW_ADDR_HI. -/
def bootFwAddrHi : Fd := ⟨0x2014, 31, 0⟩
/-- BOOT_FW_LEN. -/
def bootFwLen : Fd := ⟨0x2018, 24, 0⟩
/-- BOOT_COUNT. -/
def bootCount : Fd := ⟨0x2020, 15, 0⟩
/-- BOOT_DIES_BAD. -/
def bootDiesBad : Fd := ⟨0x2024, 8, 0⟩
/-- BOOT_STACKS_BAD. -/
def bootStacksBad : Fd := ⟨0x2024, 13, 9⟩
/-- BOOT_PORTS_BAD. -/
def bootPortsBad : Fd := ⟨0x2024, 16, 14⟩
/-- BOOT_TILES_BAD. -/
def bootTilesBad : Fd := ⟨0x2028, 12, 0⟩
/-- BOOT_NEW_SOFT. -/
def bootNewSoft : Fd := ⟨0x2028, 24, 13⟩
/-- BOOT_ROUNDS. -/
def bootRounds : Fd := ⟨0x202C, 3, 0⟩
/-- BOOT_P2P. -/
def bootP2p : Fd := ⟨0x202C, 16, 4⟩
/-- BOOT_LOAD_FAIL. -/
def bootLoadFail : Fd := ⟨0x202C, 29, 17⟩
/-- BOOT_LINKS_FAILED. -/
def bootLinksFailed : Fd := ⟨0x2030, 10, 0⟩
/-- BOOT_LINKS_DEGR. -/
def bootLinksDegr : Fd := ⟨0x2030, 21, 11⟩
/-- BOOT_ERR_PSITE. -/
def bootErrPsite : Fd := ⟨0x2034, 8, 0⟩
/-- BOOT_ERR_INSTAR. -/
def bootErrInstar : Fd := ⟨0x2034, 11, 9⟩
/-- BOOT_LAST_MS[n]. -/
def bootLastMs (n : Nat) : Fd := ⟨0x2040 + 4 * n, 15, 0⟩
/-! ### Fault block -/

/-- FLT_RR_ACTIVE. -/
def fltRrActive : Fd := ⟨0x30000, 0, 0⟩
/-- FLT_RR_PROMPT. -/
def fltRrPrompt : Fd := ⟨0x30000, 1, 1⟩
/-- FLT_COCOON. -/
def fltCocoon : Fd := ⟨0x30000, 2, 2⟩
/-- FLT_RR_FIRST. -/
def fltRrFirst : Fd := ⟨0x30000, 11, 8⟩
/-- FLT_RR_REASONS. -/
def fltRrReasons : Fd := ⟨0x30000, 31, 16⟩
/-- FLT_HB_MISS. -/
def fltHbMiss : Fd := ⟨0x30004, 3, 0⟩
/-- FLT_WD_GRACE. -/
def fltWdGrace : Fd := ⟨0x30004, 7, 4⟩
/-- FLT_SPARE_LOW. -/
def fltSpareLow : Fd := ⟨0x30004, 12, 8⟩
/-- FLT_HB_LOST. -/
def fltHbLost : Fd := ⟨0x30008, 31, 0⟩
/-- FLT_WD_CNT. -/
def fltWdCnt : Fd := ⟨0x3000C, 15, 0⟩
/-- FLT_WD_SLOW. -/
def fltWdSlow : Fd := ⟨0x3000C, 31, 16⟩
/-- FLT_MOLTS. -/
def fltMolts : Fd := ⟨0x30010, 15, 0⟩
/-- FLT_MOLT_LAST_MS. -/
def fltMoltLastMs : Fd := ⟨0x30010, 31, 16⟩
/-- FLT_LAST_PSITE. -/
def fltLastPsite : Fd := ⟨0x30014, 8, 0⟩
/-- FLT_LAST_CAUSE. -/
def fltLastCause : Fd := ⟨0x30014, 12, 9⟩
/-- FLT_LAST_PART. -/
def fltLastPart : Fd := ⟨0x30014, 17, 13⟩
/-- FP_MOLTING. -/
def fpMolting (n : Nat) : Fd := ⟨0x30040 + 4 * n, 0, 0⟩
/-- FP_INVALID. -/
def fpInvalid (n : Nat) : Fd := ⟨0x30040 + 4 * n, 8, 1⟩
/-- FP_VARIANT. -/
def fpVariant (n : Nat) : Fd := ⟨0x30040 + 4 * n, 9, 9⟩
/-- FP_LAST_LDIE. -/
def fpLastLdie (n : Nat) : Fd := ⟨0x30040 + 4 * n, 17, 10⟩
/-! ### PMGR and SCPM registers -/

/-- PMGR_FEED. -/
def pmgrFeed : Fd := ⟨0x31000, 1, 0⟩
/-- PMGR_PAIR_E. -/
def pmgrPairE : Fd := ⟨0x31000, 2, 2⟩
/-- PMGR_PAIR_W. -/
def pmgrPairW : Fd := ⟨0x31000, 3, 3⟩
/-- PMGR_CAPPING. -/
def pmgrCapping : Fd := ⟨0x31000, 4, 4⟩
/-- PMGR_DERATE. -/
def pmgrDerate : Fd := ⟨0x31000, 5, 5⟩
/-- PMGR_CAP_W. -/
def pmgrCapW : Fd := ⟨0x31004, 15, 0⟩
/-- PMGR_LIMIT_W. -/
def pmgrLimitW : Fd := ⟨0x31004, 31, 16⟩
/-- PMGR_PIN_1S. -/
def pmgrPin1s : Fd := ⟨0x31008, 15, 0⟩
/-- PMGR_PIN_10MS. -/
def pmgrPin10ms : Fd := ⟨0x31008, 31, 16⟩
/-- PMGR_VIN. -/
def pmgrVin : Fd := ⟨0x3100C, 15, 0⟩
/-- PMGR_CUTS. -/
def pmgrCuts : Fd := ⟨0x3100C, 31, 16⟩
/-- SCPM_I. -/
def scpmI (s : Nat) : Fd := ⟨0x31100 + 0x20 * s, 11, 0⟩
/-- SCPM_RSV. -/
def scpmRsv (s : Nat) : Fd := ⟨0x31100 + 0x20 * s, 23, 12⟩
/-- SCPM_EFUSE. -/
def scpmEfuse (s : Nat) : Fd := ⟨0x31100 + 0x20 * s, 24, 24⟩
/-- SCPM_OVER. -/
def scpmOver (s : Nat) : Fd := ⟨0x31100 + 0x20 * s, 25, 25⟩
/-- SCPM_GRANTS. -/
def scpmGrants (s : Nat) : Fd := ⟨0x31104 + 0x20 * s, 15, 0⟩
/-- SCPM_SLOW. -/
def scpmSlow (s : Nat) : Fd := ⟨0x31104 + 0x20 * s, 31, 16⟩
/-- SCPM_QDEPTH. -/
def scpmQdepth (s : Nat) : Fd := ⟨0x31108 + 0x20 * s, 7, 0⟩
/-- SCPM_BUDGET_W. -/
def scpmBudgetW (s : Nat) : Fd := ⟨0x31108 + 0x20 * s, 19, 8⟩
/-- SCPM_ILIM. -/
def scpmIlim (s : Nat) : Fd := ⟨0x31108 + 0x20 * s, 31, 20⟩
/-! ### DPM block -/

/-- DPM_STATE. -/
def dpmState : Fd := ⟨0x60000, 2, 0⟩
/-- DPM_CAP70. -/
def dpmCap70 : Fd := ⟨0x60000, 3, 3⟩
/-- DPM_THROTTLE. -/
def dpmThrottle : Fd := ⟨0x60000, 4, 4⟩
/-- DPM_VLOGIC_MV. -/
def dpmVlogicMv : Fd := ⟨0x60000, 17, 8⟩
/-- DPM_BUDGET. -/
def dpmBudget : Fd := ⟨0x60004, 15, 0⟩
/-- DPM_POWER. -/
def dpmPower : Fd := ⟨0x60004, 31, 16⟩
/-- DPM_PF_VLINK. -/
def dpmPfVlink : Fd := ⟨0x60008, 2, 0⟩
/-- DPM_PF_VLOGIC. -/
def dpmPfVlogic : Fd := ⟨0x60008, 5, 3⟩
/-- DPM_PF_VARRAY. -/
def dpmPfVarray : Fd := ⟨0x60008, 8, 6⟩
/-- DPM_PF_VMIF. -/
def dpmPfVmif : Fd := ⟨0x60008, 11, 9⟩
/-- DPM_PF_VSERDES. -/
def dpmPfVserdes : Fd := ⟨0x60008, 14, 12⟩
/-- DPM_PF_VSTK. -/
def dpmPfVstk : Fd := ⟨0x60008, 17, 15⟩
/-- DPM_THR_US. -/
def dpmThrUs : Fd := ⟨0x6000C, 31, 0⟩
/-- DPM_PAUSES. -/
def dpmPauses : Fd := ⟨0x60010, 31, 0⟩
/-- DPM_BUDGET_MAX. -/
def dpmBudgetMax : Fd := ⟨0x60014, 15, 0⟩
/-! ### Clock block -/

/-- CLK_FPLL_LOCK. -/
def clkFpllLock : Fd := ⟨0x70000, 0, 0⟩
/-- TB_SYNCED. -/
def tbSynced : Fd := ⟨0x70000, 1, 1⟩
/-- TB_LO. -/
def tbLo : Fd := ⟨0x70008, 31, 0⟩
/-- TB_HI. -/
def tbHi : Fd := ⟨0x7000C, 31, 0⟩
/-- TB_CORR_CNT. -/
def tbCorrCnt : Fd := ⟨0x70010, 15, 0⟩
/-- TB_PULSE_MISS. -/
def tbPulseMiss : Fd := ⟨0x70010, 31, 16⟩
/-- VFAB_MV. -/
def vfabMv : Fd := ⟨0x70020, 9, 0⟩
/-- EYE_WARN_TH. -/
def eyeWarnTh : Fd := ⟨0x70030, 3, 0⟩
/-- EYE_CRIT_TH. -/
def eyeCritTh : Fd := ⟨0x70030, 7, 4⟩
/-- VF_FUSE_MV. -/
def vfFuseMv (i : Nat) : Fd := ⟨0x70040 + 4 * i, 9, 0⟩
/-- ACLK_STEP. -/
def aclkStep (n : Nat) : Fd := ⟨0x70100 + 0x10 * n, 6, 0⟩
/-- ACLK_STRETCHING. -/
def aclkStretching (n : Nat) : Fd := ⟨0x70100 + 0x10 * n, 7, 7⟩
/-- EYE_MARGIN. -/
def eyeMargin (n : Nat) : Fd := ⟨0x70100 + 0x10 * n, 11, 8⟩
/-- EYE_WARN_F. -/
def eyeWarnF (n : Nat) : Fd := ⟨0x70100 + 0x10 * n, 12, 12⟩
/-- EYE_AGING. -/
def eyeAging (n : Nat) : Fd := ⟨0x70100 + 0x10 * n, 13, 13⟩
/-- ACLK_STRETCH_CNT. -/
def aclkStretchCnt (n : Nat) : Fd := ⟨0x70104 + 0x10 * n, 31, 0⟩
/-- EYE_CRIT_CNT. -/
def eyeCritCnt (n : Nat) : Fd := ⟨0x70108 + 0x10 * n, 15, 0⟩
/-- EYE_DRIFT_MV. -/
def eyeDriftMv (n : Nat) : Fd := ⟨0x70108 + 0x10 * n, 31, 16⟩
/-- EYE_FAB_MARGIN. -/
def eyeFabMargin : Fd := ⟨0x70200, 3, 0⟩
/-! ### TBM block -/

/-- TBM_FREF. -/
def tbmFref : Fd := ⟨0x32000, 0, 0⟩
/-- TBM_DISC. -/
def tbmDisc : Fd := ⟨0x32000, 2, 1⟩
/-- TBM_REF10_OK. -/
def tbmRef10Ok : Fd := ⟨0x32000, 3, 3⟩
/-- TBM_PPS_OK. -/
def tbmPpsOk : Fd := ⟨0x32000, 4, 4⟩
/-- TBM_HOLDOVER. -/
def tbmHoldover : Fd := ⟨0x32000, 5, 5⟩
/-- TBM_LOCKED. -/
def tbmLocked : Fd := ⟨0x32000, 6, 6⟩
/-- TBM_FREQ_ADJ. -/
def tbmFreqAdj : Fd := ⟨0x32004, 31, 0⟩
/-- TBM_TOD_OFF_LO. -/
def tbmTodOffLo : Fd := ⟨0x32008, 31, 0⟩
/-- TBM_TOD_OFF_HI. -/
def tbmTodOffHi : Fd := ⟨0x3200C, 31, 0⟩
/-- TBM_PPS_STAMP_LO. -/
def tbmPpsStampLo : Fd := ⟨0x32010, 31, 0⟩
/-- TBM_PPS_STAMP_HI. -/
def tbmPpsStampHi : Fd := ⟨0x32014, 31, 0⟩
/-- TBM_PULSE_US. -/
def tbmPulseUs : Fd := ⟨0x32018, 15, 0⟩
/-- TBM_CORR_TOTAL. -/
def tbmCorrTotal : Fd := ⟨0x32018, 31, 16⟩
/-- TWIN_LAT. -/
def twinLat : Fd := ⟨0x3201C, 15, 0⟩
/-- RTC_SEC. -/
def rtcSec : Fd := ⟨0x32020, 31, 0⟩
/-- RTC_SUBSEC. -/
def rtcSubsec : Fd := ⟨0x32024, 14, 0⟩
/-- RTC_VALID. -/
def rtcValid : Fd := ⟨0x32024, 15, 15⟩
/-! ### THM block -/

/-- THM_FLOW_STOP. -/
def thmFlowStop : Fd := ⟨0x33000, 0, 0⟩
/-- THM_FLOW_LOW. -/
def thmFlowLow : Fd := ⟨0x33000, 1, 1⟩
/-- THM_INLET_DERATE. -/
def thmInletDerate : Fd := ⟨0x33000, 2, 2⟩
/-- THM_INLET_HIGH. -/
def thmInletHigh : Fd := ⟨0x33000, 3, 3⟩
/-- THM_INLET_LOW. -/
def thmInletLow : Fd := ⟨0x33000, 4, 4⟩
/-- THM_DATA_LOST. -/
def thmDataLost : Fd := ⟨0x33000, 5, 5⟩
/-- THM_TRIPPED. -/
def thmTripped : Fd := ⟨0x33000, 6, 6⟩
/-- THM_FORCED. -/
def thmForced : Fd := ⟨0x33000, 7, 7⟩
/-- THM_SENSOR_FLAG. -/
def thmSensorFlag : Fd := ⟨0x33000, 8, 8⟩
/-- THM_LAST_CAUSE. -/
def thmLastCause : Fd := ⟨0x33000, 11, 9⟩
/-- THM_T_IN. -/
def thmTIn : Fd := ⟨0x33004, 15, 0⟩
/-- THM_T_OUT. -/
def thmTOut : Fd := ⟨0x33004, 31, 16⟩
/-- THM_FLOW. -/
def thmFlow : Fd := ⟨0x33008, 15, 0⟩
/-- THM_BUDGET_W. -/
def thmBudgetW : Fd := ⟨0x33008, 31, 16⟩
/-- THM_GLYCOL_PCT. -/
def thmGlycolPct : Fd := ⟨0x3300C, 4, 0⟩
/-- THM_TJ_THROTTLE. -/
def thmTjThrottle : Fd := ⟨0x3300C, 11, 5⟩
/-- THM_FLOW_STOPS. -/
def thmFlowStops : Fd := ⟨0x33010, 15, 0⟩
/-- THM_DISAGREE_CNT. -/
def thmDisagreeCnt : Fd := ⟨0x33010, 31, 16⟩
/-- THM_HOT_V. -/
def thmHotV : Fd := ⟨0x33014, 9, 0⟩
/-- THM_HOT_SITE. -/
def thmHotSite : Fd := ⟨0x33014, 18, 10⟩
/-- THM_HOT_IDX. -/
def thmHotIdx : Fd := ⟨0x33014, 23, 19⟩
/-! ### Hot-spot entry h -/

/-- HS_A. -/
def hsA (h : Nat) : Fd := ⟨0xA0000 + 8 * h, 9, 0⟩
/-- HS_B. -/
def hsB (h : Nat) : Fd := ⟨0xA0000 + 8 * h, 19, 10⟩
/-- HS_M. -/
def hsM (h : Nat) : Fd := ⟨0xA0000 + 8 * h, 29, 20⟩
/-- HS_V. -/
def hsV (h : Nat) : Fd := ⟨0xA0004 + 8 * h, 9, 0⟩
/-- HS_A_OK. -/
def hsAOk (h : Nat) : Fd := ⟨0xA0004 + 8 * h, 10, 10⟩
/-- HS_B_OK. -/
def hsBOk (h : Nat) : Fd := ⟨0xA0004 + 8 * h, 11, 11⟩
/-- HS_DISAGREE. -/
def hsDisagree (h : Nat) : Fd := ⟨0xA0004 + 8 * h, 12, 12⟩
/-- HS_LOST. -/
def hsLost (h : Nat) : Fd := ⟨0xA0004 + 8 * h, 13, 13⟩
/-- HS_THROTTLE. -/
def hsThrottle (h : Nat) : Fd := ⟨0xA0004 + 8 * h, 14, 14⟩
/-- HS_TH. -/
def hsTh (h : Nat) : Fd := ⟨0xA0004 + 8 * h, 22, 16⟩
/-! ### POL block -/

/-- POL_ROLES_BOUND. -/
def polRolesBound : Fd := ⟨0x34000, 0, 0⟩
/-- POL_DEBUG. -/
def polDebug : Fd := ⟨0x34000, 2, 1⟩
/-- POL_SEALED. -/
def polSealed : Fd := ⟨0x34000, 3, 3⟩
/-- POL_FUSE_PEND. -/
def polFusePend : Fd := ⟨0x34000, 4, 4⟩
/-- POL_COUNTER_LO. -/
def polCounterLo : Fd := ⟨0x34004, 31, 0⟩
/-- POL_COUNTER_HI. -/
def polCounterHi : Fd := ⟨0x34008, 31, 0⟩
/-- POL_LAST_REASON. -/
def polLastReason : Fd := ⟨0x3400C, 15, 0⟩
/-- POL_LAST_KIND. -/
def polLastKind : Fd := ⟨0x3400C, 31, 16⟩
/-- POL_LAYOUT_HASH[i]. -/
def polLayoutHash (i : Nat) : Fd := ⟨0x34010 + 4 * i, 31, 0⟩
/-- POL_ROLESET_HASH[i]. -/
def polRolesetHash (i : Nat) : Fd := ⟨0x34040 + 4 * i, 31, 0⟩
/-- POL_DBG_NONCE_LO. -/
def polDbgNonceLo : Fd := ⟨0x34070, 31, 0⟩
/-- POL_DBG_NONCE_HI. -/
def polDbgNonceHi : Fd := ⟨0x34074, 31, 0⟩
/-- POL_MIN_SVN_HUB. -/
def polMinSvnHub : Fd := ⟨0x34078, 15, 0⟩
/-- POL_MIN_SVN_BUNDLE. -/
def polMinSvnBundle : Fd := ⟨0x34078, 31, 16⟩
/-- POL_FW_SIGNERS. -/
def polFwSigners : Fd := ⟨0x3407C, 3, 0⟩
/-- POL_REQ_OPSIG. -/
def polReqOpsig : Fd := ⟨0x3407C, 4, 4⟩
/-- POL_SEAL_EPOCH. -/
def polSealEpoch : Fd := ⟨0x3407C, 31, 16⟩
/-- SP_CONF. -/
def spConf (n : Nat) : Fd := ⟨0x34100 + 4 * n, 0, 0⟩
/-- SP_FORMED. -/
def spFormed (n : Nat) : Fd := ⟨0x34100 + 4 * n, 1, 1⟩
/-- SP_OWNED. -/
def spOwned (n : Nat) : Fd := ⟨0x34100 + 4 * n, 2, 2⟩
/-- SP_NK_MASK. -/
def spNkMask (n : Nat) : Fd := ⟨0x34100 + 4 * n, 18, 3⟩
/-- SP_XTS_ON. -/
def spXtsOn (n : Nat) : Fd := ⟨0x34100 + 4 * n, 19, 19⟩
/-! ### Firmware block -/

/-- HUB_FW_SVN. -/
def hubFwSvn : Fd := ⟨0x0, 15, 0⟩
/-- HUB_FW_SLOT. -/
def hubFwSlot : Fd := ⟨0x0, 16, 16⟩
/-- FW_C0_PCT. -/
def fwC0Pct : Fd := ⟨0x4, 6, 0⟩
/-- FW_C1_PCT. -/
def fwC1Pct : Fd := ⟨0x4, 13, 7⟩
/-- FW_C2_PCT. -/
def fwC2Pct : Fd := ⟨0x4, 20, 14⟩
/-- FW_C3_PCT. -/
def fwC3Pct : Fd := ⟨0x4, 27, 21⟩
/-- FW_SHED. -/
def fwShed : Fd := ⟨0x4, 29, 28⟩
/-- FW_BACKLOG. -/
def fwBacklog : Fd := ⟨0x8, 10, 0⟩
/-- FW_HWM. -/
def fwHwm : Fd := ⟨0x8, 21, 11⟩
/-- FW_RESTARTS. -/
def fwRestarts : Fd := ⟨0xC, 15, 0⟩
/-- SCORE_RESETS. -/
def scoreResets : Fd := ⟨0xC, 31, 16⟩
/-- TEL_PERIOD. -/
def telPeriod : Fd := ⟨0x10, 9, 0⟩
/-- TEL_DECIM. -/
def telDecim : Fd := ⟨0x10, 16, 10⟩
/-- TEL_SEQ. -/
def telSeq : Fd := ⟨0x14, 31, 0⟩
/-- SCORE_KICK. -/
def scoreKick : Fd := ⟨0x18, 0, 0⟩
/-! ### BBX block -/

/-- BB_SEQ_NEXT. -/
def bbSeqNext : Fd := ⟨0x1000, 31, 0⟩
/-- BB_HUB_OK. -/
def bbHubOk : Fd := ⟨0x1004, 0, 0⟩
/-- BB_EAST_OK. -/
def bbEastOk : Fd := ⟨0x1004, 1, 1⟩
/-- BB_PERM_FULL. -/
def bbPermFull : Fd := ⟨0x1004, 2, 2⟩
/-- BB_WRAPPED. -/
def bbWrapped : Fd := ⟨0x1004, 3, 3⟩
/-- BB_PERM_COUNT. -/
def bbPermCount : Fd := ⟨0x1008, 15, 0⟩
/-- BB_DROPS. -/
def bbDrops : Fd := ⟨0x1008, 31, 16⟩
/-- BB_WRAP_OLDEST. -/
def bbWrapOldest : Fd := ⟨0x100C, 31, 0⟩
/-- BB_CLEAR_SEQ. -/
def bbClearSeq : Fd := ⟨0x1010, 31, 0⟩

/-- The places whose registers are words: a PCIe function, the hub, a port die, the key table that every Ethernet port die
repeats (R422), and a compute die, stack node or port die for the blocks they share. -/
inductive RegKind where
  | fn | hub | port | tk | die
  deriving DecidableEq, Repr

/-- One register of a table: its offset, up to two index strides with their counts, the bits that a write sets, those
that writing 1 clears, those that a warm reset keeps, and its reset value. -/
structure RegSpec where
  kind : RegKind
  off : Nat
  stride : Nat
  count : Nat
  stride2 : Nat
  count2 : Nat
  rw : Nat
  w1c : Nat
  keep : Nat
  reset : Nat
  deriving DecidableEq, Repr

/-- Registers of the fn tables. -/
def fnRegs0 : List RegSpec := [
  ⟨.fn, 0x1000, 64, 8, 0, 1, 0xFFFFFFFF, 0x0, 0x0, 0x0⟩,
  ⟨.fn, 0x1004, 64, 8, 0, 1, 0xFFFFFFFF, 0x0, 0x0, 0x0⟩,
  ⟨.fn, 0x1008, 64, 8, 0, 1, 0xFFFFFFFF, 0x0, 0x0, 0x0⟩,
  ⟨.fn, 0x100C, 64, 8, 0, 1, 0xFFFFFFFF, 0x0, 0x0, 0x0⟩,
  ⟨.fn, 0x1010, 64, 8, 0, 1, 0xFFFF, 0x0, 0x0, 0x54⟩,
  ⟨.fn, 0x1014, 64, 8, 0, 1, 0xFFF, 0x0, 0x0, 0x0⟩,
  ⟨.fn, 0x1018, 64, 8, 0, 1, 0x0, 0x0, 0x0, 0x0⟩,
  ⟨.fn, 0x101C, 64, 8, 0, 1, 0x1FFF, 0x0, 0x0, 0x0⟩,
  ⟨.fn, 0x1020, 64, 8, 0, 1, 0x0, 0xC, 0x0, 0x0⟩,
  ⟨.fn, 0x1024, 64, 8, 0, 1, 0xFFFFFF, 0x0, 0x0, 0x1⟩,
  ⟨.fn, 0x0, 0, 1, 0, 1, 0x0, 0x0, 0x0, 0x1F⟩,
  ⟨.fn, 0x4, 0, 1, 0, 1, 0x0, 0x0, 0x0, 0x0⟩,
  ⟨.fn, 0x8, 0, 1, 0, 1, 0x0, 0x0, 0x0, 0x0⟩,
  ⟨.fn, 0xC, 0, 1, 0, 1, 0x0, 0x0, 0x0, 0x0⟩,
  ⟨.fn, 0x10, 0, 1, 0, 1, 0x0, 0x0, 0x0, 0x0⟩,
  ⟨.fn, 0x14, 0, 1, 0, 1, 0x0, 0x0, 0x0, 0x0⟩,
  ⟨.fn, 0x18, 0, 1, 0, 1, 0x0, 0x200, 0x0, 0x0⟩,
  ⟨.fn, 0x1C, 0, 1, 0, 1, 0x0, 0x0, 0x0, 0x0⟩,
  ⟨.fn, 0x20, 0, 1, 0, 1, 0x0, 0x0, 0x0, 0x0⟩,
  ⟨.fn, 0x24, 0, 1, 0, 1, 0x0, 0x0, 0x0, 0x0⟩,
  ⟨.fn, 0x10000, 4, 16, 0, 1, 0xFFFFFFFF, 0x0, 0x0, 0x0⟩,
  ⟨.fn, 0x10040, 0, 1, 0, 1, 0x0, 0x0, 0x0, 0x0⟩,
  ⟨.fn, 0x10044, 0, 1, 0, 1, 0x0, 0x3C, 0x0, 0x0⟩,
  ⟨.fn, 0x10048, 0, 1, 0, 1, 0x0, 0x0, 0x0, 0x0⟩]

/-- Registers of the fn tables. -/
def fnRegs1 : List RegSpec := [
  ⟨.fn, 0x10100, 4, 16, 0, 1, 0x0, 0x0, 0x0, 0x0⟩,
  ⟨.fn, 0x10140, 0, 1, 0, 1, 0x0, 0x0, 0x0, 0x0⟩,
  ⟨.fn, 0x10144, 0, 1, 0, 1, 0x0, 0x0, 0x0, 0x0⟩,
  ⟨.fn, 0x10180, 0, 1, 0, 1, 0xFFFF007F, 0x0, 0x0, 0x640000⟩]

/-- Registers of the hub tables. -/
def hubRegs0 : List RegSpec := [
  ⟨.hub, 0x40000, 256, 24, 64, 4, 0x0, 0x0, 0x0, 0x0⟩,
  ⟨.hub, 0x40004, 256, 24, 64, 4, 0x0, 0x0, 0x0, 0x0⟩,
  ⟨.hub, 0x40008, 256, 24, 64, 4, 0xFFFFFFFF, 0x0, 0x0, 0x0⟩,
  ⟨.hub, 0x4000C, 256, 24, 64, 4, 0xFFFFFFFF, 0x0, 0x0, 0x0⟩,
  ⟨.hub, 0x40010, 256, 24, 64, 4, 0xFFFFFFFF, 0x0, 0x0, 0x0⟩,
  ⟨.hub, 0x40014, 256, 24, 64, 4, 0xFFFFFFFF, 0x0, 0x0, 0x0⟩,
  ⟨.hub, 0x40018, 256, 24, 64, 4, 0xFFFFFFFF, 0x0, 0x0, 0x0⟩,
  ⟨.hub, 0x4001C, 256, 24, 64, 4, 0xFFFFFFFF, 0x0, 0x0, 0x0⟩,
  ⟨.hub, 0x40020, 256, 24, 64, 4, 0xFFFFFFFF, 0x0, 0x0, 0x0⟩,
  ⟨.hub, 0x40024, 256, 24, 64, 4, 0xFFFFFFFF, 0x0, 0x0, 0x0⟩,
  ⟨.hub, 0x40028, 256, 24, 64, 4, 0xFFFFFFFF, 0x0, 0x0, 0x0⟩,
  ⟨.hub, 0x4002C, 256, 24, 64, 4, 0xFFFFFF, 0x0, 0x0, 0x0⟩,
  ⟨.hub, 0x40030, 256, 24, 64, 4, 0xFFFF, 0x0, 0x0, 0x0⟩,
  ⟨.hub, 0x40034, 256, 24, 64, 4, 0x0, 0x0, 0x0, 0x0⟩,
  ⟨.hub, 0x40038, 256, 24, 64, 4, 0xFFFF, 0x0, 0x0, 0x64⟩,
  ⟨.hub, 0x28000, 64, 24, 0, 1, 0x0, 0x0, 0x0, 0x0⟩,
  ⟨.hub, 0x28004, 64, 24, 0, 1, 0x0, 0x0, 0x0, 0x0⟩,
  ⟨.hub, 0x28008, 64, 24, 0, 1, 0x0, 0x0, 0x0, 0x0⟩,
  ⟨.hub, 0x2800C, 64, 24, 0, 1, 0x0, 0x0, 0x0, 0x0⟩,
  ⟨.hub, 0x28010, 64, 24, 0, 1, 0x0, 0x0, 0x0, 0x0⟩,
  ⟨.hub, 0x28014, 64, 24, 0, 1, 0x0, 0x0, 0x0, 0x0⟩,
  ⟨.hub, 0x2000, 0, 1, 0, 1, 0x0, 0x0, 0x0, 0x20⟩,
  ⟨.hub, 0x2004, 0, 1, 0, 1, 0x0, 0x0, 0x0, 0x0⟩,
  ⟨.hub, 0x2008, 0, 1, 0, 1, 0x0, 0x0, 0x0, 0x0⟩]

/-- Registers of the hub tables. -/
def hubRegs1 : List RegSpec := [
  ⟨.hub, 0x200C, 0, 1, 0, 1, 0x0, 0x0, 0x0, 0x0⟩,
  ⟨.hub, 0x2010, 0, 1, 0, 1, 0xFFFFFFFF, 0x0, 0x0, 0x0⟩,
  ⟨.hub, 0x2014, 0, 1, 0, 1, 0xFFFFFFFF, 0x0, 0x0, 0x0⟩,
  ⟨.hub, 0x2018, 0, 1, 0, 1, 0x1FFFFFF, 0x0, 0x0, 0x0⟩,
  ⟨.hub, 0x2020, 0, 1, 0, 1, 0x0, 0x0, 0x0, 0x0⟩,
  ⟨.hub, 0x2024, 0, 1, 0, 1, 0x0, 0x0, 0x0, 0x0⟩,
  ⟨.hub, 0x2028, 0, 1, 0, 1, 0x0, 0x0, 0x0, 0x0⟩,
  ⟨.hub, 0x202C, 0, 1, 0, 1, 0x0, 0x0, 0x0, 0x0⟩,
  ⟨.hub, 0x2030, 0, 1, 0, 1, 0x0, 0x0, 0x0, 0x0⟩,
  ⟨.hub, 0x2034, 0, 1, 0, 1, 0x0, 0x0, 0x0, 0x0⟩,
  ⟨.hub, 0x2040, 4, 8, 0, 1, 0x0, 0x0, 0x0, 0x0⟩,
  ⟨.hub, 0x30000, 0, 1, 0, 1, 0x0, 0x0, 0x0, 0x0⟩,
  ⟨.hub, 0x30004, 0, 1, 0, 1, 0x1FFF, 0x0, 0x0, 0x443⟩,
  ⟨.hub, 0x30008, 0, 1, 0, 1, 0x0, 0x0, 0x0, 0x0⟩,
  ⟨.hub, 0x3000C, 0, 1, 0, 1, 0x0, 0x0, 0x0, 0x0⟩,
  ⟨.hub, 0x30010, 0, 1, 0, 1, 0x0, 0x0, 0x0, 0x0⟩,
  ⟨.hub, 0x30014, 0, 1, 0, 1, 0x0, 0x0, 0x0, 0x3E000⟩,
  ⟨.hub, 0x30040, 4, 24, 0, 1, 0x0, 0x0, 0x0, 0x3FC00⟩,
  ⟨.hub, 0x31000, 0, 1, 0, 1, 0x0, 0x0, 0x0, 0x0⟩,
  ⟨.hub, 0x31004, 0, 1, 0, 1, 0x0, 0x0, 0x0, 0x3C8C⟩,
  ⟨.hub, 0x31008, 0, 1, 0, 1, 0x0, 0x0, 0x0, 0x0⟩,
  ⟨.hub, 0x3100C, 0, 1, 0, 1, 0x0, 0x0, 0x0, 0x0⟩,
  ⟨.hub, 0x31100, 32, 24, 0, 1, 0x0, 0x0, 0x0, 0x0⟩,
  ⟨.hub, 0x31104, 32, 24, 0, 1, 0x0, 0x0, 0x0, 0x0⟩]

/-- Registers of the hub tables. -/
def hubRegs2 : List RegSpec := [
  ⟨.hub, 0x31108, 32, 24, 0, 1, 0x0, 0x0, 0x0, 0x4B000000⟩,
  ⟨.hub, 0x32000, 0, 1, 0, 1, 0x7, 0x0, 0x0, 0x0⟩,
  ⟨.hub, 0x32004, 0, 1, 0, 1, 0xFFFFFFFF, 0x0, 0x0, 0x0⟩,
  ⟨.hub, 0x32008, 0, 1, 0, 1, 0xFFFFFFFF, 0x0, 0x0, 0x0⟩,
  ⟨.hub, 0x3200C, 0, 1, 0, 1, 0xFFFFFFFF, 0x0, 0x0, 0x0⟩,
  ⟨.hub, 0x32010, 0, 1, 0, 1, 0x0, 0x0, 0x0, 0x0⟩,
  ⟨.hub, 0x32014, 0, 1, 0, 1, 0x0, 0x0, 0x0, 0x0⟩,
  ⟨.hub, 0x32018, 0, 1, 0, 1, 0xFFFF, 0x0, 0x0, 0x3E8⟩,
  ⟨.hub, 0x3201C, 0, 1, 0, 1, 0x0, 0x0, 0x0, 0x0⟩,
  ⟨.hub, 0x32020, 0, 1, 0, 1, 0xFFFFFFFF, 0x0, 0x0, 0x0⟩,
  ⟨.hub, 0x32024, 0, 1, 0, 1, 0x0, 0x0, 0x0, 0x0⟩,
  ⟨.hub, 0x33000, 0, 1, 0, 1, 0x0, 0x80, 0x0, 0x0⟩,
  ⟨.hub, 0x33004, 0, 1, 0, 1, 0x0, 0x0, 0x0, 0x0⟩,
  ⟨.hub, 0x33008, 0, 1, 0, 1, 0x0, 0x0, 0x0, 0x3C8C0000⟩,
  ⟨.hub, 0x3300C, 0, 1, 0, 1, 0xFFF, 0x0, 0x0, 0xBFE⟩,
  ⟨.hub, 0x33010, 0, 1, 0, 1, 0x0, 0x0, 0x0, 0x0⟩,
  ⟨.hub, 0x33014, 0, 1, 0, 1, 0x0, 0x0, 0x0, 0x0⟩,
  ⟨.hub, 0x34000, 0, 1, 0, 1, 0x0, 0x0, 0x0, 0x8⟩,
  ⟨.hub, 0x34004, 0, 1, 0, 1, 0x0, 0x0, 0x0, 0x0⟩,
  ⟨.hub, 0x34008, 0, 1, 0, 1, 0x0, 0x0, 0x0, 0x0⟩,
  ⟨.hub, 0x3400C, 0, 1, 0, 1, 0x0, 0x0, 0x0, 0x0⟩,
  ⟨.hub, 0x34010, 4, 12, 0, 1, 0x0, 0x0, 0x0, 0x0⟩,
  ⟨.hub, 0x34040, 4, 12, 0, 1, 0x0, 0x0, 0x0, 0x0⟩,
  ⟨.hub, 0x34070, 0, 1, 0, 1, 0x0, 0x0, 0x0, 0x0⟩]

/-- Registers of the hub tables. -/
def hubRegs3 : List RegSpec := [
  ⟨.hub, 0x34074, 0, 1, 0, 1, 0x0, 0x0, 0x0, 0x0⟩,
  ⟨.hub, 0x34078, 0, 1, 0, 1, 0x0, 0x0, 0xFFFFFFFF, 0x0⟩,
  ⟨.hub, 0x3407C, 0, 1, 0, 1, 0x0, 0x0, 0x1F, 0xF⟩,
  ⟨.hub, 0x34100, 4, 24, 0, 1, 0x0, 0x0, 0x0, 0x0⟩,
  ⟨.hub, 0x0, 0, 1, 0, 1, 0x0, 0x0, 0x0, 0x0⟩,
  ⟨.hub, 0x4, 0, 1, 0, 1, 0x0, 0x0, 0x0, 0x0⟩,
  ⟨.hub, 0x8, 0, 1, 0, 1, 0x3FF800, 0x0, 0x0, 0x180000⟩,
  ⟨.hub, 0xC, 0, 1, 0, 1, 0x0, 0x0, 0x0, 0x0⟩,
  ⟨.hub, 0x10, 0, 1, 0, 1, 0x3FF, 0x0, 0x0, 0x40A⟩,
  ⟨.hub, 0x14, 0, 1, 0, 1, 0x0, 0x0, 0x0, 0x0⟩,
  ⟨.hub, 0x18, 0, 1, 0, 1, 0x0, 0x0, 0x0, 0x0⟩,
  ⟨.hub, 0x1000, 0, 1, 0, 1, 0x0, 0x0, 0x0, 0x0⟩,
  ⟨.hub, 0x1004, 0, 1, 0, 1, 0x0, 0x0, 0x0, 0x0⟩,
  ⟨.hub, 0x1008, 0, 1, 0, 1, 0x0, 0x0, 0x0, 0x0⟩,
  ⟨.hub, 0x100C, 0, 1, 0, 1, 0x0, 0x0, 0x0, 0x0⟩,
  ⟨.hub, 0x1010, 0, 1, 0, 1, 0x0, 0x0, 0x0, 0x0⟩]

/-- Registers of the port tables. -/
def portRegs0 : List RegSpec := [
  ⟨.port, 0x100000, 0, 1, 0, 1, 0x0, 0x0, 0x0, 0x0⟩,
  ⟨.port, 0x100010, 4, 4, 0, 1, 0x1F, 0x0, 0x0, 0x10⟩,
  ⟨.port, 0x100020, 0, 1, 0, 1, 0xFFFF, 0x0, 0x0, 0x14⟩,
  ⟨.port, 0x100024, 0, 1, 0, 1, 0xFFFF, 0x0, 0x0, 0x32⟩,
  ⟨.port, 0x100100, 128, 8, 0, 1, 0x3F8, 0x0, 0x0, 0x0⟩,
  ⟨.port, 0x100104, 128, 8, 0, 1, 0x3FFFFF, 0x0, 0x0, 0x102400⟩,
  ⟨.port, 0x100108, 128, 8, 0, 1, 0x0, 0x0, 0x0, 0x0⟩,
  ⟨.port, 0x10010C, 128, 8, 0, 1, 0x0, 0x0, 0x0, 0x0⟩,
  ⟨.port, 0x100110, 128, 8, 0, 1, 0x0, 0x0, 0x0, 0x0⟩,
  ⟨.port, 0x100114, 128, 8, 0, 1, 0x0, 0x0, 0x0, 0x0⟩,
  ⟨.port, 0x100118, 128, 8, 0, 1, 0x0, 0x0, 0x0, 0x0⟩,
  ⟨.port, 0x10011C, 128, 8, 0, 1, 0x0, 0x0, 0x0, 0x0⟩,
  ⟨.port, 0x100120, 128, 8, 0, 1, 0x0, 0x0, 0x0, 0x0⟩,
  ⟨.port, 0x100124, 128, 8, 0, 1, 0x0, 0x0, 0x0, 0x0⟩,
  ⟨.port, 0x100128, 128, 8, 0, 1, 0x0, 0x0, 0x0, 0x0⟩,
  ⟨.port, 0x300000, 64, 4096, 0, 1, 0x0, 0x0, 0x0, 0x1F0⟩,
  ⟨.port, 0x300004, 64, 4096, 0, 1, 0x0, 0x0, 0x0, 0x0⟩,
  ⟨.port, 0x300008, 64, 4096, 0, 1, 0x0, 0x0, 0x0, 0x0⟩,
  ⟨.port, 0x30000C, 64, 4096, 0, 1, 0x0, 0x0, 0x0, 0x0⟩,
  ⟨.port, 0x300010, 64, 4096, 0, 1, 0x0, 0x0, 0x0, 0x0⟩,
  ⟨.port, 0x300014, 64, 4096, 0, 1, 0x0, 0x0, 0x0, 0x0⟩,
  ⟨.port, 0x300018, 64, 4096, 0, 1, 0xFFFF, 0x0, 0x0, 0x0⟩,
  ⟨.port, 0x30001C, 64, 4096, 0, 1, 0x0, 0x0, 0x0, 0x0⟩,
  ⟨.port, 0x500000, 64, 64, 0, 1, 0x0, 0x0, 0x0, 0xF8⟩]

/-- Registers of the port tables. -/
def portRegs1 : List RegSpec := [
  ⟨.port, 0x500004, 64, 64, 0, 1, 0x0, 0x0, 0x0, 0x0⟩,
  ⟨.port, 0x500008, 64, 64, 0, 1, 0x0, 0x0, 0x0, 0x0⟩,
  ⟨.port, 0x50000C, 64, 64, 0, 1, 0x1FFFF, 0x0, 0x0, 0x3E8⟩,
  ⟨.port, 0x500010, 64, 64, 0, 1, 0xFFFFFFFF, 0x0, 0x0, 0x3E82710⟩,
  ⟨.port, 0x500014, 64, 64, 0, 1, 0x0, 0x0, 0x0, 0x0⟩,
  ⟨.port, 0x500018, 64, 64, 0, 1, 0x0, 0x0, 0x0, 0x0⟩,
  ⟨.port, 0x50001C, 64, 64, 0, 1, 0x0, 0x0, 0x0, 0x0⟩,
  ⟨.port, 0x500020, 64, 64, 0, 1, 0x0, 0x0, 0x0, 0x0⟩]

/-- Registers of the tk tables. -/
def tkRegs0 : List RegSpec := [
  ⟨.tk, 0x200000, 32, 4096, 0, 1, 0x1F, 0x0, 0x0, 0x3FFC001F⟩,
  ⟨.tk, 0x200004, 32, 4096, 0, 1, 0x0, 0x0, 0x0, 0x0⟩,
  ⟨.tk, 0x200008, 32, 4096, 0, 1, 0x0, 0x0, 0x0, 0x0⟩,
  ⟨.tk, 0x20000C, 32, 4096, 0, 1, 0x0, 0x0, 0x0, 0x0⟩,
  ⟨.tk, 0x200010, 32, 4096, 0, 1, 0x0, 0x0, 0x0, 0x0⟩,
  ⟨.tk, 0x200014, 32, 4096, 0, 1, 0x0, 0x0, 0x0, 0x0⟩]

/-- Registers of the die tables. -/
def dieRegs0 : List RegSpec := [
  ⟨.die, 0x60000, 0, 1, 0, 1, 0x0, 0x0, 0x0, 0x0⟩,
  ⟨.die, 0x60004, 0, 1, 0, 1, 0x0, 0x0, 0x0, 0x0⟩,
  ⟨.die, 0x60008, 0, 1, 0, 1, 0x0, 0x0, 0x0, 0x0⟩,
  ⟨.die, 0x6000C, 0, 1, 0, 1, 0x0, 0x0, 0x0, 0x0⟩,
  ⟨.die, 0x60010, 0, 1, 0, 1, 0x0, 0x0, 0x0, 0x0⟩,
  ⟨.die, 0x60014, 0, 1, 0, 1, 0xFFFF, 0x0, 0x0, 0xFFFF⟩,
  ⟨.die, 0x70000, 0, 1, 0, 1, 0x0, 0x0, 0x0, 0x0⟩,
  ⟨.die, 0x70008, 0, 1, 0, 1, 0x0, 0x0, 0x0, 0x0⟩,
  ⟨.die, 0x7000C, 0, 1, 0, 1, 0x0, 0x0, 0x0, 0x0⟩,
  ⟨.die, 0x70010, 0, 1, 0, 1, 0x0, 0x0, 0x0, 0x0⟩,
  ⟨.die, 0x70020, 0, 1, 0, 1, 0x0, 0x0, 0x0, 0x258⟩,
  ⟨.die, 0x70030, 0, 1, 0, 1, 0xFF, 0x0, 0x0, 0x24⟩,
  ⟨.die, 0x70040, 4, 9, 0, 1, 0x0, 0x0, 0x0, 0x258⟩,
  ⟨.die, 0x70100, 16, 17, 0, 1, 0x0, 0x0, 0x0, 0xF40⟩,
  ⟨.die, 0x70104, 16, 17, 0, 1, 0x0, 0x0, 0x0, 0x0⟩,
  ⟨.die, 0x70108, 16, 17, 0, 1, 0x0, 0x0, 0x0, 0x0⟩,
  ⟨.die, 0x70200, 0, 1, 0, 1, 0x0, 0x0, 0x0, 0xF⟩,
  ⟨.die, 0xA0000, 8, 18, 0, 1, 0x0, 0x0, 0x0, 0x0⟩,
  ⟨.die, 0xA0004, 8, 18, 0, 1, 0x0, 0x0, 0x0, 0x5F0000⟩]

/-- Every register kept as a word. -/
def regSpecs : List RegSpec :=
  fnRegs0 ++ fnRegs1 ++ hubRegs0 ++ hubRegs1 ++ hubRegs2 ++ hubRegs3 ++ portRegs0 ++ portRegs1 ++ tkRegs0 ++ dieRegs0

/-- The register holds offset `off`: its indices exist and the remainder is its own. -/
def RegSpec.holds (r : RegSpec) (off : Nat) : Bool :=
  (List.range r.count2).any (fun j =>
    decide (r.off + r.stride2 * j ≤ off)
      && (if r.stride = 0 then decide (off = r.off + r.stride2 * j)
          else decide ((off - r.off - r.stride2 * j) % r.stride = 0)
            && decide ((off - r.off - r.stride2 * j) / r.stride < r.count)))

/-- The register of a kind that holds an offset. -/
def regAt (k : RegKind) (off : Nat) : Option RegSpec := regSpecs.find? (fun r => r.kind == k && r.holds off)

end Sys2Proof.Machine
end

