-- ==== Sys2Proof/Machine/Table.lean ====
section
/-! DEFINITION. Sparse data in one canonical form: a list of key and value pairs, keys strictly rising, no value equal
to what an unlisted key reads as. Memories, register arrays and unit arrays are held in it. -/

namespace Sys2Proof.Machine

/-- Sparse data by key. -/
abbrev Table (α : Type) := List (Nat × α)

/-- What key `i` reads as; an unlisted key reads as `d`. -/
def Table.get {α : Type} (d : α) : Table α → Nat → α
  | [], _ => d
  | (k, v) :: t, i => if k = i then v else Table.get d t i

/-- Key `i` written with `v`. Writing the unlisted value removes the entry, so equal contents are equal lists. -/
def Table.put {α : Type} [DecidableEq α] (d : α) : Table α → Nat → α → Table α
  | [], i, v => if v = d then [] else [(i, v)]
  | (k, w) :: t, i, v =>
    if i < k then (if v = d then (k, w) :: t else (i, v) :: (k, w) :: t)
    else if i = k then (if v = d then t else (i, v) :: t)
    else (k, w) :: Table.put d t i v

/-- Key `i` changed by `f`. -/
def Table.upd {α : Type} [DecidableEq α] (d : α) (t : Table α) (i : Nat) (f : α → α) : Table α :=
  t.put d i (f (t.get d i))

/-- Every listed value changed by `f`; `f` must keep the unlisted value. -/
def Table.mapListed {α : Type} [DecidableEq α] (d : α) (t : Table α) (f : Nat → α → α) : Table α :=
  t.foldl (fun a kv => Table.put d a kv.1 (f kv.1 kv.2)) []

/-- The keys from `i` on written with the values of a list. -/
def Table.putList {α : Type} [DecidableEq α] (d : α) : Table α → Nat → List α → Table α
  | t, _, [] => t
  | t, i, v :: vs => Table.putList d (t.put d i v) (i + 1) vs

/-- `n` values from key `i` on. -/
def Table.getList {α : Type} (d : α) (t : Table α) (i : Nat) : Nat → List α
  | 0 => []
  | n + 1 => t.get d i :: Table.getList d t (i + 1) n

/-- The listed keys are strictly rising and every one is at least `lo`. -/
def Table.sortedFrom {α : Type} : Nat → Table α → Bool
  | _, [] => true
  | lo, (k, _) :: t => decide (lo ≤ k) && Table.sortedFrom (k + 1) t

/-- The canonical form: keys strictly rising, no listed value equal to the unlisted one. -/
def Table.wf {α : Type} [DecidableEq α] (d : α) (t : Table α) : Bool :=
  Table.sortedFrom 0 t && t.all (fun kv => decide (kv.2 ≠ d))

end Sys2Proof.Machine
end

