-- ==== Sys2Proof/Machine/StateTile.lean ====
section
/-! DEFINITION. The state of one tile: sequencer, looper, TDMA, matrix array, vector engine, scratchpad, windows and
counters (chapters 02, 04–07, and the tile's part of 10). -/

namespace Sys2Proof.Machine

/-- State of a window (R59, R224). -/
inductive WinState where
  | closed | open | quiescing
  deriving DecidableEq, Repr

/-- Where the result of a window command goes. -/
inductive ResDest where
  /-- a 4-byte result word in the tile's scratchpad, and the command's IMEM index (R204) -/
  | tileWord (raddr pc : Nat)
  /-- a 16-byte result at a PGA through a tag (R262) -/
  | stackRes (pga : Pga) (tag : W16)
  /-- one member of a cell-level close; the cell command is named by its number (R89) -/
  | cell (id : Nat)
  /-- a host command, named by function, queue and tag (R393) -/
  | host (fn qp tag : Nat)
  /-- no result is due -/
  | none
  deriving DecidableEq, Repr

/-- A close command that has not ended (R70, R72): its generation, status, done counter, result destination, and its place
in the order in which the unit committed its closes. -/
structure ClosePend where
  gen : Byte
  quiesce : Bool
  status : BitVec 8
  dcnt : Option Nat
  dest : ResDest
  ord : Nat
  deriving DecidableEq, Repr

/-- One window table entry (R59, R224, R276). `opened` tells whether `openT` holds the time of an OPEN, in ns since
reset, for the hold of R65; `openTb` is WIN_OPEN_T, the time base then. -/
structure Window where
  gen : Byte := 0
  st : WinState := .closed
  rights : BitVec 3 := 0
  skind : BitVec 2 := 0
  srcval : W16 := 0
  cmode : BitVec 2 := 0
  cnt : Byte := 0xFF
  base64 : BitVec 32 := 0
  limit64 : BitVec 32 := 0
  rej : W16 := 0
  qthr : W48 := 0
  /-- when a CLOSE_QUIESCE times out, in ns -/
  qdead : Nat := 0
  opened : Bool := false
  openT : Nat := 0
  openTb : W32 := 0
  pend : List ClosePend := []
  deriving DecidableEq, Repr

/-- A completion counter (R75). -/
structure Ccnt where
  val : W48 := 0
  err : Bool := false
  sat : Bool := false
  deriving DecidableEq, Repr

/-- The sequence-number map of one source at a target (R300): the highest number and the accepted numbers among the
last 4,096, as distances below it. `seen` is false until a first number arrives. -/
structure DupMap where
  seen : Bool := false
  h : W16 := 0
  got : List Nat := []
  deriving DecidableEq, Repr

/-- An accepted segment whose bytes are not yet written or served (R226): its window's index and generation, and the counter
and count mode bound to it then. -/
structure Accepted where
  win : Nat
  gen : Byte
  cnt : Byte
  cmode : BitVec 2
  seg : Segment
  deriving DecidableEq, Repr

/-- One entry of the atomic reply cache (R82). -/
structure Reply where
  node : W16
  seq : W16
  ans : Answer
  deriving DecidableEq, Repr

/-- The window and counter facilities that a tile and a stack node share: window table, register windows, counters,
accepted segments, atomic replies, duplicates held for their original's answer, and the number of closes committed. -/
structure WinUnit where
  win : Table Window := []
  rwin : Table Window := []
  cc : Table Ccnt := []
  acc : List Accepted := []
  replies : List Reply := []
  held : List Segment := []
  closes : Nat := 0
  deriving DecidableEq, Repr

/-- Identity and bookkeeping registers of a tile (R215). -/
structure TileId where
  rel : BitVec 12 := 0
  part : BitVec 5 := 0x1F
  srank : BitVec 5 := 0
  seed : W64 := 0
  stepNum : W32 := 0
  rwGen : Byte := 0
  deriving DecidableEq, Repr

/-- Sequencer states (R190). -/
inductive SeqState where
  | stopped | idle | run | hold | exc
  deriving DecidableEq, Repr

/-- A WOPEN held by the 4 µs rule of R65. -/
structure WopenReq where
  idx : Nat
  rights : BitVec 3
  skind : BitVec 2
  srcval : W16
  cnt : Byte
  cmode : BitVec 2
  base64 : Nat
  limit64 : Nat
  dest : ResDest
  deriving DecidableEq, Repr

/-- What holds issue (R195, SEQ_HOLD of R215). -/
inductive HoldOp where
  | none
  | queue (unit : Nat)
  | wopen (r : WopenReq)
  | iload (src dst n : Nat)
  | fence (mask : Nat)
  | endFence
  | waitcnt (c v : Nat)
  | bar (ch : Nat)
  | cwait (ch c v : Nat) (arrived : Bool)
  | flagor (ch pd raddr : Nat)
  | step (arrived : Bool)
  | jmp
  deriving DecidableEq, Repr

/-- The sequencer (R189–R215). -/
structure Seq where
  /-- SEQ_ENABLE, the value last written (R215) -/
  en : Bool := false
  st : SeqState := .stopped
  hold : HoldOp := .none
  /-- index of the instruction that the hold belongs to -/
  holdPc : Nat := 0
  pc : Nat := 0
  excCode : BitVec 4 := 0
  excPc : BitVec 11 := 0
  excUnit : BitVec 3 := 0
  excMore : Bool := false
  cmdq : List Nat := []
  cmdqOvf : Bool := false
  cmdqTaken : W16 := 0
  /-- predicates p1–p7; p0 reads 1 -/
  pred : Byte := 0
  imem : Table Insn := []
  /-- 4-byte pieces of IMEM, 4 × index + piece, that an ILOAD wrote from poisoned bytes (R212) -/
  imemBad : List Nat := []
  deriving DecidableEq, Repr

/-- One looper level (R198, R199). `start` orders the active levels by the time they were started. -/
structure LoopLevel where
  active : Bool := false
  n : Nat := 0
  i : Nat := 0
  first : Nat := 0
  last : Nat := 0
  start : Nat := 0
  deriving DecidableEq, Repr

/-- An address binding: generator of slots A, B and C, 0xF for none (R198). -/
structure Binding where
  a : BitVec 4 := 0xF
  b : BitVec 4 := 0xF
  c : BitVec 4 := 0xF
  deriving DecidableEq, Repr

/-- The looper (R198). Strides are keyed 4 × g + L, bindings 1–7. -/
structure Looper where
  lev : Table LoopLevel := []
  gstr : Table W32 := []
  bind : Table Binding := []
  started : Nat := 0
  deriving DecidableEq, Repr

/-- A TDMA operation (R208, R209). `landPoison` gathers nothing; poison travels with the answers. -/
structure TdmaOp where
  op : SegOp
  pc : BitVec 11
  base : Pga
  toff : Nat
  tag : W16
  laddr : Nat
  len : Nat
  scnt : Nat
  smode : Bool
  scnten : Bool
  deriving DecidableEq, Repr

/-- A segment sent and not finally answered (R82, R210). -/
structure TdmaSeg where
  node : Nat
  seq : W16
  tgt : Tgt
  off : Nat
  /-- position of the segment's first byte in the operation -/
  pos : Nat
  len : Nat
  issue : Nat
  retries : Nat
  deriving DecidableEq, Repr

/-- An outstanding operation: what is still to send, and what is sent and unanswered. -/
structure TdmaOut where
  op : TdmaOp
  unsent : List (Tgt × Nat × Nat × Nat)
  sent : List TdmaSeg
  /-- the operation slot, PK_OPID (R286) -/
  slot : Nat
  deriving DecidableEq, Repr

/-- A TDMA target register (R208); a tile reset sets every base into space 7. -/
structure TReg where
  base : Pga := 0xE0000000000000
  tag : W16 := 0
  deriving DecidableEq, Repr

/-- TDMA_ERR (R211, R215). -/
structure TdmaErr where
  v : Bool := false
  code : BitVec 4 := 0
  tag : W16 := 0
  pc : BitVec 11 := 0
  pga : Pga := 0
  deriving DecidableEq, Repr

/-- The tile DMA (R208–R211). `seqNext` holds the next sequence number per target node (R81). -/
structure Tdma where
  t : Table TReg := []
  q : List TdmaOp := []
  out : List TdmaOut := []
  err : TdmaErr := {}
  rto : W16 := 20
  seqNext : Table W16 := []
  deriving DecidableEq, Repr

/-- Cells whose content the spec can leave undefined: `base` none reads 0 where nothing is listed, `base` some e reads
the free value drawn at e. -/
structure UMem (w : Nat) where
  cells : Table (Option (BitVec w)) := []
  base : Option Nat := none
  deriving DecidableEq, Repr

/-- A queued instruction of an engine: the adjusted word and its IMEM index. -/
structure QInsn where
  w : Insn
  pc : BitVec 11
  deriving DecidableEq, Repr

/-- Accumulator bank states (R133). -/
inductive BankState where
  | idle | accum | ready | draining
  deriving DecidableEq, Repr

/-- One accumulator bank over the whole array (R130): accumulators keyed 64 r + n, LIVE bits one row of 64 per key,
captured column scales, recorded type (none: IDLE since reset; some true: INT32), and whether its last MMA was T2I. -/
structure Bank where
  st : BankState := .idle
  acc : UMem 32 := {}
  live : UMem 64 := {}
  poison : Bool := false
  cscale : Table (Option Byte) := []
  ty : Option Bool := none
  t2i : Bool := false
  deriving DecidableEq, Repr

/-- An MMA in the veins or in its last 8 tc: its bank, the flags its columns raised, the scratchpad ranges it reads, and
whether it may still occupy the veins (R154). -/
structure MmaRun where
  bank : Bool
  pc : BitVec 11
  cflags : Table Byte
  mem : List (Nat × Nat)
  inVeins : Bool
  deriving DecidableEq, Repr

/-- A drain in progress (R140–R145). `row` is the next row to deliver to the VXE; `cleared` says that a later MMA on the
bank has already taken the drain's clearing of LIVE; `mem` holds the scratchpad ranges it writes. -/
structure DrainRun where
  insn : QInsn
  row : Nat
  cflags : Table Byte
  cleared : Bool
  mem : List (Nat × Nat)
  deriving DecidableEq, Repr

/-- The matrix array (R118, R154). Row buffers are keyed 512 r + i, row scale buffers 32 r + i. -/
structure Mxa where
  rowBuf : UMem 8 := {}
  rowScl : UMem 8 := {}
  rowPoison : W64 := 0
  bank0 : Bank := {}
  bank1 : Bank := {}
  q : List QInsn := []
  veins : List MmaRun := []
  drains : List DrainRun := []
  mask : Table W32 := []
  pwin : BitVec 24 := 0x800000
  qpos : Table (BitVec 24) := []
  kpos : Table (BitVec 24) := []
  cflags : Table Byte := []
  deriving DecidableEq, Repr

/-- A row in the VXE's drain queue (R145). -/
structure DqRow where
  lanes : List W32
  live : W64
  poison : Bool
  deriving DecidableEq, Repr

/-- A VXE instruction that has started and not completed (R184, R185). -/
structure VxeRun where
  insn : QInsn
  /-- the scratchpad words that a VLD reads or a VST writes -/
  mem : List (Nat × Nat)
  lflags : Table Byte
  deriving DecidableEq, Repr

/-- What the VXE's head instruction waits for after its start: nothing, a drained row, or a cross-tile prefix. -/
inductive VxeWait where
  | none
  | row (i : QInsn)
  | prefix_ (i : QInsn)
  deriving DecidableEq, Repr

/-- The vector engine (R156, R187). Vector registers are keyed 64 v + lane. -/
structure Vxe where
  v : Table W32 := []
  k : Table W64 := []
  vpoison : W32 := 0
  kpoison : Byte := 0
  q : List QInsn := []
  wait : VxeWait := .none
  run : List VxeRun := []
  dq : List DqRow := []
  lflags : Table Byte := []
  deriving DecidableEq, Repr

/-- Flag registers of a tile (R185–R187); `pend` holds the pending flags of the step. -/
structure TileFlags where
  all : Byte := 0
  sflags : Byte := 0
  last : Byte := 0
  run : Byte := 0
  pend : Byte := 0
  deriving DecidableEq, Repr

/-- A remap entry of a bank (R237, R244). -/
structure Rmap where
  row : BitVec 14 := 0
  valid : Bool := false
  origin : BitVec 2 := 0
  spareBad : Bool := false
  deriving DecidableEq, Repr

/-- Power state of a quarter (R240). -/
inductive QState where
  | on | retain | off | powering
  deriving DecidableEq, Repr

/-- A row queued for repair: bank, row, and whether an uncorrectable read queued it (R235, R239). -/
structure RepairRow where
  bank : Nat
  row : Nat
  ue : Bool
  deriving DecidableEq, Repr

/-- The scratchpad (R217–R244). `data` holds the stored bytes; `dev` holds, per 32-byte half-row, how the three check
symbols differ from those of the data (0: a clean codeword, R231–R233). -/
structure Spm where
  data : Table Byte := []
  dev : Table (BitVec 24) := []
  q0 : QState := .off
  q1 : QState := .off
  q2 : QState := .off
  q3 : QState := .off
  mopq : List (BitVec 128) := []
  mopRun : Bool := false
  /-- the offset at which the running memory operation stops (R230) -/
  mopStop : Option Nat := none
  /-- quarters that a PWR_UP is bringing back from RETAIN (R242) -/
  rising : BitVec 4 := 0
  /-- quarters that the schedule image keeps ON (R349) -/
  kept : BitVec 4 := 0
  mopOvf : Bool := false
  mopBad : Bool := false
  resQ : BitVec 2 := 0
  resOp : BitVec 2 := 0
  resCode : BitVec 2 := 0
  resSeq : W16 := 0
  retired : W16 := 0
  retirePend : W16 := 0
  poisonStep : Bool := false
  faultV : Bool := false
  faultAddr : BitVec 24 := 0
  faultInfo : BitVec 2 := 0
  faultUnit : BitVec 3 := 0
  repairQ : List RepairRow := []
  repairOvf : Bool := false
  suspects : Table (List Nat) := []
  ueCnt : W32 := 0
  ceCnt : Table W32 := []
  scrubInt : W16 := 64
  scrubRow : Nat := 0
  rmap : Table Rmap := []
  deriving DecidableEq, Repr

/-- The exchange block of a tile or a stack node (R353). -/
structure Xchg where
  lastStatus : BitVec 14 := 0
  digest : W64 := 0
  tag : Table W16 := []
  pidx : Table W32 := []
  /-- descriptors of the phase that have been sent (R327) -/
  sent : Nat := 0
  deriving DecidableEq, Repr

/-- What a synchronisation channel has delivered to a waiting VXSCAN (R182, R183). -/
inductive Deliv where
  | none
  | mismatch
  | absent
  | prefix_ (v : W64) (poison : Bool) (fl : Byte)
  deriving DecidableEq, Repr

/-- One tile. `arr` holds, per synchronisation channel, an arrival sent and not yet combined by the die's node; `dlv`
what a channel has delivered to a VXSCAN. -/
structure Tile where
  id : TileId := {}
  w : WinUnit := {}
  seq : Seq := {}
  loop : Looper := {}
  tdma : Tdma := {}
  mxa : Mxa := {}
  vxe : Vxe := {}
  fl : TileFlags := {}
  spm : Spm := {}
  xe : Xchg := {}
  arr : Table (Option Arrival) := []
  dlv : Table Deliv := []
  /-- the STEP arrival that the tile's synchronisation node retains for a replay (R335) -/
  kept : Option Arrival := none
  deriving DecidableEq, Repr

end Sys2Proof.Machine
end

