-- ==== Sys2Proof/Machine/StateFab.lean ====
section
/-! DEFINITION. The state of a die-cell's network side: router, synchronisation node, control node (chapter 09), the
schedule block of its die (chapter 10), and the partitions that hub firmware has formed. -/

namespace Sys2Proof.Machine

/-- One torus link of a site (R316). -/
structure Link where
  st : BitVec 3 := 0
  ch : BitVec 5 := 0
  thru : BitVec 5 := 0
  /-- modules whose three channels are absent (R281) -/
  absent : BitVec 8 := 0
  /-- when the last uncorrectable flits came, within 1 ms (R303) -/
  ues : List Nat := []
  deriving DecidableEq, Repr

/-- A phase whose entries a router applies (R293): its number, its sequence number and its release time on the time base. -/
structure PhRun where
  num : Nat
  seq : W32
  t : Nat
  deriving DecidableEq, Repr

/-- The router (R283–R296, R316). Links are keyed 0–3 for N, E, S, W. -/
structure Fab where
  ready : Bool := false
  phase : BitVec 12 := 0
  /-- the phases whose entries apply, newest first (R293) -/
  runs : List PhRun := []
  /-- per output, 64 × port + channel, the fc of the time base up to which a packet occupies it (R288) -/
  busy : Table Nat := []
  /-- heads that local sources hold until a channel is free (R288) -/
  inject : List PktHead := []
  link : Table Link := []
  ce : W32 := 0
  drop : W32 := 0
  defl : W32 := 0
  stale : W32 := 0
  dup : W32 := 0
  seqold : W32 := 0
  aged : W32 := 0
  tdown : W32 := 0
  miss : W32 := 0
  bad : W32 := 0
  exUe : Bool := false
  exMiss : Bool := false
  route : Table (BitVec 13) := []
  tree : Table (BitVec 22) := []
  phIdx : Table W32 := []
  slot : Table (BitVec 80) := []
  deriving DecidableEq, Repr

/-- Who made an arrival (R311): a tile, or a die or stack node on the step channel. -/
inductive Member where
  | tile (t : Nat)
  | node (n : Nat)
  deriving DecidableEq, Repr

/-- The synchronisation node (R309–R316). `got` holds, per channel, the arrivals combined here so far. -/
structure SyncNode where
  cfg : Table (BitVec 30) := []
  lat : Table W32 := []
  lead : W16 := 0
  got : Table (List (Member × Arrival)) := []
  /-- per channel, the edges whose child has delivered its arrivals -/
  edges : Table (BitVec 4) := []
  deriving DecidableEq, Repr

/-- The control-network node (R306–R308, R316). -/
structure Ctl where
  p0 : Bool := false
  p1 : Bool := false
  fast : Bool := false
  retry : W16 := 0
  hb : W16 := 100
  deriving DecidableEq, Repr

/-- Why a die-cell's issuer sent a segment: what its answer is for. -/
inductive IssWhy where
  /-- a stack node's command result (R262) -/
  | snResult
  /-- data of the SXE's command (R264) -/
  | sxeData
  /-- nothing depends on the answer -/
  | plain
  /-- a PUT of host command `id`'s bytes, or a GET of them at `pos` (R393); commands are named by function, pair and tag -/
  | host (fn qp tag pos : Nat)
  /-- a segment of access `id` of a function's apertures, at `pos` of it (R384) -/
  | apt (fn id pos : Nat)
  /-- the result of a class B mailbox (R415) -/
  | mbb (i : Nat)
  /-- a segment of peer request `id`, for a key on a connection, at `pos` of it (R430) -/
  | key (k conn id pos : Nat)
  /-- a local access of work request `id` at `pos`, or its completion record on a connection (R432, R433) -/
  | wr (id pos : Nat)
  | wrDone (conn : Nat)
  /-- a local access of collective command `id` at `pos` (R443) -/
  | clx (id pos : Nat)
  /-- a segment of a request placed in a slot of an endpoint (R454) -/
  | slot (ep slot : Nat)
  deriving DecidableEq, Repr

/-- A segment of a die-cell's issuer that has no final answer. -/
structure IssSeg where
  node : Nat
  tgt : Tgt
  seg : Segment
  retries : Nat
  why : IssWhy
  deriving DecidableEq, Repr

/-- The issuing engine of a stack node, the hub or a port die (R81, R301). `wait` holds the sends that R301 holds back. -/
structure Issuer where
  next : Table W16 := []
  out : List IssSeg := []
  wait : List IssSeg := []
  deriving DecidableEq, Repr

/-- A die-cell's own side: a compute die (0–239), a stack node (240–263), the hub (264) or a port die (265–268). -/
structure Node where
  dup : Table DupMap := []
  fab : Fab := {}
  sync : SyncNode := {}
  ctl : Ctl := {}
  rwin : Table Window := []
  iss : Issuer := {}
  /-- a scheduled segment was rejected at a target of this die in the phase (R68, R318) -/
  winRej : Bool := false
  /-- an exchange engine of this die missed a slot (R329) -/
  xeLate : Bool := false
  wbsRoot : Bool := false
  xbusy : Bool := false
  xend : Table (BitVec 24) := []
  /-- scratchpad and exchange block of the die's spare tile while it is unused (R244, R353) -/
  spareSpm : Spm := {}
  spareXe : Xchg := {}
  deriving DecidableEq, Repr

end Sys2Proof.Machine
end

