-- ==== Sys2Proof/Machine/StateHost.lean ====
section
/-! DEFINITION. What a PCIe function and its port hold beside their registers (chapters 12 and 13). Functions are numbered
25 × port + n: port 0 is PD-N, port 1 PD-S; n = 0 the physical function, n = 1–24 the virtual ones (R378). -/

namespace Sys2Proof.Machine

/-- An aperture's mapping (R383). -/
structure Aperture where
  mapped : Bool := false
  base : Pga := 0
  size4k : Nat := 0
  tag : W16 := 0
  rights : BitVec 2 := 0
  /-- the partition that the mapping lies in -/
  part : Nat := 0x1F
  deriving DecidableEq, Repr

/-- An access to an aperture that has not ended (R384, R385): its number, aperture, offset in it, direction, segments without
an answer, the first failure, and for a read its length and the bytes landed. -/
structure AptAcc where
  id : Nat
  apt : Nat
  off : Nat
  write : Bool
  left : Nat
  fail : Option (BitVec 4)
  len : Nat
  data : Table Byte
  deriving DecidableEq, Repr

/-- An event (R398). -/
structure Event where
  kind : Nat
  detail : Nat
  part : Nat
  time : Nat
  lost : Bool := false
  deriving DecidableEq, Repr

/-- States of a TDISP interface (R382). -/
inductive Tdisp where
  | unlocked | locked | run | error
  deriving DecidableEq, Repr

/-- A class A inbound message (R410): its snapshot and when GO was written. -/
structure MbaIn where
  data : List W32
  at_ : Nat
  deriving DecidableEq, Repr

/-- How the last outbound message ended for hub firmware (R407, R409, R411): none yet, taken, TIMEOUT, RECEIVER_RESET. -/
inductive MbxEnd where
  | none | taken | timeout | receiverReset
  deriving DecidableEq, Repr

/-- One function beyond its registers. -/
structure Fn where
  busMaster : Bool := false
  d3 : Bool := false
  vfEnable : Bool := false
  tdisp : Tdisp := .unlocked
  /-- the selective IDE stream that the locked interface uses (R382) -/
  stream : Nat := 0
  /-- maximum payload and read request size, as 128 × 2^n bytes (R375, assumption log 102) -/
  mps : Nat := 0
  mrrs : Nat := 2
  /-- commands that a tail write made visible and the port has not fetched, and replies written, per queue pair -/
  visible : Table Nat := []
  stTail : Table Nat := []
  /-- replies of each queue pair since its last interrupt -/
  coal : Table Nat := []
  /-- a failed ring access stopped the pair's fetching until it is disabled and enabled again (R397) -/
  dmaStop : Table Bool := []
  apt : Table Aperture := []
  evq : List Event := []
  evLost : Bool := false
  mbaIn : Option MbaIn := none
  /-- when the outbound message in the channel was sent, and the messages that wait for the channel (R609) -/
  outAt : Nat := 0
  outEnd : MbxEnd := .none
  /-- PME is enabled (R408) -/
  pme : Bool := false
  outq : List (List W32) := []
  /-- aperture accesses without their end, oldest first, the number of the next one, and reads of FN_APT_FENCE that wait for
  the accesses below a number (R385) -/
  accs : List AptAcc := []
  accNext : Nat := 0
  fences : List Nat := []
  /-- the DOE mailbox's open sessions (R580) -/
  sessions : List Nat := []
  deriving DecidableEq, Repr

/-- A command accepted and not ended (R390). `begun` tells that it has taken effect as far as it can; `bytes` and `data` are a
DMA's progress and what it writes, `due` a QUERY_COUNTER's end, `mark` the number that aperture accesses made before an unmap
lie below (R386), `mute` that its pair was disabled and its replies are lost (R389). -/
structure HostCmd where
  fn : Nat
  qp : Nat
  tag : W16
  opc : Nat
  part : Nat
  cmd : BitVec 512
  vf1 : Bool
  /-- hub firmware runs the command -/
  fw : Bool
  begun : Bool := false
  bytes : Nat := 0
  data : List Byte := []
  due : Nat := 0
  mark : Nat := 0
  mute : Bool := false
  deriving DecidableEq, Repr

/-- A class B mailbox beyond its registers (R413–R415): when the lock was granted, the snapshot of the message, when GO was
written, and whether its result is on its way. -/
structure Mbb where
  grantAt : Nat := 0
  goAt : Nat := 0
  data : List W32 := []
  rpga : Pga := 0
  rtag : W16 := 0
  seq : W16 := 0
  sending : Bool := false
  deriving DecidableEq, Repr

/-- A final or first reply as the port writes it (R390, R399). -/
structure Reply32 where
  fn : Nat
  qp : Nat
  tag : W16
  code : W16
  sqhead : Nat
  phase : Bool
  final : Bool
  event : Bool
  opc : Nat
  vf1 : Bool
  data : List Byte
  /-- it goes with the T bit, on this selective stream (R382) -/
  ide : Option Nat := none
  deriving DecidableEq, Repr

end Sys2Proof.Machine
end

