-- ==== Sys2Proof/Machine/StateMgmt.lean ====
section
/-! DEFINITION. The hub's management: black box and MRAM, bring-up, power, time, thermal, security (chapters 16, 18–22). -/

namespace Sys2Proof.Machine

/-- A black-box record (R611). -/
structure BbRec where
  seq : W32
  tb : W64
  rtcSec : W32
  rtcSub : W16
  src : W16
  code : W16
  sev : BitVec 2
  data : List Byte
  deriving DecidableEq, Repr

/-- A firmware slot of the hub-side MRAM (R608, R610). -/
structure FwSlot where
  valid : Bool := false
  svn : W16 := 0
  /-- what the signature block of R579 names: the signer, and whether the Operator's co-signature is there -/
  signer : BitVec 2 := 0
  opSig : Bool := false
  img : Table Byte := []
  deriving DecidableEq, Repr

/-- One MRAM (R610): the tables, the two regions of the black box, oldest record first, and how often the wrap region's oldest record was
overwritten. -/
structure Mram where
  readable : Bool := true
  soft : List (BitVec 64) := []
  spmRep : List (BitVec 64) := []
  stkRep : List (BitVec 64) := []
  phase : List (BitVec 64) := []
  perm : List BbRec := []
  wrap : List BbRec := []
  wrapStart : Nat := 0
  deriving DecidableEq, Repr

/-- The black-box controller (R612): staged records, oldest first. -/
structure Bbx where
  staged : List BbRec := []
  hub : Mram := {}
  east : Mram := {}
  bootCount : W16 := 0
  slotA : FwSlot := { valid := true }
  slotB : FwSlot := {}
  deriving DecidableEq, Repr

/-- An inrush request (R520, R521): the cell that asks, what it switches on and which of its units (a quarter's number), the predicted
current in mA, when it arrived, and whether its ramp is slow. -/
structure Inrush where
  cell : W16
  cls : InrushClass
  unit : Nat
  ma : Nat
  at_ : Nat
  slow : Bool
  deriving DecidableEq, Repr

/-- A power loan (R528): the die-cell, how much in 0.1 W, whether it lends or borrows, and when it ends. -/
structure Loan where
  node : Nat
  amt : Nat
  lent : Bool
  end_ : Nat
  deriving DecidableEq, Repr

/-- A sector's power manager (R520–R528): waiting requests, oldest first, tokens granted and not released, loans. -/
structure Scpm where
  queue : List Inrush := []
  granted : List Inrush := []
  loans : List Loan := []
  deriving DecidableEq, Repr

/-- A die power manager (R527, R538, R540–R543): the steps by which its budget and its tiles' eyespots hold the clocks below 64,
its share of the sector's budget in 0.1 W, the trim in mV and when it was raised, when each tile's eyespots last lowered its clock,
since when no eyespot warns, and since when a tile's code is critical at its slowest clock. -/
structure Dpm where
  budDown : Nat := 0
  eyeDown : Table Nat := []
  share : Nat := 0
  trim : Nat := 0
  trimAt : Nat := 0
  eyeAt : Table Nat := []
  calm : Option Nat := none
  critSince : Table (Option Nat) := []
  deriving DecidableEq, Repr

/-- A hot spot (R563–R565): the sensors' last valid readings and the voted value in 0.25 °C, the flags of R564, since when the
sensors disagree, since when A and B are discarded, since when each flag's condition is absent, and a tile's throttle step. -/
structure HotTimers where
  lastA : Option Int := none
  lastB : Option Int := none
  v : Option Int := none
  dis : Bool := false
  lost : Bool := false
  disSince : Option Nat := none
  lostSinceA : Option Nat := none
  lostSinceB : Option Nat := none
  disCalm : Option Nat := none
  lostCalm : Option Nat := none
  throttle : Nat := 64
  /-- no valid input is left (R563) -/
  blind : Bool := false
  deriving DecidableEq, Repr

/-- Coolant readings (R559, R567–R569): the last sequence number, flow readings discarded in a row, low samples in a row, the
valid samples of the last 10 ms with their times, CM_STATUS as last read, since when inlet temperatures are
discarded, since when the flow is back, and when the flow stop was declared. -/
structure Cool where
  seq : Option W16 := none
  bad : Nat := 0
  low : Nat := 0
  flows : List (Nat × Nat) := []
  failed : Bool := false
  sensor : Bool := false
  tBadSince : Option Nat := none
  backSince : Option Nat := none
  stopAt : Nat := 0
  deriving DecidableEq, Repr

/-- What the fuses of the panel hold (R29, R32, R36, R237, R589). Identity records are kept by how they differ from the
nominal record of their place, by P-site, or 288 + k for port die k (assumption log 8); `recs` are bad-unit records as a
FUSE_WRITE lays them out: P-site or port code in [15:0], kind in [23:16], unit in [63:24]; `spareAt` the mesh position plus
one that a die's spare tile takes by fuse; `badSpare` spare rows that cannot be used: P-site, physical tile, bank, spare. -/
structure Fuses where
  id : Table (BitVec 128) := []
  recs : List (BitVec 64) := []
  spareAt : Table Nat := []
  badSpare : List (Nat × Nat × Nat × Nat) := []
  /-- the panel's base MAC address (R419) -/
  mac : BitVec 48 := 0
  deriving DecidableEq, Repr

/-- BOOT's own state (R458–R481): when main power became good, when the instar started and which, whether its work is done
and with which code; what is bad at this boot and why, by P-site and by
17 × P-site + physical tile (0 good, 1 by fuse, 2 by the soft map, 3 + cause failed in this boot); the mesh position plus one
that a die's spare tile takes; port dies not in use and lanes found bad in this boot; the bundle in hub staging, the round,
the chunks each receiver lacks, attempts made point to point and known-answer results, by receiver. -/
structure Boot where
  powerAt : Nat := 0
  startAt : Nat := 0
  target : Nat := 0
  work : Bool := false
  code : Nat := 0
  dark : List Nat := []
  silent : List Nat := []
  silentPorts : List Nat := []
  badSite : Table Nat := []
  badTile : Table Nat := []
  spareTile : Table Nat := []
  badPort : List Nat := []
  /-- kind of the soft-map record, P-site or port code, unit -/
  lanes : List (Nat × Nat × Nat) := []
  bundle : Option Bundle := none
  round : Nat := 0
  miss : List (Nat × Nat) := []
  p2p : Table Nat := []
  kat : Table Nat := []
  deriving DecidableEq, Repr

/-- An entry of the partition layout (R591). -/
structure LayoutEntry where
  id : Nat
  flags : Byte
  secs : BitVec 24
  grpBase : Nat
  grpCnt : Nat
  epBase : Nat
  epCnt : Nat
  tkBase : Nat
  tkCnt : Nat
  deriving DecidableEq, Repr

/-- A partition's secrets (R582, R583): the owner, the session that holds a decapsulation key and the generation of its key pair, the PMK, the
network keys. -/
structure Owner where
  bound : Bool := false
  id : BitVec 384 := 0
  /-- the session, as function × 4 + session, that holds a decapsulation key -/
  kemOut : Option Nat := none
  kemKey : Nat := 0
  pmk : List Byte := []
  nk : Table (BitVec 256) := []
  /-- measurement 7: loads since formation, and the image's digest -/
  loads : Nat := 0
  imageHash : BitVec 384 := 0
  deriving DecidableEq, Repr

/-- A policy packet that waits for the ROT (R590): the host command that carried it, or none for out-of-band management, and its
size. -/
structure PolicyJob where
  frm : Option (Nat × Nat × W16)
  total : Nat
  pkt : PolicyPkt
  deriving DecidableEq, Repr

/-- The root of trust (R575–R595): the digest of the role set, the layout, MACsec keys, fuse records that wait, records to clear
at the next boot, SPDM sessions over MCTP, the packet being assembled, and packets in order of arrival. -/
structure Rot where
  /-- the role set in force, and its SHA-384 (R588) -/
  roles : List Byte := []
  roleSet : BitVec 384 := 0
  /-- what was measured, by the block's number (R577); a digest is taken over it when it is read -/
  meas : Table (List Byte) := []
  /-- the sealing key, while the sealed store is open (R576, R578) -/
  sk : List Byte := []
  /-- POL_COUNTER -/
  counter : W64 := 0
  layout : List LayoutEntry := []
  addrs : List (BitVec 192) := []
  owner : Table Owner := []
  caks : List (BitVec 256) := []
  fuses : List (BitVec 64) := []
  clears : List (Byte × W16) := []
  sessions : List Nat := []
  chunks : Table Byte := []
  pkts : List PolicyJob := []
  panelTag : W32 := 0
  bundleSvn : W16 := 0
  bundleBuild : W64 := 0
  bundleOk : Fin 4 × Bool := (0, false)
  /-- key pairs drawn so far (R585) -/
  keyGen : Nat := 0
  deriving DecidableEq, Repr

/-- Feeds and resets (R504–R508, R571, R617–R619): standby present, main power good, the feed latched (0 none, 1 48 V,
2 12 V), the second feed already logged, THERMTRIP_N latched low. -/
structure Feed where
  stby : Bool := false
  mainGood : Bool := false
  latched : Nat := 0
  otherLogged : Bool := false
  tripped : Bool := false
  deriving DecidableEq, Repr

/-- The safety cores and hub firmware (R600–R602): whether firmware runs, when it last kicked, restarts of the last hour. -/
structure Score where
  fwUp : Bool := false
  kickAt : Nat := 0
  restarts : List Nat := []
  mismatchAt : Option Nat := none
  eid : Byte := 0
  /-- when the last HOST_MARK was written (R609) -/
  markAt : Option Nat := none
  telBeat : Nat := 0
  deriving DecidableEq, Repr

/-- The time base (R548–R552): when the master started, each die's difference from it, the dies that the last pulse
has not reached and when it went, the last 1PPS stamp, and what the real-time clock was set to and when. -/
structure TimeBase where
  startAt : Option Nat := none
  diff : Table Int := []
  pulse : List Nat := []
  pulseAt : Nat := 0
  pps : W64 := 0
  rtcBase : Nat := 0
  rtcAt : Nat := 0
  /-- when TBM_FREQ_ADJ was steered last, and when the last 1PPS edge came -/
  adjAt : Nat := 0
  ppsAt : Option Nat := none
  deriving DecidableEq, Repr

end Sys2Proof.Machine
end

