-- ==== Sys2Proof/Machine/StateOut.lean ====
section
/-! DEFINITION. What the panel's agents send: requests and answers on the fabric, control-network messages, replies to the
host, frames, log lines. The list of them is the model's own (assumption log 12). -/

namespace Sys2Proof.Machine

/-- A 16-byte control-network message (R308), by what it reports. -/
inductive CtlMsg where
  /-- a tile exception (R213): tile, code, IMEM index, unit -/
  | exception (tile : Nat) (code : BitVec 4) (pc : BitVec 11) (unit : BitVec 3)
  /-- a scratchpad row repair or bank retirement (R238, R239) -/
  | spmRepair (tile bank row : Nat) (retire : Bool)
  /-- a stack repair (R269): stack, pseudo-channel, chunk, STR_KIND -/
  | stackRepair (stack q chunk kind : Nat)
  /-- a stack above 95 °C (R273) -/
  | stackHot (stack : Nat) (temp : Byte)
  /-- a tile failure: a bank retired at once (R239) -/
  | tileFailure (tile : Nat)
  deriving DecidableEq, Repr

/-- The body of a control packet (R307, R308). -/
inductive CtlBody where
  | regRsp (tag : Byte) (code : BitVec 4) (data : List W32)
  | msg (m : CtlMsg)
  | heartbeat
  deriving DecidableEq, Repr

/-- A control packet on its way to the hub, with the die-cell that sent it (R307). -/
structure CtlPkt where
  src : Nat
  body : CtlBody
  deriving DecidableEq, Repr

/-- Something sent. -/
inductive Out where
  /-- a request segment leaves its issuer -/
  | request (tgt : Tgt) (seg : Segment)
  /-- an answer leaves its target -/
  | answer (node seq : W16) (ans : Answer)
  /-- a scheduled packet leaves the exchange engine of die-cell `node` on local channel `ch`, to a target, or on tree `tree` (R327, R328) -/
  | schedPkt (node ch : Nat) (tgt : Option Tgt) (tree : Nat) (seg : Segment)
  /-- a packet leaves router `node` on `port` and `ch` under a header, poisoned where a flit came poisoned (R285, R296); port 4 is local
  delivery -/
  | hop (node port ch : Nat) (hdr : BitVec 256) (poison : Bool)
  /-- a scheduled flit leaves a router on `port` and `ch`; poisoned where it could not be corrected (R291, R303) -/
  | flit (node port ch : Nat) (poison : Bool)
  /-- a reply or an event is written to a status ring (R390, R398, R399) -/
  | reply (r : Reply32)
  /-- an MSI-X vector of a function is raised (R389, R408), with the T bit on the stream that `ide` names (R382) -/
  | msix (fn vec : Nat) (ide : Option Nat)
  /-- a PME message of a function in D3hot (R408) -/
  | pme (fn : Nat)
  /-- a non-posted request of a function completes with these bytes (R380, R384) -/
  | completion (fn : Nat) (ok : Bool) (bytes : List Byte)
  /-- bytes are written to host memory for a function in one request (R375, R393, R397), with the T bit on the stream that `ide` names -/
  | hostWrite (fn : Nat) (addr : W64) (bytes : List Byte) (ide : Option Nat)
  /-- a packet leaves an Ethernet port on a connection, with its sequence number, transmit counter, entropy value, and packet number under
  MACsec (chapters 14 and 15) -/
  | packet (die port conn psn ctr : Nat) (entropy : Byte) (pn : Option Nat) (body : PktBody)
  /-- an IEEE 1588 event message is stamped with the time base (R420) -/
  | stamp (die port : Nat) (tb : Nat)
  /-- a neighbour or echo reply leaves a port (R419) -/
  | linkReply (die port : Nat) (echo : Bool)
  /-- a control-network register access leaves the hub, or a budget, grant or cut message (R308, R521, R529) -/
  | ctl (node kind value : Nat)
  /-- a wingbeat is sent in a partition (R314) -/
  | wingbeat (part phase : Nat) (seq : W32) (t : Nat)
  /-- a register read by a row of its own returns (R554, R555, R595) -/
  | regRead (place off : Nat) (v : W32)
  /-- a time-base pulse (R550) -/
  | pulse (t : Nat)
  /-- an answer over MCTP, DOE or the debug pins: who, code, bytes (R580, R593, R606) -/
  | mgmt (via code : Nat) (bytes : List Byte)
  /-- THERMTRIP_N is driven low (R571) -/
  | thermtrip
  /-- an event message to the bus owner, held for polling while the owner has not enabled events (R607) -/
  | pldmEvent (sensor : Nat)
  deriving DecidableEq, Repr

end Sys2Proof.Machine
end

