-- ==== Sys2Proof/Machine/StateHub.lean ====
section
/-! DEFINITION. The hub's state, block by block. -/

namespace Sys2Proof.Machine

/-- ANAT_SMAP of an L-die (R45). -/
structure Smap where
  psite : Nat := 0
  origin : BitVec 2 := 0
  valid : Bool := false
  part : BitVec 5 := 0x1F
  deriving DecidableEq, Repr

/-- ANAT_STKMAP of a logical stack (R45): state 0 LIVE, 1 DEGRADED, 2 RETIRED, 3 DARK. -/
structure Stkmap where
  psite : Nat := 0
  part : BitVec 5 := 0x1F
  state : BitVec 2 := 0
  deriving DecidableEq, Repr

/-- ANAT_SITE of a P-site (R45): state 0 ACTIVE, 1 SPARE_READY, 2 BAD_FUSE, 3 BAD_SOFT, 4 FAILED, 5 DARK. -/
structure SiteInfo where
  role : BitVec 3 := 0
  lslot : BitVec 4 := 0xF
  state : BitVec 3 := 0
  ldie : Byte := 0xFF
  deriving DecidableEq, Repr

/-- The site map (R45, R46). -/
structure Anat where
  gen : W32 := 0
  smap : Table Smap := []
  stk : Table Stkmap := []
  site : Table SiteInfo := []
  deriving DecidableEq, Repr

/-- A molt in progress (R486): lost L-dies with their new P-sites (none until woken), when the last loss was declared, the
step reached, and whether a halt waits for it. -/
structure Molt where
  ldies : List (Nat × Option Nat) := []
  at_ : Nat := 0
  halt : Bool := false
  deriving DecidableEq, Repr

/-- A cell-level close in progress (R87, R89): its number, partition, command, status and tag. -/
structure CellCmd where
  id : Nat
  part : Nat
  cmd : BitVec 512
  status : BitVec 8
  tag : W16
  deriving DecidableEq, Repr

/-- The hub. `inbox` holds what the control network has delivered to hub firmware and firmware has not yet acted on. -/
structure Hub where
  anat : Anat := {}
  inbox : List CtlPkt := []
  /-- when each die-cell's heartbeat last restarted its timer (R483), in ns -/
  hb : Table Nat := []
  /-- the state of every power region (R512): 0 OFF, 1 AON, 2 SLEEP, 3 ACTIVE; by P-site, 288 + k for port die k, 292 for the
  hub -/
  region : Table Nat := []
  /-- the control network runs, from instar 1, and its links that have failed: 13 × sector + place on the ring, or 312 + port die (R306) -/
  ringOn : Bool := false
  ringDown : List Nat := []
  /-- a site or link was lost, and routers of partitions that ran have not been rewritten since (R493) -/
  routesOld : Bool := false
  /-- dies declared lost -/
  lost : List Nat := []
  molt : Table Molt := []
  /-- when a watchdog probe of a die was sent, plus one -/
  probe : Table Nat := []
  /-- re-arms of a partition's watchdog without a completed combine -/
  rearms : Table Nat := []
  cmds : List HostCmd := []
  mbb : Table Mbb := []
  /-- result slots and the telemetry ring, by hub offset -/
  sram : Table Byte := []
  rwin : Table (Table Window) := []
  cellq : Table (List (BitVec 512)) := []
  cellRun : List CellCmd := []
  cellNext : Nat := 0
  bbx : Bbx := {}
  scpm : Table Scpm := []
  /-- by die-cell -/
  dpm : Table Dpm := []
  /-- regulator phases that are disconnected: P-site or port code, rail, phase (R515) -/
  phases : List (Nat × Nat × Nat) := []
  /-- site eFuses that have tripped since the last cold reset, by power region (R518) -/
  fuseOpen : List Nat := []
  /-- input power in this 10 ms window: the sum of its samples and their number, in W; and the averages of the last windows,
  newest last (R526, R529) -/
  pinSum : Nat := 0
  pinN : Nat := 0
  pinAvg : List Nat := []
  hot : Table HotTimers := []
  cool : Cool := {}
  fuses : Fuses := {}
  boot : Boot := {}
  rot : Rot := {}
  feed : Feed := {}
  score : Score := {}
  tb : TimeBase := {}
  /-- when the twin pair's last mismatches fell (R502) -/
  twinMis : List Nat := []
  /-- PD-S's role at the next cold boot (R375) -/
  roleNext : Bool := false
  deriving DecidableEq, Repr

end Sys2Proof.Machine
end

