-- ==== Sys2Proof/Machine/StatePart.lean ====
section
/-! DEFINITION. A partition as hub firmware and its wingbeat sequencer keep it (chapters 02 and 10). -/

namespace Sys2Proof.Machine

/-- A router's part of a schedule image (ROUTES of R347): the site as sector rank × 12 + slot, slot entries, phase index words and trees, each
in the order of their indices. -/
structure ZsiRoute where
  site : Nat
  slots : List (BitVec 80)
  phIdx : List W32
  trees : List (BitVec 22)
  deriving DecidableEq, Repr

/-- The exchange lists of one engine (XDTILE, XDSTACK of R347): phase index words, then the descriptors of its phases in order. -/
structure ZsiXd where
  pidx : List W32
  descs : List (BitVec 256)
  deriving DecidableEq, Repr

/-- A program of a schedule image: the base, or a fallback variant with its key of invalid relative L-dies (R342, R347). `ix` gives the
directory index of the section of each type. -/
structure ZsiProg where
  ix : List (Nat × Nat) := []
  key : List Nat := []
  beats : List (BitVec 128) := []
  code : List (List Insn) := []
  tilemap : List (BitVec 64) := []
  tiledata : List (Nat × Nat × List Byte) := []
  stackdata : List (Nat × Nat × List Byte) := []
  windows : List (BitVec 128) := []
  routes : List ZsiRoute := []
  xdtile : List ZsiXd := []
  xdstack : List ZsiXd := []
  xend : List W32 := []
  patches : List (BitVec 64 × BitVec 80) := []
  buffers : List (BitVec 96) := []
  ckpts : List (W32 × List Nat) := []
  sync : List (W32 × List Nat) := []
  deriving DecidableEq, Repr

/-- A schedule image as a partition runs it: the header's fields (R346), the sectors of its placement, the programs as that placement has
them, and the digest of the file. -/
structure Zsi where
  imageId : W64 := 0
  seed : W64 := 0
  twinOk : Bool := false
  exact : Bool := false
  nsect : Nat := 1
  secs : List Nat := []
  replayMax : Nat := 3
  rollbackMax : Nat := 2
  q : Nat := 64
  base : ZsiProg := {}
  variants : List ZsiProg := []
  digest : BitVec 384 := 0
  deriving DecidableEq, Repr

/-- SCH_STATE (R352). -/
inductive SchState where
  | empty | loading | ready | running | replaying | rollback | halted | done
  deriving DecidableEq, Repr

/-- The partition schedule block (R352). `why`: 0 none, 1 request, 2 STEP_FAILED, 3 TWIN_FAULT, 4 watchdog, 5 SHRUNK. -/
structure Sch where
  state : SchState := .empty
  why : BitVec 4 := 0
  twinOn : Bool := false
  twinPart : BitVec 5 := 0x1F
  beat : W32 := 0
  committed : W32 := 0
  slip : W32 := 0
  replay : W32 := 0
  rollback : W16 := 0
  twinMism : W16 := 0
  ckptId : W16 := 0
  lastCause : BitVec 14 := 0
  loadCode : Byte := 0
  loadSect : BitVec 12 := 0
  loadRec : W32 := 0
  digest : W64 := 0
  replayMax : BitVec 4 := 3
  rollbackMax : BitVec 4 := 2
  deriving DecidableEq, Repr

/-- A valid checkpoint (R338). -/
structure Ckpt where
  id : W16 := 0
  rec_ : Nat := 0
  beat : Nat := 0
  loops : Table Nat := []
  stepNum : W32 := 0
  run : Byte := 0
  last : Byte := 0
  pend : Byte := 0
  deriving DecidableEq, Repr

/-- A wingbeat sent and not released (R314, R320, R335). -/
structure Wingbeat where
  phase : Nat
  seq : W32
  t : Nat
  rec_ : Nat
  replay : Bool
  closing : Bool
  resume : Bool
  noExchange : Bool
  deriving DecidableEq, Repr

/-- The wingbeat sequencer (R321, R322). `w` counts the beats of the image, `rec_` is the record of the beat in progress,
`loops` the iterations done per loop record, `tw` the release time, `seq` the wingbeats sent, `cAt` when the combine that
lets the next wingbeat go completed, `flags` its ST_FLAGS, `replays` of the phase, `failBeat` and `fails` the beat that
failed last and how often in a row, `steps` what RUN_STEP still allows. -/
structure Wbs where
  w : Nat := 0
  rec_ : Nat := 0
  loops : Table Nat := []
  tw : Nat := 0
  seq : Nat := 0
  started : Bool := false
  cAt : Option Nat := none
  flags : Byte := 0
  replays : Nat := 0
  replayDue : Bool := false
  failBeat : Nat := 0
  fails : Nat := 0
  haltReq : Nat := 0
  withheld : Bool := false
  steps : Option Nat := none
  wb : Option Wingbeat := none
  closing : Bool := false
  twinFailBeat : Option Nat := none
  /-- release time of the last wingbeat, replays included -/
  rel : Nat := 0
  /-- when a halted partition was resumed, and whether the resume must roll back (R568) -/
  resumeAt : Nat := 0
  forced : Bool := false
  /-- the last 1,024 beats released, oldest first: BR_PERIOD, release time, SCH_SLIP then (R449) -/
  hist : List (Nat × Nat × Nat) := []
  deriving DecidableEq, Repr

/-- A wait that QUERY_COUNTER armed (R393): the command, the barrier channel of its cell where it has one, the members, their
counter and its value, and the members that have arrived. -/
structure HostWait where
  fn : Nat
  qp : Nat
  tag : W16
  ch : Option Nat
  members : List Tgt
  cnt : Nat
  v : Nat
  arrived : List Tgt
  deriving DecidableEq, Repr

/-- One partition: its sectors, its stacks, its composite cells (R44, R64, R83), its schedule. `members` is hub firmware's table of
composite cells, keyed 4,096 × composite + member, bit 16 marking a member; `comp` the bitmaps expanded from it. -/
structure Part where
  formed : Bool := false
  secs : BitVec 24 := 0
  snodes : BitVec 24 := 0
  members : Table W32 := []
  comp : Table (BitVec 4096) := []
  root : Nat := 0
  rwGen : Byte := 0
  sch : Sch := {}
  /-- the image loaded, and which of its programs runs: 0 the base, n the n-th variant -/
  img : Option Zsi := none
  variant : Nat := 0
  /-- a stack of the partition has lost a channel since its image was loaded (R270) -/
  holed : Bool := false
  exposedN : Bool := false
  exposedS : Bool := false
  conf : Bool := false
  /-- QUERY_COUNTER waits armed (R393) -/
  waits : List HostWait := []
  /-- SYNC_WB_LEAD as it was before SET_TWIN joined the partition to another (R314, R553) -/
  lead0 : Option W16 := none
  wbs : Wbs := {}
  ckpt : Ckpt := {}
  deriving DecidableEq, Repr

end Sys2Proof.Machine
end

