-- ==== Sys2Proof/Machine/StatePort.lean ====
section
/-! DEFINITION. What an Ethernet port die holds beside its registers (chapters 14 and 15): the queues of each partition's
block, connections, work requests, groups, collectives and endpoints. -/

namespace Sys2Proof.Machine

/-- A packet sent and unacknowledged (R434): when it went, how often again, and on which port. -/
structure TxPkt where
  psn : Nat
  at_ : Nat
  tries : Nat
  port : Nat
  body : PktBody
  deriving DecidableEq, Repr

/-- A connection beyond its registers (R425–R428, R431–R434). -/
structure Conn where
  peerId : W64 := 0
  nk : Nat := 0
  nonce : W64 := 0
  /-- the last 16 nonces used on the index -/
  nonces : List W64 := []
  peerIp : BitVec 128 := 0
  peerQpn : BitVec 24 := 0
  mtu : BitVec 2 := 0
  tmo : BitVec 5 := 0
  retry : BitVec 3 := 0
  srcIp : Bool := false
  vlan : BitVec 12 := 0
  dscp : BitVec 6 := 0
  /-- receive epoch, and the counters seen among the 1,024 behind the highest, as distances below it (R426) -/
  rxEpoch : Nat := 0
  rxSeen : Bool := false
  rxHigh : Nat := 0
  rxGot : List Nat := []
  /-- the next sequence number that a RoCEv2 responder expects, those a UET responder has taken, and the next to send -/
  psn : Nat := 0
  uetGot : List Nat := []
  txPsn : Nat := 0
  /-- retries made in a row, and packets sent and unacknowledged, oldest first -/
  tries : Nat := 0
  unacked : List TxPkt := []
  /-- the port that sends next under UET, and the entropy value of its next packet (R434) -/
  nextPort : Nat := 0
  entropy : Byte := 0
  /-- bytes held in the receive buffer -/
  held : Nat := 0
  /-- bits taken from the token bucket of CN_RXLIM, and when -/
  used : Nat := 0
  usedAt : Nat := 0
  /-- the send rate in Mb/s, the port's when 0; when the last CNP came or the rate last rose; when the rate was last halved; when the
  last CNP went out -/
  rate : Nat := 0
  cnpAt : Nat := 0
  cutAt : Option Nat := none
  cnpOut : Option Nat := none
  /-- old values of the last atomics answered (R427) -/
  replies : List (Nat × W64) := []
  /-- the message of an endpoint's key as far as it has arrived, and whole ones, by endpoint (R453) -/
  msg : List Byte := []
  msgs : List (Nat × List Byte) := []
  deriving DecidableEq, Repr

/-- An accepted request of a peer that is being issued on the panel (R430). -/
structure EthReq where
  id : Nat
  conn : Nat
  key : Nat
  psn : Nat
  r : PeerReq
  open_ : Nat
  data : Table Byte
  fail : Option (BitVec 4)
  deriving DecidableEq, Repr

/-- A work request taken (R432). `clx` names the collective command that made it; `open_` counts unanswered local segments;
`pend` holds its packets without an acknowledgement or a reply; `data` its source bytes; `got` the bytes acknowledged or
landed; `fate` is CR_STATUS and CR_RCODE once it has ended. -/
structure WorkReq where
  id : Nat
  part : Nat
  w : BitVec 512
  clx : Option Nat := none
  open_ : Nat := 0
  data : Table Byte := []
  sent : Bool := false
  pend : List Nat := []
  got : Nat := 0
  /-- it counts in TK_INFL of its local key -/
  uses : Bool := false
  fate : Option (Nat × BitVec 4) := none
  deriving DecidableEq, Repr

/-- A partition's block in a port die (R431, R443): the queues, its register windows, and the TK_UNBIND that runs. -/
structure PortBlk where
  cmdq : List (BitVec 512) := []
  wrq : List (BitVec 512) := []
  clxq : List (BitVec 512) := []
  rwin : Table Window := []
  unbinding : Option (BitVec 512) := none
  deriving DecidableEq, Repr

/-- How far a collective command is. -/
inductive ClxPhase where
  /-- reads its local bytes -/
  | read
  /-- exchanges with partners or peers -/
  | run
  /-- lands its result -/
  | land
  | ended
  deriving DecidableEq, Repr

/-- A collective command taken (R440–R455). `data` is its local source, `pos` how many bytes work requests have been made for,
`retried` the READs made again (R452); `stage` counts its finished exchanges and `out` those it has sent its packet for, `heard` the packets of partners not yet used,
`parts` the source elements by rank; `held`, `replayed` and `parked` are R446's, R447's and R445's; `fate` CC_STATUS and
CC_RCODE once it has ended; `since` when it began, `slow` that a STRAGGLER was reported. -/
structure Clx where
  id : Nat
  part : Nat
  cmd : BitVec 512
  /-- the keys whose TK_INFL counts it -/
  keys : List Nat := []
  phase : ClxPhase := .read
  open_ : Nat := 0
  data : Table Byte := []
  fate : Option (Nat × BitVec 4) := none
  pos : Nat := 0
  retried : List Nat := []
  crc : Nat := 0
  stage : Nat := 0
  out : Nat := 0
  heard : List Nat := []
  parts : List (Nat × List Byte) := []
  flags : Byte := 0
  held : Bool := false
  replayed : Bool := false
  parked : Bool := false
  since : Nat := 0
  slow : Bool := false
  deriving DecidableEq, Repr

/-- A shrink under way (R447): the command's number, the member bitmap, the digest, those heard by old rank, and its end. -/
structure Shrink where
  clx : Nat
  epoch : W32
  members : List Nat
  digest : W64
  heard : List (Nat × W64)
  due : Nat
  deriving DecidableEq, Repr

/-- A group entry beyond its registers (R437–R448). `early` holds packets of collectives that this member has not begun. -/
structure Group where
  conns : List (Nat × Nat) := []
  shrink : Option Shrink := none
  early : List (W32 × Nat × List (Nat × List Byte)) := []
  digests : List (Nat × W64) := []
  /-- per partner rank: when last heard, when last sent to, its state and since when it is PAUSED -/
  heardAt : Table Nat := []
  sentAt : Table Nat := []
  peer : Table PeerState := []
  pausedAt : Table Nat := []
  lost : List Nat := []
  /-- the partition was reset (R445) -/
  dead : Bool := false
  deriving DecidableEq, Repr

/-- A request held in a slot of an endpoint (R454). `open_` counts the slot's bytes still on their way. -/
structure EpSlot where
  seq : W32
  conn : Nat
  rid : W64
  rkey : W32
  rmax : Nat
  roff : Nat
  len : Nat
  open_ : Nat
  /-- the descriptor entry it takes -/
  desc : Nat
  deriving DecidableEq, Repr

/-- An endpoint (R453). -/
structure Endpoint where
  bound : Bool := false
  part : Nat := 0x1F
  key : Nat := 0
  szLog : Nat := 0
  count : Nat := 0
  dpga : Pga := 0
  dtag : W16 := 0
  seq : W32 := 0
  nextDesc : Nat := 0
  slots : Table (Option EpSlot) := []
  deriving DecidableEq, Repr

/-- An IDE stream of a PCIe port (R381): the keys programmed into its slots, and the slots that go (assumption log 102). -/
structure IdeStream where
  keys : Table (BitVec 256) := []
  go : Table Bool := []
  deriving DecidableEq, Repr

/-- A port die. `held` counts the bytes of its 32 MiB receive buffer, `next` numbers its requests. -/
structure Port where
  ethRole : Bool := false
  /-- the mode that each quad trained in (R417) -/
  modes : Table Nat := []
  fast : Bool := false
  linkUp : Bool := false
  width : Nat := 0
  /-- the rate that the PCIe link trained at, in GT/s (R375), and its IDE streams: 0 the link stream, 1 to 8 the selective ones (R381) -/
  rate : Nat := 0
  ide : Table IdeStream := []
  perst : Bool := false
  conns : Table Conn := []
  reqs : List EthReq := []
  wrs : List WorkReq := []
  clx : List Clx := []
  next : Nat := 0
  blk : Table PortBlk := []
  groups : Table Group := []
  eps : Table Endpoint := []
  held : Nat := 0
  /-- the next packet number expected of a secure association, by 16 × port + 4 × channel + association, and that of the next frame sent, by
  port (R421) -/
  msRx : Table Nat := []
  msTx : Table Nat := []
  deriving DecidableEq, Repr

end Sys2Proof.Machine
end

