-- ==== Sys2Proof/Machine/StateStack.lean ====
section
/-! DEFINITION. The state of one stack node (chapter 08). -/

namespace Sys2Proof.Machine

/-- Power states of a stack node (R274, SN_PSTATE of R275). -/
inductive SnPower where
  | active | selfRefresh | off | init
  deriving DecidableEq, Repr

/-- SN_CHAN (R275). -/
structure SnChan where
  state : BitVec 2 := 0
  why : BitVec 4 := 0
  deriving DecidableEq, Repr

/-- A chunk queued for repair (R268): pseudo-channel, chunk. -/
structure SnChunk where
  q : Nat
  chunk : Nat
  deriving DecidableEq, Repr

/-- The SXE command in progress (R264–R267): its command, how many of its segments are unanswered, the bytes answered OK,
the status it will end with and the response code of REMOTE_FAIL; the segments not yet sent (target, offset, length), the next run or
sub-block to read, the bytes read and not yet sent with their poison, and whether the source has met a retired channel. -/
structure SxeJob where
  cmd : BitVec 512
  open_ : Nat
  bytes : Nat
  status : BitVec 8
  rcode : BitVec 4
  rest : List (Tgt × Nat × Nat)
  unit : Nat
  buf : List (Byte × Bool)
  holed : Bool
  deriving DecidableEq, Repr

/-- SN_TRAIN (R275). -/
structure SnTrain where
  step : BitVec 3 := 0
  done : Bool := false
  fail : Bool := false
  code : Byte := 0
  /-- when step 1 started, in ns (TR_MS) -/
  at_ : Option Nat := none
  deriving DecidableEq, Repr

/-- A stack node. `dev` holds, per 64-byte burst, how the check symbols differ from those of the stored bytes (R256). -/
structure Stack where
  w : WinUnit := {}
  xe : Xchg := {}
  desc : Table (BitVec 256) := []
  /-- data that exchange descriptors of the phase have released and read, by descriptor number: bytes, and poison by 64-byte burst (R332) -/
  ready : Table (List Byte × List Bool) := []
  mem : Table Byte := []
  dev : Table (BitVec 24) := []
  pw : SnPower := .off
  st : BitVec 2 := 0
  hot : Bool := false
  temp : Byte := 0
  ref2x : Bool := false
  /-- self-refresh entered at 105 °C, until the stack is below 100 °C (R273) -/
  tooHot : Bool := false
  /-- a WAKE under way: from SELF_REFRESH, or from OFF until its inrush ramp has ended (R274) -/
  waking : Bool := false
  lateStep : Bool := false
  lateCnt : W32 := 0
  cmdq : List (BitVec 512) := []
  cmdqDrop : W32 := 0
  /-- SXE commands taken from the queue that wait for the SXE (R261) -/
  sxq : List (BitVec 512) := []
  sxe : Option SxeJob := none
  /-- the CLOSE_NOW that the queue last executed, by its number; it blocks the queue until it has ended (R261) -/
  closing : Option Nat := none
  resDrop : W32 := 0
  resOp : BitVec 2 := 0
  resCode : BitVec 2 := 0
  resSeq : W16 := 0
  chan : Table SnChan := []
  ce : W32 := 0
  ue : W32 := 0
  odecc : W32 := 0
  suspects : Table (List Nat) := []
  rq : List SnChunk := []
  rqOvf : Bool := false
  spareUsed : Nat := 0
  /-- chunks served from the spare store, keyed q × 2^23 + chunk (R269) -/
  remap : Table Bool := []
  /-- distinct chunks with an uncorrectable read, per channel: chunk key and time in ns (R270) -/
  ueChunks : Table (List (Nat × Nat)) := []
  /-- recalibrations of a channel failed in succession (R270) -/
  recal : Table Nat := []
  scrubHrs : Byte := 24
  scrubAt : Nat := 0
  train : SnTrain := {}
  xtsOn : Bool := false
  xtsEpoch : Byte := 0
  /-- the generation of the key pair the engine holds; 0 for none (R258) -/
  key : Nat := 0
  /-- the generation under which the contents were written, and that of single bursts written since under another -/
  mkey : Nat := 0
  bkey : Table (Option Nat) := []
  deriving DecidableEq, Repr

end Sys2Proof.Machine
end

