-- ==== Sys2Proof/Machine/State.lean ====
section
/-! DEFINITION. The whole panel's state, its faults and refusals, and the state after reset. -/

namespace Sys2Proof.Machine

/-- Why the machine stops. -/
inductive Fault where
  /-- Raised by any command whose operands cannot be what the command's packet, word or write holds (a byte list of
  another length than the access): safe, the spec gives no such command an effect. -/
  | illFormed
  deriving DecidableEq, Repr

/-- Why a command is turned away. -/
inductive Refusal where
  /-- Raised by an arm of exec whose command has no meaning yet: safe. -/
  | notModelled (mnemonic : String)
  deriving DecidableEq, Repr

structure State where
  /-- the commands that wait, first in, first out (the model's own, assumption log 1) -/
  pending : List Instr := []
  /-- nanoseconds since reset (the model's own, assumption log 1) -/
  now : Nat := 0
  /-- counter the free values are drawn at (the model's own, assumption log 5) -/
  freeCtr : Nat := 0
  /-- what has been sent, newest last (the model's own, assumption log 12) -/
  out : List Out := []
  /-- tiles by L-die × 16 + logical tile -/
  tiles : Table Tile := []
  /-- stack nodes by logical stack -/
  snodes : Table Stack := []
  /-- die-cells by the destination index of R294 -/
  nodes : Table Node := []
  /-- control packets on their way to the hub, oldest first (R307) -/
  ctlq : List CtlPkt := []
  hub : Hub := {}
  /-- PCIe functions, by 25 × port + number -/
  fns : Table Fn := []
  /-- port dies by R55's order N, E, S, W -/
  ports : Table Port := []
  /-- registers kept as words, by place × 2^24 + offset: how each differs from its reset value -/
  regs : Table W32 := []
  /-- partitions by ID -/
  parts : Table Part := []
  deriving DecidableEq, Repr

/-- The outcome of a command. -/
abbrev Result := Host.Outcome State Fault Refusal

/-- The panel right after reset. -/
def State.reset : State := {}

end Sys2Proof.Machine
end

