-- ==== Sys2Proof/Machine/WinOps.lean ====
section
/-! DEFINITION. Windows and completion counters, as a tile and a stack node share them (R59–R80, R204). -/

namespace Sys2Proof.Machine

/-- The next generation of an index (R65): 255 is followed by 1. -/
def nextGen (g : Byte) : Byte := if g = 0xFF then 1 else g + 1

/-- The tag of window `i` (R60). -/
def Window.tag (w : Window) (i : Nat) : W16 := BitVec.ofNat 16 (256 * i + w.gen.toNat)

/-- The 2-bit code of a window state. -/
def WinState.code : WinState → Nat
  | .closed => 0 | .open => 1 | .quiescing => 2

/-- Statuses of window commands (R204, R262). -/
def stOk : BitVec 8 := 0
def stBusy : BitVec 8 := 1
def stBadParam : BitVec 8 := 2
def stAlreadyClosed : BitVec 8 := 3
def stQuiesceTimeout : BitVec 8 := 4

/-- Adding `k` to a counter (R75): it stops at 2^48 − 1 and sets the saturation bit. -/
def Ccnt.add (c : Ccnt) (k : Nat) : Ccnt :=
  if c.val.toNat + k < 2 ^ 48 then { c with val := BitVec.ofNat 48 (c.val.toNat + k) }
  else { c with val := BitVec.allOnes 48, sat := true }

/-- Counter `c` of the unit. -/
def WinUnit.ccnt (u : WinUnit) (c : Nat) : Ccnt := u.cc.get {} c

/-- Counter `c` raised by `k`. -/
def WinUnit.bump (u : WinUnit) (c k : Nat) : WinUnit := { u with cc := u.cc.upd {} c (fun x => x.add k) }

/-- Counter `c`'s error bit set. -/
def WinUnit.setErr (u : WinUnit) (c : Nat) : WinUnit := { u with cc := u.cc.upd {} c (fun x => { x with err := true }) }

/-- CCNT_SET (R80). -/
def WinUnit.ccntSet (u : WinUnit) (c v : Nat) : WinUnit := { u with cc := u.cc.put {} c { val := BitVec.ofNat 48 v } }

/-- Window `i`. -/
def WinUnit.window (u : WinUnit) (i : Nat) : Window := u.win.get {} i

/-- Window `i` changed. -/
def WinUnit.updWin (u : WinUnit) (i : Nat) (f : Window → Window) : WinUnit := { u with win := u.win.upd {} i f }

/-- Accepted segments of window `i`, generation `g`, not yet written or served (R226). -/
def WinUnit.inFlight (u : WinUnit) (i : Nat) (g : Byte) : Nat :=
  (u.acc.filter (fun a => a.win == i && a.gen == g)).length

/-- The parameters of an OPEN are good apart from its source (R65, R66): range, counter, source kind. `top64` is the
memory's size in units of 64 B, `ncnt` the number of counters. -/
def WopenReq.rangeOk (r : WopenReq) (top64 ncnt : Nat) : Bool :=
  decide (r.base64 < r.limit64) && decide (r.limit64 ≤ top64)
    && (decide (r.cnt.toNat < ncnt) || decide (r.cnt = 0xFF)) && decide (r.skind ≠ 3)

/-- The OPEN itself (R65), at `now` when the die's time base reads `tb`: the next generation, the rejection count cleared. -/
def WinUnit.open_ (u : WinUnit) (r : WopenReq) (now tb : Nat) : WinUnit :=
  u.updWin r.idx (fun w => { w with
    gen := nextGen w.gen, st := .open, rights := r.rights, skind := r.skind, srcval := r.srcval, cmode := r.cmode,
    cnt := r.cnt, base64 := BitVec.ofNat 32 r.base64, limit64 := BitVec.ofNat 32 r.limit64, rej := 0,
    opened := true, openT := now, openTb := BitVec.ofNat 32 tb })

/-- When an OPEN of index `i` may be made (R65): 4 µs after the previous one. -/
def WinUnit.openDue (u : WinUnit) (i : Nat) : Nat := if (u.window i).opened then (u.window i).openT + 4000 else 0

/-- The window of a close that its counter or a timeout decides: it closes with `status` (R72). -/
def WinUnit.shut (u : WinUnit) (i : Nat) (status : BitVec 8) : WinUnit :=
  u.updWin i (fun w => { w with
    st := .closed
    pend := w.pend.map (fun p => if p.quiesce && p.gen == w.gen then { p with quiesce := false, status := status } else p) })

/-- CLOSE_NOW on an OPEN or QUIESCING window (R70, R72). -/
def WinUnit.closeNow (u : WinUnit) (i : Nat) (dcnt : Option Nat) (dest : ResDest) : WinUnit :=
  { (u.shut i stOk).updWin i (fun w => { w with pend := w.pend ++ [⟨w.gen, false, stOk, dcnt, dest, u.closes⟩] }) with closes := u.closes + 1 }

/-- CLOSE_QUIESCE on an OPEN window with a counter (R72). -/
def WinUnit.quiesce (u : WinUnit) (i q deadline : Nat) (dcnt : Option Nat) (dest : ResDest) : WinUnit :=
  { u.updWin i (fun w => { w with
      st := .quiescing, qthr := BitVec.ofNat 48 q, qdead := deadline,
      pend := w.pend ++ [⟨w.gen, true, stOk, dcnt, dest, u.closes⟩] }) with closes := u.closes + 1 }

/-- A QUIESCING window whose bound counter has reached its threshold (R72). -/
def WinUnit.reached (u : WinUnit) : Option Nat :=
  (u.win.find? (fun kv => kv.2.st == .quiescing && decide (kv.2.qthr.toNat ≤ (u.ccnt kv.2.cnt.toNat).val.toNat))).map (·.1)

/-- A committed close of which no accepted segment remains (R70), and its place in the window's list. -/
def WinUnit.closable (u : WinUnit) : Option (Nat × ClosePend) :=
  u.win.findSome? (fun kv => (kv.2.pend.find? (fun p => !p.quiesce && decide (u.inFlight kv.1 p.gen = 0))).map (fun p => (kv.1, p)))

/-- Every close that can end ends, oldest window first: threshold closes, then completions with their done counters (R70,
R72, R204). Answers what ended, with the window's index. -/
def WinUnit.settle (u : WinUnit) : Nat → WinUnit × List (Nat × ClosePend)
  | 0 => (u, [])
  | n + 1 =>
    match u.reached with
    | some i => WinUnit.settle (u.shut i stOk) n
    | none =>
      match u.closable with
      | none => (u, [])
      | some (i, p) =>
        let u1 := u.updWin i (fun w => { w with pend := w.pend.erase p })
        let u2 := match p.dcnt with | some c => u1.bump c 1 | none => u1
        let r := WinUnit.settle u2 n
        (r.1, (i, p) :: r.2)

/-- A close that ended, placed among others by the order of their commands. -/
def putClose (c : Nat × ClosePend) : List (Nat × ClosePend) → List (Nat × ClosePend)
  | [] => [c]
  | d :: r => if c.2.ord ≤ d.2.ord then c :: d :: r else d :: putClose c r

/-- Closes that ended together, the earliest command first (R213). -/
def byOrder (l : List (Nat × ClosePend)) : List (Nat × ClosePend) := l.foldr putClose []

/-- Enough rounds for every close of the unit to end. -/
def WinUnit.rounds (u : WinUnit) : Nat := u.win.foldl (fun a kv => a + 1 + kv.2.pend.length) 0

/-- The events that close every window and advance every generation (R74, R214): `n` indices. A close still pending is
dropped with its result (assumption log 20). -/
def closeAll (t : Table Window) (n : Nat) : Table Window :=
  (List.range n).foldl (fun t i => t.upd {} i (fun w => { w with gen := nextGen w.gen, st := .closed, pend := [] })) t

/-- A table whose memory is gone: every index CLOSED, its generation kept (R74). -/
def gensOf (t : Table Window) : Table Window := Table.mapListed {} t (fun _ w => { gen := w.gen })

/-- The window tables alone of a unit whose memory is zeroed. -/
def WinUnit.tables (u : WinUnit) : WinUnit := { win := u.win, rwin := u.rwin }

/-- The window tables of a unit that has lost its power: every ordinary window CLOSED (R74). -/
def WinUnit.lost (u : WinUnit) : WinUnit := { win := gensOf u.win, rwin := u.rwin }

/-- The 4-byte result word (R204). -/
def resultWord (w : Window) (i : Nat) (status : BitVec 8) : Nat :=
  (w.tag i).toNat + w.st.code * 65536 + status.toNat * 16777216

/-- Bytes a segment covers at its target. -/
def segSize (g : Segment) : Nat := match g.op with | .put => g.data.length | _ => g.len

/-- The right an operation needs (R47): bit 0 read, 1 write, 2 atomic. -/
def opRight : SegOp → Nat
  | .put => 1 | .get => 0 | _ => 2

/-- The operation is an atomic. -/
def opAtomic : SegOp → Bool
  | .put | .get => false | _ => true

/-- Response codes (R67). -/
def rcOk : BitVec 4 := 0
def rcAddrFault : BitVec 4 := 1
def rcTagFault : BitVec 4 := 2
def rcWinStale : BitVec 4 := 3
def rcWinClosed : BitVec 4 := 4
def rcNotPermitted : BitVec 4 := 5
def rcNoRight : BitVec 4 := 6
def rcOutOfBounds : BitVec 4 := 7
def rcAlign : BitVec 4 := 8
def rcBankOff : BitVec 4 := 9
def rcPoisoned : BitVec 4 := 10
def rcPartFault : BitVec 4 := 11
def rcTimeout : BitVec 4 := 12
def rcAtomicUncertain : BitVec 4 := 13
def rcTargetDown : BitVec 4 := 14

/-- The checks of R67 against one table, in their order: `n` its indices, `reg` a register window table, `side` check 4,
`bankOff` check 8. -/
def checkSeg (win : Table Window) (n : Nat) (reg : Bool) (side : Window → Bool) (bankOff : Bool) (g : Segment) : Option (BitVec 4) :=
  let i := fld g.tag 15 8
  let w := win.get {} i
  if n ≤ i then some rcTagFault
  else if fld g.tag 7 0 ≠ w.gen.toNat ∨ fld g.tag 7 0 = 0 then some rcWinStale
  else if w.st = .closed then some rcWinClosed
  else if !side w then some rcNotPermitted
  else if !bit w.rights (opRight g.op) then some rcNoRight
  else if g.off < 64 * w.base64.toNat ∨ 64 * w.limit64.toNat < g.off + segSize g then some rcOutOfBounds
  else if opAtomic g.op && decide (g.off % segSize g ≠ 0) then some rcAlign
  else if reg && (decide (g.off % 4 ≠ 0) || decide (segSize g % 4 ≠ 0)) then some rcAlign
  else if bankOff then some rcBankOff
  else none

/-- What the bound counter adds for an applied segment (R76). -/
def countOf (cmode : BitVec 2) (g : Segment) : Nat :=
  match cmode.toNat, g.op with
  | 1, .get => 0
  | 1, _ => segSize g
  | 2, .get => 0
  | 2, _ => 1
  | 3, .get => 1
  | _, _ => 0

/-- A new value of an atomic (R47, R48): size 4 or 8 bytes, modulo its width. -/
def atomicNew (op : SegOp) (size old opnd swap : Nat) : Nat :=
  let m := 2 ^ (8 * size)
  match op with
  | .fadd => (old + opnd) % m
  | .cswap => if old = opnd % m then swap % m else old
  | .for_ => old ||| (opnd % m)
  | _ => old

end Sys2Proof.Machine
end

