-- ==== Sys2Proof/Machine/PgaOps.lean ====
section
/-! DEFINITION. Addresses and cells: the panel global address, striping, segmentation, source membership, the numbers of
partitions (R42, R49, R55–R57, R63, R64, R83, R84, R294). -/

namespace Sys2Proof.Machine

/-- The level of a cell ID (R42). -/
def cellLevel (c : W16) : Nat := fld c 15 13
/-- The index of a cell ID (R42). -/
def cellIndex (c : W16) : Nat := fld c 12 0
/-- The cell ID of tile `t`. -/
def tileCell (t : Nat) : W16 := BitVec.ofNat 16 t
/-- The cell ID of the die-cell at destination index `n` (R42, R294): compute dies, stack nodes, hub, port dies. -/
def nodeCell (n : Nat) : W16 := if n < 264 then BitVec.ofNat 16 (0x2000 + n) else BitVec.ofNat 16 (0x3F00 + (n - 264))

/-- The sector of a compute die or stack node by destination index. -/
def nodeSector (n : Nat) : Nat := if n < 240 then n / 10 else n - 240
/-- The die of a tile. -/
def tileDie (t : Nat) : Nat := t / 16
/-- The destination index of stack `k`'s node. -/
def stackNode (k : Nat) : Nat := 240 + k
/-- The destination index of the hub (R294). -/
def hubNode : Nat := 264
/-- The destination index of port die `p` in R55's order N, E, S, W (R294). -/
def portNode (p : Nat) : Nat := 265 + p

/-- Where an address lands (R55). -/
def tgtNode : Tgt → Nat
  | .tile t => t / 16
  | .tileReg t => t / 16
  | .stack k => 240 + k
  | .dieReg d => d
  | .hub => 264
  | .port p => 265 + p

/-- What an address decodes to: an offset at one target, or an offset of space 2, which is translated over the stacks of
the issuer's partition (R57). -/
inductive Dest where
  | direct (t : Tgt) (off : Nat)
  | striped (off : Nat)
  deriving DecidableEq, Repr

/-- The decode of R56 for `len` bytes; none is ADDR_FAULT. `nst` counts the stacks of the issuer's partition. -/
def decodePga (a : Pga) (len nst : Nat) : Option Dest :=
  match fld a 55 53 with
  | 0 => if fld a 52 45 < 240 ∧ fld a 40 24 = 0 ∧ fld a 23 0 + len ≤ 2 ^ 24
      then some (.direct (.tile (16 * fld a 52 45 + fld a 44 41)) (fld a 23 0)) else none
  | 1 => if fld a 52 48 < 24 ∧ fld a 47 37 = 0 ∧ fld a 36 0 + len ≤ 2 ^ 37
      then some (.direct (.stack (fld a 52 48)) (fld a 36 0)) else none
  | 2 => if fld a 52 42 = 0 ∧ fld a 41 0 + len ≤ nst * 2 ^ 37 ∧ 0 < nst then some (.striped (fld a 41 0)) else none
  | 3 => if fld a 52 45 < 240 ∧ fld a 40 16 = 0 ∧ fld a 15 0 + len ≤ 2 ^ 16
      then some (.direct (.tileReg (16 * fld a 52 45 + fld a 44 41)) (fld a 15 0)) else none
  | 4 => if fld a 52 44 < 264 ∧ fld a 43 24 = 0 ∧ fld a 23 0 + len ≤ 2 ^ 24
      then some (.direct (.dieReg (fld a 52 44)) (fld a 23 0)) else none
  | 5 => if fld a 52 24 = 0 ∧ fld a 23 0 + len ≤ 2 ^ 24 then some (.direct .hub (fld a 23 0)) else none
  | 6 => if fld a 50 24 = 0 ∧ fld a 23 0 + len ≤ 2 ^ 24 then some (.direct (.port (fld a 52 51)) (fld a 23 0)) else none
  | _ => none

/-- The PGA that names an offset of a target (R55); space 1 for stacks. -/
def pgaOf (t : Tgt) (off : Nat) : Pga :=
  match t with
  | .tile t => BitVec.ofNat 56 (t / 16 * 2 ^ 45 + t % 16 * 2 ^ 41 + off % 2 ^ 24)
  | .stack k => BitVec.ofNat 56 (1 * 2 ^ 53 + k * 2 ^ 48 + off % 2 ^ 37)
  | .tileReg t => BitVec.ofNat 56 (3 * 2 ^ 53 + t / 16 * 2 ^ 45 + t % 16 * 2 ^ 41 + off % 2 ^ 16)
  | .dieReg d => BitVec.ofNat 56 (4 * 2 ^ 53 + d * 2 ^ 44 + off % 2 ^ 24)
  | .hub => BitVec.ofNat 56 (5 * 2 ^ 53 + off % 2 ^ 24)
  | .port p => BitVec.ofNat 56 (6 * 2 ^ 53 + p * 2 ^ 51 + off % 2 ^ 24)

/-- Set bits of a mask below `n`, ascending. -/
def bitsOf {w : Nat} (m : BitVec w) (n : Nat) : List Nat := (List.range n).filter (fun i => bit m i)

/-- The stacks of partition `p`, ascending (R57). -/
def State.partStacks (s : State) (p : Nat) : List Nat := bitsOf (s.parts.get {} p).snodes 24

/-- The space-1 address of a striped offset (R57). -/
def stripe (snodes : List Nat) (a : Nat) : Nat × Nat :=
  let g := a / 4096
  (snodes.getD (g % snodes.length) 0, g / snodes.length * 4096 + a % 4096)

/-- Flits of a packet with a payload of `l` bytes (R286). -/
def flitsOf (l : Nat) : Nat := (32 + l + 63) / 64

/-- The outputs of a slot-table entry, given the trees: one port and channel, or those of its tree (R291, R292). Local ports are 4. -/
def slotOutputs (tree : Nat → BitVec 22) (e : BitVec 80) : List (Nat × Nat) :=
  if fld e 51 49 = 7 then
    let t := tree (fld e 65 58)
    if !bit t 21 then []
    else ((List.range 4).filter (fun p => bit t p)).map (fun p => (p, fld e 57 52))
      ++ ((List.range 17).filter (fun i => bit t (4 + i))).map (fun i => (4, 2 * i + fld e 57 52 % 2))
  else [(fld e 51 49, fld e 57 52)]

/-- The segments of an operation (R49): target, offset, position in the operation, length. `fuel` bounds their number. -/
def segments (at_ : Nat → Tgt × Nat) (a pos len : Nat) : Nat → List (Tgt × Nat × Nat × Nat)
  | 0 => []
  | n + 1 =>
    if len ≤ pos then []
    else
      let k := min (256 - (a + pos) % 256) (len - pos)
      ((at_ (a + pos)).1, (at_ (a + pos)).2, pos, k) :: segments at_ a (pos + k) len n

/-- The segments of an operation at a decoded address. -/
def Dest.segments (d : Dest) (snodes : List Nat) (len : Nat) : List (Tgt × Nat × Nat × Nat) :=
  match d with
  | .direct t off => Machine.segments (fun a => (t, a)) off 0 len (len / 256 + 2)
  | .striped off => Machine.segments (fun a => (Tgt.stack (stripe snodes a).1, (stripe snodes a).2)) off 0 len (len / 256 + 2)

/-- Whether a die-cell's own target lies in partition `p` (R83): its sector's dies, tiles and stacks. The hub and the port dies lie in
none. -/
def State.inPart (s : State) (p : Nat) (t : Tgt) : Bool :=
  match t with
  | .tile t => bit (s.parts.get {} p).secs (t / 160)
  | .tileReg t => bit (s.parts.get {} p).secs (t / 160)
  | .stack k => bit (s.parts.get {} p).secs k
  | .dieReg d => bit (s.parts.get {} p).secs (nodeSector d)
  | .hub | .port _ => false

/-- The bit of a source cell in a composite membership table (R64). -/
def compBit (c : W16) : Option Nat :=
  if cellLevel c = 0 then some (cellIndex c)
  else if cellLevel c = 1 ∧ 240 ≤ cellIndex c ∧ cellIndex c < 264 then some (3840 + (cellIndex c - 240))
  else none

/-- The sector a source cell lies in: tiles, dies, stack nodes. -/
def cellSector (c : W16) : Option Nat :=
  if cellLevel c = 0 then (if cellIndex c < 3840 then some (cellIndex c / 160) else none)
  else if cellLevel c = 1 then (if cellIndex c < 264 then some (nodeSector (cellIndex c)) else none)
  else if cellLevel c = 2 then (if cellIndex c < 24 then some (cellIndex c) else none)
  else none

/-- The bitmap of a cell that is not composite, over the partition's sectors (R44, R64); none where the cell is not of partition `p`. -/
def State.cellMask (s : State) (p : Nat) (c : W16) : Option (BitVec 4096) :=
  let secs := (s.parts.get {} p).secs
  let i := cellIndex c
  let sec := fun (k : Nat) => ((BitVec.ofNat 4096 (2 ^ 160 - 1)) <<< (160 * k)) ||| ((1 : BitVec 4096) <<< (3840 + k))
  match cellLevel c with
  | 0 => if i < 3840 ∧ bit secs (i / 160) then some ((1 : BitVec 4096) <<< i) else none
  | 1 => if i < 264 ∧ bit secs (nodeSector i) then
      some (if i < 240 then (0xFFFF : BitVec 4096) <<< (16 * i) else (1 : BitVec 4096) <<< (3600 + i)) else none
  | 2 => if i < 24 ∧ bit secs i then some (sec i) else none
  | 3 => if i = p then some ((bitsOf secs 24).foldl (fun m k => m ||| sec k) 0) else none
  | _ => none

/-- Composite `c` of partition `p` expanded from its members `m`, keyed 4,096 × composite + member (R44, R64); `fuel` is the depth that
remains, so a composite that contains itself, or nests deeper than 8, answers none. -/
def State.compMask (s : State) (p : Nat) (m : Table W32) : Nat → Nat → Option (BitVec 4096)
  | 0, _ => none
  | fuel + 1, c => (m.filter (fun kv => decide (kv.1 / 4096 = c) && bit kv.2 16)).foldl (fun a kv =>
      let v : W16 := BitVec.ofNat 16 (fld kv.2 15 0)
      match a, (if cellLevel v = 4 then (if cellIndex v < 256 then State.compMask s p m fuel (cellIndex v) else none) else s.cellMask p v) with
      | some x, some y => some (x ||| y)
      | _, _ => none) (some 0)

/-- A source cell is, or lies inside, cell `v` as partition `p` reads it (R63, R64). -/
def State.cellInside (s : State) (p : Nat) (v c : W16) : Bool :=
  if v = c then true
  else match cellLevel v with
    | 1 => cellLevel c = 0 && cellIndex c / 16 == cellIndex v && decide (cellIndex v < 240)
    | 2 => cellSector c == some (cellIndex v)
    | 3 => match cellSector c with
      | some sec => bit (s.parts.get {} (cellIndex v)).secs sec
      | none => false
    | 4 => match compBit c with
      | some b => bit ((s.parts.get {} p).comp.get 0 (cellIndex v)) b
      | none => false
    | _ => false

/-- A window's permitted source admits a source (R63, R423). `p` is the target's partition. -/
def State.admits (s : State) (p : Nat) (w : Window) (src : Src) : Bool :=
  match w.skind.toNat, src with
  | 0, .cell c => s.cellInside p w.srcval c
  | 1, .host h => h == p
  | 2, .key h => h == p
  | _, _ => false

/-- An opener of partition `p` may name this source (R63): a cell of its own partition, or kinds 1 and 2. Kind 1 takes the value 0 alone, kind 2
a value below 4,096, and a composite any number below 256, defined or not (DESIGN CHOICE, assumption log 100: the spec is silent). -/
def State.sourceOk (s : State) (p : Nat) (skind : BitVec 2) (v : W16) : Bool :=
  match skind.toNat with
  | 0 =>
    match cellLevel v with
    | 0 | 1 | 2 => (match cellSector v with | some sec => bit (s.parts.get {} p).secs sec | none => false)
    | 3 => cellIndex v == p
    | 4 => decide (cellIndex v < 256)
    | _ => false
  | 1 => decide (v = 0)
  | 2 => decide (v.toNat < 4096)
  | _ => false

end Sys2Proof.Machine
end

