-- ==== Sys2Proof/Machine/Formats.lean ====
section
/-! DEFINITION. Number formats, exact values, rounding and conversion (R90–R117). -/

namespace Sys2Proof.Machine

/-- The eight sticky flags of R116, in its bit order. -/
abbrev Flags := BitVec 8
def Flags.none : Flags := 0
def Flags.invalid : Flags := 1
def Flags.divZero : Flags := 2
def Flags.overflow : Flags := 4
def Flags.underflow : Flags := 8
def Flags.inexact : Flags := 16
def Flags.nanMade : Flags := 32
def Flags.saturated : Flags := 64
def Flags.invalidT2 : Flags := 128

/-- An exact value: NaN, an infinity, or ± m × 2^e with signed zero. -/
inductive Num where
  | nan
  | inf (neg : Bool)
  | fin (neg : Bool) (m : Nat) (e : Int)
  deriving DecidableEq, Repr

/-- The parameters of a floating-point format (R91). Codes are taken without the sign bit. -/
structure FpFmt where
  eb : Nat
  mb : Nat
  bias : Int
  maxCode : Nat
  inf : Option Nat
  nan : Option Nat
  deriving DecidableEq, Repr

def FpFmt.fp32 : FpFmt := ⟨8, 23, 127, 0x7F7FFFFF, some 0x7F800000, some 0x7FC00000⟩
def FpFmt.bf16 : FpFmt := ⟨8, 7, 127, 0x7F7F, some 0x7F80, some 0x7FC0⟩
def FpFmt.fp16 : FpFmt := ⟨5, 10, 15, 0x7BFF, some 0x7C00, some 0x7E00⟩
def FpFmt.e4m3 : FpFmt := ⟨4, 3, 7, 0x7E, none, some 0x7F⟩
def FpFmt.e5m2 : FpFmt := ⟨5, 2, 15, 0x7B, some 0x7C, some 0x7E⟩
def FpFmt.e3m2 : FpFmt := ⟨3, 2, 3, 0x1F, none, none⟩
def FpFmt.e2m3 : FpFmt := ⟨2, 3, 1, 0x1F, none, none⟩
def FpFmt.e2m1 : FpFmt := ⟨2, 1, 1, 0x7, none, none⟩

/-- The format codes of R90. -/
inductive Fmt where
  | fp32 | bf16 | fp16 | e4m3 | e5m2 | mxE4m3 | mxE5m2 | mxE3m2 | mxE2m3 | mxfp4 | mxint8 | int8 | int32 | t2
  deriving DecidableEq, Repr

/-- The format a 4-bit code names; a reserved code names none (R90). -/
def Fmt.ofCode : Nat → Option Fmt
  | 0 => some .fp32 | 1 => some .bf16 | 2 => some .fp16 | 3 => some .e4m3 | 4 => some .e5m2
  | 5 => some .mxE4m3 | 6 => some .mxE5m2 | 7 => some .mxE3m2 | 8 => some .mxE2m3 | 9 => some .mxfp4
  | 10 => some .mxint8 | 11 => some .int8 | 12 => some .int32 | 13 => some .t2 | _ => none

/-- Element bits (R90). -/
def Fmt.bits : Fmt → Nat
  | .fp32 | .int32 => 32 | .bf16 | .fp16 => 16
  | .e4m3 | .e5m2 | .mxE4m3 | .mxE5m2 | .mxint8 | .int8 => 8
  | .mxE3m2 | .mxE2m3 => 6 | .mxfp4 => 4 | .t2 => 2

/-- The format has an E8M0 scale per block of 32 (R90). -/
def Fmt.scaled : Fmt → Bool
  | .mxE4m3 | .mxE5m2 | .mxE3m2 | .mxE2m3 | .mxfp4 | .mxint8 | .t2 => true
  | _ => false

/-- The floating-point layout of a format's elements, where it has one. -/
def Fmt.fp : Fmt → Option FpFmt
  | .fp32 => some .fp32 | .bf16 => some .bf16 | .fp16 => some .fp16
  | .e4m3 | .mxE4m3 => some .e4m3 | .e5m2 | .mxE5m2 => some .e5m2
  | .mxE3m2 => some .e3m2 | .mxE2m3 => some .e2m3 | .mxfp4 => some .e2m1
  | _ => none

/-- emax of R111. -/
def Fmt.emax : Fmt → Int
  | .mxE4m3 => 8 | .mxE5m2 => 15 | .mxE3m2 => 4 | .mxE2m3 => 2 | .mxfp4 => 2 | _ => 0

/-- The exact value of an element code of a floating-point format (R91, R92). -/
def FpFmt.decode (f : FpFmt) (code : Nat) : Num :=
  let neg := code.testBit (f.eb + f.mb)
  let c := code % 2 ^ (f.eb + f.mb)
  let ex := c / 2 ^ f.mb
  let mant := c % 2 ^ f.mb
  if ex = 2 ^ f.eb - 1 ∧ f.inf.isSome then (if mant = 0 then .inf neg else .nan)
  else if f.inf = none ∧ f.nan = some c then .nan
  else if ex = 0 then .fin neg mant (1 - f.bias - f.mb)
  else .fin neg (2 ^ f.mb + mant) (ex - f.bias - f.mb)

/-- How a conversion rounds: to nearest with ties to even, or stochastically with 32 random bits (R107, R114). -/
inductive Rnd where
  | rne
  | sr (r : Nat)
  deriving DecidableEq, Repr

/-- Whether to take the upper neighbour: `n` is the lower multiple, `rem / 2^s` the fraction above it. -/
def Rnd.up (rnd : Rnd) (n rem s : Nat) : Bool :=
  match rnd with
  | .rne => if 2 * rem = 2 ^ s then n % 2 == 1 else decide (2 ^ s < 2 * rem)
  | .sr r => decide (r < rem * 2 ^ 32 / 2 ^ s)

/-- m × 2^e as a multiple of 2^q, rounded; and whether rounding changed the value. -/
def roundAt (rnd : Rnd) (m : Nat) (e q : Int) : Nat × Bool :=
  if q ≤ e then (m * 2 ^ (e - q).toNat, false)
  else
    let s := (q - e).toNat
    let n := m / 2 ^ s
    let rem := m % 2 ^ s
    (if rnd.up n rem s then n + 1 else n, decide (rem ≠ 0))

/-- The code of m × 2^e (m > 0) rounded once as though the exponent range were unbounded above (R108, R114). -/
def FpFmt.roundCode (f : FpFmt) (rnd : Rnd) (m : Nat) (e : Int) : Nat × Bool :=
  let q := max (Int.ofNat m.log2 + e - f.mb) (1 - f.bias - f.mb)
  let r := roundAt rnd m e q
  ((q + f.mb + f.bias - 1).toNat * 2 ^ f.mb + r.1, r.2)

/-- A sign bit above a code. -/
def FpFmt.signed (f : FpFmt) (neg : Bool) (c : Nat) : Nat := b2n neg * 2 ^ (f.eb + f.mb) + c

/-- Flags of a rounded nonzero finite result: UNDERFLOW for a subnormal or zero result, INEXACT (R104, R111). -/
def FpFmt.inexactFlags (f : FpFmt) (code : Nat) (inx : Bool) : Flags :=
  if inx then (if code < 2 ^ f.mb then Flags.underflow ||| Flags.inexact else Flags.inexact) else 0

/-- Conversion to FP32, BF16, FP16, E5M2 or E4M3 (R107–R109). -/
def FpFmt.ofNum (f : FpFmt) (rnd : Rnd) (sat : Bool) : Num → Nat × Flags
  | .nan => (f.nan.getD 0, Flags.nanMade)
  | .inf neg =>
    match f.inf with
    | some c => (f.signed neg c, 0)
    | none =>
      if sat then (f.signed neg f.maxCode, Flags.saturated)
      else (f.nan.getD 0, Flags.invalid ||| Flags.nanMade)
  | .fin neg m e =>
    if m = 0 then (f.signed neg 0, 0)
    else
      let r := f.roundCode rnd m e
      if f.maxCode < r.1 then
        if sat then (f.signed neg f.maxCode, Flags.overflow ||| Flags.saturated ||| Flags.inexact)
        else
          match f.inf with
          | some c => (f.signed neg c, Flags.overflow ||| Flags.inexact)
          | none => (f.nan.getD 0, Flags.overflow ||| Flags.nanMade)
      else (f.signed neg r.1, f.inexactFlags r.1 r.2)

/-- Conversion to a two's-complement integer of `w` bits (R108–R110). -/
def intOfNum (w : Nat) (rnd : Rnd) : Num → Int × Flags
  | .nan => (0, Flags.invalid)
  | .inf neg => (if neg then -(2 ^ (w - 1)) else 2 ^ (w - 1) - 1, Flags.invalid ||| Flags.saturated)
  | .fin neg m e =>
    let r := roundAt rnd m e 0
    let v : Int := if neg then -(Int.ofNat r.1) else Int.ofNat r.1
    if v < -(2 ^ (w - 1)) then (-(2 ^ (w - 1)), Flags.saturated ||| Flags.inexact)
    else if 2 ^ (w - 1) - 1 < v then (2 ^ (w - 1) - 1, Flags.saturated ||| Flags.inexact)
    else (v, if r.2 then Flags.inexact else 0)

/-- The exact value of an integer. -/
def Num.ofInt (v : Int) : Num := .fin (decide (v < 0)) v.natAbs 0

/-- A value times 2^k. -/
def Num.scale (k : Int) : Num → Num
  | .fin neg m e => .fin neg m (e + k)
  | x => x

/-- The exponent of an E8M0 scale byte; 0xFF is NaN (R95). -/
def scaleExp (b : Byte) : Option Int := if b = 0xFF then none else some (Int.ofNat b.toNat - 127)

/-- The value of T2 code `c` (R96). -/
def t2Value (c : Nat) : Int := if c = 1 then 1 else if c = 3 then -1 else 0

/-- The exact value of an element of a format under the scale exponent `E` (none: the scale byte is NaN); a format
without a scale takes E = some 0 (R91–R96, R101). -/
def Fmt.decode (f : Fmt) (E : Option Int) (code : Nat) : Num :=
  match E with
  | none => .nan
  | some k =>
    match f with
    | .int8 => Num.ofInt (signedOf 8 code)
    | .int32 => Num.ofInt (signedOf 32 code)
    | .mxint8 => (Num.ofInt (signedOf 8 code)).scale (k - 6)
    | .t2 => (Num.ofInt (t2Value code)).scale k
    | _ => match f.fp with
      | some p => (p.decode code).scale k
      | none => .nan

/-- An element of an MX floating-point format (R108, R111). -/
def FpFmt.ofNumMx (f : FpFmt) (rnd : Rnd) (neg : Bool) (m : Nat) (e : Int) : Nat × Flags :=
  if m = 0 then (f.signed neg 0, 0)
  else
    let r := f.roundCode rnd m e
    if f.maxCode < r.1 then (f.signed neg f.maxCode, Flags.overflow ||| Flags.saturated ||| Flags.inexact)
    else (f.signed neg r.1, f.inexactFlags r.1 r.2)

/-- An MXINT8 or T2 element: a scaled integer clamped to ± `bound` (R111). -/
def intElem (bound : Nat) (rnd : Rnd) (neg : Bool) (m : Nat) (e : Int) : Int × Flags :=
  let r := roundAt rnd m e 0
  if bound < r.1 then (if neg then -(Int.ofNat bound) else Int.ofNat bound,
    Flags.overflow ||| Flags.saturated ||| Flags.inexact)
  else (if neg then -(Int.ofNat r.1) else Int.ofNat r.1, if r.2 then Flags.inexact else 0)

/-- An element of an MX format or T2 from ± m × 2^e, already divided by the block scale (R111). -/
def Fmt.mxElem (f : Fmt) (rnd : Rnd) (neg : Bool) (m : Nat) (e : Int) : Nat × Flags :=
  match f with
  | .mxint8 => let r := intElem 127 rnd neg m (e + 6); (intMod 8 r.1, r.2)
  | .t2 => let r := intElem 1 rnd neg m e; (intMod 2 r.1, r.2)
  | _ => match f.fp with
    | some p => p.ofNumMx rnd neg m e
    | none => (0, 0)

/-- A value is NaN or infinite. -/
def Num.special : Num → Bool
  | .fin _ _ _ => false
  | _ => true

/-- floor(log2 |v|) of a nonzero finite value. -/
def Num.expo : Num → Option Int
  | .fin _ m e => if m = 0 then none else some (Int.ofNat m.log2 + e)
  | _ => none

/-- The larger of two optional exponents. -/
def maxExp : Option Int → Option Int → Option Int
  | none, b => b
  | a, none => a
  | some a, some b => some (max a b)

/-- The outcome of one block conversion: the scale byte, each element's code, each element's own flags, and the flags
that concern the whole block. -/
structure BlockOut where
  scale : Byte
  codes : List Nat
  flags : List Flags
  blockFlags : Flags
  deriving DecidableEq, Repr

/-- One block of an MX or T2 conversion over its present elements (R111). -/
def Fmt.block (f : Fmt) (xs : List (Num × Rnd)) : BlockOut :=
  if xs.any (fun x => x.1.special) then
    ⟨0xFF, xs.map (fun _ => 0), xs.map (fun _ => 0), Flags.invalid ||| Flags.nanMade⟩
  else
    match xs.foldl (fun a x => maxExp a x.1.expo) none with
    | none =>
      let rs := xs.map (fun x => match x.1 with | .fin neg _ _ => f.mxElem x.2 neg 0 0 | _ => (0, 0))
      ⟨0, rs.map (·.1), rs.map (·.2), 0⟩
    | some X =>
      let E := max (-127) (min 127 (X - f.emax))
      let rs := xs.map (fun x => match x.1 with | .fin neg m e => f.mxElem x.2 neg m (e - E) | _ => (0, 0))
      ⟨BitVec.ofNat 8 (E + 127).toNat, rs.map (·.1), rs.map (·.2), 0⟩

/-- A conversion to a format without a block scale; `shift` is the right shift of INT32 to INT8 and `isInt` says that
the source is an INT32 value (R107–R110). The exact source value of a shifted one is the value after the shift, so a shift that is exact
raises no INEXACT (DESIGN CHOICE, assumption log 100). -/
def Fmt.convert (f : Fmt) (rnd : Rnd) (sat isInt : Bool) (shift : Nat) (x : Num) : Nat × Flags :=
  match f with
  | .int8 =>
    let r := if isInt then intOfNum 8 rnd (x.scale (-(Int.ofNat shift))) else intOfNum 8 rnd x
    (intMod 8 r.1, r.2)
  | .int32 => let r := intOfNum 32 rnd x; (intMod 32 r.1, r.2)
  | _ => match f.fp with
    | some p => p.ofNum rnd sat x
    | none => (0, 0)

/-- mix of R113. -/
def srMix (z : BitVec 64) : BitVec 64 :=
  let z1 := (z ^^^ (z >>> 30)) * 0xBF58476D1CE4E5B9#64
  let z2 := (z1 ^^^ (z1 >>> 27)) * 0x94D049BB133111EB#64
  z2 ^^^ (z2 >>> 31)

/-- The 32 random bits of seed, relative tile, step and element index (R113). -/
def srBits (seed : BitVec 64) (t s e : Nat) : Nat :=
  let h := srMix (seed ^^^ BitVec.ofNat 64 (t * 2 ^ 32 + s))
  let h2 := srMix (h ^^^ (BitVec.ofNat 64 e * 0x9E3779B97F4A7C15#64))
  (h2 >>> 32).toNat

/-- Element `k` of a packed string of `b`-bit elements held in bytes (R98). -/
def packedGet (b : Nat) (bytes : Nat → Byte) (k : Nat) : Nat :=
  let p := b * k
  let lo := p / 8
  ((bytes lo).toNat + 256 * (bytes (lo + 1)).toNat + 65536 * (bytes (lo + 2)).toNat + 16777216 * (bytes (lo + 3)).toNat)
    / 2 ^ (p % 8) % 2 ^ b

end Sys2Proof.Machine
end

