-- ==== Sys2Proof/Machine/FpArith.lean ====
section
/-! DEFINITION. Exact sums and products, one rounding each: the arithmetic of the matrix array and the vector engine
(R103–R106, R115). -/

namespace Sys2Proof.Machine

/-- The signed mantissa of a finite value. -/
def sgnMant (neg : Bool) (m : Nat) : Int := if neg then -(Int.ofNat m) else Int.ofNat m

/-- The exact sum of two numbers m × 2^e. -/
def dyAdd (a b : Int × Int) : Int × Int :=
  let q := min a.2 b.2
  (a.1 * 2 ^ (a.2 - q).toNat + b.1 * 2 ^ (b.2 - q).toNat, q)

/-- A product: NaN from a NaN operand, or from 0 × ∞, or exact. -/
inductive Prod3 where
  | nanIn
  | zeroInf
  | val (x : Num)
  deriving DecidableEq, Repr

/-- The exact product of two values (R97, R103, R104). -/
def numMul : Num → Num → Prod3
  | .nan, _ => .nanIn
  | _, .nan => .nanIn
  | .inf a, .inf b => .val (.inf (a != b))
  | .inf a, .fin b m _ => if m = 0 then .zeroInf else .val (.inf (a != b))
  | .fin a m _, .inf b => if m = 0 then .zeroInf else .val (.inf (a != b))
  | .fin a m e, .fin b n k => .val (.fin (a != b) (m * n) (e + k))

/-- The product of an activation and a T2 weight code: exactly +0, a or −a (R97). -/
def t2Mul (a : Num) (code : Nat) (E : Option Int) : Prod3 :=
  match E, a with
  | none, _ => .nanIn
  | _, .nan => .nanIn
  | some _, .inf n => if code = 1 then .val (.inf n) else if code = 3 then .val (.inf (!n)) else .zeroInf
  | some k, .fin n m e =>
    if code = 1 then .val (.fin n m (e + k)) else if code = 3 then .val (.fin (!n) m (e + k)) else .val (.fin false 0 0)

/-- The running case analysis of R104 over acc and the products. -/
structure MacSum where
  nanIn : Bool := false
  zeroInf : Bool := false
  posInf : Bool := false
  negInf : Bool := false
  allNegZero : Bool := true
  sum : Int × Int := (0, 0)
  deriving DecidableEq, Repr

/-- One more addend of a MAC step. -/
def MacSum.add (s : MacSum) : Prod3 → MacSum
  | .nanIn => { s with nanIn := true }
  | .zeroInf => { s with zeroInf := true }
  | .val .nan => { s with nanIn := true }
  | .val (.inf neg) => if neg then { s with negInf := true } else { s with posInf := true }
  | .val (.fin neg m e) =>
    { s with allNegZero := s.allNegZero && neg && decide (m = 0),
             sum := if m = 0 then s.sum else if s.sum.1 = 0 then (sgnMant neg m, e) else dyAdd s.sum (sgnMant neg m, e) }

/-- The result of the sum, by the table of R104, rounded once to a format. -/
def MacSum.result (s : MacSum) (f : FpFmt) (rnd : Rnd) (sat : Bool) : Nat × Flags :=
  if s.nanIn then (f.nan.getD 0, Flags.nanMade)
  else if s.zeroInf then (f.nan.getD 0, Flags.invalid ||| Flags.nanMade)
  else if s.posInf && s.negInf then (f.nan.getD 0, Flags.invalid ||| Flags.nanMade)
  else if s.posInf then f.ofNum rnd sat (.inf false)
  else if s.negInf then f.ofNum rnd sat (.inf true)
  else if s.sum.1 = 0 then (f.signed s.allNegZero 0, 0)
  else f.ofNum rnd sat (.fin (decide (s.sum.1 < 0)) s.sum.1.natAbs s.sum.2)

/-- One MAC step in an FP32 mode: one rounding of acc plus the exact sum of the products (R103, R104). -/
def macStep (acc : W32) (ps : List Prod3) : W32 × Flags :=
  let s := ps.foldl MacSum.add (MacSum.add {} (.val (FpFmt.fp32.decode acc.toNat)))
  let r := s.result FpFmt.fp32 .rne false
  (BitVec.ofNat 32 r.1, r.2)

/-- One MAC step in an INT32 mode (R105). -/
def macStepInt (acc : W32) (ps : List Int) : W32 × Flags :=
  let v := ps.foldl (· + ·) (signedOf 32 acc.toNat)
  if v < -2147483648 then (0x80000000, Flags.saturated ||| Flags.inexact)
  else if 2147483647 < v then (0x7FFFFFFF, Flags.saturated ||| Flags.inexact)
  else (BitVec.ofNat 32 (intMod 32 v), 0)

/-- A sign change. -/
def Num.neg : Num → Num
  | .nan => .nan
  | .inf n => .inf (!n)
  | .fin n m e => .fin (!n) m e

/-- A product with its sign changed. -/
def Prod3.neg : Prod3 → Prod3
  | .val x => .val x.neg
  | p => p

/-- p + c, exact, rounded once; special cases as R104 and R115 (a NaN operand decides before 0 × ∞). -/
def addProd (f : FpFmt) (rnd : Rnd) (sat : Bool) (p : Prod3) (c : Num) : Nat × Flags :=
  ((MacSum.add {} p).add (.val c)).result f rnd sat

/-- a + b in format `f` (R115). -/
def fpAdd (f : FpFmt) (rnd : Rnd) (sat : Bool) (a b : Nat) : Nat × Flags :=
  addProd f rnd sat (.val (f.decode a)) (f.decode b)

/-- a × b in format `f` (R115). -/
def fpMul (f : FpFmt) (rnd : Rnd) (sat : Bool) (a b : Nat) : Nat × Flags :=
  match numMul (f.decode a) (f.decode b) with
  | .nanIn => (f.nan.getD 0, Flags.nanMade)
  | .zeroInf => (f.nan.getD 0, Flags.invalid ||| Flags.nanMade)
  | .val x => f.ofNum rnd sat x

/-- a × b + c, one rounding (R115, R163); `np` and `nc` change the sign of the product and of c. -/
def fpFma (f : FpFmt) (rnd : Rnd) (sat np nc : Bool) (a b c : Nat) : Nat × Flags :=
  let p := numMul (f.decode a) (f.decode b)
  let x := f.decode c
  addProd f rnd sat (if np then p.neg else p) (if nc then x.neg else x)

/-- a with its sign inverted. -/
def fpNeg (f : FpFmt) (a : Nat) : Nat := a ^^^ 2 ^ (f.eb + f.mb)

/-- a with sign 0. -/
def fpAbs (f : FpFmt) (a : Nat) : Nat := a % 2 ^ (f.eb + f.mb)

/-- a / b in FP32 (R115). -/
def fpDiv (a b : Nat) : Nat × Flags :=
  let f := FpFmt.fp32
  match f.decode a, f.decode b with
  | .nan, _ => (f.nan.getD 0, Flags.nanMade)
  | _, .nan => (f.nan.getD 0, Flags.nanMade)
  | .inf _, .inf _ => (f.nan.getD 0, Flags.invalid ||| Flags.nanMade)
  | .inf x, .fin y _ _ => f.ofNum .rne false (.inf (x != y))
  | .fin x _ _, .inf y => (f.signed (x != y) 0, 0)
  | .fin x m e, .fin y n k =>
    if n = 0 then
      if m = 0 then (f.nan.getD 0, Flags.invalid ||| Flags.nanMade)
      else (f.signed (x != y) (f.inf.getD 0), Flags.divZero)
    else if m = 0 then (f.signed (x != y) 0, 0)
    else
      let sh := 64 + n.log2
      let q := m * 2 ^ sh / n
      let st := if m * 2 ^ sh % n = 0 then 0 else 1
      f.ofNum .rne false (.fin (x != y) (2 * q + st) (e - k - Int.ofNat sh - 1))

/-- The integer square root, one bit at a time from bit `i` − 1 down. -/
def isqrtFrom (n : Nat) : Nat → Nat → Nat
  | 0, r => r
  | i + 1, r => if (r + 2 ^ i) * (r + 2 ^ i) ≤ n then isqrtFrom n i (r + 2 ^ i) else isqrtFrom n i r

/-- √a in FP32 (R115). -/
def fpSqrt (a : Nat) : Nat × Flags :=
  let f := FpFmt.fp32
  match f.decode a with
  | .nan => (f.nan.getD 0, Flags.nanMade)
  | .inf neg => if neg then (f.nan.getD 0, Flags.invalid ||| Flags.nanMade) else (f.signed false (f.inf.getD 0), 0)
  | .fin neg m e =>
    if m = 0 then (f.signed neg 0, 0)
    else if neg then (f.nan.getD 0, Flags.invalid ||| Flags.nanMade)
    else
      let odd := e % 2 ≠ 0
      let m2 := (if odd then 2 * m else m) * 2 ^ 80
      let e2 := (if odd then e - 1 else e) / 2 - 40
      let r := isqrtFrom m2 54 0
      let st := if r * r = m2 then 0 else 1
      f.ofNum .rne false (.fin false (2 * r + st) (e2 - 1))

/-- The exact order of two values, −0 equal to +0: none when either is NaN. -/
def numCmp : Num → Num → Option Ordering
  | .nan, _ => none
  | _, .nan => none
  | .inf a, .inf b => some (if a = b then .eq else if a then .lt else .gt)
  | .inf a, .fin _ _ _ => some (if a then .lt else .gt)
  | .fin _ _ _, .inf b => some (if b then .gt else .lt)
  | .fin a m e, .fin b n k =>
    let q := min e k
    some (compare (sgnMant a m * 2 ^ (e - q).toNat) (sgnMant b n * 2 ^ (k - q).toNat))

/-- The value is a zero with its sign set. -/
def isNegZero (f : FpFmt) (a : Nat) : Bool := decide (a = 2 ^ (f.eb + f.mb))

/-- MIN and MAX: NaN propagates as the canonical NaN with NAN_MADE, and −0 orders below +0 (R163). -/
def fpMinMax (f : FpFmt) (wantMax : Bool) (a b : Nat) : Nat × Flags :=
  match numCmp (f.decode a) (f.decode b) with
  | none => (f.nan.getD 0, Flags.nanMade)
  | some .lt => (if wantMax then b else a, 0)
  | some .gt => (if wantMax then a else b, 0)
  | some .eq => (if isNegZero f a then (if wantMax then b else a) else (if wantMax then a else b), 0)

/-- The integer nearest to a finite value, ties to even. -/
def rneInt : Num → Int
  | .fin neg m e => let r := roundAt .rne m e 0; sgnMant neg r.1
  | _ => 0

end Sys2Proof.Machine
end

