-- ==== Sys2Proof/Machine/InsnWord.lean ====
section
/-! DEFINITION. The tile instruction word: kinds, fields, reserved bits, adjustable slots and the checks made from the
word alone (R152, R153, R160–R163, R188, R193, R202, R203, R205, R208). -/

namespace Sys2Proof.Machine

/-- The tile instructions. -/
inductive InsnKind where
  | nop | jmp | pset | fence | iload | endp | wopen | closeNow | closeQuiesce | wquery | ccntSet | ccntGet
  | mma | mdrain | rbload | rbshift | posld | posgen | mxset | mfence
  | vfa | via | vcmp | vsel | vkop | vcvt | vtr | vred | vscan | vxscan | vcomb | vld | vst | vdqpop | viota | vrot
  | ttgt | put | get | fadd | cswap | for_
  | waitcnt | bar | cwait | flagor | step
  | loop | lstride | lbind
  deriving DecidableEq, Repr

/-- The instruction that UNIT and OPC name; none for a reserved unit or opcode. -/
def insnKind (w : Insn) : Option InsnKind :=
  match fld w 127 125, fld w 124 120 with
  | 0, 0 => some .nop | 0, 1 => some .jmp | 0, 2 => some .pset | 0, 3 => some .fence | 0, 4 => some .iload
  | 0, 5 => some .endp | 0, 6 => some .wopen | 0, 7 => some .closeNow | 0, 8 => some .closeQuiesce
  | 0, 9 => some .wquery | 0, 10 => some .ccntSet | 0, 11 => some .ccntGet
  | 1, 1 => some .mma | 1, 2 => some .mdrain | 1, 3 => some .rbload | 1, 4 => some .rbshift | 1, 5 => some .posld
  | 1, 6 => some .posgen | 1, 7 => some .mxset | 1, 8 => some .mfence
  | 2, 1 => some .vfa | 2, 2 => some .via | 2, 3 => some .vcmp | 2, 4 => some .vsel | 2, 5 => some .vkop
  | 2, 6 => some .vcvt | 2, 7 => some .vtr | 2, 8 => some .vred | 2, 9 => some .vscan | 2, 10 => some .vxscan
  | 2, 11 => some .vcomb | 2, 12 => some .vld | 2, 13 => some .vst | 2, 14 => some .vdqpop | 2, 15 => some .viota
  | 2, 16 => some .vrot
  | 3, 1 => some .ttgt | 3, 2 => some .put | 3, 3 => some .get | 3, 4 => some .fadd | 3, 5 => some .cswap
  | 3, 6 => some .for_
  | 4, 1 => some .waitcnt | 4, 2 => some .bar | 4, 3 => some .cwait | 4, 4 => some .flagor | 4, 5 => some .step
  | 5, 1 => some .loop | 5, 2 => some .lstride | 5, 3 => some .lbind
  | _, _ => none

/-- The fields an instruction defines below bit 112; every other bit is reserved. Of a VXE word the ADDR and STRIDE bits of an instruction
that uses none are reserved, while register, RND, SAT and IMMT fields that it does not use are ignored (DESIGN CHOICE, assumption log 100:
R162 does not say). -/
def InsnKind.fields : InsnKind → List (Nat × Nat)
  | .nop | .endp | .mfence | .step => []
  | .jmp => [(10, 0)]
  | .pset => [(111, 109), (108, 107), (106, 105), (104, 100), (95, 64), (9, 0)]
  | .fence => [(99, 96)]
  | .iload => [(45, 0)]
  | .wopen => [(111, 99), (95, 72), (61, 0)]
  | .closeNow => [(111, 101), (61, 38)]
  | .closeQuiesce => [(111, 101), (95, 64), (55, 0)]
  | .wquery => [(111, 106), (61, 38)]
  | .ccntSet => [(111, 107), (95, 64), (15, 0)]
  | .ccntGet => [(111, 107), (23, 0)]
  | .mma => [(111, 97), (87, 0)]
  | .mdrain => [(111, 0)]
  | .rbload => [(92, 0)]
  | .rbshift => [(111, 103), (73, 64), (23, 0)]
  | .posld => [(96, 96), (23, 0)]
  | .posgen => [(96, 64)]
  | .mxset => [(95, 64), (4, 0)]
  | .vfa | .via | .vcmp | .vsel | .vkop | .vtr | .vred | .vscan | .vxscan | .vcomb | .vdqpop | .vrot => [(111, 64), (22, 0)]
  | .vcvt => [(111, 64), (36, 24), (22, 0)]
  | .vld | .vst => [(111, 24), (22, 0)]
  | .viota => [(111, 48), (22, 0)]
  | .ttgt => [(111, 108), (79, 64), (55, 0)]
  | .put | .get => [(111, 101), (88, 0)]
  | .fadd | .cswap | .for_ => [(111, 100), (63, 0)]
  | .waitcnt => [(111, 107), (95, 64), (15, 0)]
  | .bar => [(111, 108)]
  | .cwait => [(111, 103), (95, 64), (15, 0)]
  | .flagor => [(111, 105), (95, 64), (23, 0)]
  | .loop => [(111, 110), (87, 64), (10, 0)]
  | .lstride => [(111, 107), (95, 64)]
  | .lbind => [(111, 109), (11, 0)]

/-- The mask of a list of disjoint fields. -/
def fieldMask : List (Nat × Nat) → Nat
  | [] => 0
  | (hi, lo) :: t => (2 ^ (hi + 1) - 2 ^ lo) + fieldMask t

/-- No reserved bit below bit 112 is set. -/
def reservedClear (k : InsnKind) (w : Insn) : Bool :=
  decide ((w.toNat % 2 ^ 112) &&& (2 ^ 112 - 1 - fieldMask k.fields) = 0)

/-- The bits of slot A (0), B (1) or C (2) of an instruction (R202). -/
def InsnKind.slot (k : InsnKind) (w : Insn) : Nat → Option (Nat × Nat)
  | 0 => match k with
    | .mma | .mdrain | .rbload | .rbshift | .posld | .put | .get | .fadd | .cswap | .for_ | .iload => some (23, 0)
    | _ => none
  | 1 => match k with
    | .mma | .mdrain | .rbload | .vld | .vst => some (47, 24)
    | .put | .get | .fadd | .cswap | .for_ => some (63, 24)
    | _ => none
  | _ => match k with
    | .mma => some (87, 64)
    | .mdrain => some (95, 64)
    | .vcvt => if fld w 98 97 = 1 then some (95, 64) else none
    | .vfa => if fld w 98 97 = 1 ∧ bit w 106 then some (95, 64) else none
    | _ => none

/-- O_g of R202: the sum over the active levels, as an integer. -/
def Looper.offset (l : Looper) (g : Nat) : Int :=
  [0, 1, 2, 3].foldl (fun a L =>
    let lv := l.lev.get {} L
    if lv.active then a + Int.ofNat lv.i * signedOf 32 (l.gstr.get 0 (4 * g + L)).toNat else a) 0

/-- One slot of a binding applied; none when the binding names a generator for a slot the instruction lacks. -/
def adjustSlot (l : Looper) (k : InsnKind) (slot : Nat) (g : BitVec 4) (w : Option Insn) : Option Insn :=
  match w with
  | none => none
  | some w =>
    if g = 0xF then some w
    else match k.slot w slot with
      | none => none
      | some (hi, lo) => some (setFld w hi lo (intMod (hi + 1 - lo) (Int.ofNat (fld w hi lo) + l.offset g.toNat)))

/-- The looper's adjustment of a word; none raises ILLEGAL_INSN (R202). -/
def adjustWord (l : Looper) (k : InsnKind) (w : Insn) : Option Insn :=
  let b := fld w 114 112
  if b = 0 then some w
  else
    let bd := l.bind.get {} b
    adjustSlot l k 2 bd.c (adjustSlot l k 1 bd.b (adjustSlot l k 0 bd.a (some w)))

/-- One past the last scratchpad offset. -/
def spmTop : Nat := 16777216

/-- Modes of the matrix array (R101, R121). -/
inductive Mode where
  | f32 | f16 | b8 | i8 | b4 | t2f | t2i
  deriving DecidableEq, Repr

/-- An activation or weight format of mode B8. -/
def Fmt.b8 : Fmt → Bool
  | .e4m3 | .e5m2 | .mxE4m3 | .mxE5m2 | .mxE3m2 | .mxE2m3 | .mxfp4 | .mxint8 => true
  | _ => false

/-- The mode a pairing selects; none when R101 does not list it. -/
def mxaMode (a w : Fmt) : Option Mode :=
  match a, w with
  | .fp32, .fp32 => some .f32
  | .bf16, .bf16 => some .f16
  | .fp16, .fp16 => some .f16
  | .int8, .int8 => some .i8
  | .mxfp4, .mxfp4 => some .b4
  | .e4m3, .t2 | .e5m2, .t2 | .mxE4m3, .t2 | .mxE5m2, .t2 => some .t2f
  | .int8, .t2 => some .t2i
  | a, w => if a.b8 && w.b8 then some .b8 else none

/-- Products per MAC step k (R101). -/
def Mode.k : Mode → Nat
  | .b4 => 2 | .t2f | .t2i => 4 | _ => 1

/-- Tile cycles per MAC step c (R121). -/
def Mode.c : Mode → Nat
  | .f32 => 16 | .f16 => 2 | _ => 1

/-- The mode accumulates INT32. -/
def Mode.isInt : Mode → Bool
  | .i8 | .t2i => true | _ => false

/-- Row buffer capacity in elements (R122). -/
def Fmt.rowCap : Fmt → Nat
  | .fp32 => 128 | .bf16 | .fp16 => 256
  | .mxE3m2 | .mxE2m3 => 672 | .mxfp4 => 1024
  | .e4m3 | .e5m2 | .int8 | .mxE4m3 | .mxE5m2 | .mxint8 => 512
  | _ => 0

/-- A stride field in units of 16 B, 0 for 1,048,576 B (R152). -/
def stride16 (v : Nat) : Nat := if v = 0 then 1048576 else 16 * v

/-- The pairing and mode of an MMA word. -/
def mmaMode (w : Insn) : Option (Fmt × Fmt × Mode) :=
  match Fmt.ofCode (fld w 111 108), Fmt.ofCode (fld w 107 104) with
  | some a, some b => (mxaMode a b).map (fun m => (a, b, m))
  | _, _ => none

/-- MMA word checks (R153). -/
def mmaLegal (w : Insn) : Bool :=
  match mmaMode w with
  | none => false
  | some (a, b, m) =>
    let K := fld w 58 48
    let lineBytes := 64 * m.k * b.bits / 8
    decide (fld w 102 101 ≠ 3) && decide (K ≤ 1024) && decide (32 * fld w 63 59 + K ≤ a.rowCap)
      && decide (fld w 23 0 % 64 = 0) && decide (fld w 23 0 + ceilDiv K m.k * lineBytes ≤ spmTop)
      && (!b.scaled || decide (K = 0) || decide (fld w 47 24 + 64 * ceilDiv K 32 ≤ spmTop))
      && (decide (fld w 102 101 ≠ 2) || (decide (fld w 87 64 % 64 = 0) && decide (fld w 87 64 + 256 ≤ spmTop)))

/-- MDRAIN word checks (R153). -/
def mdrainLegal (w : Insn) : Bool :=
  match Fmt.ofCode (fld w 111 108) with
  | none => false
  | some d =>
    decide (fld w 107 106 < 2) &&
    (if bit w 103 then d == .fp32 || d == .int32
     else !(bit w 102 && d.scaled) && decide (fld w 23 0 % 16 = 0)
       && decide (fld w 23 0 + 63 * stride16 (fld w 63 48) + 64 * d.bits / 8 ≤ spmTop)
       && (!d.scaled || decide (fld w 47 24 + 128 ≤ spmTop)))

/-- RBLOAD word checks (R126, R153). -/
def rbloadLegal (w : Insn) : Bool :=
  let sb := fld w 92 87
  let b := fld w 86 77
  let n := fld w 76 70
  decide (fld w 69 64 + n ≤ 64) && decide (b ≤ 512) && decide (sb ≤ 32) && decide (fld w 23 0 % 16 = 0)
    && (decide (n = 0) || decide (b = 0) || decide (fld w 23 0 + (n - 1) * stride16 (fld w 63 48) + b ≤ spmTop))
    && (decide (n = 0) || decide (sb = 0) || decide (fld w 47 24 + n * sb ≤ spmTop))

/-- RBSHIFT word checks (R128, R129, R153). -/
def rbshiftLegal (w : Insn) : Bool :=
  match Fmt.ofCode (fld w 111 108) with
  | none => false
  | some f =>
    (f == .e4m3 || f == .e5m2 || f == .int8 || f == .bf16 || f == .fp16 || f == .fp32)
      && decide (1 ≤ fld w 107 104) && decide (fld w 107 104 ≤ 8)
      && decide (1 ≤ fld w 73 64) && decide (fld w 73 64 ≤ f.rowCap)
      && (!bit w 103 || decide (fld w 23 0 + fld w 107 104 * f.bits / 8 ≤ spmTop))

/-- Group size of a narrow format (R171). -/
def Fmt.group : Fmt → Option Nat
  | .bf16 | .fp16 => some 2
  | .e4m3 | .e5m2 | .int8 | .mxE4m3 | .mxE5m2 | .mxint8 | .mxE3m2 | .mxE2m3 => some 4
  | .mxfp4 => some 8
  | .t2 => some 16
  | _ => none

/-- VCVT word checks (R171–R173). -/
def vcvtLegal (w : Insn) : Bool :=
  match Fmt.ofCode (fld w 27 24), Fmt.ofCode (fld w 31 28) with
  | some s, some d =>
    match fld w 111 107 with
    | 0 => (s == .fp32 && d == .int32) || (s == .int32 && d == .fp32) || (s == .int32 && d == .int32)
    | 1 => match d.group with
      | some g => (s == .fp32 || (s == .int32 && d == .int8)) && decide (fld w 9 5 + g ≤ 32)
      | none => false
    | 2 => match s.group with
      | some g => d == (if s == .int8 then Fmt.int32 else Fmt.fp32) && decide (fld w 98 97 = 0) && decide (fld w 4 0 + g ≤ 32)
      | none => false
    | _ => false
  | _, _ => false

/-- The operand an ISEL may replace (R160, R161). -/
def iselLegal (k : InsnKind) (w : Insn) : Bool :=
  let sub := fld w 111 107
  let pk := bit w 106
  match fld w 102 101 with
  | 0 => true
  | 1 =>
    (match k with
     | .vfa => decide (sub ≠ 7) && decide (sub ≠ 10) && decide (sub ≠ 11)
     | .via => decide (sub ≠ 16)
     | .vcmp | .vsel => true
     | .vcomb => decide (sub / 4 ≠ 6)
     | _ => false)
    && (decide (fld w 100 99 = 2) == pk) && !(pk && decide (fld w 98 97 = 1))
  | 2 =>
    (match k with
     | .vfa => decide (sub = 3) || decide (sub = 4) || decide (sub = 5)
     | _ => false)
    && (decide (fld w 100 99 = 2) == pk) && !(pk && decide (fld w 98 97 = 1))
  | _ => false

/-- Pairs of an AFFINE scan instruction are even (R176, R188). -/
def affineLegal (k : InsnKind) (w : Insn) : Bool :=
  if fld w 111 109 ≠ 6 then true
  else decide (fld w 4 0 % 2 = 0) &&
    (match k with
     | .vcomb => decide (fld w 9 5 % 2 = 0) && decide (fld w 14 10 % 2 = 0)
     | .vscan => !bit w 107 || decide (fld w 19 15 % 2 = 0)
     | .vxscan => decide (fld w 9 5 % 2 = 0)
     | _ => true)

/-- VXE word checks other than the lane addresses (R188). On an opcode without sub-operations a nonzero SUBOP is reserved, as are SUBOP bits
[1:0] of VRED, VXSCAN and VCOMB (DESIGN CHOICE, assumption log 100: R162 and R176 give them no meaning). -/
def vxeLegal (k : InsnKind) (w : Insn) : Bool :=
  let sub := fld w 111 107
  let pk := bit w 106
  decide (fld w 102 101 ≠ 3) && decide (fld w 100 99 ≠ 3) && decide (fld w 98 97 < 2) && (!pk || k == .vfa)
    && iselLegal k w
    && (match k with
      | .vfa => decide (sub < 12) && (!pk || (decide (sub ≠ 6) && decide (sub ≠ 7)))
          && (pk || (decide (fld w 98 97 = 0) && !bit w 96))
      | .via => decide (sub < 17)
      | .vcmp => decide (sub < 14) && decide (sub ≠ 7)
      | .vkop | .vtr => decide (sub < 8)
      | .vcvt => vcvtLegal w
      | .vred | .vcomb => decide (sub / 4 ≠ 7) && decide (sub % 4 = 0) && affineLegal k w
      | .vxscan => decide (sub / 4 ≠ 7) && decide (sub % 4 = 0) && affineLegal k w
          && decide (1 ≤ fld w 72 68) && decide (fld w 72 68 ≤ 16) && decide (fld w 67 64 + fld w 72 68 ≤ 16)
      | .vscan => decide (sub / 4 ≠ 7) && affineLegal k w
      | .vld | .vst => decide (sub = 0) && decide (fld w 63 48 ≠ 0) && decide (fld w 47 24 % 4 = 0)
      | _ => decide (sub = 0))

/-- Every check made from the word alone (R153, R188, R203, R204, R208, R209). -/
def insnLegal (k : InsnKind) (w : Insn) : Bool :=
  reservedClear k w &&
  (match k with
   | .pset => decide (fld w 111 109 ≠ 0)
   | .iload => decide (fld w 23 0 % 16 = 0) && decide (fld w 34 24 + fld w 45 35 < 2048)
       && decide (fld w 23 0 + 16 * (fld w 45 35 + 1) ≤ spmTop)
   | .wopen | .closeNow | .wquery => decide (fld w 61 38 % 4 = 0)
   | .closeQuiesce => decide (fld w 55 32 % 4 = 0)
   | .ccntGet => decide (fld w 23 0 % 8 = 0)
   | .mma => mmaLegal w
   | .mdrain => mdrainLegal w
   | .rbload => rbloadLegal w
   | .rbshift => rbshiftLegal w
   | .posld => decide (fld w 23 0 % 4 = 0) && decide (fld w 23 0 + 256 ≤ spmTop)
   | .mxset => decide (fld w 4 0 < 17)
   | .put | .get => decide (fld w 88 64 ≤ 16777216) && decide (fld w 23 0 + fld w 88 64 ≤ spmTop)
   | .fadd | .cswap | .for_ => decide (fld w 23 0 % 8 = 0) && decide (fld w 23 0 + 24 ≤ spmTop)
   | .flagor => decide (fld w 23 0 + 4 ≤ spmTop)
   | .loop => decide (fld w 10 0 ≠ 0)
   | .lbind => decide (fld w 111 109 ≠ 0)
       && [fld w 3 0, fld w 7 4, fld w 11 8].all (fun g => decide (g < 8) || decide (g = 15))
   | .vfa | .via | .vcmp | .vsel | .vkop | .vcvt | .vtr | .vred | .vscan | .vxscan | .vcomb | .vld | .vst | .vdqpop
   | .viota | .vrot => vxeLegal k w
   | _ => true)

end Sys2Proof.Machine
end

