-- ==== Sys2Proof/Config.lean ====
section
/-! DEFINITION. The free values: what the spec calls undefined and after which the machine goes on. -/

namespace Sys2Proof

/-- The free value number `i` drawn at the reading `ctr` of the state's free-value counter. It has no body, so
nothing can be proved about it but that equal arguments give equal values (assumption log 5). -/
opaque Config.freeWord : (ctr i : Nat) → BitVec 64

/-- What hub firmware computes for a synchronisation tree of depth `d` whose members need `c` levels of combining (R312, R314):
`kind` 0 the barrier latency, 1 the reduction's, 2 the scan's, 3 the downward latency. It has no body: the spec bounds the
latencies and does not fix them (assumption log 91). -/
opaque Config.syncLat : (kind d c : Nat) → Nat

/-- SHA-384 (R575), which the spec names and does not define. It has no body: nothing can be proved about it but that equal strings give
equal digests (assumption log 9). -/
opaque Config.sha384 : List Byte → BitVec 384

/-- `n` bytes of HKDF with SHA-384 (R575), likewise without a body (assumption log 9). -/
opaque Config.hkdf384 : (ikm salt info : List Byte) → (n : Nat) → List Byte

/-- HMAC with SHA-384 (R582), likewise (assumption log 9). -/
opaque Config.hmac384 : (key msg : List Byte) → List Byte

/-- The secret that ML-KEM-1024 decapsulates from a ciphertext under the panel's key pair of generation `key` (R575, R582), likewise. -/
opaque Config.kemSecret : (key : Nat) → (ct : List Byte) → List Byte

/-- The device unique secret, 32 bytes in fuses that only the ROT's key derivation reads (R576). It has no body: nothing reaches it. -/
opaque Config.dus : List Byte

/-- Measurement 1: the digest of the ROT's ROM, and the SVN of its patch (R577). -/
opaque Config.romDigest : List Byte
opaque Config.romSvn : W16

/-- XTS-AES-256 (R258), which the spec names and does not define: byte `i` of a burst that was written as `plain` under the key pair of
generation `stored`, decrypted with tweak `tweak` under that of generation `read`, where the two differ. It has no body: under the key it
was written with a burst reads as written, and under any other nothing is known of it (assumption log 10). -/
opaque Config.xtsOther : (stored read : Nat) → (tweak : BitVec 128) → (i : Nat) → (plain : List Byte) → Byte

/-- A free byte. -/
def Config.freeByte (ctr i : Nat) : Byte := (Config.freeWord ctr i).setWidth 8

/-- A free 32-bit word. -/
def Config.free32 (ctr i : Nat) : W32 := (Config.freeWord ctr i).setWidth 32

end Sys2Proof
end

