-- ==== Sys2Proof/Machine/SpmOps.lean ====
section
/-! DEFINITION. The scratchpad's reads and writes through its symbol code, its power checks, its repair ladder and its
memory operations (R217–R244). -/

namespace Sys2Proof.Machine

/-- Multiplication by α in GF(2^8) with polynomial 0x11D (R231). -/
def gfX (a : Nat) : Nat := if a < 128 then 2 * a else (2 * a) ^^^ 0x11D

/-- α^k · a. -/
def gfPowMul : Nat → Nat → Nat
  | 0, a => a
  | k + 1, a => gfPowMul k (gfX a)

/-- a · b in GF(2^8), over the bits of b from bit `k` − 1 down. -/
def gfMulFrom (a b : Nat) : Nat → Nat
  | 0 => 0
  | k + 1 => (if b.testBit k then gfPowMul k a else 0) ^^^ gfMulFrom a b k

/-- a · b in GF(2^8). -/
def gfMul (a b : Nat) : Nat := gfMulFrom a b 8

/-- Syndrome S_j of a codeword whose check symbols deviate by `d` from those of its data (R231). -/
def syndrome (d : BitVec 24) (j : Nat) : Nat :=
  fld d 7 0 ^^^ gfPowMul j (fld d 15 8) ^^^ gfPowMul (2 * j) (fld d 23 16)

/-- The deviation that marks a poisoned half-row: 0x01 added to c0 and to c1 (R232). -/
def poisonDev : BitVec 24 := 0x000101

/-- Decode outcomes (R233). `fixed p v` corrects the symbol at position p by adding v. -/
inductive Decode where
  | clean
  | poisoned
  | fixed (p v : Nat)
  | bad
  deriving DecidableEq, Repr

/-- The least position p below `n` whose α^p · s0 is s1, searched upward. -/
def errPos (s0 s1 : Nat) : Nat → Option Nat
  | 0 => none
  | n + 1 => match errPos s0 s1 n with
    | some p => some p
    | none => if gfPowMul n s0 = s1 then some n else none

/-- The decode of a half-row (R233). -/
def decodeDev (d : BitVec 24) : Decode :=
  let s0 := syndrome d 0
  let s1 := syndrome d 1
  let s2 := syndrome d 2
  if s0 = 0 ∧ s1 = 0 ∧ s2 = 0 then .clean
  else if s0 = 0 ∧ s1 = 3 ∧ s2 = 5 then .poisoned
  else if s0 ≠ 0 ∧ s1 ≠ 0 ∧ s2 ≠ 0 ∧ gfMul s1 s1 = gfMul s0 s2 then
    match errPos s0 s1 35 with
    | some p => .fixed p s0
    | none => .bad
  else .bad

/-- The bank of an offset (R217). -/
def spmBank (off : Nat) : Nat := off / 64 % 16

/-- The row of an offset within its bank (R217). -/
def spmRow (off : Nat) : Nat := off / 1024

/-- A row arrives at the repair queue of 8 (R235). -/
def Spm.queueRow (s : Spm) (bank row : Nat) (ue : Bool) : Spm :=
  if s.repairQ.any (fun r => r.bank == bank && r.row == row) then
    { s with repairQ := s.repairQ.map (fun r => if r.bank == bank && r.row == row then { r with ue := r.ue || ue } else r) }
  else if 8 ≤ s.repairQ.length then { s with repairOvf := true }
  else { s with repairQ := s.repairQ ++ [⟨bank, row, ue⟩] }

/-- A corrected read of a row: the suspect list of 4, and the queue at the second correction (R235). -/
def Spm.suspect (s : Spm) (bank row : Nat) : Spm :=
  let l := s.suspects.get [] bank
  if l.contains row then s.queueRow bank row false
  else { s with suspects := s.suspects.put [] bank ((l ++ [row]).drop (l.length - 3)) }

/-- One read of half-row `h` through the decoder, with its counting, its write-back and its escalation; answers whether
the data is delivered poisoned (R233–R235). -/
def Spm.readHalf (s : Spm) (h : Nat) : Spm × Bool :=
  let d := s.dev.get 0 h
  if d = 0 then (s, false)
  else
    let bank := spmBank (32 * h)
    let row := spmRow (32 * h)
    match decodeDev d with
    | .clean => (s, false)
    | .poisoned => (s, true)
    | .fixed p v =>
      let s := if 3 ≤ p then { s with data := s.data.upd 0 (32 * h + p - 3) (fun b => b ^^^ BitVec.ofNat 8 v) } else s
      let s := { s with dev := s.dev.put 0 h 0, ceCnt := s.ceCnt.upd 0 bank satInc }
      (s.suspect bank row, false)
    | .bad =>
      let s := { s with ueCnt := satInc s.ueCnt }
      (s.queueRow bank row true, true)

/-- The half-rows `h`, `h + 1`, … read in turn; the last item tells whether any was poisoned. -/
def Spm.readHalves (s : Spm) (h : Nat) : Nat → Spm × Bool
  | 0 => (s, false)
  | n + 1 =>
    let r := s.readHalf h
    let r' := Spm.readHalves r.1 (h + 1) n
    (r'.1, r.2 || r'.2)

/-- How many half-rows the range touches. -/
def halfCount (off len : Nat) : Nat := if len = 0 then 0 else (off + len - 1) / 32 + 1 - off / 32

/-- A read of `len` bytes through the symbol code. -/
def Spm.read (s : Spm) (off len : Nat) : Spm × List Byte × Bool :=
  let r := if s.dev = [] then (s, false) else s.readHalves (off / 32) (halfCount off len)
  (r.1, r.1.data.getList 0 off len, r.2)

/-- A read by MXA, VXE, TDMA-out or COPY: delivered poison sets SPM_POISON_STEP (R236). -/
def Spm.readUse (s : Spm) (off len : Nat) : Spm × List Byte × Bool :=
  let r := s.read off len
  ({ r.1 with poisonStep := r.1.poisonStep || r.2.2 }, r.2.1, r.2.2)

/-- The check symbols of the half-rows of a write: whole half-rows take the write's poison, partial ones merge with what
they held (R223, R232, R233). `poison h` is the poison written to half-row `h`. -/
def Spm.markHalves (s : Spm) (off len : Nat) (poison : Nat → Bool) (h : Nat) : Nat → Spm
  | 0 => s
  | n + 1 =>
    let whole := decide (off ≤ 32 * h) && decide (32 * h + 32 ≤ off + len)
    let r := if whole then (s, false) else s.readHalf h
    let d : BitVec 24 := if poison h || r.2 then poisonDev else 0
    Spm.markHalves { r.1 with dev := r.1.dev.put 0 h d } off len poison (h + 1) n

/-- A write of bytes (R223, R232). -/
def Spm.write (s : Spm) (off : Nat) (bs : List Byte) (poison : Bool) : Spm :=
  let s := if s.dev = [] && !poison then s
    else s.markHalves off bs.length (fun _ => poison) (off / 32) (halfCount off bs.length)
  { s with data := s.data.putList 0 off bs }

/-- The poison of each half-row read in turn. -/
def Spm.poisonList (s : Spm) (h : Nat) : Nat → List Bool
  | 0 => []
  | n + 1 => (s.readHalf h).2 :: Spm.poisonList s (h + 1) n

/-- A copy within the scratchpad: a destination half-row is poisoned when any byte it takes was (R229, R232, R236). -/
def Spm.copy (s : Spm) (dst src n : Nat) : Spm :=
  let ps := s.poisonList (src / 32) (halfCount src n)
  let r := s.readUse src n
  let pois := fun h => (List.range 32).any (fun i =>
    let b := 32 * h + i
    decide (dst ≤ b) && decide (b < dst + n) && ps.getD ((src + (b - dst)) / 32 - src / 32) false)
  let s := if r.1.dev = [] then r.1 else r.1.markHalves dst n pois (dst / 32) (halfCount dst n)
  { s with data := s.data.putList 0 dst r.2.1 }

/-- A write of 4-byte words at aligned offsets, each row once (R184, R223): a half-row whose eight words are all there is
written whole, any other is merged. -/
def Spm.writeWords (s : Spm) (ws : List (Nat × W32)) (poison : Bool) : Spm :=
  let here := fun a => ws.any (fun w => w.1 == a)
  let s := if s.dev = [] && !poison then s
    else (ws.map (fun w => w.1 / 32)).eraseDups.foldl (fun s h =>
      let r := if (List.range 8).all (fun i => here (32 * h + 4 * i)) then (s, false) else s.readHalf h
      let d : BitVec 24 := if poison || r.2 then poisonDev else 0
      { r.1 with dev := r.1.dev.put 0 h d }) s
  { s with data := ws.foldl (fun t w => Table.putList 0 t w.1 (bytesLE 4 w.2.toNat)) s.data }

/-- A read of 4-byte words at aligned offsets, each half-row once (R184, R233): delivered poison sets SPM_POISON_STEP
(R236). -/
def Spm.readWords (s : Spm) (as : List Nat) : Spm × List W32 × Bool :=
  let r := if s.dev = [] then (s, false)
    else (as.map (· / 32)).eraseDups.foldl (fun (p : Spm × Bool) h => let q := p.1.readHalf h; (q.1, p.2 || q.2)) (s, false)
  ({ r.1 with poisonStep := r.1.poisonStep || r.2 }, as.map (fun a => BitVec.ofNat 32 (ofLE (r.1.data.getList 0 a 4))), r.2)

/-- Every half-row from `h` on whose every byte the masked write covers wholly is written whole; the others merge. -/
def Spm.markMasked (s : Spm) (off : Nat) (mask : Nat → Byte) (poison : Bool) (h : Nat) : Nat → Spm
  | 0 => s
  | n + 1 =>
    let ms := (List.range 32).map (fun i => mask (32 * h + i))
    if ms.all (fun m => m = 0) then Spm.markMasked s off mask poison (h + 1) n
    else
      let r := if ms.all (fun m => m = 0xFF) then (s, false) else s.readHalf h
      let d : BitVec 24 := if poison || r.2 then poisonDev else 0
      Spm.markMasked { r.1 with dev := r.1.dev.put 0 h d } off mask poison (h + 1) n

/-- Bytes written under bit masks: of each pair, the value's bits where the mask is 1 (R143, R223). -/
def Spm.writeMasked (s : Spm) (off : Nat) (ws : List (Byte × Byte)) (poison : Bool) : Spm :=
  let mask := fun a => if a < off then 0 else (ws.getD (a - off) (0, 0)).2
  let s := if s.dev = [] && !poison then s
    else s.markMasked off mask poison (off / 32) (halfCount off ws.length)
  { s with data := (ws.foldl (fun (p : Table Byte × Nat) w =>
      (if w.2 = 0 then p.1 else p.1.upd 0 p.2 (fun old => (old &&& ~~~w.2) ||| (w.1 &&& w.2)), p.2 + 1)) (s.data, off)).1 }

/-- The state of quarter `q`. -/
def Spm.quarter (s : Spm) (q : Nat) : QState := if q = 0 then s.q0 else if q = 1 then s.q1 else if q = 2 then s.q2 else s.q3

/-- The state of quarter `q` set. -/
def Spm.setQuarter (s : Spm) (q : Nat) (x : QState) : Spm :=
  if q = 0 then { s with q0 := x } else if q = 1 then { s with q1 := x }
  else if q = 2 then { s with q2 := x } else { s with q3 := x }

/-- The contents of quarter `q` gone, as power-up from OFF initialises them to zero (R242). -/
def Spm.clearQuarter (s : Spm) (q : Nat) : Spm :=
  { s with data := s.data.filter (fun kv => kv.1 / 0x400000 != q),
           dev := s.dev.filter (fun kv => kv.1 / 0x20000 != q) }

/-- SPM_PWR_RESULT after a command (R242, R244). -/
def Spm.pwrResult (p : Spm) (q op code : Nat) : Spm :=
  { p with resQ := BitVec.ofNat 2 q, resOp := BitVec.ofNat 2 op, resCode := BitVec.ofNat 2 code, resSeq := p.resSeq + 1 }

/-- A PWR_UP that hub firmware writes and whose power-up it awaits (R242): the quarter is ON, with zeros where it was OFF. -/
def Spm.powerUp (p : Spm) (q : Nat) : Spm :=
  match p.quarter q with
  | .on => p.pwrResult q 0 2
  | .powering => ((p.clearQuarter q).setQuarter q .on).pwrResult q 0 2
  | .retain => ({ p with rising := clrBit p.rising q }.setQuarter q .on).pwrResult q 0 0
  | .off => ((p.clearQuarter q).setQuarter q .on).pwrResult q 0 0

/-- Every quarter taken OFF and ON again by eight commands (R587): all of it zero. -/
def Spm.recycled (p : Spm) : Spm :=
  { p with data := [], dev := [], q0 := .on, q1 := .on, q2 := .on, q3 := .on, mopq := [], mopRun := false, mopStop := none, rising := 0,
           resQ := 3, resOp := 0, resCode := 0, resSeq := p.resSeq + 8 }

/-- Every quarter ON and no bank retired. -/
def Spm.allOn (s : Spm) : Bool :=
  s.q0 == .on && s.q1 == .on && s.q2 == .on && s.q3 == .on && decide (s.retired = 0)

/-- Why the row at `off` refuses access: 1 the quarter is not ON, 2 the bank is retired, which overrides every quarter
state (R240, R241). -/
def Spm.rowRefused (s : Spm) (off : Nat) : Option Nat :=
  if bit s.retired (spmBank off) then some 2
  else if s.quarter (off / 0x400000) ≠ .on then some 1
  else none

/-- `n` undefined bytes from `off` on, where the scratchpad serves writes: free values of site `site`, one per offset. -/
def Spm.scramble (s : Spm) (site off n : Nat) : Spm :=
  { s with data := (List.range n).foldl (fun t i =>
      if (s.rowRefused (off + i)).isSome then t else t.put 0 (off + i) (Config.freeByte site (off + i))) s.data }

/-- The first refused byte among the rows from `row64` on (64-byte rows), and why. -/
def Spm.firstRefused (s : Spm) (off row64 : Nat) : Nat → Option (Nat × Nat)
  | 0 => none
  | n + 1 =>
    match s.rowRefused (64 * row64) with
    | some c => some (max off (64 * row64), c)
    | none => Spm.firstRefused s off (row64 + 1) n

/-- The first byte of a range that lies in a quarter that is not ON or in a retired bank (R241). -/
def Spm.refused (s : Spm) (off len : Nat) : Option (Nat × Nat) :=
  if len = 0 || s.allOn then none
  else s.firstRefused off (off / 64) ((off + len - 1) / 64 + 1 - off / 64)

/-- SPM_FAULT keeps the first fault (R241, R244). -/
def Spm.recordFault (s : Spm) (addr info unit : Nat) : Spm :=
  if s.faultV then s
  else { s with faultV := true, faultAddr := BitVec.ofNat 24 addr, faultInfo := BitVec.ofNat 2 info,
                faultUnit := BitVec.ofNat 3 unit }

/-- The quarters a range touches. -/
def quartersOf (off len : Nat) : List Nat :=
  if len = 0 then [] else (List.range 4).filter (fun q => decide (off / 0x400000 ≤ q) && decide (q ≤ (off + len - 1) / 0x400000))

/-- The next usable spare row of a bank (R237, R238). -/
def Spm.nextSpare (s : Spm) (bank : Nat) : Option Nat :=
  (List.range 32).find? (fun k => let e := s.rmap.get {} (32 * bank + k); !e.valid && !e.spareBad)

/-- A write of 16 bytes to SPM_MOPQ; any other write sets MOP_BAD (R228). -/
def Spm.pushMop (s : Spm) (off : Nat) (bs : List Byte) : Spm :=
  if off ≠ 0x40 ∨ bs.length ≠ 16 then { s with mopBad := true }
  else if 8 ≤ s.mopq.length then { s with mopOvf := true }
  else { s with mopq := s.mopq ++ [BitVec.ofNat 128 (ofLE bs)] }

/-- The descriptor has a reserved field or value, a misaligned or overlong range, or overlapping ranges (R230). -/
def mopBadDesc (d : BitVec 128) : Bool :=
  let op := fld d 1 0
  let dst := fld d 31 8
  let src := fld d 55 32
  let len := fld d 88 64
  decide (2 ≤ op) || bit d 7 || decide (fld d 63 56 ≠ 0) || decide (fld d 95 89 ≠ 0)
    || decide (16777216 < len) || decide (dst % 4 ≠ 0) || decide (len % 4 ≠ 0) || decide (16777216 < dst + len)
    || (decide (op = 1) && (decide (src % 4 ≠ 0) || decide (16777216 < src + len)
        || (decide (len ≠ 0) && decide (src < dst + len) && decide (dst < src + len))))

/-- The pattern of a FILL over `n` 4-byte steps. -/
def fillBytes (pat : Nat) : Nat → List Byte
  | 0 => []
  | n + 1 => bytesLE 4 pat ++ fillBytes pat n

/-- How many bytes of a memory operation lie before the first refused byte: at `dst`, or for COPY at `src` too. -/
def Spm.mopRoom (s : Spm) (dst : Nat) (src : Option Nat) (len : Nat) : Nat :=
  let a := match s.refused dst len with | some (x, _) => x - dst | none => len
  match src with
  | none => a
  | some q => min a (match s.refused q len with | some (x, _) => x - q | none => len)

/-- The bytes a memory operation moves (R229, R230): all of them, or those before a quarter that is not ON or a retired
bank, rounded down to whole 4-byte steps. -/
def Spm.runMop (s : Spm) (d : BitVec 128) : Spm :=
  let dst := fld d 31 8
  let src := fld d 55 32
  let len := fld d 88 64
  if mopBadDesc d then s
  else if fld d 1 0 = 0 then
    let n := s.mopRoom dst none len / 4 * 4
    s.write dst (fillBytes (fld d 127 96) (n / 4)) false
  else
    let n := s.mopRoom dst (some src) len / 4 * 4
    s.copy dst src n

/-- The memory operation stops before its end (R230). -/
def Spm.mopStops (s : Spm) (d : BitVec 128) : Bool :=
  !mopBadDesc d && decide (s.mopRoom (fld d 31 8) (if fld d 1 0 = 1 then some (fld d 55 32) else none) (fld d 88 64) < fld d 88 64)

end Sys2Proof.Machine
end

