-- ==== Sys2Proof/Machine/MxaOps.lean ====
section
/-! DEFINITION. The matrix array's operations: masks, accumulation, drains, row buffers (R118–R155). -/

namespace Sys2Proof.Machine

/-- Reading an undefinable cell: what was written, else 0, else the free value of its site. -/
def UMem.get {w : Nat} (m : UMem w) (k : Nat) : BitVec w :=
  match m.cells.get none k with
  | some v => v
  | none => match m.base with
    | none => 0
    | some site => (Config.freeWord site k).setWidth w

/-- Writing a cell. -/
def UMem.set {w : Nat} (m : UMem w) (k : Nat) (v : BitVec w) : UMem w := { m with cells := m.cells.put none k (some v) }

/-- Every cell undefined. -/
def UMem.scramble {w : Nat} (site : Nat) : UMem w := { cells := [], base := some site }

/-- Bank `b`. -/
def Mxa.bank (m : Mxa) (b : Bool) : Bank := if b then m.bank1 else m.bank0

/-- Bank `b` set. -/
def Mxa.setBank (m : Mxa) (b : Bool) (x : Bank) : Mxa := if b then { m with bank1 := x } else { m with bank0 := x }

/-- A word of the mask registers (R154). -/
def Mxa.maskWord (m : Mxa) (j : Nat) : W32 := m.mask.get 0xFFFFFFFF j

/-- The position compare of R136. -/
def posCompare (mode qpos kpos w : Nat) : Bool :=
  match mode with
  | 0 => true
  | 1 => decide (kpos ≤ qpos)
  | 2 => decide (kpos < qpos)
  | _ => decide (kpos ≤ qpos) && decide (qpos - kpos < w)

/-- Cell (r, n) is fed by an MMA word (R135). -/
def Mxa.fed (m : Mxa) (w : Insn) (r n : Nat) : Bool :=
  let ms := fld w 100 99
  bit (m.maskWord (4 * ms + r / 32)) (r % 32) && bit (m.maskWord (4 * ms + 2 + n / 32)) (n % 32)
    && posCompare (fld w 98 97) (m.qpos.get 0 r).toNat (m.kpos.get 0 n).toNat m.pwin.toNat

/-- The scale exponent of activation block `j` of row `r` (R125, R122). -/
def Mxa.rowScale (m : Mxa) (f : Fmt) (r j : Nat) : Option Int :=
  if f.scaled then scaleExp (m.rowScl.get (32 * r + j)) else some 0

/-- The operands an MMA has read from the scratchpad: weight bytes, weight scales, bias. -/
structure MmaIn where
  wt : List Byte
  scl : List Byte
  bias : List Byte
  poison : Bool
  deriving DecidableEq, Repr

/-- Weight code of reduction index i = k·j + q, column n (R124). -/
def MmaIn.weight (x : MmaIn) (f : Fmt) (k i n : Nat) : Nat :=
  let line := 64 * k * f.bits / 8
  packedGet f.bits (fun a => x.wt.getD (i / k * line + a) 0) (n * k + i % k)

/-- One cell's accumulation in an FP32 mode, over steps j … (R102, R103, R97). -/
def Mxa.accFp (m : Mxa) (w : Insn) (x : MmaIn) (fa fw : Fmt) (k K r n : Nat) (j : Nat) : Nat → W32 × Flags → W32 × Flags
  | 0, a => a
  | s + 1, a =>
    let koff := 32 * fld w 63 59
    let idx := (List.range k).map (fun q => k * j + q) |>.filter (fun i => decide (i < K))
    let ps := idx.map (fun i =>
      let act := fa.decode (m.rowScale fa r (koff / 32 + i / 32)) (packedGet fa.bits (fun b => m.rowBuf.get (512 * r + b)) (koff + i))
      let E := if fw.scaled then scaleExp (x.scl.getD (64 * (i / 32) + n) 0) else some 0
      let c := x.weight fw k i n
      if fw == .t2 then t2Mul act c E else numMul act (fw.decode E c))
    let t2 : Flags := if fw == .t2 && idx.any (fun i => x.weight fw k i n == 2) then Flags.invalidT2 else 0
    let r' := macStep a.1 ps
    Mxa.accFp m w x fa fw k K r n (j + 1) s (r'.1, a.2 ||| r'.2 ||| t2)

/-- One cell's accumulation in an INT32 mode (R105). -/
def Mxa.accInt (m : Mxa) (w : Insn) (x : MmaIn) (fw : Fmt) (k K r n : Nat) (j : Nat) : Nat → W32 × Flags → W32 × Flags
  | 0, a => a
  | s + 1, a =>
    let koff := 32 * fld w 63 59
    let idx := (List.range k).map (fun q => k * j + q) |>.filter (fun i => decide (i < K))
    let ps := idx.map (fun i =>
      let act := signedOf 8 (m.rowBuf.get (512 * r + koff + i)).toNat
      let c := x.weight fw k i n
      act * (if fw == .t2 then t2Value c else signedOf 8 c))
    let t2 : Flags := if fw == .t2 && idx.any (fun i => x.weight fw k i n == 2) then Flags.invalidT2 else 0
    let r' := macStepInt a.1 ps
    Mxa.accInt m w x fw k K r n (j + 1) s (r'.1, a.2 ||| r'.2 ||| t2)

/-- The value a cell accumulates onto (R131). -/
def mmaInit (b : Bank) (w : Insn) (x : MmaIn) (r n : Nat) : W32 :=
  match fld w 102 101 with
  | 0 => b.acc.get (64 * r + n)
  | 1 => 0
  | _ => BitVec.ofNat 32 (ofLE ((x.bias.drop (4 * n)).take 4))

/-- One fed cell through an MMA. -/
def Mxa.cell (m : Mxa) (b : Bank) (w : Insn) (x : MmaIn) (fa fw : Fmt) (md : Mode) (r n : Nat) : W32 × Flags :=
  let K := fld w 58 48
  let a0 := (mmaInit b w x r n, (0 : Flags))
  if md.isInt then m.accInt w x fw md.k K r n 0 (ceilDiv K md.k) a0
  else m.accFp w x fa fw md.k K r n 0 (ceilDiv K md.k) a0

/-- The fed columns of row r. -/
def Mxa.fedCols (m : Mxa) (w : Insn) (r : Nat) : List Nat := (List.range 64).filter (m.fed w r)

/-- One row of an MMA: the bank with its fed cells accumulated and LIVE, and the column flags. -/
def Mxa.mmaRow (m : Mxa) (b0 : Bank) (w : Insn) (x : MmaIn) (fa fw : Fmt) (md : Mode) (p : Bank × Table Byte) (r : Nat) : Bank × Table Byte :=
  (m.fedCols w r).foldl (fun p n =>
    let v := m.cell b0 w x fa fw md r n
    ({ p.1 with acc := p.1.acc.set (64 * r + n) v.1, live := p.1.live.set r (setBit (p.1.live.get r) n) },
     p.2.upd 0 n (· ||| v.2))) p

/-- Column scales of a T2I MMA (R106, R131): cleared by ZERO or BIAS, captured from the first block, INVALID on a
later block that differs. -/
def mmaScales (b : Bank) (w : Insn) (x : MmaIn) (md : Mode) (fedAny : Nat → Bool) : Table (Option Byte) × Table Byte :=
  let blocks := ceilDiv (fld w 58 48) 32
  (List.range 64).foldl (fun (p : Table (Option Byte) × Table Byte) n =>
    if fedAny n then
      let old := if fld w 102 101 = 0 then p.1.get none n else none
      if md == .t2i && decide (0 < blocks) then
        let sc := match old with | some v => v | none => x.scl.getD n 0
        let bad := (List.range blocks).any (fun i => x.scl.getD (64 * i + n) 0 != sc)
        (p.1.put none n (some sc), if bad then p.2.upd 0 n (· ||| Flags.invalid) else p.2)
      else (p.1.put none n old, p.2)
    else p) (b.cscale, [])

/-- An MMA's whole effect on its bank, from the state at its vein start (R119, R131, R132, R146). -/
def Mxa.mma (m : Mxa) (w : Insn) (x : MmaIn) (fa fw : Fmt) (md : Mode) : Bank × Table Byte :=
  let b := m.bank (bit w 103)
  let fedAny := fun n => (List.range 64).any (fun r => m.fed w r n)
  let sc := mmaScales b w x md fedAny
  let r := (List.range 64).foldl (m.mmaRow b w x fa fw md) (b, sc.2)
  let anyFed := (List.range 64).any fedAny
  let rowPois := (List.range 64).any (fun r => bit m.rowPoison r && decide (m.fedCols w r ≠ []))
  ({ r.1 with cscale := sc.1, poison := b.poison || rowPois || (x.poison && anyFed),
              ty := if fld w 102 101 = 0 && b.ty.isSome then b.ty else some md.isInt,
              t2i := md == .t2i }, r.2)

/-- The three scratchpad ranges an MMA reads: weight lines, weight scales, bias. -/
def mmaRanges (w : Insn) (fw : Fmt) (md : Mode) : List (Nat × Nat) :=
  let K := fld w 58 48
  [(fld w 23 0, ceilDiv K md.k * (64 * md.k * fw.bits / 8)),
   (fld w 47 24, if fw.scaled then 64 * ceilDiv K 32 else 0),
   (fld w 87 64, if fld w 102 101 = 2 then 256 else 0)]

/-- Reading a list of ranges for use. -/
def Spm.readRanges (s : Spm) : List (Nat × Nat) → Spm × List (List Byte) × Bool
  | [] => (s, [], false)
  | (o, n) :: t =>
    let r := s.readUse o n
    let r' := Spm.readRanges r.1 t
    (r'.1, r.2.1 :: r'.2.1, r.2.2 || r'.2.2)

/-- The first refused byte among ranges. -/
def Spm.refusedAny (s : Spm) : List (Nat × Nat) → Option (Nat × Nat)
  | [] => none
  | (o, n) :: t => match s.refused o n with
    | some x => some x
    | none => Spm.refusedAny s t

/-- Keys of stochastic rounding for a conversion of this tile (R112). -/
structure SrKey where
  seed : W64
  rel : Nat
  step : Nat
  deriving DecidableEq, Repr

/-- The rounding of the element at position p (R112, R142). -/
def SrKey.rnd (k : SrKey) (rnd sri p : Nat) : Rnd :=
  if rnd = 1 then .sr (srBits k.seed k.rel k.step ((sri + p) % 2 ^ 32)) else .rne

/-- The exact value of an accumulator at write-back (R141, R106). -/
def Bank.value (b : Bank) (r n : Nat) : Num :=
  let a := b.acc.get (64 * r + n)
  if b.ty = some true then
    if b.t2i then
      match scaleExp ((b.cscale.get none n).getD 0x7F) with
      | some E => (Num.ofInt (signedOf 32 a.toNat)).scale E
      | none => .nan
    else Num.ofInt (signedOf 32 a.toNat)
  else FpFmt.fp32.decode a.toNat

/-- One element converted without a block scale (R141); an FP32 or INT32 write-back of its own type is a move. -/
def Bank.elem (b : Bank) (w : Insn) (d : Fmt) (key : SrKey) (r n p : Nat) : Nat × Flags :=
  let a := b.acc.get (64 * r + n)
  let isInt := b.ty == some true
  if (d == .fp32 && !isInt) || (d == .int32 && isInt && !b.t2i) then (a.toNat, 0)
  else d.convert (key.rnd (fld w 107 106) (fld w 95 64) p) (bit w 105) (isInt && !b.t2i) (fld w 100 96) (b.value r n)

/-- The output of one line of a drain: per element its code or none where the cell is not LIVE, the scale bytes of its
blocks, and the flags per element. -/
structure DrainLine where
  codes : List (Option Nat)
  scales : List (Option Byte)
  flags : List Flags
  deriving DecidableEq, Repr

/-- A block of up to 32 cells of row r from column n0 on, over the LIVE cells only (R143). The block's flags are raised in
every LIVE column of the block (DESIGN CHOICE, assumption log 100: R111 and R147 name no column for them). -/
def Bank.block (b : Bank) (w : Insn) (d : Fmt) (key : SrKey) (r n0 : Nat) : DrainLine :=
  let cols := (List.range 32).map (· + n0)
  let live := cols.filter (fun n => bit (b.live.get r) n)
  if live = [] then ⟨cols.map (fun _ => none), [none], cols.map (fun _ => 0)⟩
  else
    let o := d.block (live.map (fun n => (b.value r n, key.rnd (fld w 107 106) (fld w 95 64) (64 * r + n))))
    let pos := fun n => live.idxOf n
    ⟨cols.map (fun n => if bit (b.live.get r) n then some (o.codes.getD (pos n) 0) else none), [some o.scale],
     cols.map (fun n => if bit (b.live.get r) n then o.flags.getD (pos n) 0 ||| o.blockFlags else 0)⟩

/-- Line `i` of a drain: row i, or column i under TRANSPOSE (R142). -/
def Bank.line (b : Bank) (w : Insn) (d : Fmt) (key : SrKey) (i : Nat) : DrainLine :=
  if d.scaled then
    let x := b.block w d key i 0
    let y := b.block w d key i 32
    ⟨x.codes ++ y.codes, x.scales ++ y.scales, x.flags ++ y.flags⟩
  else
    let cells := (List.range 64).map (fun j => if bit w 102 then (j, i) else (i, j))
    let rs := cells.map (fun c => if bit (b.live.get c.1) c.2
      then some (b.elem w d key c.1 c.2 (if bit w 102 then 64 * c.2 + c.1 else 64 * c.1 + c.2)) else none)
    ⟨rs.map (fun r => r.map (·.1)), [], rs.map (fun r => match r with | some v => v.2 | none => 0)⟩

/-- A list of element codes of `b` bits as masked bytes from bit 0 on; `n` bytes. -/
def packMasked (b : Nat) (codes : List (Option Nat)) (n : Nat) : List (Byte × Byte) :=
  let v := codes.zipIdx.foldl (fun (p : Nat × Nat) c => match c.1 with
    | some x => (p.1 + x % 2 ^ b * 2 ^ (b * c.2), p.2 + (2 ^ b - 1) * 2 ^ (b * c.2))
    | none => p) (0, 0)
  (bytesLE n v.1).zip (bytesLE n v.2)

/-- A drain to the scratchpad, every line in ascending order (R140–R143): the scratchpad after it and the column flags. -/
def drainToSpm (b : Bank) (w : Insn) (d : Fmt) (key : SrKey) (s : Spm) : Spm × Table Byte :=
  (List.range 64).foldl (fun (p : Spm × Table Byte) i =>
    let l := b.line w d key i
    let s1 := p.1.writeMasked (fld w 23 0 + i * stride16 (fld w 63 48)) (packMasked d.bits l.codes (64 * d.bits / 8)) b.poison
    let s2 := s1.writeMasked (fld w 47 24 + 2 * i) (l.scales.map (fun x => match x with | some v => (v, 0xFF) | none => (0, 0))) b.poison
    let fl := l.flags.zipIdx.foldl (fun t f => if f.1 = 0 then t else Table.upd 0 t (if bit w 102 then i else f.2) (· ||| f.1)) p.2
    (s2, fl)) (s, [])

/-- A range put in front of ranges that lie at or above it, joined with the first where they meet. -/
def joinRange (r : Nat × Nat) : List (Nat × Nat) → List (Nat × Nat)
  | [] => [r]
  | (o, n) :: t => if o ≤ r.1 + r.2 then (r.1, max (r.1 + r.2) (o + n) - r.1) :: t else r :: (o, n) :: t

/-- The bytes that hold the elements `f` picks of a line of 64 elements of `b` bits at `off`. -/
def lineRanges (off b : Nat) (f : Nat → Bool) : List (Nat × Nat) :=
  ((List.range 64).filter f).foldr (fun j l => joinRange (off + j * b / 8, ((j + 1) * b + 7) / 8 - j * b / 8) l) []

/-- What a drain to the scratchpad writes (R132, R143): the bytes of the LIVE elements, line by line, and the scale bytes of
blocks with a LIVE element. -/
def Bank.drainRanges (b : Bank) (w : Insn) : List (Nat × Nat) :=
  match Fmt.ofCode (fld w 111 108) with
  | none => []
  | some d => if bit w 103 then [] else
    (List.range 64).flatMap (fun i =>
      let live := fun j => if bit w 102 then bit (b.live.get j) i else bit (b.live.get i) j
      lineRanges (fld w 23 0 + i * stride16 (fld w 63 48)) d.bits live
        ++ (if d.scaled then ((List.range 2).filter (fun k => (List.range 32).any (fun j => live (32 * k + j)))).map
              (fun k => (fld w 47 24 + 2 * i + k, 1)) else []))

/-- One row delivered to the VXE, and its flags per column (R145). -/
def Bank.row (b : Bank) (w : Insn) (key : SrKey) (r : Nat) : DqRow × List Flags :=
  let isInt := b.ty == some true
  let rs := (List.range 64).map (fun n =>
    if isInt && b.t2i && bit (b.live.get r) n then
      let v := FpFmt.fp32.ofNum (key.rnd (fld w 107 106) (fld w 95 64) (64 * r + n)) (bit w 105) (b.value r n)
      (BitVec.ofNat 32 v.1, v.2)
    else (b.acc.get (64 * r + n), (0 : Flags)))
  (⟨rs.map (·.1), b.live.get r, b.poison⟩, rs.map (·.2))

/-- What a drain without RETAIN clears at its end: LIVE bits, poison, column scales (R132, R146, R152). -/
def Bank.clearDrained (b : Bank) : Bank := { b with live := {}, poison := false, cscale := [] }

/-- RBLOAD's copy of one row (R126, R146). The whole row is overwritten when all 512 bytes of its row buffer are, whatever
becomes of the row scale buffer (DESIGN CHOICE, assumption log 100). -/
def Mxa.loadRow (m : Mxa) (r : Nat) (bs sc : List Byte) (poisoned : Bool) : Mxa :=
  let m1 := { m with rowBuf := bs.zipIdx.foldl (fun u (b : Byte × Nat) => u.set (512 * r + b.2) b.1) m.rowBuf,
                     rowScl := sc.zipIdx.foldl (fun u (b : Byte × Nat) => u.set (32 * r + b.2) b.1) m.rowScl }
  let p := if poisoned then setBit m.rowPoison r
    else if bs.length = 512 then clrBit m.rowPoison r else m.rowPoison
  { m1 with rowPoison := p }

/-- RBLOAD over its rows i … (R126). -/
def rbload (w : Insn) (i : Nat) : Nat → Mxa × Spm → Mxa × Spm
  | 0, p => p
  | n + 1, p =>
    let B := fld w 86 77
    let SB := fld w 92 87
    let x := p.2.readUse (fld w 23 0 + i * stride16 (fld w 63 48)) B
    let y := x.1.readUse (fld w 47 24 + i * SB) SB
    rbload w (i + 1) n (p.1.loadRow (fld w 69 64 + i) x.2.1 y.2.1 (x.2.2 || y.2.2), y.1)

/-- The source ranges of an RBLOAD. -/
def rbloadRanges (w : Insn) : List (Nat × Nat) :=
  (List.range (fld w 76 70)).map (fun i => (fld w 23 0 + i * stride16 (fld w 63 48), fld w 86 77))
    ++ [(fld w 47 24, fld w 76 70 * fld w 92 87)]

/-- RBSHIFT over the chain of the 64 rows (R128, R146); element sizes are whole bytes (R129). -/
def Mxa.shift (m : Mxa) (w : Insn) (tail : List Byte) (tailPoison : Bool) : Mxa :=
  match Fmt.ofCode (fld w 111 108) with
  | none => m
  | some f =>
    let eb := f.bits / 8
    let L := fld w 73 64 * eb
    let s := fld w 107 104 * eb
    let at_ := fun r i => if i + s < L then m.rowBuf.get (512 * r + i + s)
      else if r < 63 then m.rowBuf.get (512 * (r + 1) + (i + s - L)) else tail.getD (i + s - L) 0
    let rb := (List.range 64).foldl (fun u r => (List.range L).foldl (fun u i => UMem.set u (512 * r + i) (at_ r i)) u) m.rowBuf
    let src := fun r => if r < 63 then bit m.rowPoison (r + 1) else tailPoison
    { m with rowBuf := rb,
             rowPoison := (List.range 64).foldl (fun p r => if src r then setBit p r else p) m.rowPoison }

/-- POSGEN or POSLD into QPOS or KPOS (R152). -/
def Mxa.setPos (m : Mxa) (kpos : Bool) (vs : List Nat) : Mxa :=
  let t := vs.zipIdx.foldl (fun (t : Table (BitVec 24)) v => t.put 0 v.2 (BitVec.ofNat 24 v.1)) []
  if kpos then { m with kpos := t } else { m with qpos := t }

/-- Column flags ORed into MXA_CFLAGS, and their OR (R147). -/
def Mxa.orFlags (m : Mxa) (cf : Table Byte) : Mxa × Byte :=
  ({ m with cflags := cf.foldl (fun t kv => Table.upd 0 t kv.1 (· ||| kv.2)) m.cflags }, cf.foldl (fun a kv => a ||| kv.2) 0)

/-- Every earlier MMA has left the veins. -/
def Mxa.veinsFree (m : Mxa) : Mxa := { m with veins := m.veins.map (fun r => { r with inVeins := false }) }

/-- What an exception leaves of the matrix array: queue and work gone, contents undefined (R153, R154). -/
def Mxa.abandon (m : Mxa) (site : Nat) : Mxa :=
  { m with q := [], veins := [], drains := [],
           rowBuf := UMem.scramble site, rowScl := UMem.scramble (site + 1),
           rowPoison := Config.freeWord (site + 2) 0,
           bank0 := { m.bank0 with acc := UMem.scramble (site + 3), live := UMem.scramble (site + 4) },
           bank1 := { m.bank1 with acc := UMem.scramble (site + 5), live := UMem.scramble (site + 6) } }

/-- Tile reset of the matrix array (R154). -/
def Mxa.reset (m : Mxa) : Mxa :=
  { m with q := [], veins := [], drains := [],
           bank0 := { acc := m.bank0.acc }, bank1 := { acc := m.bank1.acc },
           mask := [], pwin := 0x800000, qpos := [], kpos := [], cflags := [] }

end Sys2Proof.Machine
end

