-- ==== Sys2Proof/Machine/Trans.lean ====
section
/-! DEFINITION. The transcendental functions, bit for bit as R175 lays them down. The tables are the correctly rounded
values of the expressions R175 states for them. -/

namespace Sys2Proof.Machine

/-- T2[j] of R175: 2^(j/64), nearest FP32. -/
def tabT2 : List Nat :=
  [0x3F800000, 0x3F8164D2, 0x3F82CD87, 0x3F843A29, 0x3F85AAC3, 0x3F871F62, 0x3F88980F, 0x3F8A14D5, 0x3F8B95C2, 0x3F8D1ADF, 0x3F8EA43A, 0x3F9031DC, 0x3F91C3D3, 0x3F935A2B, 0x3F94F4F0, 0x3F96942D]
  ++ [0x3F9837F0, 0x3F99E046, 0x3F9B8D3A, 0x3F9D3EDA, 0x3F9EF532, 0x3FA0B051, 0x3FA27043, 0x3FA43516, 0x3FA5FED7, 0x3FA7CD94, 0x3FA9A15B, 0x3FAB7A3A, 0x3FAD583F, 0x3FAF3B79, 0x3FB123F6, 0x3FB311C4]
  ++ [0x3FB504F3, 0x3FB6FD92, 0x3FB8FBAF, 0x3FBAFF5B, 0x3FBD08A4, 0x3FBF179A, 0x3FC12C4D, 0x3FC346CD, 0x3FC5672A, 0x3FC78D75, 0x3FC9B9BE, 0x3FCBEC15, 0x3FCE248C, 0x3FD06334, 0x3FD2A81E, 0x3FD4F35B]
  ++ [0x3FD744FD, 0x3FD99D16, 0x3FDBFBB8, 0x3FDE60F5, 0x3FE0CCDF, 0x3FE33F89, 0x3FE5B907, 0x3FE8396A, 0x3FEAC0C7, 0x3FED4F30, 0x3FEFE4BA, 0x3FF28177, 0x3FF5257D, 0x3FF7D0DF, 0x3FFA83B3, 0x3FFD3E0C]

/-- TI[j] of R175: 1/m0. -/
def tabTI : List Nat :=
  [0x3FAAAAAB, 0x3FA8E83F, 0x3FA72F05, 0x3FA57EB5, 0x3FA3D70A, 0x3FA237C3, 0x3FA0A0A1, 0x3F9F1166, 0x3F9D89D9, 0x3F9C09C1, 0x3F9A90E8, 0x3F991F1A, 0x3F97B426, 0x3F964FDA, 0x3F94F209, 0x3F939A86]
  ++ [0x3F924925, 0x3F90FDBC, 0x3F8FB824, 0x3F8E7835, 0x3F8D3DCB, 0x3F8C08C1, 0x3F8AD8F3, 0x3F89AE41, 0x3F888889, 0x3F8767AB, 0x3F864B8A, 0x3F853408, 0x3F842108, 0x3F83126F, 0x3F820821, 0x3F810204]
  ++ [0x3F800000, 0x3F7E03F8, 0x3F7C0FC1, 0x3F7A232D, 0x3F783E10, 0x3F76603E, 0x3F74898D, 0x3F72B9D6, 0x3F70F0F1, 0x3F6F2EB7, 0x3F6D7304, 0x3F6BBDB3, 0x3F6A0EA1, 0x3F6865AC, 0x3F66C2B4, 0x3F652598]
  ++ [0x3F638E39, 0x3F61FC78, 0x3F607038, 0x3F5EE95C, 0x3F5D67C9, 0x3F5BEB62, 0x3F5A740E, 0x3F5901B2, 0x3F579436, 0x3F562B81, 0x3F54C77B, 0x3F53680D, 0x3F520D21, 0x3F50B6A0, 0x3F4F6475, 0x3F4E168A]
  ++ [0x3F4CCCCD, 0x3F4B8728, 0x3F4A4588, 0x3F4907DA, 0x3F47CE0C, 0x3F46980C, 0x3F4565C8, 0x3F443730, 0x3F430C31, 0x3F41E4BC, 0x3F40C0C1, 0x3F3FA030, 0x3F3E82FA, 0x3F3D6910, 0x3F3C5264, 0x3F3B3EE7]
  ++ [0x3F3A2E8C, 0x3F392144, 0x3F381703, 0x3F370FBB, 0x3F360B61, 0x3F3509E7, 0x3F340B41, 0x3F330F63, 0x3F321643, 0x3F311FD4, 0x3F302C0B, 0x3F2F3ADE, 0x3F2E4C41, 0x3F2D602B, 0x3F2C7692, 0x3F2B8F6A]

/-- TL[j] of R175: log2 m0. -/
def tabTL : List Nat :=
  [0xBED47FCC, 0xBECCD839, 0xBEC544C0, 0xBEBDC4F8, 0xBEB6587B, 0xBEAEFEE8, 0xBEA7B7DE, 0xBEA08301, 0xBE995FF7, 0xBE924E69, 0xBE8B4E03, 0xBE845E70, 0xBE7AFEC5, 0xBE6D6117, 0xBE5FE33D, 0xBE5284A6]
  ++ [0xBE4544C0, 0xBE382302, 0xBE2B1EE1, 0xBE1E37DB, 0xBE116D6E, 0xBE04BF1C, 0xBDF058D7, 0xBDD769C9, 0xBDBEB025, 0xBDA62B08, 0xBD8DD995, 0xBD6B75E9, 0xBD3B9CA6, 0xBD0C25C7, 0xBCBA1F74, 0xBC3963DD]
  ++ [0x00000000, 0x3C37F286, 0x3CB73CB4, 0x3D08E68F, 0x3D35D69C, 0x3D626FD6, 0x3D8759C5, 0x3D9D517F, 0x3DB31FB8, 0x3DC8C50B, 0x3DDE4212, 0x3DF39761, 0x3E0462C4, 0x3E0EE68D, 0x3E19574F, 0x3E23B550]
  ++ [0x3E2E00D2, 0x3E383A17, 0x3E42615F, 0x3E4C76E8, 0x3E567AF1, 0x3E606DB6, 0x3E6A4F72, 0x3E74205F, 0x3E7DE0B6, 0x3E83C857, 0x3E88983F, 0x3E8D602E, 0x3E92203D, 0x3E96D888, 0x3E9B8926, 0x3EA03232]
  ++ [0x3EA4D3C2, 0x3EA96DF0, 0x3EAE00D2, 0x3EB28C7F, 0x3EB7110E, 0x3EBB8E96, 0x3EC0052B, 0x3EC474E4, 0x3EC8DDD4, 0x3ECD4012, 0x3ED19BB0, 0x3ED5F0C4, 0x3EDA3F60, 0x3EDE8797, 0x3EE2C97D, 0x3EE70525]
  ++ [0x3EEB3A9F, 0x3EEF69FF, 0x3EF39355, 0x3EF7B6B4, 0x3EFBD42B, 0x3EFFEBCD, 0x3F01FED4, 0x3F0404E8, 0x3F060828, 0x3F08089E, 0x3F0A0650, 0x3F0C0146, 0x3F0DF989, 0x3F0FEF1F, 0x3F11E20F, 0x3F13D260]

/-- TR[j] of R175: 1/(1 + (2j+1)/256). -/
def tabTR : List Nat :=
  [0x3F7F00FF, 0x3F7D08E5, 0x3F7B1885, 0x3F792FB2, 0x3F774E40, 0x3F757404, 0x3F73A0D5, 0x3F71D48C, 0x3F700F01, 0x3F6E500F, 0x3F6C9791, 0x3F6AE564, 0x3F693965, 0x3F679373, 0x3F65F36D, 0x3F645933]
  ++ [0x3F62C4A7, 0x3F6135AA, 0x3F5FAC1F, 0x3F5E27EB, 0x3F5CA8F1, 0x3F5B2F17, 0x3F59BA42, 0x3F584A5A, 0x3F56DF44, 0x3F5578E9, 0x3F541733, 0x3F52BA08, 0x3F516154, 0x3F500D01, 0x3F4EBCF9, 0x3F4D7127]
  ++ [0x3F4C2978, 0x3F4AE5D8, 0x3F49A634, 0x3F486A79, 0x3F473294, 0x3F45FE74, 0x3F44CE08, 0x3F43A13E, 0x3F427806, 0x3F415250, 0x3F40300C, 0x3F3F112B, 0x3F3DF59D, 0x3F3CDD53, 0x3F3BC841, 0x3F3AB656]
  ++ [0x3F39A786, 0x3F389BC3, 0x3F379301, 0x3F368D31, 0x3F358A48, 0x3F348A3A, 0x3F338CFA, 0x3F32927C, 0x3F319AB6, 0x3F30A59B, 0x3F2FB322, 0x3F2EC33E, 0x3F2DD5E6, 0x3F2CEB10, 0x3F2C02B0, 0x3F2B1CBE]
  ++ [0x3F2A392F, 0x3F2957FB, 0x3F287917, 0x3F279C7B, 0x3F26C21E, 0x3F25E9F7, 0x3F2513FD, 0x3F244029, 0x3F236E72, 0x3F229ECF, 0x3F21D13A, 0x3F2105A9, 0x3F203C17, 0x3F1F747A, 0x3F1EAECD, 0x3F1DEB07]
  ++ [0x3F1D2922, 0x3F1C6917, 0x3F1BAADF, 0x3F1AEE73, 0x3F1A33CD, 0x3F197AE7, 0x3F18C3BB, 0x3F180E41, 0x3F175A75, 0x3F16A850, 0x3F15F7CC, 0x3F1548E5, 0x3F149B93, 0x3F13EFD2, 0x3F13459C, 0x3F129CEC]
  ++ [0x3F11F5BD, 0x3F115009, 0x3F10ABCC, 0x3F100901, 0x3F0F67A2, 0x3F0EC7AB, 0x3F0E2918, 0x3F0D8BE3, 0x3F0CF009, 0x3F0C5584, 0x3F0BBC51, 0x3F0B246B, 0x3F0A8DCD, 0x3F09F874, 0x3F09645C, 0x3F08D181]
  ++ [0x3F083FDE, 0x3F07AF70, 0x3F072033, 0x3F069223, 0x3F06053C, 0x3F05797C, 0x3F04EEDD, 0x3F04655E, 0x3F03DCF9, 0x3F0355AD, 0x3F02CF75, 0x3F024A4E, 0x3F01C636, 0x3F014328, 0x3F00C122, 0x3F004020]

/-- TS[j] of R175: 1/sqrt(1 + (2j+1)/64). -/
def tabTS : List Nat :=
  [0x3F7E05EC, 0x3F7A33F9, 0x3F768CDC, 0x3F730D8A, 0x3F6FB345, 0x3F6C7B90, 0x3F69642A, 0x3F666B02, 0x3F638E39, 0x3F60CC16, 0x3F5E2305, 0x3F5B9193, 0x3F59166B, 0x3F56B051, 0x3F545E22, 0x3F521ED0]
  ++ [0x3F4FF162, 0x3F4DD4ED, 0x3F4BC89B, 0x3F49CBA2, 0x3F47DD45, 0x3F45FCD6, 0x3F4429AF, 0x3F426337, 0x3F40A8DE, 0x3F3EFA1C, 0x3F3D5671, 0x3F3BBD67, 0x3F3A2E8C, 0x3F38A975, 0x3F372DBF, 0x3F35BB09]
  ++ [0x3F3450FC, 0x3F32EF41, 0x3F319589, 0x3F304387, 0x3F2EF8F2, 0x3F2DB587, 0x3F2C7904, 0x3F2B432A, 0x3F2A13C0, 0x3F28EA8C, 0x3F27C759, 0x3F26A9F4, 0x3F25922C, 0x3F247FD3, 0x3F2372BD, 0x3F226ABE]
  ++ [0x3F2167AF, 0x3F206968, 0x3F1F6FC4, 0x3F1E7AA0, 0x3F1D89D9, 0x3F1C9D4E, 0x3F1BB4E1, 0x3F1AD073, 0x3F19EFE6, 0x3F191320, 0x3F183A05, 0x3F17647C, 0x3F16926C, 0x3F15C3BC, 0x3F14F857, 0x3F143026]
  ++ [0x3F136B13, 0x3F12A90B, 0x3F11E9F9, 0x3F112DCA, 0x3F10746D, 0x3F0FBDCE, 0x3F0F09DD, 0x3F0E5889, 0x3F0DA9C2, 0x3F0CFD79, 0x3F0C539F, 0x3F0BAC25, 0x3F0B06FD, 0x3F0A641A, 0x3F09C36D, 0x3F0924EC]
  ++ [0x3F088889, 0x3F07EE37, 0x3F0755ED, 0x3F06BF9E, 0x3F062B40, 0x3F0598C7, 0x3F05082A, 0x3F04795F, 0x3F03EC5C, 0x3F036117, 0x3F02D788, 0x3F024FA6, 0x3F01C967, 0x3F0144C4, 0x3F00C1B4, 0x3F004030]

def f32One : Nat := 0x3F800000
def f32Inf : Nat := 0x7F800000
def f32NegInf : Nat := 0xFF800000
def f32Nan : Nat := 0x7FC00000
def f32Sign : Nat := 0x80000000

/-- Binary32 operations of R175, flags dropped: "intermediate steps raise no flag". -/
def tAdd (a b : Nat) : Nat := (fpAdd .fp32 .rne false a b).1
def tMul (a b : Nat) : Nat := (fpMul .fp32 .rne false a b).1
def tFma (a b c : Nat) : Nat := (fpFma .fp32 .rne false false false a b c).1
def tNeg (a : Nat) : Nat := fpNeg .fp32 a
def tSub (a b : Nat) : Nat := tAdd a (tNeg b)
/-- rne of an exact value. -/
def tRne (x : Num) : Nat := (FpFmt.fp32.ofNum .rne false x).1
/-- scale(y, n) of R175 and whether it overflowed. -/
def tScale (y : Nat) (n : Int) : Nat × Bool :=
  let r := FpFmt.fp32.ofNum .rne false ((FpFmt.fp32.decode y).scale n)
  (r.1, bit r.2 2)

/-- The two exact values are equal. -/
def numEq (a b : Num) : Bool := numCmp a b == some .eq

/-- The flags that R175 raises by the result alone: UNDERFLOW at every nonzero subnormal result, exact or not, where R116 asks in general that it
differ from the exact value (DEDUCED, assumption log 100: R175 speaks of VTR alone). -/
def tDone (r : Nat) (exact ovf : Bool) : Nat × Flags :=
  let sub := fpAbs .fp32 r < 2 ^ 23
  (r, (if exact then 0 else Flags.inexact) ||| (if ovf then Flags.overflow else 0)
    ||| (if sub && (decide (fpAbs .fp32 r ≠ 0) || !exact) then Flags.underflow else 0))

/-- poly(z; a1 … an) of R175, coefficients from an down to a1. -/
def tPoly (z : Nat) : List Nat → Nat
  | [] => 0
  | a :: t => t.foldl (fun acc c => tFma acc z c) a

/-- m and E with |x| = m × 2^E and m in [1, 2), as an exact value and an exponent. -/
def mantExp (m : Nat) (e : Int) : Num × Int := (.fin false m (-(Int.ofNat m.log2)), Int.ofNat m.log2 + e)

/-- floor((v − c) × k) for v = m × 2^e ≥ c, with c × 2^s = cn. -/
def tabIndex (v : Num) (cn s k : Nat) : Nat :=
  match v with
  | .fin _ m e => (m * 2 ^ e.toNat * 2 ^ s * k - cn * k * 2 ^ (-e).toNat) / (2 ^ s * 2 ^ (-e).toNat)
  | _ => 0

/-- EXP2 of a finite value, and of its infinities (R175). -/
def vtrExp2 (x : Nat) : Nat × Flags :=
  match FpFmt.fp32.decode x with
  | .nan => (f32Nan, Flags.nanMade)
  | .inf neg => (if neg then 0 else f32Inf, 0)
  | .fin neg m e =>
    let v := Num.fin neg m e
    if (numCmp v (.fin false 128 0)) != some .lt then (f32Inf, Flags.overflow ||| Flags.inexact)
    else if numCmp v (.fin true 150 0) == some .lt then (0, Flags.underflow ||| Flags.inexact)
    else if numCmp (.fin false m e) (.fin false 1 (-26)) == some .lt then
      (f32One, if m = 0 then 0 else Flags.inexact)
    else
      let k := rneInt (v.scale 6)
      let r := match dyAdd (sgnMant neg m, e) (-k, -6) with | (a, q) => tRne (.fin (decide (a < 0)) a.natAbs q)
      let j := (k % 64).toNat
      let n := (k - Int.ofNat j) / 64
      let p := tMul (tFma (tFma 0x3D635847 r 0x3E75FDF0) r 0x3F317218) r
      let t := tabT2.getD j 0
      let s := tScale (tFma t p t) n
      let isInt := numEq v (Num.ofInt (rneInt v))
      tDone s.1 (isInt && numEq (FpFmt.fp32.decode s.1) (.fin false 1 (rneInt v))) s.2

/-- LOG2 (R175). -/
def vtrLog2 (x : Nat) : Nat × Flags :=
  match FpFmt.fp32.decode x with
  | .nan => (f32Nan, Flags.nanMade)
  | .inf neg => if neg then (f32Nan, Flags.invalid ||| Flags.nanMade) else (f32Inf, 0)
  | .fin neg m e =>
    if m = 0 then (f32NegInf, Flags.divZero)
    else if neg then (f32Nan, Flags.invalid ||| Flags.nanMade)
    else
      let me := mantExp m e
      let big := numCmp me.1 (.fin false 3 (-1)) != some .lt
      let mm := if big then me.1.scale (-1) else me.1
      let E := if big then me.2 + 1 else me.2
      let j := tabIndex mm 3 2 128
      let t := match mm with
        | .fin _ a q => (match dyAdd (Int.ofNat a, q) (-(96 + Int.ofNat j), -7) with
          | (b, p) => tRne (.fin (decide (b < 0)) b.natAbs p))
        | _ => 0
      let u := tMul t (tabTI.getD j 0)
      let q := tMul (tFma (tFma (tFma 0xBEB8AA3B u 0x3EF6384F) u 0xBF38AA3B) u 0x3FB8AA3B) u
      let r := tAdd (tRne (Num.ofInt E)) (tAdd (tabTL.getD j 0) q)
      let pow2 := numEq me.1 (.fin false 1 0)
      tDone r (pow2 && numEq (FpFmt.fp32.decode r) (Num.ofInt me.2)) false

/-- RECIP (R175). -/
def vtrRecip (x : Nat) : Nat × Flags :=
  match FpFmt.fp32.decode x with
  | .nan => (f32Nan, Flags.nanMade)
  | .inf neg => (if neg then f32Sign else 0, 0)
  | .fin neg m e =>
    if m = 0 then (if neg then f32NegInf else f32Inf, Flags.divZero)
    else
      let me := mantExp m e
      let nm := tNeg (tRne me.1)
      let y0 := tabTR.getD (tabIndex me.1 1 0 128) 0
      let y1 := tFma y0 (tFma nm y0 f32One) y0
      let y2 := tFma y1 (tFma nm y1 f32One) y1
      let s := tScale y2 (-me.2)
      let r := FpFmt.fp32.decode s.1
      let exact := match numMul r (.fin false m e) with | .val p => numEq p (.fin false 1 0) | _ => false
      tDone (if neg then tNeg s.1 else s.1) exact s.2

/-- RSQRT (R175). -/
def vtrRsqrt (x : Nat) : Nat × Flags :=
  match FpFmt.fp32.decode x with
  | .nan => (f32Nan, Flags.nanMade)
  | .inf neg => if neg then (f32Nan, Flags.invalid ||| Flags.nanMade) else (0, 0)
  | .fin neg m e =>
    if m = 0 then (if neg then f32NegInf else f32Inf, Flags.divZero)
    else if neg then (f32Nan, Flags.invalid ||| Flags.nanMade)
    else
      let me := mantExp m e
      let odd := decide (me.2 % 2 ≠ 0)
      let mm := if odd then me.1.scale 1 else me.1
      let E := if odd then me.2 - 1 else me.2
      let nm := tNeg (tRne mm)
      let step := fun y => tFma (tMul y (tFma nm (tMul y y) f32One)) 0x3F000000 y
      let y := step (step (tabTS.getD (tabIndex mm 1 0 32) 0))
      let s := tScale y (-(E / 2))
      let r := FpFmt.fp32.decode s.1
      let exact := match numMul r r with
        | .val p => (match numMul p (.fin false m e) with | .val o => numEq o (.fin false 1 0) | _ => false)
        | _ => false
      tDone s.1 exact s.2

/-- SIN and COS (R175). -/
def vtrSinCos (cos : Bool) (x : Nat) : Nat × Flags :=
  match FpFmt.fp32.decode x with
  | .nan => (f32Nan, Flags.nanMade)
  | .inf _ => (f32Nan, Flags.invalid ||| Flags.nanMade)
  | .fin _ m e =>
    if m = 0 then (if cos then f32One else x, 0)
    else if numCmp (.fin false m e) (.fin false 1 (-12)) == some .lt then tDone (if cos then f32One else x) false false
    else
      let k := rneInt (FpFmt.fp32.decode (tMul x 0x3F22F983))
      let nk := tNeg (tRne (Num.ofInt k))
      let r := tFma nk 0x2E85A309 (tFma nk 0x37DAA200 (tFma nk 0x3FC90F00 x))
      let z := tMul r r
      let S := tFma (tMul z r) (tPoly z [0x3638EF1D, 0xB9500D01, 0x3C088889, 0xBE2AAAAB]) r
      let C := tFma z (tPoly z [0xB493F27E, 0x37D00D01, 0xBAB60B61, 0x3D2AAAAB, 0xBF000000]) f32One
      let q := (k % 4).toNat
      let res := if cos then (if q = 0 then C else if q = 1 then tNeg S else if q = 2 then tNeg C else S)
        else (if q = 0 then S else if q = 1 then C else if q = 2 then tNeg S else tNeg C)
      tDone res false false

/-- SIGMOID (R175); at ±0 the true value is exactly 1/2. -/
def vtrSigmoid (x : Nat) : Nat × Flags :=
  match FpFmt.fp32.decode x with
  | .nan => (f32Nan, Flags.nanMade)
  | .inf neg => (if neg then 0 else f32One, 0)
  | .fin _ m _ =>
    let t := (vtrExp2 (tMul (tNeg x) 0x3FB8AA3B)).1
    let r := (vtrRecip (tAdd f32One t)).1
    tDone r (decide (m = 0) && decide (r = 0x3F000000)) false

/-- TANH (R175). -/
def vtrTanh (x : Nat) : Nat × Flags :=
  match FpFmt.fp32.decode x with
  | .nan => (f32Nan, Flags.nanMade)
  | .inf neg => (if neg then f32One + f32Sign else f32One, 0)
  | .fin neg m e =>
    let v := Num.fin false m e
    if numCmp v (.fin false 1 (-12)) == some .lt then (if m = 0 then (x, 0) else tDone x false false)
    else if numCmp v (.fin false 9 0) != some .lt then tDone (if neg then f32One + f32Sign else f32One) false false
    else
      let t := (vtrExp2 (tMul (tMul 0xC0000000 (fpAbs .fp32 x)) 0x3FB8AA3B)).1
      let r := tMul (tSub f32One t) ((vtrRecip (tAdd f32One t)).1)
      tDone (if neg then tNeg r else r) false false

/-- VTR by sub-operation (R175). -/
def vtr (sub : Nat) (x : Nat) : Nat × Flags :=
  match sub with
  | 0 => vtrExp2 x
  | 1 => vtrLog2 x
  | 2 => vtrRecip x
  | 3 => vtrRsqrt x
  | 4 => vtrTanh x
  | 5 => vtrSigmoid x
  | 6 => vtrSinCos false x
  | _ => vtrSinCos true x

end Sys2Proof.Machine
end

