-- ==== Sys2Proof/Machine/VxeOps.lean ====
section
/-! DEFINITION. The vector engine's instructions over its registers (R156–R188). -/

namespace Sys2Proof.Machine

/-- A lane of a vector register. -/
def Vxe.lane (x : Vxe) (r l : Nat) : W32 := x.v.get 0 (64 * r + l)

/-- A mask register; k0 reads as all ones (R156). -/
def Vxe.mask (x : Vxe) (k : Nat) : W64 := if k = 0 then BitVec.allOnes 64 else x.k.get 0 k

/-- What an instruction produces: lanes written, masks written, flags per lane, and the registers it read, whose poison
travels to what it writes (R167, R169). `wr` lists registers that poison reaches though no lane of them is written
(R170, R183). -/
structure VRes where
  vw : List (Nat × Nat × W32) := []
  kw : List (Nat × W64) := []
  lf : List (Nat × Flags) := []
  srcV : List Nat := []
  srcK : List Nat := []
  poison : Bool := false
  wr : List Nat := []
  deriving DecidableEq, Repr

/-- A written vector register's poison bit after the instruction (R169): set when poison was read, cleared when all 64
lanes were written without, kept otherwise. -/
def Vxe.vPoisonAfter (x : Vxe) (r : VRes) (p : Bool) (reg : Nat) : Bool :=
  if p then true
  else if 64 ≤ (r.vw.filter (fun w => w.1 == reg)).length then false
  else bit x.vpoison reg

/-- A result written back (R167, R169); writes to k0 are ignored. -/
def Vxe.apply (x : Vxe) (r : VRes) : Vxe :=
  let p := r.poison || r.srcV.any (fun v => bit x.vpoison v) || r.srcK.any (fun k => decide (k ≠ 0) && bit x.kpoison k)
  let regs := (r.vw.map (·.1) ++ r.wr).eraseDups
  { x with
    v := r.vw.foldl (fun t w => Table.put 0 t (64 * w.1 + w.2.1) w.2.2) x.v
    k := r.kw.foldl (fun t w => if w.1 = 0 then t else Table.put 0 t w.1 w.2) x.k
    vpoison := regs.foldl (fun b g => if x.vPoisonAfter r p g then setBit b g else clrBit b g) x.vpoison
    kpoison := r.kw.foldl (fun b w => if w.1 = 0 then b else if p then setBit b w.1 else clrBit b w.1) x.kpoison }

/-- Fields of the VXE word (R162). -/
def vSub (w : Insn) : Nat := fld w 111 107
def vKm (w : Insn) : Nat := fld w 105 103
def vImm (w : Insn) : Nat := fld w 95 64
def vVD (w : Insn) : Nat := fld w 4 0
def vVA (w : Insn) : Nat := fld w 9 5
def vVB (w : Insn) : Nat := fld w 14 10
def vVC (w : Insn) : Nat := fld w 19 15
def vKD (w : Insn) : Nat := fld w 22 20

/-- The lanes whose KM bit is 1 (R167). -/
def Vxe.active (x : Vxe) (w : Insn) : List Nat := (List.range 64).filter (fun l => bit (x.mask (vKm w)) l)

/-- Source B, or the immediate where ISEL = 1 (R160). -/
def Vxe.srcB (x : Vxe) (w : Insn) (l : Nat) : Nat := if fld w 102 101 = 1 then vImm w else (x.lane (vVB w) l).toNat
/-- Source C, or the immediate where ISEL = 2 (R160). -/
def Vxe.srcC (x : Vxe) (w : Insn) (l : Nat) : Nat := if fld w 102 101 = 2 then vImm w else (x.lane (vVC w) l).toNat

/-- One element of VFA in format f (R163). -/
def vfaElem (f : FpFmt) (rnd : Rnd) (sat : Bool) (sub a b c : Nat) : Nat × Flags :=
  match sub with
  | 0 => fpAdd f rnd sat a b
  | 1 => fpAdd f rnd sat a (fpNeg f b)
  | 2 => fpMul f rnd sat a b
  | 3 => fpFma f rnd sat false false a b c
  | 4 => fpFma f rnd sat false true a b c
  | 5 => fpFma f rnd sat true false a b c
  | 6 => fpDiv a b
  | 7 => fpSqrt a
  | 8 => fpMinMax f false a b
  | 9 => fpMinMax f true a b
  | 10 => (fpAbs f a, 0)
  | _ => (fpNeg f a, 0)

/-- One lane of VFA, unpacked or packed. -/
def vfaLane (w : Insn) (key : SrKey) (l a b c : Nat) : Nat × Flags :=
  if bit w 106 then
    let rnd := fun p => key.rnd (fld w 98 97) (vImm w) p
    let lo := vfaElem .bf16 (rnd (2 * l)) (bit w 96) (vSub w) (a % 65536) (b % 65536) (c % 65536)
    let hi := vfaElem .bf16 (rnd (2 * l + 1)) (bit w 96) (vSub w) (a / 65536) (b / 65536) (c / 65536)
    (lo.1 + 65536 * hi.1, lo.2 ||| hi.2)
  else vfaElem .fp32 .rne false (vSub w) a b c

/-- VFA reads b; VFA reads c. -/
def vfaReadsB (sub : Nat) : Bool := sub != 7 && sub != 10 && sub != 11
def vfaReadsC (sub : Nat) : Bool := sub == 3 || sub == 4 || sub == 5

/-- The vector registers read through A, B and C. -/
def vSrcs (w : Insn) (b c : Bool) : List Nat :=
  [vVA w] ++ (if b && decide (fld w 102 101 ≠ 1) then [vVB w] else []) ++ (if c && decide (fld w 102 101 ≠ 2) then [vVC w] else [])

/-- Lane-wise results under KM into VD. -/
def Vxe.laneWise (x : Vxe) (w : Insn) (srcV : List Nat) (f : Nat → Nat × Flags) : VRes :=
  let rs := (x.active w).map (fun l => (l, f l))
  { vw := rs.map (fun r => (vVD w, r.1, BitVec.ofNat 32 r.2.1)), lf := rs.map (fun r => (r.1, r.2.2)),
    srcV := srcV, srcK := [vKm w] }

/-- VFA (R163). -/
def Vxe.vfa (x : Vxe) (w : Insn) (key : SrKey) : VRes :=
  x.laneWise w (vSrcs w (vfaReadsB (vSub w)) (vfaReadsC (vSub w)))
    (fun l => vfaLane w key l (x.lane (vVA w) l).toNat (x.srcB w l) (x.srcC w l))

/-- Saturation to the INT32 range with its flags (R164). -/
def sat32 (v : Int) : Nat × Flags :=
  if v < -2147483648 then (0x80000000, Flags.saturated ||| Flags.inexact)
  else if 2147483647 < v then (0x7FFFFFFF, Flags.saturated ||| Flags.inexact)
  else (intMod 32 v, 0)

/-- One lane of VIA (R164). -/
def viaLane (sub a b : Nat) : Nat × Flags :=
  let sa := signedOf 32 a
  let sb := signedOf 32 b
  match sub with
  | 0 => ((a + b) % 2 ^ 32, 0)
  | 1 => (intMod 32 (sa - sb), 0)
  | 2 => (a * b % 2 ^ 32, 0)
  | 3 => sat32 (sa + sb)
  | 4 => sat32 (sa - sb)
  | 5 => (if sa ≤ sb then a else b, 0)
  | 6 => (if sa ≤ sb then b else a, 0)
  | 7 => (min a b, 0)
  | 8 => (max a b, 0)
  | 9 => (a &&& b, 0)
  | 10 => (a ||| b, 0)
  | 11 => (a ^^^ b, 0)
  | 12 => (a &&& (2 ^ 32 - 1 - b), 0)
  | 13 => (a * 2 ^ (b % 32) % 2 ^ 32, 0)
  | 14 => (a / 2 ^ (b % 32), 0)
  | 15 => (intMod 32 (sa / (2 ^ (b % 32) : Nat)), 0)
  | _ => if sa < 0 then sat32 (-sa) else (a, 0)

/-- VIA (R164). -/
def Vxe.via (x : Vxe) (w : Insn) : VRes :=
  x.laneWise w (vSrcs w (vSub w != 16) false) (fun l => viaLane (vSub w) (x.lane (vVA w) l).toNat (x.srcB w l))

/-- One compare (R165). -/
def vcmpLane (sub a b : Nat) : Bool :=
  let c := numCmp (FpFmt.fp32.decode a) (FpFmt.fp32.decode b)
  let sa := signedOf 32 a
  let sb := signedOf 32 b
  match sub with
  | 0 => c == some .eq
  | 1 => c != some .eq
  | 2 => c == some .lt
  | 3 => c == some .lt || c == some .eq
  | 4 => c == some .gt
  | 5 => c == some .gt || c == some .eq
  | 6 => c == none
  | 8 => a == b
  | 9 => a != b
  | 10 => decide (sa < sb)
  | 11 => decide (sa ≤ sb)
  | 12 => decide (a < b)
  | _ => decide (a ≤ b)

/-- The word whose set bits are a list. -/
def maskOf (ls : List Nat) : W64 := ls.foldl setBit 0

/-- VCMP (R165). -/
def Vxe.vcmp (x : Vxe) (w : Insn) : VRes :=
  { kw := [(vKD w, maskOf ((x.active w).filter (fun l => vcmpLane (vSub w) (x.lane (vVA w) l).toNat (x.srcB w l))))],
    srcV := vSrcs w true false, srcK := [vKm w] }

/-- VSEL (R166). -/
def Vxe.vsel (x : Vxe) (w : Insn) : VRes :=
  let m := x.mask (fld w 17 15)
  { x.laneWise w (vSrcs w true false) (fun l => (if bit m l then (x.lane (vVA w) l).toNat else x.srcB w l, 0)) with
    srcK := [vKm w, fld w 17 15] }

/-- VKOP (R166): ignores KM. -/
def Vxe.vkop (x : Vxe) (w : Insn) : VRes :=
  let ka := fld w 7 5
  let kb := fld w 12 10
  let a := x.mask ka
  let b := x.mask kb
  let old := x.mask (vKD w)
  match vSub w with
  | 0 => { kw := [(vKD w, a &&& b)], srcK := [ka, kb] }
  | 1 => { kw := [(vKD w, a ||| b)], srcK := [ka, kb] }
  | 2 => { kw := [(vKD w, a ^^^ b)], srcK := [ka, kb] }
  | 3 => { kw := [(vKD w, a &&& ~~~b)], srcK := [ka, kb] }
  | 4 => { kw := [(vKD w, ~~~a)], srcK := [ka] }
  | 5 => { kw := [(vKD w, setFld old 31 0 (vImm w))], srcK := [vKD w] }
  | 6 => { kw := [(vKD w, setFld old 63 32 (vImm w))], srcK := [vKD w] }
  | _ => { kw := [(vKD w, maskOf ((List.range 64).filter (fun l => decide (x.lane (vVA w) l ≠ 0))))], srcV := [vVA w] }

/-- VTR (R175). -/
def Vxe.vtr (x : Vxe) (w : Insn) : VRes :=
  x.laneWise w [vVA w] (fun l => Machine.vtr (vSub w) (x.lane (vVA w) l).toNat)

/-- VIOTA (R166). -/
def Vxe.viota (x : Vxe) (w : Insn) : VRes :=
  x.laneWise w [] (fun l => (intMod 32 (Int.ofNat (vImm w) + Int.ofNat l * signedOf 16 (fld w 63 48)), 0))

/-- VROT (R166). -/
def Vxe.vrot (x : Vxe) (w : Insn) : VRes :=
  x.laneWise w [vVA w] (fun l => ((x.lane (vVA w) ((l + vImm w % 64) % 64)).toNat, 0))

/-! ### Reductions and scans (R176–R180) -/

/-- An element under a scan operator: the value (a for AFFINE), b of AFFINE, the segment-start bit, and the flags of every
combine that formed it. -/
structure ScanEl where
  a : Nat
  b : Nat
  f : Bool
  fl : Flags
  poison : Bool := false
  deriving DecidableEq, Repr

/-- x ⊕ y without lifting (R176). -/
def scanOp (op : Nat) (x y : ScanEl) : ScanEl :=
  let fl := x.fl ||| y.fl
  let p := x.poison || y.poison
  match op with
  | 0 => let r := fpAdd .fp32 .rne false x.a y.a; ⟨r.1, 0, false, fl ||| r.2, p⟩
  | 1 => ⟨(x.a + y.a) % 2 ^ 32, 0, false, fl, p⟩
  | 2 => let r := fpMinMax .fp32 true x.a y.a; ⟨r.1, 0, false, fl ||| r.2, p⟩
  | 3 => let r := fpMinMax .fp32 false x.a y.a; ⟨r.1, 0, false, fl ||| r.2, p⟩
  | 4 => ⟨if signedOf 32 x.a ≤ signedOf 32 y.a then y.a else x.a, 0, false, fl, p⟩
  | 5 => ⟨if signedOf 32 x.a ≤ signedOf 32 y.a then x.a else y.a, 0, false, fl, p⟩
  | _ =>
    let m := fpMul .fp32 .rne false x.a y.a
    let r := fpFma .fp32 .rne false false false y.a x.b y.b
    ⟨m.1, r.1, false, fl ||| m.2 ||| r.2, p⟩

/-- x ⊕ y, lifted over segment starts when `seg` (R179). -/
def scanComb (op : Nat) (seg : Bool) (x y : ScanEl) : ScanEl :=
  if seg then
    (if y.f then { y with f := true } else { scanOp op x y with f := x.f })
  else scanOp op x y

/-- Combining with an absent element returns the other operand unchanged (R177). -/
def combOpt (op : Nat) (seg : Bool) : Option ScanEl → Option ScanEl → Option ScanEl
  | none, y => y
  | x, none => x
  | some x, some y => some (scanComb op seg x y)

/-- T(lo, lo + 2^k) of R177. -/
def scanTree (op : Nat) (seg : Bool) (el : Nat → Option ScanEl) (lo : Nat) : Nat → Option ScanEl
  | 0 => el lo
  | k + 1 => combOpt op seg (scanTree op seg el lo k) (scanTree op seg el (lo + 2 ^ k) k)

/-- P(n) of R177 over the bits of n below `m`. -/
def scanPrefix (op : Nat) (seg : Bool) (el : Nat → Option ScanEl) (n : Nat) : Nat → Option ScanEl × Nat → Option ScanEl
  | 0, p => p.1
  | m + 1, p =>
    if n.testBit m then scanPrefix op seg el n m (combOpt op seg p.1 (scanTree op seg el p.2 m), p.2 + 2 ^ m)
    else scanPrefix op seg el n m p

/-- The element of lane l read from VA, and VB for AFFINE. -/
def Vxe.scanEl (x : Vxe) (w : Insn) (f : Bool) (l : Nat) : ScanEl :=
  ⟨(x.lane (vVA w) l).toNat, (x.lane (vVB w) l).toNat, f, 0, false⟩

/-- Registers an AFFINE or plain operator reads and writes. -/
def scanSrcs (w : Insn) : List Nat := if vSub w / 4 = 6 then [vVA w, vVB w] else [vVA w]

/-- A scan element written to lane l of VD, and of VD + 1 for AFFINE. -/
def scanOut (w : Insn) (l : Nat) (e : ScanEl) : List (Nat × Nat × W32) :=
  (vVD w, l, BitVec.ofNat 32 e.a) :: (if vSub w / 4 = 6 then [(vVD w + 1, l, BitVec.ofNat 32 e.b)] else [])

/-- VRED (R178). -/
def Vxe.vred (x : Vxe) (w : Insn) : VRes :=
  let act := x.active w
  let el := fun l => if act.contains l then some (x.scanEl w false l) else none
  match scanTree (vSub w / 4) false el 0 6 with
  | none => {}
  | some e => { vw := act.flatMap (fun l => scanOut w l e), lf := act.map (fun l => (l, e.fl)), srcV := scanSrcs w, srcK := [vKm w] }

/-- VSCAN (R179). -/
def Vxe.vscan (x : Vxe) (w : Insn) : VRes :=
  let seg := bit w 108
  let carry := bit w 107
  let op := vSub w / 4
  let sm := x.mask (fld w 17 15)
  let act := x.active w
  let el := fun l => if l < 64 ∧ act.contains l then some (x.scanEl w (seg && bit sm l) l) else none
  let c : Option ScanEl := if carry
    then some ⟨(x.lane (vVC w) 63).toNat, (x.lane (vVC w + 1) 63).toNat, false, 0, false⟩ else none
  let res := act.map (fun l => (l, combOpt op seg c (scanPrefix op seg el (l + 1) 7 (none, 0))))
  { vw := res.flatMap (fun r => match r.2 with | some e => scanOut w r.1 e | none => []),
    lf := res.map (fun r => (r.1, match r.2 with | some e => e.fl | none => 0)),
    srcV := scanSrcs w ++ (if carry then (if op = 6 then [vVC w, vVC w + 1] else [vVC w]) else []),
    srcK := [vKm w] ++ (if seg then [fld w 17 15] else []) }

/-- VCOMB (R180). -/
def Vxe.vcomb (x : Vxe) (w : Insn) : VRes :=
  let op := vSub w / 4
  let one := fun l => if op = 6
    then scanOp 6 ⟨(x.lane (vVA w) l).toNat, (x.lane (vVA w + 1) l).toNat, false, 0, false⟩
      ⟨(x.lane (vVB w) l).toNat, (x.lane (vVB w + 1) l).toNat, false, 0, false⟩
    else scanOp op ⟨(x.lane (vVA w) l).toNat, 0, false, 0, false⟩ ⟨x.srcB w l, 0, false, 0, false⟩
  let res := (x.active w).map (fun l => (l, one l))
  { vw := res.flatMap (fun r => scanOut w r.1 r.2), lf := res.map (fun r => (r.1, r.2.fl)),
    srcV := if op = 6 then [vVA w, vVA w + 1, vVB w, vVB w + 1] else vSrcs w true false, srcK := [vKm w] }

/-! ### Conversions (R171–R174) -/

/-- A vector register as one number, lane 0 lowest. -/
def Vxe.regNat (x : Vxe) (r : Nat) : Nat := ofLE ((List.range 256).map (fun i =>
  BitVec.ofNat 8 ((x.lane r (i / 4)).toNat / 256 ^ (i % 4))))

/-- The lanes of register r that differ under a mask: every lane with a masked bit is written. -/
def maskedLanes (r old val mask : Nat) : List (Nat × Nat × W32) :=
  ((List.range 64).filter (fun l => decide (mask / 2 ^ (32 * l) % 2 ^ 32 ≠ 0))).map (fun l =>
    let m := mask / 2 ^ (32 * l) % 2 ^ 32
    let o := old / 2 ^ (32 * l) % 2 ^ 32
    let v := val / 2 ^ (32 * l) % 2 ^ 32
    (r, l, BitVec.ofNat 32 ((o &&& (2 ^ 32 - 1 - m)) ||| (v &&& m))))

/-- Values and mask of a list of codes of `b` bits placed in a bit string (R98). -/
def placeCodes (b : Nat) (cs : List (Nat × Nat)) : Nat × Nat :=
  cs.foldl (fun p c => (p.1 + c.2 % 2 ^ b * 2 ^ (b * c.1), p.2 + (2 ^ b - 1) * 2 ^ (b * c.1))) (0, 0)

/-- The source value of output element i of a narrowing (R172). -/
def Vxe.narrowSrc (x : Vxe) (w : Insn) (s : Fmt) (g i : Nat) : Num :=
  s.decode (some 0) (x.lane (vVA w + i % g) (i / g)).toNat

/-- A narrowing to a format without a block scale (R172). -/
def Vxe.narrowPlain (x : Vxe) (w : Insn) (key : SrKey) (s d : Fmt) (g : Nat) : VRes :=
  let act := x.active w
  let rs := ((List.range (64 * g)).filter (fun i => act.contains (i / g))).map (fun i =>
    (i, d.convert (key.rnd (fld w 98 97) (vImm w) i) (bit w 96) (s == .int32) (fld w 36 32) (x.narrowSrc w s g i)))
  let pv := placeCodes d.bits (rs.map (fun r => (r.1, r.2.1)))
  { vw := maskedLanes (vVD w) (x.regNat (vVD w)) pv.1 pv.2, lf := rs.map (fun r => (r.1 / g, r.2.2)),
    srcV := (List.range g).map (· + vVA w), srcK := [vKm w] }

/-- One block of a narrowing: its present elements, their codes and flags, and its scale byte (R172, R174). -/
def Vxe.narrowBlock (x : Vxe) (w : Insn) (key : SrKey) (s d : Fmt) (g j : Nat) : List (Nat × Nat × Flags) × Option Byte :=
  let act := x.active w
  let idx := ((List.range 32).map (· + 32 * j)).filter (fun i => act.contains (i / g))
  if idx = [] then ([], none)
  else
    let o := d.block (idx.map (fun i => (x.narrowSrc w s g i, key.rnd (fld w 98 97) (vImm w) i)))
    (idx.zipIdx.map (fun p => (p.1, o.codes.getD p.2 0, o.flags.getD p.2 0 ||| o.blockFlags)), some o.scale)

/-- A narrowing to an MX format or T2 (R172). -/
def Vxe.narrowScaled (x : Vxe) (w : Insn) (key : SrKey) (s d : Fmt) (g : Nat) : VRes :=
  let bs := (List.range (2 * g)).map (fun j => (j, x.narrowBlock w key s d g j))
  let els := bs.flatMap (fun b => b.2.1)
  let pv := placeCodes d.bits (els.map (fun e => (e.1, e.2.1)))
  let sc := bs.filterMap (fun b => b.2.2.map (fun v => (b.1, v.toNat)))
  let sv := placeCodes 8 sc
  { vw := maskedLanes (vVD w) (x.regNat (vVD w)) pv.1 pv.2 ++ maskedLanes (vVC w) (x.regNat (vVC w)) sv.1 sv.2,
    lf := els.map (fun e => (e.1 / g, e.2.2)), srcV := (List.range g).map (· + vVA w), srcK := [vKm w] }

/-- A widening (R173, R174). -/
def Vxe.widen (x : Vxe) (w : Insn) (s d : Fmt) (g : Nat) : VRes :=
  let act := x.active w
  let src := x.regNat (vVA w)
  let scl := x.regNat (vVB w)
  let one := fun i =>
    let code := src / 2 ^ (s.bits * i) % 2 ^ s.bits
    let E := if s.scaled then scaleExp (BitVec.ofNat 8 (scl / 256 ^ (i / 32))) else some 0
    d.convert .rne (bit w 96) true 0 (s.decode E code)
  let rs := ((List.range (64 * g)).filter (fun i => act.contains (i / g))).map (fun i => (i, one i))
  { vw := rs.map (fun r => (vVD w + r.1 % g, r.1 / g, BitVec.ofNat 32 r.2.1)), lf := rs.map (fun r => (r.1 / g, r.2.2)),
    srcV := [vVA w] ++ (if s.scaled then [vVB w] else []), srcK := [vKm w] }

/-- VCVT (R171). -/
def Vxe.vcvt (x : Vxe) (w : Insn) (key : SrKey) : VRes :=
  match Fmt.ofCode (fld w 27 24), Fmt.ofCode (fld w 31 28) with
  | some s, some d =>
    match vSub w with
    | 0 => x.laneWise w [vVA w] (fun l =>
        let v := (x.lane (vVA w) l).toNat
        if s == .int32 && d == .int32 then (v, 0)
        else d.convert (key.rnd (fld w 98 97) (vImm w) l) (bit w 96) (s == .int32) 0 (s.decode (some 0) v))
    | 1 => match d.group with
      | some g => if d.scaled then x.narrowScaled w key s d g else x.narrowPlain w key s d g
      | none => {}
    | _ => match s.group with
      | some g => x.widen w s d g
      | none => {}
  | _, _ => {}

/-- The byte address of lane l in VLD and VST (R168). -/
def vAddr (w : Insn) (l : Nat) : Nat := fld w 47 24 + 4 * l * fld w 63 48

/-- The ranges VLD and VST touch: the active lanes' words. -/
def Vxe.memRanges (x : Vxe) (w : Insn) : List (Nat × Nat) := (x.active w).map (fun l => (vAddr w l, 4))

/-- VLD (R168, R169). -/
def Vxe.vld (x : Vxe) (w : Insn) (s : Spm) : Spm × VRes :=
  let r := s.readWords ((x.active w).map (vAddr w))
  (r.1, { vw := ((x.active w).zip r.2.1).map (fun p => (vVD w, p.1, p.2)), srcK := [vKm w], poison := r.2.2 })

/-- VST (R168, R169). -/
def Vxe.vst (x : Vxe) (w : Insn) (s : Spm) : Spm :=
  s.writeWords ((x.active w).map (fun l => (vAddr w l, x.lane (vVA w) l))) (bit x.vpoison (vVA w))

/-- VDQPOP from a row (R170). -/
def vdqpop (w : Insn) (r : DqRow) : VRes :=
  { vw := ((List.range 64).filter (fun l => bit r.live l)).map (fun l => (vVD w, l, r.lanes.getD l 0)),
    kw := [(vKD w, r.live)], poison := r.poison, wr := [vVD w] }

/-- The register-only instructions by kind (R163–R180). -/
def Vxe.compute (x : Vxe) (k : InsnKind) (w : Insn) (key : SrKey) : VRes :=
  match k with
  | .vfa => x.vfa w key
  | .via => x.via w
  | .vcmp => x.vcmp w
  | .vsel => x.vsel w
  | .vkop => x.vkop w
  | .vcvt => x.vcvt w key
  | .vtr => x.vtr w
  | .vred => x.vred w
  | .vscan => x.vscan w
  | .vcomb => x.vcomb w
  | .viota => x.viota w
  | .vrot => x.vrot w
  | _ => {}

/-- Flags per lane gathered into a table. -/
def laneFlags (lf : List (Nat × Flags)) : Table Byte :=
  lf.foldl (fun t f => if f.2 = 0 then t else Table.upd 0 t f.1 (· ||| f.2)) []

/-- Flags of a completed instruction ORed into VXE_LFLAGS, and their OR (R185). -/
def Vxe.orFlags (x : Vxe) (lf : Table Byte) : Vxe × Byte :=
  ({ x with lflags := lf.foldl (fun t kv => Table.upd 0 t kv.1 (· ||| kv.2)) x.lflags }, lf.foldl (fun a kv => a ||| kv.2) 0)

/-- The vector registers an instruction writes (R162). -/
def vDests (k : InsnKind) (w : Insn) : List Nat :=
  let aff := decide (vSub w / 4 = 6)
  match k with
  | .vst | .vcmp | .vkop => []
  | .vred | .vscan | .vxscan | .vcomb => if aff then [vVD w, vVD w + 1] else [vVD w]
  | .vcvt =>
    match Fmt.ofCode (fld w 27 24), Fmt.ofCode (fld w 31 28) with
    | some s, some d => if vSub w = 2 then (List.range (s.group.getD 1)).map (· + vVD w)
        else if d.scaled then [vVD w, vVC w] else [vVD w]
    | _, _ => [vVD w]
  | _ => [vVD w]

/-- The destinations of abandoned instructions, undefined (R188). -/
def Vxe.scramble (x : Vxe) (site : Nat) (is : List QInsn) : Vxe :=
  is.foldl (fun x i =>
    match insnKind i.w with
    | none => x
    | some k =>
      let x := (vDests k i.w).foldl (fun x r => { x with v := (List.range 64).foldl (fun t l =>
        Table.put 0 t (64 * r + l) (Config.free32 site (64 * r + l))) x.v }) x
      if (k == .vcmp || k == .vkop || k == .vxscan || k == .vdqpop) && decide (vKD i.w ≠ 0)
      then { x with k := x.k.put 0 (vKD i.w) (Config.freeWord (site + 1) (vKD i.w)) } else x) x

/-- Instructions the VXE has started and not completed. -/
def Vxe.started (x : Vxe) : List QInsn :=
  x.run.map (·.insn) ++ (match x.wait with | .none => [] | .row i => [i] | .prefix_ i => [i])

/-- What an exception leaves of the vector engine (R188). -/
def Vxe.abandon (x : Vxe) (site : Nat) : Vxe :=
  { x.scramble site x.started with q := [], run := [], wait := .none }

/-- Tile reset of the vector engine (R187). -/
def Vxe.reset : Vxe := {}

end Sys2Proof.Machine
end

