-- ==== Sys2Proof/Machine/TileOps.lean ====
section
/-! DEFINITION. A tile within the panel: exceptions, issue, result words, the looper's ends, fences, channel membership,
tile reset (R189–R215). -/

namespace Sys2Proof.Machine

/-- Tile `t`. -/
def State.tile (s : State) (t : Nat) : Tile := s.tiles.get {} t
/-- Tile `t` set. -/
def State.setTile (s : State) (t : Nat) (x : Tile) : State := { s with tiles := s.tiles.put {} t x }
/-- Tile `t` changed. -/
def State.updTile (s : State) (t : Nat) (f : Tile → Tile) : State := s.setTile t (f (s.tile t))
/-- Node `n`. -/
def State.node (s : State) (n : Nat) : Node := s.nodes.get {} n
/-- Node `n` changed. -/
def State.updNode (s : State) (n : Nat) (f : Node → Node) : State := { s with nodes := s.nodes.upd {} n f }
/-- Something sent. -/
def State.emit (s : State) (o : Out) : State := { s with out := s.out ++ [o] }
/-- A control message sent to hub firmware from die-cell `n` (R308). -/
def State.report (s : State) (n : Nat) (m : CtlMsg) : State := { s with ctlq := s.ctlq ++ [⟨n, .msg m⟩] }
/-- The free-value counter moved past the 64 sites of one drawing. -/
def State.drawn (s : State) : State := { s with freeCtr := s.freeCtr + 64 }
/-- Time moved on to a due instant. -/
def State.till (s : State) (t : Nat) : State := { s with now := max s.now t }

/-- Undefined bytes over ranges, each at its own site. -/
def Spm.scrambleAll (s : Spm) (site : Nat) (rs : List (Nat × Nat)) : Spm :=
  (rs.zipIdx.foldl (fun (s : Spm) r => s.scramble (site + r.2) r.1.1 r.1.2) s)

/-- The scratchpad bytes that abandoned work leaves undefined (R153, R188): those of drains in progress and of VSTs. -/
def Tile.abandonedRanges (x : Tile) : List (Nat × Nat) :=
  x.mxa.drains.flatMap (·.mem)
    ++ (x.vxe.run.filter (fun r => insnKind r.insn.w == some .vst)).flatMap (·.mem)

/-- A tile takes an exception (R213): the record, the engines' abandoned work, the report. A later fault sets MORE. -/
def State.raise (s : State) (t : Nat) (code : BitVec 4) (unit pc : Nat) : State :=
  let x := s.tile t
  if x.seq.st = .exc then s.setTile t { x with seq := { x.seq with excMore := true } }
  else
    let c := s.freeCtr
    let x' := { x with
      seq := { x.seq with st := .exc, hold := .none, excCode := code, excPc := BitVec.ofNat 11 pc, excUnit := BitVec.ofNat 3 unit }
      mxa := x.mxa.abandon c
      vxe := x.vxe.abandon (c + 8)
      spm := x.spm.scrambleAll (c + 10) x.abandonedRanges }
    ((s.setTile t x').report (tileDie t) (.exception t code (BitVec.ofNat 11 pc) (BitVec.ofNat 3 unit))).drawn

/-- ILLEGAL_INSN, LOOP_FAULT, IFETCH_POISON, REMOTE_FAULT, DQ_EMPTY, SYNC_MISMATCH and the bank fault (R212). -/
def exIllegal : BitVec 4 := 1
def exLoop : BitVec 4 := 2
def exIfetch : BitVec 4 := 3
def exRemote : BitVec 4 := 4
def exDqEmpty : BitVec 4 := 5
def exMismatch : BitVec 4 := 6
def exBank : BitVec 4 := 7

/-- A refused local access (R241): SPM_FAULT and exception 0x7. -/
def State.bankFault (s : State) (t : Nat) (f : Nat × Nat) (unit pc : Nat) : State :=
  (s.updTile t (fun x => { x with spm := x.spm.recordFault f.1 f.2 unit })).raise t exBank unit pc

/-- Bytes a unit of the tile writes into its scratchpad, or the fault. -/
def State.tileWrite (s : State) (t unit pc off : Nat) (bs : List Byte) (poison : Bool) : State :=
  match (s.tile t).spm.refused off bs.length with
  | some f => s.bankFault t f unit pc
  | none => s.updTile t (fun x => { x with spm := x.spm.write off bs poison })

/-- The results of closes that ended (R204): the word of each, as the window now stands. -/
def State.closeResults (s : State) (t : Nat) : List (Nat × ClosePend) → State
  | [] => s
  | (i, p) :: r =>
    let s' := match p.dest with
      | .tileWord raddr pc =>
        let w := { (s.tile t).w.window i with gen := p.gen }
        let w := if ((s.tile t).w.window i).gen = p.gen then (s.tile t).w.window i else { w with st := .closed }
        s.tileWrite t 0 pc raddr (bytesLE 4 (resultWord w i p.status)) false
      | _ => s
    State.closeResults s' t r

/-- Closes of tile `t` that can end, end (R70, R72). -/
def State.settleTile (s : State) (t : Nat) : State :=
  let x := s.tile t
  let r := x.w.settle (x.w.rounds)
  (s.setTile t { x with w := r.1 }).closeResults t (byOrder r.2)

/-- Counter `c` of tile `t` raised by `k`, with what that closes. -/
def State.tileBump (s : State) (t c k : Nat) : State := (s.updTile t (fun x => { x with w := x.w.bump c k })).settleTile t

/-! ### Predicates and loops (R194, R198–R201) -/

/-- Level `L`. -/
def Looper.level (l : Looper) (L : Nat) : LoopLevel := l.lev.get {} L

/-- Predicate register `p` (R194). -/
def Tile.pred (x : Tile) (p : Nat) : Bool :=
  if p = 0 then true
  else if p < 8 then bit x.seq.pred p
  else
    let v := x.loop.level (p % 4)
    if p < 12 then v.active && decide (v.i = 0) else v.active && decide (v.i + 1 = v.n)

/-- SEQ_PRED (R215). -/
def Tile.predWord (x : Tile) : Nat := (List.range 16).foldl (fun a p => a + b2n (x.pred p) * 2 ^ p) 0

/-- The instruction's predicate holds (R194). -/
def Tile.executes (x : Tile) (w : Insn) : Bool := x.pred (fld w 119 116) != bit w 115

/-- The most recently started active level whose body ends at `i`. -/
def Looper.endsAt (l : Looper) (i : Nat) : Option Nat :=
  (List.range 4).foldl (fun (a : Option Nat) L =>
    let v := l.level L
    if v.active && decide (v.last = i) then
      match a with
      | some b => if (l.level b).start < v.start then some L else some b
      | none => some L
    else a) none

/-- The ends at index `i` resolved (R199): the looper after them and the next index. -/
def Looper.resolve (l : Looper) (i : Nat) : Nat → Looper × Nat
  | 0 => (l, i + 1)
  | n + 1 =>
    match l.endsAt i with
    | none => (l, i + 1)
    | some L =>
      let v := l.level L
      if v.i + 1 < v.n then ({ l with lev := l.lev.put {} L { v with i := v.i + 1 } }, v.first)
      else Looper.resolve { l with lev := l.lev.put {} L { v with active := false } } i n

/-- The looper with every level inactive (END, R200). -/
def Looper.stop (l : Looper) : Looper :=
  { l with lev := (List.range 4).foldl (fun t L => t.upd {} L (fun v => { v with active := false })) l.lev }

/-- The UNIT field of the instruction at `pc`. -/
def Tile.unitAt (x : Tile) (pc : Nat) : Nat := fld (x.seq.imem.get 0 pc) 127 125

/-- Issue goes on after the instruction at `pc`; past index 2,047 it raises LOOP_FAULT, with that instruction's index and
unit in SEQ_EXC (R199, R212, R213). -/
def State.advance (s : State) (t pc : Nat) : State :=
  let x := s.tile t
  let r := x.loop.resolve pc 5
  if 2047 < r.2 then (s.setTile t { x with loop := r.1 }).raise t exLoop (x.unitAt pc) pc
  else s.setTile t { x with loop := r.1, seq := { x.seq with st := .run, hold := .none, pc := r.2 } }

/-- The instruction at `pc` holds issue (R195). -/
def State.holdAt (s : State) (t pc : Nat) (h : HoldOp) : State :=
  s.updTile t (fun x => { x with seq := { x.seq with st := .hold, hold := h, holdPc := pc } })

/-! ### Issue (R193–R195) -/

/-- The unit queue an instruction enters is full: 1 MXA, 2 VXE, 3 TDMA; 4 a VXSCAN still uses the channel. -/
def Tile.blocked (x : Tile) (k : InsnKind) (w : Insn) : Option Nat :=
  match fld w 127 125 with
  | 1 => if 8 ≤ x.mxa.q.length then some 1 else none
  | 2 => if 8 ≤ x.vxe.q.length then some 2 else none
  | 3 => if 8 ≤ x.tdma.q.length then some 3 else none
  | _ =>
    match k with
    | .bar | .cwait | .flagor =>
      let ch := fld w 111 108
      let uses := fun (i : QInsn) => insnKind i.w == some .vxscan && decide (fld i.w 67 64 ≤ ch) && decide (ch < fld i.w 67 64 + fld i.w 72 68)
      if x.vxe.q.any uses || x.vxe.run.any (fun r => uses r.insn) || (match x.vxe.wait with | .prefix_ i => uses i | _ => false)
      then some 4 else none
    | _ => none

/-- Issue of an instruction of kind `k` at the sequencer's index: its fetch, its legality, its predicate, its adjustment,
its hold, and then `act` on the adjusted word and its index (R193–R195, R202). A tile whose next word is of another kind
is left as it is (assumption log 2). -/
def State.issueAs (k : InsnKind) (t : Nat) (act : Insn → Nat → State → State) (s : State) : State :=
  let x := s.tile t
  let pc := x.seq.pc
  let w := x.seq.imem.get 0 pc
  if x.seq.st ≠ .run then s
  else if (List.range 4).any (fun i => x.seq.imemBad.contains (4 * pc + i)) then s.raise t exIfetch (fld w 127 125) pc
  else
    match insnKind w with
    | none => s.raise t exIllegal (fld w 127 125) pc
    | some k' =>
      if k' ≠ k then s
      else if !x.executes w then
        (if insnLegal k w then s.advance t pc else s.raise t exIllegal (fld w 127 125) pc)
      else
        match adjustWord x.loop k w with
        | none => s.raise t exIllegal (fld w 127 125) pc
        | some w' =>
          if !insnLegal k w' then s.raise t exIllegal (fld w 127 125) pc
          else match x.blocked k w' with
            | some u => s.holdAt t pc (.queue u)
            | none => act w' pc s

/-- Every earlier instruction of the units of `mask` is complete (R197). -/
def Tile.fenceDone (x : Tile) (mask : Nat) : Bool :=
  (!mask.testBit 0 || (x.mxa.q.isEmpty && x.mxa.veins.isEmpty && x.mxa.drains.isEmpty))
    && (!mask.testBit 1 || (x.vxe.q.isEmpty && x.vxe.run.isEmpty && x.vxe.wait == .none))
    && (!mask.testBit 2 || (x.tdma.q.isEmpty && x.tdma.out.isEmpty))
    && (!mask.testBit 3 || x.w.win.all (fun kv => kv.2.pend.all (fun p => match p.dest with | .tileWord _ _ => false | _ => true)))

/-! ### Channels (R206, R309, R310) -/

/-- Tile `t` belongs to the domain that its die's channel `ch` serves. -/
def State.onChannel (s : State) (t ch : Nat) : Bool :=
  let c := (s.node (tileDie t)).sync.cfg.get 0 ch
  bit c 24 && bit c (8 + t % 16)

/-- Tile `t` makes an arrival on channel `ch`. -/
def State.arrive (s : State) (t ch : Nat) (a : Arrival) : State := s.updTile t (fun x => { x with arr := x.arr.put none ch (some a) })

/-- Flags that completed instructions raised go to TILE_FLAGS and TILE_SFLAGS (R185). -/
def Tile.raiseFlags (x : Tile) (f : Byte) : Tile := { x with fl := { x.fl with all := x.fl.all ||| f, sflags := x.fl.sflags ||| f } }

/-- The keys of stochastic rounding of this tile (R112). -/
def Tile.srKey (x : Tile) : SrKey := ⟨x.id.seed, x.id.rel.toNat, x.id.stepNum.toNat⟩

/-- Tile reset of the tile's own state (R154, R187, R214). -/
def Tile.reset (x : Tile) : Tile :=
  { x with
    w := { x.w with win := closeAll x.w.win 64, cc := [] }
    seq := { x.seq with en := false, st := .stopped, hold := .none, holdPc := 0, pc := 0, excCode := 0, excPc := 0, excUnit := 0,
                        excMore := false, cmdq := [], pred := 0 }
    loop := {}
    tdma := { x.tdma with t := [], q := [], out := [] }
    mxa := x.mxa.reset
    vxe := {}
    fl := {}
    arr := []
    dlv := []
    kept := none }

/-- Arrivals combined at node `n`. -/
def State.syncAdd (s : State) (n ch : Nat) (l : List (Member × Arrival)) : State :=
  s.updNode n (fun x => { x with sync := { x.sync with got := x.sync.got.upd [] ch (fun g => g ++ l) } })

/-- A node's channel emptied. -/
def State.syncClear (s : State) (n ch : Nat) : State :=
  s.updNode n (fun x => { x with sync := { x.sync with got := x.sync.got.put [] ch [], edges := x.sync.edges.put 0 ch 0 } })

/-- The die-cell that an arrival comes from. -/
def Member.home : Member → Nat
  | .tile t => t / 16
  | .node n => n

/-- Tile `t`'s arrival on channel `ch`, which node `n` holds, is cleared (R313): where it has come through other nodes, every
other arrival there stands again at the die-cell it came from, and the tree combines anew once the tile arrives again. -/
def State.recall (s : State) (n ch t : Nat) : State :=
  let l := ((s.node n).sync.got.get [] ch).filter (fun m => m.1 != Member.tile t)
  if n = t / 16 then s.updNode n (fun x => { x with sync := { x.sync with got := x.sync.got.put [] ch l } })
  else l.foldl (fun s m => s.syncAdd m.1.home ch [m]) (s.syncClear n ch)

/-- Tile `t`'s arrivals leave every channel of the network (R313). -/
def State.clearArrivals (s : State) (t : Nat) : State :=
  (s.nodes.flatMap (fun n => (n.2.sync.got.filter (fun c => c.2.any (fun m => m.1 == Member.tile t))).map (fun c => (n.1, c.1)))).foldl
    (fun s p => s.recall p.1 p.2 t) s

/-- Tile reset (R214). -/
def State.tileReset (s : State) (t : Nat) : State := (s.updTile t Tile.reset).clearArrivals t

end Sys2Proof.Machine
end

