-- ==== Sys2Proof/Machine/StackOps.lean ====
section
/-! DEFINITION. A stack node's memory through its symbol code, its queue's results and its issuer (R246–R271). -/

namespace Sys2Proof.Machine

/-- Stack `k`. -/
def State.stack (s : State) (k : Nat) : Stack := s.snodes.get {} k
/-- Stack `k` set. -/
def State.setStack (s : State) (k : Nat) (x : Stack) : State := { s with snodes := s.snodes.put {} k x }
/-- Stack `k` changed. -/
def State.updStack (s : State) (k : Nat) (f : Stack → Stack) : State := s.setStack k (f (s.stack k))

/-- The pseudo-channel of an offset (R248). -/
def snQ (off : Nat) : Nat := off / 256 % 64
/-- The channel of an offset (R248). -/
def snChannel (off : Nat) : Nat := off / 512 % 32
/-- The chunk of an offset within its pseudo-channel (R248). -/
def snChunkOf (off : Nat) : Nat := off / 16384

/-- The channel of an offset is retired: a hole (R270). -/
def Stack.hole (x : Stack) (off : Nat) : Bool := decide ((x.chan.get {} (snChannel off)).state ≠ 0)

/-- Any byte of a range lies in a hole; ranges of up to 256 bytes within one chunk. -/
def Stack.holeIn (x : Stack) (off len : Nat) : Bool :=
  (List.range (len / 256 + 2)).any (fun i => decide (off + 256 * i < off + len) && x.hole (off + 256 * i))
    || (decide (0 < len) && x.hole (off + len - 1))

/-- The decode of a burst (R233, R256): valid error positions are 0–66. -/
def decodeBurst (d : BitVec 24) : Decode :=
  let s0 := syndrome d 0
  let s1 := syndrome d 1
  let s2 := syndrome d 2
  if s0 = 0 ∧ s1 = 0 ∧ s2 = 0 then .clean
  else if s0 = 0 ∧ s1 = 3 ∧ s2 = 5 then .poisoned
  else if s0 ≠ 0 ∧ s1 ≠ 0 ∧ s2 ≠ 0 ∧ gfMul s1 s1 = gfMul s0 s2 then
    match errPos s0 s1 67 with
    | some p => .fixed p s0
    | none => .bad
  else .bad

/-- A chunk arrives at the repair queue of 16 (R268). -/
def Stack.queueChunk (x : Stack) (q chunk : Nat) : Stack :=
  if x.rq.contains ⟨q, chunk⟩ then x
  else if 16 ≤ x.rq.length then { x with rqOvf := true }
  else { x with rq := x.rq ++ [⟨q, chunk⟩] }

/-- A corrected read of a chunk: the pseudo-channel's suspect list of 8, and the queue at the second (R268). -/
def Stack.suspect (x : Stack) (q chunk : Nat) : Stack :=
  let l := x.suspects.get [] q
  if l.contains chunk then x.queueChunk q chunk
  else { x with suspects := x.suspects.put [] q ((l ++ [chunk]).drop (l.length - 7)) }

/-- One burst read through the decoder (R257, R268): corrected and written back, or poisoned; the last item tells that its
bytes could not be corrected. -/
def Stack.readBurst (x : Stack) (b now : Nat) : Stack × Bool × Bool :=
  let d := x.dev.get 0 b
  if d = 0 then (x, false, false)
  else
    let q := snQ (64 * b)
    let c := snChunkOf (64 * b)
    match decodeBurst d with
    | .clean => (x, false, false)
    | .poisoned => (x, true, false)
    | .fixed p v =>
      let x1 := { x with
        mem := if 3 ≤ p then x.mem.upd 0 (64 * b + p - 3) (fun y => y ^^^ BitVec.ofNat 8 v) else x.mem
        dev := x.dev.put 0 b 0, ce := satInc x.ce }
      (x1.suspect q c, false, false)
    | .bad =>
      let key := q * 2 ^ 23 + c
      let l := (x.ueChunks.get [] (q / 2)).filter (fun e => decide (now ≤ e.2 + 1000000000) && e.1 != key)
      ({ x with ue := satInc x.ue, ueChunks := x.ueChunks.put [] (q / 2) (l ++ [(key, now)]) }.queueChunk q c, true, true)

/-- A burst whose bytes are undefined under encryption (R257): free values. -/
def Stack.blur (x : Stack) (b ctr : Nat) : Stack :=
  if x.xtsOn then { x with mem := x.mem.putList 0 (64 * b) ((List.range 64).map (fun i => Config.freeByte ctr (64 * b + i))) } else x

/-- Bursts `b`, `b + 1`, … read in turn: the state, the poison of each, and the view of memory they deliver. -/
def Stack.readBursts (x : Stack) (b now ctr : Nat) : Nat → Stack × List Bool × Stack
  | 0 => (x, [], x)
  | n + 1 =>
    let r := x.readBurst b now
    let r' := Stack.readBursts r.1 (b + 1) now ctr n
    (r'.1, r.2.1 :: r'.2.1, if r.2.2 then r'.2.2.blur b ctr else r'.2.2)

/-- Bursts a range touches. -/
def burstCount (off len : Nat) : Nat := if len = 0 then 0 else (off + len - 1) / 64 + 1 - off / 64

/-- `len` bytes read through the symbol code, with the poison of every burst they touch (R252, R257). -/
def Stack.readMarks (x : Stack) (off len now ctr : Nat) : Stack × List Byte × List Bool :=
  if x.dev = [] then (x, x.mem.getList 0 off len, [])
  else
    let r := x.readBursts (off / 64) now ctr (burstCount off len)
    (r.1, r.2.2.mem.getList 0 off len, r.2.1)

/-- `len` bytes read through the symbol code (R252, R257). -/
def Stack.read (x : Stack) (off len now ctr : Nat) : Stack × List Byte × Bool :=
  let r := x.readMarks off len now ctr
  (r.1, r.2.1, r.2.2.any id)

/-- The check symbols of the bursts of a write (R251): whole bursts take the write's poison, partial ones merge with what
they held. -/
def Stack.markBursts (x : Stack) (off len : Nat) (poison : Bool) (now ctr b : Nat) : Nat → Stack
  | 0 => x
  | n + 1 =>
    let whole := decide (off ≤ 64 * b) && decide (64 * b + 64 ≤ off + len)
    let r := if whole then (x, false, false) else x.readBurst b now
    let x1 := if r.2.2 then r.1.blur b ctr else r.1
    Stack.markBursts { x1 with dev := x1.dev.put 0 b (if poison || r.2.1 then poisonDev else 0) } off len poison now ctr (b + 1) n

/-- A write of bytes (R251). -/
def Stack.write (x : Stack) (off : Nat) (bs : List Byte) (poison : Bool) (now ctr : Nat) : Stack :=
  let x1 := if x.dev = [] && !poison then x else x.markBursts off bs.length poison now ctr (off / 64) (burstCount off bs.length)
  { x1 with mem := x1.mem.putList 0 off bs }

/-- The tweak of the burst at offset `a` of logical stack `k` (R258). -/
def xtsTweak (k a : Nat) : BitVec 128 := BitVec.ofNat 128 (a / 64 + k * 2 ^ 31)

/-- What the XTS engine of stack `k` makes of bytes read at `off` (R257, R258): a burst written under the key that the engine holds reads
as written, any other as that key deciphers it. -/
def Stack.decipher (x : Stack) (k off : Nat) (bs : List Byte) : List Byte :=
  bs.zipIdx.map (fun b =>
    let a := off + b.2
    let w := (x.bkey.get none (a / 64)).getD x.mkey
    if w = x.key then b.1 else Config.xtsOther w x.key (xtsTweak k a) (a % 64) (x.mem.getList 0 (a / 64 * 64) 64))

/-- The bursts of a range, as the engine now deciphers them, taken under the key that it holds (R251). -/
def Stack.rekey (x : Stack) (k off len : Nat) : Stack :=
  (List.range (burstCount off len)).foldl (fun y i =>
    let b := off / 64 + i
    { y with mem := y.mem.putList 0 (64 * b) (x.decipher k (64 * b) (x.mem.getList 0 (64 * b) 64)), bkey := y.bkey.put none b (some x.key) }) x

/-- The partition that holds a sector, or 31 (R83). -/
def State.partOfSector (s : State) (sec : Nat) : Nat :=
  ((List.range 24).find? (fun p => bit (s.parts.get {} p).secs sec)).getD 31

/-! ### Issuers of stack nodes, the hub and the port dies -/

/-- A send to node `nd` is held: the oldest unanswered number lies 4,095 behind the next, or an earlier send is held (R301). -/
def Issuer.holds (i : Issuer) (nd : Nat) : Bool :=
  let next := i.next.get 0 nd
  i.out.any (fun g => g.node == nd && decide (4095 ≤ (next - g.seg.seq).toNat)) || i.wait.any (fun g => g.node == nd)

/-- The route table of die-cell `n` marks node `nd` down or invalid (R295). -/
def State.routeDown (s : State) (n nd : Nat) : Bool :=
  let e := (s.node n).fab.route.get 0 nd
  bit e 6 || !bit e 7

/-- The issuer's lowest operation slot that no segment without an answer holds (R286). -/
def Issuer.slot (i : Issuer) : Nat := ((List.range 64).find? (fun k => i.out.all (fun g => g.seg.opid.toNat != k))).getD 63

/-- PK_PART of a die-cell's segment (R286, R423): the partition it acts for, or its own. -/
def issPart (s : State) (n : Nat) (src : Src) : Nat :=
  match src with
  | .host p | .key p => p
  | .cell _ => if n < 264 then s.partOfSector (nodeSector n) else 31

/-- A segment of die-cell `n` goes out with its next number, or waits (R81, R301). A target that the first router marks down
is sent nothing: the router's TARGET_DOWN answer leaves for the issuer at once (R295). -/
def State.issueSeg (s : State) (n : Nat) (src : Src) (tgt : Tgt) (g : Segment) (why : IssWhy) : State :=
  let x := s.node n
  let nd := tgtNode tgt
  let q := x.iss.next.get 0 nd
  let g' := { g with src := src, node := nodeCell n, seq := q, issue := s.now, part := BitVec.ofNat 5 (issPart s n src), opid := BitVec.ofNat 6 x.iss.slot }
  if x.iss.holds nd then s.updNode n (fun x => { x with iss := { x.iss with wait := x.iss.wait ++ [⟨nd, tgt, g', 0, why⟩] } })
  else
    let s1 := s.updNode n (fun x => { x with iss := { x.iss with
      next := x.iss.next.put 0 nd (q + 1), out := x.iss.out ++ [⟨nd, tgt, g', 0, why⟩] } })
    if s.routeDown n nd then s1.emit (.answer (nodeCell n) q ⟨rcTargetDown, [], false, 0⟩) else s1.emit (.request tgt g')

/-- Held sends of die-cell `n` go out as far as R301 allows, in their order. -/
def State.issPump (s : State) (n : Nat) : State :=
  (s.node n).iss.wait.foldl (fun s g => s.issueSeg n g.seg.src g.tgt g.seg g.why)
    (s.updNode n (fun x => { x with iss := { x.iss with wait := [] } }))

/-- Segments of an issuer given up. -/
def Issuer.giveUp (i : Issuer) (f : IssSeg → Bool) : Issuer :=
  { i with out := i.out.filter (fun g => !f g), wait := i.wait.filter (fun g => !f g) }

/-- A PUT segment. -/
def putSeg (tag : W16) (off : Nat) (bs : List Byte) (poison : Bool) : Segment :=
  { src := .cell 0, node := 0, seq := 0, issue := 0, sched := false, op := .put, tag := tag, off := off, len := 0,
    data := bs, poison := poison, opnd := 0, swap := 0 }

/-- The hub's register block that an offset lies in; a block without windows for any other offset. -/
def hubBlock (off : Nat) : Nat :=
  if 0x50000 ≤ off ∧ off < 0x51800 ∨ 0x40000 ≤ off ∧ off < 0x41800 then off / 0x100 * 0x100
  else if 0x28000 ≤ off ∧ off < 0x28600 then off / 0x40 * 0x40
  else if 0x100000 ≤ off ∧ off < 0x700000 then off / 0x40000 * 0x40000
  else 2 ^ 24

/-- The partition that a hub block serves. -/
def State.hubBlockPart (s : State) (b : Nat) : Nat :=
  if 0x50000 ≤ b ∧ b < 0x51800 then (b - 0x50000) / 0x100
  else if 0x40000 ≤ b ∧ b < 0x41800 then s.partOfSector ((b - 0x40000) / 0x100)
  else if 0x28000 ≤ b ∧ b < 0x28600 then (b - 0x28000) / 0x40
  else (b - 0x100000) / 0x40000

/-- Where the block of partition `p` begins in a port die (R431). -/
def portBlock (p : Nat) : Nat := 0x400000 + 0x1000 * p

/-- The partition whose block of a port die an offset lies in; 31 for none. -/
def portBlockPart (off : Nat) : Nat := if 0x400000 ≤ off ∧ off < 0x418000 then (off - 0x400000) / 0x1000 else 31

/-- A register block that serves partition `part` has a register window open for partition `p` (R58, R83). -/
def State.blockOpen (s : State) (p part : Nat) (ws : Table Window) : Bool :=
  ws.any (fun kv => kv.2.st != .closed && (if kv.2.skind = 0 then s.sourceOk p 0 kv.2.srcval else part == p))

/-- An operation of partition `p` may go to its target (R83): the partition's dies, tiles and stacks, or a block of the hub or of a port
die in which hub firmware has opened a register window for it (assumption log 21). -/
def State.destInPart (s : State) (p : Nat) (d : Dest) : Bool :=
  match d with
  | .direct .hub off => s.blockOpen p (s.hubBlockPart (hubBlock off)) (s.hub.rwin.get [] (hubBlock off))
  | .direct (.port q) off => s.blockOpen p (portBlockPart off) ((s.ports.get {} q).blk.get {} (portBlockPart off)).rwin
  | .direct t _ => s.inPart p t
  | .striped _ => true

/-- A command's 16-byte result (R262). -/
def snResult (tag : W16) (st : Nat) (status : BitVec 8) (rcode : BitVec 4) (bytes : Nat) : List Byte :=
  bytesLE 16 (tag.toNat + st * 65536 + status.toNat * 2 ^ 24 + rcode.toNat * 2 ^ 32 + bytes * 2 ^ 64)

/-- A result sent to RPGA with RTAG (R262). A destination that the issuer's own checks reject is counted as dropped
(assumption log 31). -/
def State.sendResult (s : State) (k : Nat) (pga : Pga) (tag : W16) (bs : List Byte) : State :=
  let p := s.partOfSector k
  let drop := s.updStack k (fun x => { x with resDrop := satInc x.resDrop })
  match decodePga pga 16 (s.partStacks p).length with
  | none => drop
  | some d =>
    if !s.destInPart p d then drop
    else match d with
      | .direct t off => s.issueSeg (stackNode k) (.cell (nodeCell (stackNode k))) t (putSeg tag off bs false) .snResult
      | .striped a =>
        let l := stripe (s.partStacks p) a
        s.issueSeg (stackNode k) (.cell (nodeCell (stackNode k))) (.stack l.1) (putSeg tag l.2 bs false) .snResult

/-- The results of closes that ended at stack `k` (R262). -/
def State.snCloseResults (s : State) (k : Nat) : List (Nat × ClosePend) → State
  | [] => s
  | (i, p) :: r =>
    let s' := match p.dest with
      | .stackRes pga tag =>
        let w := (s.stack k).w.window i
        let t : Window := if w.gen = p.gen then w else { w with gen := p.gen, st := .closed }
        s.sendResult k pga tag (snResult (t.tag i) t.st.code p.status 0 0)
      | _ => s
    State.snCloseResults s' k r

/-- Closes of stack `k` that can end, end. -/
def State.settleStack (s : State) (k : Nat) : State :=
  let x := s.stack k
  let r := x.w.settle x.w.rounds
  (s.setStack k { x with w := r.1 }).snCloseResults k (byOrder r.2)

end Sys2Proof.Machine
end

