-- ==== Sys2Proof/Machine/SyncOps.lean ====
section
/-! DEFINITION. The panel's geometry and the synchronisation network (R20–R26, R177, R309–R313). -/

namespace Sys2Proof.Machine

/-- The position of sector `s` in the 5 × 5 array: the hub takes position 12 (R20). -/
def sectorPos (s : Nat) : Nat := if s < 12 then s else s + 1

/-- The grid coordinate of a P-site (R26). -/
def siteXY (p : Nat) : Nat × Nat :=
  let q := sectorPos (p / 12)
  (4 * (q % 5) + p % 12 % 4, 3 * (q / 5) + p % 12 / 4)

/-- The P-site at a grid coordinate; none in the hub block and off the grid. -/
def siteAt (x y : Nat) : Option Nat :=
  if 20 ≤ x ∨ 15 ≤ y then none
  else
    let q := 5 * (y / 3) + x / 4
    if q = 12 then none
    else some (12 * (if q < 12 then q else q - 1) + 4 * (y % 3) + x % 4)

/-- The physically adjacent P-site over edge `e`: 0 N, 1 E, 2 S, 3 W. -/
def siteBeside (p e : Nat) : Option Nat :=
  let c := siteXY p
  match e with
  | 0 => if c.2 = 0 then none else siteAt c.1 (c.2 - 1)
  | 1 => siteAt (c.1 + 1) c.2
  | 2 => siteAt c.1 (c.2 + 1)
  | _ => if c.1 = 0 then none else siteAt (c.1 - 1) c.2

/-- The edge opposite `e`. -/
def opposite (e : Nat) : Nat := (e + 2) % 4

/-- The P-site that serves die-cell `n`; a stack node has its own (R45). -/
def State.siteOf (s : State) (n : Nat) : Option Nat :=
  if n < 240 then
    let m := s.hub.anat.smap.get {} n
    if m.valid then some m.psite else none
  else if n < 264 then some (12 * (n - 240) + 5)
  else none

/-- The die-cell that a P-site serves. -/
def State.nodeAt (s : State) (p : Nat) : Option Nat :=
  if p % 12 = 5 then some (240 + p / 12)
  else
    let i := s.hub.anat.site.get {} p
    if i.ldie.toNat < 240 ∧ s.siteOf i.ldie.toNat = some p then some i.ldie.toNat else none

/-- The attachments of R280: die-cell, site, the site's edge, the die's own output. A port die's outputs are numbered in the
table's order (assumption log 64). -/
def attachments : List (Nat × Nat × Nat × Nat) :=
  let a := fun d x y e o => (d, (siteAt x y).getD 0, e, o)
  [a 264 9 5 2 0, a 264 10 9 0 2, a 264 7 7 1 3, a 264 12 7 3 1, a 265 9 0 0 0, a 265 10 0 0 1, a 267 9 14 2 0, a 267 10 14 2 1,
   a 268 0 6 3 0, a 268 0 8 3 1, a 266 19 6 1 0, a 266 19 8 1 1]

/-- The die-cell beside `n` over edge `e`; the hub joins at the four sites of R280 (R309). -/
def State.beside (s : State) (n e : Nat) : Option Nat :=
  if n = 264 then ((attachments.find? (fun a => a.1 == 264 && a.2.2.2 == e)).bind (fun a => s.nodeAt a.2.1))
  else match s.siteOf n with
  | none => none
  | some p =>
    if attachments.any (fun a => a.1 == 264 && a.2.1 == p && a.2.2.1 == e) then some 264
    else match siteBeside p e with
    | none => none
    | some q => s.nodeAt q

/-- SC_PARENT with which the die-cell beside `n` over edge `e` names that link (R316): 4 on the link to the hub. -/
def State.linkCode (s : State) (n e : Nat) : Nat :=
  if n = 264 then 4
  else match s.siteOf n with
  | none => 15
  | some p => match attachments.find? (fun a => a.1 == 264 && a.2.1 == p && a.2.2.1 == e) with
    | some a => a.2.2.2
    | none => opposite e

/-- SYNC_CH_CFG of channel `ch` at node `n`. -/
def State.chCfg (s : State) (n ch : Nat) : BitVec 30 := (s.node n).sync.cfg.get 0 ch

/-- The child of node `n` on channel `ch` over edge `e` (R316): the neighbour whose SC_PARENT names this link. -/
def State.syncChild (s : State) (n ch e : Nat) : Option Nat :=
  match s.beside n e with
  | none => none
  | some m => if bit (s.chCfg m ch) 24 && !bit (s.chCfg m ch) 25 && decide (fld (s.chCfg m ch) 29 26 = s.linkCode n e) then some m else none

/-- Every arrival that node `n` waits for on channel `ch` has come: its member tiles, on the step channel the die itself,
and its children (R310, R311, R318). -/
def State.syncFull (s : State) (n ch : Nat) : Bool :=
  let c := s.chCfg n ch
  let y := (s.node n).sync
  let got := y.got.get [] ch
  bit c 24
    && (List.range 16).all (fun i => !bit c (8 + i) || got.any (fun g => g.1 == Member.tile (16 * n + i)))
    && (decide (ch ≠ 16) || got.any (fun g => g.1 == Member.node n))
    && (List.range 4).all (fun e => (s.syncChild n ch e).isNone || bit (y.edges.get 0 ch) e)

/-- An arrival of tile `t` reaches its die's node (R309). -/
def State.syncFromTile (s : State) (n ch t : Nat) : State :=
  match (s.tile t).arr.get none ch with
  | none => s
  | some a =>
    if bit (s.chCfg n ch) 24 && bit (s.chCfg n ch) (8 + t % 16) then
      (s.updTile t (fun x => { x with arr := x.arr.put none ch none })).syncAdd n ch [(.tile t, a)]
    else s

/-- The arrivals of the child over edge `e` reach node `n` once the child has all of them (R311). -/
def State.syncFromEdge (s : State) (n ch e : Nat) : State :=
  match s.syncChild n ch e with
  | none => s
  | some m =>
    if s.syncFull m ch then
      let l := (s.node m).sync.got.get [] ch
      ((s.syncClear m ch).syncAdd n ch l).updNode n (fun x => { x with sync := { x.sync with
        edges := x.sync.edges.upd 0 ch (fun b => setBit b e) } })
    else s

/-- The arrivals of tiles in the order of their ranks: ascending relative tile numbers (R84, R182). -/
def State.ranked (s : State) (l : List (Member × Arrival)) : List (Nat × Arrival) :=
  sortBy (fun a => (s.tile a.1).id.rel.toNat)
    (l.filterMap (fun m => match m.1 with | .tile t => some (t, m.2) | .node _ => none))

/-- The element of a VXSCAN arrival (R181). -/
def arrivalEl (op : Nat) (a : Arrival) : Option ScanEl :=
  if a.absent then none
  else some ⟨a.payload.toNat % 2 ^ 32, if op = 6 then a.payload.toNat / 2 ^ 32 else 0, false, 0, a.poison⟩

/-- What the member of rank `i` receives on a VXSCAN channel: the exclusive prefix, and the flags of every combine that
formed it (R176, R182). -/
def scanDeliv (op : Nat) (as : List Arrival) (i : Nat) : Deliv :=
  match scanPrefix op false (fun k => (as[k]?).bind (arrivalEl op)) i 13 (none, 0) with
  | none => .absent
  | some e => .prefix_ (BitVec.ofNat 64 (e.a % 2 ^ 32 + 2 ^ 32 * e.b)) e.poison e.fl

/-- A member's wait on channel `ch` ends with a mismatch (R183, R206). -/
def State.mismatchAt (s : State) (t ch : Nat) : State :=
  let x := s.tile t
  let held := match x.seq.hold with
    | .bar c => c == ch | .cwait c _ _ _ => c == ch | .flagor c _ _ => c == ch | _ => false
  if held then s.raise t exMismatch 4 x.seq.holdPc
  else s.setTile t { x with dlv := x.dlv.put .none ch .mismatch }

/-- A VXSCAN that waits on channel `ch` receives its prefix (R182). -/
def State.deliverScan (s : State) (t ch : Nat) (dv : Deliv) : State :=
  let x := s.tile t
  match x.vxe.wait with
  | .prefix_ i => if (fld i.w 67 64 ≤ ch ∧ ch < fld i.w 67 64 + fld i.w 72 68)
      then s.setTile t { x with dlv := x.dlv.put .none ch dv } else s
  | _ => s

/-- The combined result reaches one member (R205, R206, R312): the held instruction on that channel, or its VXSCAN. -/
def State.deliverTo (s : State) (t ch : Nat) (fault : Bool) (or_ : Nat) (dv : Deliv) : State :=
  let x := s.tile t
  match x.seq.hold with
  | .bar c => if c = ch then s.advance t x.seq.holdPc else s.deliverScan t ch dv
  | .cwait c _ _ _ =>
    if c ≠ ch then s.deliverScan t ch dv
    else if fault then s.raise t exRemote 4 x.seq.holdPc else s.advance t x.seq.holdPc
  | .flagor c pd raddr =>
    if c ≠ ch then s.deliverScan t ch dv
    else
      let s1 := s.tileWrite t 4 x.seq.holdPc raddr (bytesLE 4 or_) false
      let s2 := if pd = 0 then s1 else s1.updTile t (fun x => { x with seq := { x.seq with
        pred := if or_ ≠ 0 then setBit x.seq.pred pd else clrBit x.seq.pred pd } })
      if (s2.tile t).seq.st = .exc then s2 else s2.advance t x.seq.holdPc
  | _ => s.deliverScan t ch dv

/-- The result of a channel reaches every member (R311, R312). -/
def State.syncDeliver (s : State) (ch : Nat) (l : List (Member × Arrival)) : State :=
  let r := s.ranked l
  let as := r.map (·.2)
  match as with
  | [] => s
  | a :: _ =>
    if as.any (fun b => b.sig ≠ a.sig) then r.foldl (fun s m => s.mismatchAt m.1 ch) s
    else
      let fault := as.any (·.fault)
      let or_ := as.foldl (fun v b => v ||| (b.payload.toNat % 2 ^ 32)) 0
      let op := match a.sig with | .vxscan op _ => op | _ => 0
      r.zipIdx.foldl (fun s m => s.deliverTo m.1.1 ch fault or_
        (match a.sig with | .vxscan _ _ => scanDeliv op as m.2 | _ => .none)) s

end Sys2Proof.Machine
end

