-- ==== Sys2Proof/Machine/HubOps.lean ====
section
/-! DEFINITION. Registers kept as words, the time base and the black box's staging (R14, R548, R552, R611, R612). -/

namespace Sys2Proof.Machine

/-- The place of the registers of function `f`. -/
def fnPlace (f : Nat) : Nat := 300 + f
/-- The place of the transport keys, which every Ethernet port die repeats (R422). -/
def tkPlace : Nat := 299

/-- The kind of a place. -/
def placeKind (p : Nat) : RegKind :=
  if p < 264 then .die else if p = 264 then .hub else if p < 269 then .port else if p = 299 then .tk else .fn

/-- Reset values of a compute die's or stack node's words; port dies have them too. The fused voltages: assumption log 69. -/
def dieReset (off : Nat) : Nat :=
  if off = 0x60014 then 0xFFFF
  else if off = 0x70030 then 0x24
  else if off = 0x70020 ∨ 0x70040 ≤ off ∧ off < 0x70064 then 600
  else if 0x70100 ≤ off ∧ off < 0x70210 ∧ off % 16 = 0 then (if off = 0x70200 then 15 else 64 + 15 * 256)
  else if 0xA0000 ≤ off ∧ off < 0xA0090 ∧ off % 8 = 4 then 95 * 65536
  else 0

/-- Reset values of a function's words (R389, R404, R409); the mask bit of an MSI-X vector is set (assumption log 55). -/
def fnReset (f off : Nat) : Nat :=
  if off = 0 then 0x1F + b2n (f % 25 = 0) * 32 + f / 25 * 64 + f % 25 * 128
  else if 0x1000 ≤ off ∧ off < 0x1200 ∧ off % 64 = 0x10 then 0x54
  else if 0x1000 ≤ off ∧ off < 0x1200 ∧ off % 64 = 0x24 then 1
  else if off = 0x10180 then 100 * 65536
  else if 0x8000 ≤ off ∧ off < 0x8400 ∧ off % 16 = 12 then 1
  else 0

/-- Reset values of the hub's words. -/
def hubReset (off : Nat) : Nat :=
  if off = 0x2000 then 0x20
  else if off = 8 then 768 * 2048
  else if off = 0x10 then 10 + 1024
  else if off = 0x30004 then 3 + 4 * 16 + 4 * 256
  else if off = 0x30014 then 0x1F * 8192
  else if 0x30040 ≤ off ∧ off < 0x300A0 then 0xFF * 1024
  else if off = 0x31004 then 15500
  else if 0x31100 ≤ off ∧ off < 0x31400 ∧ off % 32 = 8 then 1200 * 2 ^ 20
  else if off = 0x32018 then 1000
  else if off = 0x33008 then 15500 * 65536
  else if off = 0x3300C then 30 + 95 * 32
  else if 0x33100 ≤ off ∧ off < 0x33120 ∧ off % 8 = 4 then 95 * 65536
  else if off = 0x34000 then 8
  else if off = 0x3407C then 0xF
  else if 0x40000 ≤ off ∧ off < 0x41800 ∧ off % 64 = 0x38 then 100
  else 0

/-- Reset values of a port die's words; `p` is its place. -/
def portReset (p off : Nat) : Nat :=
  if 0x100010 ≤ off ∧ off < 0x100020 then (if p = 266 ∨ p = 268 then 0x11 else 0x10)
  else if off = 0x100020 then 20
  else if off = 0x100024 then 50
  else if 0x100100 ≤ off ∧ off < 0x100500 ∧ off % 128 = 4 then 9216 + 64 * 16384
  else if 0x300000 ≤ off ∧ off < 0x340000 ∧ off % 64 = 0 then 0x1F0
  else if 0x500000 ≤ off ∧ off < 0x501000 ∧ off % 64 = 0 then 0xF8
  else if 0x500000 ≤ off ∧ off < 0x501000 ∧ off % 64 = 0xC then 1000
  else if 0x500000 ≤ off ∧ off < 0x501000 ∧ off % 64 = 0x10 then 10000 + 1000 * 65536
  else dieReset off

/-- What the word of a place at an offset is after reset. -/
def regReset (p off : Nat) : Nat :=
  match placeKind p with
  | .die => dieReset off
  | .hub => hubReset off
  | .port => portReset p off
  | .tk => if 0x200000 ≤ off ∧ off % 32 = 0 then 0x1F + 0xFFF * 2 ^ 18 else 0
  | .fn => fnReset (p - 300) off

/-- The word of place `p` at `off`. -/
def State.reg (s : State) (p off : Nat) : W32 := s.regs.get 0 (p * 2 ^ 24 + off) ^^^ BitVec.ofNat 32 (regReset p off)

/-- The word of place `p` at `off` set. -/
def State.setReg (s : State) (p off : Nat) (v : W32) : State :=
  { s with regs := s.regs.put 0 (p * 2 ^ 24 + off) (v ^^^ BitVec.ofNat 32 (regReset p off)) }

/-- A register field read. -/
def State.rd (s : State) (p : Nat) (f : Fd) : Nat := fld (s.reg p f.off) f.hi f.lo

/-- A register field written, whatever its access type: what hardware and firmware do to it. -/
def State.wr (s : State) (p : Nat) (f : Fd) (v : Nat) : State := s.setReg p f.off (setFld (s.reg p f.off) f.hi f.lo v)

/-- A field that counts modulo its width. -/
def State.inc (s : State) (p : Nat) (f : Fd) : State := s.wr p f (s.rd p f + 1)

/-- A field that counts and stops at its maximum. -/
def State.sat (s : State) (p : Nat) (f : Fd) : State :=
  if s.rd p f + 1 < 2 ^ (f.hi + 1 - f.lo) then s.wr p f (s.rd p f + 1) else s

/-- A field that falls by one, not below 0. -/
def State.dec (s : State) (p : Nat) (f : Fd) : State := s.wr p f (s.rd p f - 1)

/-- A field of the hub read. -/
def State.hrd (s : State) (f : Fd) : Nat := s.rd 264 f
/-- A field of the hub written. -/
def State.hwr (s : State) (f : Fd) (v : Nat) : State := s.wr 264 f v

/-- Every word of a place back to its reset value. -/
def State.clearPlace (s : State) (p : Nat) : State := { s with regs := s.regs.filter (fun kv => kv.1 / 2 ^ 24 != p) }

/-- The router of die-cell `n` changed. -/
def State.updFab (s : State) (n : Nat) (f : Fab → Fab) : State := s.updNode n (fun x => { x with fab := f x.fab })

/-- The hub's state changed. -/
def State.updHub (s : State) (f : Hub → Hub) : State := { s with hub := f s.hub }
/-- Function `f`. -/
def State.fn (s : State) (f : Nat) : Fn := s.fns.get {} f
/-- Function `f` changed. -/
def State.updFn (s : State) (f : Nat) (g : Fn → Fn) : State := { s with fns := s.fns.upd {} f g }
/-- Port die `p`. -/
def State.port (s : State) (p : Nat) : Port := s.ports.get {} p
/-- Port die `p` changed. -/
def State.updPort (s : State) (p : Nat) (g : Port → Port) : State := { s with ports := s.ports.upd {} p g }
/-- Partition `p`. -/
def State.part (s : State) (p : Nat) : Part := s.parts.get {} p
/-- Partition `p` changed. -/
def State.updPart (s : State) (p : Nat) (g : Part → Part) : State := { s with parts := s.parts.upd {} p g }

/-- The partition is HALTED, EMPTY or DONE. -/
def State.atRest (s : State) (p : Nat) : Bool :=
  match (s.part p).sch.state with | .halted | .empty | .done => true | _ => false

/-- The master's time-base count (R548). -/
def State.tb (s : State) : Nat := match s.hub.tb.startAt with | some t => s.now - t | none => 0

/-- A die's copy of the time base (R548, R550). -/
def State.dieTb (s : State) (n : Nat) : Nat := (Int.ofNat s.tb + s.hub.tb.diff.get 0 n).toNat

/-- The real-time clock in units of 1/32,768 s (R552). -/
def State.rtc (s : State) : Nat := s.hub.tb.rtcBase * 32768 + (s.now - s.hub.tb.rtcAt) * 32768 / 1000000000

/-- The power region of die-cell `n`. -/
def State.regionKey (s : State) (n : Nat) : Option Nat :=
  if n < 264 then s.siteOf n else if n = 264 then some 292 else some (288 + (n - 265))

/-- The state of die-cell `n`'s power region (R512). -/
def State.power (s : State) (n : Nat) : Nat :=
  match s.regionKey n with
  | some k => s.hub.region.get 0 k
  | none => 0

/-- Place `i` of sector `k`'s control ring has power: its sites in the order of their numbers, then the hub's port (R306, log 96). -/
def State.ringAlive (s : State) (k i : Nat) : Bool := i == 12 || decide (s.hub.region.get 0 (12 * k + i) ≠ 0)

/-- Link `j` of sector `k`'s ring, from place `j` to the next, works. -/
def State.ringLink (s : State) (k j : Nat) : Bool :=
  s.hub.ringOn && !s.hub.ringDown.contains (13 * k + j) && s.ringAlive k j && s.ringAlive k ((j + 1) % 13)

/-- CTL_PORT0_UP and CTL_PORT1_UP of the nodes that region `key`'s ring joins (R306, R316); a port die has the one link to the hub. -/
def State.ringPorts (s : State) (key : Nat) : State :=
  if key < 288 then
    (List.range 12).foldl (fun s i => match s.nodeAt (12 * (key / 12) + i) with
      | none => s
      | some n => s.updNode n (fun x => { x with ctl := { x.ctl with
          p0 := s.ringLink (key / 12) ((i + 12) % 13), p1 := s.ringLink (key / 12) i } })) s
  else if key < 292 then
    s.updNode (265 + (key - 288)) (fun x => { x with ctl := { x.ctl with
      p0 := s.hub.ringOn && !s.hub.ringDown.contains (312 + (key - 288)) && decide (s.hub.region.get 0 key ≠ 0) } })
  else s

/-- A region's state set; one that goes off or comes back takes its ring links with it (R306). -/
def State.setRegion (s : State) (k v : Nat) : State :=
  let s1 := s.updHub (fun h => { h with region := h.region.put 0 k v })
  if decide (s.hub.region.get 0 k = 0) == decide (v = 0) then s1 else s1.ringPorts k

/-- The region of die-cell `n` set. -/
def State.setPower (s : State) (n v : Nat) : State :=
  match s.regionKey n with
  | some k => s.setRegion k v
  | none => s

/-- A record staged (R612): a full staging drops an INFO record and counts it, and a WARN or CRITICAL one displaces the
newest INFO record; where none is staged it is dropped (assumption log 32). -/
def Bbx.stage (b : Bbx) (r : BbRec) : Bbx × Bool :=
  if b.staged.length < 64 then ({ b with staged := b.staged ++ [r] }, false)
  else if r.sev = 0 then (b, true)
  else
    match b.staged.reverse.findIdx? (fun x => x.sev == 0) with
    | none => (b, true)
    | some i => ({ b with staged := b.staged.eraseIdx (b.staged.length - 1 - i) ++ [r] }, false)

/-- A black-box record of source `src`, with R611's prefix and the values its rule names. -/
def State.bb (s : State) (src code sev site part cause : Nat) (vals : List Byte) : State :=
  let valid := s.hrd rtcValid
  let r : BbRec :=
    ⟨0, BitVec.ofNat 64 s.tb, BitVec.ofNat 32 (valid * (s.rtc / 32768)), BitVec.ofNat 16 (s.rtc % 32768 + 32768 * valid),
      BitVec.ofNat 16 src, BitVec.ofNat 16 code, BitVec.ofNat 2 sev,
      bytesLE 2 site ++ bytesLE 1 part ++ bytesLE 1 cause ++ vals.take 224⟩
  let b := s.hub.bbx.stage r
  let s1 := s.updHub (fun h => { h with bbx := b.1 })
  if b.2 && decide (sev = 0) then s1.sat 264 bbDrops else s1

/-- Who writes a record: hub firmware (the hub die's cell), SCORE, the ROT, the comparators, out-of-band management, BBX. -/
def srcFw : Nat := 0x3F00
def srcScore : Nat := 0xE000
def srcRot : Nat := 0xE001
def srcAnalog : Nat := 0xE002
def srcOob : Nat := 0xE003
def srcBbx : Nat := 0xE004

/-- Where measurement block `i` stands, of partition `p` for blocks 6 and 7 (R577). -/
def measKey (i p : Nat) : Nat := if i < 6 then i else 8 + 24 * (i - 6) + p

/-- An item measured as measurement block `i` (R577): what its digest is taken over. -/
def State.measure (s : State) (i p : Nat) (bs : List Byte) : State :=
  s.updHub (fun h => { h with rot := { h.rot with meas := h.rot.meas.put [] (measKey i p) bs } })

/-- A layout entry as R591 lays it out. -/
def LayoutEntry.bytes (e : LayoutEntry) : List Byte :=
  bytesLE 1 e.id ++ bytesLE 1 e.flags.toNat ++ bytesLE 3 e.secs.toNat ++ bytesLE 1 e.grpBase ++ bytesLE 1 e.grpCnt ++ bytesLE 1 e.epBase
    ++ bytesLE 1 e.epCnt ++ bytesLE 2 e.tkBase ++ bytesLE 2 e.tkCnt ++ List.replicate 19 0

/-- Measurement 6 (R577): a partition's layout entry, its confidential flag and its owner's hash. -/
def State.measurePart (s : State) (p : Nat) : State :=
  match s.hub.rot.layout.find? (fun e => e.id == p) with
  | some e => s.measure 6 p (e.bytes ++ bytesLE 1 (b2n (bit e.flags 0)) ++ bytesLE 48 (s.hub.rot.owner.get {} p).id.toNat)
  | none => s

/-- The P-site code of a die-cell in records and fault registers: hub 0x1F0, port dies 0x1F1–0x1F4 (R32, R611). -/
def State.siteCode (s : State) (n : Nat) : Nat :=
  if n < 264 then (s.siteOf n).getD 0xFFFF else if n = 264 then 0x1F0 else 0x1F1 + (n - 265)

/-! ### Class B locks (R413–R416) -/

/-- The lock of mailbox `m` of sector `k` freed, its message withdrawn and its result discarded (R414–R416). -/
def State.mbbFree (s : State) (k m : Nat) : State :=
  (((s.hwr (mbbHeld k m) 0).hwr (mbbPend k m) 0).hwr (mbbTaken k m) 0).updHub (fun h => { h with mbb := h.mbb.put {} (4 * k + m) {} })

/-- The locks that cell `c` holds, freed (R416). -/
def State.mbbFreeOf (s : State) (c : W16) : State :=
  (List.range 96).foldl (fun s i =>
    if s.hrd (mbbHeld (i / 4) (i % 4)) = 1 ∧ s.hrd (mbbOwner (i / 4) (i % 4)) = c.toNat then s.mbbFree (i / 4) (i % 4) else s) s

/-- A tile reset as its register asks for it (R214, R416): the locks that the tile holds are freed too. -/
def State.seqReset (s : State) (t : Nat) : State := (s.tileReset t).mbbFreeOf (tileCell t)

end Sys2Proof.Machine
end

