-- ==== Sys2Proof/Machine/ClockOps.lean ====
section
/-! DEFINITION. Tile clocks and VLOGIC as a die power manager sets them (R538, R540, R563, R568). -/

namespace Sys2Proof.Machine

/-- The number of a hot spot among the panel's: die-cell and hot spot. -/
def hotKey (n h : Nat) : Nat := 32 * n + h

/-- The DPM of die-cell `n`. -/
def State.dpm (s : State) (n : Nat) : Dpm := s.hub.dpm.get {} n
/-- The DPM of die-cell `n` changed. -/
def State.updDpm (s : State) (n : Nat) (f : Dpm → Dpm) : State := s.updHub (fun h => { h with dpm := h.dpm.upd {} n f })

/-- A hot spot whose inputs are all gone holds its die at ACLK_STEP 32 (R563). -/
def State.blindDie (s : State) (n : Nat) : Bool := (List.range 18).any (fun h => (s.hub.hot.get {} (hotKey n h)).blind)

/-- ACLK_STEP of tile `t` of die `n`: the lowest of what the budget, thermal protection and the eyespots ask for (R538, R568). -/
def State.aclkOf (s : State) (n t : Nat) : Nat :=
  let d := s.dpm n
  if s.hrd thmFlowStop = 1 || s.blindDie n then 32
  else max 32 (min (64 - d.budDown) (min (s.hub.hot.get {} (hotKey n t)).throttle (64 - d.eyeDown.get 0 t)))

/-- The fused voltage for step `f`, in mV: the table's own at its points; linear between them, rounded up to 5 mV (R540). -/
def State.vfuse (s : State) (n f : Nat) : Nat :=
  let i := (f - 32) / 4
  let a := s.rd n (vfFuseMv i)
  let b := s.rd n (vfFuseMv (min 8 (i + 1)))
  let x := (4 * a + (f - 32) % 4 * (max a b - a) - (f - 32) % 4 * (a - min a b))
  if (f - 32) % 4 = 0 then a else (x + 19) / 20 * 5

/-- VLOGIC of die `n` in mV for its fastest tile (R540). -/
def State.vlogicOf (s : State) (n : Nat) : Nat :=
  let f := (List.range 17).foldl (fun m t => max m (s.rd n (aclkStep t))) 32
  min 850 (max (s.rd n vfabMv) (s.vfuse n f + (s.dpm n).trim))

/-- The tile clocks and VLOGIC of an ACTIVE compute die set (R538, R540). -/
def State.setClocks (s : State) (n : Nat) : State :=
  if 240 ≤ n ∨ s.power n ≠ 3 then s
  else
    let s1 := (List.range 17).foldl (fun s t => s.wr n (aclkStep t) (s.aclkOf n t)) s
    s1.wr n dpmVlogicMv (s1.vlogicOf n)

/-- The words of a die that was just powered in place of L-die `n`: its PLL is locked and its time-base copy aligned (R487, R549). -/
def State.freshRegs (s : State) (n : Nat) : State :=
  (((s.clearPlace n).wr n clkFpllLock 1).wr n tbSynced 1).updHub (fun h => { h with
    dpm := h.dpm.put {} n {}
    hot := h.hot.filter (fun kv => kv.1 / 32 != n)
    tb := { h.tb with diff := h.tb.diff.put 0 n 0, pulse := h.tb.pulse.filter (· != n) } })

end Sys2Proof.Machine
end

