-- ==== Sys2Proof/WellFormed.lean ====
section
/-! DEFINITION. When a command's operands can be what the packet, word, write or report of its row holds. The types of Syntax bound
most operands; what they leave open is checked here. -/

namespace Sys2Proof

/-- The size of a target's space in bytes (R55): scratchpad, a tile's registers, stack, a die-cell's registers, hub space. -/
def Tgt.size : Tgt → Nat
  | .tile _ => 2 ^ 24
  | .tileReg _ => 2 ^ 16
  | .stack _ => 2 ^ 37
  | .dieReg _ => 2 ^ 24
  | .hub => 2 ^ 24
  | .port _ => 2 ^ 24

/-- The target is one of the panel's (R24, R42). -/
def tgtOk : Tgt → Bool
  | .tile t => decide (t < 3840)
  | .tileReg t => decide (t < 3840)
  | .stack k => decide (k < 24)
  | .dieReg d => decide (d < 264)
  | .hub => true
  | .port p => decide (p < 4)

/-- A tile or a stack node, which hold windows. -/
def unitOk : Tgt → Bool
  | .tile t => decide (t < 3840)
  | .stack k => decide (k < 24)
  | _ => false

/-- Window `i` of a tile or of a stack node (R60). -/
def winOk : Tgt → Nat → Bool
  | .tile t, i => decide (t < 3840) && decide (i < 64)
  | .stack k, i => decide (k < 24) && decide (i < 256)
  | _, _ => false

/-- The bytes that a segment names at its target (R48, R49). -/
def Segment.size (g : Segment) : Nat := match g.op with | .put => g.data.length | _ => g.len

/-- A segment of R47–R49: within one 256-byte line of its target, an atomic of 4 or 8 bytes. -/
def segmentOk (t : Tgt) (g : Segment) : Bool :=
  tgtOk t && decide (1 ≤ g.size) && decide (g.off + g.size ≤ t.size)
    && (match g.op with
        | .put | .get => decide (g.off % 256 + g.size ≤ 256)
        | _ => g.len == 4 || g.len == 8)

/-- An answer holds at most one segment's bytes (R49, R302). -/
def answerOk (a : Answer) : Bool := decide (a.data.length ≤ 256)

/-- A register access over the control network: 4–64 bytes at a word boundary (R308). -/
def accessOk (off n : Nat) : Bool := decide (off % 4 = 0) && decide (1 ≤ n ∧ n ≤ 16)

/-- A PUT into the class B mailboxes (R308, R412). -/
def mboxPutOk (g : Segment) : Bool := g.op == .put && segmentOk .hub g && decide (0x40000 ≤ g.off ∧ g.off < 0x41800)

/-- A write of SPM_MOPQ is whole words of the tile's register space (R58, R228). -/
def mopWriteOk (off : Nat) (bs : List Byte) : Bool :=
  decide (off % 4 = 0) && decide (bs.length % 4 = 0) && decide (4 ≤ bs.length) && decide (off + bs.length ≤ 2 ^ 16)

/-- The channels of a die-cell's local side (R283, R284). -/
def localChannels (n : Nat) : Nat := if n < 240 then 34 else if n < 264 then 32 else 8

/-- A port and a channel of die-cell `n`'s router (R283, R284). -/
def channelOk (n p c : Nat) : Bool := decide (p < 4 ∧ c < 24 ∨ p = 4 ∧ c < localChannels n)

/-- The head of a packet (R286, R288): type and age within their fields, a destination of the fabric, an input port, and one entry per
output port for the free channels. -/
def headOk (n : Nat) (h : PktHead) : Bool :=
  channelOk n h.inPort h.inCh && decide (h.hdr.toNat / 2 ^ 16 % 2 ^ 9 ≤ 256) && decide (h.devs.length = (h.hdr.toNat / 2 ^ 16 % 2 ^ 9 + 95) / 64)

/-- Entries of a router's tables have indices within them (R292, R294, R470). -/
def tablesOk (t : RouterTables) : Bool :=
  t.route.all (fun x => decide (x.1 < 512)) && t.tree.all (fun x => decide (x.1 < 256)) && t.phIdx.all (fun x => decide (x.1 < 4096))
    && t.slot.all (fun x => decide (x.1 < 32768))

/-- A lane that repair could not restore (R466): SM_KIND LANE_BAD or SERDES_BAD, a place, SM_UNIT. -/
def laneOk (l : Nat × Nat × Nat) : Bool := (l.1 == 5 || l.1 == 6) && decide (l.2.1 < 512) && decide (l.2.2 < 4096)

/-- Chunk `c` lies in the section that receiver `r` takes (R468, R471). -/
def chunkOk (r : Receiver) (c : Nat) : Bool :=
  match r with
  | .tile _ _ => decide (c < 1024)
  | .stack _ => decide (c < 2048)

/-- A bundle is whole chunks of 4 KiB (R468). -/
def bundleOk (z : Bundle) : Bool := decide (z.bytes.length % 4096 = 0)

/-- A policy packet has a header of 128 bytes (R589). -/
def packetOk (p : PolicyPkt) : Bool := decide (p.hdr.length = 128)

/-- An access of at most 4 KiB within BAR4 (R380, R383): 16 apertures of 4 GiB for a physical function, of 1 GiB for a VF. -/
def apertureOk (f : Fin 50) (off n : Nat) : Bool :=
  decide (1 ≤ n ∧ n ≤ 4096) && decide (off < 16 * (if f.val % 25 = 0 then 2 ^ 32 else 2 ^ 30))

/-- GROUP_CREATE's parameters (R437): a rank among the members, one connection per partner. -/
def groupOk (d : GroupDesc) : Bool :=
  decide (1 ≤ d.n ∧ d.n ≤ 4096) && decide (d.rank < d.n) && d.conns.all (fun c => decide (c.1 < d.n) && decide (c.2 < 4096))

/-- A word of a place's registers (R13, R378, R402). -/
def registerOk (p : RegPlace) (off : Nat) : Bool :=
  decide (off % 4 = 0) && (match p with
    | .tile _ => decide (off < 2 ^ 16)
    | .die _ => decide (off < 2 ^ 24)
    | .fn _ _ => decide (off < 2 ^ 24)
    | .cfg _ => decide (off < 4096)
    | .composite _ => decide (off < 4 * 4096 * 256))

/-- An access over the debug pins reaches a target of the panel, within it (R593). -/
def accessOnPins : DebugAccess → Bool
  | .reg t off => tgtOk t && decide (off % 4 = 0) && decide (off < t.size)
  | .memRead t off len => tgtOk t && decide (off + len ≤ t.size)
  | .memWrite t off bs => tgtOk t && decide (off + bs.length ≤ t.size)
  | _ => true

/-- The command is well formed. -/
def Instr.wellFormed : Instr → Bool
  | .mainPowerGood _ _ _ _ _ => true
  | .secondFeedAppears => true
  | .busbarPairLost _ => true
  | .feedUndervoltage => true
  | .standbyPowerOn _ _ => true
  | .standbyPowerLoss => true
  | .warmRstNLow => true
  | .coldRstNLow => true
  | .perstNAssert _ => true
  | .pcieLinkUp _ _ _ => true
  | .hotResetOrLinkDown _ _ => true
  | .vfFunctionLevelReset _ _ => true
  | .pfFunctionLevelReset _ => true
  | .busMasterEnableCleared _ => true
  | .bootGo _ => true
  | .instarSkeleton _ _ _ _ => true
  | .instarIdentify => true
  | .instarClocks _ _ => true
  | .instarTrain _ tables lanes => tables.all tablesOk && lanes.all laneOk
  | .stackTrainDone _ _ _ _ _ _ => true
  | .instarLoad b => b.all bundleOk
  | .broadcastRoundEnd lost => lost.all (fun x => chunkOk x.1 x.2.1)
  | .p2pLoadAttempt r lost => lost.all (chunkOk r)
  | .instarProve _ => true
  | .katReportTimeout _ => true
  | .instarReconcile _ => true
  | .instarComplete => true
  | .instarTimeout => true
  | .bootCocoon => true
  | .stackWipeComplete _ => true
  | .tileCmdqWrite _ _ => true
  | .seqEnableSet _ => true
  | .seqEnableClear _ => true
  | .seqReset _ => true
  | .seqTakeEntry _ => true
  | .issueHoldRelease _ => true
  | .nop _ => true
  | .jmp _ => true
  | .pset _ => true
  | .fence _ => true
  | .fenceComplete _ => true
  | .iload _ => true
  | .iloadComplete _ => true
  | .endProg _ => true
  | .endComplete _ => true
  | .wopen _ => true
  | .wopenHoldRelease _ => true
  | .closeNow _ => true
  | .closeQuiesce _ => true
  | .quiesceTimeout t i => winOk t i
  | .closeComplete t => unitOk t
  | .wquery _ => true
  | .ccntSet _ => true
  | .ccntGet _ => true
  | .loopStart _ => true
  | .lstride _ => true
  | .lbind _ => true
  | .waitcnt _ => true
  | .waitcntComplete _ => true
  | .bar _ => true
  | .cwait _ => true
  | .cwaitArrival _ => true
  | .flagor _ => true
  | .stepFence _ => true
  | .ttgt _ => true
  | .putOp _ => true
  | .getOp _ => true
  | .fadd _ => true
  | .cswap _ => true
  | .forOr _ => true
  | .tdmaOpStart _ => true
  | .tdmaResponse _ _ _ a => answerOk a
  | .tdmaRetransmit _ _ _ => true
  | .segmentArrival t g => segmentOk t g
  | .segmentWriteVisible t _ => unitOk t
  | .mma _ => true
  | .mmaVeinStart _ => true
  | .mmaComplete _ => true
  | .mdrain _ => true
  | .drainStart _ => true
  | .drainResume _ => true
  | .drainEnd _ => true
  | .rbload _ => true
  | .rbloadComplete _ => true
  | .rbshift _ => true
  | .rbshiftComplete _ => true
  | .posld _ => true
  | .posgen _ => true
  | .mxset _ => true
  | .mfence _ => true
  | .vfa _ => true
  | .via _ => true
  | .vcmp _ => true
  | .vsel _ => true
  | .vkop _ => true
  | .vcvt _ => true
  | .vtr _ => true
  | .vred _ => true
  | .vscan _ => true
  | .vxscan _ => true
  | .vxscanPrefixArrival _ => true
  | .vcomb _ => true
  | .vld _ => true
  | .vst _ => true
  | .vdqpop _ => true
  | .vdqpopRowArrival _ => true
  | .viota _ => true
  | .vrot _ => true
  | .vxeInsnStart _ => true
  | .vxeInsnComplete _ n => decide (n < 32)
  | .spmMopqWrite _ off bs => mopWriteOk off bs
  | .mopFill _ => true
  | .mopCopy _ => true
  | .mopEnd _ => true
  | .pwrUp _ _ => true
  | .pwrRetain _ _ => true
  | .pwrDown _ _ => true
  | .quarterOn _ _ => true
  | .spmScrubTick _ => true
  | .liveRowRepair _ => true
  | .snWopen _ => true
  | .snCloseNow _ => true
  | .snCloseQuiesce _ => true
  | .snWquery _ => true
  | .snCcntSet _ => true
  | .sxeStrided _ => true
  | .sxeTranspose _ => true
  | .sxeCommandEnd _ => true
  | .snFence _ => true
  | .snBadOpcode _ => true
  | .snSelfRefresh _ => true
  | .snOff _ _ => true
  | .snWake _ => true
  | .stackReadRelease _ j => decide (j < 65536)
  | .stackReadLate _ => true
  | .snPatrolScrub _ => true
  | .snChunkRepair _ _ => true
  | .snRecalibration _ _ _ => true
  | .snTemperatureChange _ _ => true
  | .routerHeadArrival n _ hs => hs.all (headOk n.val)
  | .scheduledFlitArrival n _ inPort inCh _ => channelOk n.val inPort inCh
  | .ctlRegRd _ _ off n => accessOk off n
  | .ctlRegWr _ _ off vs => accessOk off vs.length
  | .ctlRegRsp _ _ => true
  | .ctlMsg _ _ => true
  | .ctlMbx g => mboxPutOk g
  | .ctlHeartbeat _ _ => true
  | .heartbeatSend _ => true
  | .syncArrival _ _ _ => true
  | .syncDelivery _ _ => true
  | .wingbeatSend _ => true
  | .wingbeatArrival _ => true
  | .wingbeatRelease _ => true
  | .xchgStreamStart _ _ _ _ => true
  | .exchangeReport _ => true
  | .stepCombine _ => true
  | .resumeWingbeat _ => true
  | .wingbeatWatchdog _ _ => true
  | .probeTimeout _ => true
  | .qpCtailWrite _ _ _ _ => true
  | .qpSheadWrite _ _ _ _ => true
  | .qpEnable _ _ _ => true
  | .qpDisable _ _ _ => true
  | .qpRunClear _ _ _ => true
  | .commandFetched _ _ _ _ => true
  | .irqCoalesceTimeout _ _ => true
  | .runStep _ _ _ => true
  | .doorbell _ _ _ => true
  | .queryCounter _ _ _ => true
  | .queryCounterTimeout _ _ _ => true
  | .hostNop _ _ _ => true
  | .loadImage _ _ _ _ _ => true
  | .halt _ _ _ => true
  | .resetPartition _ _ _ => true
  | .dmaWrite _ _ _ bs => bs.all (fun b => decide (b.length ≤ 16777216))
  | .dmaRead _ _ _ => true
  | .apertureMap _ _ _ => true
  | .apertureUnmap _ _ _ => true
  | .apertureUnmapComplete _ _ _ => true
  | .windowOpen _ _ _ => true
  | .windowClose _ _ _ => true
  | .asyncEvent _ _ _ => true
  | .setTwin _ _ _ _ => true
  | .setPowerCap _ _ _ => true
  | .setPortRole _ _ _ => true
  | .policy _ _ _ pkt => pkt.all packetOk
  | .apertureWrite f off bs _ => apertureOk f off bs.length
  | .apertureRead f off len _ => apertureOk f off len
  | .fnAptFenceRead _ _ => true
  | .bar2Write _ _ => true
  | .tdispMessage _ _ => true
  | .mbaInGo _ _ => true
  | .mailboxTake _ => true
  | .mailboxDone _ => true
  | .mbaOutGo _ msg => decide (1 ≤ msg.length ∧ msg.length ≤ 16)
  | .mbaOutAck _ _ => true
  | .mbxTimeoutExpiry _ => true
  | .mbbLockRead _ _ _ _ => true
  | .mbbLockRelease _ _ _ _ => true
  | .mbbGo _ _ _ _ => true
  | .mbbLockExpiry _ _ => true
  | .mbbResultAnswered _ _ => true
  | .mbaPing _ => true
  | .mbaBbRead _ => true
  | .mbaHostMark _ => true
  | .mbbPing _ _ => true
  | .mbbHaltSelf _ _ => true
  | .ethFrameRx _ _ f => decide (64 ≤ f.len)
  | .tkBind _ _ => true
  | .tkUnbind _ _ => true
  | .tkUnbindComplete _ _ => true
  | .connOpen _ _ => true
  | .connClose _ _ => true
  | .connQuery _ _ => true
  | .wrWrite _ _ => true
  | .wrRead _ _ => true
  | .wrFadd _ _ => true
  | .wrCswap _ _ => true
  | .wrFor _ _ => true
  | .wrCompletion _ _ => true
  | .pdOnpanelRetransmit _ _ _ => true
  | .roceAckTimeout _ _ => true
  | .uetRtoExpiry _ _ psn => decide (psn < 2 ^ 24)
  | .cnpRateIncrease _ _ => true
  | .ethPortUp _ _ _ => true
  | .ethPortDown _ _ => true
  | .qRetrain _ _ => true
  | .groupCreate _ _ d => groupOk d
  | .groupShrink _ _ => true
  | .shrinkDigestsComplete _ _ => true
  | .shrinkTimeout _ _ => true
  | .groupDissolve _ _ => true
  | .allReduce _ _ => true
  | .reduceScatter _ _ => true
  | .allGather _ _ => true
  | .broadcast _ _ => true
  | .collBarrier _ _ => true
  | .collComplete _ _ => true
  | .ckptStream _ _ => true
  | .restore _ _ => true
  | .digest _ _ => true
  | .epOpen _ _ => true
  | .epRequestArrival _ _ => true
  | .respond _ _ => true
  | .epFree _ _ => true
  | .epClose _ _ => true
  | .keepaliveSend _ _ _ => true
  | .partnerLivenessTimeout _ _ _ => true
  | .partnerPauseTimeout _ _ _ => true
  | .abortReceived _ _ _ _ => true
  | .stragglerTimeout _ _ => true
  | .ecRecordRewrite _ => true
  | .heartbeatTimeout _ => true
  | .spareWake _ _ _ _ => true
  | .siteEfuseTrip _ => true
  | .sectorEfuseTrip _ => true
  | .phaseFailure _ _ _ => true
  | .inrushRequest _ _ _ => true
  | .inrushGrant _ _ => true
  | .inrushWaitExpiry _ => true
  | .rampEnd _ _ => true
  | .sectorOvercurrent _ _ => true
  | .budgetDivide _ demand _ => decide (demand.length ≤ 24)
  | .budgetLoanLapse _ => true
  | .inputPowerSample _ _ => true
  | .regionSleep _ => true
  | .regionAon _ => true
  | .regionWake _ => true
  | .ref10Loss => true
  | .tbmFrefWrite _ _ => true
  | .fabricPllLockLoss _ => true
  | .vlogicDroop _ _ _ _ => true
  | .eyespotReport _ _ _ _ => true
  | .tbPulseSend => true
  | .tbPulseArrival _ _ => true
  | .tbPulseMissing _ => true
  | .ppsEdge _ _ => true
  | .tbLoRead _ => true
  | .tbmPpsStampLoRead => true
  | .rtcSecWrite _ => true
  | .thermalBudgetUpdate => true
  | .coolantFlowRead _ => true
  | .coolantTempRead _ _ => true
  | .flowFailNLow => true
  | .flowStopForcedHalt _ => true
  | .flowStopEnd _ => true
  | .hotspotUpdate _ _ => true
  | .throttleRecoveryStep _ => true
  | .hardTrip _ => true
  | .spdmRequest _ _ => true
  | .pqEndorse _ _ _ => true
  | .kemGet _ _ => true
  | .ownerBind _ _ _ ct => decide (ct.length = 1568)
  | .nkSet _ _ _ _ _ _ _ => true
  | .nkClear _ _ _ _ _ => true
  | .ownerRelease _ _ _ _ => true
  | .kpStatus _ _ _ => true
  | .cakSet _ _ _ => true
  | .bindRoles => true
  | .rotateRoles => true
  | .layoutPkt => true
  | .debugUnlock => true
  | .fwPolicy => true
  | .fuseWrite => true
  | .recordClear => true
  | .keyHierarchy => true
  | .rwqWrite => true
  | .polCounterLoRead => true
  | .scoreKick => true
  | .scoreWatchdogExpiry => true
  | .fwUnrecoverableError => true
  | .scoreMismatch => true
  | .shedLevelEval _ _ _ _ => true
  | .telemetryWrite => true
  | .mctpSetEndpointId _ => true
  | .vdmRegRead _ n => decide (n < 256)
  | .vdmRegWrite _ _ => true
  | .vdmBbInfo => true
  | .vdmBbRead _ _ _ => true
  | .vdmCocoon => true
  | .vdmWarmReset => true
  | .vdmPolicyChunk off _ last => decide (off < 2 ^ 32) && last.all packetOk
  | .pldmFwData off _ => decide (off < 2 ^ 32)
  | .pldmVerifyComplete _ _ _ _ => true
  | .pldmActivateFirmware _ => true
  | .bbRecordAppend => true
  | .repairReport => true
  | .serviceSpiRead _ _ _ _ => true
  | .cellWopen _ => true
  | .cellCloseNow _ => true
  | .cellCloseQuiesce _ => true
  | .cellCloseEnded _ => true
  | .cellWquery _ => true
  | .registerWrite p off _ => registerOk p off
  | .fwRestarted => true
  | .proboscisAccess a => accessOnPins a
  | .scpmOverClears _ _ => true
  | .selfRefreshExit _ => true

end Sys2Proof
end

