-- ==== Sys2Proof/Machine/FabInsn.lean ====
section
/-! DEFINITION. The events of the routers, of the control network's messages and heartbeats, and of the synchronisation
network (R288–R297, R303, R307–R313). -/

namespace Sys2Proof.Machine

/-- The head's output at a router (R296): its port and channel, and whether it is deflected. `free` gives, per port N, E, S, W, local, the
lowest free channel. -/
def routeHead (e : BitVec 13) (free : List (Option Nat)) : Option (Nat × Nat × Bool) :=
  let ch := fun p => (free[p]?).join
  let pri := fld e 2 0
  let alt := fld e 5 3
  match ch pri with
  | some c => some (pri, c, false)
  | none =>
    match (if pri ≠ 4 ∧ alt < 4 then ch alt else none) with
    | some c => some (alt, c, false)
    | none => ((List.range 4).findSome? (fun p => if pri ≠ 4 ∧ (p = pri ∨ p = alt) then none else (ch p).map (fun c => (p, c, true))))

/-! ### The slot table (R290–R293) -/

/-- The entries of a phase. -/
def Fab.entriesOf (f : Fab) (ph : Nat) : List (BitVec 80) :=
  let p := f.phIdx.get 0 ph
  if !bit p 31 then [] else ((List.range (fld p 30 15)).map (fun i => f.slot.get 0 (fld p 14 0 + i))).filter (fun e => bit e 78)

/-- The slot-table entry that covers a scheduled flit, which arrives in fc `fc` of the time base (R290, R291). -/
def Fab.entryFor (f : Fab) (fc inp inch : Nat) : Option (BitVec 80) :=
  f.runs.findSome? (fun r => (f.entriesOf r.num).find? (fun e =>
    !bit e 79 && decide (fld e 42 40 = inp) && decide (fld e 48 43 = inch)
      && decide (r.t + fld e 23 0 ≤ fc) && decide (fc < r.t + fld e 23 0 + fld e 39 24)))

/-- The outputs of an entry: one port and channel, or those of its tree (R291, R292). -/
def Fab.entryOutputs (f : Fab) (e : BitVec 80) : List (Nat × Nat) := slotOutputs (f.tree.get 0) e

/-- An entry reserves output channel `c` of port `p` in one of the `k` fc from `fc` on (R288); a closure reserves it too. -/
def Fab.reserved (f : Fab) (p c fc k : Nat) : Bool :=
  f.runs.any (fun r => (f.entriesOf r.num).any (fun e =>
    (f.entryOutputs e).contains (p, c) && decide (r.t + fld e 23 0 < fc + k) && decide (fc < r.t + fld e 23 0 + fld e 39 24)))

/-- Channel `c` of port `p` of die-cell `n`'s router exists and its module is there (R281, R283, R284). -/
def Fab.present (f : Fab) (n p c : Nat) : Bool :=
  if p < 4 then
    let l := f.link.get {} p
    decide (c < 24) && (l.st == 2 || l.st == 3) && !bit l.absent (c / 3)
  else decide (c < localChannels n)

/-- A channel is free for `k` flits at fc `fc` (R288). -/
def Fab.free (f : Fab) (n p c fc k : Nat) : Bool :=
  f.present n p c && !f.reserved p c fc k && decide (f.busy.get 0 (64 * p + c) ≤ fc)

/-! ### Control packets (R306–R308) -/

/-- CT_PRIO: heartbeats, exception reports and repair reports (R307). -/
def CtlPkt.prio (p : CtlPkt) : Bool :=
  match p.body with
  | .heartbeat | .msg (.exception _ _ _ _) | .msg (.spmRepair _ _ _ _) | .msg (.stackRepair _ _ _ _) => true
  | _ => false

/-- The body of a control packet (R307): its bytes, filled up to a multiple of 16. The fields of a message are the model's (log 96). -/
def CtlBody.bytes (b : CtlBody) : List Byte :=
  let raw : List Byte := match b with
    | .regRsp _ code data => bytesLE 4 code.toNat ++ data.flatMap (fun w => bytesLE 4 w.toNat)
    | .msg (.exception t code pc unit) => bytesLE 1 1 ++ bytesLE 1 code.toNat ++ bytesLE 2 t ++ bytesLE 2 pc.toNat ++ bytesLE 1 unit.toNat
    | .msg (.spmRepair t bank row retire) => bytesLE 1 2 ++ bytesLE 1 bank ++ bytesLE 2 t ++ bytesLE 2 row ++ bytesLE 1 (b2n retire)
    | .msg (.stackRepair k q chunk kind) => bytesLE 1 3 ++ bytesLE 1 kind ++ bytesLE 2 k ++ bytesLE 2 q ++ bytesLE 4 chunk
    | .msg (.stackHot k temp) => bytesLE 1 4 ++ bytesLE 1 temp.toNat ++ bytesLE 2 k
    | .msg (.tileFailure t) => bytesLE 1 5 ++ bytesLE 1 0 ++ bytesLE 2 t
    | .heartbeat => []
  raw ++ List.replicate ((16 - raw.length % 16) % 16 + (if raw = [] then 16 else 0)) 0

/-- The 8-byte header of a control packet to the hub (R307). -/
def CtlPkt.header (p : CtlPkt) : BitVec 64 :=
  let b := p.body.bytes
  let ty := match p.body with | .regRsp _ _ _ => 3 | .msg _ => 4 | .heartbeat => 6
  let tag := match p.body with | .regRsp tag _ _ => tag.toNat | _ => 0
  let h := ty + (b.length / 16 - 1) * 2 ^ 4 + b2n p.prio * 2 ^ 6 + (nodeCell p.src).toNat * 2 ^ 8 + 0x3F00 * 2 ^ 24 + tag * 2 ^ 40
  BitVec.ofNat 64 (h + crc16 (bytesLE 6 h ++ b) * 2 ^ 48)

/-- The packet that die-cell `n` sends next (R308): its oldest priority packet, else its oldest; and the queue without it. -/
def takeCtl (q : List CtlPkt) (n : Nat) : Option (CtlPkt × List CtlPkt) :=
  let one := fun (f : CtlPkt → Bool) => (q.findIdx? f).bind (fun i => (q[i]?).map (fun c => (c, q.eraseIdx i)))
  match one (fun c => c.src == n && c.prio) with
  | some r => some r
  | none => one (fun c => c.src == n)

/-- The way of a packet of die-cell `n` to the hub (R306): links of its ring with the place that sends over each, the shorter way round that
works; a port die has the one link. -/
def State.ctlWay (s : State) (n : Nat) : Option (List (Nat × Nat)) :=
  match s.siteOf n with
  | some p =>
    let k := p / 12
    let i := p % 12
    let up := (List.range (12 - i)).map (fun j => (i + j, i + j))
    let down := (List.range (i + 1)).map (fun j => ((i + 12 - j) % 13, i - j))
    let ok := fun (l : List (Nat × Nat)) => l.all (fun x => s.ringLink k x.1)
    let two := if 12 - i < i + 1 then [up, down] else [down, up]
    two.find? ok
  | none =>
    if n = 264 then some []
    else if s.hub.ringOn && !s.hub.ringDown.contains (312 + (n - 265)) then some [(0, 0)] else none

/-- A packet crosses one link, which repeats it for every failed check up to the second; at the third the link is marked failed (R307). -/
def State.ctlCross (s : State) (n : Nat) (x : Nat × Nat) (fails : Nat) : State :=
  let key := (s.siteOf n).map (fun p => p / 12)
  let from_ := match key with | some k => s.nodeAt (12 * k + x.2) | none => some n
  let s1 := match from_ with
    | some m => s.updNode m (fun y => { y with ctl := { y.ctl with retry := satAdd y.ctl.retry (min 2 fails) } })
    | none => s
  if fails < 3 then s1
  else match key with
    | some k => (s1.updHub (fun h => { h with ringDown := h.ringDown ++ [13 * k + x.1] })).ringPorts (12 * k)
    | none => (s1.updHub (fun h => { h with ringDown := h.ringDown ++ [312 + (n - 265)] })).ringPorts (288 + (n - 265))

/-- A packet travels a way until a link fails; whether it comes through. -/
def State.ctlGo (s : State) (n : Nat) (errs : List (Fin 13 × Fin 4)) : List (Nat × Nat) → State × Bool
  | [] => (s, true)
  | x :: r =>
    let f := ((errs.find? (fun e => e.1.val == x.1)).map (fun e => e.2.val)).getD 0
    let s1 := s.ctlCross n x f
    if 3 ≤ f then (s1, false) else State.ctlGo s1 n errs r

/-- A packet of die-cell `n` travels to the hub (R306, R307); `errs` are the links at which checks fail, and how often. After a link has
failed it takes the other way round. -/
def State.ctlTravel (s : State) (n : Nat) (errs : List (Fin 13 × Fin 4)) : State × Bool :=
  match s.ctlWay n with
  | none => (s, false)
  | some w =>
    let r := s.ctlGo n errs w
    if r.2 then r
    else match r.1.ctlWay n with
      | none => r
      | some v => r.1.ctlGo n (errs.filter (fun e => !w.any (fun x => x.1 == e.1.val))) v

/-- Where the next packet of die-cell `n` is of a kind, it travels, and `act` is what the hub does with it. -/
def State.ctlArrive (s : State) (n : Nat) (errs : List (Fin 13 × Fin 4)) (kind : CtlPkt → Bool) (act : State → CtlPkt → State) : State :=
  match takeCtl s.ctlq n with
  | none => s
  | some (c, q) =>
    if !kind c then s
    else
      let r := s.ctlTravel n errs
      if r.2 then act { r.1 with ctlq := q } c else r.1

/-- CTL_REG_RSP (R306–R308): a register response of die-cell `n` reaches hub firmware. -/
def execCtlRegRsp (n : NodeNo) (errs : List (Fin 13 × Fin 4)) (s : State) : Result :=
  .next (s.ctlArrive n.val errs (fun c => match c.body with | .regRsp _ _ _ => true | _ => false)
    (fun s c => { s with hub := { s.hub with inbox := s.hub.inbox ++ [c] } }))

/-- HEARTBEAT_SEND (R308). -/
def execHeartbeatSend (n : NodeNo) (s : State) : Result := .next { s with ctlq := s.ctlq ++ [⟨n.val, .heartbeat⟩] }

/-- CTL_HEARTBEAT (R306–R308, R483): the heartbeat of die-cell `n` restarts its timer at the hub. -/
def execCtlHeartbeat (n : NodeNo) (errs : List (Fin 13 × Fin 4)) (s : State) : Result :=
  .next (s.ctlArrive n.val errs (fun c => c.body == .heartbeat)
    (fun s _ => { s with hub := { s.hub with hb := s.hub.hb.put 0 n.val s.now } }))

/-- SYNC_ARRIVAL (R311): an arrival from a child of node `n` on channel `ch` is combined there. -/
def execSyncArrival (n : NodeNo) (ch : Fin 17) (c : SyncChild) (s : State) : Result :=
  .next (match c with
    | .tile i => s.syncFromTile n.val ch.val (16 * n.val + i.val)
    | .edge e => s.syncFromEdge n.val ch.val e.val)

/-- SYNC_DELIVERY (R312): a channel complete at its root `n` delivers to every member. The step channel delivers through
STEP_COMBINE and the wingbeat. -/
def execSyncDelivery (n : NodeNo) (ch : Fin 16) (s : State) : Result :=
  .next (if bit (s.chCfg n.val ch.val) 25 && s.syncFull n.val ch.val then
    let l := (s.node n.val).sync.got.get [] ch.val
    (s.syncClear n.val ch.val).syncDeliver ch.val l
  else s)

end Sys2Proof.Machine
end

