-- ==== Sys2Proof/Machine/Image.lean ====
section
/-! DEFINITION. The schedule image file (R346–R350): header, directory and sections read from its bytes. Where the spec gives a section no
layout of its own (the counts of ROUTES, the parts of XDTILE and XDSTACK) assumption log 98 fixes one. A failure is a check's code, the
section's index in the directory and the record's index (R351). -/

namespace Sys2Proof.Machine

/-- A failure of a loader check: code, section index, record index. -/
abbrev LoadErr := Nat × Nat × Nat

/-! ### Records -/

/-- The number at bytes `off` to `off + n - 1`. -/
def leAt (bs : List Byte) (off n : Nat) : Nat := ofLE ((bs.drop off).take n)

/-- Bits [hi:lo] of a number. -/
def bitsAt (v hi lo : Nat) : Nat := v / 2 ^ lo % 2 ^ (hi + 1 - lo)

/-- Pieces of `k` bytes. -/
def pieces (k : Nat) (bs : List Byte) : List (List Byte) := (List.range (bs.length / k)).map (fun i => (bs.drop (k * i)).take k)

/-- A section of records of `k` bytes, as numbers; the first that breaks its layout fails. -/
def fixedRecs (k : Nat) (ok : Nat → Bool) (bs : List Byte) : Except Nat (List Nat) :=
  let l := (pieces k bs).map ofLE
  if bs.length % k ≠ 0 then .error (bs.length / k)
  else match l.findIdx? (fun v => !ok v) with
    | some i => .error i
    | none => .ok l

/-- A section of records of variable size; `one` takes one off. -/
def varRecs {α : Type} (one : List Byte → Option (α × List Byte)) : Nat → List Byte → Nat → Except Nat (List α)
  | 0, bs, i => if bs = [] then .ok [] else .error i
  | n + 1, bs, i =>
    if bs = [] then .ok []
    else match one bs with
      | none => .error i
      | some (a, r) =>
        match varRecs one n r (i + 1) with
        | .ok l => .ok (a :: l)
        | .error e => .error e

/-- Every item of a list of outcomes, or the first failure. -/
def allOk {ε α : Type} : List (Except ε α) → Except ε (List α)
  | [] => .ok []
  | .error e :: _ => .error e
  | .ok a :: t =>
    match allOk t with
    | .ok l => .ok (a :: l)
    | .error e => .error e

/-- `n` bytes up to the next multiple of `k`. -/
def padTo (k n : Nat) : Nat := (n + k - 1) / k * k

/-- A record of `n` bytes, padded with zeros to a multiple of `k`, taken off. -/
def takeRec (k n : Nat) (bs : List Byte) : Option (List Byte × List Byte) :=
  if padTo k n ≤ bs.length ∧ ((bs.drop n).take (padTo k n - n)).all (· == 0) then some (bs.take n, bs.drop (padTo k n)) else none

/-- Two-byte numbers. -/
def halves (bs : List Byte) : List Nat := (pieces 2 bs).map ofLE

/-! ### The sections (R347–R350) -/

/-- The bits of an exchange descriptor that are not reserved (R327). -/
def xdMask : BitVec 256 :=
  ~~~(BitVec.ofNat 256 (0xC000 + 0xFF * 2 ^ 24 + 0xFF * 2 ^ 56 + 0x7F * 2 ^ 89 + 7 * 2 ^ 133 + 0xFFFFFFFF * 2 ^ 224))

/-- A beat record within its ranges (R348). -/
def beatForm (v : Nat) : Bool :=
  decide (bitsAt v 15 15 = 0 ∧ bitsAt v 63 59 = 0 ∧ 1024 ≤ bitsAt v 47 16) && (decide (bitsAt v 58 58 = 0) || decide (1 ≤ bitsAt v 95 64))

/-- A slot-table entry within its ranges (R290). -/
def slotForm (v : Nat) : Bool :=
  decide (v < 2 ^ 80 ∧ 1 ≤ bitsAt v 39 24 ∧ bitsAt v 42 40 ≤ 4) && (decide (bitsAt v 51 49 ≤ 4) || decide (bitsAt v 51 49 = 7))

/-- An exchange descriptor within its ranges (R327). -/
def descForm (stack : Bool) (v : Nat) : Bool :=
  decide ((BitVec.ofNat 256 v &&& ~~~xdMask) = 0) && decide (bitsAt v 88 64 ≤ 16777216 ∧ bitsAt v 23 16 < 64)
    && (if stack then decide (2 ≤ bitsAt v 1 0) else decide (bitsAt v 1 0 < 2 ∧ bitsAt v 6 2 < 2))

/-- A code block: its word count, then its instructions. -/
def takeCode (bs : List Byte) : Option (List Insn × List Byte) :=
  let n := leAt bs 0 4
  if 4 ≤ bs.length ∧ 4 + 16 * n ≤ bs.length then
    some ((pieces 16 ((bs.drop 4).take (16 * n))).map (fun p => BitVec.ofNat 128 (ofLE p)), bs.drop (4 + 16 * n))
  else none

/-- A TILEDATA record: relative tile or 0xFFF, offset, bytes. -/
def takeTileData (nsect : Nat) (bs : List Byte) : Option ((Nat × Nat × List Byte) × List Byte) :=
  let w := leAt bs 0 8
  let t := bitsAt w 11 0
  if bs.length < 8 ∨ bitsAt w 15 12 ≠ 0 ∨ ¬(t = 0xFFF ∨ t < 160 * nsect) then none
  else match takeRec 8 (bitsAt w 63 40) (bs.drop 8) with
    | some (d, r) => some ((t, bitsAt w 39 16, d), r)
    | none => none

/-- A STACKDATA record: sector rank, offset, bytes. -/
def takeStackData (nsect : Nat) (bs : List Byte) : Option ((Nat × Nat × List Byte) × List Byte) :=
  let w := leAt bs 0 8
  if bs.length < 8 ∨ nsect ≤ bitsAt w 4 0 then none
  else match takeRec 1 (4096 * bitsAt w 63 42) (bs.drop 8) with
    | some (d, r) => some ((bitsAt w 4 0, bitsAt w 41 5, d), r)
    | none => none

/-- A router's record of ROUTES: a head of 16 bytes with the site in [8:0] and the counts of slot entries [31:16], phase index words [44:32]
and trees [56:48]; the entries of 16 bytes, and the words of 4 padded to 16. -/
def takeRoute (nsect : Nat) (bs : List Byte) : Option (ZsiRoute × List Byte) :=
  let w := leAt bs 0 16
  let a := bitsAt w 31 16
  let b := bitsAt w 44 32
  let c := bitsAt w 56 48
  if bs.length < 16 ∨ w ≠ bitsAt w 8 0 + a * 2 ^ 16 + b * 2 ^ 32 + c * 2 ^ 48 ∨ 12 * nsect ≤ bitsAt w 8 0 ∨ 4096 < b ∨ 256 < c then none
  else match takeRec 16 (16 * a) (bs.drop 16) with
    | none => none
    | some (sl, r) =>
      match takeRec 16 (4 * (b + c)) r with
      | none => none
      | some (ws, r') =>
        let slots := (pieces 16 sl).map ofLE
        let trees := (pieces 4 (ws.drop (4 * b))).map ofLE
        if slots.all slotForm ∧ trees.all (fun t => decide (t < 2 ^ 22)) then
          some (⟨bitsAt w 8 0, slots.map (BitVec.ofNat 80), (pieces 4 (ws.take (4 * b))).map (fun p => BitVec.ofNat 32 (ofLE p)),
            trees.map (BitVec.ofNat 22)⟩, r')
        else none

/-- The lists of one engine: 4,096 phase index words, then the descriptors that the valid words count, in the order of the phases. -/
def takeXd (stack : Bool) (bs : List Byte) : Option (ZsiXd × List Byte) :=
  let ws := (pieces 4 (bs.take 16384)).map ofLE
  let n := ws.foldl (fun a w => if bitsAt w 31 31 = 1 then a + bitsAt w 30 20 else a) 0
  if bs.length < 16384 + 32 * n then none
  else
    let ds := (pieces 32 ((bs.drop 16384).take (32 * n))).map ofLE
    if ds.all (descForm stack) then some (⟨ws.map (BitVec.ofNat 32), ds.map (BitVec.ofNat 256)⟩, bs.drop (16384 + 32 * n)) else none

/-- A CKPT record over `n` code blocks: its word and the resume entries. -/
def takeCkptRec (n : Nat) (bs : List Byte) : Option ((W32 × List Nat) × List Byte) :=
  match takeRec 4 (4 + 2 * n) bs with
  | none => none
  | some (d, r) =>
    let w := leAt d 0 4
    let es := halves (d.drop 4)
    if bitsAt w 31 26 = 0 ∧ es.all (fun e => decide (e < 2048)) then some ((BitVec.ofNat 32 w, es), r) else none

/-- Numbers in strictly ascending order. -/
def ascending : List Nat → Bool
  | a :: b :: t => decide (a < b) && ascending (b :: t)
  | _ => true

/-- A SYNCCFG record: its word and the members. -/
def takeSync (nsect : Nat) (bs : List Byte) : Option ((W32 × List Nat) × List Byte) :=
  let w := leAt bs 0 4
  match takeRec 4 (4 + 2 * bitsAt w 27 16) bs with
  | none => none
  | some (d, r) =>
    let ms := halves (d.drop 4)
    if bitsAt w 15 12 = 0 ∧ bitsAt w 31 28 = 0 ∧ ms.all (fun m => decide (m < 160 * nsect)) ∧ ascending ms then
      some ((BitVec.ofNat 32 w, ms), r)
    else none

/-- A patch record of 24 bytes (R350). -/
def patchForm (nsect v : Nat) : Bool :=
  decide (bitsAt v 63 28 = 0 ∧ bitsAt v 4 0 < nsect ∧ bitsAt v 8 5 < 10 ∧ bitsAt v 12 9 < 12) && slotForm (v / 2 ^ 64)

/-! ### The file (R346) -/

/-- A section of the file, by its directory entry. -/
structure ZsiSect where
  ix : Nat
  ty : Nat
  place : Nat
  var : Nat
  bytes : List Byte
  deriving DecidableEq, Repr

/-- The header and the directory hold (check 0x01). -/
def headerOk (f : List Byte) : Bool :=
  decide (128 ≤ f.length ∧ leAt f 0 4 = 0x3449535A ∧ leAt f 4 2 = 1 ∧ leAt f 6 2 = 128 ∧ leAt f 124 4 = crc32 (f.take 124)
    ∧ 1 ≤ leAt f 8 4 ∧ leAt f 8 4 ≤ 4096 ∧ leAt f 12 4 < 4 ∧ 1 ≤ leAt f 40 1 ∧ leAt f 40 1 ≤ 24 ∧ 1 ≤ leAt f 41 1 ∧ leAt f 41 1 ≤ 8
    ∧ 1 ≤ leAt f 43 1 ∧ leAt f 43 1 ≤ 15 ∧ leAt f 44 1 ≤ 15 ∧ leAt f 45 3 = 0 ∧ leAt f 56 68 = 0
    ∧ 1 ≤ leAt f 52 4 ∧ leAt f 52 4 ≤ 1024 ∧ leAt f 32 8 + 32 * leAt f 8 4 ≤ f.length)
    && (List.range 11).any (fun k => leAt f 48 4 == 64 * 2 ^ k)

/-- Directory entry `i` and its section: none where it is ignored, a failure where it does not hold. -/
def sectAt (f : List Byte) (i : Nat) : Except LoadErr (Option ZsiSect) :=
  let d := (f.drop (leAt f 32 8 + 32 * i)).take 32
  let ty := leAt d 0 2
  let bs := (f.drop (leAt d 8 8)).take (leAt d 16 8)
  if 2 ≤ leAt d 4 4 ∨ leAt d 28 4 ≠ 0 ∨ bs.length ≠ leAt d 16 8 ∨ leAt d 24 4 ≠ crc32 bs ∨ ¬(leAt d 2 1 < 8 ∨ leAt d 2 1 = 0xFF) then
    .error (1, i, 0)
  else if ty = 0 ∨ 0x10 < ty then (if leAt d 4 4 = 1 then .error (1, i, 0) else .ok none)
  else .ok (some ⟨i, ty, leAt d 2 1, leAt d 3 1, bs⟩)

/-- The section of a type for a placement and a program; a variant without one of its own has the base's (assumption log 98). -/
def sectOf (l : List ZsiSect) (ty place var : Nat) : Option ZsiSect :=
  let of_ := fun v => l.find? (fun s => s.ty == ty && (s.place == place || s.place == 0xFF) && s.var == v)
  match of_ var with
  | some s => some s
  | none => if ty = 0xE then none else of_ 0

/-- A section's records, none where the image has no such section. -/
def readSect {α : Type} (l : List ZsiSect) (ty place var : Nat) (dec : List Byte → Except Nat (List α)) : Except LoadErr (List α) :=
  match sectOf l ty place var with
  | none => .ok []
  | some s =>
    match dec s.bytes with
    | .ok r => .ok r
    | .error r => .error (1, s.ix, r)

/-- A section of variable records. -/
def readVar {α : Type} (l : List ZsiSect) (ty place var : Nat) (one : List Byte → Option (α × List Byte)) : Except LoadErr (List α) :=
  readSect l ty place var (fun bs => varRecs one bs.length bs 0)

/-- A VARKEY section: up to 8 numbers, padded with 0xFFFF. -/
def keyOf (bs : List Byte) : Except Nat (List Nat) :=
  let l := halves bs
  let k := l.filter (· != 0xFFFF)
  if bs.length = 16 ∧ l = k ++ List.replicate (8 - k.length) 0xFFFF then .ok k else .error 0

/-- Program `var` of an image as placement `place` has it. -/
def readProg (l : List ZsiSect) (nsect place var : Nat) : Except LoadErr ZsiProg := do
  let key ← readSect l 0xE place var keyOf
  let beats ← readSect l 2 place var (fixedRecs 16 beatForm)
  let code ← readVar l 3 place var takeCode
  let tilemap ← readSect l 4 place var (fixedRecs 8 (fun v => decide (bitsAt v 63 27 = 0 ∧ bitsAt v 15 0 < code.length)))
  let tiledata ← readVar l 5 place var (takeTileData nsect)
  let stackdata ← readVar l 6 place var (takeStackData nsect)
  let windows ← readSect l 7 place var (fixedRecs 16 (fun v => decide (bitsAt v 15 9 = 0 ∧ bitsAt v 95 95 = 0 ∧ bitsAt v 127 127 = 0)))
  let routes ← readVar l 8 place var (takeRoute nsect)
  let xdtile ← readVar l 9 place var (takeXd false)
  let xdstack ← readVar l 0xA place var (takeXd true)
  let xend ← readSect l 0xB place var (fixedRecs 4 (fun v => decide (v < 2 ^ 24 ∨ v = 0xFFFFFFFF)))
  let patches ← readSect l 0xC place var (fixedRecs 24 (patchForm nsect))
  let buffers ← readSect l 0xD place var (fixedRecs 12 (fun v => decide (bitsAt v 23 22 < 3 ∧ bitsAt v 26 24 < 3 ∧ bitsAt v 21 10 < 160 * nsect)))
  let ckpts ← readVar l 0xF place var (takeCkptRec code.length)
  let sync ← readVar l 0x10 place var (takeSync nsect)
  return {
    ix := (List.range 17).map (fun ty => (ty, match sectOf l ty place var with | some s => s.ix | none => 0))
    key := key, beats := beats.map (BitVec.ofNat 128), code := code, tilemap := tilemap.map (BitVec.ofNat 64), tiledata := tiledata
    stackdata := stackdata, windows := windows.map (BitVec.ofNat 128), routes := routes, xdtile := xdtile, xdstack := xdstack
    xend := xend.map (BitVec.ofNat 32), patches := patches.map (fun v => (BitVec.ofNat 64 v, BitVec.ofNat 80 (v / 2 ^ 64)))
    buffers := buffers.map (BitVec.ofNat 96), ckpts := ckpts, sync := sync }

/-- The sectors of placement `p`: ascending, and 0xFF beyond the shape (R347). -/
def readPlace (l : List ZsiSect) (nsect p : Nat) : Except LoadErr (List Nat) :=
  match sectOf l 1 p 0 with
  | none => .error (1, 0, p)
  | some s =>
    let ks := (s.bytes.take nsect).map (·.toNat)
    if s.bytes.length ≠ 24 ∨ !(s.bytes.drop nsect).all (· == 0xFF) ∨ ks.any (fun k => decide (24 ≤ k)) then .error (1, s.ix, 0)
    else if !ascending ks then .error (2, s.ix, 0)
    else .ok ks

/-- The image file, once for each of its placements (R346–R350). -/
def readImage (f : List Byte) : Except LoadErr (List Zsi) :=
  if !headerOk f then .error (1, 0, 0)
  else do
    let l := (← allOk ((List.range (leAt f 8 4)).map (sectAt f))).filterMap id
    let nsect := leAt f 40 1
    allOk ((List.range (leAt f 41 1)).map (fun p => do
      let secs ← readPlace l nsect p
      let progs ← allOk ((List.range (leAt f 42 1 + 1)).map (readProg l nsect p))
      return {
        imageId := BitVec.ofNat 64 (leAt f 16 8), seed := BitVec.ofNat 64 (leAt f 24 8), twinOk := (leAt f 12 4).testBit 0
        exact := (leAt f 12 4).testBit 1, nsect := nsect, secs := secs, replayMax := leAt f 43 1, rollbackMax := leAt f 44 1, q := leAt f 48 4
        base := progs.headD {}, variants := progs.drop 1, digest := Config.sha384 f }))

/-- Where a program's section of a type stands in the directory. -/
def ZsiProg.at_ (g : ZsiProg) (ty : Nat) : Nat := ((g.ix.find? (fun e => e.1 == ty)).map (·.2)).getD 0

end Sys2Proof.Machine
end

