-- ==== Sys2Proof/Machine/RouteOps.lean ====
section
/-! DEFINITION. The torus and the route tables (R277–R282, R294, R628). Every router's table follows from the site map, the power
regions and the link states alone. -/

namespace Sys2Proof.Machine

/-- The first position of the ring of a line through a site, and its number of sites (R277). -/
def ringOf (isY : Bool) (x y : Nat) : Nat × Nat :=
  if isY then (if 8 ≤ x ∧ x ≤ 11 then (if y < 6 then (0, 6) else (9, 6)) else (0, 15))
  else (if 6 ≤ y ∧ y ≤ 8 then (if x < 8 then (0, 8) else (12, 8)) else (0, 20))

/-- The two neighbours of position `i` in the folded order of a ring of `n` (R278). -/
def ringNext (n i : Nat) : List Nat :=
  [if 2 ≤ i then i - 2 else 1 - i, if i + 2 < n then i + 2 else if i + 1 = n then n - 2 else n - 1]

/-- A torus link as one of its sites sees it: the other site, the ring, its edge (an end site carries both of its links on
its inner edge), and the site whose repeat path it crosses. -/
structure TorusLink where
  dst : Nat
  isY : Bool
  edge : Nat
  mid : Option Nat
  deriving DecidableEq, Repr

/-- The links of a site within one of its rings. -/
def ringLinks (p : Nat) (isY : Bool) : List TorusLink :=
  let c := siteXY p
  let r := ringOf isY c.1 c.2
  let i := (if isY then c.2 else c.1) - r.1
  let at_ := fun j => if isY then siteAt c.1 (r.1 + j) else siteAt (r.1 + j) c.2
  (ringNext r.2 i).filterMap (fun j => (at_ j).map (fun q =>
    { dst := q, isY := isY, edge := if isY then (if i < j then 2 else 0) else (if i < j then 1 else 3),
      mid := if i + 2 = j ∨ j + 2 = i then at_ ((i + j) / 2) else none }))

/-- The four torus links of a site. -/
def torusLinks (p : Nat) : List TorusLink := ringLinks p false ++ ringLinks p true

/-- The links at edge `e` of die-cell `n` are in service: UP or DEGRADED (R316). -/
def State.edgeUp (s : State) (n e : Nat) : Bool :=
  let t := ((s.node n).fab.link.get {} e).st
  t == 2 || t == 3

/-- A site's router serves: its region is ACTIVE and it serves a die-cell. -/
def State.routerAt (s : State) (p : Nat) : Option Nat :=
  match s.nodeAt p with
  | some n => if s.hub.region.get 0 p = 3 then some n else none
  | none => none

/-- A torus link of site `p` is in service (R281, R282). -/
def State.torusUp (s : State) (p : Nat) (l : TorusLink) : Bool :=
  match s.routerAt p, s.routerAt l.dst with
  | some a, some b =>
    s.edgeUp a l.edge && (torusLinks l.dst).any (fun m => m.dst == p && m.isY == l.isY && s.edgeUp b m.edge)
      && (match l.mid with | some m => decide (s.hub.region.get 0 m ≠ 0) | none => true)
  | _, _ => false

/-- An attachment is in service. -/
def State.attachUp (s : State) (a : Nat × Nat × Nat × Nat) : Bool :=
  match s.routerAt a.2.1 with
  | some n => s.edgeUp n a.2.2.1 && decide (s.power a.1 = 3)
  | none => false

/-! ### Physical tiles (R29, R30) -/

/-- The physical tile behind logical tile `l` of the die on P-site `p`. -/
def State.physTile (s : State) (p l : Nat) : Nat := if s.hub.boot.spareTile.get 0 p = l + 1 then 16 else l

/-- Die-cell `n` is a compute die whose spare tile stands in for no logical tile (R30). -/
def State.spareFree (s : State) (n : Nat) : Bool :=
  decide (n < 240) && (match s.siteOf n with | some p => decide (s.hub.boot.spareTile.get 0 p = 0) | none => false)

/-- The tile that physical tile `t` of P-site `p` is, if the site serves an L-die and the tile a mesh position. -/
def State.tileAt (s : State) (p t : Nat) : Option Nat :=
  match s.nodeAt p with
  | none => none
  | some n =>
    if 240 ≤ n then none
    else
      let sp := s.hub.boot.spareTile.get 0 p
      if t = 16 then (if sp = 0 then none else some (16 * n + sp - 1))
      else if sp = t + 1 then none else some (16 * n + t)

/-! ### Routes (R628) -/

/-- Cost of a site that no route reaches. -/
def noRoute : Nat × Nat := (1000, 0)

/-- Fewest hops and fewest ring changes to the target, by 2 × site + ring of the hop that reaches the site: one layer of
sites more. -/
def State.routeLayer (s : State) (h : Nat) (front : List Nat) (t : Table (Nat × Nat)) : Table (Nat × Nat) × List Nat :=
  front.foldl (fun a k =>
    let c := (Table.get noRoute a.1 k).2
    ((torusLinks (k / 2)).filter (fun l => l.isY == (k % 2 == 1) && s.torusUp (k / 2) l)).foldl (fun a l =>
      [0, 1].foldl (fun a d =>
        let i := 2 * l.dst + d
        let old := Table.get noRoute a.1 i
        let c' := c + b2n (d ≠ k % 2)
        if old.1 < h + 1 ∨ (old.1 = h + 1 ∧ old.2 ≤ c') then a
        else (Table.put noRoute a.1 i (h + 1, c'), if old.1 = h + 1 then a.2 else a.2 ++ [i])) a) a) (t, [])

/-- All layers. -/
def State.routeLayers (s : State) (h : Nat) (front : List Nat) (t : Table (Nat × Nat)) : Nat → Table (Nat × Nat)
  | 0 => t
  | n + 1 =>
    match s.routeLayer h front t with
    | (t', []) => t'
    | (t', f) => State.routeLayers s (h + 1) f t' n

/-- The sites at which destination `d` is reached. -/
def State.exits (s : State) (d : Nat) : List Nat :=
  if d < 264 then (match s.siteOf d with | some p => if (s.routerAt p).isSome then [p] else [] | none => [])
  else (attachments.filter (fun a => a.1 == d && s.attachUp a)).map (fun a => a.2.1)

/-- Costs to destination `d` from every site. -/
def State.routeCosts (s : State) (d : Nat) : Table (Nat × Nat) :=
  let f := (s.exits d).flatMap (fun p => [2 * p, 2 * p + 1])
  s.routeLayers 0 f (f.foldl (fun t k => Table.put noRoute t k (0, 0)) []) 64

/-- A first output of a route: hops, then ring changes, then X before Y, then the port number (R628). -/
structure Hop where
  hops : Nat
  changes : Nat
  isY : Bool
  out : Nat
  deriving DecidableEq, Repr

/-- The rank by R628's rules in order. -/
def Hop.rank (h : Hop) : Nat := ((h.hops * 1024 + h.changes) * 2 + b2n h.isY) * 8 + h.out

/-- The outputs of die-cell `n` toward destination `d` whose costs are `t`. An attachment link is a hop (assumption log 64). -/
def State.firstHops (s : State) (n d : Nat) (t : Table (Nat × Nat)) : List Hop :=
  let x := b2n (decide (264 ≤ d))
  if n < 264 then
    match s.siteOf n with
    | none => []
    | some p =>
      match (attachments.find? (fun a => a.1 == d && a.2.1 == p && s.attachUp a)) with
      | some a => [⟨1, 0, false, a.2.2.1⟩]
      | none => ((torusLinks p).filter (s.torusUp p)).map (fun l =>
          let c := t.get noRoute (2 * l.dst + b2n l.isY)
          ⟨c.1 + 1 + x, c.2, l.isY, l.edge⟩)
  else
    (attachments.filter (fun a => a.1 == n && s.attachUp a)).map (fun a =>
      let c := t.get noRoute (2 * a.2.1)
      let e := t.get noRoute (2 * a.2.1 + 1)
      let m := if e.1 < c.1 ∨ (e.1 = c.1 ∧ e.2 < c.2) then e else c
      ⟨m.1 + 1 + x, m.2, false, a.2.2.2⟩)

/-- The destination is marked failed or invalid (R295). -/
def State.destDown (s : State) (d : Nat) : Bool :=
  s.hub.lost.contains d ||
    (if d < 240 then !(s.hub.anat.smap.get {} d).valid
     else if d < 264 then decide (2 ≤ (s.hub.anat.stk.get {} (d - 240)).state.toNat)
     else decide (s.power d = 0))

/-- The least of a list by a measure. -/
def leastBy {α : Type} (k : α → Nat) : List α → Option α
  | [] => none
  | x :: r => match leastBy k r with
    | none => some x
    | some y => if k x ≤ k y then some x else some y

/-- The route-table entry of die-cell `n` for destination `d` (R294, R628). RT_ALT is the best other output of the same
length (assumption log 64). -/
def State.routeEntry (s : State) (n d : Nat) (t : Table (Nat × Nat)) : BitVec 13 :=
  let down := b2n (s.destDown d) * 64
  if n = d then BitVec.ofNat 13 (4 + 7 * 8 + down + 128)
  else
    match leastBy Hop.rank ((s.firstHops n d t).filter (fun h => decide (h.hops < 1000))) with
    | none => BitVec.ofNat 13 (7 * 8 + down)
    | some h =>
      let alt := (leastBy Hop.rank ((s.firstHops n d t).filter (fun g => decide (g.hops = h.hops ∧ g.out ≠ h.out)))).map (·.out)
      BitVec.ofNat 13 (h.out + alt.getD 7 * 8 + down + 128 + min h.hops 31 * 256)

/-- The route tables of the die-cells `l` written from the site map (R628). -/
def State.rerouteOf (s : State) (l : List Nat) : State :=
  (List.range 269).foldl (fun s d =>
    let t := s.routeCosts d
    l.foldl (fun s n => s.updNode n (fun x => { x with fab := { x.fab with route := x.fab.route.put 0 d (s.routeEntry n d t) } })) s) s

/-- The partition of a die-cell does not run, so that its tables may be written (R316, R493). -/
def State.tablesFree (s : State) (n : Nat) : Bool :=
  if 264 ≤ n then true
  else
    let p := s.partOfSector (nodeSector n)
    if 24 ≤ p then true
    else match (s.part p).sch.state with
      | .running | .replaying => false
      | _ => true

/-- Hub firmware recomputes the routes after a loss (R282, R486, R493): routers of a running partition wait until it halts. -/
def State.reroute (s : State) : State :=
  let l := (List.range 269).filter s.tablesFree
  (s.rerouteOf l).updHub (fun h => { h with routesOld := decide (l.length < 269) })

/-- A partition has halted: its routers are written where a loss has left them old. -/
def State.rerouteLate (s : State) : State := if s.hub.routesOld then s.reroute else s

/-- A link end marked FAILED (R303, R316). -/
def State.markEnd (s : State) (n e : Nat) : State := s.updFab n (fun f => { f with link := f.link.upd {} e (fun l => { l with st := 4 }) })

/-- The region of site `p` is off (R282): an edge, of the site's own die or of any die whose links on that edge all join or pass the site,
is FAILED at that end. -/
def State.cutSite (s : State) (p : Nat) : State :=
  ((torusLinks p).map (·.dst) ++ (List.range 288).filter (fun q => (torusLinks q).any (fun l => l.mid == some p)) ++ [p]).eraseDups.foldl (fun s q =>
    match s.nodeAt q with
    | none => s
    | some n => (List.range 4).foldl (fun s e =>
        let ls := (torusLinks q).filter (fun l => l.edge == e)
        if !ls.isEmpty && ls.all (fun l => q == p || l.dst == p || l.mid == some p) then s.markEnd n e else s) s) s

/-- The die-cells that the links of edge `e` of die-cell `n` join, with their edges. -/
def State.linkedTo (s : State) (n e : Nat) : List (Nat × Nat) :=
  match s.siteOf n with
  | none => []
  | some p => ((torusLinks p).filter (fun l => l.edge == e)).filterMap (fun l => match s.nodeAt l.dst with
    | some m => ((torusLinks l.dst).find? (fun b => b.dst == p && b.isY == l.isY)).map (fun b => (m, b.edge))
    | none => none)

end Sys2Proof.Machine
end

