-- ==== Sys2Proof/Machine/Packet.lean ====
section
/-! DEFINITION. The packets of the bulk network: headers, payloads and flits (R286), the way through a die and the flight time (R283,
R284, R304), and the copies in which an operation aimed at a cell leaves (R298). -/

namespace Sys2Proof.Machine

/-! ### Headers and flits (R286) -/

/-- PK_TYPE of a request. -/
def opType : SegOp → Nat
  | .put => 1 | .get => 2 | .fadd => 4 | .cswap => 5 | .for_ => 6

/-- The payload of a request. -/
def segPayload (g : Segment) : List Byte :=
  match g.op with
  | .put => g.data
  | .get => []
  | .cswap => bytesLE 8 g.opnd.toNat ++ bytesLE 8 g.swap.toNat
  | .fadd | .for_ => bytesLE 8 g.opnd.toNat

/-- The fields that every header has. -/
def pkBase (ty : Nat) (sched mcast : Bool) (len src dst tag seq : Nat) : Nat :=
  ty + b2n sched * 2 ^ 4 + b2n mcast * 2 ^ 5 + len * 2 ^ 16 + src * 2 ^ 32 + dst * 2 ^ 48 + tag * 2 ^ 64 + seq * 2 ^ 80

/-- Time-base bits [31:0] of an instant (R286). -/
def State.issueT (s : State) (t : Nat) : Nat := match s.hub.tb.startAt with | some a => (t - a) % 2 ^ 32 | none => 0

/-- The header of a request to target `t`, or on tree `tree`. -/
def State.header (s : State) (t : Option Tgt) (tree : Nat) (g : Segment) : BitVec 256 :=
  let dst := match t with | some t => tgtNode t | none => tree
  let pga := match t with | some t => (pgaOf t g.off).toNat | none => g.off
  BitVec.ofNat 256 (pkBase (opType g.op) g.sched t.isNone (segPayload g).length g.node.toNat dst g.tag.toNat g.seq.toNat
    + pga * 2 ^ 96 + (if g.sched then 0 else s.issueT g.issue * 2 ^ 160) + g.opid.toNat * 2 ^ 192 + g.part.toNat * 2 ^ 200
    + (if g.op = .get then g.len * 2 ^ 208 else 0) + (if g.sched then g.phase.toNat * 2 ^ 224 else 0))

/-- The payload of an answer to `g`: bytes read, or the old value of an atomic. -/
def answerPayload (g : Segment) (a : Answer) : List Byte :=
  match g.op with
  | .put => []
  | .get => a.data
  | _ => if a.code = rcOk then bytesLE 8 a.old.toNat else []

/-- The header of the answer that die-cell `n` gives to `g`: GET_DATA, ATOMIC_REPLY or RESP; the issuer finds the landing by PK_OPID. -/
def answerHeader (n issuer : Nat) (g : Segment) (a : Answer) : BitVec 256 :=
  let ty := match g.op with | .put => 8 | .get => (if a.code = rcOk ∨ a.code = rcPoisoned then 3 else 8) | _ => (if a.code = rcOk then 7 else 8)
  BitVec.ofNat 256 (pkBase ty false false (answerPayload g a).length (nodeCell n).toNat issuer g.tag.toNat g.seq.toNat
    + a.code.toNat * 2 ^ 152 + g.opid.toNat * 2 ^ 192)

/-- A packet's flits: the header, the payload, and zeros to the end of the last flit. -/
def packetFlits (hdr : BitVec 256) (pay : List Byte) : List (List Byte) :=
  let raw := bytesLE 32 hdr.toNat ++ pay
  (List.range (flitsOf pay.length)).map (fun i =>
    let f := (raw.drop (64 * i)).take 64
    f ++ List.replicate (64 - f.length) 0)

/-! ### Flight (R283, R284, R304) -/

/-- The mesh hops between two physical tile positions, X first and then Y; the spare joins the mesh at the position it stands in for. -/
def meshHops (a b : Nat) : Nat :=
  let d := fun (x y : Nat) => if x < y then y - x else x - y
  d (a % 4) (b % 4) + d (a / 4) (b / 4)

/-- The positions that a packet passes between two mesh positions (R283). -/
def meshPath (a b : Nat) : List Nat :=
  let walk := fun (x y : Nat) => (List.range (if x < y then y - x + 1 else x - y + 1)).map (fun i => if x < y then x + i else x - i)
  (walk (a % 4) (b % 4)).map (fun x => x + 4 * (a / 4)) ++ ((walk (a / 4) (b / 4)).drop 1).map (fun y => b % 4 + 4 * y)

/-- m of R304: mesh hops from a mesh position to edge N, E, S, W, plus 1. -/
def edgeHops (t e : Nat) : Nat :=
  1 + (match e with
    | 0 => t / 4
    | 1 => 3 - t % 4
    | 2 => 3 - t / 4
    | _ => t % 4)

/-- m of an end of a packet's way: logical tile `i` at edge `e`, or 1 for a stack node, the hub and a port die. -/
def endHops (n i e : Nat) : Nat := if n < 240 then edgeHops i e else 1

/-- Twice R31's bypass: 2 fc where logical tile `i` of die-cell `n` is served by the spare. -/
def State.spareFc (s : State) (n i : Nat) : Nat :=
  match s.siteOf n with
  | some p => if n < 240 ∧ s.physTile p i = 16 then 2 else 0
  | none => 0

/-- L of R304 in fc from logical tile `i` of die-cell `n` to tile `j` of die-cell `m`: `e` and `f` are the edges of exit and entry and `d` the
torus hops of the route. -/
def State.flight (s : State) (n i e m j f d : Nat) : Nat :=
  (if n = m then (if n < 240 ∧ i ≠ j then 4 * meshHops i j else 2)
   else 4 * (endHops n i e + endHops m j f) + 12 * d) + (if n = m ∧ i = j then 0 else s.spareFc n i + s.spareFc m j)

/-! ### Operations aimed at a cell (R298) -/

/-- The copies in which an operation on cell `members` leaves: one for each die-cell, to its first member, with the die's other members
named in the copy. -/
def cellCopies (members : List Tgt) : List (Tgt × BitVec 16) :=
  let nodes := (members.map tgtNode).eraseDups
  nodes.filterMap (fun n =>
    let l := members.filter (fun t => tgtNode t == n)
    (l.head?).map (fun t => (t, BitVec.ofNat 16 (l.foldl (fun m t => match t with
      | .tile i | .tileReg i => m ||| 2 ^ (i % 16)
      | _ => m) 0))))

/-- A segment of die-cell `n` aimed at the members of a cell leaves as its copies, each with a sequence number of its own. -/
def State.issueCell (s : State) (n : Nat) (src : Src) (members : List Tgt) (g : Segment) (why : IssWhy) : State :=
  (cellCopies members).foldl (fun s c => s.issueSeg n src c.1 { g with mates := c.2 } why) s

end Sys2Proof.Machine
end

