-- ==== Sys2Proof/Machine/InrushOps.lean ====
section
/-! DEFINITION. Inrush tokens (R520–R523). -/

namespace Sys2Proof.Machine

/-- The predicted inrush of a class in mA (R520). -/
def classMa : InrushClass → Nat
  | .tileLogic => 400 | .quarter => 300 | .fastRails => 4000 | .stackRails => 3000 | .portFast => 2500

/-- R of sector `k` in mA. -/
def Scpm.rsv (x : Scpm) : Nat := x.granted.foldl (fun a r => a + r.ma) 0

/-- SCPM_RSV and SCPM_QDEPTH follow the queue and the tokens. -/
def State.noteScpm (s : State) (k : Nat) : State :=
  let x := s.hub.scpm.get {} k
  (s.hwr (scpmRsv k) (x.rsv / 100)).hwr (scpmQdepth k) (min 255 x.queue.length)

/-- The head of the queue is granted while it fits under 0.90 × SCPM_ILIM (R521), at most `n` times. -/
def State.grantHeads (s : State) (k : Nat) : Nat → State
  | 0 => s
  | n + 1 =>
    let x := s.hub.scpm.get {} k
    match x.queue with
    | [] => s
    | r :: rest =>
      if 90 * s.hrd (scpmIlim k) < s.hrd (scpmI k) * 100 + x.rsv + r.ma then s
      else
        let s1 := s.updHub (fun h => { h with scpm := h.scpm.put {} k { x with queue := rest, granted := x.granted ++ [r] } })
        State.grantHeads (((s1.inc 264 (scpmGrants k)).noteScpm k).emit (.ctl r.cell.toNat 2 k)) k n

/-- A request for a switch-on of class `cls`, of unit `unit` of cell `cell`, arrives at sector `k`'s SCPM (R520, R521): requests of one µs are
served in ascending cell ID, and one whose sector has no power is cancelled (R523). -/
def State.inrushAsk (s : State) (k : Nat) (cell : W16) (cls : InrushClass) (unit : Nat) : State :=
  let x := s.hub.scpm.get {} k
  let r : Inrush := { cell := cell, cls := cls, unit := unit, ma := classMa cls, at_ := s.now, slow := false }
  let before := x.queue.takeWhile (fun y => decide (y.at_ / 1000 < s.now / 1000) || decide (y.cell.toNat ≤ cell.toNat))
  if s.hrd (scpmEfuse k) = 1 then s
  else ((s.updHub (fun h => { h with scpm := h.scpm.put {} k { x with
    queue := before ++ [r] ++ x.queue.drop before.length } })).noteScpm k).grantHeads k (x.queue.length + 1)

/-- Unit `unit` of a cell waits for its token, or its ramp has not ended (R242, R274). -/
def State.inrushOpen (s : State) (k : Nat) (cell : W16) (cls : InrushClass) (unit : Nat) : Bool :=
  let x := s.hub.scpm.get {} k
  (x.queue ++ x.granted).any (fun r => r.cell == cell && r.cls == cls && r.unit == unit)

/-- Requests and tokens of cell `c` in sector `k` end (R523). -/
def State.dropInrush (s : State) (k : Nat) (gone : W16 → Bool) : State :=
  (s.updHub (fun h => { h with scpm := h.scpm.upd {} k (fun x => { x with
    queue := x.queue.filter (fun r => !gone r.cell), granted := x.granted.filter (fun r => !gone r.cell) }) })).noteScpm k

end Sys2Proof.Machine
end

