-- ==== Sys2Proof/Machine/HostOps.lean ====
section
/-! DEFINITION. What the ports do for every command: replies, interrupts, the end of a command, events, outbound messages
(R387–R399, R407–R411, R609). -/

namespace Sys2Proof.Machine

/-- Status codes (R394). -/
def scOk : W16 := 0
def scAccepted : W16 := 1
def scBusyRetry : W16 := 2
def scBadOpcode : W16 := 3
def scBadParam : W16 := 4
def scNotPermitted : W16 := 5
def scTagInUse : W16 := 6
def scBadState : W16 := 7
def scRunActive : W16 := 8
def scTimeout : W16 := 9
def scAborted : W16 := 10
def scDmaFault : W16 := 11
def scRemoteFail : W16 := 12
def scLoadFail : W16 := 13
def scHalted : W16 := 14
def scStepFailed : W16 := 15
def scTwinFault : W16 := 16
def scShrunk : W16 := 17
def scWatchdog : W16 := 18
def scSyncConflict : W16 := 19
def scPolicyReject : W16 := 20
def scNoResource : W16 := 21

/-- The stream of a request that the port makes for function `f` (R382): with the T bit while the VF's interface is in RUN. -/
def State.ideOf (s : State) (f : Nat) : Option Nat := if (s.fn f).tdisp = .run then some (s.fn f).stream else none

/-- An MSI-X vector of a function is raised, or pends while it is masked (R379, R403, assumption log 55). -/
def State.msix (s : State) (f vec : Nat) : State :=
  let p := fnPlace f
  if bit (s.reg p (0x800C + 16 * vec)) 0 then s.setReg p (0xC000 + 4 * (vec / 32)) (setBit (s.reg p (0xC000 + 4 * (vec / 32))) (vec % 32))
  else s.emit (.msix f vec (s.ideOf f))

/-- Bytes cut into requests of at most `n` bytes. -/
def payloads (n : Nat) (fuel pos : Nat) (bs : List Byte) : List (Nat × List Byte) :=
  match fuel with
  | 0 => []
  | k + 1 => if bs = [] then [] else (pos, bs.take n) :: payloads n k (pos + n) (bs.drop n)

/-- The port writes bytes to host memory for function `f`, in requests of at most its maximum payload (R375). -/
def State.hostOut (s : State) (f addr : Nat) (bs : List Byte) : State :=
  (payloads (128 * 2 ^ (s.fn f).mps) bs.length 0 bs).foldl (fun s r => s.emit (.hostWrite f (BitVec.ofNat 64 (addr + r.1)) r.2 (s.ideOf f))) s

/-- The function is a physical one. -/
def isPf (f : Nat) : Bool := f == 0 || f == 25

/-- Function `f` answers requests: its port is a PCIe port (R375), it is in D0, and a virtual function's port has VF Enable set (R378, R403,
assumption log 55). -/
def State.fnUp (s : State) (f : Nat) : Bool :=
  !(s.port (2 * (f / 25))).ethRole && !(s.fn f).d3 && (isPf f || (s.fn (25 * (f / 25))).vfEnable)

/-- A request to a function that the port does not serve: the function is not up, or the request to a VF whose interface is RUN lacks
the T bit (R382). -/
def State.unserved (s : State) (f : Nat) (tee : Bool) : Bool := !s.fnUp f || (decide ((s.fn f).tdisp = .run) && !tee)

/-- The PCIe link of port `b` trained in flit mode (R375). -/
def Port.flit (x : Port) : Bool := decide (64 ≤ x.rate)

/-- The tags that the port may have outstanding (R375): 14 bits in flit mode, else 10. -/
def Port.tags (x : Port) : Nat := if x.flit then 2 ^ 14 else 2 ^ 10

/-- The link of port `b` is in L1 (R375, assumption log 102): it is up, and no function of the port is in D0. -/
def State.linkL1 (s : State) (b : Nat) : Bool := (s.port (2 * b)).linkUp && (List.range 25).all (fun i => !s.fnUp (25 * b + i))

/-- Function `f` makes requests of its own (R382, R403): its Bus Master Enable is set, and its TDISP interface is not in ERROR. -/
def State.masters (s : State) (f : Nat) : Bool := s.fnUp f && (s.fn f).busMaster && decide ((s.fn f).tdisp ≠ .error)

/-- One reply goes to pair `q` of function `f` (R382, R387, R389, R403): discarded where the pair is disabled or the function
makes no requests (assumption log 55). Its interrupt follows QP_COAL_N. -/
def State.sendReply (s : State) (f q : Nat) (tag code : W16) (final event : Bool) (opc : Nat) (vf1 : Bool) (data : List Byte) : State :=
  let p := fnPlace f
  if s.rd p (qpEn q) = 0 ∨ !s.masters f then s
  else
    let x := s.fn f
    let i := x.stTail.get 0 q
    let n := 2 ^ s.rd p (qpSsz q)
    let r : Reply32 := { fn := f, qp := q, tag := tag, code := code, sqhead := s.rd p (qpChead q), phase := decide (i / n % 2 = 0),
                         final := final, event := event, opc := opc, vf1 := vf1, ide := s.ideOf f
                         data := if vf1 then data.take 6 else data }
    let c := x.coal.get 0 q + 1
    let lim := max 1 (s.rd p (qpCoalN q))
    let s1 := (s.updFn f (fun x => { x with
      stTail := x.stTail.put 0 q (i + 1), coal := x.coal.put 0 q (if lim ≤ c then 0 else c) })).emit (.reply r)
    if lim ≤ c then s1.msix f (s.rd p (qpVec q)) else s1

/-- The bytes of a reply (R390, R399): 32, or 16 in VF-1 form. -/
def Reply32.bytes (r : Reply32) : List Byte :=
  let d := fun n => (r.data ++ List.replicate n 0).take n
  if r.vf1 then
    let st := if r.code = 0 ∨ r.code = 1 ∨ r.code = 2 then r.code.toNat else if r.code = 3 then 0x7F else 0x10
    bytesLE 1 r.tag.toNat ++ bytesLE 1 st ++ bytesLE 2 (b2n r.phase + 2 * b2n r.final) ++ bytesLE 2 r.sqhead ++ bytesLE 2 0
      ++ bytesLE 2 r.code.toNat ++ d 6
  else
    bytesLE 2 r.tag.toNat ++ bytesLE 2 r.code.toNat ++ bytesLE 2 r.sqhead
      ++ bytesLE 1 (b2n r.phase + 2 * b2n r.final + 4 * b2n r.event) ++ bytesLE 1 r.opc ++ d 24

/-- The command is the one named. -/
def HostCmd.is (c : HostCmd) (f q : Nat) (tag : W16) : Bool := c.fn == f && c.qp == q && c.tag == tag

/-- An outstanding command changed. -/
def State.updCmd (s : State) (c : HostCmd) (g : HostCmd → HostCmd) : State :=
  s.updHub (fun h => { h with cmds := h.cmds.map (fun d => if d.is c.fn c.qp c.tag then g d else d) })

/-- A command ends with its one final reply (R390). -/
def State.endCmd (s : State) (c : HostCmd) (code : W16) (data : List Byte) : State :=
  let s1 := s.updHub (fun h => { h with cmds := h.cmds.filter (fun d => !d.is c.fn c.qp c.tag) })
  let s2 := s1.dec (fnPlace c.fn) (qpOutst c.qp)
  let s3 := if c.fw then s2.dec (fnPlace c.fn) fnFwcmds else s2
  let s4 := if c.fw && !c.begun then s3.dec 264 fwBacklog else s3
  if c.mute then s4 else s4.sendReply c.fn c.qp c.tag code true false c.opc c.vf1 data

/-- The window unit of a tile or a stack node. -/
def State.unit (s : State) (t : Tgt) : WinUnit :=
  match t with
  | .tile t => (s.tile t).w
  | .stack k => (s.stack k).w
  | _ => {}

/-- A command that has begun. -/
def State.begunCmd (s : State) (f q : Nat) (tag : W16) : Option HostCmd := s.hub.cmds.find? (fun c => c.is f q tag && c.begun)

/-- The members whose counter has reached the value arrive. -/
def State.waitArrive (s : State) (w : HostWait) : HostWait :=
  { w with arrived := w.arrived ++ w.members.filter (fun t => !w.arrived.contains t && decide (w.v ≤ ((s.unit t).ccnt w.cnt).val.toNat)) }

/-- Armed waits of partition `p` that are complete end OK (R393). -/
def State.hostWaits (s : State) (p : Nat) : State :=
  let ws := (s.part p).waits.map (fun w => s.waitArrive w)
  let full := fun (w : HostWait) => w.members.all (fun t => w.arrived.contains t)
  if ws = [] then s
  else (ws.filter full).foldl (fun s w => match s.begunCmd w.fn w.qp w.tag with
    | some c => s.endCmd c scOk []
    | none => s) (s.updPart p (fun x => { x with waits := ws.filter (fun w => !full w) }))

/-- The waits of tile `t`'s partition look at its counters again. -/
def State.tilePoll (s : State) (t : Nat) : State := s.hostWaits (s.partOfSector (t / 160))

/-- The waits of stack `k`'s partition look at its counters again. -/
def State.stackPoll (s : State) (k : Nat) : State := s.hostWaits (s.partOfSector k)

/-- Channel `ch` of tile `t` is armed by a QUERY_COUNTER (R393). -/
def State.armed (s : State) (t ch : Nat) : Bool :=
  (s.part (s.partOfSector (t / 160))).waits.any (fun w => w.ch == some ch && w.members.contains (.tile t))

/-- A program instruction meets an armed channel (R393): the commands that armed it end SYNC_CONFLICT. -/
def State.conflict (s : State) (t ch : Nat) : State :=
  let p := s.partOfSector (t / 160)
  let hit := fun (w : HostWait) => w.ch == some ch && w.members.contains (.tile t)
  let ws := (s.part p).waits.filter hit
  let s1 := s.updPart p (fun x => { x with waits := x.waits.filter (fun w => !hit w) })
  ws.foldl (fun s w => match s.hub.cmds.find? (fun c => c.is w.fn w.qp w.tag) with
    | some c => s.endCmd c scSyncConflict []
    | none => s) s1

/-- The functions of partition `p` (R378): VF p + 1 of each port that exposes it. -/
def State.vfsOf (s : State) (p : Nat) : List Nat :=
  [p + 1, 25 + p + 1].filter (fun f => decide (p < 24) && s.rd (fnPlace f) fnPart == p)

/-- The physical functions. -/
def pfs : List Nat := [0, 25]

/-- The data of an event, bytes 8–31 of its reply (R398). -/
def Event.bytes (e : Event) : List Byte :=
  bytesLE 1 e.kind ++ bytesLE 1 (b2n e.lost) ++ bytesLE 2 e.detail ++ bytesLE 4 e.part ++ bytesLE 8 e.time

/-- An event reaches a function (R398): it ends the oldest held ASYNC_EVENT, or waits; a full queue drops its oldest. -/
def State.eventTo (s : State) (e : Event) (f : Nat) : State :=
  let x := s.fn f
  let e' := { e with lost := x.evLost }
  match s.hub.cmds.find? (fun c => c.fn == f && c.opc == 0x19 && c.begun) with
  | some c =>
    let s1 := s.updHub (fun h => { h with cmds := h.cmds.filter (fun d => !d.is c.fn c.qp c.tag) })
    let s2 := (s1.dec (fnPlace f) (qpOutst c.qp)).dec (fnPlace f) fnFwcmds
    (s2.updFn f (fun x => { x with evLost := false })).sendReply f c.qp 0xFFFF scOk true true 0x19 c.vf1 e'.bytes
  | none =>
    if x.evq.length < 64 then (s.updFn f (fun x => { x with evq := x.evq ++ [e] })).wr (fnPlace f) fnEvq (x.evq.length + 1)
    else s.updFn f (fun x => { x with evq := x.evq.drop 1 ++ [e], evLost := true })

/-- An event of partition `p` (31 for the panel), delivered to the physical functions and, where `vf`, to the partition's
(R398). -/
def State.event (s : State) (kind detail p : Nat) (vf : Bool) : State :=
  let e : Event := { kind := kind, detail := detail, part := p, time := s.tb }
  (pfs ++ if vf then s.vfsOf p else []).foldl (fun s f => s.eventTo e f) s

/-- The wake event of an outbound message (R408): MBA_VEC, or from D3hot a PME message where the function has PME enabled. -/
def State.outWake (s : State) (f : Nat) : State :=
  if (s.fn f).d3 then (if (s.fn f).pme then s.emit (.pme f) else s)
  else if s.rd (fnPlace f) mbaIrqEn = 1 then s.msix f (s.rd (fnPlace f) mbaVec) else s

/-- An outbound message goes into function `f`'s channel (R407, R408, R411): withdrawn at once with RECEIVER_RESET while the function's Bus
Master Enable is 0. -/
def State.mbaSend (s : State) (f : Nat) (msg : List W32) : State :=
  if !(s.fn f).busMaster then s.updFn f (fun x => { x with outEnd := .receiverReset })
  else
    let p := fnPlace f
    let s1 := (List.range 16).foldl (fun s i => s.wr p (mbaOutData i) ((msg.getD i 0).toNat)) s
    let s2 := ((s1.wr p mbaOutPend 1).inc p mbaOutSeq).updFn f (fun x => { x with outAt := s.now })
    s2.outWake f

/-- An outbound message of hub firmware to a function (R609): it waits in a queue of 8 while the channel is pending. -/
def State.mbaOut (s : State) (f : Nat) (msg : List W32) : State :=
  if s.rd (fnPlace f) mbaOutPend = 0 then s.mbaSend f msg
  else s.updFn f (fun x => { x with outq := (if 8 ≤ x.outq.length then x.outq.drop 1 else x.outq) ++ [msg] })

/-- The next waiting message, once the channel is free. -/
def State.mbaNext (s : State) (f : Nat) : State :=
  match (s.fn f).outq with
  | [] => s
  | m :: r => (s.updFn f (fun x => { x with outq := r })).mbaSend f m

/-- An outbound message to every physical function. -/
def State.mbaPfs (s : State) (code arg : Nat) : State :=
  pfs.foldl (fun s f => s.mbaOut f [BitVec.ofNat 32 code, BitVec.ofNat 32 arg]) s

end Sys2Proof.Machine
end

