-- ==== Sys2Proof/Machine/PanelOps.lean ====
section
/-! DEFINITION. What hub firmware does to the panel on more than one occasion: edits of the site map, reasons, halts,
stopped partitions, marks in the route tables (R45, R46, R270, R271, R337, R395, R398, R499). -/

namespace Sys2Proof.Machine

/-- An edit of the site map (R46): the generation is odd while it is made, so it rises by 2. -/
def State.editAnat (s : State) (f : Anat → Anat) : State :=
  s.updHub (fun h => { h with anat := { f h.anat with gen := h.anat.gen + 2 } })

/-- Reasons that mean a partition or a function of the panel is lost (R499). -/
def promptReasons : List Nat := [1, 3, 4, 5, 6, 8, 0xC, 0xD]

/-- A replacement reason is raised, once (R499). -/
def State.raiseReason (s : State) (n : Nat) : State :=
  let w := s.hrd fltRrReasons
  if w.testBit n then s
  else
    let s1 := (s.hwr fltRrReasons (w + 2 ^ n)).hwr fltRrActive 1
    let s2 := if promptReasons.contains n then s1.hwr fltRrPrompt 1 else s1
    let s3 := if s2.hrd fltRrFirst = 0 then s2.hwr fltRrFirst n else s2
    let s4 := s3.bb srcFw 0x0203 2 0xFFFF 31 n []
    ((s4.event 5 n 31 false).mbaPfs 0x0101 n).emit (.pldmEvent 0x40)

/-- The code with which a waiting RUN_STEP ends (R395); 0 is DONE. -/
def runStepCode (why : Nat) (asked : Bool) : W16 :=
  match why with
  | 0 => scOk
  | 1 => if asked then scOk else scHalted
  | 2 => scStepFailed
  | 3 => scTwinFault
  | 4 => scWatchdog
  | _ => scShrunk

/-- Data of a RUN_STEP's final reply (R393). -/
def State.runData (s : State) (p : Nat) : List Byte :=
  let x := (s.part p).sch
  bytesLE 4 x.committed.toNat ++ bytesLE 4 x.slip.toNat ++ bytesLE 1 (match x.state with
    | .empty => 0 | .loading => 1 | .ready => 2 | .running => 3 | .replaying => 4 | .rollback => 5 | .halted => 6 | .done => 7)

/-- The commands that a stop of partition `p` ends (R393, R395): waiting RUN_STEPs and HALTs; and event 1. -/
def State.stopped (s : State) (p why : Nat) : State :=
  let asked := (s.part p).wbs.steps.isSome && decide ((s.part p).wbs.steps = some 0)
  let s1 := (s.hub.cmds.filter (fun c => c.part == p && c.begun && (c.opc == 1 || c.opc == 0x11))).foldl (fun s c =>
    if c.opc = 1 then s.endCmd c (runStepCode why asked) (s.runData p)
    else s.endCmd c scOk (bytesLE 4 (s.part p).sch.committed.toNat)) s
  s1.event 1 why p true

/-- Partition `p` halts, for a reason of SCH_HALT_WHY (R337, R352). -/
def State.haltNow (s : State) (p why : Nat) : State :=
  (s.updPart p (fun x => { x with
    sch := { x.sch with state := .halted, why := BitVec.ofNat 4 why }, wbs := { x.wbs with haltReq := 0, cAt := none } })).rerouteLate.stopped p why

/-- A halt is asked for (R337, R489): it takes effect at the next combine; a molt completes first. -/
def State.haltRequest (s : State) (p why : Nat) : State :=
  match (s.part p).sch.state with
  | .running | .replaying | .rollback =>
    (s.updPart p (fun x => { x with wbs := { x.wbs with haltReq := why } })).updHub
      (fun h => { h with molt := Table.mapListed {} h.molt (fun q m => if q = p then { m with halt := true } else m) })
  | _ => s

/-- RT_DOWN of destination `n` set or cleared in the routers listed (R295, R486). -/
def State.markDown (s : State) (n : Nat) (down : Bool) : State :=
  { s with nodes := Table.mapListed {} s.nodes (fun _ x => { x with fab := { x.fab with
      route := x.fab.route.upd 0 n (fun e => if down then setBit e 6 else clrBit e 6) } }) }

/-- A stack has lost channels or is retired (R270, R271): hub firmware writes the map, asks the partition to halt at its
next combine, tells the host, and raises the reason. -/
def State.stackDegraded (s : State) (k : Nat) : State :=
  let st := (s.stack k).st
  let p := s.partOfSector k
  let s1 := s.editAnat (fun a => { a with stk := a.stk.upd {} k (fun x => { x with state := st }) })
  if st = 0 then s1
  else
    let s2 := if st = 2 then s1.markDown (stackNode k) true else s1
    let s3 := ((s2.updPart p (fun x => { x with holed := x.img.isSome })).haltRequest p 1).event 4 k p true
    let s4 := if st = 2 then s3.bb srcFw 0x0602 2 (s3.siteCode (stackNode k)) p 0 [] else s3
    s4.raiseReason (if st = 2 then 4 else 5)

/-- A command of the partition ends ABORTED, with the bytes a DMA has applied (R396); no wait of the partition stays armed. -/
def State.abortCmds (s : State) (p : Nat) (keep : HostCmd → Bool) : State :=
  ((s.hub.cmds.filter (fun c => c.part == p && !keep c)).foldl (fun s c =>
    s.endCmd c scAborted (if c.opc = 0x13 ∨ c.opc = 0x14 then bytesLE 4 c.bytes else [])) s).updPart p (fun x => { x with waits := [] })

end Sys2Proof.Machine
end

