-- ==== Sys2Proof/Machine/StackInsn.lean ====
section
/-! DEFINITION. A stack node's commands and events (R259–R274). -/

namespace Sys2Proof.Machine

/-- The window tag and state fields of a result about window `i` of stack `k`. -/
def State.snWinResult (s : State) (k : Nat) (c : BitVec 512) (i : Nat) (status : BitVec 8) : State :=
  let w := (s.stack k).w.window i
  s.sendResult k (BitVec.ofNat 56 (fld c 87 32)) (BitVec.ofNat 16 (fld c 31 16)) (snResult (w.tag i) w.st.code status 0 0)

/-- A CLOSE_NOW of the queue has not ended: it waits for accepted segments (R70), and the next command waits for it (R261). -/
def Stack.closeOpen (x : Stack) : Bool :=
  match x.closing with
  | none => false
  | some o => x.w.win.any (fun kv => kv.2.pend.any (fun p => p.ord == o))

/-- The command at the head runs if its opcode is `op` and no CLOSE_NOW before it is still at work; it leaves the queue first (R261). -/
def State.snRun (s : State) (k op : Nat) (f : BitVec 512 → State → State) : State :=
  match (s.stack k).cmdq with
  | [] => s
  | c :: r => if fld c 7 0 ≠ op ∨ (s.stack k).closeOpen then s else f c (s.updStack k (fun x => { x with cmdq := r }))

/-- The stack's size in units of 64 B. -/
def stackTop64 : Nat := 2147483648

/-- WOPEN at a stack (R65, R261): once 4 µs have passed since the previous OPEN of the index. -/
def State.snWopen (s : State) (k : Nat) (c : BitVec 512) : State :=
  let x := s.stack k
  let i := fld c 103 96
  let r : WopenReq :=
    { idx := i, rights := BitVec.ofNat 3 (fld c 106 104), skind := BitVec.ofNat 2 (fld c 108 107),
      srcval := BitVec.ofNat 16 (fld c 124 109), cnt := BitVec.ofNat 8 (fld c 132 125), cmode := BitVec.ofNat 2 (fld c 134 133),
      base64 := fld c 166 135, limit64 := fld c 198 167, dest := .none }
  if (x.w.window i).st ≠ .closed then s.snWinResult k c i stBusy
  else if !r.rangeOk stackTop64 64 || !s.sourceOk (s.partOfSector k) r.skind r.srcval then s.snWinResult k c i stBadParam
  else
    let s1 := s.till (x.w.openDue i)
    (s1.setStack k { x with w := x.w.open_ r s1.now (s1.dieTb (stackNode k)) }).snWinResult k c i stOk

/-- SN_WOPEN (R261). -/
def execSnWopen (k : StackNo) (s : State) : Result := .next (s.snRun k.val 1 (fun c s => s.snWopen k.val c))

/-- A close command of the stack that ends at once: its done counter, then its result (R262). -/
def State.snCloseEnds (s : State) (k : Nat) (c : BitVec 512) (i dcnt : Nat) (status : BitVec 8) : State :=
  (((s.updStack k (fun x => { x with w := x.w.bump dcnt 1 })).snWinResult k c i status).settleStack k).stackPoll k

/-- The result destination of a command (R262). -/
def snDest (c : BitVec 512) : ResDest := .stackRes (BitVec.ofNat 56 (fld c 87 32)) (BitVec.ofNat 16 (fld c 31 16))

/-- SN_CLOSE_NOW (R70, R261). -/
def execSnCloseNow (k : StackNo) (s : State) : Result :=
  .next (s.snRun k.val 2 (fun c s =>
    let x := s.stack k.val
    let i := fld c 103 96
    if (x.w.window i).st = .closed then s.snCloseEnds k.val c i (fld c 205 200) stAlreadyClosed
    else ((s.setStack k.val { x with w := x.w.closeNow i (some (fld c 205 200)) (snDest c), closing := some x.w.closes }).settleStack
      k.val).stackPoll k.val))

/-- SN_CLOSE_QUIESCE (R72, R261). -/
def execSnCloseQuiesce (k : StackNo) (s : State) : Result :=
  .next (s.snRun k.val 3 (fun c s =>
    let x := s.stack k.val
    let i := fld c 103 96
    let v := x.w.window i
    if v.st = .closed then s.snCloseEnds k.val c i (fld c 205 200) stAlreadyClosed
    else if v.st = .quiescing then s.snCloseEnds k.val c i (fld c 205 200) stBusy
    else if v.cnt = 0xFF ∨ fld c 271 256 = 0 then s.snCloseEnds k.val c i (fld c 205 200) stBadParam
    else
      let w := x.w.quiesce i (fld c 255 208) (s.now + 1000 * fld c 271 256) (some (fld c 205 200)) (snDest c)
      ((s.setStack k.val { x with w := w }).settleStack k.val).stackPoll k.val))

/-- SN_WQUERY (R261). -/
def execSnWquery (k : StackNo) (s : State) : Result :=
  .next (s.snRun k.val 4 (fun c s => s.snWinResult k.val c (fld c 103 96) stOk))

/-- SN_CCNT_SET (R80, R261): no window is named, so TAG and STATE are 0. -/
def execSnCcntSet (k : StackNo) (s : State) : Result :=
  .next (s.snRun k.val 5 (fun c s =>
    let s1 := ((s.updStack k.val (fun x => { x with w := x.w.ccntSet (fld c 205 200) (fld c 255 208) })).settleStack k.val).stackPoll k.val
    s1.sendResult k.val (BitVec.ofNat 56 (fld c 87 32)) (BitVec.ofNat 16 (fld c 31 16)) (snResult 0 0 stOk 0 0)))

/-! ### Channels (R270) -/

/-- Why a channel is retired (CH_WHY of R275). -/
def Stack.retireChan (x : Stack) (c why state : Nat) : Stack :=
  let lost := fun (off : Nat) => snChannel off == c
  { x with
    chan := x.chan.put {} c ⟨BitVec.ofNat 2 state, BitVec.ofNat 4 why⟩
    mem := x.mem.filter (fun kv => !lost kv.1)
    dev := x.dev.filter (fun kv => !lost (64 * kv.1))
    rq := x.rq.filter (fun r => r.q / 2 != c) }

/-- How many channels are retired. -/
def Stack.retiredCount (x : Stack) : Nat := (x.chan.filter (fun kv => kv.2.state != 0)).length

/-- Segments accepted and not yet served when their channel retires (R270): reads are answered POISONED, writes are
discarded, never counted, and answered BANK_OFF, or fail their exchange phase. -/
def State.failAccepted (s : State) (k c : Nat) : State :=
  let x := s.stack k
  let hit := fun (a : Accepted) => snChannel a.seg.off == c
  let s1 := s.setStack k { x with w := { x.w with acc := x.w.acc.filter (fun a => !hit a) } }
  let s2 := (x.w.acc.filter hit).foldl (fun s a =>
    if a.seg.sched then s.updNode (stackNode k) (fun n => { n with winRej := true })
    else s.emit (.answer a.seg.node a.seg.seq ⟨if a.seg.op = .get then rcPoisoned else rcBankOff, [], a.seg.op == .get, 0⟩)) s1
  (s2.settleStack k).stackPoll k

/-- A channel of stack `k` is retired in service (R270, R271): more than 4 retire the stack. Hub firmware halts the
partition at its next barrier and sets STKMAP_STATE. -/
def State.retireChannel (s : State) (k c why : Nat) : State :=
  let s1 := (s.updStack k (fun x =>
    let y := x.retireChan c why 1
    { y with st := if 4 < y.retiredCount then 2 else 1 })).failAccepted k c
  s1.stackDegraded k

/-- Channel `c` has met the limit of 64 distinct uncorrectable chunks within 1 s (R270). -/
def Stack.overLimit (x : Stack) (c now : Nat) : Bool :=
  decide (64 < ((x.ueChunks.get [] c).filter (fun e => decide (now ≤ e.2 + 1000000000))).length)

/-- Every channel over its limit of uncorrectable chunks is retired. -/
def State.checkLimits (s : State) (k : Nat) : State :=
  (List.range 32).foldl (fun s c =>
    let x := s.stack k
    if x.overLimit c s.now && decide ((x.chan.get {} c).state = 0) then s.retireChannel k c 4 else s) s

/-- A read of stack `k`, which stood at `x` before, has met uncorrectable bursts: the limits are checked (R270). -/
def State.checkRead (s : State) (k : Nat) (x : Stack) : State :=
  if (s.stack k).ueChunks = x.ueChunks then s else s.checkLimits k

/-! ### The SXE (R264–R267) -/

/-- STATUS values of SXE results (R262). -/
def stDescFault : BitVec 8 := 5
def stBankOff : BitVec 8 := 6
def stRemoteFail : BitVec 8 := 7
def stLost : BitVec 8 := 8

/-- Source address of byte `b` of the output of a strided read; SRC, strides modulo 2^37 (R264). -/
def sxeStridedAt (c : BitVec 512) (b : Nat) : Nat :=
  let E := 2 ^ fld c 135 133
  let n := b / E
  let ecnt := fld c 159 136
  intMod 37 (Int.ofNat (fld c 132 96) + Int.ofNat (n / ecnt) * signedOf 40 (fld c 223 184)
    + Int.ofNat (n % ecnt) * signedOf 40 (fld c 263 224)) + b % E

/-- The parameters of a strided read are good (R266). The addresses are taken modulo 2^37, and each element lies within the
stack. -/
def sxeStridedOk (c : BitVec 512) : Bool :=
  let E := 2 ^ fld c 135 133
  decide (fld c 135 133 ≠ 7) && decide (fld c 159 136 ≠ 0) && decide (fld c 183 160 ≠ 0)
    && decide (fld c 132 96 % E = 0) && decide (fld c 319 264 % E = 0)
    && (List.range (fld c 183 160 * fld c 159 136)).all (fun n => decide (sxeStridedAt c (n * E) + E ≤ 2 ^ 37))
    && decide (fld c 511 336 = 0) && decide (fld c 15 8 = 0) && decide (fld c 95 88 = 0)

/-- The parameters of a transpose are good (R265, R266). -/
def sxeTransposeOk (c : BitVec 512) : Bool :=
  let E := 2 ^ fld c 134 133
  let rows := fld c 151 136
  let cols := fld c 167 152
  decide (fld c 134 133 ≠ 3) && !bit c 135 && decide (rows ≠ 0) && decide (cols ≠ 0)
    && decide (fld c 132 96 % E = 0) && decide (fld c 263 208 % E = 0) && decide (fld c 207 168 % E = 0)
    && decide (fld c 303 280 % E = 0) && decide (cols * E ≤ fld c 207 168) && decide (rows * E ≤ fld c 303 280)
    && decide (fld c 132 96 + (rows - 1) * fld c 207 168 + cols * E ≤ 2 ^ 37)
    && decide (fld c 511 304 = 0) && decide (fld c 15 8 = 0) && decide (fld c 95 88 = 0)

/-- A contiguous piece of an SXE command's output: destination PGA and length, and for a transpose the source column and first source
row it comes from. -/
structure SxePiece where
  pga : Pga
  len : Nat
  col : Nat
  row : Nat
  deriving DecidableEq, Repr

/-- The destination ranges: one for a strided read, one per destination row for a transpose. -/
def sxePieces (c : BitVec 512) : List SxePiece :=
  if fld c 7 0 = 6 then
    [⟨BitVec.ofNat 56 (fld c 319 264), fld c 183 160 * fld c 159 136 * 2 ^ fld c 135 133, 0, 0⟩]
  else
    let E := 2 ^ fld c 134 133
    (List.range (fld c 167 152)).map (fun col => ⟨BitVec.ofNat 56 (fld c 263 208 + col * fld c 303 280), fld c 151 136 * E, col, 0⟩)

/-- Sub-blocks of a transpose above one another: each takes 256 / E source rows (R267). -/
def sxeRowBlocks (c : BitVec 512) : Nat := ceilDiv (fld c 151 136) (256 / 2 ^ fld c 134 133)

/-- How many runs or sub-blocks a command reads (R264, R267). -/
def sxeUnits (c : BitVec 512) : Nat :=
  if fld c 7 0 = 6 then fld c 183 160 else sxeRowBlocks c * ceilDiv (fld c 167 152) 64

/-- The pieces of sub-block `u` of a transpose, one a column. The sub-blocks go down the rows first, then on to the next 64 columns (DESIGN
CHOICE, assumption log 101). -/
def sxeBlock (c : BitVec 512) (u : Nat) : List SxePiece :=
  let E := 2 ^ fld c 134 133
  let r0 := u % sxeRowBlocks c * (256 / E)
  let c0 := u / sxeRowBlocks c * 64
  let rows := min (256 / E) (fld c 151 136 - r0)
  (List.range (min 64 (fld c 167 152 - c0))).map (fun i =>
    ⟨BitVec.ofNat 56 (fld c 263 208 + (c0 + i) * fld c 303 280 + r0 * E), rows * E, c0 + i, r0⟩)

/-- The source address of each output byte of run or sub-block `u`, in the order of the output. -/
def sxeAddrs (c : BitVec 512) (u : Nat) : List Nat :=
  if fld c 7 0 = 6 then
    let n := fld c 159 136 * 2 ^ fld c 135 133
    (List.range n).map (fun b => sxeStridedAt c (u * n + b))
  else
    let E := 2 ^ fld c 134 133
    (sxeBlock c u).flatMap (fun p => (List.range p.len).map (fun b =>
      fld c 132 96 + (p.row + b / E) * fld c 207 168 + p.col * E + b % E))

/-- The segments of a piece: target, offset, length. -/
def SxePiece.segs (p : SxePiece) (snodes : List Nat) : List (Tgt × Nat × Nat) :=
  match decodePga p.pga p.len snodes.length with
  | none => []
  | some d => (d.segments snodes p.len).map (fun g => (g.1, g.2.1, g.2.2.2))

/-- Every segment of a command, in the order in which its bytes are read. -/
def sxeSegs (c : BitVec 512) (snodes : List Nat) : List (Tgt × Nat × Nat) :=
  if fld c 7 0 = 6 then (sxePieces c).flatMap (·.segs snodes)
  else (List.range (sxeUnits c)).flatMap (fun u => (sxeBlock c u).flatMap (·.segs snodes))

/-- The tag of an SXE command's destination. -/
def sxeTag (c : BitVec 512) : W16 := if fld c 7 0 = 6 then BitVec.ofNat 16 (fld c 335 320) else BitVec.ofNat 16 (fld c 279 264)

/-- Bursts read in turn: the state, the poison of each, and the view of memory they deliver. -/
def Stack.readList (x : Stack) (now ctr : Nat) : List Nat → Stack × List Bool × Stack
  | [] => (x, [], x)
  | b :: r =>
    let y := x.readBurst b now
    let z := Stack.readList y.1 now ctr r
    (z.1, y.2.1 :: z.2.1, if y.2.2 then z.2.2.blur b ctr else z.2.2)

/-- A run or sub-block read, each distinct burst that it touches once (R267), up to the first byte in a retired channel (R266): the bytes with
their poison, and whether one was met. -/
def Stack.readUnit (x : Stack) (addrs : List Nat) (now ctr : Nat) : Stack × List (Byte × Bool) × Bool :=
  let ok := addrs.takeWhile (fun a => !x.hole a)
  let bs := (ok.map (· / 64)).eraseDups
  let r := if x.dev = [] then (x, [], x) else x.readList now ctr bs
  (r.1, ok.map (fun a => (r.2.2.mem.get 0 a, r.2.1.getD (bs.idxOf (a / 64)) false)), decide (ok.length < addrs.length))

/-- The SXE goes on as far as it can, by `n` steps (R266, R267, R301): it sends the next segment once all its bytes are read and its target's
numbers allow it, and else reads the next run or sub-block. A source in a retired channel, or a stack no longer ACTIVE, stops it with
BANK_OFF. -/
def State.sxePump (s : State) (k : Nat) : Nat → State
  | 0 => s
  | n + 1 =>
    let x := s.stack k
    match x.sxe with
    | none => s
    | some j =>
      match j.rest with
      | [] => s
      | (tg, off, len) :: r =>
        if len ≤ j.buf.length then
          (if (s.node (stackNode k)).iss.holds (tgtNode tg) then s
           else
            let bs := j.buf.take len
            State.sxePump ((s.setStack k { x with sxe := some { j with rest := r, buf := j.buf.drop len, open_ := j.open_ + 1 } }).issueSeg
              (stackNode k) (.cell (nodeCell (stackNode k))) tg (putSeg (sxeTag j.cmd) off (bs.map (·.1)) (bs.any (·.2))) .sxeData) k n)
        else if j.holed || x.pw != .active then
          s.setStack k { x with sxe := some { j with status := stBankOff, rest := [], buf := [] } }
        else
          let y := x.readUnit (sxeAddrs j.cmd j.unit) s.now s.freeCtr
          State.sxePump (((s.setStack k { y.1 with sxe := some { j with unit := j.unit + 1, buf := j.buf ++ y.2.1, holed := y.2.2 } }).checkRead
            k x).drawn) k n

/-- The SXE of stack `k` goes on. -/
def State.sxeGo (s : State) (k : Nat) : State :=
  match (s.stack k).sxe with
  | none => s
  | some j => s.sxePump k (j.rest.length + (sxeUnits j.cmd - j.unit) + 1)

/-- The destination of every piece passes the issuer's checks (R56, R83). -/
def State.sxeDestOk (s : State) (k : Nat) (c : BitVec 512) : Bool :=
  let p := s.partOfSector k
  (sxePieces c).all (fun x => match decodePga x.pga x.len (s.partStacks p).length with
    | none => false
    | some d => s.destInPart p d)

/-- A SXE command starts (R264–R266): rejected with DESC_FAULT, ended with BANK_OFF while the stack is not ACTIVE (R250),
or running. -/
def State.sxeStart (s : State) (k : Nat) (c : BitVec 512) (ok : Bool) : State :=
  let x := s.stack k
  let pga := BitVec.ofNat 56 (fld c 87 32)
  let rtag := BitVec.ofNat 16 (fld c 31 16)
  if !ok || !s.sxeDestOk k c then s.sendResult k pga rtag (snResult 0 0 stDescFault 0 0)
  else if x.pw ≠ .active then s.sendResult k pga rtag (snResult 0 0 stBankOff 0 0)
  else (s.setStack k { x with sxe := some ⟨c, 0, 0, stOk, 0, sxeSegs c (s.partStacks (s.partOfSector k)), 0, [], false⟩ }).sxeGo k

/-- A SXE command at the head of the queue, or the oldest that waits for the SXE, starts once the SXE is idle; at the head
while the SXE runs it steps aside and later commands go on (R261). -/
def State.sxeCommand (s : State) (k op : Nat) (ok : BitVec 512 → Bool) : State :=
  let x := s.stack k
  match x.sxe, x.sxq with
  | none, c :: r => if fld c 7 0 = op then (s.setStack k { x with sxq := r }).sxeStart k c (ok c) else s
  | none, [] => s.snRun k op (fun c s => s.sxeStart k c (ok c))
  | some _, _ => s.snRun k op (fun c s => s.updStack k (fun x => { x with sxq := x.sxq ++ [c] }))

/-- SXE_STRIDED (R264). -/
def execSxeStrided (k : StackNo) (s : State) : Result := .next (s.sxeCommand k.val 6 sxeStridedOk)

/-- SXE_TRANSPOSE (R265). -/
def execSxeTranspose (k : StackNo) (s : State) : Result := .next (s.sxeCommand k.val 7 sxeTransposeOk)

/-- SXE_COMMAND_END (R266): every segment has its answer, and the result with BYTES is sent. -/
def execSxeCommandEnd (k : StackNo) (s : State) : Result :=
  .next (match (s.stack k.val).sxe with
    | none => s
    | some j =>
      if j.open_ ≠ 0 ∨ j.rest ≠ [] then s
      else (s.updStack k.val (fun x => { x with sxe := none })).sendResult k.val (BitVec.ofNat 56 (fld j.cmd 87 32))
        (BitVec.ofNat 16 (fld j.cmd 31 16)) (snResult 0 0 j.status j.rcode j.bytes))

/-- A close that came through the stack's own queue (R261, R262). -/
def ClosePend.queued (p : ClosePend) : Bool := match p.dest with | .stackRes _ _ => true | _ => false

/-- SN_FENCE (R261): every earlier command of the queue has ended, SXE work and its closes included. -/
def execSnFence (k : StackNo) (s : State) : Result :=
  let x := s.stack k.val
  .next (if x.sxe.isSome || !x.sxq.isEmpty || x.w.win.any (fun kv => kv.2.pend.any (·.queued)) then s
    else s.snRun k.val 8 (fun c s => s.sendResult k.val (BitVec.ofNat 56 (fld c 87 32)) (BitVec.ofNat 16 (fld c 31 16)) (snResult 0 0 stOk 0 0)))

/-- SN_BAD_OPCODE (R261). -/
def execSnBadOpcode (k : StackNo) (s : State) : Result :=
  .next (match (s.stack k.val).cmdq with
    | [] => s
    | c :: r =>
      if 1 ≤ fld c 7 0 ∧ fld c 7 0 ≤ 8 ∨ (s.stack k.val).closeOpen then s
      else (s.updStack k.val (fun x => { x with cmdq := r })).sendResult k.val (BitVec.ofNat 56 (fld c 87 32))
        (BitVec.ofNat 16 (fld c 31 16)) (snResult 0 0 stBadParam 0 0))

/-! ### Power (R274) -/

/-- SNPRES after a command: 0 ACCEPTED, 1 BUSY, 2 NO_CHANGE, 3 REFUSED. -/
def Stack.pwrResult (x : Stack) (op code : Nat) : Stack :=
  { x with resOp := BitVec.ofNat 2 op, resCode := BitVec.ofNat 2 code, resSeq := x.resSeq + 1 }

/-- A window holds the stack (R274). -/
def WinUnit.holds (w : WinUnit) : Bool :=
  w.win.any (fun kv => kv.2.st != .closed || !kv.2.pend.isEmpty)
    || w.rwin.any (fun kv => decide (2 ≤ kv.1) && (kv.2.st != .closed || !kv.2.pend.isEmpty))

/-- The conditions of SELF_REFRESH and OFF (R274). `own` counts the segment that carries the command. -/
def Stack.pwrBusy (x : Stack) (own : Nat) : Bool :=
  x.pw != .active || decide (own < x.w.acc.length) || !x.cmdq.isEmpty || x.sxe.isSome || !x.sxq.isEmpty || x.w.holds

/-- A power command evaluated (R274): 0 WAKE, 1 SELF_REFRESH, 2 OFF; 3 is ignored. `fw` tells that hub firmware wrote it. -/
def Stack.power (x : Stack) (op : Nat) (fw : Bool) (own : Nat) : Stack :=
  match op with
  | 0 =>
    (match x.pw with
     | .selfRefresh => { x.pwrResult 0 0 with waking := true }
     | .off => { x.pwrResult 0 0 with waking := true }
     | _ => x.pwrResult 0 2)
  | 1 => if x.pwrBusy own then x.pwrResult 1 1 else { x.pwrResult 1 0 with pw := .selfRefresh, waking := false }
  | 2 =>
    if !fw then x.pwrResult 2 3
    else if x.pwrBusy own then x.pwrResult 2 1
    else { x.pwrResult 2 0 with pw := .off, waking := false, mem := [], dev := [], remap := [], spareUsed := 0 }
  | _ => x

/-- A power command of stack `k` (R274): a WAKE from OFF asks for its inrush token, and the stack is INIT once its ramp has ended. -/
def State.stackPower (s : State) (k op : Nat) (fw : Bool) (own : Nat) : State :=
  let x := s.stack k
  let s1 := s.updStack k (fun x => x.power op fw own)
  if op = 0 ∧ x.pw = .off ∧ !x.waking then s1.inrushAsk k (nodeCell (stackNode k)) .stackRails 0 else s1

/-- SN_SELF_REFRESH (R274). -/
def execSnSelfRefresh (k : StackNo) (s : State) : Result := .next (s.stackPower k.val 1 true 0)
/-- SN_OFF (R274): hub firmware's write is evaluated, a program's is REFUSED. -/
def execSnOff (k : StackNo) (fw : Bool) (s : State) : Result := .next (s.stackPower k.val 2 fw 0)
/-- SN_WAKE (R274). -/
def execSnWake (k : StackNo) (s : State) : Result := .next (s.stackPower k.val 0 true 0)

/-- SELF_REFRESH_EXIT (R274): a woken stack is ACTIVE again. -/
def execSelfRefreshExit (k : StackNo) (s : State) : Result :=
  .next (s.updStack k.val (fun x => if x.pw = .selfRefresh ∧ x.waking ∧ !x.tooHot then { x with pw := .active, waking := false } else x))

/-! ### Late reads, scrub, repair, temperature (R254, R268–R273) -/

/-- STACK_READ_LATE (R254). -/
def execStackReadLate (k : StackNo) (s : State) : Result :=
  .next (s.updStack k.val (fun x => { x with lateStep := true, lateCnt := satInc x.lateCnt }))

/-- Bursts of a stack. -/
def stackBursts : Nat := 2147483648

/-- SN_PATROL_SCRUB (R268): the next burst is read; the period 0 stops the patrol. -/
def execSnPatrolScrub (k : StackNo) (s : State) : Result :=
  let x := s.stack k.val
  .next (if x.scrubHrs = 0 ∨ x.pw ≠ .active then s
    else
      let y := if x.hole (64 * x.scrubAt) then x else (x.readBurst x.scrubAt s.now).1
      (s.setStack k.val { y with scrubAt := (x.scrubAt + 1) % stackBursts }).checkRead k.val x)

/-- The bursts of a chunk copied: corrected where they can be, poison carried (R269). -/
def Stack.repairBurst (x : Stack) (b : Nat) : Stack :=
  match decodeBurst (x.dev.get 0 b) with
  | .fixed p v => { x with
      mem := if 3 ≤ p then x.mem.upd 0 (64 * b + p - 3) (fun y => y ^^^ BitVec.ofNat 8 v) else x.mem
      dev := x.dev.put 0 b 0 }
  | .bad => { x with dev := x.dev.put 0 b poisonDev }
  | _ => x

/-- SN_CHUNK_REPAIR (R269, R270): the oldest queued chunk is repaired, by soft post-package repair where its bank has any
left (`ppr`), else by a remap into the spare store of 4,096 slots; a full store retires the channel. -/
def execSnChunkRepair (k : StackNo) (ppr : Bool) (s : State) : Result :=
  let x := s.stack k.val
  .next (match x.rq with
    | [] => s
    | r :: rest =>
      let b0 := (r.chunk * 16384 + r.q * 256) / 64
      let y := { x with rq := rest }
      let y := (((y.repairBurst b0).repairBurst (b0 + 1)).repairBurst (b0 + 2)).repairBurst (b0 + 3)
      if ppr then (s.setStack k.val y).report (stackNode k.val) (.stackRepair k.val r.q r.chunk 0)
      else if y.spareUsed < 4096 then
        (s.setStack k.val { y with spareUsed := y.spareUsed + 1, remap := y.remap.put false (r.q * 2 ^ 23 + r.chunk) true }).report
          (stackNode k.val) (.stackRepair k.val r.q r.chunk 1)
      else (s.retireChannel k.val (r.q / 2) 3).report (stackNode k.val) (.stackRepair k.val (r.q / 2 * 2) r.chunk 2))

/-- SN_RECALIBRATION (R247, R270, R273): the channels of `failed` fail; twice in succession retires. `ecc` is the count of errors corrected by
its on-die ECC that the stack then reports (when it reports it is a DESIGN CHOICE, assumption log 101). -/
def execSnRecalibration (k : StackNo) (failed : List (Fin 32)) (ecc : W32) (s : State) : Result :=
  .next ((List.range 32).foldl (fun s c =>
    let x := s.stack k.val
    let n := if failed.any (fun f => f.val == c) then x.recal.get 0 c + 1 else 0
    let s1 := s.setStack k.val { x with recal := x.recal.put 0 c n }
    if 2 ≤ n ∧ (x.chan.get {} c).state = 0 then s1.retireChannel k.val c 2 else s1) (s.updStack k.val (fun x => { x with odecc := ecc })))

/-! ### Training (R272) -/

/-- A stack begins its training at step 1 (R272); what it held is gone, its repairs too (R269). -/
def State.trainStack (s : State) (k : Nat) : State :=
  s.updStack k (fun x => { x with pw := .init, waking := false, train := { step := 1, at_ := some s.now }, mem := [], dev := [], remap := [], spareUsed := 0 })

end Sys2Proof.Machine
end

