-- ==== Sys2Proof/Machine/SchedOps.lean ====
section
/-! DEFINITION. A partition as a whole: its members, the events that close its windows, its register windows, rollback, and
the wingbeat sequencer's arithmetic (R58, R74, R317–R345). -/

namespace Sys2Proof.Machine

/-! ### Members -/

/-- The sectors of partition `p`, ascending. -/
def State.partSecs (s : State) (p : Nat) : List Nat := bitsOf (s.part p).secs 24
/-- The tiles of partition `p`, ascending. -/
def State.partTiles (s : State) (p : Nat) : List Nat := (s.partSecs p).flatMap (fun k => (List.range 160).map (fun i => 160 * k + i))
/-- The compute dies of partition `p`, ascending. -/
def State.partDies (s : State) (p : Nat) : List Nat := (s.partSecs p).flatMap (fun k => (List.range 10).map (fun i => 10 * k + i))
/-- The compute dies and stack nodes of partition `p`. -/
def State.partNodes (s : State) (p : Nat) : List Nat := s.partDies p ++ (s.partSecs p).map stackNode

/-- The tiles of partition `p` whose L-die is valid (R342): those that run its program. -/
def State.liveTiles (s : State) (p : Nat) : List Nat := (s.partTiles p).filter (fun t => (s.hub.anat.smap.get {} (tileDie t)).valid)

/-- The partition that die-cell `n` belongs to, 31 for none. -/
def State.partOfNode (s : State) (n : Nat) : Nat := if n < 264 then s.partOfSector (nodeSector n) else 31

/-- Every tile of a list changed. -/
def State.mapTiles (s : State) (l : List Nat) (f : Nat → Tile → Tile) : State := l.foldl (fun s t => s.updTile t (f t)) s
/-- Every die-cell of a list changed. -/
def State.mapNodes (s : State) (l : List Nat) (f : Node → Node) : State := l.foldl (fun s n => s.updNode n f) s
/-- Every stack of a list changed. -/
def State.mapStacks (s : State) (l : List Nat) (f : Stack → Stack) : State := l.foldl (fun s k => s.updStack k f) s

/-- The cell ID of partition `p` (R42). -/
def partCell (p : Nat) : W16 := BitVec.ofNat 16 (0x6000 + p)
/-- The cell ID of sector `k`. -/
def sectorCell (k : Nat) : W16 := BitVec.ofNat 16 (0x4000 + k)

/-! ### Register windows (R58) -/

/-- A register window as hub firmware opens it: rights, source, range in units of 64 B, generation. -/
def regWindow (gen : Byte) (rights : BitVec 3) (skind : BitVec 2) (src : W16) (b l : Nat) : Window :=
  { gen := gen, st := .open, rights := rights, skind := skind, srcval := src, base64 := BitVec.ofNat 32 b, limit64 := BitVec.ofNat 32 l }

/-- The first `n` register windows of a table through an event of R74 and, where `re`, their reopening (R58): every window closes with
its generation advanced, and a window that firmware reopens advances once more and is open again. -/
def cycleWindows (re : Bool) (n : Nat) (t : Table Window) : Table Window :=
  (List.range n).foldl (fun t i => t.upd {} i (fun w =>
    if !re || w.st == .closed then { w with gen := nextGen w.gen, st := .closed, pend := [] }
    else { w with gen := nextGen (nextGen w.gen), rej := 0, pend := [] })) t

/-- One register window table of 16 entries cycled. -/
def cycleRegs (re : Bool) (t : Table Window) : Table Window := cycleWindows re 16 t

/-- The register windows of a die's scratchpad control blocks, 16 of each of its 16 logical tiles, keyed 16 × tile + index. -/
def cycleDieRegs (re : Bool) (t : Table Window) : Table Window := cycleWindows re 256 t

/-- The hub's register blocks that have windows for partition `p`: its cell-window queue, its record, its result slots,
and the mailboxes of its sectors. -/
def State.hubBlocks (s : State) (p : Nat) : List Nat :=
  [0x50000 + 0x100 * p, 0x28000 + 0x40 * p, 0x100000 + 0x40000 * p] ++ (s.partSecs p).map (fun k => 0x40000 + 0x100 * k)

/-- The register windows of partition `p` opened at formation (R58, R89, R191, R228, R260, R275, R400, R412, R423, R431,
R443, R449); a tile's window 1 shows its window tables to port dies, its window 2 its counters to the partition (R80, log 95). -/
def State.openRegs (s : State) (p : Nat) : State :=
  let c := partCell p
  let s1 := s.mapTiles (s.partTiles p) (fun _ x => { x with
    w := { x.w with rwin := ((x.w.rwin.put {} 0 (regWindow 1 2 0 c 0 1)).put {} 1 (regWindow 1 1 2 0 0x80 0xA8)).put {} 2 (regWindow 1 1 0 c 0x50 0x54) }
    id := { x.id with rwGen := 1 } })
  let s2 := s1.mapStacks (s.partSecs p) (fun x => { x with w := { x.w with
    rwin := (x.w.rwin.put {} 0 (regWindow 1 2 0 c 0xC00 0xC01)).put {} 1 (regWindow 1 3 0 c 0 4) } })
  let s3 := s2.mapNodes (s.partDies p) (fun x => { x with
    rwin := (List.range 16).foldl (fun t i => t.put {} (16 * i) (regWindow 1 3 0 c (0x400 + 0x40 * i) (0x404 + 0x40 * i))) x.rwin })
  let s4 := s3.updHub (fun h => { h with
    rwin := (s.partSecs p).foldl (fun t k => t.upd [] (0x40000 + 0x100 * k) (fun w => Table.put {} w 0 (regWindow 1 3 0 (sectorCell k) 0 4)))
      (((h.rwin.upd [] (0x50000 + 0x100 * p) (fun w => Table.put {} w 0 (regWindow 1 2 0 c 0 1))).upd [] (0x28000 + 0x40 * p)
        (fun w => Table.put {} w 0 (regWindow 1 1 0 c 0 1))).upd [] (0x100000 + 0x40000 * p) (fun w => Table.put {} w 0 (regWindow 1 2 0 c 0 0x1000))) })
  let s5 := [1, 2, 3].foldl (fun s q => s.updPort q (fun x => { x with blk := x.blk.upd {} p (fun b => { b with
    rwin := (((((b.rwin.put {} 0 (regWindow 1 2 0 c 0 1)).put {} 1 (regWindow 1 2 0 c 1 2)).put {} 2 (regWindow 1 2 1 0 0 1)).put {} 3
      (regWindow 1 2 1 0 1 2)).put {} 4 (regWindow 1 2 0 c 2 3)).put {} 5 (regWindow 1 2 1 0 2 3) }) })) s4
  s5.updPart p (fun x => { x with rwGen := 1 })

/-- The result LOST of each close of the queue of stack `k` that is in progress (R263), the earliest first. -/
def State.snCloseLost (s : State) (k : Nat) : State :=
  let x := s.stack k
  (byOrder (x.w.win.flatMap (fun kv => kv.2.pend.map (fun p => (kv.1, p))))).foldl (fun s c => match c.2.dest with
    | .stackRes pga tag => s.sendResult k pga tag (snResult (({ x.w.window c.1 with gen := c.2.gen } : Window).tag c.1) 0 stLost 0 0)
    | _ => s) s

/-- The queue of stack `k` through an event of R74 (R263): its commands are abandoned, and one in progress ends LOST. -/
def State.snAbandon (s : State) (k : Nat) : State :=
  let s := s.snCloseLost k
  let x := s.stack k
  let s1 := (s.setStack k { x with cmdq := [], sxq := [], sxe := none, closing := none }).updNode (stackNode k) (fun n => { n with
    iss := n.iss.giveUp (fun g => g.why == .sxeData) })
  match x.sxe with
  | none => s1
  | some j => s1.sendResult k (BitVec.ofNat 56 (fld j.cmd 87 32)) (BitVec.ofNat 16 (fld j.cmd 31 16)) (snResult 0 0 stLost 0 j.bytes)

/-- Every ordinary window of partition `p` closed with its generation advanced (R74, R336). -/
def State.partCloseWindows (s : State) (p : Nat) : State :=
  (s.mapTiles (s.partTiles p) (fun _ x => { x with w := { x.w with win := closeAll x.w.win 64 } })).mapStacks (s.partSecs p)
    (fun x => { x with w := { x.w with win := closeAll x.w.win 256 } })

/-- The events of R74 on partition `p`: every ordinary window closes with its generation advanced, and every register
window is closed and, where `re`, reopened (R58). The cell-window queue is emptied and running cell closes end without a result (DESIGN
CHOICE, log 94: R263 says so of a stack node's queue alone). -/
def State.partCloseAll (s : State) (p : Nat) (re : Bool) : State :=
  let s1 := (((s.partSecs p).foldl (fun s k => s.snAbandon k) s).partCloseWindows p).mapTiles (s.partTiles p) (fun _ x => { x with
    w := { x.w with rwin := cycleRegs re x.w.rwin }, id := { x.id with rwGen := nextGen (nextGen x.id.rwGen) } })
  let s2 := s1.mapStacks (s.partSecs p) (fun x => { x with
    w := { x.w with rwin := cycleRegs re x.w.rwin } })
  let s3 := s2.mapNodes (s.partDies p) (fun x => { x with rwin := cycleDieRegs re x.rwin })
  let blocks := s.hubBlocks p
  let s4 := s3.updHub (fun h => { h with
    rwin := blocks.foldl (fun t b => t.upd [] b (cycleRegs re)) h.rwin
    cellq := h.cellq.put [] p [], cellRun := h.cellRun.filter (fun c => c.part != p)
    mbb := (s.partSecs p).foldl (fun t k => (List.range 4).foldl (fun t m => t.put {} (4 * k + m) {}) t) h.mbb })
  let s5 := (s.partSecs p).foldl (fun s k => (List.range 4).foldl (fun s m =>
    ((s.hwr (mbbHeld k m) 0).hwr (mbbPend k m) 0).hwr (mbbTaken k m) 0) s) s4
  let s6 := [1, 2, 3].foldl (fun s q => s.updPort q (fun x => { x with blk := x.blk.upd {} p (fun b =>
    { b with rwin := cycleRegs re b.rwin, cmdq := [], wrq := [], clxq := [], unbinding := none }) })) s5
  s6.updPart p (fun x => { x with rwGen := nextGen (nextGen x.rwGen) })

/-- The mailbox locks that tiles of partition `p` hold are freed (R416). -/
def State.mbbFreeTiles (s : State) (p : Nat) : State :=
  (s.partSecs p).foldl (fun s k => (List.range 4).foldl (fun s m =>
    if s.hrd (mbbHeld k m) = 1 ∧ s.hrd (mbbOwner k m) < 8192 then s.mbbFree k m else s) s) s

/-- Every tile of partition `p` reset (R214, R416), its arrivals gone from the network. -/
def State.partTileReset (s : State) (p : Nat) : State :=
  let s1 := (s.mbbFreeTiles p).mapTiles (s.partTiles p) (fun _ x => { x.reset with w := { x.reset.w with win := x.w.win } })
  s1.mapNodes (s.partNodes p) (fun x => { x with sync := { x.sync with got := [], edges := [] } })

/-! ### Transport keys of a partition (R424) -/

/-- The keys of partition `p`, as TK_OWNER names them within the layout's range. -/
def State.keysOf (s : State) (p : Nat) : List Nat :=
  match s.hub.rot.layout.find? (fun e => e.id == p) with
  | none => []
  | some e => (List.range e.tkCnt).map (fun i => e.tkBase + i)

/-- A port die once the keys `ks` of partition `p` are unbound (R424, R445): requests of peers for them and work requests of
the partition are gone, collectives wait for their command to be written again, and other collective commands are gone. -/
def Port.dropKeys (x : Port) (ks : List Nat) (p : Nat) : Port :=
  let gone := x.reqs.filter (fun r => ks.contains r.key)
  { x with
    reqs := x.reqs.filter (fun r => !ks.contains r.key)
    wrs := x.wrs.filter (fun w => w.part != p)
    clx := (x.clx.filter (fun c => c.part != p || fld c.cmd 7 0 == 4)).map (fun c => if c.part = p then { c with parked := true, open_ := 0 } else c)
    held := x.held - (gone.map (fun r => r.r.data.length)).sum
    conns := gone.foldl (fun t r => t.upd {} r.conn (fun c => { c with held := c.held - r.r.data.length })) x.conns }

/-- Every key of partition `p` unbound at once; the answers of operations in flight are discarded (R424). -/
def State.unbindKeys (s : State) (p : Nat) : State :=
  let ks := s.keysOf p
  let s1 := ks.foldl (fun s k => if s.rd tkPlace (tkBound k) = 1 then
    (((s.wr tkPlace (tkBound k) 0).wr tkPlace (tkInfl k) 0).wr tkPlace (tkGen k) ((nextGen (BitVec.ofNat 8 (s.rd tkPlace (tkGen k)))).toNat)) else s) s
  [1, 2, 3].foldl (fun s q => (s.updPort q (fun x => x.dropKeys ks p)).updNode (265 + q)
    (fun n => { n with iss := n.iss.giveUp (fun g => g.seg.src == .key p) })) s1

/-- Connections of partition `p` in a port die. -/
def State.connsOf (s : State) (q p : Nat) : List Nat :=
  ((s.port q).conns.map (·.1)).filter (fun c => s.rd (265 + q) (cnPart c) == p && s.rd (265 + q) (cnState c) != 0)

/-- Every connection of partition `p` to ERROR (R424), its packets given up; the collectives and endpoints end with the
partition's program, and its group entries report HALTED (R445). -/
def State.connsError (s : State) (p : Nat) : State :=
  [1, 2, 3].foldl (fun s q =>
    let s1 := (s.connsOf q p).foldl (fun s c => (s.wr (265 + q) (cnState c) 3).updPort q (fun x => { x with
      conns := x.conns.upd {} c (fun y => { y with unacked := [], msg := [], msgs := [] }) })) s
    s1.updPort q (fun x => { x with
      clx := x.clx.filter (fun c => c.part != p)
      eps := Table.mapListed {} x.eps (fun _ e => if e.part = p then {} else e)
      groups := Table.mapListed {} x.groups (fun g e => if s.rd (265 + q) (grPart g) = p then { e with dead := true } else e) })) s

/-- The state that the partition's rails report (R445). -/
def State.railsReport (s : State) (p : Nat) (self : Bool) : State :=
  [1, 2, 3].foldl (fun s q => (List.range 64).foldl (fun s g =>
    if s.rd (265 + q) (grPart g) = p ∧ s.rd (265 + q) (grState g) ≠ 0 then s.wr (265 + q) (grStateSelf g) (b2n self) else s) s) s

/-! ### The program that runs -/

/-- The program of partition `p`: the base or its variant. -/
def Part.prog (x : Part) : ZsiProg :=
  match x.img with
  | none => {}
  | some z => if x.variant = 0 then z.base else z.variants.getD (x.variant - 1) z.base

/-- Beat record `r` (R348). -/
def zBeat (g : ZsiProg) (r : Nat) : BitVec 128 := g.beats.getD r 0

/-- The CKPT record that names beat record `r` (R347): its checkpoint ID and resume entries. -/
def zCkptAt (g : ZsiProg) (r : Nat) : Option (W16 × List Nat) :=
  (g.ckpts.find? (fun c => fld c.1 25 16 == r)).map (fun c => (BitVec.ofNat 16 (fld c.1 15 0), c.2))

/-- The record that follows record `r`, with the iterations done (R348). -/
def zNext (g : ZsiProg) (loops : Table Nat) (r : Nat) : Nat × Table Nat :=
  let b := zBeat g r
  if bit b 58 then
    let done := loops.get 0 r + 1
    if done < fld b 95 64 then (fld b 57 48, loops.put 0 r done) else (r + 1, loops.put 0 r 0)
  else (r + 1, loops)

/-- Record `r` is the last of the image, and no loop that it ends has an iteration left (R348). -/
def zLast (g : ZsiProg) (loops : Table Nat) (r : Nat) : Bool :=
  let b := zBeat g r
  bit b 14 && !(bit b 58 && decide (loops.get 0 r + 1 < fld b 95 64))

/-- Code block and start entry of relative tile `i` (R347). -/
def zTileEntry (g : ZsiProg) (i : Nat) : Nat × Nat := (fld (g.tilemap.getD i 0) 15 0, fld (g.tilemap.getD i 0) 26 16)

/-- IMEM filled from a code block. -/
def imemOf (code : List Insn) : Table Insn := Table.putList 0 [] 0 code

/-- The resume entry of a tile at boundary record `r`: beat 0 without a record resumes at the start entries (R338). -/
def zResumeEntry (g : ZsiProg) (r i : Nat) : Nat :=
  match zCkptAt g r with
  | some c => c.2.getD (zTileEntry g i).1 0
  | none => (zTileEntry g i).2

/-- Every tile of the partition gets its code, and its entry, and leaves STOPPED for IDLE (R190, R191, R336, R351). -/
def State.enterCode (s : State) (p r : Nat) (start : Bool) : State :=
  let g := (s.part p).prog
  s.mapTiles (s.liveTiles p) (fun _ x =>
    let i := x.id.rel.toNat
    let e := if start then (zTileEntry g i).2 else zResumeEntry g r i
    { x with seq := { x.seq with imem := imemOf (g.code.getD (zTileEntry g i).1 []), imemBad := [], cmdq := [e], en := true, st := .idle } })

/-- A scheduled window as an OPEN: write right, the partition as source, count mode OFF (R330). -/
def schedReq (p i b l : Nat) : WopenReq :=
  { idx := i, rights := 2, skind := 0, srcval := partCell p, cnt := 0xFF, cmode := 0, base64 := b, limit64 := l, dest := .none }

/-- The scheduled windows of the program opened as cell-level windows on the partition, each with one new generation on every member and
its tag in every exchange engine; one that R87 does not let open stays as it is (R330). -/
def State.openScheduled (s : State) (p : Nat) : State :=
  ((s.part p).prog.windows).foldl (fun s w =>
    let i := fld w 7 0
    let ts := s.liveTiles p
    let ks := if bit w 8 then s.partStacks p else []
    let us := ts.map (fun t => (s.tile t).w) ++ ks.map (fun k => (s.stack k).w)
    let g := ((us.headD {}).window i).gen
    if us.all (fun u => (u.window i).st == .closed && (u.window i).gen == g) then
      let tag := BitVec.ofNat 16 (256 * i + (nextGen g).toNat)
      let s0 := s.till (us.foldl (fun a u => max a (u.openDue i)) 0)
      let s1 := s0.mapTiles ts (fun t x => { x with w := x.w.open_ (schedReq p i (fld w 39 16) (fld w 63 40)) s0.now (s0.dieTb (tileDie t)) })
      let s2 := ks.foldl (fun s k => s.updStack k (fun x => { x with
        w := x.w.open_ (schedReq p i (fld w 94 64) (fld w 126 96)) s0.now (s0.dieTb (stackNode k)) })) s1
      (s2.mapTiles ts (fun _ x => { x with xe := { x.xe with tag := x.xe.tag.put 0 i tag } })).mapStacks (s.partSecs p)
        (fun x => { x with xe := { x.xe with tag := x.xe.tag.put 0 i tag } })
    else s) s

/-- Steps 1–6 of a rollback (R336): the tiles are reset, windows close, code is reloaded, the checkpoint's values are
restored, scheduled windows reopen, and every tile takes its resume entry. A molt closes and reopens register windows too
(R58, R74). SCH_STATE is the caller's. -/
def State.restore (s : State) (p : Nat) (molt : Bool) : State :=
  let c := (s.part p).ckpt
  let seed := match (s.part p).img with | some z => z.seed | none => 0
  let s0 := s.updPart p (fun x => { x with
    wbs := { x.wbs with wb := none, cAt := none, replayDue := false, replays := 0, withheld := false, closing := false, forced := false } })
  let s1 := (if molt then s0.partCloseAll p true else s0.partCloseWindows p).partTileReset p
  let s2 := s1.mapTiles (s.partTiles p) (fun _ x => { x with
    id := { x.id with seed := seed, stepNum := c.stepNum }, fl := { x.fl with run := c.run, last := c.last, pend := c.pend } })
  (s2.openScheduled p).enterCode p c.rec_ false

/-- The partition schedule state set. -/
def State.setSch (s : State) (p : Nat) (st : SchState) : State := s.updPart p (fun x => { x with sch := { x.sch with state := st } })

/-- ROLLBACK_MAX in force (R336, R352): SCH_ROLLBACK_MAX overrides the image's value. -/
def Part.rollbackMax (x : Part) : Nat := x.sch.rollbackMax.toNat

/-- A rollback that a failure of the beat in progress calls for (R336): the failure after ROLLBACK_MAX in a row halts. -/
def State.rollback (s : State) (p : Nat) : State :=
  let x := (s.part p)
  let n := if x.wbs.failBeat = x.wbs.w then x.wbs.fails + 1 else 1
  let s1 := s.updPart p (fun x => { x with wbs := { x.wbs with failBeat := x.wbs.w, fails := n } })
  if x.rollbackMax < n then s1.haltNow p 2
  else ((s1.setSch p .rollback).restore p false).railsReport p true

/-- REPLAY_MAX in force (R346, R352). -/
def Part.replayMax (x : Part) : Nat :=
  if x.sch.replayMax = 0 then (match x.img with | some z => z.replayMax | none => 3) else x.sch.replayMax.toNat

/-- Every tile of the partition that has a die holds at STEP. -/
def State.allAtStep (s : State) (p : Nat) : Bool :=
  (s.liveTiles p).all (fun t => match (s.tile t).seq.hold with | .step true => true | _ => false)

/-- The arrivals of the step channel consumed. -/
def State.clearStep (s : State) (p : Nat) : State :=
  (s.mapTiles (s.partTiles p) (fun _ x => { x with arr := x.arr.put none 16 none })).mapNodes (s.partNodes p) (fun x =>
    { x with sync := { x.sync with got := x.sync.got.put [] 16 [], edges := x.sync.edges.put 0 16 0 } })

/-- SYNC_WB_LEAD of the partition's root (R314). -/
def State.lead (s : State) (p : Nat) : Nat := ((s.node (s.part p).root).sync.lead).toNat

/-- The beat quantum (R322). -/
def Part.q (x : Part) : Nat := match x.img with | some z => max 1 z.q | none => 1

/-- The smallest n with c ≤ N + n Q − W (R322). -/
def slipCount (c n q w : Nat) : Nat := if c + w ≤ n then 0 else ceilDiv (c + w - n) q

/-- The grid of R322 begins at the first multiple of Q that leaves the lead (assumption log 33). -/
def firstRelease (now q w : Nat) : Nat := ceilDiv (now + w) q * q

/-- A wingbeat leaves the root. -/
def State.sendWb (s : State) (p : Nat) (wb : Wingbeat) : State :=
  (s.updPart p (fun x => { x with wbs := { x.wbs with wb := some wb, seq := x.wbs.seq + 1, cAt := none, replayDue := false } })).emit
    (.wingbeat p wb.phase wb.seq wb.t)

/-- The first wingbeat of a run or of a resume goes out once every tile has arrived (R320, R336). -/
def State.sendFirst (s : State) (p : Nat) (resume : Bool) : State :=
  let x := s.part p
  let r := if resume then x.ckpt.rec_ else 0
  let b := zBeat x.prog r
  let t := firstRelease s.tb x.q (s.lead p)
  (s.clearStep p).sendWb p ⟨fld b 11 0, BitVec.ofNat 32 (x.wbs.seq % 2 ^ 30), t, r, false, false, resume, true⟩

end Sys2Proof.Machine
end

