-- ==== Sys2Proof/Machine/ImageCheck.lean ====
section
/-! DEFINITION. What the loader makes of an image's routers and streams, and its checks 0x04 to 0x0A, 0x0D and 0x10 (R54, R253, R289–R293,
R304, R305, R333, R340, R341, R351). The fc of a slot-table entry is that at which a flit is at its router's input (assumption log 98). -/

namespace Sys2Proof.Machine

/-! ### The layout that is checked: as the panel is, or with one further die replaced (R341) -/

/-- L-dies that are taken to have moved, with their new sites, and the sites they left. -/
structure Lay where
  moved : List (Nat × Nat) := []
  dead : List Nat := []
  deriving DecidableEq, Repr

/-- The site of die-cell `n`. -/
def State.laySite (s : State) (y : Lay) (n : Nat) : Option Nat :=
  match y.moved.find? (fun m => m.1 == n) with
  | some m => some m.2
  | none => s.siteOf n

/-- The die-cell of site `p`. -/
def State.layNode (s : State) (y : Lay) (p : Nat) : Option Nat :=
  if y.dead.contains p then none
  else match y.moved.find? (fun m => m.2 == p) with
    | some m => some m.1
    | none => s.nodeAt p

/-! ### Entries -/

/-- The entries of a phase in a router's part of an image. -/
def ZsiRoute.entries (r : ZsiRoute) (ph : Nat) : List (BitVec 80) :=
  let w := r.phIdx.getD ph 0
  if !bit w 31 then [] else ((r.slots.drop (fld w 14 0)).take (fld w 30 15)).filter (fun e => bit e 78)

/-- First fc of an entry's run, and the fc after its last. -/
def slA (e : BitVec 80) : Nat := fld e 23 0
def slB (e : BitVec 80) : Nat := fld e 23 0 + fld e 39 24
/-- Input port and channel. -/
def slIn (e : BitVec 80) : Nat × Nat := (fld e 42 40, fld e 48 43)
/-- The outputs of an entry at a router. -/
def ZsiRoute.outs (r : ZsiRoute) (e : BitVec 80) : List (Nat × Nat) := slotOutputs (fun t => r.trees.getD t 0) e

/-- Two runs share an fc. -/
def slMeet (a b : BitVec 80) : Bool := decide (slA a < slB b ∧ slA b < slB a)

/-- The channels of the router on site `p`; one of a site that no die-cell has yet is taken to be whole. -/
def State.chansAt (s : State) (y : Lay) (p : Nat) : List (Nat × Nat) :=
  let ok := fun (q c : Nat) => match s.layNode y p with
    | none => false
    | some n => if s.nodeAt p = some n then (s.node n).fab.present n q c else decide (c < if q < 4 then 24 else localChannels n)
  (List.range 5).flatMap (fun q => ((List.range 34).filter (ok q)).map (fun c => (q, c)))

/-! ### Closures (R289) -/

/-- A reservation of input `i` over [a, b) that carries nothing; its output is one of the entry it belongs to. -/
def closure (e : BitVec 80) (o i : Nat × Nat) (a b : Nat) : BitVec 80 :=
  BitVec.ofNat 80 (a + (b - a) * 2 ^ 24 + i.1 * 2 ^ 40 + i.2 * 2 ^ 43 + o.1 * 2 ^ 49 + o.2 * 2 ^ 52 + fld e 77 66 * 2 ^ 66 + 2 ^ 78 + 2 ^ 79)

/-- The closures that entry `e` needs beside the entries `es` of its router (R289): its own input over the 4 fc before it, in which its
outputs are not free for 5 flits, and one further input for every output beyond the first. -/
def closuresOf (chans : List (Nat × Nat)) (outs : BitVec 80 → List (Nat × Nat)) (es : List (BitVec 80)) (e : BitVec 80) : List (BitVec 80) :=
  let a := slA e - 4
  let o := (outs e).headD (0, 0)
  let free := fun (i : Nat × Nat) (b : Nat) => es.all (fun f => slIn f != i || decide (slB f ≤ a ∨ b ≤ slA f))
  let own := if a < slA e ∧ free (slIn e) (slA e) then [closure e o (slIn e) a (slA e)] else []
  let given := (es.filter (fun f => bit f 79 && slA f ≤ slA e && slB e ≤ slB f)).length
  own ++ ((chans.filter (fun i => i != slIn e && free i (slB e))).take ((outs e).length - 1 - given)).map (fun i => closure e o i a (slB e))

/-- The entries of one phase with their closures, in the order of SL_START (R290). -/
def closePhase (chans : List (Nat × Nat)) (outs : BitVec 80 → List (Nat × Nat)) (es : List (BitVec 80)) : List (BitVec 80) :=
  let all := (es.filter (fun e => !bit e 79)).foldl (fun acc e => acc ++ closuresOf chans outs acc e) es
  sortBy slA all

/-- A router's part of an image with its closures placed, and its phase index made anew. -/
def closeRoute (chans : List (Nat × Nat)) (r : ZsiRoute) : ZsiRoute :=
  let done := (List.range r.phIdx.length).foldl (fun (a : List (BitVec 80) × List W32) ph =>
    if bit (r.phIdx.getD ph 0) 31 then
      let es := closePhase chans r.outs (r.entries ph)
      (a.1 ++ es, a.2 ++ [BitVec.ofNat 32 (a.1.length + es.length * 2 ^ 15 + 2 ^ 31)])
    else (a.1, a.2 ++ [0])) ([], [])
  { r with slots := done.1, phIdx := done.2 }

/-! ### The routers of a partition (R292, R341) -/

/-- A tree with its tiles by physical position on site `p` (R38, R292); the image names logical tiles (assumption log 65). -/
def State.physTree (s : State) (n p : Nat) (t : BitVec 22) : BitVec 22 :=
  if 240 ≤ n then t
  else BitVec.ofNat 22 (fld t 3 0 + b2n (bit t 21) * 2 ^ 21
    + ((List.range 16).filter (fun i => bit t (4 + i))).foldl (fun a i => a + 2 ^ (4 + s.physTile p i)) 0)

/-- The patches in force in partition `p`: sector rank and logical slot of every L-die that molt has moved. -/
def State.patchesOf (s : State) (p : Nat) : List (Nat × Nat) :=
  ((s.partDies p).zipIdx.filter (fun d => (s.hub.anat.smap.get {} d.1).origin == 2)).map (fun d => (d.2 / 10, d.2 % 10))

/-- The image's part for the router of a site, patched. -/
def patchedRoute (g : ZsiProg) (pt : List (Nat × Nat)) (r : ZsiRoute) : ZsiRoute :=
  (g.patches.filter (fun e => pt.contains (fld e.1 4 0, fld e.1 8 5) && decide (12 * fld e.1 4 0 + fld e.1 12 9 = r.site))).foldl
    (fun r e => { r with slots := r.slots.set (fld e.1 27 13) e.2 }) r

/-- The routers of partition `p` under program `g`, by site: patched, with trees from the site map and closures placed. -/
def State.routersFor (s : State) (p : Nat) (g : ZsiProg) (y : Lay) (pt : List (Nat × Nat)) : List (Nat × ZsiRoute) :=
  g.routes.filterMap (fun r =>
    let q := 12 * (s.partSecs p).getD (r.site / 12) 0 + r.site % 12
    match s.layNode y q with
    | none => none
    | some n =>
      let r1 := patchedRoute g pt r
      some (q, closeRoute (s.chansAt y q) { r1 with trees := r1.trees.map (s.physTree n q) }))

/-! ### Streams -/

/-- The descriptors of a phase in an engine's lists. -/
def ZsiXd.descsOf (x : ZsiXd) (ph : Nat) : List (BitVec 256) :=
  let count := fun (w : W32) => if bit w 31 then fld w 30 20 else 0
  (x.descs.drop ((x.pidx.take ph).foldl (fun a w => a + count w) 0)).take (count (x.pidx.getD ph 0))

/-- A stream of a phase: its engine's die-cell and tile (0 on a stack node), its record in its section, its descriptor. -/
structure Stream where
  node : Nat
  tile : Nat
  rec_ : Nat
  d : BitVec 256
  deriving DecidableEq, Repr

/-- The streams of phase `ph`. -/
def State.streamsOf (s : State) (p : Nat) (g : ZsiProg) (ph : Nat) : List Stream :=
  (g.xdtile.zipIdx.flatMap (fun x => (x.1.descsOf ph).map (fun d =>
      { node := (s.partDies p).getD (x.2 / 16) 0, tile := x.2 % 16, rec_ := x.2, d := d })))
    ++ (g.xdstack.zipIdx.flatMap (fun x => (x.1.descsOf ph).map (fun d =>
      { node := stackNode ((s.partSecs p).getD x.2 0), tile := 0, rec_ := x.2, d := d })))

/-- A relative address of an image as an address of the panel (R346): the relative L-die in space 0, the sector rank in spaces 1 and 4. -/
def State.absPga (s : State) (p : Nat) (v : Nat) : Nat :=
  let sec := fun r => (s.partSecs p).getD r 0
  match bitsAt v 55 53 with
  | 0 => v - bitsAt v 52 45 * 2 ^ 45 + (s.partDies p).getD (bitsAt v 52 45) 0 * 2 ^ 45
  | 1 => v - bitsAt v 52 48 * 2 ^ 48 + sec (bitsAt v 52 48) * 2 ^ 48
  | 4 => v - bitsAt v 52 44 * 2 ^ 44 + (240 + sec (bitsAt v 52 44)) * 2 ^ 44
  | _ => v

/-- A descriptor as it is loaded. -/
def State.absDesc (s : State) (p : Nat) (d : BitVec 256) : BitVec 256 :=
  if fld d 1 0 = 0 ∨ fld d 1 0 = 2 then setFld d 215 160 (s.absPga p (fld d 215 160)) else d

/-- The segments of a stream (R49, R328). -/
def xdSegments (d : BitVec 256) (snodes : List Nat) : List (Option Tgt × Nat × Nat × Nat) :=
  let len := fld d 88 64
  if fld d 1 0 = 1 ∨ fld d 1 0 = 3 then
    (segments (fun a => (Tgt.hub, a)) (fld d 183 160) 0 len (len / 256 + 2)).map (fun g => (none, g.2))
  else
    match decodePga (BitVec.ofNat 56 (fld d 215 160)) len snodes.length with
    | none => []
    | some x => (x.segments snodes len).map (fun g => (some g.1, g.2))

/-- The flits of a stream (R328). -/
def xdFlits (d : BitVec 256) (snodes : List Nat) : Nat := (xdSegments d snodes).foldl (fun a g => a + flitsOf g.2.2.2) 0

/-- Where a stream is delivered: site, local channel, entry edge (4 for its own router), and the fc at which its first flit is there. -/
structure Drop where
  site : Nat
  ch : Nat
  edge : Nat
  t : Nat
  deriving DecidableEq, Repr

/-- The logical position behind local channel `c` of site `p`, and R31's 2 fc where it is the spare's. -/
def State.posOf (s : State) (p c : Nat) : Nat × Nat :=
  if c / 2 = 16 then (s.hub.boot.spareTile.get 0 p - 1, 2) else (c / 2, 0)

/-- fc from local channel `c` of site `p` to edge `e`, or back (R283, R304). -/
def State.localFc (s : State) (y : Lay) (p c e : Nat) : Nat :=
  match s.layNode y p with
  | some n => if n < 240 then 4 * edgeHops (s.posOf p c).1 e + (s.posOf p c).2 else 4
  | none => 4

/-- The links over edge `e` of site `p` that can carry channel `c`: the site beyond and its edge. -/
def State.hopsOver (s : State) (y : Lay) (p e : Nat) : List (Nat × Nat) :=
  ((torusLinks p).filter (fun l => l.edge == e && (s.layNode y l.dst).isSome && (match l.mid with | some m => !y.dead.contains m | none => true))).filterMap
    (fun l => ((torusLinks l.dst).find? (fun b => b.dst == p && b.isY == l.isY)).map (fun b => (l.dst, b.edge)))

/-- The entry that takes over a run of `len` fc from `a` on at an input. -/
def entryAt (es : List (BitVec 80)) (i : Nat × Nat) (a len : Nat) : Option (BitVec 80) :=
  es.find? (fun e => !bit e 79 && slIn e == i && decide (slA e = a ∧ fld e 39 24 = len))

/-- A stream followed from an entry of a router (check 0x06): all its deliveries, or none where an entry is missing on the way. `rs` gives the
entries of the phase by site. -/
def State.follow (s : State) (y : Lay) (rs : List (Nat × ZsiRoute)) (ph : Nat) : Nat → Nat → BitVec 80 → Option (List Drop)
  | 0, _, _ => none
  | fuel + 1, p, e =>
    match rs.find? (fun r => r.1 == p) with
    | none => none
    | some r =>
      (r.2.outs e).foldl (fun acc o => match acc with
        | none => none
        | some l =>
          if o.1 = 4 then some (l ++ [⟨p, o.2, (slIn e).1, slA e⟩])
          else
            let t := slA e + 12 + (if (slIn e).1 = 4 then s.localFc y p (slIn e).2 o.1 else 0)
            match (s.hopsOver y p o.1).findSome? (fun h => match rs.find? (fun r => r.1 == h.1) with
              | none => none
              | some r' => match entryAt (r'.2.entries ph) (h.2, o.2) t (fld e 39 24) with
                | none => none
                | some e' => State.follow s y rs ph fuel h.1 e') with
            | none => none
            | some l' => some (l ++ l')) (some [])

/-- The local channel of a stream's engine. -/
def State.streamCh (s : State) (y : Lay) (x : Stream) : Nat :=
  if x.node < 240 then 2 * s.physTile ((s.laySite y x.node).getD 0) x.tile + fld x.d 6 2 else fld x.d 6 2

/-- The deliveries of a stream (check 0x06): its local-input entry begins at XD_START and is as long as its flits. -/
def State.drops (s : State) (y : Lay) (snodes : List Nat) (rs : List (Nat × ZsiRoute)) (ph : Nat) (x : Stream) : Option (List Drop) :=
  match s.laySite y x.node with
  | none => none
  | some p =>
    match rs.find? (fun r => r.1 == p) with
    | none => none
    | some r =>
      match entryAt (r.2.entries ph) (4, s.streamCh y x) (fld x.d 55 32) (xdFlits x.d snodes) with
      | none => none
      | some e => s.follow y rs ph 64 p e

/-- The fc at which the first flit of a stream reaches its receiver. -/
def State.arriveFc (s : State) (y : Lay) (x : Stream) (r : Drop) : Nat :=
  if r.edge < 4 then r.t + s.localFc y r.site r.ch r.edge
  else if x.node < 240 then
    (let i := s.posOf r.site (s.streamCh y x)
     let j := s.posOf r.site r.ch
     r.t + (if i.1 = j.1 then 2 else 4 * meshHops i.1 j.1 + i.2 + j.2))
  else r.t + 2

/-- The receiver of a delivery: a tile, or 5,000 + stack. -/
def State.receiver (s : State) (y : Lay) (r : Drop) : Option Nat :=
  match s.layNode y r.site with
  | none => none
  | some n => some (if n < 240 then 16 * n + (s.posOf r.site r.ch).1 else 5000 + (n - 240))

/-- The receiver that a unicast target is. -/
def tgtPlace : Tgt → Option Nat
  | .tile t => some t
  | .stack k => some (5000 + k)
  | _ => none

/-- The stream reaches what its descriptor names (check 0x06): every segment's target, or some receiver on a tree. -/
def State.reaches (s : State) (y : Lay) (snodes : List Nat) (x : Stream) (l : List Drop) : Bool :=
  let got := l.filterMap (s.receiver y)
  !l.isEmpty && (xdSegments x.d snodes).all (fun g => match g.1 with
    | none => true
    | some t => l.length == 1 && got.head? == tgtPlace t)

/-- The bytes that a stream writes: receiver, offset, length. -/
def State.writesOf (s : State) (y : Lay) (snodes : List Nat) (x : Stream) (l : List Drop) : List (Nat × Nat × Nat) :=
  (xdSegments x.d snodes).flatMap (fun g => match g.1 with
    | some t => ((tgtPlace t).map (fun p => (p, g.2.1, g.2.2.2))).toList
    | none => (l.filterMap (s.receiver y)).map (fun p => (p, g.2.1, g.2.2.2)))

/-- XEND of a stream (R333), with R340's slack for a spare tile. -/
def State.streamEnd (s : State) (y : Lay) (snodes : List Nat) (x : Stream) (l : List Drop) : Nat :=
  let f := xdFlits x.d snodes
  l.foldl (fun a r =>
    let t := s.arriveFc y x r
    let last := t + f - 1 + 4
    max a (max (match s.receiver y r with | some q => if q < 5000 then last + 16 else last + 2000 | none => 0) (if 240 ≤ x.node then t + f + 4 else 0))) 0

/-- What a stream asks of pseudo-channels (R253): stack, pseudo-channel, fc, bytes. A write of part of a burst counts twice. -/
def State.stackLoad (s : State) (y : Lay) (snodes : List Nat) (x : Stream) (l : List Drop) : List ((Nat × Nat) × Nat × Nat) :=
  let off := fld x.d 132 96
  let reads := if x.node < 240 then [] else
    (segments (fun a => (Tgt.hub, a)) off 0 (fld x.d 88 64) (fld x.d 88 64 / 256 + 2)).map (fun g =>
      ((x.node - 240, snQ g.2.1), fld x.d 159 136, g.2.2.2))
  let t := (l.head?).map (s.arriveFc y x)
  reads ++ (xdSegments x.d snodes).filterMap (fun g => match g.1, t with
    | some (.stack k), some t =>
      some ((k, snQ g.2.1), t + g.2.2.1 / 64, if g.2.1 % 64 = 0 ∧ g.2.2.2 % 64 = 0 then g.2.2.2 else 2 * g.2.2.2)
    | _, _ => none)

/-! ### The checks -/

/-- The phases that an image uses (R347). -/
def zPhases (g : ZsiProg) : List Nat := (g.xend.zipIdx.filter (fun e => e.1 != 0xFFFFFFFF)).map (·.2)

/-- Check 0x04: an entry names ports, channels and trees that exist and are not absent. -/
def slotThere (chans : List (Nat × Nat)) (r : ZsiRoute) (e : BitVec 80) : Bool :=
  chans.contains (slIn e) && !(r.outs e).isEmpty && (r.outs e).all (fun o => chans.contains o)

/-- Check 0x05: two entries of a phase reserve one input or one output in one fc. A closure only reserves its input. No two phases of a
partition run at once: each ends within its beat (R323). -/
def slotClash (r : ZsiRoute) (a b : BitVec 80) : Bool :=
  slMeet a b && (slIn a == slIn b || (!bit a 79 && !bit b 79 && (r.outs a).any (fun o => (r.outs b).contains o)))

/-- The balance rule of R289 at fc `t`. -/
def balanced (chans : List (Nat × Nat)) (r : ZsiRoute) (es : List (BitVec 80)) (t : Nat) : Bool :=
  let freeOut := chans.filter (fun o => es.all (fun e => !(r.outs e).contains o || decide (slB e ≤ t ∨ t + 5 ≤ slA e)))
  let openIn := chans.filter (fun i => es.all (fun e => slIn e != i || decide (slB e ≤ t ∨ t < slA e)))
  decide (openIn.length ≤ freeOut.length)

/-- How many of 64 channel slots lie in free runs of at least 5 fc. -/
def freeRuns (busy : Nat → Bool) (w : Nat) : Nat :=
  let r := (List.range 64).foldl (fun (a : Nat × Nat) i =>
    if busy (64 * w + i) then (if 5 ≤ a.2 then a.1 + a.2 else a.1, 0) else (a.1, a.2 + 1)) (0, 0)
  if 5 ≤ r.2 then r.1 + r.2 else r.1

/-- The free-slot rule of R289 on the link over edge `q` in window `w`. -/
def freeSlots (chans : List (Nat × Nat)) (r : ZsiRoute) (es : List (BitVec 80)) (q w : Nat) : Bool :=
  decide (154 ≤ (chans.filter (fun c => c.1 == q)).foldl (fun a c =>
    a + freeRuns (fun t => es.any (fun e => (r.outs e).contains c && decide (slA e ≤ t ∧ t < slB e))) w) 0)

/-- Check 0x07 for one phase of a router. -/
def rules07 (chans : List (Nat × Nat)) (r : ZsiRoute) (es : List (BitVec 80)) : Bool :=
  (es.flatMap (fun e => [slA e - 4, slA e, slB e])).all (balanced chans r es)
    && (List.range 4).all (fun q => !(chans.any (fun c => c.1 == q)) || (es.flatMap (fun e =>
      if (r.outs e).any (fun o => o.1 == q) then (List.range (slB e / 64 + 1 - slA e / 64)).map (· + slA e / 64) else [])).all (freeSlots chans r es q))

/-- Check 0x09 (R253, R332). -/
def loadOk (ev : List ((Nat × Nat) × Nat × Nat)) : Bool :=
  ev.all (fun a => decide ((ev.filter (fun b => b.1 == a.1 && decide (a.2.1 ≤ b.2.1 ∧ b.2.1 < a.2.1 + 2000))).foldl (fun n b => n + b.2.2) 0 ≤ 54272))

/-- The first failure of a list of tests. -/
def firstFail : List (Bool × LoadErr) → Option LoadErr
  | [] => none
  | (ok, e) :: t => if ok then firstFail t else some e

/-- Checks 0x04 to 0x09 of program `g` in one layout; 0x0A, two channels at most on a tile port, is then met, since a port has no more. -/
def State.checkLay (s : State) (p : Nat) (g : ZsiProg) (y : Lay) (pt : List (Nat × Nat)) : Option LoadErr :=
  let rs := s.routersFor p g y pt
  let st := s.partStacks p
  let routerTests := fun (code : Nat) (ok : List (Nat × Nat) → ZsiRoute → List (BitVec 80) → Bool) =>
    rs.zipIdx.flatMap (fun r => (zPhases g).map (fun ph => (ok (s.chansAt y r.1.1) r.1.2 (r.1.2.entries ph), (code, g.at_ 8, r.2))))
  let phase := fun ph =>
    let xs := (s.streamsOf p g ph).map (fun x => ({ x with d := s.absDesc p x.d } : Stream))
    let ds := xs.map (fun x => (x, (s.drops y st rs ph x).getD []))
    let sect := fun (x : Stream) => if x.node < 240 then g.at_ 9 else g.at_ 0xA
    let ws := ds.flatMap (fun d => (s.writesOf y st d.1 d.2).map (fun w => (d.1, w)))
    ds.map (fun d => (s.reaches y st d.1 d.2, (6, sect d.1, d.1.rec_)))
      ++ ws.zipIdx.map (fun a => (ws.zipIdx.all (fun b => a.2 == b.2 || a.1.2.1 != b.1.2.1
          || decide (a.1.2.2.1 + a.1.2.2.2 ≤ b.1.2.2.1 ∨ b.1.2.2.1 + b.1.2.2.2 ≤ a.1.2.2.1)), (8, sect a.1.1, a.1.1.rec_)))
      ++ [(loadOk (ds.flatMap (fun d => s.stackLoad y st d.1 d.2)), (9, g.at_ 0xA, 0))]
      ++ xs.map (fun x => (decide (x.node < 240) || decide (fld x.d 159 136 + 2000 ≤ fld x.d 55 32), (9, g.at_ 0xA, x.rec_)))
  firstFail (routerTests 4 (fun cs r es => es.all (slotThere cs r))
    ++ routerTests 5 (fun _ r es => es.zipIdx.all (fun a => es.zipIdx.all (fun b => a.2 == b.2 || !slotClash r a.1 b.1)))
    ++ routerTests 7 rules07 ++ (zPhases g).flatMap phase)

/-- XEND of phase `ph` in one layout, as the loader computes it (R333). -/
def State.xendIn (s : State) (p : Nat) (g : ZsiProg) (y : Lay) (pt : List (Nat × Nat)) (ph : Nat) : Nat :=
  let rs := s.routersFor p g y pt
  let st := s.partStacks p
  (s.streamsOf p g ph).foldl (fun a x =>
    let x' : Stream := { x with d := s.absDesc p x.d }
    max a (s.streamEnd y st x' ((s.drops y st rs ph x').getD []))) 0

/-- The layouts of the molt patches (R341): each L-die of partition `p` moved to its sector's spare, if there is one ready. -/
def State.patchLays (s : State) (p : Nat) : List (Lay × List (Nat × Nat)) :=
  let ready := fun k => ((List.range 12).map (fun i => 12 * k + i)).find? (fun q => (s.hub.anat.site.get {} q).state == 1)
  (s.partDies p).zipIdx.filterMap (fun d => match s.siteOf d.1, ready (d.1 / 10) with
    | some old, some new => some ({ moved := [(d.1, new)], dead := [old] }, s.patchesOf p ++ [(d.2 / 10, d.2 % 10)])
    | _, _ => none)

/-- XEND of phase `ph`: the largest over the panel as it is and every molt state (R333). -/
def State.xendOf (s : State) (p : Nat) (g : ZsiProg) (ph : Nat) : Nat :=
  (s.patchLays p).foldl (fun a l => max a (s.xendIn p g l.1 l.2 ph)) (s.xendIn p g {} (s.patchesOf p) ph)

/-- Checks 0x04 to 0x0A, and 0x0D: the same in every molt state, and XEND covers them. -/
def State.checkStreams (s : State) (p : Nat) (g : ZsiProg) : Option LoadErr :=
  match s.checkLay p g {} (s.patchesOf p) with
  | some e => some e
  | none =>
    match (s.patchLays p).findSome? (fun l => s.checkLay p g l.1 l.2) with
    | some e => some (0xD, e.2)
    | none => firstFail ((zPhases g).map (fun ph => (decide (s.xendOf p g ph ≤ (g.xend.getD ph 0).toNat), (0xD, g.at_ 0xB, ph))))

/-- What a digest takes of a descriptor (R344). -/
def digestKey (d : BitVec 256) : Nat × Nat × Nat := (fld d 88 64, fld d 132 96, if fld d 1 0 = 1 ∨ fld d 1 0 = 3 then fld d 223 160 else fld d 215 160)

/-- Check 0x10: the placements of an image for twins give identical digest input. -/
def twinSame (zs : List Zsi) : Bool :=
  let key := fun (z : Zsi) => (z.base :: z.variants).map (fun g => (g.xdtile ++ g.xdstack).map (fun x => (x.pidx.map (fun w => fld w 31 20), x.descs.map digestKey)))
  match zs with
  | [] => true
  | z :: t => t.all (fun y => key y == key z && (y.base.beats == z.base.beats))

end Sys2Proof.Machine
end

