-- ==== Sys2Proof/Machine/Loader.lean ====
section
/-! DEFINITION. The loader of schedule images: the rest of its checks, and what it writes (R325, R346–R351, R492). -/

namespace Sys2Proof.Machine

/-- The first record of a section that fails a test, as a failure of check `code` in section `sect`. -/
def firstBad {α : Type} (code sect : Nat) (ok : α → Bool) (l : List α) : Option LoadErr :=
  (l.findIdx? (fun x => !ok x)).map (fun i => (code, sect, i))

/-- The relative L-dies of partition `p` that are invalid (R84, R342). -/
def State.invalidDies (s : State) (p : Nat) : List Nat :=
  ((s.partDies p).zipIdx.filter (fun d => !(s.hub.anat.smap.get {} d.1).valid)).map (·.2)

/-- The program that a load puts in force (R492): the base, or the variant whose key is the invalid set. -/
def zPick (z : Zsi) (bad : List Nat) : Option Nat :=
  if bad = [] then some 0
  else match z.variants.findIdx? (fun v => v.key == bad) with
    | some i => some (i + 1)
    | none =>
      if bad.all (fun d => (List.range 16).all (fun i =>
          (z.base.code.getD (zTileEntry z.base (16 * d + i)).1 []).isEmpty)) then some 0 else none

/-- Check 0x02 (R347, R351, R492): an image for the partition's invalid L-dies. -/
def State.check02 (s : State) (p : Nat) (z : Zsi) : Option LoadErr :=
  if (zPick z (s.invalidDies p)).isNone then some (2, z.base.at_ 1, 0) else none

/-- The records that loops repeat: first and last (R348). -/
def loopSpans (beats : List (BitVec 128)) : List (Nat × Nat) :=
  (beats.zipIdx.filter (fun b => bit b.1 58)).map (fun b => (fld b.1 57 48, b.2))

/-- How many loops enclose record `r`. -/
def loopDepth (beats : List (BitVec 128)) (r : Nat) : Nat :=
  ((loopSpans beats).filter (fun l => decide (l.1 ≤ r ∧ r ≤ l.2))).length

/-- Loops run backwards and nest properly (R348). -/
def loopsNest (beats : List (BitVec 128)) : Bool :=
  (loopSpans beats).all (fun a => decide (a.1 ≤ a.2) && (loopSpans beats).all (fun b =>
    decide (a.2 < b.1 ∨ b.2 < a.1 ∨ (a.1 ≤ b.1 ∧ b.2 ≤ a.2) ∨ (b.1 ≤ a.1 ∧ a.2 ≤ b.2))))

/-- Check 0x03: limits. A phase index word counts 2,047 descriptors at most (R327). -/
def check03 (g : ZsiProg) : Option LoadErr :=
  (firstBad 3 (g.at_ 3) (fun (c : List Insn) => decide (c.length ≤ 2048)) g.code).orElse fun _ =>
  (firstBad 3 (g.at_ 2) (fun r => decide (loopDepth g.beats r ≤ 4)) (List.range g.beats.length)).orElse fun _ =>
  (if 1024 < g.beats.length ∨ g.beats = [] ∨ !loopsNest g.beats then some (3, g.at_ 2, g.beats.length) else none).orElse fun _ =>
  (firstBad 3 (g.at_ 5) (fun (d : Nat × Nat × List Byte) => decide (d.2.1 + d.2.2.length ≤ 2 ^ 24)) g.tiledata).orElse fun _ =>
  (firstBad 3 (g.at_ 6) (fun (d : Nat × Nat × List Byte) => decide (d.2.1 + d.2.2.length ≤ 2 ^ 37)) g.stackdata).orElse fun _ =>
  (firstBad 3 (g.at_ 8) (fun (r : ZsiRoute) => decide (r.slots.length ≤ 32768) && decide (r.trees.length ≤ 256)) g.routes)

/-- XEND of a phase as the image gives it. -/
def zXend (g : ZsiProg) (p : Nat) : Nat := (g.xend.getD p 0xFFFFFFFF).toNat

/-- R323 and R338 of beat record `b` at index `r`: `l` is SL_BAR of the step channel, `w` the lead. The beat of wingbeat 0 runs no exchange
(R318); a record 0 that a loop repeats opens other beats too. -/
def beatOk (g : ZsiProg) (l w r : Nat) (b : BitVec 128) : Bool :=
  let run := ceilDiv (fld b 127 96 * 100) 94 + 4
  let x := zXend g (fld b 11 0)
  let nox := bit b 12 || (decide (r = 0) && !(loopSpans g.beats).any (fun q => q.1 == 0))
  (bit b 12 || decide (x ≠ 0xFFFFFFFF))
    && decide ((if nox then run else max run (x + 8)) + l + w ≤ fld b 47 16)
    && (!bit b 13 || (bit b 12 && (decide (r = 0) || (zCkptAt g r).isSome)))

/-- Check 0x0B. A twinned partition adds the reduction latency to L (R344). -/
def State.check0B (s : State) (p : Nat) (g : ZsiProg) : Option LoadErr :=
  let y := (s.node (s.part p).root).sync
  let lat := y.lat.get 0 16
  let l := fld lat 9 0 + (if (s.part p).sch.twinOn then fld lat 20 10 else 0)
  firstBad 0xB (g.at_ 2) (fun (b : BitVec 128 × Nat) => beatOk g l y.lead.toNat b.2 b.1) g.beats.zipIdx

/-- A declaration's ranges (R325, R347): place, offset, length. Space 0 is the declaring tile's own, space 1 the stack of
its own sector, space 2 translated over the partition's stacks by R57 (assumption log 35). -/
def declRanges (snodes : List Nat) (d : BitVec 96) : List (Nat × Nat × Nat) :=
  let off := fld d 63 27
  let len := fld d 95 64
  let rel := fld d 21 10
  match fld d 26 24 with
  | 0 => [(5000 + rel, off, len)]
  | 1 => [(snodes.getD (rel / 160) 0, off, len)]
  | _ => (List.range ((off % 4096 + len + 4095) / 4096)).map (fun i =>
      let a := if i = 0 then off else (off / 4096 + i) * 4096
      let e := min (off + len) ((off / 4096 + i + 1) * 4096)
      ((stripe snodes a).1, (stripe snodes a).2, e - a))

/-- Two ranges of one place overlap. -/
def rangesMeet (a b : Nat × Nat × Nat) : Bool :=
  a.1 == b.1 && decide (a.2.1 < b.2.1 + b.2.2) && decide (b.2.1 < a.2.1 + a.2.2)

/-- Check 0x0C: no compute write of a beat meets an exchange read or write of that beat (R325). -/
def State.check0C (s : State) (p : Nat) (g : ZsiProg) : Option LoadErr :=
  let st := s.partStacks p
  firstBad 0xC (g.at_ 0xD) (fun (d : BitVec 96) => decide (fld d 23 22 ≠ 0) || g.buffers.all (fun e =>
    decide (fld e 23 22 = 0) || decide (fld e 9 0 ≠ fld d 9 0)
      || (declRanges st d).all (fun a => (declRanges st e).all (fun b => !rangesMeet a b)))) g.buffers

/-- A range of stack `k` meets a hole (R270). -/
def State.meetsHole (s : State) (k off len : Nat) : Bool := decide (k < 24) && (s.stack k).holeIn off len

/-- What an image uses of the partition's stacks lies outside the holes of SN_CHAN (R270): its data, its declared ranges and its streams. The
codes are those of the checks that read them (assumption log 34). -/
def State.checkHoles (s : State) (p : Nat) (g : ZsiProg) : Option LoadErr :=
  let st := s.partStacks p
  (firstBad 3 (g.at_ 6) (fun (d : Nat × Nat × List Byte) => !s.meetsHole ((s.partSecs p).getD d.1 0) d.2.1 d.2.2.length) g.stackdata).orElse fun _ =>
  (firstBad 0xC (g.at_ 0xD) (fun (d : BitVec 96) => (declRanges st d).all (fun r => !s.meetsHole r.1 r.2.1 r.2.2)) g.buffers).orElse fun _ =>
  firstBad 9 (g.at_ 0xA) (fun (ph : Nat) => (s.streamsOf p g ph).all (fun x =>
    let d := s.absDesc p x.d
    (decide (x.node < 240) || !s.meetsHole (x.node - 240) (fld d 132 96) (fld d 88 64))
      && (xdSegments d st).all (fun q => match q.1 with | some (.stack k) => !s.meetsHole k q.2.1 q.2.2.2 | _ => true))) (zPhases g)

/-- The instruction at an entry is a STEP with PREG 0 and PNEG 0 (R320). -/
def entryIsStep (code : List Insn) (e : Nat) : Bool :=
  match code[e]? with
  | some w => insnKind w == some .step && decide (fld w 119 116 = 0) && !bit w 115
  | none => false

/-- Check 0x0E: every start entry and resume entry is a STEP. -/
def check0E (g : ZsiProg) : Option LoadErr :=
  (firstBad 0xE (g.at_ 4) (fun i => entryIsStep (g.code.getD (zTileEntry g i).1 []) (zTileEntry g i).2)
    (List.range g.tilemap.length)).orElse fun _ =>
  firstBad 0xE (g.at_ 0xF) (fun (c : W32 × List Nat) =>
    (c.2.zipIdx).all (fun e => entryIsStep (g.code.getD e.2 []) e.1)) g.ckpts

/-- Check 0x0F: scheduled windows lie within the scratchpad and the stack, and no index is used twice. -/
def check0F (g : ZsiProg) : Option LoadErr :=
  firstBad 0xF (g.at_ 7) (fun (w : BitVec 128) =>
    decide (fld w 7 0 < 64) && decide (fld w 39 16 < fld w 63 40) && decide (fld w 63 40 ≤ 2 ^ 18)
      && (!bit w 8 || (decide (fld w 94 64 < fld w 126 96) && decide (fld w 126 96 ≤ 2 ^ 31)))
      && decide ((g.windows.filter (fun v => fld v 7 0 == fld w 7 0)).length = 1)) g.windows

/-- Check 0x11: a variant key is valid and unique. -/
def check11 (z : Zsi) : Option LoadErr :=
  firstBad 0x11 ((z.variants.headD {}).at_ 0xE) (fun (v : ZsiProg) =>
    decide (v.key ≠ []) && decide (v.key.length ≤ 8) && ascending v.key && v.key.all (fun d => decide (d < 10 * z.nsect))
      && decide ((z.variants.filter (fun u => u.key == v.key)).length = 1)) z.variants

/-- The lower code of two failures. -/
def firstOf (a b : Option LoadErr) : Option LoadErr :=
  match a, b with
  | some x, some y => if y.1 < x.1 then some y else some x
  | some x, none => some x
  | none, y => y

/-- The checks of one program. -/
def State.checkProg (s : State) (p : Nat) (g : ZsiProg) : Option LoadErr :=
  [check03 g, s.checkStreams p g, s.check0B p g, s.check0C p g, s.checkHoles p g, check0E g, check0F g].foldl firstOf none

/-- The file as partition `p` would run it: its placement whose sectors are the partition's (check 0x02), with every other placement. For twins
the other partition has one too, and the image is made for them (R343). -/
def State.placeImage (s : State) (p : Nat) (f : List Byte) : Except LoadErr (Zsi × List Zsi) :=
  match readImage f with
  | .error e => .error e
  | .ok zs =>
    match zs.find? (fun z => z.secs == s.partSecs p) with
    | none => .error (2, (zs.headD {}).base.at_ 1, 0)
    | some z =>
      let t := (s.part p).sch
      if t.twinOn && !zs.any (fun y => y.secs == s.partSecs t.twinPart.toNat) then .error (2, z.base.at_ 1, 0)
      else if t.twinOn && !z.twinOk then .error (0x10, 0, 0)
      else .ok (z, zs)

/-- The first check that an image fails for partition `p`: the lowest code, of every program (R351, assumption log 34). -/
def State.loadFault (s : State) (p : Nat) (z : Zsi) (zs : List Zsi) : Option LoadErr :=
  let twin := if z.twinOk && !twinSame zs then some (0x10, z.base.at_ 9, 0) else none
  ((z.base :: z.variants).map (s.checkProg p) ++ [s.check02 p z, twin, check11 z]).foldl firstOf none

/-! ### What a load writes -/

/-- The router tables of partition `p`, as its program, its molt patches and the site map give them (R292, R341, R351). -/
def State.writeRoutes (s : State) (p : Nat) : State :=
  let rs := s.routersFor p (s.part p).prog {} (s.patchesOf p)
  rs.foldl (fun s r => match s.nodeAt r.1 with
    | none => s
    | some n => s.updFab n (fun f => { f with
        slot := Table.putList 0 [] 0 r.2.slots, phIdx := Table.putList 0 [] 0 r.2.phIdx, tree := Table.putList 0 [] 0 r.2.trees }))
    (s.mapNodes (s.partNodes p) (fun x => { x with fab := { x.fab with slot := [], phIdx := [], tree := [] } }))

/-- Bytes that hub firmware writes into a tile's scratchpad. -/
def Tile.place (x : Tile) (off : Nat) (bs : List Byte) : Tile := { x with spm := x.spm.write off bs false }

/-- Data of the program that a load puts in force. -/
def State.writeData (s : State) (p : Nat) : State :=
  let g := (s.part p).prog
  let s1 := g.tiledata.foldl (fun s d => s.mapTiles
    ((s.liveTiles p).filter (fun t => d.1 == 0xFFF || (s.tile t).id.rel.toNat == d.1)) (fun _ x => x.place d.2.1 d.2.2)) s
  g.stackdata.foldl (fun s d => s.updStack ((s.partSecs p).getD d.1 0) (fun x => x.write d.2.1 d.2.2 false s.now s.freeCtr)) s1

/-- Where the phases of an engine's lists put their descriptors: XPI_BASE, and the descriptors from there on. -/
def ZsiXd.runs (x : ZsiXd) : List (Nat × List (BitVec 256)) :=
  ((List.range x.pidx.length).filter (fun ph => bit (x.pidx.getD ph 0) 31)).map (fun ph => (fld (x.pidx.getD ph 0) 19 0, x.descsOf ph))

/-- The exchange lists of tile `t` (R327): the phase index into its engine, the descriptors into its scratchpad. -/
def State.writeTileXd (s : State) (p t : Nat) : State :=
  let x := (s.part p).prog.xdtile.getD (s.tile t).id.rel.toNat ⟨[], []⟩
  x.runs.foldl (fun s r => s.updTile t (fun y => y.place (32 * r.1) (r.2.flatMap (fun d => bytesLE 32 (s.absDesc p d).toNat))))
    (s.updTile t (fun y => { y with xe := { y.xe with pidx := Table.putList 0 [] 0 x.pidx } }))

/-- The exchange lists of a stack node: its descriptors into the store on its base die. -/
def State.writeStackXd (s : State) (p k rank : Nat) : State :=
  let x := (s.part p).prog.xdstack.getD rank ⟨[], []⟩
  s.updStack k (fun y => { y with
    xe := { y.xe with pidx := Table.putList 0 [] 0 x.pidx }
    desc := x.runs.foldl (fun t r => Table.putList 0 t r.1 (r.2.map (fun d => s.absDesc p d &&& xdMask))) [] })

/-- XEND of every phase in a die or stack node (R333, R353). -/
def xendTable (g : ZsiProg) : Table (BitVec 24) := Table.putList 0xFFFFFF [] 0 (g.xend.map (fun e => e.setWidth 24))

/-- Exchange tables of the program: phase indices and descriptors; XEND in every die and stack node. -/
def State.writeExchange (s : State) (p : Nat) : State :=
  let s1 := (s.liveTiles p).foldl (fun s t => s.writeTileXd p t) s
  let s2 := (s.partSecs p).zipIdx.foldl (fun s k => s.writeStackXd p k.1 k.2) s1
  s2.mapNodes (s.partNodes p) (fun n => { n with xend := xendTable (s.part p).prog })

/-- A tree over the dies `l` of a domain grown from those reached: parent edges by die (R310). -/
def State.growTree (s : State) (l : List Nat) (done : List (Nat × Nat)) : Nat → List (Nat × Nat)
  | 0 => done
  | k + 1 =>
    let new := l.filterMap (fun m =>
      if done.any (fun d => d.1 == m) then none
      else (([0, 1, 2, 3].find? (fun e => match s.beside m e with
        | some q => done.any (fun d => d.1 == q)
        | none => false)).map (fun e => (m, e))))
    if new = [] then done else State.growTree s l (done ++ new) k

/-- The way from die-cell `m` to the root of a tree. -/
def State.pathUp (s : State) (tree : List (Nat × Nat)) (m : Nat) : Nat → List Nat
  | 0 => []
  | k + 1 =>
    match tree.find? (fun d => d.1 == m) with
    | none => []
    | some d => m :: (if d.2 = 15 then [] else match s.beside m d.2 with
      | some q => State.pathUp s tree q k
      | none => [])

/-- The tree of a domain: over its members alone where sync links join them, else through further die-cells `all` of the
partition, which relay (R310). -/
def State.domainTree (s : State) (r : Nat) (members all : List Nat) : List (Nat × Nat) :=
  let t := s.growTree members [(r, 15)] members.length
  if members.all (fun m => t.any (fun d => d.1 == m)) then t
  else
    let u := s.growTree all [(r, 15)] all.length
    let used := members.flatMap (fun m => s.pathUp u m all.length)
    u.filter (fun d => used.contains d.1)

/-- The depth of a tree in sync links (R310, R312). -/
def State.treeDepth (s : State) (tree : List (Nat × Nat)) : Nat :=
  tree.foldl (fun a d => max a ((s.pathUp tree d.1 tree.length).length - 1)) 0

/-- ceil(log2 n). -/
def clog2 (n : Nat) : Nat := if n ≤ 1 then 0 else (n - 1).log2 + 1

/-- SYNC_CH_LAT of a domain (R312, R316): what hub firmware computes, within the bounds. -/
def chanLat (d c : Nat) : W32 :=
  BitVec.ofNat 32 (min (16 + 16 * d) (Config.syncLat 0 d c) % 2 ^ 10 + min (16 + 16 * d + 4 * c) (Config.syncLat 1 d c) % 2 ^ 11 * 2 ^ 10
    + min (16 + 16 * d + 8 * c) (Config.syncLat 2 d c) % 2 ^ 11 * 2 ^ 21)

/-- SYNC_WB_LEAD of a tree (R314): its downward latency plus 64 fc. -/
def treeLead (d : Nat) : W16 := BitVec.ofNat 16 (min (16 + 16 * d) (Config.syncLat 3 d 0) + 64)

/-- Channel `ch` configured over the dies of a domain: members, relays, root, parents, latencies (R310, R312, R316). A die that serves another
domain on the channel does not relay. -/
def State.setChannel (s : State) (ch dom : Nat) (members : List (Nat × Nat)) (all : List Nat) : State :=
  match members with
  | [] => s
  | (r, _) :: _ =>
    let tree := s.domainTree r (members.map (·.1)) (all.filter (fun n => members.any (fun m => m.1 == n) || !bit (s.chCfg n ch) 24))
    let depth := s.treeDepth tree
    let lat := chanLat depth (clog2 (members.foldl (fun a m => a + (bitsOf (BitVec.ofNat 16 m.2) 16).length) 0))
    tree.foldl (fun s d =>
      let tiles := ((members.find? (fun m => m.1 == d.1)).map (·.2)).getD 0
      let c : Nat := dom % 256 + tiles * 256 + 2 ^ 24 + b2n (d.1 = r) * 2 ^ 25 + (if d.1 = r then 15 else d.2) * 2 ^ 26
      s.updNode d.1 (fun n => { n with sync := { n.sync with
        cfg := n.sync.cfg.put 0 ch (BitVec.ofNat 30 c), lat := n.sync.lat.put 0 ch lat
        lead := if ch = 16 then treeLead depth else n.sync.lead } })) s

/-- The mask of a die's tiles among tile numbers. -/
def tileMask (d : Nat) (ts : List Nat) : Nat := ((List.range 16).filter (fun i => ts.contains (16 * d + i))).foldl (fun a i => a + 2 ^ i) 0

/-- The die-cells of partition `p` that serve. -/
def State.liveNodes (s : State) (p : Nat) : List Nat :=
  (s.partDies p).filter (fun d => (s.hub.anat.smap.get {} d).valid) ++ (s.partSecs p).map stackNode

/-- The step channel of partition `p`: every tile and every stack node (R310). -/
def State.stepChannel (s : State) (p : Nat) : State :=
  let l := s.liveNodes p
  s.setChannel 16 0xFF (l.map (fun n => (n, if n < 240 then 0xFFFF else 0))) l

/-- The step channel and the program channels of an image (R310, R351); channels of an image before it are gone. -/
def State.writeSync (s : State) (p : Nat) : State :=
  let ts := s.partTiles p
  let s1 := (s.mapNodes (s.partNodes p) (fun n => { n with sync := { n.sync with cfg := [] } })).stepChannel p
  (s.part p).prog.sync.foldl (fun s c =>
    let mem := c.2.map (fun r => ts.getD r 0)
    s.setChannel (fld c.1 3 0) (fld c.1 11 4)
      (((s.partDies p).filter (fun d => decide (tileMask d mem ≠ 0))).map (fun d => (d, tileMask d mem))) (s.liveNodes p)) s1

/-- A twinned partition whose tree is configured anew keeps the pair's lead (R553): the larger of the two trees' own plus the
relay latency. -/
def State.twinLead (s : State) (p : Nat) : State :=
  let x := s.part p
  if !x.sch.twinOn then s
  else
    let o := x.sch.twinPart.toNat
    let l := (s.node x.root).sync.lead
    let v := BitVec.ofNat 16 (max l.toNat ((s.part o).lead0.getD 0).toNat + s.hrd twinLat)
    (((s.updPart p (fun y => { y with lead0 := some l })).updNode x.root (fun n => { n with sync := { n.sync with lead := v } }))).updNode
      (s.part o).root (fun n => { n with sync := { n.sync with lead := v } })

/-- The domains of partition `p` over its dies as they are now, and the root of its step channel, which is its wingbeat
sequencer's (R310, R314, R320). -/
def State.resync (s : State) (p : Nat) : State :=
  let s1 := s.writeSync p
  let root := (s.liveNodes p).headD 0
  (((s1.mapNodes (s.partNodes p) (fun x => { x with wbsRoot := false })).updNode root (fun x => { x with wbsRoot := true })).updPart p
    (fun x => { x with root := root })).twinLead p

/-- The quarters that scheduled windows touch. -/
def windowQuarters (g : ZsiProg) : List Nat := g.windows.flatMap (fun w => quartersOf (64 * fld w 39 16) (64 * (fld w 63 40 - fld w 39 16)))

/-- Those quarters are powered ON and kept so (R349). -/
def Spm.keepOn (x : Spm) (qs : List Nat) : Spm :=
  let y := qs.foldl (fun (x : Spm) q => if x.quarter q = .on then x else x.powerUp q) x
  { y with kept := qs.foldl (fun m q => setBit m q) 0 }

/-- Quarters that the scheduled windows touch are powered in every tile (R349). -/
def State.powerWindows (s : State) (p : Nat) : State :=
  s.mapTiles (s.liveTiles p) (fun _ x => { x with spm := x.spm.keepOn (windowQuarters (s.part p).prog) })

/-- An image has ended: its quarters may go down again (R349). -/
def State.endImage (s : State) (p : Nat) : State := s.mapTiles (s.partTiles p) (fun _ x => { x with spm := { x.spm with kept := 0 } })

/-- A load whose checks have passed (R320, R351). -/
def State.loadImage (s : State) (p : Nat) (z : Zsi) : State :=
  let v := (zPick z (s.invalidDies p)).getD 0
  let s0 := ((s.mbbFreeTiles p).mapTiles (s.partTiles p) (fun _ x => x.reset)).mapNodes (s.partNodes p)
    (fun x => { x with sync := { x.sync with got := [], edges := [] } })
  let s1 := s0.updPart p (fun x => { x with
    img := some z, variant := v, holed := false, ckpt := {}
    wbs := {}, sch := { x.sch with state := .ready, why := 0, beat := 0, committed := 0, slip := 0, lastCause := 0,
                                   loadCode := 0, loadSect := 0, loadRec := 0, ckptId := 0 } })
  let s2 := (((s1.powerWindows p).writeRoutes p).writeData p).writeExchange p
  let s4 := s2.resync p
  let s5 := s4.mapTiles (s.partTiles p) (fun _ x => { x with id := { x.id with seed := z.seed, stepNum := 0 } })
  let s6 := ((s5.openScheduled p).enterCode p 0 true)
  let s7 := s6.updHub (fun h => { h with rot := { h.rot with owner := h.rot.owner.upd {} p (fun o => { o with loads := o.loads + 1, imageHash := z.digest }) } })
  let o := s7.hub.rot.owner.get {} p
  s7.measure 7 p (bytesLE 48 o.imageHash.toNat ++ bytesLE 4 o.loads)

end Sys2Proof.Machine
end

