-- ==== Sys2Proof/Machine/RepairOps.lean ====
section
/-! DEFINITION. Fuses and the records of the MRAMs: identity, bad units, repairs, the soft map (R29, R32, R36, R237, R269, R466,
R515, R589). -/

namespace Sys2Proof.Machine

/-! ### Identity (R32, R36) -/

/-- The neighbour code of a site's edge: a site one or two positions on, the hub or a port die, or 0x3FF (R32, R280). An end
site's inner edge names the farther of its two partners (assumption log 66). -/
def neighbour (p e : Nat) : Nat :=
  match attachments.find? (fun a => a.2.1 == p && a.2.2.1 == e) with
  | some a => if a.1 = 264 then 0x200 else 0x201 + (a.1 - 265)
  | none => match ((torusLinks p).filter (fun l => l.edge == e)).reverse.head? with
    | some l => l.dst
    | none => 0x3FF

/-- The logical slot of a slot in the nominal assignment (R37). -/
def nominalSlot (slot : Nat) : Nat := if slot < 5 then slot else if slot = 5 ∨ slot = 6 then 0xF else slot - 2

/-- An identity record without its CRC, from its fields (R32). -/
def idBits (site role lslot : Nat) (nbr : Nat → Nat) (tag : Nat) : Nat :=
  site + role * 2 ^ 9 + lslot * 2 ^ 12 + nbr 0 * 2 ^ 16 + nbr 1 * 2 ^ 26 + nbr 2 * 2 ^ 36 + nbr 3 * 2 ^ 46 + tag * 2 ^ 64

/-- An identity record with its CRC, which takes bytes 0 to 13 in turn, each from its most significant bit on (R32; DESIGN CHOICE, assumption
log 100: the spec gives the polynomial and the initial value and no order of the bits). -/
def withCrc (v : Nat) : BitVec 128 := BitVec.ofNat 128 (v + crc16 (bytesLE 14 v) * 2 ^ 112)

/-- The identity record of a place as a panel without a fault carries it: P-site, or 288 + k for port die k. -/
def nominalId (k tag : Nat) : BitVec 128 :=
  if k < 288 then
    withCrc (idBits k (if k % 12 = 5 then 3 else if k % 12 = 6 then 2 else 1) (nominalSlot (k % 12)) (neighbour k) tag)
  else withCrc (idBits (0x1F1 + (k - 288)) 5 0xF (fun e => if e < 2 then
    ((attachments.filter (fun a => a.1 == k - 288 + 265)).map (·.2.1)).getD e 0x3FF else 0x3FF) tag)

/-- The identity record in the fuses of a place. -/
def State.idRecord (s : State) (k : Nat) : BitVec 128 := nominalId k s.hub.rot.panelTag.toNat ^^^ s.hub.fuses.id.get 0 k

/-! ### Fuse records (R589) -/

/-- A fuse record of P-site or port code `site`: its kind and unit (assumption log 67). -/
def fuseRec (site kind unit : Nat) : BitVec 64 := BitVec.ofNat 64 (site + kind * 2 ^ 16 + unit * 2 ^ 24)
/-- The unit fields of the fuse records of one kind at one place. -/
def State.fused (s : State) (site kind : Nat) : List Nat :=
  (s.hub.fuses.recs.filter (fun r => decide (fld r 15 0 = site ∧ fld r 23 16 = kind))).map (fun r => fld r 63 24)

/-! ### Records in MRAM -/

/-- A record with the CRC of R237, R269, R466 and R515. -/
def crcRec (v : Nat) : BitVec 64 := BitVec.ofNat 64 (v + crc16 (bytesLE 6 v) * 2 ^ 48)

/-- The CRC of a record holds. -/
def recOk (r : BitVec 64) : Bool := crc16 (bytesLE 6 (fld r 47 0)) == fld r 63 48

/-- A soft-map record (R466). -/
def softRec (kind site unit ldie cause boot : Nat) : BitVec 64 :=
  crcRec (kind + site * 2 ^ 4 + unit * 2 ^ 13 + ldie * 2 ^ 25 + cause * 2 ^ 33 + boot % 4096 * 2 ^ 36)

/-- A soft repair record of a scratchpad (R237): kind 0 a row, 1 a bank's retirement. -/
def spmRec (site tile bank row kind : Nat) : BitVec 64 :=
  crcRec (site + tile * 2 ^ 9 + bank * 2 ^ 14 + row * 2 ^ 18 + kind * 2 ^ 32)

/-- A stack repair record (R269). -/
def stkRec (k q chunk kind : Nat) : BitVec 64 := crcRec (k + q * 2 ^ 5 + chunk * 2 ^ 11 + kind * 2 ^ 34)

/-- A phase record (R515). -/
def phaseRec (site rail phase : Nat) : BitVec 64 := crcRec (site + rail * 2 ^ 9 + phase * 2 ^ 12)

/-- One of the tables of both MRAMs appended to, in each copy that can be written (R466, R610). -/
def State.mramAppend (s : State) (f : Mram → Mram) : State :=
  let g := fun (m : Mram) => if m.readable then f m else m
  s.updHub (fun h => { h with bbx := { h.bbx with hub := g h.bbx.hub, east := g h.bbx.east } })

/-- The records of a table that are in force: the union of the valid records of both copies, the hub copy's first (R466). -/
def unionRecs (a b : List (BitVec 64)) : List (BitVec 64) :=
  let x := a.filter recOk
  x ++ (b.filter recOk).filter (fun r => !x.contains r)

/-- A table of the two MRAMs as read. -/
def State.mramTable (s : State) (f : Mram → List (BitVec 64)) : List (BitVec 64) :=
  let g := fun (m : Mram) => if m.readable then f m else []
  unionRecs (g s.hub.bbx.hub) (g s.hub.bbx.east)

/-! ### Remap tables (R237) -/

/-- A remap table filled by one repair: a row already remapped is ignored; without a usable spare the bank retires. -/
def remapOne (x : Spm) (bank row : Nat) (origin : BitVec 2) : Spm :=
  if (List.range 32).any (fun k => let e := x.rmap.get {} (32 * bank + k); e.valid && e.row.toNat == row) then x
  else match x.nextSpare bank with
    | some k => { x with rmap := x.rmap.put {} (32 * bank + k) ⟨BitVec.ofNat 14 row, true, origin, false⟩ }
    | none => { x with retired := setBit x.retired bank }

/-- The remap tables and retired banks of physical tile `t` of P-site `p`, as bring-up and a wake load them: fused bad spares,
fused repairs, then the soft repair table in record order (R237). A bank that an earlier boot left RETIRE_PENDING is retired now
(R239), and a retired one stays so until a cold reset (R244). Unit of a fused row repair: assumption log 67. -/
def State.remapOf (s : State) (p t : Nat) (x : Spm) : Spm :=
  let x0 : Spm := { x with rmap := [], retired := x.retired ||| x.retirePend, retirePend := 0 }
  let x1 := (s.hub.fuses.badSpare.filter (fun b => b.1 == p && b.2.1 == t)).foldl (fun (x : Spm) b =>
    { x with rmap := x.rmap.upd {} (32 * b.2.2.1 + b.2.2.2 % 32) (fun e => { e with spareBad := true }) }) x0
  let x2 := ((s.fused p 2).filter (fun u => u % 32 == t)).foldl (fun x u => remapOne x (u / 32 % 16) (u / 512 % 16384) 0) x1
  ((s.mramTable (·.spmRep)).filter (fun r => decide (fld r 8 0 = p ∧ fld r 13 9 = t))).foldl (fun x r =>
    if bit r 32 then { x with retired := setBit x.retired (fld r 17 14) } else remapOne x (fld r 17 14) (fld r 31 18) 1) x2

/-- The remap tables of every tile of L-die `n` loaded, the spare tile's among them. -/
def State.loadRemaps (s : State) (n : Nat) : State :=
  match s.siteOf n with
  | none => s
  | some p => ((List.range 16).foldl (fun s l => s.updTile (16 * n + l) (fun x => { x with spm := s.remapOf p (s.physTile p l) x.spm })) s).updNode n
      (fun x => { x with spareSpm := s.remapOf p 16 x.spareSpm })

/-- What instar 7 changes in the scratchpads of L-die `n` (R30, R39): one that has moved to a spare site has that site's, with the tables
loaded; a spare tile that now stands in brings its own; every other keeps what it has, its live repairs too. -/
def State.settleRemaps (s old : State) (n : Nat) : State :=
  match s.siteOf n with
  | none => s
  | some p =>
    if old.siteOf n ≠ some p then
      (((List.range 16).foldl (fun s l => s.updTile (16 * n + l) (fun x => { x with spm := ({} : Spm).powerUp 0 })) s).updNode n
        (fun x => { x with spareSpm := {} })).loadRemaps n
    else (List.range 16).foldl (fun s l =>
      if s.physTile p l = old.physTile p l then s
      else s.updTile (16 * n + l) (fun x => { x with spm := (s.node n).spareSpm.powerUp 0, xe := (s.node n).spareXe })) s

end Sys2Proof.Machine
end

