-- ==== Sys2Proof/Machine/FaultOps.lean ====
section
/-! DEFINITION. The loss of a die, molt, the shrunk partition, the soft map, cocoon (R466, R467, R480, R482–R500). -/

namespace Sys2Proof.Machine

/-- A record appended to both copies that can be written; a full copy raises SOFT_MAP_FULL (R466, R467). -/
def State.softAppend (s : State) (r : BitVec 64) : State :=
  let add := fun (m : Mram) => if m.readable && decide (m.soft.length < 8192) then { m with soft := m.soft ++ [r] } else m
  let full := decide (8192 ≤ s.hub.bbx.hub.soft.length) || decide (8192 ≤ s.hub.bbx.east.soft.length)
  let s1 := s.updHub (fun h => { h with bbx := { h.bbx with hub := add h.bbx.hub, east := add h.bbx.east } })
  let s2 := if full then s1 else s1.inc 264 bootNewSoft
  if full then s2.raiseReason 9 else s2

/-- Spares left (R45). -/
def State.sparesLeft (s : State) : Nat := (s.hub.anat.site.filter (fun kv => kv.2.state == 1)).length

/-- SPARES_LOW (R499). -/
def State.checkSpares (s : State) : State :=
  let l := s.hrd fltSpareLow
  if l ≠ 0 ∧ s.sparesLeft ≤ l then s.raiseReason 2 else s

/-- The spare of sector `k` in SPARE_READY. -/
def State.spareOf (s : State) (k : Nat) : Option Nat :=
  ((List.range 12).map (fun i => 12 * k + i)).find? (fun q => (s.hub.anat.site.get {} q).state == 1)

/-- A die-cell loses its power: what its tiles or its stack held is gone. -/
def State.dieOff (s : State) (n : Nat) : State :=
  let s2 := s.setPower n 0
  if n < 240 then
    (List.range 16).foldl (fun s i => s.updTile (16 * n + i) (fun x => { ({} : Tile) with id := x.id, w := x.w.lost })) (s2.updNode n (fun x => { x with spareSpm := {}, spareXe := {} }))
  else if n < 264 then s2.updStack (n - 240) (fun x => { x with pw := .off, mem := [], dev := [], key := 0 })
  else s2

/-- FP_INVALID of partition `p`. -/
def State.noteInvalid (s : State) (p n : Nat) : State :=
  (s.hwr (fpInvalid p) (s.invalidDies p).length).hwr (fpLastLdie p) n

/-- The tables of the program in force written into the partition's dies (R341, R342): quarters, routers, exchange lists, XEND. -/
def State.enterProgram (s : State) (p : Nat) : State := ((s.powerWindows p).writeRoutes p).writeExchange p

/-- An L-die that molt cannot serve (R491): invalid in the map and in every router, recorded, reported; its partition goes
on in the variant whose key is the invalid set, or halts SHRUNK. -/
def State.shrink (s : State) (n p : Nat) : State :=
  let site := (s.hub.anat.smap.get {} n).psite
  let s1 := s.editAnat (fun a => { a with
    smap := a.smap.upd {} n (fun m => { m with valid := false }), site := a.site.upd {} site (fun i => { i with state := 4, ldie := 0xFF }) })
  let s2 := ((s1.markDown n true).softAppend (softRec 1 site 0xFFF 0xFF 0 s.hub.bbx.bootCount.toNat)).noteInvalid p n
  let s3 := (s2.bb srcFw 0x0202 2 site p 0 []).event 2 (s2.invalidDies p).length p true
  let s4 := (s3.raiseReason 1).reroute
  let bad := s4.invalidDies p
  let x := s4.part p
  match x.sch.state with
  | .running | .replaying | .rollback =>
    (match x.img with
     | none => s4.haltNow p 5
     | some z =>
       match z.variants.findIdx? (fun v => v.key == bad) with
       | none => s4.haltNow p 5
       | some i =>
         let v := z.variants.getD i z.base
         let r := (v.ckpts.find? (fun c => fld c.1 15 0 == x.ckpt.id.toNat)).map (fun c => fld c.1 25 16)
         let s5 := (s4.updPart p (fun x => { x with variant := i + 1, ckpt := { x.ckpt with rec_ := r.getD 0 } })).enterProgram p
         (((((s5.hwr (fpVariant p) 1).hwr (ecVariant p) 1).setSch p .rollback).rerouteLate).resync p).restore p true)
  | _ => s4

/-- Aperture mappings of partition `p` go (R396). -/
def State.unmapPart (s : State) (p : Nat) : State :=
  (pfs ++ s.vfsOf p).foldl (fun s f => s.updFn f (fun x => { x with
    apt := Table.mapListed {} x.apt (fun _ a => if a.part = p then { a with mapped := false } else a) })) s

/-- A molt begins, or a further loss joins it (R486 steps 1–3, R489). -/
def State.moltStart (s : State) (n p : Nat) : State :=
  let m := s.hub.molt.get {} p
  let s1 := s.updHub (fun h => { h with molt := h.molt.put {} p { m with ldies := m.ldies ++ [(n, none)], at_ := s.now } })
  let run := match (s.part p).sch.state with | .running | .replaying | .rollback => true | _ => false
  let s2 := if run then s1.updPart p (fun x => { x with
      sch := { x.sch with state := .rollback }, wbs := { x.wbs with wb := none, cAt := none, replayDue := false } }) else s1
  let s3 := ((s2.unbindKeys p).railsReport p true).abortCmds p (fun c => c.opc == 1)
  ((((s3.unmapPart p).markDown n true).dieOff n).reroute).hwr (fpMolting p) 1

/-- A port die is lost (R495). -/
def State.portLost (s : State) (q : Nat) : State :=
  let s1 := s.updPort q (fun x => { ({} : Port) with ethRole := x.ethRole })
  if q = 0 then s1.raiseReason 8 else s1.raiseReason 6

/-- A slot entry of router `n` uses the link over edge `e` (R290). -/
def State.linkScheduled (s : State) (n e : Nat) : Bool :=
  (s.node n).fab.slot.any (fun kv => bit kv.2 78 && (decide (fld kv.2 42 40 = e) || decide (fld kv.2 51 49 = e) || decide (fld kv.2 51 49 = 7)))

/-- Partition `p` runs. -/
def State.runs (s : State) (p : Nat) : Bool := match (s.part p).sch.state with | .running | .replaying | .rollback => true | _ => false

/-- Partitions other than `own` that run and whose streams pass through site `k` (R493): a router of theirs has entries over a link that joins
or passes the site. -/
def State.stranded (s : State) (k own : Nat) : List Nat :=
  (List.range 24).filter (fun q => q != own && s.runs q && (s.partNodes q).any (fun n => match s.siteOf n with
    | some j => (torusLinks j).any (fun l => (l.dst == k || l.mid == some k) && s.linkScheduled n l.edge)
    | none => false))

/-- They halt with STEP_FAILED: their images have no patch for the site (R493). -/
def State.strand (s : State) (k own : Nat) : State := (s.stranded k own).foldl (fun s q => s.haltNow q 2) s

/-- A die is declared lost, once (R482–R485): causes 1 heartbeat, 2 probe, 3 tile failure, 4 region off, 5 link. -/
def State.declareLost (s : State) (n cause : Nat) : State :=
  if s.hub.lost.contains n then s
  else
    let p := s.partOfNode n
    let s1 := s.updHub (fun h => { h with lost := h.lost ++ [n], probe := h.probe.put 0 n 0 })
    let s2 := ((s1.hwr fltLastPsite (s.siteCode n)).hwr fltLastCause cause).hwr fltLastPart p
    let s3 := if cause = 1 then s2.inc 264 fltHbLost else s2
    let s3 := match s.siteOf n with
      | some k => s3.strand k p
      | none => s3
    if n < 240 then
      (if p < 24 ∧ (s.part p).formed then
        (if (s3.spareOf (nodeSector n)).isSome && !(s3.hub.molt.get {} p).ldies.any (fun l => l.1 / 10 == n / 10) then s3.moltStart n p else (s3.dieOff n).shrink n p)
       else ((s3.dieOff n).editAnat (fun a => { a with
        smap := a.smap.upd {} n (fun m => { m with valid := false })
        site := a.site.upd {} (a.smap.get {} n).psite (fun i => { i with state := 4, ldie := 0xFF }) })).reroute)
    else if n < 264 then ((s3.updStack (n - 240) (fun x => { x with st := 2 })).dieOff n).stackDegraded (n - 240)
    else if n = 264 then s3
    else s3.portLost (n - 265)

/-- The new die of L-die `n` as its wake leaves it (R487, R488): fresh tiles of the same numbers with quarter 0 and the
quarters of the scheduled windows ON, its remap tables loaded; every numbering of its tiles starts again (R81). -/
def State.freshDie (s : State) (n p : Nat) : State :=
  let s1 := (List.range 16).foldl (fun s i => s.updTile (16 * n + i) (fun x => { ({} : Tile) with
    id := x.id, w := x.w.lost,
    spm := (({} : Spm).powerUp 0).keepOn (windowQuarters (s.part p).prog) })) s
  let s2 := (s1.updNode n (fun x => { x with dup := [] })).mapNodes (s.partNodes p ++ [264, 265, 266, 267, 268]) (fun x =>
    { x with dup := x.dup.filter (fun kv => kv.1 / 16 != n) })
  (((s2.loadRemaps n).setPower n 3).freshRegs n).setClocks n

/-- Steps 5 and 6 of a molt for L-die `n` on P-site `site` (R341, R486): the new site map, the patch and the trees from it, and the exchange
lists, which a new die has lost with its scratchpads (assumption log 65). -/
def State.substitute (s : State) (n site p : Nat) : State :=
  let old := (s.hub.anat.smap.get {} n).psite
  let s1 := s.editAnat (fun a => { a with
    smap := a.smap.upd {} n (fun m => { m with psite := site, origin := 2, valid := true })
    site := (a.site.upd {} old (fun i => { i with state := 4, ldie := 0xFF })).upd {} site (fun i => { i with
      state := 0, ldie := BitVec.ofNat 8 n }) })
  let s2 := (s1.softAppend (softRec 4 site 0xFFF n 0 s.hub.bbx.bootCount.toNat)).freshDie n p
  ((((s2.updHub (fun h => { h with lost := h.lost.filter (· != n) })).enterProgram p).markDown n false).reroute)

/-- A molt ends (R486 step 8, R489): the event, the counters, the record. `resumed` tells that its resume wingbeat went. -/
def State.moltEnd (s : State) (p : Nat) (resumed : Bool) : State :=
  let m := s.hub.molt.get {} p
  if m.ldies = [] then s
  else
    let ms := (s.now - m.at_) / 1000000
    let s1 := m.ldies.foldl (fun s l => (((s.hwr (fpLastLdie p) l.1).event 3 l.1 p true).inc 264 fltMolts).bb srcFw 0x0201 1
      (s.siteCode l.1) p 0 (bytesLE 1 l.1)) s
    let s2 := if resumed then s1.hwr fltMoltLastMs ms else s1
    (s2.updHub (fun h => { h with molt := h.molt.put {} p {} })).hwr (fpMolting p) 0

/-- The molt of partition `p` goes on once every lost L-die has its new site (R485, R486 step 7, R489). A partition that was
not running keeps its SCH_STATE. -/
def State.moltReady (s : State) (p : Nat) : State :=
  let m := s.hub.molt.get {} p
  if m.ldies.all (fun l => l.2.isSome) then
    let s := s.resync p
    (match (s.part p).sch.state with
     | .rollback => s.restore p true
     | .ready | .halted => if (s.part p).img.isSome then (s.restore p true).moltEnd p false else (s.partCloseAll p true).moltEnd p false
     | _ => (s.partCloseAll p true).moltEnd p false)
  else s

/-- The panel enters cocoon (R480, R498): `service` tells that it was in service, `hubBad` that the hub caused it. -/
def State.cocoon (s : State) (code : Nat) (service hubBad : Bool) : State :=
  let s1 := (s.hub.cmds).foldl (fun s c => s.endCmd c scAborted (if c.opc = 0x13 ∨ c.opc = 0x14 then bytesLE 4 c.bytes else [])) s
  let s2 := (List.range 24).foldl (fun s p => if (s.part p).formed && decide ((s.part p).sch.state ≠ .empty) then s.haltNow p 1 else s) s1
  let s3 := (List.range 24).foldl (fun s k => s.updStack k (fun x => { x with key := 0 })) s2
  let s4 := [1, 2, 3].foldl (fun s q => ((s.port q).conns.map (·.1)).foldl (fun s c => s.wr (265 + q) (cnState c) 0) s) s3
  let s5 := (((s4.updHub (fun h => { h with rot := { h.rot with sk := [] } })).hwr polSealed 1).hwr bootPhase 3).hwr bootCode code
  let s6 := s5.bb srcFw (if service then 0x0204 else 0x0102) 2 0x1F0 31 code
    (bytesLE 1 (s.hrd bootInstar) ++ bytesLE 4 (s.reg 264 0x2034).toNat)
  let s7 := (List.range 264).foldl (fun s n => s.dieOff n) s6
  let s8 := ([1, 2, 3].foldl (fun s q => s.updPort q (fun x => { x with fast := false, linkUp := false })) s7).updHub (fun h => { h with
    region := Table.mapListed 0 h.region (fun k v => if k < 288 then 0 else if 289 ≤ k ∧ k < 292 then min v 1 else v) })
  let s9 := if service then s8.hwr fltCocoon 1 else s8
  (if hubBad then s9.raiseReason 0xC else s9).emit (.pldmEvent 0x41)

end Sys2Proof.Machine
end

