-- ==== Sys2Proof/Machine/BbxOps.lean ====
section
/-! DEFINITION. The black-box controller writes what it has staged (R610–R613). -/

namespace Sys2Proof.Machine

/-- Records that each region holds (R610). -/
def permMax : Nat := 32768
def wrapMax : Nat := 163840

/-- The copies of the MRAM that can be written (R612). -/
def State.setMramOk (s : State) : State :=
  (s.hwr bbHubOk (b2n s.hub.bbx.hub.readable)).hwr bbEastOk (b2n s.hub.bbx.east.readable)

/-- A record goes into one copy: into the permanent region, or into the wrap region, whose record of number `old` it
overwrites where the region is full. -/
def Mram.record (m : Mram) (r : BbRec) (perm : Bool) (old : Option Nat) : Mram :=
  if !m.readable then m
  else if perm then { m with perm := m.perm ++ [r] }
  else match old with
    | none => { m with wrap := m.wrap ++ [r] }
    | some q => { m with wrap := m.wrap.filter (fun x => x.seq.toNat != q) ++ [r], wrapStart := m.wrapStart + 1 }

/-- The fuller of the two copies' wrap regions: a copy that could not be written lacks records. -/
def Bbx.wrapOf (b : Bbx) : List BbRec := if b.hub.wrap.length < b.east.wrap.length then b.east.wrap else b.hub.wrap

/-- The black box's registers after record `r` was written to a region (R612). -/
def State.noteRecord (s : State) (r : BbRec) (perm tooMany : Bool) : State :=
  let s1 := s.hwr bbSeqNext (s.hrd bbSeqNext + 1)
  let s2 := if perm then s1.inc 264 bbPermCount else s1
  let s3 := if s2.hrd bbPermCount = permMax then s2.hwr bbPermFull 1 else s2
  let s4 := if tooMany then s3.hwr bbWrapped 1 else s3
  let s5 := s4.hwr bbWrapOldest (match s4.hub.bbx.wrapOf with | [] => 0 | x :: _ => x.seq.toNat)
  if r.code = 0x0805 then s5.hwr bbClearSeq r.seq.toNat else s5

/-- The oldest staged record is written to the hub copy, then to the east copy (R612); it stays staged while neither copy can
be written. -/
def State.bbxWrite (s : State) : State :=
  let b := s.hub.bbx
  match b.staged with
  | [] => s
  | x :: rest =>
    if !b.hub.readable && !b.east.readable then s
    else
      let r := { x with seq := BitVec.ofNat 32 (s.hrd bbSeqNext) }
      let perm := decide (r.sev = 2) && decide (s.hrd bbPermCount < permMax)
      let tooMany := !perm && decide (wrapMax ≤ b.wrapOf.length)
      let old := if tooMany then (b.wrapOf.head?).map (fun y => y.seq.toNat) else none
      let s1 := s.updHub (fun h => { h with bbx := { h.bbx with
        staged := rest, hub := h.bbx.hub.record r perm old, east := h.bbx.east.record r perm old } })
      let s2 := s1.noteRecord r perm tooMany
      if b.hub.readable && b.east.readable || !s.hub.score.fwUp then s2 else s2.raiseReason 0xA

/-- Every staged record is written, at most `n` of them (R613). -/
def State.bbxFlush (s : State) : Nat → State
  | 0 => s
  | n + 1 => if s.hub.bbx.staged = [] then s else State.bbxFlush s.bbxWrite n

/-- Power is lost: POWER_LOSS is staged and every staged record written within hold-up (R613). What neither copy takes is lost. -/
def State.powerLoss (s : State) : State :=
  ((s.bb srcBbx 0x0302 2 0xFFFF 31 0 []).bbxFlush 65).updHub (fun h => { h with bbx := { h.bbx with staged := [] } })

/-- BB_RECORD_APPEND (R612): the oldest staged record is written to both copies. -/
def execBbRecordAppend (s : State) : Result := .next s.bbxWrite

end Sys2Proof.Machine
end

