-- ==== Sys2Proof/Machine/WbsOps.lean ====
section
/-! DEFINITION. The wingbeat sequencer and the exchange engines (R317–R345): wingbeats sent and released, combines, replays,
checkpoints, streams. -/

namespace Sys2Proof.Machine

/-- Time moved on to a count of the master's time base. -/
def State.tillTb (s : State) (t : Nat) : State := match s.hub.tb.startAt with | some a => s.till (a + t) | none => s

/-- The partitions whose sequencers act as one with `p`'s (R343, R553). -/
def State.pair (s : State) (p : Nat) : List Nat :=
  let x := (s.part p).sch
  if x.twinOn then (if x.twinPart.toNat < p then [x.twinPart.toNat, p] else [p, x.twinPart.toNat]) else [p]

/-- The partition waits for its first wingbeat and every tile holds at its STEP (R320). -/
def State.firstReady (s : State) (p : Nat) : Bool :=
  let x := s.part p
  x.sch.state == .running && x.wbs.started && x.wbs.wb.isNone && s.allAtStep p

/-- The combine of the beat in progress lets a wingbeat go (R319, R322, R335). -/
def State.nextReady (s : State) (p : Nat) : Bool :=
  let x := s.part p
  (x.sch.state == .running || x.sch.state == .replaying) && x.wbs.cAt.isSome && !x.wbs.closing && x.wbs.wb.isNone

/-- The wingbeat that follows a combine in partition `p`, released at `t` (R320, R322, R335): the replay of the phase, the
closing wingbeat, or that of the next beat. -/
def State.nextWb (s : State) (p t : Nat) (replay : Bool) : Wingbeat :=
  let x := s.part p
  let n := x.wbs.seq % 2 ^ 30
  let b := zBeat x.prog x.wbs.rec_
  if replay then ⟨fld b 11 0, BitVec.ofNat 32 (2 ^ 31 + n), t, x.wbs.rec_, true, false, false, bit b 12 || decide (x.wbs.w = 0)⟩
  else if zLast x.prog x.wbs.loops x.wbs.rec_ then ⟨0, BitVec.ofNat 32 (2 ^ 30 + n), t, x.wbs.rec_, false, true, false, true⟩
  else
    let r := (zNext x.prog x.wbs.loops x.wbs.rec_).1
    let b' := zBeat x.prog r
    ⟨fld b' 11 0, BitVec.ofNat 32 n, t, r, false, false, false, bit b' 12⟩

/-- The grid instants that the combines of the pair cost (R322), and those that pass before a resume as well (R337). -/
def State.grid (s : State) (ps : List Nat) : Nat × Nat × Nat :=
  let m := s.part (ps.headD 0)
  let lead := ps.foldl (fun a q => max a (s.lead q)) 0
  let n0 := m.wbs.tw + fld (zBeat m.prog m.wbs.rec_) 47 16
  let c := ps.foldl (fun a q => max a ((s.part q).wbs.cAt.getD 0)) 0
  let r := ps.foldl (fun a q => max a (s.part q).wbs.resumeAt) 0
  let n := slipCount c n0 m.q lead
  let k := if r = 0 then n else max n (slipCount (r + 1) n0 m.q lead)
  (n, n0 + k * m.q, n0 + k * m.q - lead)

/-- The next wingbeat of a pair goes out (R322, R335, R337, R343): slips count when the next beat's own wingbeat goes. -/
def State.sendNext (s : State) (ps : List Nat) : State :=
  let g := s.grid ps
  let replay := ps.any (fun q => (s.part q).wbs.replayDue)
  ps.foldl (fun s q =>
    let s1 := if replay then s.updPart q (fun x => { x with
        sch := { x.sch with replay := x.sch.replay + 1 }, wbs := { x.wbs with replays := x.wbs.replays + 1, resumeAt := 0 } })
      else s.updPart q (fun x => { x with sch := { x.sch with slip := satAdd x.sch.slip g.1 }, wbs := { x.wbs with replays := 0, resumeAt := 0 } })
    (if replay then s1.railsReport q true else s1).sendWb q (s1.nextWb q g.2.1 replay)) (s.tillTb g.2.2)

/-! ### Release (R186, R319, R335, R338) -/

/-- The flags of a committed step applied (R186). -/
def TileFlags.commit (f : TileFlags) (v : Byte) : TileFlags := { f with last := v, run := f.run ||| v }

/-- A tile leaves the STEP it holds at. -/
def State.leaveStep (s : State) (t : Nat) : State :=
  match (s.tile t).seq.hold with
  | .step true => s.advance t (s.tile t).seq.holdPc
  | _ => s

/-- What the tiles do at the release of wingbeat `v` (R319): the pending flags of step v − 2 are applied, those of step
v − 1 are held, and TILE_STEP_NUM rises from wingbeat 2 on. The closing wingbeat finds both applied at C_N. -/
def State.releaseFlags (s : State) (p v : Nat) (flags : Byte) (closing : Bool) : State :=
  s.mapTiles (s.partTiles p) (fun _ x => { x with
    fl := if closing then x.fl else { (if 2 ≤ v then x.fl.commit x.fl.pend else x.fl) with pend := flags }
    id := if 2 ≤ v then { x.id with stepNum := x.id.stepNum + 1 } else x.id
    kept := none })

/-- The checkpoint of the boundary at record `r` (R338). -/
def State.takeCkpt (s : State) (p r w : Nat) (loops : Table Nat) : State :=
  let g := (s.part p).prog
  let x := s.tile ((s.liveTiles p).headD 0)
  let id := match zCkptAt g r with | some c => c.1 | none => 0
  s.updPart p (fun y => { y with
    ckpt := ⟨id, r, w, loops, x.id.stepNum, x.fl.run, x.fl.last, x.fl.pend⟩, sch := { y.sch with ckptId := id } })

/-- The statuses of an exchange cleared in every die-cell of the partition as a phase starts. -/
def State.clearPhase (s : State) (p : Nat) : State :=
  (s.mapNodes (s.partNodes p) (fun n => { n with
    winRej := false, xeLate := false, fab := { n.fab with exUe := false, exMiss := false } })).mapStacks (s.partSecs p)
    (fun x => { x with lateStep := false })

/-- A released beat is remembered, 1,024 of them (R449). -/
def State.noteBeat (s : State) (p r t : Nat) : State :=
  s.updPart p (fun y =>
    let h := y.wbs.hist ++ [(fld (zBeat y.prog r) 47 16, t, y.sch.slip.toNat)]
    { y with wbs := { y.wbs with hist := h.drop (h.length - 1024) } })

/-- A wingbeat is released (R319, R320, R335, R336). -/
def State.releaseWb (s : State) (p : Nat) (wb : Wingbeat) : State :=
  let x := (s.part p).wbs
  let s0 := (((s.tillTb wb.t).clearPhase p)).railsReport p wb.replay
  if wb.replay then
    (s0.mapTiles (s.partTiles p) (fun _ y => { y with
        arr := y.arr.put none 16 (y.kept.map (fun a => { a with payload := clrBit a.payload 8 })) })).updPart p (fun y => { y with
      sch := { y.sch with state := .replaying }, wbs := { y.wbs with wb := none, rel := wb.t } })
  else if wb.resume then
    let c := (s.part p).ckpt
    let s1 := s0.updPart p (fun y => { y with
      sch := { y.sch with state := .running, beat := y.sch.beat + 1 }
      wbs := { y.wbs with wb := none, w := c.beat, rec_ := c.rec_, loops := c.loops, tw := wb.t, rel := wb.t, started := false } })
    (s.partTiles p).foldl (fun s t => s.leaveStep t) ((s1.noteBeat p c.rec_ wb.t).mapTiles (s.partTiles p) (fun _ y => { y with kept := none }))
  else
    let first := x.started
    let v := if first then 0 else x.w + 1
    let loops := if first ∨ wb.closing then x.loops else (zNext (s.part p).prog x.loops x.rec_).2
    let s1 := if first then s0 else s0.releaseFlags p v x.flags wb.closing
    let s2 := s1.updPart p (fun y => { y with
      sch := { y.sch with state := .running, beat := y.sch.beat + 1 }
      wbs := { y.wbs with wb := none, w := v, rec_ := wb.rec_, loops := loops, tw := wb.t, rel := wb.t, started := false,
                          closing := wb.closing, flags := 0 } })
    let s2 := if wb.closing then s2 else s2.noteBeat p wb.rec_ wb.t
    let s3 := if !wb.closing && (first || bit (zBeat (s.part p).prog wb.rec_) 13) then s2.takeCkpt p wb.rec_ v loops else s2
    (s.partTiles p).foldl (fun s t => s.leaveStep t) s3

/-! ### The combine (R318, R319, R334, R335, R343–R345) -/

/-- The beat in progress is combined when every member has arrived at the root (R318). -/
def State.combineFull (s : State) (p : Nat) : Bool :=
  let x := s.part p
  (x.sch.state == .running || x.sch.state == .replaying) && x.wbs.wb.isNone && x.wbs.cAt.isNone && !x.wbs.closing
    && !x.wbs.started && s.syncFull x.root 16

/-- The combined status word of partition `p`. -/
def State.stepWord (s : State) (p : Nat) : Nat :=
  ((s.node (s.part p).root).sync.got.get [] 16).foldl (fun v a => v ||| a.2.payload.toNat) 0

/-- The partition digest (R344): the sum of every sender's. -/
def State.partDigest (s : State) (p : Nat) : W64 :=
  BitVec.ofNat 64 ((s.partTiles p).foldl (fun a t => a + (s.tile t).xe.digest.toNat) 0
    + (s.partSecs p).foldl (fun a k => a + (s.stack k).xe.digest.toNat) 0)

/-- A partition stops at this combine when a halt is asked for or its steps are used up (R337, R393). The wingbeat is
withheld. -/
def State.haltAtCombine (s : State) (p c : Nat) : State :=
  let x := s.part p
  if x.wbs.haltReq = 0 ∧ x.wbs.steps ≠ some 0 then s
  else
    (s.haltNow p (if x.wbs.haltReq = 0 then 1 else x.wbs.haltReq)).updPart p (fun y => { y with
      wbs := { y.wbs with cAt := some c, withheld := true } })

/-- Three mismatches that rollbacks cleared within 24 h make the panel suspect (R502). -/
def State.twinCleared (s : State) : State :=
  let l := (s.hub.twinMis.filter (fun t => decide (s.now ≤ t + 86400000000000))) ++ [s.now]
  let s1 := s.updHub (fun h => { h with twinMis := l })
  if 3 ≤ l.length then s1.raiseReason 0xD else s1

/-- Step w − 1 commits in partition `p` at the combine (R319). -/
def State.commitStep (s : State) (p c word : Nat) : State :=
  let x := s.part p
  let k := if x.wbs.w = 0 then 0 else 1
  let f : Byte := BitVec.ofNat 8 word
  let s1 := if x.wbs.twinFailBeat = some x.wbs.w then s.twinCleared else s
  let s2 := s1.updPart p (fun y => { y with
    sch := { y.sch with committed := y.sch.committed + BitVec.ofNat 32 k, digest := if y.sch.twinOn then s.partDigest p else y.sch.digest }
    wbs := { y.wbs with cAt := some c, flags := f, replayDue := false
                        fails := if y.wbs.failBeat = y.wbs.w then 0 else y.wbs.fails
                        twinFailBeat := if y.wbs.twinFailBeat = some y.wbs.w then none else y.wbs.twinFailBeat
                        steps := y.wbs.steps.map (fun n => n - k) } })
  let s3 := if zLast x.prog x.wbs.loops x.wbs.rec_ then s2.mapTiles (s.partTiles p) (fun _ t => { t with
      fl := { ((if x.wbs.w = 0 then t.fl else t.fl.commit t.fl.pend).commit f) with pend := 0 } }) else s2
  s3.haltAtCombine p c

/-- The combine of a pair fails for a cause of the WBS's own: the phase is replayed, or rolled back once REPLAY_MAX replays
are used (R335). -/
def State.failReplay (s : State) (ps : List Nat) (c : Nat) : State :=
  if ps.all (fun q => decide ((s.part q).wbs.replays < (s.part q).replayMax)) then
    ps.foldl (fun s q => (s.updPart q (fun y => { y with
      wbs := { y.wbs with cAt := some c, replayDue := true } })).haltAtCombine q c) s
  else ps.foldl (fun s q => s.rollback q) s

/-- The digests of a pair differ (R345, R502): both roll back, or at the same beat again both halt. -/
def State.twinMismatch (s : State) (ps : List Nat) : State :=
  let again := ps.any (fun q => (s.part q).wbs.twinFailBeat == some (s.part q).wbs.w)
  let p := ps.headD 0
  let s1 := ps.foldl (fun s q => s.updPart q (fun y => { y with
    sch := { y.sch with twinMism := y.sch.twinMism + 1 }, wbs := { y.wbs with twinFailBeat := some y.wbs.w } })) s
  let s2 := s1.bb srcFw 0x0205 1 0xFFFF p 0 []
  if again then (ps.foldl (fun s q => s.haltNow q 3) s2).raiseReason 0xD
  else ps.foldl (fun s q => s.rollback q) s2

/-- Combine C_w of a pair completes (R319, R334): the lowest row of R334's table that any word or the digests call for
decides. -/
def State.combine (s : State) (ps : List Nat) : State :=
  let c := s.tb
  let words := ps.map (fun q => (q, s.stepWord q))
  let all := words.foldl (fun a w => a ||| w.2) 0
  let ds := ps.map (fun q => s.partDigest q)
  let differ := decide (2 ≤ ps.length) && decide (ds.head? ≠ ds.getLast?)
  let s0 := ps.foldl (fun s q => s.clearStep q) s
  let s1 := s0.updHub (fun h => { h with rearms := ps.foldl (fun t q => Table.put 0 t q 0) h.rearms })
  let bad := words.any (fun w => decide (fld (BitVec.ofNat 64 w.2) 13 8 ≠ 0))
  let s2 := if bad then words.foldl (fun s w => if fld (BitVec.ofNat 64 w.2) 13 8 = 0 then s else s.updPart w.1 (fun y => { y with
      sch := { y.sch with lastCause := BitVec.ofNat 14 w.2 } })) s1 else s1
  if all.testBit 9 then ps.foldl (fun s q => s.haltNow q 2) s2
  else if differ then s2.twinMismatch ps
  else if all.testBit 8 then ps.foldl (fun s q => s.rollback q) s2
  else if bad then s2.failReplay ps c
  else words.foldl (fun s w => s.commitStep w.1 c w.2) s2

/-! ### Streams (R327–R332, R344) -/

/-- CRC-64 of R344 over bytes, from `c`. -/
def crc64 (c : Nat) (bs : List Byte) : Nat := bs.foldl (crcByte 64 0x42F0E1EBA9EA3693) c

/-- The address that a segment's digest takes (R344): relative L-die in space 0, sector rank in space 1, the tree number in
place of the L-die for a tree. -/
def State.relAddr (s : State) (p : Nat) (t : Option Tgt) (tree off : Nat) : Nat :=
  match t with
  | some (.tile n) => (s.tile n).id.rel.toNat / 16 * 2 ^ 45 + n % 16 * 2 ^ 41 + off
  | some (.stack k) => 2 ^ 53 + ((s.partSecs p).findIdx? (fun q => q == k)).getD 0 * 2 ^ 48 + off
  | some x => (pgaOf x off).toNat
  | none => tree * 2 ^ 45 + off

/-- The digest of a segment added to its sender's (R344). -/
def State.digestSeg (s : State) (p : Nat) (c : W64) (t : Option Tgt) (tree off : Nat) (data : List Byte) : W64 :=
  if (s.part p).sch.twinOn then
    BitVec.ofNat 64 (crc64 c.toNat (bytesLE 8 (s.relAddr p t tree off) ++ bytesLE 2 data.length ++ data))
  else c

/-- The phase that die-cell `n` applies last (R293). -/
def State.phaseSeq (s : State) (n : Nat) : W32 := match (s.node n).fab.runs.head? with | some r => r.seq | none => 0

/-- One scheduled packet leaves die-cell `n` on its descriptor's local channel (R327, R328). -/
def State.schedPacket (s : State) (n : Nat) (src : W16) (tag : W16) (d : BitVec 256) (g : Option Tgt × Nat × Nat × Nat)
    (data : List Byte) (poison : Bool) : State :=
  let seg : Segment := { src := .cell src, node := src, seq := 0, issue := 0, sched := true, op := .put, tag := tag, off := g.2.1, len := 0,
                         data := data, poison := poison, opnd := 0, swap := 0, part := BitVec.ofNat 5 (s.partOfNode n), phase := s.phaseSeq n }
  s.emit (.schedPkt n (fld d 6 2) g.1 (fld d 223 216) seg)

/-- Where in the scratchpad exchange descriptor `j` of phase `ph` lies (R327). -/
def Tile.xdescOff (x : Tile) (ph j : Nat) : Option Nat :=
  let e := x.xe.pidx.get 0 ph
  if bit e 31 && decide (j < fld e 30 20) then some (32 * fld e 19 0 + 32 * j) else none

/-- The exchange descriptor at offset `o`, as the decoder delivers it (R233, R327). -/
def Tile.xdesc (x : Tile) (o : Nat) : BitVec 256 := BitVec.ofNat 256 (ofLE (x.spm.read o 32).2.1)

/-- The exchange engine of tile `t` reads the descriptor at offset `o` through TDMA-out (R219, R233, R241). One that is delivered poisoned
is used as it is stored, and sets SPM_POISON_STEP (DEDUCED, assumption log 99). -/
def State.descRead (s : State) (t o : Nat) : State :=
  match (s.tile t).spm.refused o 32 with
  | some f => s.bankFault t f 3 0
  | none => s.updTile t (fun x => { x with spm := (x.spm.readUse o 32).1 })

/-- Exchange descriptor `j` of stack `k` in phase `ph`. -/
def Stack.xdesc (x : Stack) (ph j : Nat) : Option (BitVec 256) :=
  let e := x.xe.pidx.get 0 ph
  if bit e 31 && decide (j < fld e 30 20) then some (x.desc.get 0 (fld e 19 0 + j)) else none

/-- The first refused access of a tile's stream of descriptor `d` raises exception 0x7 (R241). The engine reads through TDMA-out (R219), so
SPM_FAULT names unit 3; no instruction reads, and SEQ_EXC_PC is 0 (DESIGN CHOICE, assumption log 99). -/
def State.streamGuard (s : State) (t : Nat) (d : BitVec 256) (gs : List (Option Tgt × Nat × Nat × Nat)) : State :=
  match (s.tile t).spm.refusedAny (gs.map (fun g => (fld d 119 96 + g.2.2.1, g.2.2.2))) with
  | some f => s.bankFault t f 3 0
  | none => s

/-- A tile's stream (R328, R329, R331); `late` numbers the packets with a flit that is not ready at its slot, which go poisoned. Bytes of a
bank that is off are never ready, and raise the bank fault (R241). -/
def State.tileStream (s : State) (t : Nat) (d : BitVec 256) (late : List Nat) (replay : Bool) : State :=
  let x := s.tile t
  let p := x.id.part.toNat
  let tag := x.xe.tag.get 0 (fld d 23 16)
  let off := fun (g : Option Tgt × Nat × Nat × Nat) => (x.spm.refused (fld d 119 96 + g.2.2.1) g.2.2.2).isSome
  let gs := (xdSegments d (s.partStacks p)).zipIdx
  let bad := fun (g : (Option Tgt × Nat × Nat × Nat) × Nat) => late.contains g.2 || off g.1
  let s1 := if gs.any bad then s.updNode (tileDie t) (fun n => { n with xeLate := true }) else s
  let s0 := s1.streamGuard t d (gs.map (·.1))
  gs.foldl (fun s g =>
    let y := s.tile t
    let r := y.spm.readUse (fld d 119 96 + g.1.2.2.1) g.1.2.2.2
    let dg := s.digestSeg p y.xe.digest g.1.1 (fld d 223 216) g.1.2.1 r.2.1
    let s1 := (s.setTile t { y with spm := r.1, xe := { y.xe with digest := dg } }).schedPacket (tileDie t) (tileCell t) tag d g.1 r.2.1 (r.2.2 || bad g)
    if bit d 7 && !replay then s1.tileBump t (fld d 13 9) (if bit d 8 then 1 else g.1.2.2.2) else s1)
    (s0.updTile t (fun x => { x with xe := { x.xe with sent := x.xe.sent + 1 } }))

/-- The poison of the bursts that bytes `pos` to `pos + len - 1` of a read at `off` touch. -/
def marksOf (m : List Bool) (off pos len : Nat) : Bool :=
  ((m.drop ((off + pos) / 64 - off / 64)).take (burstCount (off + pos) len)).any id

/-- A stack's stream (R328, R332): the released data, or poison in the slots of a packet whose data is not ready. -/
def State.stackStream (s : State) (k j : Nat) (d : BitVec 256) (late : List Nat) : State :=
  let x := s.stack k
  let p := s.partOfSector k
  let tag := x.xe.tag.get 0 (fld d 23 16)
  let r := x.ready.get ([], []) j
  let gs := (xdSegments d (s.partStacks p)).zipIdx
  let bad := fun (g : (Option Tgt × Nat × Nat × Nat) × Nat) => late.contains g.2 || decide (r.1.length < g.1.2.2.1 + g.1.2.2.2)
  let s0 := if gs.any bad then s.updStack k (fun x => { x with lateStep := true, lateCnt := satInc x.lateCnt }) else s
  gs.foldl (fun s g =>
    let y := s.stack k
    let bs := ((r.1.drop g.1.2.2.1).take g.1.2.2.2)
    let data := bs ++ List.replicate (g.1.2.2.2 - bs.length) 0
    let dg := s.digestSeg p y.xe.digest g.1.1 (fld d 223 216) g.1.2.1 data
    (s.setStack k { y with xe := { y.xe with digest := dg } }).schedPacket (stackNode k) (nodeCell (stackNode k)) tag d g.1 data
      (marksOf r.2 (fld d 132 96) g.1.2.2.1 g.1.2.2.2 || bad g))
    (s0.updStack k (fun x => { x with xe := { x.xe with sent := x.xe.sent + 1 } }))

/-- The die-cell's report on its exchange phase (R318): bits 9–13 of the status word. -/
def State.xReport (s : State) (n : Nat) : Nat :=
  let x := s.node n
  let late := decide (240 ≤ n) && (s.stack (n - 240)).lateStep
  b2n x.winRej * 512 + b2n x.fab.exUe * 1024 + b2n x.fab.exMiss * 2048 + b2n late * 4096 + b2n x.xeLate * 8192

end Sys2Proof.Machine
end

