-- ==== Sys2Proof/Machine/FaultInsn.lean ====
section
/-! DEFINITION. Losses and their detection (R303, R483–R493), and what hub firmware does with a control message (R213, R239,
R308, R334). -/

namespace Sys2Proof.Machine

/-! ### Links (R303, R490) -/

/-- The die declared lost for a FAILED link between `n` and `m` (R490): a compute die of the partition whose sector has a
spare, the one of the higher P-site of two, else the compute die's end. -/
def State.linkLoser (s : State) (p n m : Nat) : Option Nat :=
  let ok := fun d => decide (d < 240) && s.partOfNode d == p && (s.spareOf (nodeSector d)).isSome
  match [n, m].filter ok with
  | [a, b] => some (if s.siteCode a < s.siteCode b then b else a)
  | [a] => some a
  | _ => [n, m].find? (fun d => decide (d < 240) && s.partOfNode d == p)

/-- A stack node whose four edges have all failed is lost (R271). -/
def State.loseEdgeless (s : State) (ns : List Nat) : State :=
  ns.foldl (fun s n => if 240 ≤ n ∧ n < 264 ∧ (List.range 4).all (fun e => decide (((s.node n).fab.link.get {} e).st = 4)) then s.declareLost n 5 else s) s

/-- A link is marked FAILED (R303): hub firmware declares a die lost where a running partition's schedule uses it (R490), and
recomputes the routes otherwise (R482). -/
def State.linkFailed (s : State) (n e : Nat) : State :=
  let ends := s.linkedTo n e
  let s2 := ends.foldl (fun s x => s.markEnd x.1 x.2) (s.markEnd n e)
  let p := s.partOfNode n
  let run := decide (p < 24) && s.runs p
  (if run && s.linkScheduled n e then
    (match s.linkLoser p n ((ends.map (·.1)).headD 264) with
     | some d => s2.declareLost d 5
     | none => s2)
   else s2.reroute).loseEdgeless (n :: ends.map (·.1))

/-- An uncorrectable flit on an edge (R303): more than 16 within 1 ms fail the link. -/
def State.linkUe (s : State) (n e : Nat) : State :=
  if 4 ≤ e then s
  else
    let l := (s.node n).fab.link.get {} e
    let ts := (l.ues.filter (fun t => decide (s.now < t + 1000000))) ++ [s.now]
    let s1 := s.updFab n (fun f => { f with link := f.link.put {} e { l with ues := ts } })
    if 16 < ts.length ∧ l.st ≠ 4 then s1.linkFailed n e else s1

/-! ### Packets at a router (R283–R288, R295, R296) -/

/-- The local channels over which die-cell `n` delivers a packet (R283, R284): the two of the target's tile, or any of an SNC, hub or port die. -/
def State.localChans (s : State) (n : Nat) (h : BitVec 256) : List Nat :=
  let tile := fld h 151 149 = 0 ∨ fld h 151 149 = 3
  match s.siteOf n with
  | some p => if n < 240 ∧ tile then [0, 1].map (fun c => 2 * s.physTile p (fld h 140 137) + c) else List.range (localChannels n)
  | none => List.range (localChannels n)

/-- The lowest free channel of every output for a packet (R288): N, E, S, W, local. -/
def State.freeList (s : State) (n fc : Nat) (h : BitVec 256) : List (Option Nat) :=
  let f := (s.node n).fab
  let k := flitsOf (fld h 24 16)
  (List.range 4).map (fun p => (List.range 24).find? (fun c => f.free n p c fc k))
    ++ [(s.localChans n h).find? (fun c => f.free n 4 c fc k)]

/-- A packet leaves on an output, which it occupies for its flits; a deflection ages it (R287, R296). -/
def State.hopHead (s : State) (n fc : Nat) (h : PktHead) (r : Nat × Nat × Bool) : State :=
  let a := fld h.hdr 13 7
  let age := if r.2.2 then min 127 (a + 1) else a
  let s1 := s.updFab n (fun f => { f with
    busy := f.busy.put 0 (64 * r.1 + r.2.1) (fc + flitsOf (fld h.hdr 24 16))
    defl := if r.2.2 then satInc f.defl else f.defl, stale := if a < 64 ∧ 64 ≤ age then satInc f.stale else f.stale })
  s1.emit (.hop n r.1 r.2.1 (setFld h.hdr 13 7 age) (h.devs.any (fun d => decodeBurst d == .poisoned)))

/-- What becomes of a head before it asks for an output (R285, R286, R295, R303): none where the packet goes no further. Corrections are
counted; a packet with a flit that cannot be corrected, or over a link that is not in service, is dropped; so is one of a reserved type; one
whose destination is down is answered at its first router and dropped at a later one. -/
def State.meetHead (s : State) (n : Nat) (h : PktHead) : State × Bool :=
  let e := (s.node n).fab.route.get 0 (fld h.hdr 63 48)
  let fixed := (h.devs.filter (fun d => match decodeBurst d with | .fixed _ _ => true | _ => false)).length
  let bad := (h.devs.filter (fun d => decodeBurst d == .bad)).length
  let s1 := if fixed = 0 then s else s.updFab n (fun f => { f with ce := satAdd f.ce fixed })
  if bad ≠ 0 ∨ h.inPort < 4 ∧ !(s.node n).fab.present n h.inPort h.inCh then
    ((List.range bad).foldl (fun s _ => s.linkUe n h.inPort) (s1.updFab n (fun f => { f with drop := satInc f.drop })), false)
  else if fld h.hdr 3 0 = 0 ∨ 8 < fld h.hdr 3 0 then (s1.updFab n (fun f => { f with bad := satInc f.bad }), false)
  else if bit e 6 || !bit e 7 then
    (if h.inPort = 4 then s1.emit (.answer (BitVec.ofNat 16 (fld h.hdr 47 32)) (BitVec.ofNat 16 (fld h.hdr 95 80)) ⟨rcTargetDown, [], false, 0⟩)
     else s1.updFab n (fun f => { f with tdown := satInc f.tdown }), false)
  else (s1, true)

/-- A head from an edge takes its output (R288, R296). A router that keeps the balance rule of R289 has one; the model loses a packet that
finds none (log 97). -/
def State.headIn (s : State) (n fc : Nat) (h : PktHead) : State :=
  let r := s.meetHead n h
  if !r.2 then r.1
  else match routeHead ((r.1.node n).fab.route.get 0 (fld h.hdr 63 48)) (r.1.freeList n fc h.hdr) with
    | some o => r.1.hopHead n fc h o
    | none => r.1

/-- A head of a local source enters when its first output has a free channel, and else waits in its die (R288). -/
def State.headInject (s : State) (n fc : Nat) (h : PktHead) : State :=
  let r := s.meetHead n h
  let pri := fld ((r.1.node n).fab.route.get 0 (fld h.hdr 63 48)) 2 0
  if !r.2 then r.1
  else match ((r.1.freeList n fc h.hdr)[pri]?).join with
    | some c => r.1.hopHead n fc h (pri, c, false)
    | none => r.1.updFab n (fun f => { f with inject := f.inject ++ [h] })

/-- The order of the heads of one fc (R288): stale before others, higher age first, then the lower port and channel. -/
def PktHead.rank (h : PktHead) : Nat := (((if 64 ≤ fld h.hdr 13 7 then 0 else 1) * 128 + (127 - fld h.hdr 13 7)) * 8 + h.inPort) * 64 + h.inCh

/-- ROUTER_HEAD_ARRIVAL (R285–R288, R295, R296, R303): the heads that reach router `n` in fc `fc` of the time base take their outputs in
R288's order; then its local sources, those that wait first. -/
def execRouterHeadArrival (n : NodeNo) (fc : Nat) (hs : List PktHead) (s : State) : Result :=
  let edges := sortBy PktHead.rank (hs.filter (fun h => decide (h.inPort < 4)))
  let locals := (s.node n.val).fab.inject ++ hs.filter (fun h => decide (4 ≤ h.inPort))
  .next (locals.foldl (fun s h => s.headInject n.val fc h)
    ((edges.foldl (fun s h => s.headIn n.val fc h) s).updFab n.val (fun f => { f with inject := [] })))

/-- SCHEDULED_FLIT_ARRIVAL (R285, R291, R303): the flit of fc `fc` of the time base leaves on the outputs of the entry that covers it,
poisoned where it came poisoned, could not be corrected or came over a link that is not in service, or is dropped as SCHED_MISS. An output
whose channel is absent carries nothing. -/
def execScheduledFlitArrival (n : NodeNo) (fc : Nat) (inPort inCh : Nat) (dev : BitVec 24) (s : State) : Result :=
  let f := (s.node n.val).fab
  let d := decodeBurst dev
  let cut := decide (inPort < 4) && !f.present n.val inPort inCh
  let s1 := match d with | .fixed _ _ => s.updFab n.val (fun f => { f with ce := satInc f.ce }) | _ => s
  let s2 := if d == .bad then s1.linkUe n.val inPort else s1
  .next (match f.entryFor fc inPort inCh with
    | none => s2.updFab n.val (fun f => { f with miss := satInc f.miss, exMiss := true })
    | some e =>
      let s3 := if d == .bad || cut then s2.updFab n.val (fun f => { f with exUe := true }) else s2
      ((f.entryOutputs e).filter (fun o => f.present n.val o.1 o.2)).foldl (fun s o =>
        s.emit (.flit n.val o.1 o.2 (d == .bad || d == .poisoned || cut))) s3)

/-! ### Messages to hub firmware -/

/-- What hub firmware does at once with a message of die-cell `n`: an exception rolls the partition back with its twin
(R213, R334), a tile failure loses the die (R239, R482); a repair waits for its record (R238). -/
def State.onMsg (s : State) (n : Nat) (m : CtlMsg) : State :=
  match m with
  | .exception t _ _ _ =>
    let p := (s.tile t).id.part.toNat
    (match (if p < 24 then (s.part p).sch.state else .empty) with
     | .running | .replaying | .rollback =>
       if (s.hub.molt.get {} p).ldies = [] then (s.pair p).foldl (fun s q => s.rollback q) s else s
     | _ => s)
  | .tileFailure t => s.declareLost (tileDie t) 3
  | .stackHot _ _ => s
  | _ => { s with hub := { s.hub with inbox := s.hub.inbox ++ [⟨n, .msg m⟩] } }

/-- CTL_MSG (R213, R238, R239, R306–R308, R334): the next message of die-cell `n` reaches hub firmware. -/
def execCtlMsg (n : NodeNo) (errs : List (Fin 13 × Fin 4)) (s : State) : Result :=
  .next (s.ctlArrive n.val errs (fun c => match c.body with | .msg _ => true | _ => false)
    (fun s c => match c.body with | .msg m => s.onMsg n.val m | _ => s))

/-! ### Losses -/

/-- The die-cells that hub firmware times: compute dies, stack nodes and port dies that are powered (R483). -/
def State.timed (s : State) (n : Nat) : Bool := decide (n ≠ 264) && decide (s.power n ≠ 0) && !s.hub.lost.contains n

/-- HEARTBEAT_TIMEOUT (R482, R483): the timer of die-cell `n` reaches FLT_HB_MISS × CTL_HB_PERIOD. -/
def execHeartbeatTimeout (n : NodeNo) (s : State) : Result :=
  .next (if !s.timed n.val then s
    else (s.till (s.hub.hb.get 0 n.val + s.hrd fltHbMiss * (s.node n.val).ctl.hb.toNat * 1000)).declareLost n.val 1)

/-- PROBE_TIMEOUT (R484): a probed die-cell has not answered within 1 ms. -/
def execProbeTimeout (n : NodeNo) (s : State) : Result :=
  .next (match s.hub.probe.get 0 n.val with
    | 0 => s
    | t + 1 => ((s.till (t + 1000000)).updHub (fun h => { h with probe := h.probe.put 0 n.val 0 })).declareLost n.val 2)

/-- The wake of the spare on P-site `site` failed (R487, R489, R518): DIE_BAD with the cause, and L-die `n` of partition `p`,
which waited for it, is handled without it. -/
def State.wakeFailed (s : State) (site n p cause : Nat) : State :=
  let m := s.hub.molt.get {} p
  let s1 := (s.editAnat (fun a => { a with site := a.site.upd {} site (fun x => { x with state := 4 }) })).softAppend
    (softRec 1 site 0xFFF 0xFF cause s.hub.bbx.bootCount.toNat)
  let rest := m.ldies.filter (fun x => x.1 != n)
  let s2 := (s1.updHub (fun h => { h with molt := h.molt.put {} p { m with ldies := rest } })).checkSpares
  let s3 := if rest = [] then s2.hwr (fpMolting p) 0 else s2
  let s4 := s3.shrink n p
  if rest = [] then s4 else s4.moltReady p

/-- The L-die that waits for the spare of sector `k` (R486). -/
def State.waitsSpare (s : State) (k : Nat) : Option Nat :=
  ((s.hub.molt.get {} (s.partOfSector k)).ldies.find? (fun l => l.1 / 10 == k && l.2.isNone)).map (·.1)

end Sys2Proof.Machine
end

