-- ==== Sys2Proof/Machine/MxaRun.lean ====
section
/-! DEFINITION. The head of the matrix array's queue (R134, R139, R149, R152, R153). -/

namespace Sys2Proof.Machine

/-- The checks made at the head of the queue against the recorded bank types (R134, R153). -/
def Mxa.headIllegal (m : Mxa) (w : Insn) : Bool :=
  match insnKind w with
  | some .mma =>
    let b := m.bank (bit w 103)
    match mmaMode w with
    | some (_, _, md) => decide (fld w 102 101 = 0) && (match b.ty with | none => false | some i => i != md.isInt)
    | none => true
  | some .mdrain =>
    let b := m.bank (bit w 104)
    let d := Fmt.ofCode (fld w 111 108)
    let int := b.ty == some true
    let toInt := d == some .int8 || d == some .int32
    if bit w 103 then (if int && !b.t2i then d != some .int32 else d != some .fp32)
    else int && b.t2i && toInt
  | _ => false

/-- A zero-length instruction, which does nothing and leaves the head (R139). -/
def zeroLength (k : InsnKind) (w : Insn) : Bool :=
  match k with
  | .mma => decide (fld w 58 48 = 0) && decide (fld w 102 101 = 0)
  | .rbload => decide (fld w 76 70 = 0) || (decide (fld w 86 77 = 0) && decide (fld w 92 87 = 0))
  | _ => false

/-- The positions POSGEN makes (R152). -/
def posgenValues (w : Insn) : List Nat :=
  (List.range 64).map (fun i => intMod 24 (Int.ofNat (fld w 87 64) + Int.ofNat i * signedOf 8 (fld w 95 88)))

/-- MXSET (R152). -/
def Mxa.mxset (m : Mxa) (w : Insn) : Mxa :=
  if fld w 4 0 < 16 then { m with mask := m.mask.put 0xFFFFFFFF (fld w 4 0) (BitVec.ofNat 32 (fld w 95 64)) }
  else { m with pwin := BitVec.ofNat 24 (fld w 95 64) }

/-- The head left the queue. -/
def Mxa.pop (m : Mxa) : Mxa := { m with q := m.q.tail }

/-- The instructions at the head that wait for nothing run and leave it: POSLD, POSGEN, MXSET, a ready MFENCE and
zero-length ones; a head that breaks a bank's type raises ILLEGAL_INSN. -/
def State.mxaHead (s : State) (t : Nat) : Nat → State
  | 0 => s
  | n + 1 =>
    let x := s.tile t
    match x.mxa.q with
    | [] => s
    | i :: _ =>
      if x.mxa.headIllegal i.w then s.raise t exIllegal 1 i.pc.toNat
      else match insnKind i.w with
        | none => s
        | some k =>
          match k with
          | .posld =>
            (match x.spm.refused (fld i.w 23 0) 256 with
             | some f => s.bankFault t f 1 i.pc.toNat
             | none =>
               let r := x.spm.readUse (fld i.w 23 0) 256
               let vs := (List.range 64).map (fun j => ofLE ((r.2.1.drop (4 * j)).take 3))
               State.mxaHead (s.setTile t { x with spm := r.1, mxa := x.mxa.pop.setPos (bit i.w 96) vs }) t n)
          | .posgen => State.mxaHead (s.setTile t { x with mxa := x.mxa.pop.setPos (bit i.w 96) (posgenValues i.w) }) t n
          | .mxset => State.mxaHead (s.setTile t { x with mxa := x.mxa.pop.mxset i.w }) t n
          | .mfence => if x.mxa.drains.isEmpty then State.mxaHead (s.setTile t { x with mxa := x.mxa.pop }) t n else s
          | k => if zeroLength k i.w then State.mxaHead (s.setTile t { x with mxa := x.mxa.pop }) t n else s

/-- The head runs as far as it can. -/
def State.mxaSettle (s : State) (t : Nat) : State := s.mxaHead t ((s.tile t).mxa.q.length)

/-- A list of ranges of which a byte is refused raises the bank fault; otherwise `f`. -/
def State.guardRanges (s : State) (t unit pc : Nat) (rs : List (Nat × Nat)) (f : State → State) : State :=
  match (s.tile t).spm.refusedAny rs with
  | some x => s.bankFault t x unit pc
  | none => f s

end Sys2Proof.Machine
end

