-- ==== Sys2Proof/Machine/TdmaOps.lean ====
section
/-! DEFINITION. The tile DMA: targets, segmentation, sending, answers, failures, retransmission (R47–R51, R69, R81, R82,
R208–R211); and the STEP arrival (R207, R318). -/

namespace Sys2Proof.Machine

/-- STEP's report (R207, R236, R318): the flags of the compute phase and SPM_POISON_STEP, both cleared. -/
def State.stepArrive (s : State) (t : Nat) : State :=
  let x := s.tile t
  let a : Arrival := ⟨.step, false, false, false, BitVec.ofNat 64 (x.fl.sflags.toNat + 256 * b2n x.spm.poisonStep)⟩
  s.setTile t { x with
    fl := { x.fl with sflags := 0 }, spm := { x.spm with poisonStep := false },
    arr := x.arr.put none 16 (some a), kept := some a, seq := { x.seq with hold := .step true } }

/-! ### Issue -/

/-- TTGT (R208). -/
def doTtgt (t : Nat) (w : Insn) (pc : Nat) (s : State) : State :=
  (s.updTile t (fun x => { x with tdma := { x.tdma with
    t := x.tdma.t.put {} (fld w 111 108) ⟨BitVec.ofNat 56 (fld w 55 0), BitVec.ofNat 16 (fld w 79 64)⟩ } })).advance t pc

/-- The operation a TDMA word names, through its target register as it stands at issue (R208, R209). -/
def tdmaOp (x : Tile) (op : SegOp) (w : Insn) (pc : Nat) : TdmaOp :=
  let r := x.tdma.t.get {} (fld w 111 108)
  { op := op, pc := BitVec.ofNat 11 pc, base := r.base, toff := fld w 63 24, tag := r.tag, laddr := fld w 23 0,
    len := if opAtomic op then (if bit w 100 then 8 else 4) else fld w 88 64,
    scnt := fld w 107 103, smode := bit w 102, scnten := bit w 101 }

/-- A remote operation enters the TDMA queue. -/
def doRemote (op : SegOp) (t : Nat) (w : Insn) (pc : Nat) (s : State) : State :=
  (s.updTile t (fun x => { x with tdma := { x.tdma with q := x.tdma.q ++ [tdmaOp x op w pc] } })).advance t pc

/-! ### Sending -/

/-- The PGA an operation aims at (R208). -/
def TdmaOp.pga (o : TdmaOp) : Pga := o.base + BitVec.ofNat 56 o.toff

/-- The local range of an operation (R210). -/
def TdmaOp.local_ (o : TdmaOp) : Nat × Nat := if opAtomic o.op then (o.laddr, 24) else (o.laddr, o.len)

/-- An operation fails (R69, R211): TDMA_ERR keeps the first failure, and the source counter's error bit is set. -/
def Tile.tdmaFail (x : Tile) (o : TdmaOp) (code : BitVec 4) : Tile :=
  let err : TdmaErr := if x.tdma.err.v then x.tdma.err else ⟨true, code, o.tag, o.pc, o.pga⟩
  { x with tdma := { x.tdma with err := err }, w := if o.scnten then x.w.setErr o.scnt else x.w }

/-- The issuer's side of R301: the oldest unanswered number to node `n` is not 4,095 behind the next. -/
def Tdma.maySend (d : Tdma) (n : Nat) : Bool :=
  let next := d.seqNext.get 0 n
  d.out.all (fun o => o.sent.all (fun g => g.node != n || decide ((next - g.seq).toNat < 4095)))

/-- The request of a segment of the operation in slot `slot` (R286): its bytes are read now (R210). -/
def Tile.request (x : Tile) (t now slot : Nat) (o : TdmaOp) (g : TdmaSeg) : Spm × Segment :=
  let r := match o.op with
    | .put => x.spm.readUse (o.laddr + g.pos) g.len
    | .get => (x.spm, [], false)
    | _ => x.spm.readUse o.laddr 16
  let low := fun k => BitVec.ofNat 64 (ofLE ((r.2.1.drop k).take o.len))
  (r.1, { src := .cell (tileCell t), node := tileCell t, seq := g.seq, issue := now, sched := false, op := o.op, tag := o.tag,
          off := g.off, len := if o.op = .put then 0 else g.len, data := if o.op = .put then r.2.1 else [],
          poison := r.2.2,
          opnd := if opAtomic o.op then low 0 else 0, swap := if o.op = .cswap then low 8 else 0, opid := BitVec.ofNat 6 slot, part := x.id.part })

/-- The route table of the tile's own die marks node `n` down or invalid (R295). -/
def State.targetDown (s : State) (t n : Nat) : Bool :=
  let e := (s.node (tileDie t)).fab.route.get 0 n
  bit e 6 || !bit e 7

/-- Segments not yet sent go out while R301 allows: the operation at place `i` of the outstanding list. `fuel` bounds them. -/
def State.pumpOne (s : State) (t i : Nat) : Nat → State
  | 0 => s
  | n + 1 =>
    let x := s.tile t
    match x.tdma.out[i]? with
    | none => s
    | some o =>
      match o.unsent with
      | [] => s
      | (tg, off, pos, len) :: rest =>
        let nd := tgtNode tg
        if !x.tdma.maySend nd then s
        else if s.targetDown t nd then
          let x1 := x.tdmaFail o.op rcTargetDown
          State.pumpOne (s.setTile t { x1 with tdma := { x1.tdma with out := x1.tdma.out.set i { o with unsent := rest } } }) t i n
        else
          let g : TdmaSeg := ⟨nd, x.tdma.seqNext.get 0 nd, tg, off, pos, len, s.now, 0⟩
          let r := x.request t s.now o.slot o.op g
          let x1 := { x with spm := r.1, tdma := { x.tdma with
            out := x.tdma.out.set i { o with unsent := rest, sent := o.sent ++ [g] },
            seqNext := x.tdma.seqNext.upd 0 nd (· + 1) } }
          State.pumpOne ((s.setTile t x1).emit (.request tg r.2)) t i n

/-- Every outstanding operation sends what it may. -/
def State.pump (s : State) (t : Nat) : State :=
  (s.tile t).tdma.out.zipIdx.foldl (fun s o => s.pumpOne t o.2 (o.1.unsent.length)) s

/-- Operations with nothing left to send or to hear of are no longer outstanding. -/
def Tile.retire (x : Tile) : Tile :=
  { x with tdma := { x.tdma with out := x.tdma.out.filter (fun o => !(o.unsent.isEmpty && o.sent.isEmpty)) } }

/-- A source counter counts one segment of `k` bytes (R78). -/
def State.countSource (s : State) (t : Nat) (o : TdmaOp) (k : Nat) : State :=
  if o.scnten then s.tileBump t o.scnt (if o.smode then 1 else k) else s

/-- The lowest operation slot that no outstanding operation holds (R286). -/
def Tdma.slot (d : Tdma) : Nat := ((List.range 64).find? (fun k => d.out.all (fun o => o.slot != k))).getD 63

/-- An operation starts (R56, R83, R210): rejected before anything is sent, complete at once when its length is 0, or
outstanding with its segments going out. -/
def State.startOp (s : State) (t : Nat) (o : TdmaOp) : State :=
  let x := s.tile t
  let p := x.id.part.toNat
  let snodes := s.partStacks p
  match x.spm.refused o.local_.1 o.local_.2 with
  | some f => s.bankFault t f 3 o.pc.toNat
  | none =>
    match decodePga o.pga o.len snodes.length with
    | none => s.setTile t (x.tdmaFail o rcAddrFault)
    | some d =>
      if !s.destInPart p d then s.setTile t (x.tdmaFail o rcPartFault)
      else if o.len = 0 then s.countSource t o 0
      else
        let segs := if opAtomic o.op then
            (match d with
             | .direct tg off => [(tg, off, 0, o.len)]
             | .striped a => [(Tgt.stack (stripe snodes a).1, (stripe snodes a).2, 0, o.len)])
          else d.segments snodes o.len
        let s1 := s.setTile t { x with tdma := { x.tdma with out := x.tdma.out ++ [⟨o, segs, [], x.tdma.slot⟩] } }
        (s1.pump t).updTile t Tile.retire

/-! ### Answers -/

/-- The outstanding segment that a number to a node names: the place of its operation, and the segment. -/
def Tdma.find (d : Tdma) (n : Nat) (q : W16) : Option (Nat × TdmaOut × TdmaSeg) :=
  d.out.zipIdx.findSome? (fun o => (o.1.sent.find? (fun g => g.node == n && g.seq == q)).map (fun g => (o.2, o.1, g)))

/-- The segment has its final answer. -/
def Tdma.done (d : Tdma) (i : Nat) (o : TdmaOut) (g : TdmaSeg) : Tdma :=
  { d with out := d.out.set i { o with sent := o.sent.filter (fun h => !(h.node == g.node && h.seq == g.seq)) } }

/-- What an answer lands (R69, R78): GET data with its poison, the old value of an applied atomic. -/
def State.land (s : State) (t : Nat) (o : TdmaOp) (g : TdmaSeg) (a : Answer) : State :=
  match o.op with
  | .put => s
  | .get => if a.code = rcOk || a.code = rcPoisoned then s.tileWrite t 3 o.pc.toNat (o.laddr + g.pos) (a.data.take g.len) a.poison else s
  | _ => if a.code = rcOk then s.tileWrite t 3 o.pc.toNat (o.laddr + 16) (bytesLE o.len a.old.toNat) false else s

/-- An answer to segment `q` of tile `t` from node `n` (R69, R78, R302): the first answer counts, a later one is
discarded. -/
def State.tdmaAnswer (s : State) (t n : Nat) (q : W16) (a : Answer) : State :=
  match (s.tile t).tdma.find n q with
  | none => s
  | some (i, o, g) =>
    let s1 := s.updTile t (fun x => { x with tdma := x.tdma.done i o g })
    let s2 := s1.land t o.op g a
    let s3 := if a.code = rcOk then s2.countSource t o.op g.len else s2.updTile t (fun x => x.tdmaFail o.op a.code)
    (s3.pump t).updTile t Tile.retire

/-- TDMA_RTO in nanoseconds; 0 reads as 1 (R82, R215). -/
def Tdma.rtoNs (d : Tdma) : Nat := 1000 * (if d.rto = 0 then 1 else d.rto.toNat)

/-- TDMA_RTO expires for a segment (R82, R295): sent again with a fresh issue time, TIMEOUT after 7 retransmissions, or TARGET_DOWN from the
first router. -/
def State.tdmaRetransmit (s : State) (t n : Nat) (q : W16) : State :=
  let x := s.tile t
  match x.tdma.find n q with
  | none => s
  | some (i, o, g) =>
    let s := s.till (g.issue + x.tdma.rtoNs)
    if 7 ≤ g.retries then
      let x1 := { x with tdma := x.tdma.done i o g }
      ((s.setTile t (x1.tdmaFail o.op rcTimeout)).pump t).updTile t Tile.retire
    else if s.targetDown t n then
      let x1 := { x with tdma := x.tdma.done i o g }
      ((s.setTile t (x1.tdmaFail o.op rcTargetDown)).pump t).updTile t Tile.retire
    else
      let g' := { g with issue := s.now, retries := g.retries + 1 }
      let r := x.request t s.now o.slot o.op g'
      let out := x.tdma.out.set i { o with sent := o.sent.map (fun h => if h.node == n && h.seq == q then g' else h) }
      (s.setTile t { x with spm := r.1, tdma := { x.tdma with out := out } }).emit (.request g.tgt r.2)

/-- An instruction that enters a unit queue: MXA, VXE or TDMA (R195). -/
def doQueued (t : Nat) (w : Insn) (pc : Nat) (s : State) : State :=
  match insnKind w with
  | some .ttgt => doTtgt t w pc s
  | some .put => doRemote .put t w pc s
  | some .get => doRemote .get t w pc s
  | some .fadd => doRemote .fadd t w pc s
  | some .cswap => doRemote .cswap t w pc s
  | some .for_ => doRemote .for_ t w pc s
  | _ =>
    let i : QInsn := ⟨w, BitVec.ofNat 11 pc⟩
    if fld w 127 125 = 1 then ((s.updTile t (fun x => { x with mxa := { x.mxa with q := x.mxa.q ++ [i] } })).advance t pc).mxaSettle t
    else (s.updTile t (fun x => { x with vxe := { x.vxe with q := x.vxe.q ++ [i] } })).advance t pc

end Sys2Proof.Machine
end

