-- ==== Sys2Proof/Machine/SeqInsn.lean ====
section
/-! DEFINITION. The tile's sequencer, looper, window and synchronisation instructions, and the events of the sequencer
(R189–R207, R214). -/

namespace Sys2Proof.Machine

/-! ### Actions of issued instructions -/

/-- JMP (R200, R203). -/
def doJmp (t : Nat) (w : Insn) (pc : Nat) (s : State) : State :=
  let x := s.tile t
  let target := fld w 10 0
  let bad := (List.range 4).any (fun L =>
    let v := x.loop.level L
    v.active && (decide (target < v.first) || decide (v.last < target) || decide (v.last = pc)))
  if bad then s.raise t exLoop 0 pc
  else s.setTile t { x with seq := { x.seq with st := .hold, hold := .jmp, holdPc := pc, pc := target } }

/-- The value PSET writes (R203). -/
def psetValue (x : Tile) (w : Insn) : Bool :=
  match fld w 108 107 with
  | 0 => bit w 64
  | 1 => decide (fld w 95 64 ≤ (x.w.ccnt (fld w 104 100)).val.toNat)
  | 2 => let v := x.loop.level (fld w 106 105); v.active && decide (v.i = fld w 87 64)
  | _ =>
    let a := x.pred (fld w 3 0)
    let b := x.pred (fld w 7 4)
    match fld w 9 8 with
    | 0 => a && b
    | 1 => a || b
    | 2 => a != b
    | _ => a && !b

/-- Predicate `p` written. -/
def Seq.setPred (q : Seq) (p : Nat) (v : Bool) : Seq := { q with pred := if v then setBit q.pred p else clrBit q.pred p }

/-- PSET (R203). -/
def doPset (t : Nat) (w : Insn) (pc : Nat) (s : State) : State :=
  (s.updTile t (fun x => { x with seq := x.seq.setPred (fld w 111 109) (psetValue x w) })).advance t pc

/-- ILOAD at issue (R200, R203): its checks, then the hold. -/
def doIload (t : Nat) (w : Insn) (pc : Nat) (s : State) : State :=
  let x := s.tile t
  let n := fld w 45 35 + 1
  let dst := fld w 34 24
  let inLoop := (List.range 4).any (fun L =>
    let v := x.loop.level L
    v.active && decide (v.first < dst + n) && decide (dst ≤ v.last))
  if inLoop then s.raise t exLoop 0 pc
  else match x.spm.refused (fld w 23 0) (16 * n) with
    | some f => s.bankFault t f 0 pc
    | none => s.holdAt t pc (.iload (fld w 23 0) dst n)

/-- The words of an ILOAD, read and written one by one (R203, R212). -/
def iloadWords (src dst : Nat) : Nat → Spm × Seq → Spm × Seq
  | 0, p => p
  | n + 1, p =>
    let r := p.1.read src 16
    let q := { p.2 with
      imem := p.2.imem.put 0 dst (BitVec.ofNat 128 (ofLE r.2.1))
      imemBad := p.2.imemBad.filter (· / 4 != dst) ++ (if r.2.2 then (List.range 4).map (4 * dst + ·) else []) }
    iloadWords (src + 16) (dst + 1) n (r.1, q)

/-- The request a WOPEN word makes (R203). -/
def wopenReq (w : Insn) (pc : Nat) : WopenReq :=
  { idx := fld w 111 106, rights := BitVec.ofNat 3 (fld w 105 103), skind := BitVec.ofNat 2 (fld w 102 101),
    srcval := BitVec.ofNat 16 (fld w 95 80), cnt := BitVec.ofNat 8 (fld w 79 72), cmode := BitVec.ofNat 2 (fld w 100 99),
    base64 := fld w 18 0, limit64 := fld w 37 19, dest := .tileWord (fld w 61 38) pc }

/-- The scratchpad's size in units of 64 B. -/
def spmTop64 : Nat := 262144

/-- A result word of a window command of tile `t` (R204). -/
def State.windowResult (s : State) (t pc i raddr : Nat) (status : BitVec 8) : State :=
  s.tileWrite t 0 pc raddr (bytesLE 4 (resultWord ((s.tile t).w.window i) i status)) false

/-- The sequencer goes on after `pc` unless the tile has taken an exception. -/
def State.advanceOk (s : State) (t pc : Nat) : State := if (s.tile t).seq.st = .exc then s else s.advance t pc

/-- WOPEN commits: the open and its result word (R65, R204). -/
def State.commitOpen (s : State) (t pc : Nat) (r : WopenReq) : State :=
  let raddr := match r.dest with | .tileWord a _ => a | _ => 0
  let s := s.updTile t (fun x => { x with w := x.w.open_ r s.now (s.dieTb (tileDie t)) })
  (s.windowResult t pc r.idx raddr stOk).advanceOk t pc

/-- WOPEN (R65): WIN_BUSY, BAD_PARAM, the 4 µs hold, or the open. -/
def doWopen (t : Nat) (w : Insn) (pc : Nat) (s : State) : State :=
  let x := s.tile t
  let r := wopenReq w pc
  if (x.w.window r.idx).st ≠ .closed then (s.windowResult t pc r.idx (fld w 61 38) stBusy).advanceOk t pc
  else if !r.rangeOk spmTop64 32 || !s.sourceOk x.id.part.toNat r.skind r.srcval then
    (s.windowResult t pc r.idx (fld w 61 38) stBadParam).advanceOk t pc
  else if s.now < x.w.openDue r.idx then s.holdAt t pc (.wopen r)
  else s.commitOpen t pc r

/-- A close command that ends at once with a status (R204): its result word and its done counter. -/
def State.closeEnds (s : State) (t pc i raddr dcnt : Nat) (status : BitVec 8) : State :=
  ((s.windowResult t pc i raddr status).tileBump t dcnt 1).tilePoll t

/-- CLOSE_NOW (R70). -/
def doCloseNow (t : Nat) (w : Insn) (pc : Nat) (s : State) : State :=
  let x := s.tile t
  let i := fld w 111 106
  let s := if (x.w.window i).st = .closed then s.closeEnds t pc i (fld w 61 38) (fld w 105 101) stAlreadyClosed
    else ((s.setTile t { x with w := x.w.closeNow i (some (fld w 105 101)) (.tileWord (fld w 61 38) pc) }).settleTile t).tilePoll t
  s.advanceOk t pc

/-- CLOSE_QUIESCE (R72). -/
def doCloseQuiesce (t : Nat) (w : Insn) (pc : Nat) (s : State) : State :=
  let x := s.tile t
  let i := fld w 111 106
  let v := x.w.window i
  let timeout := fld w 31 16
  let s := if v.st = .closed then s.closeEnds t pc i (fld w 55 32) (fld w 105 101) stAlreadyClosed
    else if v.st = .quiescing then s.closeEnds t pc i (fld w 55 32) (fld w 105 101) stBusy
    else if v.cnt = 0xFF ∨ timeout = 0 then s.closeEnds t pc i (fld w 55 32) (fld w 105 101) stBadParam
    else
      let q := fld w 95 64 + 2 ^ 32 * fld w 15 0
      let dest := ResDest.tileWord (fld w 55 32) pc
      ((s.setTile t { x with w := x.w.quiesce i q (s.now + 1000 * timeout) (some (fld w 105 101)) dest }).settleTile t).tilePoll t
  s.advanceOk t pc

/-- WQUERY (R203). -/
def doWquery (t : Nat) (w : Insn) (pc : Nat) (s : State) : State :=
  (s.windowResult t pc (fld w 111 106) (fld w 61 38) stOk).advanceOk t pc

/-- CCNT_SET (R80). -/
def doCcntSet (t : Nat) (w : Insn) (pc : Nat) (s : State) : State :=
  (((s.updTile t (fun x => { x with w := x.w.ccntSet (fld w 111 107) (fld w 95 64 + 2 ^ 32 * fld w 15 0) })).settleTile t).tilePoll t).advanceOk t pc

/-- The 8 bytes of CCNT_GET (R203). -/
def ccntWord (c : Ccnt) : Nat := c.val.toNat + b2n c.err * 2 ^ 48 + b2n c.sat * 2 ^ 49

/-- CCNT_GET (R203). -/
def doCcntGet (t : Nat) (w : Insn) (pc : Nat) (s : State) : State :=
  (s.tileWrite t 0 pc (fld w 23 0) (bytesLE 8 (ccntWord ((s.tile t).w.ccnt (fld w 111 107)))) false).advanceOk t pc

/-- LOOP (R199, R200). -/
def doLoop (t : Nat) (w : Insn) (pc : Nat) (s : State) : State :=
  let x := s.tile t
  let L := fld w 111 110
  let n := fld w 87 64
  let e := pc + fld w 10 0
  let bad := (x.loop.level L).active || decide (2047 < e)
    || (List.range 4).any (fun M => (x.loop.level M).active && decide ((x.loop.level M).last < e))
  if bad then s.raise t exLoop 5 pc
  else if n = 0 then
    let r := x.loop.resolve e 5
    if 2047 < r.2 then (s.setTile t { x with loop := r.1 }).raise t exLoop 5 pc
    else s.setTile t { x with loop := r.1, seq := { x.seq with pc := r.2 } }
  else
    let l := { x.loop with lev := x.loop.lev.put {} L ⟨true, n, 0, pc + 1, e, x.loop.started + 1⟩, started := x.loop.started + 1 }
    s.setTile t { x with loop := l, seq := { x.seq with pc := pc + 1 } }

/-- LSTRIDE (R203). -/
def doLstride (t : Nat) (w : Insn) (pc : Nat) (s : State) : State :=
  (s.updTile t (fun x => { x with loop := { x.loop with
    gstr := x.loop.gstr.put 0 (4 * fld w 111 109 + fld w 108 107) (BitVec.ofNat 32 (fld w 95 64)) } })).advance t pc

/-- LBIND (R203). -/
def doLbind (t : Nat) (w : Insn) (pc : Nat) (s : State) : State :=
  (s.updTile t (fun x => { x with loop := { x.loop with
    bind := x.loop.bind.put {} (fld w 111 109) ⟨BitVec.ofNat 4 (fld w 3 0), BitVec.ofNat 4 (fld w 7 4), BitVec.ofNat 4 (fld w 11 8)⟩ } })).advance t pc

/-- WAITCNT ends or goes on waiting (R79): an error decides first. -/
def State.tryWait (s : State) (t pc c v : Nat) : State :=
  let k := (s.tile t).w.ccnt c
  if k.err then s.raise t exRemote 4 pc
  else if v ≤ k.val.toNat then s.advance t pc
  else s.holdAt t pc (.waitcnt c v)

/-- WAITCNT (R79, R205). -/
def doWaitcnt (t : Nat) (w : Insn) (pc : Nat) (s : State) : State :=
  s.tryWait t pc (fld w 111 107) (fld w 95 64 + 2 ^ 32 * fld w 15 0)

/-- BAR (R205, R206). -/
def doBar (t : Nat) (w : Insn) (pc : Nat) (s : State) : State :=
  let ch := fld w 111 108
  if !s.onChannel t ch then s.raise t exMismatch 4 pc
  else if s.armed t ch then (s.conflict t ch).raise t exMismatch 4 pc
  else (s.arrive t ch ⟨.bar, false, false, false, 0⟩).holdAt t pc (.bar ch)

/-- CWAIT arrives on its channel once its counter allows, or marked as faulted (R205, R206). -/
def State.tryCwait (s : State) (t pc ch c v : Nat) : State :=
  let k := (s.tile t).w.ccnt c
  if k.err || decide (v ≤ k.val.toNat) then
    (s.arrive t ch ⟨.cwait, k.err, false, false, 0⟩).holdAt t pc (.cwait ch c v true)
  else s.holdAt t pc (.cwait ch c v false)

/-- CWAIT (R205, R206, R393). -/
def doCwait (t : Nat) (w : Insn) (pc : Nat) (s : State) : State :=
  let ch := fld w 111 108
  if !s.onChannel t ch then s.raise t exMismatch 4 pc
  else if s.armed t ch then (s.conflict t ch).raise t exMismatch 4 pc
  else s.tryCwait t pc ch (fld w 107 103) (fld w 95 64 + 2 ^ 32 * fld w 15 0)

/-- FLAGOR (R205, R206, R393). -/
def doFlagor (t : Nat) (w : Insn) (pc : Nat) (s : State) : State :=
  let ch := fld w 111 108
  if !s.onChannel t ch then s.raise t exMismatch 4 pc
  else if s.armed t ch then (s.conflict t ch).raise t exMismatch 4 pc
  else (s.arrive t ch ⟨.flagor, false, false, false, BitVec.ofNat 64 (fld w 95 64)⟩).holdAt t pc
    (.flagor ch (fld w 107 105) (fld w 23 0))

/-! ### Meanings -/

/-- NOP (R203). -/
def execNop (t : TileNo) (s : State) : Result := .next (s.issueAs .nop t.val (fun _ pc s => s.advance t.val pc))
/-- JMP (R203). -/
def execJmp (t : TileNo) (s : State) : Result := .next (s.issueAs .jmp t.val (doJmp t.val))
/-- PSET (R203). -/
def execPset (t : TileNo) (s : State) : Result := .next (s.issueAs .pset t.val (doPset t.val))
/-- FENCE (R197). -/
def execFence (t : TileNo) (s : State) : Result :=
  .next (s.issueAs .fence t.val (fun w pc s => s.holdAt t.val pc (.fence (fld w 99 96))))
/-- ILOAD (R203). -/
def execIload (t : TileNo) (s : State) : Result := .next (s.issueAs .iload t.val (doIload t.val))
/-- END (R203). -/
def execEndProg (t : TileNo) (s : State) : Result := .next (s.issueAs .endp t.val (fun _ pc s => s.holdAt t.val pc .endFence))
/-- WOPEN (R65). -/
def execWopen (t : TileNo) (s : State) : Result := .next (s.issueAs .wopen t.val (doWopen t.val))
/-- CLOSE_NOW (R70). -/
def execCloseNow (t : TileNo) (s : State) : Result := .next (s.issueAs .closeNow t.val (doCloseNow t.val))
/-- CLOSE_QUIESCE (R72). -/
def execCloseQuiesce (t : TileNo) (s : State) : Result := .next (s.issueAs .closeQuiesce t.val (doCloseQuiesce t.val))
/-- WQUERY (R204). -/
def execWquery (t : TileNo) (s : State) : Result := .next (s.issueAs .wquery t.val (doWquery t.val))
/-- CCNT_SET (R80). -/
def execCcntSet (t : TileNo) (s : State) : Result := .next (s.issueAs .ccntSet t.val (doCcntSet t.val))
/-- CCNT_GET (R203). -/
def execCcntGet (t : TileNo) (s : State) : Result := .next (s.issueAs .ccntGet t.val (doCcntGet t.val))
/-- LOOP (R199). -/
def execLoopStart (t : TileNo) (s : State) : Result := .next (s.issueAs .loop t.val (doLoop t.val))
/-- LSTRIDE (R203). -/
def execLstride (t : TileNo) (s : State) : Result := .next (s.issueAs .lstride t.val (doLstride t.val))
/-- LBIND (R203). -/
def execLbind (t : TileNo) (s : State) : Result := .next (s.issueAs .lbind t.val (doLbind t.val))
/-- WAITCNT (R79). -/
def execWaitcnt (t : TileNo) (s : State) : Result := .next (s.issueAs .waitcnt t.val (doWaitcnt t.val))
/-- BAR (R205). -/
def execBar (t : TileNo) (s : State) : Result := .next (s.issueAs .bar t.val (doBar t.val))
/-- CWAIT (R205). -/
def execCwait (t : TileNo) (s : State) : Result := .next (s.issueAs .cwait t.val (doCwait t.val))
/-- FLAGOR (R205). -/
def execFlagor (t : TileNo) (s : State) : Result := .next (s.issueAs .flagor t.val (doFlagor t.val))
/-- STEP (R207): the hold, first as a fence of MXA, VXE and window commands. -/
def execStepFence (t : TileNo) (s : State) : Result :=
  .next (s.issueAs .step t.val (fun _ pc s => s.holdAt t.val pc (.step false)))

/-- FENCE_COMPLETE (R197, R207): a FENCE whose units are complete goes on, or raises REMOTE_FAULT when it names TDMA and
TDMA_ERR_V is set; a STEP whose units are complete arrives on the step channel. -/
def execFenceComplete (t : TileNo) (s : State) : Result :=
  let x := s.tile t.val
  .next (match x.seq.hold with
    | .fence m =>
      if !x.fenceDone m then s
      else if m.testBit 2 && x.tdma.err.v then s.raise t.val exRemote 0 x.seq.holdPc
      else s.advance t.val x.seq.holdPc
    | .step false => if x.fenceDone 11 then s.stepArrive t.val else s
    | _ => s)

/-- ILOAD_COMPLETE (R203): the words are in IMEM, and issue goes on. -/
def execIloadComplete (t : TileNo) (s : State) : Result :=
  let x := s.tile t.val
  .next (match x.seq.hold with
    | .iload src dst n =>
      (match x.spm.refused src (16 * n) with
       | some f => s.bankFault t.val f 0 x.seq.holdPc
       | none =>
         let r := iloadWords src dst n (x.spm, x.seq)
         (s.setTile t.val { x with spm := r.1, seq := r.2 }).advance t.val x.seq.holdPc)
    | _ => s)

/-- END_COMPLETE (R203): every unit is complete; IDLE with every loop level inactive, or REMOTE_FAULT. -/
def State.endComplete (s : State) (t : Nat) : State :=
  let x := s.tile t
  match x.seq.hold with
    | .endFence =>
      if !x.fenceDone 15 then s
      else if x.tdma.err.v then s.raise t exRemote 0 x.seq.holdPc
      else s.setTile t { x with loop := x.loop.stop,
                                    seq := { x.seq with st := .idle, hold := .none, pc := (x.seq.holdPc + 1) % 2048 } }
    | _ => s

/-- WOPEN_HOLD_RELEASE (R65): 4 µs have passed since the previous OPEN. -/
def execWopenHoldRelease (t : TileNo) (s : State) : Result :=
  let x := s.tile t.val
  .next (match x.seq.hold with
    | .wopen r => (s.till (x.w.openDue r.idx)).commitOpen t.val x.seq.holdPc r
    | _ => s)

/-- WAITCNT_COMPLETE (R205): the counter has reached the value, or its error bit is set. -/
def execWaitcntComplete (t : TileNo) (s : State) : Result :=
  let x := s.tile t.val
  .next (match x.seq.hold with
    | .waitcnt c v => s.tryWait t.val x.seq.holdPc c v
    | _ => s)

/-- CWAIT_ARRIVAL (R205): the counter has reached the value, or its error bit is set, and the tile arrives. -/
def execCwaitArrival (t : TileNo) (s : State) : Result :=
  let x := s.tile t.val
  .next (match x.seq.hold with
    | .cwait ch c v false => s.tryCwait t.val x.seq.holdPc ch c v
    | _ => s)

/-- TILE_CMDQ appended to (R191): bits [10:0]; a full queue of 16 discards and sets CMDQ_OVF. -/
def Seq.pushCmd (q : Seq) (v : W32) : Seq :=
  if 16 ≤ q.cmdq.length then { q with cmdqOvf := true } else { q with cmdq := q.cmdq ++ [fld v 10 0] }

/-- TILE_CMDQ_WRITE (R191). -/
def execTileCmdqWrite (t : TileNo) (v : W32) (s : State) : Result :=
  .next (s.updTile t.val (fun x => { x with seq := x.seq.pushCmd v }))

/-- SEQ_ENABLE written 1 or 0 (R14, R190, R215). -/
def Seq.enable (q : Seq) (on : Bool) : Seq :=
  if on && q.st == .stopped then { q with en := on, st := .idle }
  else if !on && q.st == .idle then { q with en := on, st := .stopped }
  else { q with en := on }

/-- SEQ_ENABLE_SET (R190). -/
def execSeqEnableSet (t : TileNo) (s : State) : Result := .next (s.updTile t.val (fun x => { x with seq := x.seq.enable true }))

/-- SEQ_ENABLE_CLEAR (R215). -/
def execSeqEnableClear (t : TileNo) (s : State) : Result := .next (s.updTile t.val (fun x => { x with seq := x.seq.enable false }))

/-- SEQ_RESET (R214). -/
def execSeqReset (t : TileNo) (s : State) : Result := .next (s.seqReset t.val)

/-- SEQ_TAKE_ENTRY (R192). -/
def execSeqTakeEntry (t : TileNo) (s : State) : Result :=
  .next (s.updTile t.val (fun x =>
    match x.seq.st, x.seq.cmdq with
    | .idle, e :: r => { x with seq := { x.seq with st := .run, pc := e, cmdq := r, cmdqTaken := x.seq.cmdqTaken + 1 } }
    | _, _ => x))

/-- ISSUE_HOLD_RELEASE (R195): a JMP's two cycles have passed, or the unit queue or the channel is free, and the held
instruction issues. -/
def execIssueHoldRelease (t : TileNo) (s : State) : Result :=
  let x := s.tile t.val
  .next (match x.seq.hold with
    | .jmp => s.setTile t.val { x with seq := { x.seq with st := .run, hold := .none } }
    | .queue _ =>
      let w := x.seq.imem.get 0 x.seq.pc
      let s1 := s.setTile t.val { x with seq := { x.seq with st := .run, hold := .none } }
      match insnKind w with
      | some .bar => s1.issueAs .bar t.val (doBar t.val)
      | some .cwait => s1.issueAs .cwait t.val (doCwait t.val)
      | some .flagor => s1.issueAs .flagor t.val (doFlagor t.val)
      | some k => s1.issueAs k t.val (doQueued t.val)
      | none => s
    | _ => s)

end Sys2Proof.Machine
end

