-- ==== Sys2Proof/Machine/SchedInsn.lean ====
section
/-! DEFINITION. The events of a running schedule (R317–R345): wingbeats, exchange streams, combines, resumes, the watchdog; and
the end of a tile's program. -/

namespace Sys2Proof.Machine

/-- END_COMPLETE (R203, R320): every unit is complete; IDLE with every loop level inactive, or REMOTE_FAULT. The partition is
DONE once every tile is IDLE after the closing wingbeat. -/
def execEndComplete (t : TileNo) (s : State) : Result :=
  let s1 := s.endComplete t.val
  let p := (s.tile t.val).id.part.toNat
  let x := s1.part p
  .next (if p < 24 ∧ x.wbs.closing ∧ x.wbs.wb.isNone ∧ x.sch.state = .running ∧ (s1.liveTiles p).all (fun t => (s1.tile t).seq.st == .idle) then
    ((s1.updPart p (fun y => { y with sch := { y.sch with state := .done, why := 0 }, wbs := { y.wbs with closing := false } })).stopped p 0).endImage p
  else s1)

/-- RUN_STEPs with NOWAIT end once their first wingbeat has been sent (R393). -/
def State.endNowait (s : State) (ps : List Nat) : State :=
  (s.hub.cmds.filter (fun c => c.opc == 1 && c.begun && bit c.cmd 8 && ps.contains c.part)).foldl (fun s c =>
    s.endCmd c scOk (s.runData c.part)) s

/-- WINGBEAT_SEND (R320, R322, R335, R337, R343): the first wingbeat of a run once every tile holds at STEP, or the one that the
last combine lets go; the two sequencers of a twin pair send together. -/
def execWingbeatSend (p : PartNo) (s : State) : Result :=
  let ps := s.pair p.val
  .next (if ps.all (fun q => s.firstReady q) then (ps.foldl (fun s q => s.sendFirst q false) s).endNowait ps
    else if ps.all (fun q => s.nextReady q) then (s.sendNext ps).endNowait ps
    else s)

/-- WINGBEAT_ARRIVAL (R293, R314, R329, R344): at die-cell `n` the phase's slot entries apply beside those of the phase before, and the
exchange engines begin their lists. Digests start anew, and a beat without exchange sends nothing to digest. -/
def execWingbeatArrival (n : NodeNo) (s : State) : Result :=
  let p := s.partOfNode n.val
  .next (match (if p < 24 then (s.part p).wbs.wb else none) with
    | none => s
    | some wb =>
      let s1 := s.updNode n.val (fun x => { x with
        xbusy := !wb.noExchange
        fab := if wb.noExchange then x.fab else { x.fab with
          phase := BitVec.ofNat 12 wb.phase, runs := (⟨wb.phase, wb.seq, wb.t⟩ :: x.fab.runs).take 2 } })
      if n.val < 240 then
        s1.mapTiles ((List.range 16).map (fun i => 16 * n.val + i)) (fun _ x => { x with xe := { x.xe with digest := 0, sent := 0 } })
      else s1.updStack (n.val - 240) (fun x => { x with ready := [], xe := { x.xe with digest := 0, sent := 0 } }))

/-- WINGBEAT_RELEASE (R314, R319, R335, R336, R338): at time T every die of partition `p` releases the wingbeat. -/
def execWingbeatRelease (p : PartNo) (s : State) : Result :=
  .next (match (s.part p.val).wbs.wb with
    | none => s
    | some wb => s.releaseWb p.val wb)

/-- Die-cell `n` runs an exchange that has been released: its wingbeat's T has come (R293, R314). -/
def State.exchanging (s : State) (n : Nat) : Bool := (s.node n).xbusy && (s.part (s.partOfNode n)).wbs.wb.isNone

/-- The fc on the time base at which offset `k` of the phase of die-cell `n` falls. -/
def State.phaseAt (s : State) (n k : Nat) : Nat := (s.part (s.partOfNode n)).wbs.rel + k

/-- XCHG_STREAM_START (R327–R332, R344): at T + XD_START die-cell `n` (its tile `i` on a compute die) sends descriptor `j` of the phase, in
the order of the list and each once; `late` numbers the packets whose bytes were not ready. -/
def execXchgStreamStart (n : NodeNo) (i : Fin 16) (j : Nat) (late : List Nat) (s : State) : Result :=
  let ph := (s.node n.val).fab.phase.toNat
  let t := 16 * n.val + i.val
  let replay := (s.part (s.partOfNode n.val)).sch.state == .replaying
  .next (if !s.exchanging n.val then s
    else if n.val < 240 then
      (match (if (s.tile t).xe.sent = j then (s.tile t).xdescOff ph j else none) with
       | none => s
       | some o =>
         if ((s.tile t).spm.refused o 32).isSome then s.descRead t o
         else
           let d := (s.tile t).xdesc o
           (((s.descRead t o).tillTb (s.phaseAt n.val (fld d 55 32))).tileStream t d late replay).tilePoll t)
    else if n.val < 264 then
      (match (if (s.stack (n.val - 240)).xe.sent = j then (s.stack (n.val - 240)).xdesc ph j else none) with
       | none => s
       | some d => (s.tillTb (s.phaseAt n.val (fld d 55 32))).stackStream (n.val - 240) j d late)
    else s)

/-- STACK_READ_RELEASE (R270, R273, R332): at T + XD_REL descriptor `j` of stack `k` releases its read, and the data wait on the base die. A
stack in self-refresh, or a hole, gives none: the stream finds them not ready. -/
def execStackReadRelease (k : StackNo) (j : Nat) (s : State) : Result :=
  let n := stackNode k.val
  let x := s.stack k.val
  .next (if !s.exchanging n then s
    else match x.xdesc (s.node n).fab.phase.toNat j with
      | none => s
      | some d =>
        if x.pw ≠ .active ∨ x.holeIn (fld d 132 96) (fld d 88 64) then s.tillTb (s.phaseAt n (fld d 159 136))
        else
          let s1 := s.tillTb (s.phaseAt n (fld d 159 136))
          let r := x.readMarks (fld d 132 96) (fld d 88 64) s1.now s1.freeCtr
          ((s1.setStack k.val { r.1 with ready := Table.put ([], []) r.1.ready j r.2 }).drawn).checkRead k.val x)

/-- EXCHANGE_REPORT (R318, R333): at T_w + XEND die-cell `n` arrives on the step channel with its exchange status; a beat
without exchange reports a clear status at T_w. -/
def execExchangeReport (n : NodeNo) (s : State) : Result :=
  let p := s.partOfNode n.val
  let x := s.node n.val
  let c := s.chCfg n.val 16
  let got := x.sync.got.get [] 16
  let y := s.part p
  .next (if p < 24 ∧ bit c 24 ∧ y.wbs.wb.isNone ∧ (y.sch.state = .running ∨ y.sch.state = .replaying)
      ∧ !y.wbs.started ∧ !got.any (fun g => g.1 == Member.node n.val) then
    let due := y.wbs.rel + (if x.xbusy then (x.xend.get 0xFFFFFF x.fab.phase.toNat).toNat else 0)
    let v := if x.xbusy then s.xReport n.val else 0
    let s1 := (s.tillTb due).updNode n.val (fun x => { x with xbusy := false })
    let s2 := if x.xbusy then
        (if n.val < 240 then s1.mapTiles ((List.range 16).map (fun i => 16 * n.val + i)) (fun _ t => { t with
            xe := { t.xe with lastStatus := BitVec.ofNat 14 v } })
         else s1.updStack (n.val - 240) (fun t => { t with xe := { t.xe with lastStatus := BitVec.ofNat 14 v } }))
      else s1
    s2.syncAdd n.val 16 [(.node n.val, ⟨.step, false, false, false, BitVec.ofNat 64 v⟩)]
  else s)

/-- STEP_COMBINE (R318, R319, R334, R335, R343–R345): the combine of partition `p` completes, with that of its twin. -/
def execStepCombine (p : PartNo) (s : State) : Result :=
  let ps := s.pair p.val
  .next (if ps.all (fun q => s.combineFull q) then s.combine ps else s)

/-- RESUME_WINGBEAT (R336, R486, R489): every tile of a partition in ROLLBACK holds at its resume STEP and no molt of it is
unfinished; the resume wingbeat goes out, or the partition halts where a halt waits. -/
def execResumeWingbeat (p : PartNo) (s : State) : Result :=
  let ps := s.pair p.val
  let ready := fun (s : State) q => (s.part q).sch.state == .rollback && (s.part q).wbs.wb.isNone && s.allAtStep q
    && (s.hub.molt.get {} q).ldies.all (fun l => l.2.isSome)
  .next (if !ps.all (ready s) then s
    else if ps.any (fun q => (s.part q).wbs.haltReq ≠ 0) then
      ps.foldl (fun s q => (s.haltNow q (max 1 (s.part q).wbs.haltReq)).moltEnd q false) s
    else ((ps.foldl (fun s q =>
      (((s.sendFirst q true).updPart q (fun x => { x with sch := { x.sch with rollback := x.sch.rollback + 1 } })).moltEnd q true)) s)).endNowait ps)

/-- WINGBEAT_WATCHDOG (R337, R484): C_w has not completed by T_w + 4 × P_w. `silent` are the die-cells that do not answer the
probe. -/
def execWingbeatWatchdog (p : PartNo) (silent : List NodeNo) (s : State) : Result :=
  let x := s.part p.val
  let running := x.sch.state == .running || x.sch.state == .replaying
  .next (if !running || x.wbs.cAt.isSome || x.wbs.wb.isSome || x.wbs.started || x.wbs.closing then s
    else
      let r := s.hub.rearms.get 0 p.val
      let s1 := (s.tillTb (x.wbs.tw + 4 * (r + 1) * fld (zBeat x.prog x.wbs.rec_) 47 16)).inc 264 fltWdCnt
      let dead := (s1.partNodes p.val).filter (fun n => silent.any (fun m => m.val == n))
      let missing := (s1.liveTiles p.val).filter (fun t => (s1.tile t).seq.hold != .step true)
      if dead ≠ [] then dead.foldl (fun s n => s.updHub (fun h => { h with probe := h.probe.put 0 n (s.now + 1) })) s1
      else if missing.any (fun t => (s1.tile t).seq.st == .exc) then s1
      else if missing.any (fun t => (s1.tile t).seq.st == .stopped || (s1.tile t).seq.st == .idle) then s1.haltNow p.val 4
      else if r < s1.hrd fltWdGrace then (s1.updHub (fun h => { h with rearms := h.rearms.put 0 p.val (r + 1) })).inc 264 fltWdSlow
      else s1.haltNow p.val 4)

end Sys2Proof.Machine
end

