-- ==== Sys2Proof/Machine/SpmInsn.lean ====
section
/-! DEFINITION. The scratchpad's memory operations, power commands, scrub and repair (R228–R244). -/

namespace Sys2Proof.Machine

/-- SPM_MOPQ_WRITE (R228): bytes written at an offset of the tile's scratchpad control block from 0x040 on. -/
def execSpmMopqWrite (t : TileNo) (off : Nat) (bs : List Byte) (s : State) : Result :=
  .next (s.updTile t.val (fun x => { x with spm := x.spm.pushMop off bs }))

/-- Where a memory operation stops (R230). -/
def Spm.mopStopAt (p : Spm) (d : BitVec 128) : Nat :=
  let n := p.mopRoom (fld d 31 8) (if fld d 1 0 = 1 then some (fld d 55 32) else none) (fld d 88 64)
  match p.refused (fld d 31 8) (fld d 88 64) with
  | some (x, _) => if x - fld d 31 8 ≤ n then x else fld d 55 32 + n
  | none => fld d 55 32 + n

/-- The descriptor at the head starts if its operation is `op` (R229). -/
def Spm.startMop (p : Spm) (op : Nat) : Spm :=
  match p.mopq with
  | [] => p
  | d :: _ => if p.mopRun || decide (fld d 1 0 ≠ op) then p
    else { p.runMop d with mopRun := true, mopStop := if p.mopStops d then some (p.mopStopAt d) else none }

/-- MOP_FILL (R229). -/
def execMopFill (t : TileNo) (s : State) : Result := .next (s.updTile t.val (fun x => { x with spm := x.spm.startMop 0 }))

/-- MOP_COPY (R229). -/
def execMopCopy (t : TileNo) (s : State) : Result := .next (s.updTile t.val (fun x => { x with spm := x.spm.startMop 1 }))

/-- MOP_END (R230): the running operation, or one with a bad descriptor, ends; MOP_CNT rises by 1, with the error bit set
on a bad descriptor or a stop, and a stop is recorded in SPM_FAULT. -/
def execMopEnd (t : TileNo) (s : State) : Result :=
  let x := s.tile t.val
  .next (match x.spm.mopq with
    | [] => s
    | d :: rest =>
      if !(x.spm.mopRun || mopBadDesc d) then s
      else
        let p := { x.spm with mopq := rest, mopRun := false, mopStop := none }
        let p := match x.spm.mopStop with | some a => p.recordFault a 3 6 | none => p
        let w := if x.spm.mopStop.isSome || mopBadDesc d then x.w.setErr (fld d 6 2) else x.w
        ((s.setTile t.val { x with spm := p, w := w }).tileBump t.val (fld d 6 2) 1).tilePoll t.val)

/-- The scratchpad ranges that the tile's own engines are at work on, one list an instruction or memory operation. -/
def Tile.localWork (x : Tile) : List (List (Nat × Nat)) :=
  x.mxa.veins.map (·.mem) ++ x.mxa.drains.map (·.mem) ++ x.vxe.run.map (·.mem)
    ++ (match x.seq.hold with | .iload src _ n => [[(src, 16 * n)]] | _ => [])
    ++ (match x.spm.mopq with
        | d :: _ => if x.spm.mopRun && !mopBadDesc d then
            [(fld d 31 8, fld d 88 64) :: (if fld d 1 0 = 1 then [(fld d 55 32, fld d 88 64)] else [])] else []
        | [] => [])

/-- SPM_RSV of a quarter (R226): accepted segments, outstanding TDMA operations, and local engines. An instruction under way
counts 1 in every quarter it touches, from its start to its end (DESIGN CHOICE, assumption log 99: its accesses have no
rows of their own). -/
def Tile.rsv (x : Tile) (q : Nat) : Nat :=
  (x.localWork.filter (fun rs => rs.any (fun r => (quartersOf r.1 r.2).contains q))).length
    + (x.w.acc.filter (fun a => (quartersOf a.seg.off (segSize a.seg)).contains q)).length
    + (x.tdma.out.filter (fun o =>
        let r : Nat × Nat := if opAtomic o.op.op then (o.op.laddr, 24) else (o.op.laddr, o.op.len)
        (quartersOf r.1 r.2).contains q)).length

/-- A window whose range touches quarter `q` is OPEN, QUIESCING or CLOSING (R242). -/
def Tile.windowOn (x : Tile) (q : Nat) : Bool :=
  x.w.win.any (fun kv =>
    (kv.2.st != .closed || kv.2.pend.any (fun p => decide (0 < x.w.inFlight kv.1 p.gen)))
      && (quartersOf (64 * kv.2.base64.toNat) (64 * (kv.2.limit64.toNat - kv.2.base64.toNat))).contains q)

/-- Power-down and retention are refused with BUSY (R242). -/
def Tile.pwrBusy (x : Tile) (q : Nat) (retain : Bool) : Bool :=
  let st := x.spm.quarter q
  !(st == .on || (!retain && st == .retain)) || decide (0 < x.rsv q) || !x.spm.mopq.isEmpty || x.windowOn q

/-- A power command evaluated (R242): 0 PWR_UP, 1 PWR_RETAIN, 2 PWR_DOWN; 3 is ignored. A PWR_DOWN of a quarter that the schedule
image keeps ON is refused too (R349), with BUSY. -/
def Tile.power (x : Tile) (q op : Nat) : Tile :=
  match op with
  | 0 =>
    (match x.spm.quarter q with
     | .off => { x with spm := (x.spm.setQuarter q .powering).pwrResult q 0 0 }
     | .retain => { x with spm := { x.spm with rising := setBit x.spm.rising q }.pwrResult q 0 0 }
     | _ => { x with spm := x.spm.pwrResult q 0 2 })
  | 1 => if x.pwrBusy q true then { x with spm := x.spm.pwrResult q 1 1 }
    else { x with spm := (x.spm.setQuarter q .retain).pwrResult q 1 0 }
  | 2 => if x.pwrBusy q false || bit x.spm.kept q then { x with spm := x.spm.pwrResult q 2 1 }
    else { x with spm := ({ x.spm with rising := clrBit x.spm.rising q }.setQuarter q .off).pwrResult q 2 0 }
  | _ => x

/-- A power command of tile `t` (R242): a power-up from OFF asks for its inrush token. -/
def State.tilePower (s : State) (t q op : Nat) : State :=
  let s1 := s.updTile t (fun x => x.power q op)
  if op = 0 ∧ (s.tile t).spm.quarter q = .off then s1.inrushAsk (t / 160) (tileCell t) .quarter q else s1

/-- PWR_UP (R242). -/
def execPwrUp (t : TileNo) (q : Fin 4) (s : State) : Result := .next (s.tilePower t.val q.val 0)
/-- PWR_RETAIN (R242). -/
def execPwrRetain (t : TileNo) (q : Fin 4) (s : State) : Result := .next (s.tilePower t.val q.val 1)
/-- PWR_DOWN (R242). -/
def execPwrDown (t : TileNo) (q : Fin 4) (s : State) : Result := .next (s.tilePower t.val q.val 2)

/-- A quarter finishes its power-up (R242): from OFF every byte is zero with valid check symbols, from RETAIN it is kept. -/
def Spm.quarterOn (p : Spm) (q : Nat) : Spm :=
  match p.quarter q with
  | .powering => (p.clearQuarter q).setQuarter q .on
  | .retain => if bit p.rising q then { p with rising := clrBit p.rising q }.setQuarter q .on else p
  | _ => p

/-- QUARTER_ON (R242): a quarter that comes from OFF is ON only after its token was granted and its ramp has ended. -/
def execQuarterOn (t : TileNo) (q : Fin 4) (s : State) : Result :=
  .next (if (s.tile t.val).spm.quarter q.val = .powering ∧ s.inrushOpen (t.val / 160) (tileCell t.val) .quarter q.val then s
    else s.updTile t.val (fun x => { x with spm := x.spm.quarterOn q.val }))

/-- The row that physical row `row` of a bank serves (R237): its own, unless a spare has replaced it; a spare row, from
16,384 up, serves the row of its remap entry. -/
def Spm.servedRow (p : Spm) (bank row : Nat) : Option Nat :=
  let e := fun k => p.rmap.get {} (32 * bank + k)
  if row < 16384 then (if (List.range 32).any (fun k => (e k).valid && (e k).row.toNat == row) then none else some row)
  else if (e (row - 16384)).valid then some (e (row - 16384)).row.toNat else none

/-- The scrub of physical row `row` in the banks from `b` on (R234). -/
def Spm.scrubBanks (p : Spm) (row b : Nat) : Nat → Spm
  | 0 => p
  | n + 1 =>
    let p' := match p.servedRow b row with
      | none => p
      | some r =>
        let off := 1024 * r + 64 * b
        if (p.rowRefused off).isSome then p else ((p.readHalf (off / 32)).1.readHalf (off / 32 + 1)).1
    Spm.scrubBanks p' row (b + 1) n

/-- SPM_SCRUB_TICK (R234): one row per bank is read; the interval 0 stops the scrub. -/
def execSpmScrubTick (t : TileNo) (s : State) : Result :=
  .next (s.updTile t.val (fun x =>
    if x.spm.scrubInt = 0 then x
    else { x with spm := { x.spm.scrubBanks x.spm.scrubRow 0 16 with scrubRow := (x.spm.scrubRow + 1) % 16416 } }))

/-- A half-row copied to a spare row: corrected where it can be, poison carried, an uncorrectable one poisoned (R238). -/
def Spm.copyHalf (p : Spm) (h : Nat) : Spm :=
  match decodeDev (p.dev.get 0 h) with
  | .fixed k v => { p with
      data := if 3 ≤ k then p.data.upd 0 (32 * h + k - 3) (fun b => b ^^^ BitVec.ofNat 8 v) else p.data
      dev := p.dev.put 0 h 0 }
  | .bad => { p with dev := p.dev.put 0 h poisonDev }
  | _ => p

/-- A remap entry of this row that a new spare replaces leaves service (assumption log 22). -/
def Spm.dropRemap (p : Spm) (bank row : Nat) : Spm :=
  { p with rmap := (List.range 32).foldl (fun t k =>
      let e := Table.get {} t (32 * bank + k)
      if e.valid && e.row.toNat == row then Table.put {} t (32 * bank + k) { e with valid := false, spareBad := true } else t) p.rmap }

/-- LIVE_ROW_REPAIR (R238, R239): the oldest queued row moves to the next usable spare, or its bank retires. -/
def execLiveRowRepair (t : TileNo) (s : State) : Result :=
  let x := s.tile t.val
  .next (match x.spm.repairQ with
    | [] => s
    | r :: rest =>
      let p := { x.spm with repairQ := rest }
      match p.nextSpare r.bank with
      | some k =>
        let h := (1024 * r.row + 64 * r.bank) / 32
        let p1 := ((p.copyHalf h).copyHalf (h + 1)).dropRemap r.bank r.row
        let p2 := { p1 with rmap := p1.rmap.put {} (32 * r.bank + k) ⟨BitVec.ofNat 14 r.row, true, 2, false⟩ }
        (s.setTile t.val { x with spm := p2 }).report (tileDie t.val) (.spmRepair t.val r.bank r.row false)
      | none =>
        if r.ue then
          (s.setTile t.val { x with spm := { p with retired := setBit p.retired r.bank } }).report (tileDie t.val) (.tileFailure t.val)
        else
          (s.setTile t.val { x with spm := { p with retirePend := setBit p.retirePend r.bank } }).report
            (tileDie t.val) (.spmRepair t.val r.bank r.row true))

end Sys2Proof.Machine
end

