-- ==== Sys2Proof/Machine/RegRead.lean ====
section
/-! DEFINITION. What every register reads as (R14, R45, R154, R187, R215, R224, R244, R275, R276, R316, R352, R353): one
function per block, by offset. Reserved offsets and WO fields read as 0. -/

namespace Sys2Proof.Machine

/-! ### Windows and counters, as tiles and stacks share them -/

/-- Word `i` of window entry `w` at index `k` (R224, R276). `infl` counts its accepted segments. -/
def windowWord (u : WinUnit) (reg : Bool) (k i now : Nat) : Nat :=
  let w := (if reg then u.rwin else u.win).get {} k
  let infl := if reg then 0 else (u.acc.filter (fun a => a.win == k)).length
  let closing := w.pend.any (fun p => !p.quiesce)
  let dcnt := ((w.pend.getLast?).bind (·.dcnt)).getD 0
  match i with
  | 0 => w.gen.toNat + w.st.code * 2 ^ 8 + b2n closing * 2 ^ 10 + w.rights.toNat * 2 ^ 11 + w.skind.toNat * 2 ^ 14
      + w.cmode.toNat * 2 ^ 16 + w.cnt.toNat * 2 ^ 18
  | 1 => w.base64.toNat
  | 2 => w.limit64.toNat
  | 3 => w.srcval.toNat + w.rej.toNat * 2 ^ 16
  | 4 => fld w.qthr 31 0
  | 5 => fld w.qthr 47 32 + dcnt * 2 ^ 16
  | 6 => (if w.st = .quiescing then (w.qdead - now) / 1000 else 0) + infl * 2 ^ 16
  | _ => w.openTb.toNat

/-- A counter's two words (R215). -/
def ccntRegWord (u : WinUnit) (c : Nat) (hi : Bool) : Nat :=
  let x := u.ccnt c
  if hi then fld x.val 47 32 + b2n x.err * 2 ^ 16 + b2n x.sat * 2 ^ 17 else fld x.val 31 0

/-! ### Tile registers, PGA space 3 -/

/-- SEQ_STATE and SEQ_HOLD (R215). -/
def SeqState.code : SeqState → Nat
  | .stopped => 0 | .idle => 1 | .run => 2 | .hold => 3 | .exc => 4

/-- SEQ_HOLD. -/
def HoldOp.code : HoldOp → Nat
  | .none => 0 | .queue u => if u ≤ 3 then u else 8 | .wopen _ => 4 | .iload _ _ _ => 5 | .fence _ => 6 | .endFence => 6
  | .waitcnt _ _ => 7 | .bar _ => 8 | .cwait _ _ _ _ => 8 | .flagor _ _ _ => 8 | .step _ => 9 | .jmp => 10

/-- Accumulator bank states (R154). -/
def BankState.code : BankState → Nat
  | .idle => 0 | .accum => 1 | .ready => 2 | .draining => 3

/-- MXA registers (R154), by offset in the block. -/
def Mxa.word (m : Mxa) (off : Nat) : Nat :=
  if off = 0 then
    m.q.length + m.bank0.st.code * 16 + m.bank1.st.code * 64 + b2n m.bank0.poison * 256 + b2n m.bank1.poison * 512
      + b2n (m.bank0.ty.getD false) * 1024 + b2n (m.bank1.ty.getD false) * 2048 + b2n (m.veins.any (·.inVeins)) * 4096
  else if 0x10 ≤ off ∧ off < 0x50 then (m.mask.get 0xFFFFFFFF ((off - 0x10) / 4)).toNat
  else if off = 0x50 then m.pwin.toNat
  else if 0x100 ≤ off ∧ off < 0x200 then (m.qpos.get 0 ((off - 0x100) / 4)).toNat
  else if 0x200 ≤ off ∧ off < 0x300 then (m.kpos.get 0 ((off - 0x200) / 4)).toNat
  else if 0x300 ≤ off ∧ off < 0x340 then
    (List.range 4).foldl (fun a i => a + (m.cflags.get 0 (off - 0x300 + i)).toNat * 2 ^ (8 * i)) 0
  else 0

/-- VXE registers (R187). -/
def Tile.vxeWord (x : Tile) (off : Nat) : Nat :=
  if off = 0 then
    x.vxe.q.length + x.vxe.dq.length * 16 + b2n (!x.vxe.run.isEmpty || x.vxe.wait != .none) * 256
      + b2n (match x.vxe.wait with | .prefix_ _ => true | _ => false) * 512
  else if 0x10 ≤ off ∧ off < 0x50 then
    (List.range 4).foldl (fun a i => a + (x.vxe.lflags.get 0 (off - 0x10 + i)).toNat * 2 ^ (8 * i)) 0
  else if off = 0x80 then x.fl.all.toNat
  else if off = 0x84 then x.fl.sflags.toNat
  else if off = 0x88 then x.fl.last.toNat + x.fl.run.toNat * 256
  else 0

/-- Identity and SEQ registers (R215). -/
def Tile.seqWord (x : Tile) (t off : Nat) : Nat :=
  match off / 4 with
  | 0 => t + x.id.rel.toNat * 2 ^ 16
  | 1 => x.id.part.toNat + x.id.srank.toNat * 32
  | 2 => fld x.id.seed 31 0
  | 3 => fld x.id.seed 63 32
  | 4 => x.id.stepNum.toNat
  | 5 => x.id.rwGen.toNat
  | 8 => b2n x.seq.en
  | 9 => x.seq.st.code + x.seq.hold.code * 8 + x.seq.pc * 256
  | 10 => x.seq.excCode.toNat + x.seq.excPc.toNat * 16 + x.seq.excUnit.toNat * 2 ^ 15 + b2n x.seq.excMore * 2 ^ 18
  | 11 => x.predWord
  | 13 => x.seq.cmdq.length + b2n x.seq.cmdqOvf * 32 + x.seq.cmdqTaken.toNat * 2 ^ 16
  | _ => 0

/-- LOOPER registers (R215). -/
def Looper.word (l : Looper) (off : Nat) : Nat :=
  if off < 0x10 then (l.level (off / 4)).i + b2n (l.level (off / 4)).active * 2 ^ 24
  else if 0x40 ≤ off ∧ off < 0x100 then (l.gstr.get 0 ((off - 0x40) / 4)).toNat
  else if 0x104 ≤ off ∧ off < 0x120 then
    let b := l.bind.get {} ((off - 0x100) / 4)
    b.a.toNat + b.b.toNat * 16 + b.c.toNat * 256
  else 0

/-- TDMA registers (R215). -/
def Tdma.word (d : Tdma) (off : Nat) : Nat :=
  match off / 4 with
  | 0 => d.q.length + d.out.length * 16
  | 1 => if d.rto = 0 then 1 else d.rto.toNat
  | 2 => d.err.code.toNat + d.err.tag.toNat * 16 + d.err.pc.toNat * 2 ^ 20 + b2n d.err.v * 2 ^ 31
  | 3 => fld d.err.pga 31 0
  | 4 => fld d.err.pga 55 32
  | _ => 0

/-- The word at an offset of tile `t`'s registers (R215). -/
def Tile.word (x : Tile) (t off now : Nat) : Nat :=
  if off < 0x400 then x.seqWord t off
  else if off < 0x800 then x.loop.word (off - 0x400)
  else if off < 0xC00 then x.mxa.word (off - 0x800)
  else if off < 0x1000 then x.vxeWord (off - 0xC00)
  else if off < 0x1400 then x.tdma.word (off - 0x1000)
  else if off < 0x1500 then ccntRegWord x.w ((off - 0x1400) / 8) (decide (off % 8 = 4))
  else if 0x2000 ≤ off ∧ off < 0x2800 then windowWord x.w false ((off - 0x2000) / 32) (off / 4 % 8) now
  else if 0x2800 ≤ off ∧ off < 0x2A00 then windowWord x.w true ((off - 0x2800) / 32) (off / 4 % 8) now
  else if 0x8000 ≤ off ∧ off < 0x10000 then fld (x.seq.imem.get 0 ((off - 0x8000) / 16)) (32 * (off / 4 % 4) + 31) (32 * (off / 4 % 4))
  else 0

/-! ### Scratchpad control block -/

/-- Quarter states (R244). -/
def QState.code : QState → Nat
  | .on => 0 | .retain => 1 | .off => 2 | .powering => 3

/-- Scratchpad control registers of a tile (R244). -/
def Tile.spmWord (x : Tile) (off : Nat) : Nat :=
  let p := x.spm
  if off = 0 then
    (List.range 4).foldl (fun a q => a + (p.quarter q).code * 4 ^ q) 0 + p.mopq.length * 256 + b2n p.mopOvf * 2 ^ 12 + b2n p.mopBad * 2 ^ 13
  else if off = 8 then p.resQ.toNat + p.resOp.toNat * 4 + p.resCode.toNat * 16 + p.resSeq.toNat * 2 ^ 16
  else if 0x10 ≤ off ∧ off < 0x20 then x.rsv ((off - 0x10) / 4)
  else if off = 0x20 then p.retired.toNat + p.retirePend.toNat * 2 ^ 16
  else if off = 0x24 then b2n p.poisonStep
  else if off = 0x28 then p.faultAddr.toNat
  else if off = 0x2C then p.faultInfo.toNat + p.faultUnit.toNat * 4 + b2n p.faultV * 32
  else if off = 0x30 then p.repairQ.length + b2n p.repairOvf * 16
  else if off = 0x34 then p.ueCnt.toNat
  else if 0x100 ≤ off ∧ off < 0x140 then (p.ceCnt.get 0 ((off - 0x100) / 4)).toNat
  else if off = 0x140 then p.scrubInt.toNat
  else if 0x400 ≤ off ∧ off < 0xC00 then
    let e := p.rmap.get {} ((off - 0x400) / 4)
    e.row.toNat + b2n e.valid * 2 ^ 14 + e.origin.toNat * 2 ^ 15 + b2n e.spareBad * 2 ^ 17
  else 0

/-- An exchange block (R353). -/
def Xchg.word (x : Xchg) (off : Nat) : Nat :=
  if off = 0 then x.lastStatus.toNat
  else if off = 8 then fld x.digest 31 0
  else if off = 0xC then fld x.digest 63 32
  else if 0x100 ≤ off ∧ off < 0x200 then (x.tag.get 0 ((off - 0x100) / 4)).toNat
  else if 0x10000 ≤ off ∧ off < 0x14000 then (x.pidx.get 0 ((off - 0x10000) / 4)).toNat
  else 0

/-! ### Stack registers -/

/-- SN_PSTATE. -/
def SnPower.code : SnPower → Nat
  | .active => 0 | .selfRefresh => 1 | .off => 2 | .init => 3

/-- Registers of a stack node below its network blocks (R275, R276). -/
def Stack.word (x : Stack) (off now : Nat) : Nat :=
  if off = 0 then x.pw.code + x.st.toNat * 4 + b2n x.hot * 16 + b2n x.sxe.isSome * 32 + (x.cmdq.length + x.sxq.length) * 64 + b2n x.lateStep * 2 ^ 13
  else if off = 4 then x.temp.toNat + b2n x.ref2x * 256
  else if off = 8 then x.lateCnt.toNat
  else if off = 0xC then x.cmdqDrop.toNat
  else if off = 0x14 then x.resOp.toNat + x.resCode.toNat * 4 + x.resSeq.toNat * 2 ^ 16
  else if off = 0x18 then x.resDrop.toNat
  else if 0x100 ≤ off ∧ off < 0x180 then
    let c := x.chan.get {} ((off - 0x100) / 4)
    c.state.toNat + c.why.toNat * 4
  else if off = 0x200 then x.ce.toNat
  else if off = 0x204 then x.ue.toNat
  else if off = 0x208 then x.rq.length + b2n x.rqOvf * 32
  else if off = 0x20C then x.spareUsed
  else if off = 0x210 then x.scrubHrs.toNat
  else if off = 0x214 then x.odecc.toNat
  else if off = 0x300 then x.train.step.toNat + b2n x.train.done * 8 + b2n x.train.fail * 16 + x.train.code.toNat * 256 + (match x.train.at_ with | some a => min 0xFFFF ((now - a) / 1000000) | none => 0) * 2 ^ 16
  else if off = 0x400 then b2n x.xtsOn + x.xtsEpoch.toNat * 256
  else if 0x10000 ≤ off ∧ off < 0x12000 then windowWord x.w false ((off - 0x10000) / 32) (off / 4 % 8) now
  else if 0x12000 ≤ off ∧ off < 0x12200 then windowWord x.w true ((off - 0x12000) / 32) (off / 4 % 8) now
  else if 0x20000 ≤ off ∧ off < 0x20200 then ccntRegWord x.w ((off - 0x20000) / 8) (decide (off % 8 = 4))
  else 0

/-! ### The network blocks of a die-cell -/

/-- LK_STATE and the rest of FAB_LINK (R316). -/
def Link.word (l : Link) (now : Nat) : Nat :=
  l.st.toNat + l.ch.toNat * 8 + l.thru.toNat * 256 + min 65535 (l.ues.filter (fun t => decide (now < t + 1000000))).length * 2 ^ 16

/-- FAB_EXCH_FAIL. -/
def Fab.exWord (f : Fab) : Nat := b2n f.exUe + b2n f.exMiss * 2

/-- The fabric block (R316), by offset from its 0x08_0000. -/
def Node.fabWord (x : Node) (off now : Nat) : Nat :=
  let f := x.fab
  if off = 0 then b2n f.ready + f.phase.toNat * 2
  else if 0x10 ≤ off ∧ off < 0x20 then (f.link.get {} ((off - 0x10) / 4)).word now
  else if 0x40 ≤ off ∧ off < 0x68 then
    ([f.ce, f.drop, f.defl, f.stale, f.dup, f.seqold, f.aged, f.tdown, f.miss, f.bad].getD ((off - 0x40) / 4) 0).toNat
  else if off = 0x80 then f.exWord
  else if 0x1000 ≤ off ∧ off < 0x1800 then (f.route.get 0 ((off - 0x1000) / 4)).toNat
  else if 0x2000 ≤ off ∧ off < 0x2400 then (f.tree.get 0 ((off - 0x2000) / 4)).toNat
  else if 0x10000 ≤ off ∧ off < 0x10044 then (x.sync.cfg.get 0 ((off - 0x10000) / 4)).toNat
  else if 0x10080 ≤ off ∧ off < 0x100C4 then (x.sync.lat.get 0 ((off - 0x10080) / 4)).toNat
  else if off = 0x10100 then x.sync.lead.toNat
  else if off = 0x11000 then b2n x.ctl.p0 + b2n x.ctl.p1 * 2 + b2n x.ctl.fast * 4 + x.ctl.retry.toNat * 2 ^ 16
  else if off = 0x11004 then x.ctl.hb.toNat
  else if 0x40000 ≤ off ∧ off < 0x44000 then (f.phIdx.get 0 ((off - 0x40000) / 4)).toNat
  else if 0x80000 ≤ off ∧ off < 0x100000 then
    fld (f.slot.get 0 ((off - 0x80000) / 16)) (32 * (off / 4 % 4) + 31) (32 * (off / 4 % 4))
  else 0

/-- The schedule block (R353). -/
def Node.schWord (x : Node) (off : Nat) : Nat :=
  if off = 0x180000 then b2n x.wbsRoot + b2n x.xbusy * 2
  else if 0x181000 ≤ off ∧ off < 0x185000 then (x.xend.get 0xFFFFFF ((off - 0x181000) / 4)).toNat
  else 0

/-- The word at an offset of die-cell `n`'s registers: PGA space 4 for dies and stack nodes, space 6 for port dies. -/
def State.nodeWord (s : State) (n off : Nat) : Nat :=
  let x := s.node n
  if off = 0x60000 then (setFld (s.reg n off) 2 0 (s.power n)).toNat
  else if off = 0x70008 then s.dieTb n % 2 ^ 32
  else if 0x60000 ≤ off ∧ off < 0x80000 ∨ 0xA0000 ≤ off ∧ off < 0xB0000 then (s.reg n off).toNat
  else if 265 ≤ n ∧ 0x100000 ≤ off then (if 0x200000 ≤ off ∧ off < 0x220000 then s.reg tkPlace off else s.reg n off).toNat
  else if 0x80000 ≤ off ∧ off < 0x180000 then x.fabWord (off - 0x80000) s.now
  else if 0x20000 ≤ off ∧ off < 0x21000 ∧ s.spareFree n then ({ spm := x.spareSpm } : Tile).spmWord (off - 0x20000)
  else if 0x600000 ≤ off ∧ off < 0x640000 ∧ s.spareFree n then x.spareXe.word (off - 0x600000)
  else if n < 240 ∧ 0x10000 ≤ off ∧ off < 0x20000 then (s.tile (16 * n + (off - 0x10000) / 0x1000)).spmWord (off % 0x1000)
  else if n < 240 ∧ 0x200000 ≤ off ∧ off < 0x600000 then (s.tile (16 * n + (off - 0x200000) / 0x40000)).xe.word (off % 0x40000)
  else if 240 ≤ n ∧ n < 264 ∧ off < 0x60000 then (s.stack (n - 240)).word off s.now
  else if 240 ≤ n ∧ n < 264 ∧ 0x200000 ≤ off ∧ off < 0x240000 then (s.stack (n - 240)).xe.word (off - 0x200000)
  else if 240 ≤ n ∧ n < 264 ∧ 0x400000 ≤ off ∧ off < 0x600000 then
    fld ((s.stack (n - 240)).desc.get 0 ((off - 0x400000) / 32)) (32 * (off / 4 % 8) + 31) (32 * (off / 4 % 8))
  else x.schWord off

/-! ### Hub registers -/

/-- SCH_STATE (R352). -/
def SchState.code : SchState → Nat
  | .empty => 0 | .loading => 1 | .ready => 2 | .running => 3 | .replaying => 4 | .rollback => 5 | .halted => 6 | .done => 7

/-- The partition schedule block (R352). -/
def Sch.word (x : Sch) (off : Nat) : Nat :=
  match off / 4 with
  | 0 => x.state.code + x.why.toNat * 8 + b2n x.twinOn * 128 + x.twinPart.toNat * 256
  | 1 => x.beat.toNat
  | 2 => x.committed.toNat
  | 3 => x.slip.toNat
  | 4 => x.replay.toNat
  | 5 => x.rollback.toNat + x.twinMism.toNat * 2 ^ 16
  | 6 => x.ckptId.toNat
  | 7 => x.lastCause.toNat
  | 8 => x.loadCode.toNat + x.loadSect.toNat * 256
  | 9 => x.loadRec.toNat
  | 10 => fld x.digest 31 0
  | 11 => fld x.digest 63 32
  | 12 => x.replayMax.toNat + x.rollbackMax.toNat * 16
  | _ => 0

/-- A P-site lies in a dark sector: its stack reads DARK (R45, R494). -/
def State.sectorDark (s : State) (k : Nat) : Bool := (s.hub.anat.stk.get {} k).state == 3

/-- ANAT_INFO over the sectors `ks` (R45). -/
def State.anatInfo (s : State) (ks : List Nat) : Nat :=
  let a := s.hub.anat
  (ks.flatMap (fun k => (List.range 10).map (fun i => 10 * k + i))).foldl (fun n d => n + b2n (a.smap.get {} d).valid) 0
    + (ks.flatMap (fun k => (List.range 12).map (fun i => 12 * k + i))).foldl (fun n q => n + b2n ((a.site.get {} q).state == 1)) 0 * 2 ^ 8
    + ks.foldl (fun n k => n + b2n (decide ((a.stk.get {} k).state.toNat < 2) && decide ((a.site.get {} (12 * k + 5)).role ≠ 0))) 0 * 2 ^ 16
    + ks.foldl (fun n k => n + b2n (s.sectorDark k)) 0 * 2 ^ 24

/-- The words of the ANAT block (R45), from its 0x01_0000. -/
def State.anatWord (s : State) (off : Nat) : Nat :=
  let a := s.hub.anat
  if off = 0 then s.anatInfo (List.range 24)
  else if off = 4 then a.gen.toNat
  else if 0x400 ≤ off ∧ off < 0x7C0 then
    let m := a.smap.get {} ((off - 0x400) / 4)
    m.psite + m.origin.toNat * 2 ^ 12 + b2n m.valid * 2 ^ 14 + m.part.toNat * 2 ^ 16
  else if 0x800 ≤ off ∧ off < 0x860 then
    let m := a.stk.get {} ((off - 0x800) / 4)
    m.psite + m.part.toNat * 2 ^ 16 + m.state.toNat * 2 ^ 24
  else if 0xC00 ≤ off ∧ off < 0x1080 then
    let m := a.site.get {} ((off - 0xC00) / 4)
    m.role.toNat + m.lslot.toNat * 16 + m.state.toNat * 256 + m.ldie.toNat * 2 ^ 12
  else 0

/-- Bytes of the hub's memories: the telemetry ring and the result slots (R400, R604). -/
def hubSram (off : Nat) : Bool :=
  decide (0x80000 ≤ off ∧ off < 0xC0000) || decide (0x100000 ≤ off ∧ off < 0x780000)

/-- The word at an offset of the hub's registers (PGA space 5). The hub's fabric block begins at 0x78_0000 + 0x08_0000 (R316, R603). -/
def State.hubWord (s : State) (off : Nat) : Nat :=
  if 0x10000 ≤ off ∧ off < 0x12000 then s.anatWord (off - 0x10000)
  else if 0x20000 ≤ off ∧ off < 0x21800 then (s.part ((off - 0x20000) / 0x100)).sch.word (off % 0x100)
  else if hubSram off then ofLE (s.hub.sram.getList 0 off 4)
  else if 0x800000 ≤ off ∧ off < 0x900000 then (s.node 264).fabWord (off - 0x800000) s.now
  else if off = 0x2008 then (if s.hub.feed.mainGood then min ((s.now - s.hub.boot.powerAt) / 1000000) 0xFFFFFFFF else 0)
  else if off = 0x200C ∧ s.hrd bootPhase = 1 then (setFld (s.reg 264 off) 15 0 (min ((s.now - s.hub.boot.startAt) / 1000000) 0xFFFF)).toNat
  else if off = 0x32000 then (setFld (s.reg 264 off) 4 4 (b2n (match s.hub.tb.ppsAt with
    | some t => decide (s.now < t + 1100000000) | none => false))).toNat
  else if off = 0x32020 then s.rtc / 32768 % 2 ^ 32
  else if off = 0x32024 then (setFld (s.reg 264 off) 14 0 (s.rtc % 32768)).toNat
  else (s.reg 264 off).toNat

/-- The word at an offset of a target's registers. -/
def State.tgtWord (s : State) (t : Tgt) (off : Nat) : Nat :=
  match t with
  | .tileReg t => (s.tile t).word t off s.now
  | .dieReg n => s.nodeWord n off
  | .hub => s.hubWord off
  | .port q => s.nodeWord (265 + q) off
  | _ => 0

/-- `k` words from an offset. -/
def State.tgtWords (s : State) (t : Tgt) (off k : Nat) : List W32 :=
  (List.range k).map (fun i => BitVec.ofNat 32 (s.tgtWord t (off + 4 * i)))

/-- A read of `k` words from `off` latches upper halves: TB_HI, TBM_PPS_STAMP_HI, POL_COUNTER_HI (R554, R555, R595). -/
def State.latch (s : State) (t : Tgt) (off k : Nat) : State :=
  let has := fun (o : Nat) => decide (off ≤ o ∧ o < off + 4 * k)
  match t with
  | .dieReg n => if has 0x70008 then s.wr n tbHi (s.dieTb n / 2 ^ 32) else s
  | .port q => if has 0x70008 then s.wr (265 + q) tbHi (s.dieTb (265 + q) / 2 ^ 32) else s
  | .hub =>
    let s1 := if has 0x32010 then s.hwr tbmPpsStampHi (s.hub.tb.pps.toNat / 2 ^ 32) else s
    if has 0x34004 then s1.hwr polCounterHi (s1.hub.rot.counter.toNat / 2 ^ 32) else s1
  | _ => s

end Sys2Proof.Machine
end

