-- ==== Sys2Proof/Machine/RegWrite.lean ====
section
/-! DEFINITION. Register writes (R14, R15): the fields without behaviour of their own by access type, and the writes that act. -/

namespace Sys2Proof.Machine

/-- A W1C field: bits written 1 clear. -/
def w1c {n : Nat} (w v : BitVec n) : BitVec n := w &&& ~~~v

/-- Four W1C bytes of a table of flags, from key `k`. -/
def w1cBytes (t : Table Byte) (k : Nat) (v : W32) : Table Byte :=
  (List.range 4).foldl (fun t i => t.upd 0 (k + i) (fun b => w1c b (BitVec.ofNat 8 (fld v (8 * i + 7) (8 * i))))) t

/-- A word of a wide entry replaced. -/
def setWord {n : Nat} (w : BitVec n) (i : Nat) (v : W32) : BitVec n := setFld w (32 * i + 31) (32 * i) v.toNat

/-! ### Fields without behaviour -/

/-- Tile registers (R154, R187, R215). -/
def Tile.writePlain (x : Tile) (off : Nat) (v : W32) : Tile :=
  if off = 8 then { x with id := { x.id with seed := setWord x.id.seed 0 v } }
  else if off = 0xC then { x with id := { x.id with seed := setWord x.id.seed 1 v } }
  else if off = 0x10 then { x with id := { x.id with stepNum := v } }
  else if off = 0x34 then { x with seq := { x.seq with cmdqOvf := x.seq.cmdqOvf && !bit v 5 } }
  else if 0x810 ≤ off ∧ off < 0x850 then { x with mxa := { x.mxa with mask := x.mxa.mask.put 0xFFFFFFFF ((off - 0x810) / 4) v } }
  else if off = 0x850 then { x with mxa := { x.mxa with pwin := v.setWidth 24 } }
  else if 0x900 ≤ off ∧ off < 0xA00 then { x with mxa := { x.mxa with qpos := x.mxa.qpos.put 0 ((off - 0x900) / 4) (v.setWidth 24) } }
  else if 0xA00 ≤ off ∧ off < 0xB00 then { x with mxa := { x.mxa with kpos := x.mxa.kpos.put 0 ((off - 0xA00) / 4) (v.setWidth 24) } }
  else if 0xB00 ≤ off ∧ off < 0xB40 then { x with mxa := { x.mxa with cflags := w1cBytes x.mxa.cflags (off - 0xB00) v } }
  else if 0xC10 ≤ off ∧ off < 0xC50 then { x with vxe := { x.vxe with lflags := w1cBytes x.vxe.lflags (off - 0xC10) v } }
  else if off = 0xC80 then { x with fl := { x.fl with all := w1c x.fl.all (v.setWidth 8) } }
  else if off = 0x1004 then { x with tdma := { x.tdma with rto := v.setWidth 16 } }
  else if off = 0x1008 then { x with tdma := { x.tdma with err := { x.tdma.err with v := x.tdma.err.v && !bit v 31 } } }
  else if 0x8000 ≤ off ∧ off < 0x10000 then 
    { x with seq := { x.seq with
      imem := x.seq.imem.upd 0 ((off - 0x8000) / 16) (fun w => setWord w (off / 4 % 4) v)
      imemBad := x.seq.imemBad.filter (· != (off - 0x8000) / 4) } }
  else x

/-- Scratchpad control registers (R244). -/
def Spm.writePlain (p : Spm) (off : Nat) (v : W32) : Spm :=
  if off = 0 then { p with mopOvf := p.mopOvf && !bit v 12, mopBad := p.mopBad && !bit v 13 }
  else if off = 0x2C then { p with faultV := p.faultV && !bit v 5 }
  else if off = 0x30 then { p with repairOvf := p.repairOvf && !bit v 4 }
  else if off = 0x140 then { p with scrubInt := v.setWidth 16 }
  else if 0x400 ≤ off ∧ off < 0xC00 then 
    (let e : Rmap := { row := BitVec.ofNat 14 (fld v 13 0), valid := bit v 14, origin := BitVec.ofNat 2 (fld v 16 15), spareBad := bit v 17 }
     { p with rmap := p.rmap.put {} ((off - 0x400) / 4) e })
  else p

/-- An exchange block (R353). -/
def Xchg.writePlain (x : Xchg) (off : Nat) (v : W32) : Xchg :=
  if 0x100 ≤ off ∧ off < 0x200 then { x with tag := x.tag.put 0 ((off - 0x100) / 4) (v.setWidth 16) }
  else if 0x10000 ≤ off ∧ off < 0x14000 then { x with pidx := x.pidx.put 0 ((off - 0x10000) / 4) v }
  else x

/-- Stack registers (R275). -/
def Stack.writePlain (x : Stack) (off : Nat) (v : W32) : Stack :=
  if off = 0x208 then { x with rqOvf := x.rqOvf && !bit v 5 }
  else if off = 0x210 then { x with scrubHrs := v.setWidth 8 }
  else x

/-- The fabric block (R316), by offset from its 0x08_0000. -/
def Node.fabWrite (x : Node) (off : Nat) (v : W32) : Node :=
  if 0x1000 ≤ off ∧ off < 0x1800 then { x with fab := { x.fab with route := x.fab.route.put 0 ((off - 0x1000) / 4) (v.setWidth 13) } }
  else if 0x2000 ≤ off ∧ off < 0x2400 then { x with fab := { x.fab with tree := x.fab.tree.put 0 ((off - 0x2000) / 4) (v.setWidth 22) } }
  else if 0x10000 ≤ off ∧ off < 0x10044 then { x with sync := { x.sync with cfg := x.sync.cfg.put 0 ((off - 0x10000) / 4) (v.setWidth 30) } }
  else if 0x10080 ≤ off ∧ off < 0x100C4 then { x with sync := { x.sync with lat := x.sync.lat.put 0 ((off - 0x10080) / 4) v } }
  else if off = 0x10100 then { x with sync := { x.sync with lead := v.setWidth 16 } }
  else if off = 0x11004 then { x with ctl := { x.ctl with hb := BitVec.ofNat 16 (max 10 (fld v 15 0)) } }
  else if 0x40000 ≤ off ∧ off < 0x44000 then { x with fab := { x.fab with phIdx := x.fab.phIdx.put 0 ((off - 0x40000) / 4) v } }
  else if 0x80000 ≤ off ∧ off < 0x100000 then 
    { x with fab := { x.fab with slot := x.fab.slot.upd 0 ((off - 0x80000) / 16) (fun w => setWord w (off / 4 % 4) v) } }
  else x

/-- Values that a write brings into range (R409, R443, R503, R555, R573, R603). -/
def clampWord (k : RegKind) (off : Nat) (v : W32) : W32 :=
  match k with
  | .fn => if off = 0x10180 then setFld v 31 16 (max 10 (fld v 31 16)) else v
  | .port =>
    if 0x500000 ≤ off ∧ off % 64 = 0xC then setFld v 16 0 (clampNat 10 100000 (fld v 16 0))
    else if 0x500000 ≤ off ∧ off % 64 = 0x10 then setFld v 15 0 (clampNat 100 60000 (fld v 15 0))
    else v
  | .hub =>
    if off = 8 then setFld v 21 11 (clampNat 64 1000 (fld v 21 11))
    else if off = 0x10 then setFld v 9 0 (clampNat 1 1000 (fld v 9 0))
    else if off = 0x30004 then setFld v 3 0 (max 2 (fld v 3 0))
    else if off = 0x32004 then
      (let f := signedOf 32 v.toNat
       if f < -100000000 then BitVec.ofInt 32 (-100000000) else if 100000000 < f then BitVec.ofInt 32 100000000 else v)
    else if off = 0x32018 then setFld v 15 0 (clampNat 100 10000 (fld v 15 0))
    else if off = 0x3300C then setFld (setFld v 4 0 (min 30 (fld v 4 0))) 11 5 (clampNat 80 95 (fld v 11 5))
    else v
  | _ => v

/-- Fields that a write acts on by a row of its own: QP_EN, QP_CTAIL, QP_SHEAD, TBM_FREF, RTC_SEC. -/
def ownMask (k : RegKind) (off : Nat) : Nat :=
  match k with
  | .fn => if 0x1000 ≤ off ∧ off < 0x1200 then (if off % 64 = 0x10 then 0x200 else if off % 64 = 0x14 ∨ off % 64 = 0x1C then 0xFFFFFFFF else 0) else 0
  | .hub => if off = 0x32000 then 1 else if off = 0x32020 then 0xFFFFFFFF else 0
  | _ => 0

/-- A register kept as a word (R14): RW and RWS fields are set, RW1C bits written 1 clear, and the rest stays. -/
def State.writeWord (s : State) (p off : Nat) (v : W32) : State :=
  match regAt (placeKind p) off with
  | none => s
  | some r =>
    let w := s.reg p off
    let rw := BitVec.ofNat 32 r.rw &&& ~~~(BitVec.ofNat 32 (ownMask (placeKind p) off))
    let c := clampWord (placeKind p) off v
    s.setReg p off (((w &&& ~~~rw) ||| (c &&& rw)) &&& ~~~(v &&& BitVec.ofNat 32 r.w1c))

/-- Hub firmware may write the schedule and exchange blocks of die-cell `n` (R353): its partition is halted, or it has none. -/
def State.schedFree (s : State) (n : Nat) : Bool := decide (24 ≤ s.partOfNode n) || s.atRest (s.partOfNode n) || (s.part (s.partOfNode n)).sch.state == .ready

/-- A die-cell's registers without behaviour. The fabric block's tables take no write while a partition that uses the die runs (R316), and the
schedule and exchange blocks only while it is halted (R353). -/
def State.writeNode (s : State) (n off : Nat) (v : W32) : State :=
  if 0x60000 ≤ off ∧ off < 0x80000 ∨ 0xA0000 ≤ off ∧ off < 0xB0000 then
    (match regAt .die off with
     | none => s
     | some r => s.setReg n off ((s.reg n off &&& ~~~(BitVec.ofNat 32 r.rw)) ||| (v &&& BitVec.ofNat 32 r.rw)))
  else if n = 264 then
    (if 0x800000 ≤ off ∧ off < 0x900000 then s.updNode 264 (fun x => x.fabWrite (off - 0x800000) v)
     else if 0x20000 ≤ off ∧ off < 0x21800 ∧ off % 0x100 = 0x30 then
       s.updPart ((off - 0x20000) / 0x100) (fun x => { x with sch := { x.sch with
         replayMax := BitVec.ofNat 4 (fld v 3 0), rollbackMax := BitVec.ofNat 4 (fld v 7 4) } })
     else if 0x2000 ≤ off ∧ off < 0x2100 then s
     else s.writeWord 264 off v)
  else if 265 ≤ n ∧ 0x100000 ≤ off then s.writeWord (if 0x200000 ≤ off ∧ off < 0x220000 then tkPlace else n) off v
  else if 0x80000 ≤ off ∧ off < 0x180000 then
    (if off = 0x91004 ∨ s.tablesFree n then s.updNode n (fun x => x.fabWrite (off - 0x80000) v) else s)
  else if !s.schedFree n && decide (0x180000 ≤ off) then s
  else if 0x181000 ≤ off ∧ off < 0x185000 then s.updNode n (fun x => { x with xend := x.xend.put 0xFFFFFF ((off - 0x181000) / 4) (v.setWidth 24) })
  else if 0x20000 ≤ off ∧ off < 0x21000 then
    (if s.spareFree n then s.updNode n (fun x => { x with spareSpm := x.spareSpm.writePlain (off - 0x20000) v }) else s)
  else if 0x600000 ≤ off ∧ off < 0x640000 ∧ n < 240 then
    (if s.spareFree n then s.updNode n (fun x => { x with spareXe := x.spareXe.writePlain (off - 0x600000) v }) else s)
  else if n < 240 ∧ 0x10000 ≤ off ∧ off < 0x20000 then
    s.updTile (16 * n + (off - 0x10000) / 0x1000) (fun x => { x with spm := x.spm.writePlain (off % 0x1000) v })
  else if n < 240 ∧ 0x200000 ≤ off ∧ off < 0x600000 then
    s.updTile (16 * n + (off - 0x200000) / 0x40000) (fun x => { x with xe := x.xe.writePlain (off % 0x40000) v })
  else if 240 ≤ n ∧ n < 264 ∧ off < 0x60000 then s.updStack (n - 240) (fun x => x.writePlain off v)
  else if 240 ≤ n ∧ n < 264 ∧ 0x200000 ≤ off ∧ off < 0x240000 then s.updStack (n - 240) (fun x => { x with xe := x.xe.writePlain (off - 0x200000) v })
  else if 240 ≤ n ∧ n < 264 ∧ 0x400000 ≤ off ∧ off < 0x600000 then
    s.updStack (n - 240) (fun x => { x with desc := x.desc.upd 0 ((off - 0x400000) / 32) (fun w => setWord w (off / 4 % 8) v &&& xdMask) })
  else s

/-- A word of the MSI-X table (R379): a vector unmasked while it pends is raised. -/
def State.writeMsix (s : State) (f off : Nat) (v : W32) : State :=
  let p := fnPlace f
  let i := (off - 0x8000) / 16
  let w := 0xC000 + 4 * (i / 32)
  let s1 := s.setReg p off v
  if off % 16 = 12 ∧ !bit v 0 ∧ bit (s.reg p w) (i % 32) then (s1.setReg p w (clrBit (s.reg p w) (i % 32))).emit (.msix f i (s.ideOf f)) else s1

/-- A function's registers without behaviour of their own (R379). Inbound message data take no write while a message is pending or
taken (R410); the BOOT registers lie in the physical function of PD-N alone (R459). -/
def State.writeFn (s : State) (f off : Nat) (v : W32) : State :=
  let p := fnPlace f
  if 0x10000 ≤ off ∧ off < 0x10040 ∧ (s.rd p mbaInPend = 1 ∨ s.rd p mbaInTaken = 1) then s.wr p mbaInOvr 1
  else if 0x8000 ≤ off ∧ off < (if f % 25 = 0 then 0x8400 else 0x8100) then s.writeMsix f off v
  else if 0x40000 ≤ off then (if f = 0 ∧ off < 0x40100 then s.writeWord 264 (off - 0x3E000) v else s)
  else s.writeWord p off v

/-- A function's PCI configuration, as far as the panel acts on it: Bus Master Enable at offset 4 bit 2, VF Enable of a physical
function at offset 8 bit 0, the power state and PME enable at offset 0xC bits [1:0] and 8, the payload and read request sizes at offset 0x10 bits [7:5] and [14:12]
(assumption logs 55, 102). VF Enable cannot change while an interface of the port is locked or runs (R382). -/
def State.writeCfg (s : State) (f off : Nat) (v : W32) : State :=
  if off = 4 then s.updFn f (fun x => { x with busMaster := bit v 2 })
  else if off = 0x10 then s.updFn f (fun x => { x with
    mps := min 2 (fld v 7 5)
    mrrs := min 5 (fld v 14 12) })
  else if off = 8 ∧ f % 25 = 0 ∧ (List.range 25).any (fun i => (s.fn (f + i)).tdisp == .locked || (s.fn (f + i)).tdisp == .run) then s
  else if off = 8 ∧ f % 25 = 0 then s.updFn f (fun x => { x with vfEnable := bit v 0 })
  else if off = 0xC then s.updFn f (fun x => { x with
    d3 := decide (fld v 1 0 = 3)
    pme := bit v 8 })
  else s

/-- Word `k` of partition `p`'s composite-cell table, as hub firmware keeps it (R44, assumption log 93): member `k mod 4096` of composite
`k / 4096`, its cell ID in [15:0] and bit 16 when it is one. Firmware takes a change while the partition is at rest, and only when every
composite then fits R44; it expands the composites anew (R64). -/
def State.setMember (s : State) (p k : Nat) (v : W32) : State :=
  let x := s.part p
  let m := x.members.put 0 k (v &&& 0x1FFFF)
  let cs := (m.map (fun kv => kv.1 / 4096)).eraseDups
  if !x.formed || !s.atRest p || !cs.all (fun c => (s.compMask p m 8 c).isSome) then s
  else s.updPart p (fun x => { x with
    members := m, comp := cs.foldl (fun t c => t.put 0 c ((s.compMask p m 8 c).getD 0)) [] })

/-- A write to a register without behaviour of its own (R14). -/
def State.writePlain (s : State) (p : RegPlace) (off : Nat) (v : W32) : State :=
  match p with
  | .tile t => s.updTile t.val (fun x => x.writePlain off v)
  | .die n => s.writeNode n.val off v
  | .fn f tee => if s.unserved f.val tee then s else s.writeFn f.val off v
  | .cfg f => s.writeCfg f.val off v
  | .composite p => s.setMember p.val (off / 4) v

/-! ### Writes that act, as hub firmware makes them -/

/-- A write of a tile register: TILE_CMDQ, SEQ_ENABLE and SEQ_RESET act (R190, R191, R214). -/
def State.writeTileReg (s : State) (t off : Nat) (v : W32) : State :=
  if off = 0x20 then
    (if bit v 1 then s.seqReset t else s.updTile t (fun x => { x with seq := x.seq.enable (bit v 0) }))
  else if off = 0x30 then s.updTile t (fun x => { x with seq := x.seq.pushCmd v })
  else s.updTile t (fun x => x.writePlain off v)

/-- A write of a scratchpad control block by bytes (R228, R242, R244). -/
def State.writeSpm (s : State) (t off : Nat) (bs : List Byte) : State :=
  if 0x40 ≤ off ∧ off < 0x50 then s.updTile t (fun x => { x with spm := x.spm.pushMop off bs })
  else (List.range (bs.length / 4)).foldl (fun s i =>
    let o := off + 4 * i
    let v : W32 := BitVec.ofNat 32 (ofLE ((bs.drop (4 * i)).take 4))
    if o = 4 then s.tilePower t (fld v 1 0) (fld v 3 2)
    else s.updTile t (fun x => { x with spm := x.spm.writePlain o v })) s

/-- A write of the control block of a die's unused spare tile, by hub firmware (R244): descriptors and power commands act as in any tile,
and hub firmware awaits the power-up that it asks for. -/
def Spm.writeSpare (p : Spm) (off : Nat) (bs : List Byte) : Spm :=
  if 0x40 ≤ off ∧ off < 0x50 then p.pushMop off bs
  else (List.range (bs.length / 4)).foldl (fun p i =>
    let o := off + 4 * i
    let v : W32 := BitVec.ofNat 32 (ofLE ((bs.drop (4 * i)).take 4))
    if o = 4 then (if fld v 3 2 = 0 then p.powerUp (fld v 1 0) else (({ spm := p } : Tile).power (fld v 1 0) (fld v 3 2)).spm)
    else p.writePlain o v) p

/-- A write of a stack register: SN_PWR_OP acts (R274). `fw` tells that hub firmware writes. -/
def State.writeStackReg (s : State) (k off : Nat) (v : W32) (fw : Bool) : State :=
  if off = 0x10 then s.stackPower k (fld v 1 0) fw 0
  else s.updStack k (fun x => x.writePlain off v)

/-- A write of a die-cell's registers by hub firmware over the control network, one word. -/
def State.writeNodeReg (s : State) (n off : Nat) (v : W32) : State :=
  if 240 ≤ n ∧ n < 264 ∧ off < 0x60000 then s.writeStackReg (n - 240) off v true
  else s.writeNode n off v

/-- A write of 4–64 bytes over the control network (R308). -/
def State.ctlWrite (s : State) (t : CtlTgt) (off : Nat) (vs : List W32) : State :=
  match t with
  | .tile t => vs.zipIdx.foldl (fun s v => s.writeTileReg t.val (off + 4 * v.2) v.1) s
  | .die n =>
    if n.val < 240 ∧ 0x10000 ≤ off ∧ off < 0x20000 then
      s.writeSpm (16 * n.val + (off - 0x10000) / 0x1000) (off % 0x1000) (vs.flatMap (fun v => bytesLE 4 v.toNat))
    else if 0x20000 ≤ off ∧ off < 0x21000 ∧ s.spareFree n.val then
      s.updNode n.val (fun x => { x with spareSpm := x.spareSpm.writeSpare (off - 0x20000) (vs.flatMap (fun v => bytesLE 4 v.toNat)) })
    else vs.zipIdx.foldl (fun s v => s.writeNodeReg n.val (off + 4 * v.2) v.1) s

end Sys2Proof.Machine
end

