-- ==== Sys2Proof/Machine/MbxOps.lean ====
section
/-! DEFINITION. Mailboxes (R405–R416, R609), and what hub firmware writes into result slots (R400, R401). -/

namespace Sys2Proof.Machine

/-! ### Result slots -/

/-- Where a function's result slots begin in hub space: those of its partition, or the physical function's (R400). -/
def State.slotArea (s : State) (f : Nat) : Nat :=
  if f % 25 = 0 then (if f = 0 then 0x700000 else 0x740000) else 0x100000 + 0x40000 * s.rd (fnPlace f) fnPart

/-- Hub firmware writes a result slot and makes it READY (R400, R401). -/
def State.writeSlot (s : State) (f slot tag : Nat) (bs : List Byte) : State :=
  let a := s.slotArea f + 4096 * slot
  let m := s.hub.sram
  let head := bytesLE 4 (ofLE (m.getList 0 a 4) + 1) ++ bytesLE 2 2 ++ bytesLE 2 tag ++ bytesLE 8 bs.length
    ++ bytesLE 8 s.tb ++ bytesLE 8 0
  s.updHub (fun h => { h with sram := (m.putList 0 a head).putList 0 (a + 32) bs })

/-! ### Black-box records -/

/-- A record's 256 bytes (R611). -/
def BbRec.bytes (r : BbRec) : List Byte :=
  let b := bytesLE 4 r.seq.toNat ++ bytesLE 8 r.tb.toNat ++ bytesLE 4 r.rtcSec.toNat ++ bytesLE 2 r.rtcSub.toNat
    ++ bytesLE 2 r.src.toNat ++ bytesLE 2 r.code.toNat ++ bytesLE 1 r.sev.toNat ++ bytesLE 1 r.data.length
    ++ (r.data ++ List.replicate (228 - r.data.length) 0)
  b ++ bytesLE 4 (crc32 b)

/-- The record with sequence number `q` in an MRAM. -/
def Mram.find (m : Mram) (q : Nat) : Option BbRec := (m.perm ++ m.wrap).find? (fun r => r.seq.toNat == q)

/-- The records from number `q` on that an MRAM holds, in sequence order, up to `n` of them. -/
def Mram.run (m : Mram) (q : Nat) : Nat → List BbRec
  | 0 => []
  | n + 1 => match m.find q with | none => [] | some r => r :: Mram.run m (q + 1) n

/-- The copy that a reader names: 0 the hub's, 1 the east port's. -/
def State.bbCopy (s : State) (copy : Bool) : Mram := if copy then s.hub.bbx.east else s.hub.bbx.hub

/-! ### Class A (R409–R411) -/

/-- The vector of the channel (R409). -/
def State.mbaIrq (s : State) (f : Nat) : State :=
  if s.rd (fnPlace f) mbaIrqEn = 1 then s.msix f (s.rd (fnPlace f) mbaVec) else s

/-- A GO of the host on the inbound side (R407, R410): discarded while a message is in flight or its outcome uncleared,
withdrawn while hub firmware is held in reset. -/
def State.mbaGo (s : State) (f : Nat) : State :=
  let p := fnPlace f
  if s.rd p mbaInPend = 1 ∨ s.rd p mbaInTaken = 1 ∨ s.rd p mbaInDone = 1 ∨ s.rd p mbaInTimeout = 1 ∨ s.rd p mbaInRreset = 1 then s.wr p mbaInOvr 1
  else
    let s1 := s.inc p mbaInSeq
    if !s.hub.score.fwUp then s1.wr p mbaInRreset 1
    else (s1.wr p mbaInPend 1).updFn f (fun x => { x with
      mbaIn := some ⟨(List.range 16).map (fun i => BitVec.ofNat 32 (s.rd p (mbaInData i))), s.now⟩ })

/-- MBX_TIMEOUT of a channel in ns. -/
def State.mbaTmo (s : State) (f : Nat) : Nat := 1000 * s.rd (fnPlace f) mbxTimeout

/-- Hub firmware takes the pending message (R406). -/
def State.mbaTake (s : State) (f : Nat) : State :=
  let p := fnPlace f
  match (s.fn f).mbaIn with
  | none => s
  | some m =>
    if s.rd p mbaInPend = 1 ∧ s.now ≤ m.at_ + s.mbaTmo f then (s.wr p mbaInPend 0).wr p mbaInTaken 1 else s

/-- Hub firmware finishes the message it took (R410). -/
def State.mbaDone (s : State) (f : Nat) (result : Nat) : State :=
  let p := fnPlace f
  if s.rd p mbaInTaken = 0 then s
  else (((((s.wr p mbaInTaken 0).wr p mbaInDone 1).wr p mbaInResult result).updFn f (fun x => { x with mbaIn := none }))).mbaIrq f

/-- The inbound message is withdrawn with TIMEOUT (R406). -/
def State.mbaExpire (s : State) (f : Nat) : State :=
  let p := fnPlace f
  match (s.fn f).mbaIn with
  | none => s
  | some m =>
    if s.rd p mbaInPend = 0 then s
    else ((((s.till (m.at_ + s.mbaTmo f)).wr p mbaInPend 0).wr p mbaInTimeout 1).updFn f (fun x => { x with mbaIn := none })).mbaIrq f

/-- The outbound message is withdrawn, and hub firmware sees TIMEOUT (R411). -/
def State.outExpire (s : State) (f : Nat) : State :=
  let p := fnPlace f
  if s.rd p mbaOutPend = 0 then s
  else (((s.till ((s.fn f).outAt + s.mbaTmo f)).wr p mbaOutPend 0).updFn f (fun x => { x with outEnd := .timeout })).mbaNext f

/-- The host driver takes the outbound message (R411). -/
def State.outAck (s : State) (f : Nat) : State :=
  if s.rd (fnPlace f) mbaOutPend = 0 then s else ((s.wr (fnPlace f) mbaOutPend 0).updFn f (fun x => { x with outEnd := .taken })).mbaNext f

/-- Results of hub firmware (R609): 0 OK, 1 BAD_CODE, 2 NOT_PERMITTED, 3 BAD_PARAM, 4 NO_RECORD. -/
def mrOk : Nat := 0
def mrBadCode : Nat := 1
def mrNotPermitted : Nat := 2
def mrBadParam : Nat := 3
def mrNoRecord : Nat := 4

/-- BB_READ (R609): records into a result slot of the physical function. -/
def State.mbaBbRead (s : State) (f : Nat) (d : List W32) : State × Nat :=
  let r2 := d.getD 2 0
  let n := fld r2 3 0
  if f % 25 ≠ 0 then (s, mrNotPermitted)
  else if n = 0 then (s, mrBadParam)
  else
    match (s.bbCopy (bit r2 4)).run (d.getD 1 0).toNat n with
    | [] => (s, mrNoRecord)
    | rs => (s.writeSlot f (fld r2 21 16) 0 (rs.flatMap BbRec.bytes), mrOk)

/-- HOST_MARK (R609): at most once per second; a further one is NOT_PERMITTED (assumption log 51). -/
def State.mbaHostMark (s : State) (f : Nat) (d : List W32) : State × Nat :=
  let early := match s.hub.score.markAt with | none => false | some t => decide (s.now < t + 1000000000)
  if f % 25 ≠ 0 || early then (s, mrNotPermitted)
  else ((s.updHub (fun h => { h with score := { h.score with markAt := some s.now } })).bb srcFw 0x0804 0 0xFFFF 31 0
    ((d.drop 1).flatMap (fun w => bytesLE 4 w.toNat)), mrOk)

/-- What hub firmware does with an inbound message, by its code (R609). -/
def State.mbaAct (s : State) (f : Nat) : State × Nat :=
  match (s.fn f).mbaIn with
  | none => (s, mrBadCode)
  | some m =>
    match fld (m.data.getD 0 0) 15 0 with
    | 1 => (s, mrOk)
    | 2 => s.mbaBbRead f m.data
    | 3 => s.mbaHostMark f m.data
    | _ => (s, mrBadCode)

/-- The code of a taken inbound message. -/
def State.mbaCode (s : State) (f : Nat) : Option Nat :=
  if s.rd (fnPlace f) mbaInTaken = 0 then none else ((s.fn f).mbaIn).map (fun m => fld (m.data.getD 0 0) 15 0)

/-! ### Class B (R412–R416) -/

/-- A read of MBB_LOCK by cell `c` (R413). -/
def State.mbbLock (s : State) (k m : Nat) (c : W16) : State × W32 :=
  if s.hrd (mbbHeld k m) = 0 then
    (((s.hwr (mbbHeld k m) 1).hwr (mbbOwner k m) c.toNat).updHub (fun h => { h with mbb := h.mbb.upd {} (4 * k + m) (fun x => { x with grantAt := s.now }) }), 0)
  else if s.hrd (mbbOwner k m) = c.toNat then (s, 0)
  else (s, BitVec.ofNat 32 (2 ^ 31 + s.hrd (mbbOwner k m)))

/-- The 16-byte result (R415). -/
def mbrBytes (seq m status result : Nat) : List Byte := bytesLE 16 (seq % 65536 + m * 2 ^ 16 + status * 2 ^ 24 + result % 2 ^ 32 * 2 ^ 32)

/-- The hub sends a PUT for partition `p` through a tag (R415, assumption log 50); false where the address decodes to
nothing. -/
def State.hubPut (s : State) (p : Nat) (pga : Pga) (tag : W16) (bs : List Byte) (why : IssWhy) : State × Bool :=
  match decodePga pga bs.length (s.partStacks p).length with
  | none => (s, false)
  | some d =>
    match d.segments (s.partStacks p) bs.length with
    | (t, off, _, _) :: _ => (s.issueSeg hubNode (.host p) t (putSeg tag off bs false) why, true)
    | [] => (s, false)

/-- A message ends: the mailbox sends its result, and the lock is free at once where no result can go (R415). -/
def State.mbbEnd (s : State) (k m status result : Nat) : State :=
  let x := s.hub.mbb.get {} (4 * k + m)
  let s1 := ((s.hwr (mbbPend k m) 0).hwr (mbbTaken k m) 0).updHub (fun h => { h with mbb := h.mbb.upd {} (4 * k + m) (fun x => { x with sending := true }) })
  let r := s1.hubPut (s.partOfSector k) x.rpga x.rtag (mbrBytes x.seq.toNat m status result) (.mbb (4 * k + m))
  if r.2 then r.1 else s1.mbbFree k m

/-- A GO of the owner (R407, R415): the message is pending, or ends RECEIVER_RESET at once. -/
def State.mbbGo (s : State) (k m : Nat) : State :=
  let s1 := s.inc 264 (mbbSeq k m)
  let x : Mbb := {
    grantAt := (s.hub.mbb.get {} (4 * k + m)).grantAt
    goAt := s.now
    data := (List.range 8).map (fun i => BitVec.ofNat 32 (s.hrd (mbbData k m i)))
    rpga := BitVec.ofNat 56 (s.hrd (mbbRpgaLo k m) + s.hrd (mbbRpgaHi k m) * 2 ^ 32)
    rtag := BitVec.ofNat 16 (s.hrd (mbbRtag k m))
    seq := BitVec.ofNat 16 (s1.hrd (mbbSeq k m)) }
  let s2 := (s1.hwr (mbbPend k m) 1).updHub (fun h => { h with mbb := h.mbb.put {} (4 * k + m) x })
  if s.hub.score.fwUp then s2 else s2.mbbEnd k m 2 0

/-- Why a write by cell `c` to data, result address or GO is refused (R414). -/
def State.mbbRefuse (s : State) (k m : Nat) (c : W16) : Option (BitVec 4) :=
  if s.hrd (mbbHeld k m) = 0 ∨ s.hrd (mbbOwner k m) ≠ c.toNat then some rcNotPermitted
  else if s.hrd (mbbPend k m) = 1 ∨ s.hrd (mbbTaken k m) = 1 then some rcNoRight
  else none

/-- Every word of a segment that R414 checks lets it pass. -/
def State.mbbCheck (s : State) (k off n : Nat) (c : W16) : Option (BitVec 4) :=
  ((List.range n).map (fun i => off + 4 * i)).findSome? (fun o =>
    if 8 ≤ o % 64 ∧ o % 64 < 0x38 then s.mbbRefuse k (o / 64 % 4) c else none)

/-- One word written by a cell that R414 lets write. -/
def State.mbbWord (s : State) (k off : Nat) (v : W32) (c : W16) : State :=
  let m := off / 64 % 4
  let o := off % 64
  if o = 0 then
    (if s.hrd (mbbHeld k m) = 1 ∧ s.hrd (mbbOwner k m) = c.toNat ∧ (s.mbbRefuse k m c).isNone then s.mbbFree k m else s)
  else if 8 ≤ o ∧ o < 0x28 then s.hwr (mbbData k m ((o - 8) / 4)) v.toNat
  else if o = 0x28 then s.hwr (mbbRpgaLo k m) v.toNat
  else if o = 0x2C then s.hwr (mbbRpgaHi k m) v.toNat
  else if o = 0x30 then s.hwr (mbbRtag k m) v.toNat
  else if o = 0x34 then (if bit v 0 then s.mbbGo k m else s)
  else s

/-- The words of a segment, in turn. -/
def State.mbbWords (s : State) (k off : Nat) (vs : List W32) (c : W16) : State :=
  vs.zipIdx.foldl (fun s v => s.mbbWord k (off + 4 * v.2) v.1 c) s

/-- MBX_TIMEOUT of a class B mailbox in ns. -/
def State.mbbTmo (s : State) (k m : Nat) : Nat := 1000 * s.hrd (mbbTimeout k m)

/-- Hub firmware takes a pending message (R406). -/
def State.mbbTake (s : State) (k m : Nat) : State :=
  let x := s.hub.mbb.get {} (4 * k + m)
  if s.hrd (mbbPend k m) = 1 ∧ s.now ≤ x.goAt + s.mbbTmo k m then (s.hwr (mbbPend k m) 0).hwr (mbbTaken k m) 1 else s

/-- The code of a taken message. -/
def State.mbbCode (s : State) (k m : Nat) : Option Nat :=
  if s.hrd (mbbTaken k m) = 0 then none else some (fld ((s.hub.mbb.get {} (4 * k + m)).data.getD 0 0) 15 0)

/-- Hub firmware finishes the message it took, by its code (R337, R415, R609). -/
def State.mbbFinish (s : State) (k m : Nat) : State :=
  match s.mbbCode k m with
  | none => s
  | some 1 => s.mbbEnd k m 0 mrOk
  | some 2 => (s.haltRequest (s.partOfSector k) 1).mbbEnd k m 0 mrOk
  | some _ => s.mbbEnd k m 0 mrBadCode

end Sys2Proof.Machine
end

