-- ==== Sys2Proof/Machine/SegOps.lean ====
section
/-! DEFINITION. An unscheduled or scheduled request at its target: the age test, the duplicate test, the window checks, the
access itself, its answer (R58, R66–R82, R225–R227, R250–R252, R260, R299–R302, R400, R412, R431, R443). -/

namespace Sys2Proof.Machine

/-! ### Sequence numbers (R300) -/

/-- The verdict of the duplicate test. -/
inductive SeqFate where
  | fresh | dup | older
  deriving DecidableEq, Repr

/-- An arriving number meets the map (R300). -/
def DupMap.meet (m : DupMap) (q : W16) : DupMap × SeqFate :=
  let d := (q - m.h).toNat
  let back := (m.h - q).toNat
  if !m.seen then ({ seen := true, h := q, got := [] }, .fresh)
  else if 1 ≤ d ∧ d ≤ 32767 then ({ m with h := q, got := (m.got.map (· + d)).filter (fun x => decide (x < 4096)) }, .fresh)
  else if 4096 ≤ back then (m, .older)
  else if m.got.contains back then (m, .dup)
  else (m, .fresh)

/-- The bit of an accepted number set. -/
def DupMap.accept (m : DupMap) (q : W16) : DupMap :=
  let back := (m.h - q).toNat
  if m.got.contains back then m else { m with got := m.got ++ [back] }

/-! ### Which windows a segment meets -/

/-- The windows of the register block or memory that a segment's offset lies in. -/
def State.segWins (s : State) (t : Tgt) (off : Nat) : Table Window :=
  match t with
  | .tile t => (s.tile t).w.win
  | .tileReg t => (s.tile t).w.rwin
  | .stack k => (s.stack k).w.win
  | .dieReg d =>
    if 240 ≤ d then (s.stack (d - 240)).w.rwin
    else if 0x10000 ≤ off ∧ off < 0x20000 then
      (List.range 16).foldl (fun a j => Table.put {} a j ((s.node d).rwin.get {} (16 * ((off - 0x10000) / 0x1000) + j))) []
    else []
  | .hub => s.hub.rwin.get [] (hubBlock off)
  | .port q => ((s.port q).blk.get {} (portBlockPart off)).rwin

/-- Window `i` of those changed. -/
def State.updSegWin (s : State) (t : Tgt) (off i : Nat) (f : Window → Window) : State :=
  match t with
  | .tile t => s.updTile t (fun x => { x with w := x.w.updWin i f })
  | .tileReg t => s.updTile t (fun x => { x with w := { x.w with rwin := x.w.rwin.upd {} i f } })
  | .stack k => s.updStack k (fun x => { x with w := x.w.updWin i f })
  | .dieReg d =>
    if 240 ≤ d then s.updStack (d - 240) (fun x => { x with w := { x.w with rwin := x.w.rwin.upd {} i f } })
    else s.updNode d (fun x => { x with rwin := x.rwin.upd {} (16 * ((off - 0x10000) / 0x1000) + i) f })
  | .hub => s.updHub (fun h => { h with rwin := h.rwin.upd [] (hubBlock off) (fun w => Table.upd {} w i f) })
  | .port q => s.updPort q (fun x => { x with blk := x.blk.upd {} (portBlockPart off) (fun b => { b with rwin := b.rwin.upd {} i f }) })

/-- What a window's range is relative to. -/
def segBase (t : Tgt) (off : Nat) : Nat :=
  match t with
  | .hub => min off (hubBlock off)
  | .port _ => min off (portBlock (portBlockPart off))
  | _ => 0

/-- How many windows a target's table has (R59, R58). -/
def segCount (t : Tgt) : Nat :=
  match t with
  | .tile _ => 64 | .stack _ => 256 | _ => 16

/-- The table is one of register windows. -/
def segReg (t : Tgt) : Bool :=
  match t with
  | .tile _ | .stack _ => false
  | _ => true

/-- The target's partition. -/
def State.segPart (s : State) (t : Tgt) (off : Nat) : Nat :=
  match t with
  | .tile t | .tileReg t => s.partOfSector (t / 160)
  | .stack k => s.partOfSector k
  | .dieReg d => s.partOfNode d
  | .hub => s.hubBlockPart (hubBlock off)
  | .port _ => portBlockPart off

/-- Check 8 of R67 (R241, R250). -/
def State.segBankOff (s : State) (t : Tgt) (g : Segment) : Bool :=
  match t with
  | .tile t => ((s.tile t).spm.refused g.off (segSize g)).isSome
  | .stack k => decide ((s.stack k).pw ≠ .active) || (s.stack k).holeIn g.off (segSize g)
  | .dieReg d =>
    if 240 ≤ d then
      (match (s.stack (d - 240)).pw with
       | .active => false
       | .selfRefresh => decide (2 ≤ fld g.tag 15 8)
       | _ => true)
    else false
  | _ => false

/-- The segment is a whole 64-byte command at offset `o`. -/
def segCommand (g : Segment) (o : Nat) : Bool := g.op == .put && decide (g.data.length = 64) && decide (g.off = o)

/-- The narrower rules of register windows (R89, R191, R260, R414, R431, R443). -/
def State.segNarrow (s : State) (t : Tgt) (g : Segment) : Option (BitVec 4) :=
  let oob := fun (ok : Bool) => if ok then none else some rcOutOfBounds
  match t with
  | .tileReg _ => if fld g.tag 15 8 = 0 then oob (decide (g.off = 0x30) && decide (segSize g = 4)) else none
  | .dieReg d => if 240 ≤ d ∧ fld g.tag 15 8 = 0 then oob (segCommand g 0x30000) else none
  | .hub =>
    let b := hubBlock g.off
    if 0x50000 ≤ b ∧ b < 0x51800 then oob (segCommand g b)
    else if 0x40000 ≤ b ∧ b < 0x41800 ∧ g.op = .put then s.mbbCheck ((b - 0x40000) / 0x100) (g.off - b) (g.data.length / 4) g.node
    else none
  | .port _ => oob (segCommand g (g.off / 64 * 64) && decide (g.off % 0x1000 < 0xC0))
  | _ => none

/-- The checks of R67, and the register block's own. -/
def State.segCheck (s : State) (t : Tgt) (g : Segment) : Option (BitVec 4) :=
  let w := s.segWins t g.off
  match checkSeg w (segCount t) (segReg t) (fun v => s.admits (s.segPart t g.off) v g.src) (s.segBankOff t g)
      { g with off := g.off - segBase t g.off } with
  | some c => some c
  | none => s.segNarrow t g

/-- A command queue has no room (R89, R260, R431, R443). -/
def State.segFull (s : State) (t : Tgt) (g : Segment) : Bool :=
  match t with
  | .dieReg d => decide (240 ≤ d) && decide (fld g.tag 15 8 = 0) && decide (64 ≤ (s.stack (d - 240)).cmdq.length + (s.stack (d - 240)).sxq.length)
  | .hub =>
    let b := hubBlock g.off
    decide (0x50000 ≤ b ∧ b < 0x51800) && decide (64 ≤ (s.hub.cellq.get [] ((b - 0x50000) / 0x100)).length)
  | .port q =>
    let b := (s.port q).blk.get {} (portBlockPart g.off)
    (match g.off % 0x1000 / 64 with
     | 0 => decide (64 ≤ b.cmdq.length)
     | 1 => decide (256 ≤ b.wrq.length)
     | _ => decide (64 ≤ b.clxq.length))
  | _ => false

/-! ### Accesses -/

/-- The words of a register write. -/
def wordsOf (bs : List Byte) : List W32 := (List.range (bs.length / 4)).map (fun i => BitVec.ofNat 32 (ofLE ((bs.drop (4 * i)).take 4)))

/-- An accepted PUT into registers takes effect. -/
def State.regPut (s : State) (t : Tgt) (g : Segment) : State :=
  let c : BitVec 512 := BitVec.ofNat 512 (ofLE g.data)
  match t with
  | .tileReg t => s.updTile t (fun x => { x with seq := x.seq.pushCmd (BitVec.ofNat 32 (ofLE g.data)) })
  | .dieReg d =>
    if 240 ≤ d then
      (if fld g.tag 15 8 = 0 then s.updStack (d - 240) (fun x => { x with cmdq := x.cmdq ++ [c] })
       else (wordsOf g.data).zipIdx.foldl (fun s v => s.writeStackReg (d - 240) (g.off + 4 * v.2) v.1 false) s)
    else s.writeSpm (16 * d + (g.off - 0x10000) / 0x1000) (g.off % 0x1000) g.data
  | .hub =>
    let b := hubBlock g.off
    if 0x50000 ≤ b ∧ b < 0x51800 then s.updHub (fun h => { h with cellq := h.cellq.upd [] ((b - 0x50000) / 0x100) (· ++ [c]) })
    else if 0x40000 ≤ b ∧ b < 0x41800 then s.mbbWords ((b - 0x40000) / 0x100) (g.off - b) (wordsOf g.data) g.node
    else s.updHub (fun h => { h with sram := h.sram.putList 0 g.off g.data })
  | .port q => s.updPort q (fun x => { x with blk := x.blk.upd {} (portBlockPart g.off) (fun b =>
      match g.off % 0x1000 / 64 with
      | 0 => { b with cmdq := b.cmdq ++ [c] }
      | 1 => { b with wrq := b.wrq ++ [c] }
      | _ => { b with clxq := b.clxq ++ [c] }) })
  | _ => s

/-- The words of a hub GET: a mailbox lock is read by its rule (R413). -/
def State.hubGet (s : State) (c : W16) (off : Nat) : Nat → State × List W32
  | 0 => (s, [])
  | n + 1 =>
    let r := if 0x40000 ≤ off ∧ off < 0x41800 ∧ off % 64 = 0 then s.mbbLock ((off - 0x40000) / 0x100) (off / 64 % 4) c
      else (s.latch .hub off 1, BitVec.ofNat 32 (s.hubWord off))
    let r' := State.hubGet r.1 c (off + 4) n
    (r'.1, r.2 :: r'.2)

/-- A register GET: the answer's bytes. -/
def State.regGet (s : State) (t : Tgt) (g : Segment) : State × List Byte :=
  let r := match t with
    | .hub => s.hubGet g.node g.off (g.len / 4)
    | _ => let s1 := s.latch t g.off (g.len / 4); (s1, s1.tgtWords t g.off (g.len / 4))
  (r.1, r.2.flatMap (fun w => bytesLE 4 w.toNat))

/-- The answer to a read. -/
def readAnswer (bs : List Byte) (poison : Bool) : Answer := ⟨if poison then rcPoisoned else rcOk, bs, poison, 0⟩

/-- A GET reads its target (R227, R236, R252, R257). -/
def State.serveGet (s : State) (t : Tgt) (g : Segment) : State × Answer :=
  match t with
  | .tile t =>
    let r := (s.tile t).spm.readUse g.off g.len
    (s.updTile t (fun x => { x with spm := r.1 }), readAnswer r.2.1 r.2.2)
  | .stack k =>
    let r := (s.stack k).read g.off g.len s.now s.freeCtr
    (((s.setStack k r.1).drawn).checkRead k (s.stack k), readAnswer r.2.1 r.2.2)
  | _ =>
    let r := s.regGet t g
    (r.1, readAnswer r.2 false)

/-- An atomic at its target (R47, R48, R227, R251): poisoned bytes leave it unapplied. -/
def State.serveAtomic (s : State) (t : Tgt) (g : Segment) : State × Answer :=
  let new := fun (old : List Byte) => bytesLE g.len (atomicNew g.op g.len (ofLE old) g.opnd.toNat g.swap.toNat)
  match t with
  | .tile t =>
    let r := (s.tile t).spm.read g.off g.len
    if r.2.2 then (s.updTile t (fun x => { x with spm := r.1 }), ⟨rcPoisoned, [], false, 0⟩)
    else (s.updTile t (fun x => { x with spm := r.1.write g.off (new r.2.1) false }), ⟨rcOk, [], false, BitVec.ofNat 64 (ofLE r.2.1)⟩)
  | .stack k =>
    let r := (s.stack k).read g.off g.len s.now s.freeCtr
    if r.2.2 then (((s.setStack k r.1).drawn).checkRead k (s.stack k), ⟨rcPoisoned, [], false, 0⟩)
    else ((s.setStack k (r.1.write g.off (new r.2.1) false s.now s.freeCtr)).drawn, ⟨rcOk, [], false, BitVec.ofNat 64 (ofLE r.2.1)⟩)
  | _ => (s, ⟨rcNoRight, [], false, 0⟩)

/-- A PUT lands (R52, R223, R232, R251). -/
def State.servePut (s : State) (t : Tgt) (g : Segment) : State :=
  match t with
  | .tile t => s.updTile t (fun x => { x with spm := x.spm.write g.off g.data g.poison })
  | .stack k => ((s.updStack k (fun x => x.write g.off g.data g.poison s.now s.freeCtr)).drawn).checkRead k (s.stack k)
  | _ => s.regPut t g

/-- The access itself, with its answer. -/
def State.serve (s : State) (t : Tgt) (g : Segment) : State × Answer :=
  match g.op with
  | .put => (s.servePut t g, ⟨rcOk, [], false, 0⟩)
  | .get => s.serveGet t g
  | _ => s.serveAtomic t g

/-! ### The two memories' units -/

/-- The window unit of a tile or a stack node changed. -/
def State.updUnit (s : State) (t : Tgt) (f : WinUnit → WinUnit) : State :=
  match t with
  | .tile t => s.updTile t (fun x => { x with w := f x.w })
  | .stack k => s.updStack k (fun x => { x with w := f x.w })
  | _ => s

/-- Its closes that can end, end. -/
def State.settleUnit (s : State) (t : Tgt) : State :=
  match t with
  | .tile t => s.settleTile t
  | .stack k => s.settleStack k
  | _ => s

/-- How many atomic replies a target keeps (R82). -/
def replyCap (t : Tgt) : Nat := match t with | .stack _ => 256 | _ => 64

/-- A reply enters the cache, oldest out first. -/
def WinUnit.cache (u : WinUnit) (cap : Nat) (r : Reply) : WinUnit :=
  { u with replies := (u.replies ++ [r]).drop (u.replies.length + 1 - cap) }

/-! ### Arrival -/

/-- An answer leaves for the issuer of a segment. -/
def State.answer (s : State) (g : Segment) (a : Answer) : State := s.emit (.answer g.node g.seq a)

/-- A duplicate is answered (R82, R302). -/
def State.answerDup (s : State) (t : Tgt) (g : Segment) : State :=
  let s1 := s.updFab (tgtNode t) (fun f => { f with dup := satInc f.dup })
  match g.op with
  | .put => s1.answer g ⟨rcOk, [], false, 0⟩
  | .get =>
    let r := s1.serveGet t g
    r.1.answer g r.2
  | _ =>
    match (s.unit t).replies.find? (fun r => r.node == g.node && r.seq == g.seq) with
    | some r => s1.answer g r.ans
    | none => s1.answer g ⟨rcAtomicUncertain, [], false, 0⟩

/-- The original of a duplicate is accepted and not yet answered (R300). -/
def WinUnit.waits (u : WinUnit) (g : Segment) : Bool := u.acc.any (fun a => !a.seg.sched && a.seg.node == g.node && a.seg.seq == g.seq)

/-- A segment is accepted (R226): at a memory it waits for its access; a register takes it at once. -/
def State.acceptSeg (s : State) (t : Tgt) (g : Segment) : State :=
  if segReg t then
    let r := s.serve t g
    if g.sched then r.1 else r.1.answer g r.2
  else
    let i := fld g.tag 15 8
    let w := (s.unit t).window i
    s.updUnit t (fun u => { u with acc := u.acc ++ [⟨i, w.gen, w.cnt, w.cmode, g⟩] })

/-- The offset lies in a register block that keeps windows. -/
def segBlock (t : Tgt) (off : Nat) : Bool :=
  match t with
  | .tile _ | .stack _ | .tileReg _ => true
  | .dieReg d => decide (240 ≤ d ∨ 0x10000 ≤ off ∧ off < 0x20000)
  | .hub => decide (hubBlock off ≠ 2 ^ 24)
  | .port _ => decide (portBlockPart off ≠ 31)

/-- A segment is rejected: the window's count rises (R67). -/
def State.rejectSeg (s : State) (t : Tgt) (g : Segment) : State :=
  if fld g.tag 15 8 < segCount t ∧ segBlock t g.off then
    s.updSegWin t g.off (fld g.tag 15 8) (fun w => { w with rej := satInc w.rej })
  else s

/-- The further tiles of its die to which the router delivers a copy of an operation aimed at a cell (R298). -/
def mateTgts (t : Tgt) (g : Segment) : List Tgt :=
  match t with
  | .tile i => ((bitsOf g.mates 16).filter (fun j => decide (j ≠ i % 16))).map (fun j => .tile (i / 16 * 16 + j))
  | .tileReg i => ((bitsOf g.mates 16).filter (fun j => decide (j ≠ i % 16))).map (fun j => .tileReg (i / 16 * 16 + j))
  | _ => []

/-- A segment whose number is fresh meets the checks at one target, and is accepted there or rejected with its answer (R67). -/
def State.landSeg (s : State) (t : Tgt) (g : Segment) : State :=
  match s.segCheck t g with
  | some c => (s.rejectSeg t g).answer g ⟨c, [], false, 0⟩
  | none => s.acceptSeg t g

/-- SEGMENT_ARRIVAL (R67, R68, R260, R298–R300). -/
def State.arriveSeg (s : State) (t : Tgt) (g : Segment) : State :=
  let n := tgtNode t
  if g.sched then
    match s.segCheck t g with
    | some _ => (s.rejectSeg t g).updNode n (fun x => { x with winRej := true })
    | none => s.acceptSeg t g
  else if g.issue + 1000000 < s.now then s.updFab n (fun f => { f with aged := satInc f.aged })
  else
    let m := ((s.node n).dup.get {} g.node.toNat).meet g.seq
    let put := fun (s : State) (d : DupMap) => s.updNode n (fun x => { x with dup := x.dup.put {} g.node.toNat d })
    match m.2 with
    | .older => s.updFab n (fun f => { f with seqold := satInc f.seqold })
    | .dup => (t :: mateTgts t g).foldl (fun s u =>
      if (s.unit u).waits g then s.updUnit u (fun x => { x with held := x.held ++ [g] }) else s.answerDup u g) s
    | .fresh =>
      let ms := mateTgts t g
      if (t :: ms).all (fun u => (s.segCheck u g).isSome) then (t :: ms).foldl (fun s u => s.landSeg u g) (put s m.1)
      else if s.segFull t g then
        (match t with
         | .dieReg d => s.updStack (d - 240) (fun x => { x with cmdqDrop := satInc x.cmdqDrop })
         | _ => s)
      else (t :: ms).foldl (fun s u => s.landSeg u g) (put s (m.1.accept g.seq))

/-- The segment can be one of R47–R49: a target of the panel, one 256-byte line, an atomic of 4 or 8 bytes. -/
def segOk (t : Tgt) (g : Segment) : Bool :=
  decide (1 ≤ segSize g) && decide (g.off % 256 + segSize g ≤ 256 ∨ opAtomic g.op) && (!opAtomic g.op || g.len == 4 || g.len == 8)
    && (match t with
        | .tile t => decide (t < 3840) && decide (g.off + segSize g ≤ 2 ^ 24)
        | .tileReg t => decide (t < 3840) && decide (g.off + segSize g ≤ 2 ^ 16)
        | .stack k => decide (k < 24) && decide (g.off + segSize g ≤ 2 ^ 37)
        | .dieReg d => decide (d < 264) && decide (g.off + segSize g ≤ 2 ^ 24)
        | .hub => decide (g.off + segSize g ≤ 2 ^ 24)
        | .port q => decide (q < 4) && decide (g.off + segSize g ≤ 2 ^ 24))

/-! ### Visibility -/

/-- The held duplicates of an answered segment get the same answer (R300, R302). -/
def State.answerHeld (s : State) (t : Tgt) (g : Segment) (l : List Segment) : State :=
  l.foldl (fun s h => if h.node = g.node ∧ h.seq = g.seq then s.answerDup t h else s) s

/-- SEGMENT_WRITE_VISIBLE (R70, R76, R77, R226): accepted segment `i` of a memory takes effect, its counter counts it, and it
is answered. -/
def State.segVisible (s : State) (t : Tgt) (i : Nat) : State :=
  match (s.unit t).acc[i]? with
  | none => s
  | some a =>
    let g := a.seg
    let r := (s.updUnit t (fun u => { u with acc := u.acc.eraseIdx i })).serve t g
    let counts := decide (a.cnt ≠ 0xFF) && (g.op == .get || decide (r.2.code = rcOk))
    let s1 := if counts then r.1.updUnit t (fun u => u.bump a.cnt.toNat (countOf a.cmode g)) else r.1
    let s2 := if opAtomic g.op then s1.updUnit t (fun u => u.cache (replyCap t) ⟨g.node, g.seq, r.2⟩) else s1
    let s3 := if g.sched then s2 else s2.answer g r.2
    let l := (s.unit t).held
    ((s3.updUnit t (fun u => { u with held := u.held.filter (fun h => !(h.node == g.node && h.seq == g.seq)) })).answerHeld t g l).settleUnit t

end Sys2Proof.Machine
end

