-- ==== Sys2Proof/Machine/CmdOps.lean ====
section
/-! DEFINITION. What the ports and hub firmware share over host commands: fetching and acceptance, turns, DMA, apertures, waits,
the reset of a partition (R378–R399). -/

namespace Sys2Proof.Machine

/-! ### Fields of a command -/

/-- Bytes `[lo, hi)` of a command as a number. -/
def cmdB (c : BitVec 512) (lo hi : Nat) : Nat := fld c (8 * hi - 1) (8 * lo)

/-- Opcodes that hub firmware runs (R393). -/
def cmdFw (opc : Nat) : Bool := decide (opc = 0x0F) || decide (0x10 ≤ opc ∧ opc ≤ 0x1D)

/-- Opcodes of the table (R393). -/
def cmdKnown (opc : Nat) : Bool := decide (1 ≤ opc ∧ opc ≤ 3) || cmdFw opc

/-- The byte ranges that an opcode's parameters use (R393). -/
def cmdUsed (opc : Nat) : List (Nat × Nat) :=
  match opc with
  | 0x01 => [(8, 12)]
  | 0x02 => [(8, 15), (16, 18), (18, 19), (24, 56)]
  | 0x03 => [(8, 12), (16, 22), (24, 28)]
  | 0x10 => [(8, 24)]
  | 0x13 => [(8, 23), (24, 26), (28, 32)]
  | 0x14 => [(8, 23), (24, 26), (28, 32)]
  | 0x15 => [(8, 10), (16, 23), (24, 26), (28, 32)]
  | 0x16 => [(8, 9)]
  | 0x17 => [(8, 32)]
  | 0x18 => [(8, 11)]
  | 0x1A => [(8, 11)]
  | 0x1B => [(8, 12)]
  | 0x1C => [(8, 9)]
  | 0x1D => [(8, 20)]
  | _ => []

/-- The reserved bytes and bits of a known opcode are 0 (check 1 of R391). -/
def cmdReserved (c : BitVec 512) : Bool :=
  let opc := fld c 7 0
  decide (fld c 15 9 = 0)
    && (!cmdKnown opc || (List.range 56).all (fun i => (cmdUsed opc).any (fun r => decide (r.1 ≤ 8 + i ∧ 8 + i < r.2)) || decide (cmdB c (8 + i) (9 + i) = 0)))
    && (decide (opc ≠ 3) || decide (fld c 95 89 = 0)) && (decide (opc ≠ 0x15) || decide (fld c 79 74 = 0))

/-- The native form of a VF-1 command (R399); `part` is what CM_PART becomes. An opcode of no row gives 0, which is reserved. -/
def cmdOfV1 (v : BitVec 512) (part q : Nat) : BitVec 512 :=
  let opc := match fld v 7 0 with
    | 1 => 1 | 2 => 2 | 3 => 3 | 4 => 0x10 | 5 => 0x11 | 6 => 0x12 | 7 => 0x13 | 8 => 0x14 | _ => 0
  let params := if opc = 2 then cmdB v 4 16 * 2 ^ 64 + cmdB v 16 32 * 2 ^ 192 else cmdB v 4 32 * 2 ^ 64
  BitVec.ofNat 512 (opc + fld v 15 8 * 2 ^ 8 + fld v 23 16 * 2 ^ 16 + part * 2 ^ 32 + q * 2 ^ 40 + 0xFFFF * 2 ^ 48 + params)

/-- A VF-1 command sets a byte that it must leave 0 (R399): byte 3, or for COUNT, which has no WAIT, one beyond the counter. -/
def cmdV1Bad (v : BitVec 512) : Bool := decide (fld v 31 24 ≠ 0) || (decide (fld v 7 0 = 3) && decide (fld v 255 56 ≠ 0))

/-- The partition that a function acts for: its own, or the panel's 31 for the physical function. -/
def State.fnPartOf (s : State) (f : Nat) : Nat := s.rd (fnPlace f) fnPart

/-- Partition `p` is confidential (R585). -/
def State.confPart (s : State) (p : Nat) : Bool := decide (p < 24) && decide (s.hrd (spConf p) = 1)

/-- A confidential partition does not take opcode `opc` of its own function (R586). -/
def State.confBar (s : State) (f opc : Nat) : Bool :=
  let p := s.fnPartOf f
  s.confPart p && !(opc == 0x0F || opc == 0x19 || opc == 0x11 || opc == 0x12) && (decide (s.hrd (spOwned p) = 0) || (s.fn f).tdisp != .run)

/-- The checks of R391, in their order, with those of R586; none means accepted. `v1bad` tells that a VF-1 command has a reserved byte set. -/
def State.cmdCheck (s : State) (f q : Nat) (c : BitVec 512) (v1bad : Bool) : Option W16 :=
  let p := fnPlace f
  let opc := fld c 7 0
  let part := cmdB c 4 5
  if v1bad || decide (cmdB c 5 6 ≠ q) || !cmdReserved c then some scBadParam
  else if !cmdKnown opc then some scBadOpcode
  else if (!isPf f && decide (0x1A ≤ opc)) || (if isPf f then decide (24 ≤ part ∧ part ≠ 31) || (s.confPart part && opc != 0x11 && opc != 0x12) else decide (s.fnPartOf f ≠ 31 ∧ part ≠ s.fnPartOf f)) then
    some scNotPermitted
  else if (s.fn f).tdisp == .error || (!isPf f && (decide (s.fnPartOf f = 31) || s.confBar f opc)) then some scBadState
  else if s.hub.cmds.any (fun d => d.is f q (BitVec.ofNat 16 (cmdB c 2 4))) then some scTagInUse
  else if cmdFw opc then
    (if !s.hub.score.fwUp || decide (s.hrd fwShed = 2) || decide (s.hrd fwHwm ≤ s.hrd fwBacklog) || decide (64 ≤ s.rd p fnFwcmds) then
      some scBusyRetry else none)
  else if opc = 3 ∧ bit c 88 ∧ 8 ≤ (s.part part).waits.length then some scBusyRetry
  else none

/-- Entries of a status ring in use (R388). -/
def State.statusUsed (s : State) (f q : Nat) : Nat :=
  let n := 2 ^ s.rd (fnPlace f) (qpSsz q)
  ((s.fn f).stTail.get 0 q % n + n - s.rd (fnPlace f) (qpShead q) % n) % n

/-- The status ring has room for another command (R388). -/
def State.statusRoom (s : State) (f q : Nat) : Bool :=
  let p := fnPlace f
  decide (2 * s.rd p (qpOutst q) + 2 ≤ 2 ^ s.rd p (qpSsz q) - s.statusUsed f q)

/-- The pair may fetch (R387–R389, R397, R403). -/
def State.mayFetch (s : State) (f q : Nat) : Bool :=
  let x := s.fn f
  decide (s.rd (fnPlace f) (qpEn q) = 1) && s.masters f && !x.dmaStop.get false q && decide (0 < x.visible.get 0 q)

/-- The size of an aperture of function `f`. -/
def aptSpan (f : Nat) : Nat := if isPf f then 2 ^ 32 else 2 ^ 30

/-- An APERTURE_MAP's parameters keep R383: an index below 16, a base in space 0, 1 or 2 of the partition, a multiple of 4 KiB, and a size of at
most the aperture's (assumption log 103). -/
def State.aptOk (s : State) (f part : Nat) (cmd : BitVec 512) : Bool :=
  let base : Pga := BitVec.ofNat 56 (cmdB cmd 16 23)
  let own := match decodePga base 1 (s.partStacks part).length with
    | some d => s.destInPart part d
    | none => false
  decide (cmdB cmd 8 9 < 16) && decide (4096 * cmdB cmd 28 32 ≤ aptSpan f) && decide (fld base 11 0 = 0) && decide (fld base 55 53 ≤ 2) && own

/-- From its acceptance, an APERTURE_UNMAP, or an APERTURE_MAP that replaces a mapping, has new accesses refused (R386); `mark` of the command
tells those made before. -/
def State.aptRefuse (s : State) (d : HostCmd) : State :=
  if d.opc = 0x16 ∨ d.opc = 0x15 ∧ (s.part d.part).formed ∧ s.aptOk d.fn d.part d.cmd then
    s.updFn d.fn (fun x => { x with apt := x.apt.put {} (cmdB d.cmd 8 9) {} })
  else s

/-- A command comes in (R390, R391, R480): its number is taken, and it is accepted or ends at once, in cocoon BAD_STATE. A command that hub firmware
runs is answered ACCEPTED (assumption log 56). -/
def State.takeCmd (s : State) (f q : Nat) (e : BitVec 512) : State :=
  let p := fnPlace f
  let n := 2 ^ s.rd p (qpCsz q)
  let vf1 := decide (s.rd p (qpFmt q) = 1)
  let c := if vf1 then cmdOfV1 e (s.fnPartOf f) q else e
  let s1 := ((s.wr p (qpChead q) ((s.rd p (qpChead q) + 1) % n)).wr p (qpStallSts q) 0).updFn f (fun x => { x with visible := x.visible.upd 0 q (· - 1) })
  let tag := BitVec.ofNat 16 (cmdB c 2 4)
  match (if s.hrd bootPhase = 3 then some scBadState else s.cmdCheck f q c (vf1 && cmdV1Bad e)) with
  | some code => s1.sendReply f q tag code true false (fld c 7 0) vf1 []
  | none =>
    let opc := fld c 7 0
    let d : HostCmd := { fn := f, qp := q, tag := tag, opc := opc, part := cmdB c 4 5, cmd := c, vf1 := vf1, fw := cmdFw opc, mark := (s.fn f).accNext }
    let s2 := ((s1.aptRefuse d).updHub (fun h => { h with cmds := h.cmds ++ [d] })).inc p (qpOutst q)
    if cmdFw opc then ((s2.inc p fnFwcmds).inc 264 fwBacklog).sendReply f q tag scAccepted false false opc vf1 [] else s2

/-! ### Turns -/

/-- The accepted command that is named, if it has not begun, its opcode is `opc`, and it is its turn: a firmware command
waits for every earlier one of its partition to begin (R392). -/
def State.turn (s : State) (f q : Nat) (tag : W16) (opc : Nat) : Option HostCmd :=
  match s.hub.cmds.find? (fun c => c.is f q tag) with
  | none => none
  | some c =>
    if c.begun || decide (c.opc ≠ opc) then none
    else if c.fw && (!s.hub.score.fwUp
        || (s.hub.cmds.takeWhile (fun d => !d.is f q tag)).any (fun d => d.fw && !d.begun && decide (d.part = c.part))) then none
    else some c

/-- A command begins, changed by `g`. -/
def State.begin (s : State) (c : HostCmd) (g : HostCmd → HostCmd) : State :=
  let s1 := s.updCmd c (fun d => { g d with begun := true })
  if c.fw then s1.dec 264 fwBacklog else s1

/-- A command of the port begins and waits: ACCEPTED goes out (R390). -/
def State.beginHw (s : State) (c : HostCmd) (g : HostCmd → HostCmd) : State :=
  let s1 := s.begin c g
  if c.mute then s1 else s1.sendReply c.fn c.qp c.tag scAccepted false false c.opc c.vf1 []

/-- CM_RSLOT is a slot or none (R390). -/
def HostCmd.slotOk (c : HostCmd) : Bool := decide (cmdB c.cmd 6 8 < 64 ∨ cmdB c.cmd 6 8 = 0xFFFF)

/-- What stops a command of a partition before its own rules: a bad result slot, no partition, one not formed. -/
def State.partBar (s : State) (c : HostCmd) : Option W16 :=
  if !c.slotOk || decide (24 ≤ c.part) then some scBadParam
  else if !(s.part c.part).formed then some scBadState
  else none

/-! ### DMA and DOORBELL -/

/-- PGA, tag and length of a command that moves bytes. -/
def HostCmd.pga (c : HostCmd) : Pga := if c.opc = 2 then BitVec.ofNat 56 (cmdB c.cmd 8 15) else BitVec.ofNat 56 (cmdB c.cmd 16 23)
/-- Its tag. -/
def HostCmd.wtag (c : HostCmd) : W16 := if c.opc = 2 then BitVec.ofNat 16 (cmdB c.cmd 16 18) else BitVec.ofNat 16 (cmdB c.cmd 24 26)
/-- Its length. -/
def HostCmd.len (c : HostCmd) : Nat := if c.opc = 2 then cmdB c.cmd 18 19 else cmdB c.cmd 28 32

/-- The segment of an operation at position `pos` (R49, R57): target, offset, length. -/
def segAt (d : Dest) (snodes : List Nat) (pos len : Nat) : Tgt × Nat × Nat :=
  match d with
  | .direct t off => (t, off + pos, min (256 - (off + pos) % 256) (len - pos))
  | .striped a => (.stack (stripe snodes (a + pos)).1, (stripe snodes (a + pos)).2, min (256 - (a + pos) % 256) (len - pos))

/-- The data of a command that ends with a remote failure (R393). -/
def HostCmd.failData (c : HostCmd) (code : BitVec 4) : List Byte :=
  if c.opc = 2 then bytesLE 1 code.toNat else bytesLE 4 c.bytes ++ bytesLE 1 code.toNat

/-- A GET segment. -/
def getSeg (tag : W16) (off len : Nat) : Segment := { putSeg tag off [] false with op := .get, len := len }

/-- The issuer of a command's segments: the hub, or the function's port die (R393). -/
def HostCmd.issuer (c : HostCmd) : Nat := if c.opc = 2 then (if c.fn < 25 then 265 else 267) else hubNode

/-- The next segment of a command that moves bytes goes out; one at a time, so that it ends at its first failing segment
(R393, R397). A command with nothing left ends OK. -/
def State.moveNext (s : State) (c : HostCmd) : State :=
  let st := s.partStacks c.part
  if c.len ≤ c.bytes then s.endCmd c scOk (if c.opc = 2 then [] else bytesLE 4 c.bytes)
  else match decodePga c.pga c.len st.length with
  | none => s.endCmd c scRemoteFail (c.failData rcAddrFault)
  | some d =>
    if !s.destInPart c.part d then s.endCmd c scRemoteFail (c.failData rcPartFault)
    else
      let g := segAt d st c.bytes c.len
      let seg := if c.opc = 0x14 then getSeg c.wtag g.2.1 g.2.2 else putSeg c.wtag g.2.1 ((c.data.drop c.bytes).take g.2.2) false
      s.issueSeg c.issuer (.host c.part) g.1 seg (.host c.fn c.qp c.tag.toNat c.bytes)

/-- An answer to a command's segment (R393, R397). -/
def State.moveAnswer (s : State) (f q tag pos len : Nat) (a : Answer) : State :=
  match s.begunCmd f q (BitVec.ofNat 16 tag) with
  | none => s
  | some c =>
    if a.code ≠ rcOk then s.endCmd c scRemoteFail (c.failData a.code)
    else
      let c' := { c with bytes := pos + len }
      let s1 := s.updCmd c (fun d => { d with bytes := pos + len })
      let s2 := if c.opc = 0x14 then s1.hostOut f (cmdB c.cmd 8 16 + pos) (a.data.take len) else s1
      s2.moveNext c'

/-! ### Apertures (R383–R386) -/

/-- A failed access is recorded and counted (R384, R404). -/
def State.aptFail (s : State) (f apt off : Nat) (write : Bool) (code : BitVec 4) : State :=
  let p := fnPlace f
  let s1 := s.sat p fnAptFails
  if s.rd p apterrV = 1 then s1
  else (((((s1.wr p apterrV 1).wr p apterrCode code.toNat).wr p apterrApt apt).wr p apterrWr (b2n write)).wr p apterrOff off)

/-- Reads of FN_APT_FENCE whose earlier writes are all answered complete with FN_APT_FAILS (R385). -/
def State.aptFences (s : State) (f : Nat) : State :=
  let x := s.fn f
  let ok := fun (k : Nat) => x.accs.all (fun a => !(a.write && decide (a.id < k)))
  (x.fences.filter ok).foldl (fun s _ => s.emit (.completion f true (bytesLE 4 (s.rd (fnPlace f) fnAptFails))))
    (s.updFn f (fun x => { x with fences := x.fences.filter (fun k => !ok k) }))

/-- An access with no segment left ends (R384): a failed one is recorded, and a read completes with its bytes or with 0xFF. -/
def State.aptEnd (s : State) (f : Nat) (a : AptAcc) : State :=
  let s1 := s.updFn f (fun x => { x with accs := x.accs.filter (fun b => b.id != a.id) })
  let s2 := match a.fail with | some c => s1.aptFail f a.apt a.off a.write c | none => s1
  let s3 := if a.write then s2
    else s2.emit (.completion f true (if a.fail.isSome then List.replicate a.len 0xFF else a.data.getList 0 0 a.len))
  s3.aptFences f

/-- An access to BAR4 offset `off`, whose bytes `bs` are written, or `len` are read (R383, R384). -/
def State.aptAccess (s : State) (f off len : Nat) (write : Bool) (bs : List Byte) : State :=
  let a := off / aptSpan f
  let x := off % aptSpan f
  let m := (s.fn f).apt.get {} a
  let st := s.partStacks m.part
  let acc : AptAcc := { id := (s.fn f).accNext, apt := a, off := x, write := write, left := 0, fail := none, len := len, data := [] }
  let s1 := s.updFn f (fun y => { y with accNext := y.accNext + 1 })
  let fail := fun (c : BitVec 4) => s1.aptEnd f { acc with fail := some c }
  if !m.mapped || decide (4096 * m.size4k < x + len) then fail rcAddrFault
  else if !bit m.rights (b2n write) then fail rcNoRight
  else match decodePga (m.base + BitVec.ofNat 56 x) len st.length with
  | none => fail rcAddrFault
  | some d =>
    if !s.destInPart m.part d then fail rcPartFault
    else
      let gs := d.segments st len
      let n := if f < 25 then 265 else 267
      let s2 := s1.updFn f (fun y => { y with accs := y.accs ++ [{ acc with left := gs.length }] })
      gs.foldl (fun s g =>
        let seg := if write then putSeg m.tag g.2.1 ((bs.drop g.2.2.1).take g.2.2.2) false else getSeg m.tag g.2.1 g.2.2.2
        s.issueSeg n (.host m.part) g.1 seg (.apt f acc.id g.2.2.1)) s2

/-- An answer to a segment of an access (R384). -/
def State.aptAnswer (s : State) (f id pos : Nat) (a : Answer) : State :=
  match (s.fn f).accs.find? (fun b => b.id == id) with
  | none => s
  | some b =>
    let b' := { b with
      left := b.left - 1
      fail := if b.fail.isNone ∧ a.code ≠ rcOk then some a.code else b.fail
      data := if b.write then b.data else b.data.putList 0 pos a.data }
    if b'.left = 0 then s.aptEnd f b'
    else s.updFn f (fun x => { x with accs := x.accs.map (fun d => if d.id = id then b' else d) })

/-! ### Windows that the host opens and closes -/

/-- The memory that a cell names in WINDOW_OPEN, WINDOW_CLOSE and a plain QUERY_COUNTER: a tile or a stack node of partition
`p` (R393). -/
def State.hostCell (s : State) (p : Nat) (c : W16) : Option Tgt :=
  if cellLevel c = 0 ∧ cellIndex c < 3840 ∧ s.inPart p (.tile (cellIndex c)) then some (.tile (cellIndex c))
  else if cellLevel c = 1 ∧ 240 ≤ cellIndex c ∧ cellIndex c < 264 ∧ s.inPart p (.stack (cellIndex c - 240)) then some (.stack (cellIndex c - 240))
  else none

/-- The indices, counters and size in units of 64 B of a memory. -/
def memShape (t : Tgt) : Nat × Nat × Nat :=
  match t with
  | .tile _ => (64, 32, 262144)
  | _ => (256, 64, stackTop64)

/-- WINDOW_CLOSE commands whose window has closed end (R70, R393). -/
def State.hostCloses (s : State) : State :=
  (s.hub.cmds.filter (fun c => c.opc == 0x18 && c.begun)).foldl (fun s c =>
    match s.hostCell c.part (BitVec.ofNat 16 (cmdB c.cmd 8 10)) with
    | none => s.endCmd c scOk []
    | some t =>
      if ((s.unit t).window (cmdB c.cmd 10 11)).pend.any (fun p => p.dest == .host c.fn c.qp c.tag.toNat) then s
      else s.endCmd c scOk []) s

/-! ### Waits on counters (R88, R393) -/

/-- The members of a cell in partition `p`: its tiles and stack nodes (R64). -/
def State.members (s : State) (p : Nat) (c : W16) : List Tgt :=
  ((s.partTiles p).filter (fun t => s.cellInside p c (tileCell t))).map Tgt.tile
    ++ ((s.partStacks p).filter (fun k => s.cellInside p c (nodeCell (stackNode k)))).map Tgt.stack

/-- Completion counter `k` of a cell (R86): the sum over its members. -/
def State.cellCcnt (s : State) (p : Nat) (c : W16) (k : Nat) : Nat := (s.members p c).foldl (fun a t => a + ((s.unit t).ccnt k).val.toNat) 0

/-- Telemetry of a cell (R86): the sum and the maximum of a counter over its members. -/
def State.cellTel (s : State) (p : Nat) (c : W16) (f : Tgt → Nat) : Nat × Nat :=
  (s.members p c).foldl (fun a t => (a.1 + f t, max a.2 (f t))) (0, 0)

/-- The barrier channel of a cell (R86): the program channel whose domain is the cell's tiles. -/
def State.barrierCh (s : State) (p : Nat) (l : List Tgt) : Option Nat :=
  (List.range 16).find? (fun ch => l.any (fun t => match t with | .tile _ => true | _ => false)
    && (s.partTiles p).all (fun t => s.onChannel t ch == l.contains (.tile t)))

/-- What hub firmware and the ports notice after counters rise and closes end. -/
def State.hostPoll (s : State) (p : Nat) : State := (s.hostWaits p).hostCloses

/-! ### The reset of a partition (R74, R214, R396, R416, R424, R445, R446) -/

/-- A partition without an image: EMPTY (R396). -/
def Part.blank (x : Part) : Part :=
  { x with
    img := none, variant := 0, wbs := {}, ckpt := {}, waits := []
    sch := { x.sch with state := .empty, why := 0 } }

/-- The groups of partition `p` on every rail dissolved, the collectives ended. -/
def State.dropGroups (s : State) (p : Nat) : State :=
  [1, 2, 3].foldl (fun s q => (List.range 64).foldl (fun s g =>
    if s.rd (265 + q) (grPart g) = p ∧ s.rd (265 + q) (grState g) ≠ 0 then
      (s.updPort q (fun x => { x with groups := x.groups.put {} g {} })).wr (265 + q) (grState g) 0
    else s) s) s

/-- A partition leaves its twin (R553). -/
def State.untwin (s : State) (p : Nat) : State :=
  (s.pair p).foldl (fun s q => match (s.part q).lead0 with
    | none => s
    | some l => (s.updNode (s.part q).root (fun n => { n with sync := { n.sync with lead := l } })).updPart q (fun x => { x with
        lead0 := none, sch := { x.sch with twinOn := false, twinPart := 0x1F } })) s

/-- The reset of partition `p`; `keep` names a command that does not end ABORTED. -/
def State.resetPart (s : State) (p : Nat) (keep : HostCmd → Bool) : State :=
  let s1 := (((s.endImage p).partCloseAll p true).partTileReset p).unbindKeys p
  let s2 := ((s1.connsError p).abortCmds p keep).unmapPart p
  (s2.updPart p Part.blank).updHub (fun h => { h with molt := h.molt.put {} p {} })

end Sys2Proof.Machine
end

