-- ==== Sys2Proof/Machine/PortOps.lean ====
section
/-! DEFINITION. What an Ethernet port die does for every packet and every work request: ports, counters of connections, sending
and retransmission, errors, local accesses (R417–R434). -/

namespace Sys2Proof.Machine

/-! ### Ports and modes (R417) -/

/-- The port rate of a quad mode in Mb/s. -/
def modeRate (m : Nat) : Nat :=
  match m with
  | 1 => 800000 | 2 | 3 => 400000 | 4 | 5 | 6 => 200000 | 7 | 8 => 100000 | _ => 0

/-- The lanes of a quad that its port `j`, 0 or 1, uses in a mode. -/
def modeLanes (m j : Nat) : List Nat :=
  match m, j with
  | 1, 0 | 3, 0 | 6, 0 => [0, 1, 2, 3]
  | 2, 0 | 5, 0 | 8, 0 => [0, 1]
  | 2, 1 | 5, 1 | 8, 1 => [2, 3]
  | 4, 0 | 7, 0 => [0]
  | 4, 1 | 7, 1 => [2]
  | _, _ => []

/-- Mode of the quad that port `p` of port die `q` lies in, as it trained last: QMODE is applied at a retrain. -/
def State.portMode (s : State) (q p : Nat) : Nat := (s.port q).modes.get 0 (p / 2)
/-- QMODE of a quad is applied. -/
def State.applyMode (s : State) (q quad : Nat) : State :=
  s.updPort q (fun x => { x with modes := x.modes.put 0 quad (s.rd (265 + q) (qmode quad)) })
/-- Port `p` is configured (R431). -/
def State.portOn (s : State) (q p : Nat) : Bool := modeLanes (s.portMode q p) (p % 2) != []
/-- Port `p` is UP. -/
def State.portUp (s : State) (q p : Nat) : Bool := s.rd (265 + q) (ptState p) == 2
/-- A port changes state; ETH_PORTS_UP follows, and leaving UP counts a flap. -/
def State.setPort (s : State) (q p st : Nat) : State :=
  let n := 265 + q
  let s1 := if s.portUp q p ∧ st ≠ 2 then s.sat n (ptFlaps p) else s
  let w := s.rd n ethPortsUp
  let w' := if w.testBit p then (if st = 2 then w else w - 2 ^ p) else if st = 2 then w + 2 ^ p else w
  (s1.wr n (ptState p) st).wr n ethPortsUp w'

/-- The MAC address of port `p` of port die `q` (R419): the fused base, plus 8 for each die before it in the order PD-E, PD-S, PD-W. -/
def State.portMac (s : State) (q p : Nat) : BitVec 48 := s.hub.fuses.mac + BitVec.ofNat 48 (8 * (q - 1) + p)

/-- The IP addresses of port `p` of port die `q`: those that the layout gives formed partitions there (R419, R591). -/
def State.portAddrs (s : State) (q p : Nat) : List (BitVec 128) :=
  (s.hub.rot.addrs.filter (fun a => decide (fld a 15 8 = q) && decide (fld a 23 16 = p) && (s.part (fld a 7 0)).formed)).map
    (fun a => BitVec.ofNat 128 (fld a 191 64))

/-! ### Connections -/

/-- Connection `c` of port die `q`. -/
def State.conn (s : State) (q c : Nat) : Conn := (s.port q).conns.get {} c
/-- It changed. -/
def State.updConn (s : State) (q c : Nat) (f : Conn → Conn) : State := s.updPort q (fun x => { x with conns := x.conns.upd {} c f })
/-- Connection `c` runs UET. -/
def State.connUet (s : State) (q c : Nat) : Bool := s.rd (265 + q) (cnUet c) == 1
/-- Connection `c` is OPEN. -/
def State.connOpen (s : State) (q c : Nat) : Bool := s.rd (265 + q) (cnState c) == 2

/-- Path MTU in bytes (R427, R431). -/
def Conn.mtuBytes (x : Conn) : Nat := if x.mtu = 0 then 1024 else if x.mtu = 1 then 2048 else 4096

/-- The port on which connection `c` sends next: RoCEv2 has one, UET steps through those of CN_PORTS that are UP (R434). -/
def State.txPort (s : State) (q c : Nat) : Option Nat :=
  let m := s.rd (265 + q) (cnPorts c)
  let k := (s.conn q c).nextPort
  ((List.range 8).map (fun i => (k + i) % 8)).find? (fun p => m.testBit p && s.portUp q p)

/-- The endpoint ID of connection `c` of port die `q` (R425). -/
def State.endpointId (s : State) (q c : Nat) : W64 :=
  BitVec.ofNat 64 (c + q * 2 ^ 20 + s.rd (265 + q) (cnPart c) * 2 ^ 24 + s.hub.rot.panelTag.toNat * 2 ^ 32)

/-- The 72 bytes that both ends of connection `c` derive for epoch `e` (R425). -/
def State.connOkm (s : State) (q c e : Nat) : List Byte :=
  let x := s.conn q c
  let a := (s.endpointId q c).toNat
  let b := x.peerId.toNat
  let nk := (s.hub.rot.owner.get {} (s.rd (265 + q) (cnPart c))).nk.get 0 x.nk
  Config.hkdf384 (bytesLE 32 nk.toNat) (List.replicate 48 0)
    ([0x41, 0x5A, 0x34, 0x4E] ++ bytesLE 4 e ++ bytesLE 8 (min a b) ++ bytesLE 8 (max a b) ++ bytesLE 8 x.nonce.toNat) 72

/-- The key and the salt of connection `c` in epoch `e` (R425): of what it sends, or of what it receives. -/
def State.connKey (s : State) (q c e : Nat) (sends : Bool) : List Byte × List Byte :=
  let okm := s.connOkm q c e
  let i := b2n (decide ((s.endpointId q c).toNat < (s.conn q c).peerId.toNat) != sends)
  ((okm.drop (32 * i)).take 32, (okm.drop (64 + 4 * i)).take 4)

/-- The seal header of the packet with transmit counter `ctr` (R426). -/
def sealHeader (ctr : Nat) : BitVec 96 := BitVec.ofNat 96 (1 + ctr / 2 ^ 32 % 16 * 16 + ctr % 2 ^ 64 * 2 ^ 32)

/-- The AES-GCM nonce of a sealed packet (R426): the direction's salt, then the counter. -/
def State.sealNonce (s : State) (q c ctr : Nat) (sends : Bool) : List Byte := (s.connKey q c (ctr / 2 ^ 32) sends).2 ++ bytesLE 8 ctr

/-- A packet leaves on the connection, if a port of it is UP: the transmit counter and epoch advance (R426, R434). The port
is answered. -/
def State.sendOn (s : State) (q c psn : Nat) (b : PktBody) : State × Nat :=
  let n := 265 + q
  match s.txPort q c with
  | none => (s, 8)
  | some p =>
    let ctr := s.rd n (cnTxctrLo c) + s.rd n (cnTxctrHi c) * 2 ^ 32
    let sec := decide (s.rd n (ptMacsec p) = 1)
    let pn := (s.port q).msTx.get 1 p
    let x := s.conn q c
    let s1 := ((s.wr n (cnTxctrLo c) ((ctr + 1) % 2 ^ 32)).wr n (cnTxctrHi c) ((ctr + 1) / 2 ^ 32)).wr n (cnEpoch c) ((ctr + 1) / 2 ^ 32 % 16)
    let s2 := if sec then s1.updPort q (fun y => { y with msTx := y.msTx.put 1 p (pn + 1) }) else s1
    ((s2.updConn q c (fun y => { y with
      nextPort := (p + 1) % 8
      entropy := y.entropy + 1 })).emit (.packet q p c psn ctr x.entropy (if sec then some pn else none) b), p)

/-- A packet that is not retransmitted: an acknowledgement, a reply, a keepalive. -/
def State.sendOnce (s : State) (q c psn : Nat) (b : PktBody) : State := (s.sendOn q c psn b).1

/-- Packets that a request's sequence numbers cover: a RoCEv2 READ takes one for each packet of its reply. -/
def reqPsns (mtu : Nat) : PktBody → Nat
  | .req r => if r.op = .get then max 1 (ceilDiv r.len mtu) else 1
  | _ => 1

/-- A packet that stays outstanding until it is acknowledged (R434). -/
def State.sendPkt (s : State) (q c : Nat) (b : PktBody) : State :=
  let psn := (s.conn q c).txPsn
  let n := if s.connUet q c then 1 else reqPsns (s.conn q c).mtuBytes b
  let r := (s.updConn q c (fun x => { x with txPsn := (psn + n) % 2 ^ 24 })).sendOn q c psn b
  r.1.updConn q c (fun x => { x with unacked := x.unacked ++ [⟨psn, s.now, 0, r.2, b⟩] })

/-- The outstanding packets that `which` picks go out again, oldest first; CN_RETX counts them (R434). -/
def State.resend (s : State) (q c : Nat) (which : TxPkt → Bool) : State :=
  ((s.conn q c).unacked.filter which).foldl (fun s t =>
    let r := (s.sat (265 + q) (cnRetx c)).sendOn q c t.psn t.body
    r.1.updConn q c (fun x => { x with
      unacked := x.unacked.map (fun u => if u.psn = t.psn then { u with at_ := s.now, tries := u.tries + 1, port := r.2 } else u) })) s

/-! ### Work requests (R432, R433) -/

/-- Fields of a work request. -/
def wrOp (w : BitVec 512) : Nat := fld w 3 0
def wrConn (w : BitVec 512) : Nat := fld w 23 12
def wrLen (w : BitVec 512) : Nat := if 3 ≤ wrOp w then (if bit w 4 then 8 else 4) else fld w 224 200

/-- Work request `i` changed. -/
def State.updWr (s : State) (q i : Nat) (f : WorkReq → WorkReq) : State :=
  s.updPort q (fun x => { x with wrs := x.wrs.map (fun r => if r.id = i then f r else r) })

/-- A work request ends with a status, the first it gets (R433). -/
def State.wrEnd (s : State) (q i st : Nat) (code : BitVec 4) : State :=
  s.updWr q i (fun r => if r.fate.isSome then r else { r with fate := some (st, code) })

/-- CR_STATUS that an error of CN_ERRWHY gives the first work request (R433); a cause of the receiving side has none, so the
request ends FLUSHED (assumption log 58). -/
def causeStatus (why : Nat) : Nat := match why with | 1 => 2 | 2 => 1 | 3 => 6 | _ => 4

/-- The first of the work requests of connection `c` ends with `first`, every later one FLUSHED (R433); those that wait in a
queue are taken for it. -/
def State.flushConn (s : State) (q c first : Nat) : State :=
  let x := s.port q
  let waiting := x.blk.flatMap (fun kv => (kv.2.wrq.filter (fun w => wrConn w == c)).map (fun w => (kv.1, w)))
  let new := waiting.zipIdx.map (fun e => ({ id := x.next + e.2, part := e.1.1, w := e.1.2 } : WorkReq))
  let s1 := s.updPort q (fun x => { x with
    blk := Table.mapListed {} x.blk (fun _ b => { b with wrq := b.wrq.filter (fun w => wrConn w != c) })
    wrs := x.wrs ++ new, next := x.next + new.length })
  let s2 := new.foldl (fun s _ => s.sat (265 + q) (cnWrOutst c)) s1
  (((s2.port q).wrs.filter (fun r => wrConn r.w == c && r.fate.isNone)).zipIdx).foldl
    (fun s e => s.wrEnd q e.1.id (if e.2 = 0 then first else 4) 0) s2

/-- A connection enters ERROR (R430, R433–R435). -/
def State.connError (s : State) (q c why : Nat) (code : BitVec 4) : State :=
  let n := 265 + q
  if s.rd n (cnState c) ≠ 1 ∧ s.rd n (cnState c) ≠ 2 then s
  else
    let s1 := ((s.wr n (cnState c) 3).wr n (cnErrwhy c) why).wr n (cnRcode c) code.toNat
    (s1.updConn q c (fun x => { x with unacked := [] })).flushConn q c (causeStatus why)

/-! ### Keys (R422–R424, R432) -/

/-- The base PGA of key `k`. -/
def State.tkPga (s : State) (k : Nat) : Nat := s.rd tkPlace (tkPgaLo k) + s.rd tkPlace (tkPgaHi k) * 2 ^ 32
/-- The bytes of its range. -/
def State.tkLen (s : State) (k : Nat) : Nat := 64 * s.rd tkPlace (tkLen64 k)
/-- Its window's tag. -/
def State.tkTag (s : State) (k : Nat) : W16 := BitVec.ofNat 16 (s.rd tkPlace (Machine.tkTag k))

/-- Key `k` is bound for partition `p`, and no unbind has been accepted (R424). -/
def State.keyLive (s : State) (k p : Nat) : Bool :=
  decide (k < 4096) && s.rd tkPlace (tkOwner k) == p && s.rd tkPlace (tkBound k) == 1
    && [1, 2, 3].all (fun q => (s.port q).blk.all (fun kv => match kv.2.unbinding with
      | some c => fld c 107 96 != k | none => true))

/-- Local key `k` covers `len` bytes at a PGA with the rights `need` (R432). -/
def State.localKey (s : State) (p k a len need : Nat) : Bool :=
  s.keyLive k p && s.rd tkPlace (tkLocal k) == 1 && decide (s.rd tkPlace (tkRights k) &&& need = need)
    && decide (s.tkPga k ≤ a) && decide (a + len ≤ s.tkPga k + s.tkLen k)

/-- GET segments of a local range go out for partition `p`; how many. -/
def State.locGet (s : State) (q p : Nat) (tag : W16) (a len : Nat) (why : Nat → IssWhy) : State × Nat :=
  match decodePga (BitVec.ofNat 56 a) len (s.partStacks p).length with
  | none => (s, 0)
  | some d =>
    let gs := d.segments (s.partStacks p) len
    (gs.foldl (fun s g => s.issueSeg (265 + q) (.key p) g.1 (getSeg tag g.2.1 g.2.2.2) (why g.2.2.1)) s, gs.length)

/-- PUT segments of local bytes go out for partition `p`; how many. -/
def State.locPut (s : State) (q p : Nat) (tag : W16) (a : Nat) (bs : List Byte) (why : Nat → IssWhy) : State × Nat :=
  match decodePga (BitVec.ofNat 56 a) bs.length (s.partStacks p).length with
  | none => (s, 0)
  | some d =>
    let gs := d.segments (s.partStacks p) bs.length
    (gs.foldl (fun s g => s.issueSeg (265 + q) (.key p) g.1 (putSeg tag g.2.1 ((bs.drop g.2.2.1).take g.2.2.2) false) (why g.2.2.1)) s, gs.length)

/-- A molt pauses the partition's traffic (R424). -/
def State.moltPaused (s : State) (p : Nat) : Bool := s.hrd (fpMolting p) == 1

/-! ### Work requests under way -/

/-- Atomics and reads of connection `c` that are on the wire; at most 16, or 64 under UET (R427). -/
def State.wrSlots (s : State) (q c : Nat) : Bool :=
  let l := (s.port q).wrs.filter (fun r => wrConn r.w == c && r.sent && r.fate.isNone)
  let rd := (l.filter (fun r => wrOp r.w == 2)).length
  let at_ := (l.filter (fun r => decide (3 ≤ wrOp r.w))).length
  if s.connUet q c then decide (rd + at_ < 64) else decide (rd < 16) && decide (at_ < 16)

/-- The packets of a work request (R432): a WRITE's bytes by path MTU, one for a READ or an atomic. -/
def WorkReq.packets (r : WorkReq) (mtu : Nat) : List PeerReq :=
  let w := r.w
  let key : W32 := BitVec.ofNat 32 (fld w 63 32)
  let off := fld w 127 64
  let rd := fun (o n : Nat) => r.data.getList 0 o n
  match wrOp w with
  | 1 =>
    let n := max 1 (ceilDiv (wrLen w) mtu)
    (List.range n).map (fun i => ⟨.put, key, off + i * mtu, 0, rd (i * mtu) (min mtu (wrLen w - i * mtu)), 0, 0, decide (i + 1 = n)⟩)
  | 2 => [⟨.get, key, off, wrLen w, [], 0, 0, true⟩]
  | o => [⟨if o = 3 then .fadd else if o = 4 then .cswap else .for_, key, off, wrLen w, [],
      BitVec.ofNat 64 (ofLE (rd 0 (wrLen w))), BitVec.ofNat 64 (ofLE (rd 8 (wrLen w))), true⟩]

/-- A work request's local accesses are over: it no longer counts in TK_INFL. -/
def State.wrKeyDone (s : State) (q : Nat) (r : WorkReq) : State :=
  if r.uses then (s.dec tkPlace (tkInfl (fld r.w 195 184))).updWr q r.id (fun r => { r with uses := false }) else s

/-- The packets of a work request go out; a WRITE has read its source. -/
def State.wrSend (s : State) (q : Nat) (r : WorkReq) : State :=
  let c := wrConn r.w
  let ps := r.packets (s.conn q c).mtuBytes
  let psn := (s.conn q c).txPsn
  let s1 := ps.foldl (fun s p => s.sendPkt q c (.req p)) s
  let s2 := s1.updWr q r.id (fun r => { r with sent := true, pend := (List.range ps.length).map (fun i => (psn + i) % 2 ^ 24) })
  if wrOp r.w = 1 then s2.wrKeyDone q r else s2

/-- The requests of a connection go on the wire in order: the first that is not ready holds the later ones (R432). -/
def State.wrPumpList (s : State) (q c : Nat) : List WorkReq → State
  | [] => s
  | r :: rest =>
    if r.sent || r.fate.isSome then s.wrPumpList q c rest
    else if r.open_ ≠ 0 ∨ (2 ≤ wrOp r.w ∧ !s.wrSlots q c) then s
    else State.wrPumpList (s.wrSend q r) q c rest

/-- Work requests of connection `c` that can go, go. -/
def State.wrPump (s : State) (q c : Nat) : State :=
  if s.connOpen q c then s.wrPumpList q c ((s.port q).wrs.filter (fun r => wrConn r.w == c)) else s

/-- A work request of partition `p` is taken: checked, then its local source is read (R432, R433). -/
def State.wrTake (s : State) (q p : Nat) (w : BitVec 512) (clx : Option Nat) : State :=
  let c := wrConn w
  let i := (s.port q).next
  let a := fld w 183 128
  let k := fld w 195 184
  let op := wrOp w
  let need := if op = 1 then 1 else if op = 2 then 2 else 3
  let uet := s.connUet q c
  let r : WorkReq := { id := i, part := p, w := w, clx := clx }
  let s1 := (s.updPort q (fun x => { x with wrs := x.wrs ++ [r], next := x.next + 1 })).sat (265 + q) (cnWrOutst c)
  let good := decide (1 ≤ op ∧ op ≤ 5) && decide (fld w 11 5 = 0 ∧ fld w 31 24 = 0 ∧ fld w 231 225 = 0 ∧ fld w 511 336 = 0)
    && decide (fld w 235 232 = 0 ∨ clx.isSome) && decide (3 ≤ op ∨ fld w 224 200 ≤ 2 ^ 24)
    && (op < 3 || bit w 4 || uet) && (op != 5 || uet)
    && s.connOpen q c && s.rd (265 + q) (cnPart c) == p
    && s.localKey p k a (if 3 ≤ op then 24 else fld w 224 200) need
  if !good then s1.wrEnd q i 5 0
  else
    let g := if op = 2 then (s1, 0) else s1.locGet q p (s.tkTag k) a (if op = 1 then wrLen w else 16) (fun pos => .wr i pos)
    ((g.1.inc tkPlace (tkInfl k)).updWr q i (fun r => { r with open_ := g.2, uses := true })).wrPump q c

/-- The completion record (R433). -/
def crBytes (w : BitVec 512) (st : Nat) (code : BitVec 4) (bytes : Nat) : List Byte :=
  bytesLE 16 (fld w 335 304 + st * 2 ^ 32 + code.toNat * 2 ^ 40 + bytes * 2 ^ 64)

/-- An answer to a local access of a work request: source bytes come in, or landed bytes are counted (R432). -/
def State.wrAnswer (s : State) (q i pos : Nat) (g : Segment) (a : Answer) : State :=
  match (s.port q).wrs.find? (fun r => r.id == i) with
  | none => s
  | some r =>
    let c := wrConn r.w
    let s1 := s.updWr q i (fun r => { r with open_ := r.open_ - 1 })
    if a.code ≠ rcOk ∨ a.poison then s1.wrEnd q i 3 (if a.code = rcOk then rcPoisoned else a.code)
    else if g.op = .get then (s1.updWr q i (fun r => { r with data := r.data.putList 0 pos a.data })).wrPump q c
    else
      let got := r.got + (if 3 ≤ wrOp r.w then 0 else g.data.length)
      let s2 := s1.updWr q i (fun r => { r with got := got })
      if r.open_ = 1 ∧ r.pend = [] then s2.wrEnd q i 0 0 else s2

/-- Packets of connection `c` are acknowledged: a WRITE with none left is OK (R433). Under RoCEv2 an acknowledgement covers
every older packet. -/
def State.acked (s : State) (q c : Nat) (psns : List Nat) : State :=
  let u := (s.conn q c).unacked
  let done := if s.connUet q c then psns
    else match psns with
      | [] => []
      | n :: _ => if u.any (fun t => t.psn == n) then (u.takeWhile (fun t => t.psn != n)).map (·.psn) ++ [n] else []
  let bytes := fun (l : List TxPkt) => (l.map (fun t => match t.body with | .req r => r.data.length | _ => 0)).sum
  let s1 := s.updConn q c (fun x => { x with
    tries := if done.any (fun d => u.any (fun t => t.psn == d)) then 0 else x.tries
    unacked := x.unacked.filter (fun t => !done.contains t.psn) })
  ((s1.port q).wrs.filter (fun r => wrConn r.w == c && wrOp r.w == 1 && r.sent && r.fate.isNone)).foldl (fun s r =>
    let now : List Nat := r.pend.filter (fun d => done.contains d)
    if now.isEmpty then s
    else
      let s2 := s.updWr q r.id (fun r => { r with
        pend := r.pend.filter (fun d => !done.contains d), got := r.got + bytes (u.filter (fun t => now.contains t.psn)) })
      if now.length = r.pend.length then s2.wrEnd q r.id 0 0 else s2) s1

/-- Bytes come back for the READ whose request had number `psn` (R432): they land at once. -/
def State.readBack (s : State) (q c psn pos : Nat) (bs : List Byte) : State :=
  match (s.port q).wrs.find? (fun r => wrConn r.w == c && wrOp r.w == 2 && r.pend.contains psn && r.fate.isNone) with
  | none => s
  | some r =>
    let last := decide (wrLen r.w ≤ pos + bs.length)
    let g := s.locPut q r.part (s.tkTag (fld r.w 195 184)) (fld r.w 183 128 + pos) bs (fun o => .wr r.id o)
    let s1 := g.1.updWr q r.id (fun r => { r with open_ := r.open_ + g.2, pend := if last then [] else r.pend })
    let s2 := if last then s1.updConn q c (fun x => { x with tries := 0, unacked := x.unacked.filter (fun t => t.psn != psn) }) else s1
    if last ∧ r.open_ + g.2 = 0 then s2.wrEnd q r.id 0 0 else s2

/-- The old value comes back for an atomic (R432): it lands at bytes 16–23 of the slot. -/
def State.oldBack (s : State) (q c psn : Nat) (old : W64) : State :=
  match (s.port q).wrs.find? (fun r => wrConn r.w == c && decide (3 ≤ wrOp r.w) && r.pend.contains psn && r.fate.isNone) with
  | none => s
  | some r =>
    let g := s.locPut q r.part (s.tkTag (fld r.w 195 184)) (fld r.w 183 128 + 16) (bytesLE (wrLen r.w) old.toNat) (fun o => .wr r.id o)
    (g.1.updWr q r.id (fun r => { r with open_ := r.open_ + g.2, pend := [] })).updConn q c (fun x => { x with
      tries := 0, unacked := x.unacked.filter (fun t => t.psn != psn) })

end Sys2Proof.Machine
end

