-- ==== Sys2Proof/Machine/ClxOps.lean ====
section
/-! DEFINITION. Groups, collectives, streams and endpoints of the collective engine (R437–R455). -/

namespace Sys2Proof.Machine

/-! ### Commands and records (R443) -/

/-- CX_GROUP of a command. -/
def cxGroup (c : BitVec 512) : Nat := fld c 13 8
/-- CX_ID. -/
def cxId (c : BitVec 512) : W32 := BitVec.ofNat 32 (fld c 119 88)
/-- CX_SPGA. -/
def cxSpga (c : BitVec 512) : Nat := fld c 227 172
/-- CX_STK. -/
def cxStk (c : BitVec 512) : Nat := fld c 239 228
/-- CX_DPGA. -/
def cxDpga (c : BitVec 512) : Nat := fld c 295 240
/-- CX_DTK. -/
def cxDtk (c : BitVec 512) : Nat := fld c 307 296
/-- CX_COUNT. -/
def cxCount (c : BitVec 512) : Nat := fld c 159 128

/-- CC_STATUS (R443). -/
def ccOk : Nat := 0
def ccBadCmd : Nat := 1
def ccLocalFail : Nat := 2
def ccAborted : Nat := 3
def ccShrinkMismatch : Nat := 4
def ccNotMember : Nat := 5
def ccPeerFail : Nat := 7

/-- A record or descriptor of a port die for partition `p` (R433, R443, R454); nothing goes where the address decodes to
nothing. -/
def State.portPut (s : State) (q p a : Nat) (tag : W16) (bs : List Byte) (why : IssWhy) : State :=
  match decodePga (BitVec.ofNat 56 a) bs.length (s.partStacks p).length with
  | none => s
  | some d =>
    match d.segments (s.partStacks p) bs.length with
    | (t, off, _, _) :: _ => s.issueSeg (265 + q) (.key p) t (putSeg tag off bs false) why
    | [] => s

/-- A completion record (R443): bytes 8–15 hold epoch and member count, or a CRC-64. -/
def State.clxRecord (s : State) (q p : Nat) (c : BitVec 512) (st : Nat) (flags : Byte) (code : BitVec 4) (repl : Bool) (hi : Nat) : State :=
  s.portPut q p (fld c 87 32) (BitVec.ofNat 16 (fld c 31 16))
    (bytesLE 8 ((cxId c).toNat + st * 2 ^ 32 + flags.toNat * 2 ^ 40 + code.toNat * 2 ^ 48 + b2n repl * 2 ^ 52) ++ bytesLE 8 hi) .plain

/-- Epoch and member count of group `g`, as a record holds them. -/
def State.groupTail (s : State) (q g : Nat) : Nat := s.rd (265 + q) (grEpoch g) + s.rd (265 + q) (grN g) * 2 ^ 32

/-- Command `i` in progress. -/
def State.clx (s : State) (q i : Nat) : Option Clx := (s.port q).clx.find? (fun x => x.id == i)
/-- It changed. -/
def State.updClx (s : State) (q i : Nat) (f : Clx → Clx) : State :=
  s.updPort q (fun x => { x with clx := x.clx.map (fun c => if c.id = i then f c else c) })
/-- Group entry `g` beyond its registers. -/
def State.group (s : State) (q g : Nat) : Group := (s.port q).groups.get {} g
/-- It changed. -/
def State.updGroup (s : State) (q g : Nat) (f : Group → Group) : State := s.updPort q (fun x => { x with groups := x.groups.upd {} g f })

/-- The command is a collective of group `g`. -/
def Clx.ofGroup (x : Clx) (g : Nat) : Bool := fld x.cmd 7 0 == 4 && cxGroup x.cmd == g

/-- The keys that a command uses; `root` tells that the member's rank is CX_ROOT. -/
def clxKeys (c : BitVec 512) (root : Bool) : List Nat :=
  match fld c 7 0 with
  | 4 => (if fld c 122 120 = 4 then [] else if fld c 122 120 = 3 ∧ !root then [cxDtk c] else [cxStk c, cxDtk c])
  | 2 | 7 => [cxStk c]
  | _ => []

/-- A command is taken up; the keys that it uses count it. -/
def State.clxStart (s : State) (q p : Nat) (c : BitVec 512) (f : Clx → Clx) : State × Nat :=
  let i := (s.port q).next
  let ks := clxKeys c (fld c 171 160 == s.rd (265 + q) (grRank (cxGroup c)))
  let s1 := s.updPort q (fun x => { x with clx := x.clx ++ [f { id := i, part := p, cmd := c, keys := ks, since := s.now }], next := x.next + 1 })
  (ks.foldl (fun s k => s.inc tkPlace (tkInfl k)) s1, i)

/-- A command leaves. -/
def State.clxDrop (s : State) (q : Nat) (x : Clx) : State :=
  let s1 := s.updPort q (fun y => { y with clx := y.clx.filter (fun c => c.id != x.id), wrs := y.wrs.filter (fun w => w.clx != some x.id) })
  x.keys.foldl (fun s k => s.dec tkPlace (tkInfl k)) s1

/-- A command that is no collective ends with its record. -/
def State.clxEnd (s : State) (q : Nat) (x : Clx) (st : Nat) (code : BitVec 4) (hi : Nat) : State :=
  (s.clxDrop q x).clxRecord q x.part x.cmd st 0 code false hi

/-- A collective ends; its record is COLL_COMPLETE's. -/
def State.collEnd (s : State) (q i st : Nat) (code : BitVec 4) : State :=
  s.updClx q i (fun x => if x.fate.isSome then x else { x with phase := .ended, fate := some (st, code), held := false })

/-! ### Ranks and partners (R438, R442, R447) -/

/-- The number of stages of a group of `n`. -/
def stagesOf (n : Nat) : Nat := ((List.range 12).filter (fun m => decide (2 ^ m < n))).length

/-- The partners of rank `r` by stage; a partner at or beyond `n` is skipped (R442). -/
def partners (n r : Nat) : List Nat := ((List.range 12).map (fun m => r ^^^ 2 ^ m)).filter (fun k => decide (k < n))

/-- The exchanges of a collective, in order: halving, doubling, or both (R442). -/
def collPlan (n r coll : Nat) : List Nat :=
  let up := partners n r
  if coll = 0 ∨ coll = 4 then up ++ up.reverse else up

/-- The connection to rank `r` of group `g`. -/
def State.rankConn (s : State) (q g r : Nat) : Option Nat := ((s.group q g).conns.find? (fun x => x.1 == r)).map (·.2)

/-- Groups of port die `q` in which connection `c` leads to a rank. -/
def State.connGroups (s : State) (q c : Nat) : List (Nat × Nat) :=
  (s.port q).groups.flatMap (fun kv => (kv.2.conns.filter (fun x => x.2 == c)).map (fun x => (kv.1, x.1)))

/-- What a rank reports. -/
def State.peerState (s : State) (q g r : Nat) : PeerState := (s.group q g).peer.get .running r

/-- Some group's partner on connection `c` reports PAUSED (R445): its timers stand still. -/
def State.connPaused (s : State) (q c : Nat) : Bool := (s.connGroups q c).any (fun x => s.peerState q x.1 x.2 == .paused)

/-- A packet to rank `r` of a group. -/
def State.sendRank (s : State) (q g r : Nat) (b : PktBody) (once : Bool) : State :=
  match s.rankConn q g r with
  | none => s
  | some c =>
    if !s.connOpen q c then s
    else
      let s1 := if once then s.sendOnce q c 0 b else s.sendPkt q c b
      s1.updGroup q g (fun x => { x with sentAt := x.sentAt.put 0 r s.now })

/-- What this member reports (R445). -/
def State.selfState (s : State) (p : Nat) (g : Group) : PeerState :=
  let x := (s.part p).sch
  if g.dead || !(s.part p).formed || (x.state == .halted && decide (2 ≤ x.why.toNat)) then .halted
  else if x.state == .replaying || x.state == .rollback || s.moltPaused p then .paused
  else .running

/-! ### Local data of a collective (R438, R440) -/

/-- Bytes per element. -/
def cxEsz (c : BitVec 512) : Nat := match fld c 124 123 with | 0 => 4 | 1 => 2 | 2 => 4 | _ => 1

/-- The elements of rail `j` of `n`: first, count (R438). -/
def railShare (e n j : Nat) : Nat × Nat :=
  let cr := ceilDiv (ceilDiv e (max 1 n)) 1024 * 1024
  (min e (j * cr), min e ((j + 1) * cr) - min e (j * cr))

/-- First byte and length of this rail's share of one block. -/
def State.collShare (s : State) (q : Nat) (c : BitVec 512) : Nat × Nat :=
  let g := cxGroup c
  let r := railShare (cxCount c) (s.rd (265 + q) (grNrails g)) (s.rd (265 + q) (grRail g))
  (r.1 * cxEsz c, r.2 * cxEsz c)

/-- Blocks that a member's source holds. -/
def State.srcBlocks (s : State) (q : Nat) (c : BitVec 512) : Nat :=
  match fld c 122 120 with
  | 0 | 2 => 1
  | 1 => s.rd (265 + q) (grN (cxGroup c))
  | 3 => if fld c 171 160 = s.rd (265 + q) (grRank (cxGroup c)) then 1 else 0
  | _ => 0

/-- Blocks of its destination. -/
def State.dstBlocks (s : State) (q : Nat) (c : BitVec 512) : Nat :=
  match fld c 122 120 with
  | 0 | 1 | 3 => 1
  | 2 => s.rd (265 + q) (grN (cxGroup c))
  | _ => 0

/-- The operator's number among those of R176; none where type and operator do not go together (R440). -/
def collOp (c : BitVec 512) : Option Nat :=
  match fld c 124 123, fld c 126 125 with
  | 0, 0 | 1, 0 => some 0
  | 0, 1 | 1, 1 => some 2
  | 0, 2 | 1, 2 => some 3
  | 2, 0 => some 1
  | 2, 1 => some 4
  | 2, 2 => some 5
  | _, _ => none

/-- One element reduced over the ranks in the fixed combine order (R441): its bytes and flags. BF16 is widened and rounded
once at the end. -/
def reduceEl (c : BitVec 512) (parts : List (Nat × List Byte)) (pos : Nat) : List Byte × Byte :=
  let w := cxEsz c
  let bf := fld c 124 123 == 1
  let el := fun (k : Nat) => (parts.find? (fun x => x.1 == k)).map (fun x =>
    let v := ofLE ((x.2.drop pos).take w)
    (⟨if bf then v * 65536 else v, 0, false, 0, false⟩ : ScanEl))
  match scanTree ((collOp c).getD 0) false el 0 12 with
  | none => (bytesLE w 0, 0)
  | some e =>
    if bf then
      let r := FpFmt.bf16.ofNum .rne false (FpFmt.fp32.decode e.a)
      (bytesLE 2 r.1, e.fl ||| r.2)
    else (bytesLE w e.a, e.fl)

/-- `n` elements from byte `pos` of every part. -/
def reduceRun (c : BitVec 512) (parts : List (Nat × List Byte)) (pos n : Nat) : List Byte × Byte :=
  (List.range n).foldl (fun a i =>
    let e := reduceEl c parts (pos + i * cxEsz c)
    (a.1 ++ e.1, a.2 ||| e.2)) ([], 0)

/-- What a collective writes: byte offsets in the destination with their bytes, and the flags (R440, R441). -/
def State.collResult (s : State) (q : Nat) (x : Clx) : List (Nat × List Byte) × Byte :=
  let c := x.cmd
  let g := cxGroup c
  let sh := s.collShare q c
  let n := sh.2 / cxEsz c
  let part := fun (k : Nat) => ((x.parts.find? (fun y => y.1 == k)).map (·.2)).getD []
  match fld c 122 120 with
  | 0 => let r := reduceRun c x.parts 0 n; ([(sh.1, r.1)], r.2)
  | 1 => let r := reduceRun c x.parts (s.rd (265 + q) (grRank g) * sh.2) n; ([(sh.1, r.1)], r.2)
  | 2 => ((List.range (s.rd (265 + q) (grN g))).map (fun k => (k * cxCount c * cxEsz c + sh.1, part k)), 0)
  | 3 => ([(sh.1, part (fld c 171 160))], 0)
  | _ => ([], 0)

/-- The ranks whose elements a collective needs. -/
def State.collNeeds (s : State) (q : Nat) (c : BitVec 512) : List Nat :=
  match fld c 122 120 with
  | 0 | 1 | 2 => List.range (s.rd (265 + q) (grN (cxGroup c)))
  | 3 => [fld c 171 160]
  | _ => []

/-! ### A collective's course -/

/-- The source of a collective is read, or read again. -/
def State.collRead (s : State) (q i : Nat) : State :=
  match s.clx q i with
  | none => s
  | some x =>
    let c := x.cmd
    let sh := s.collShare q c
    let r := (List.range (s.srcBlocks q c)).foldl (fun (a : State × Nat) k =>
      let b := a.1.locGet q x.part (s.tkTag (cxStk c)) (cxSpga c + k * cxCount c * cxEsz c + sh.1) sh.2 (fun pos => .clx i (k * sh.2 + pos))
      (b.1, a.2 + b.2)) (s, 0)
    r.1.updClx q i (fun x => { x with
      phase := .read, open_ := r.2, data := [], parts := [], stage := 0, out := 0, heard := [], flags := 0, held := false })

/-- The result of a collective goes to its destination. -/
def State.collLand (s : State) (q : Nat) (x : Clx) : State :=
  let res := s.collResult q x
  let r := res.1.foldl (fun (a : State × Nat) e =>
    let b := a.1.locPut q x.part (s.tkTag (cxDtk x.cmd)) (cxDpga x.cmd + e.1) e.2 (fun pos => .clx x.id pos)
    (b.1, a.2 + b.2)) (s, 0)
  let s1 := r.1.updClx q x.id (fun y => { y with phase := .land, open_ := r.2, flags := res.2 })
  if r.2 = 0 then s1.collEnd q x.id ccOk 0 else s1

/-- The exchanges of a collective go as far as they can (R442, R445): a packet to the next partner, then that partner's. -/
def State.collPump (s : State) (q i : Nat) : Nat → State
  | 0 => s
  | fuel + 1 =>
    match s.clx q i with
    | none => s
    | some x =>
      let g := cxGroup x.cmd
      let n := s.rd (265 + q) (grN g)
      if x.phase ≠ .run ∨ x.held ∨ x.parked ∨ s.rd (265 + q) (grState g) ≠ 2 then s
      else match (collPlan n (s.rd (265 + q) (grRank g)) (fld x.cmd 122 120))[x.stage]? with
        | none => if (s.collNeeds q x.cmd).all (fun k => x.parts.any (fun y => y.1 == k)) then s.collLand q x else s
        | some r =>
          if s.peerState q g r == .paused then s
          else if x.out = x.stage then
            ((s.sendRank q g r (.coll g (BitVec.ofNat 32 (s.rd (265 + q) (grEpoch g))) (cxId x.cmd) x.parts) false).updClx q i
              (fun y => { y with out := y.out + 1 })).collPump q i fuel
          else if x.heard.contains r then
            State.collPump (s.updClx q i (fun y => { y with stage := y.stage + 1, heard := y.heard.erase r })) q i fuel
          else s

/-- Source elements that come with a packet are kept, each rank's once. -/
def mergeParts (a b : List (Nat × List Byte)) : List (Nat × List Byte) := a ++ b.filter (fun y => !a.any (fun x => x.1 == y.1))

/-- The source is in: the exchange begins, with what partners have already sent. -/
def State.collGo (s : State) (q : Nat) (x : Clx) : State :=
  let g := cxGroup x.cmd
  let e := (s.group q g).early.filter (fun y => y.1 == cxId x.cmd)
  let own := if s.srcBlocks q x.cmd = 0 then [] else [(s.rd (265 + q) (grRank g), x.data.getList 0 0 (s.srcBlocks q x.cmd * (s.collShare q x.cmd).2))]
  let s1 := (s.updGroup q g (fun y => { y with early := y.early.filter (fun y => y.1 != cxId x.cmd) })).updClx q x.id (fun y => { y with
    phase := .run, heard := e.map (fun y => y.2.1), parts := e.foldl (fun a y => mergeParts a y.2.2) own })
  s1.collPump q x.id 64

/-- Bytes of a memory become free values. -/
def State.freeBytes (s : State) (t : Tgt) (off n : Nat) : State :=
  let bs := (List.range n).map (fun i => Config.freeByte s.freeCtr i)
  match t with
  | .tile t => (s.updTile t (fun x => { x with spm := { x.spm with data := x.spm.data.putList 0 off bs } })).drawn
  | .stack k => (s.updStack k (fun x => { x with mem := x.mem.putList 0 off bs })).drawn
  | _ => s

/-- The destination bytes of a collective are undefined until it has landed (R443). -/
def State.freeDst (s : State) (q i : Nat) : State :=
  match s.clx q i with
  | none => s
  | some x =>
    let c := x.cmd
    let sh := s.collShare q c
    let st := s.partStacks x.part
    (List.range (s.dstBlocks q c)).foldl (fun s k =>
      match decodePga (BitVec.ofNat 56 (cxDpga c + k * cxCount c * cxEsz c + sh.1)) sh.2 st.length with
      | none => s
      | some d => (d.segments st sh.2).foldl (fun s g => s.freeBytes g.1 g.2.1 g.2.2.2) s) s

/-- A collective is taken up, or begins again. -/
def State.collBegin (s : State) (q i : Nat) : State :=
  let s1 := (s.freeDst q i).collRead q i
  match s1.clx q i with
  | none => s1
  | some x => if x.open_ = 0 then s1.collGo q x else s1

/-- A packet of a collective of the current epoch (R439, R442). -/
def State.collPacket (s : State) (q g r : Nat) (id : W32) (parts : List (Nat × List Byte)) : State :=
  if s.rd (265 + q) (grState g) ≠ 2 then s
  else match (s.port q).clx.find? (fun x => x.ofGroup g && cxId x.cmd == id && x.phase == .run) with
  | none => s.updGroup q g (fun y => { y with early := y.early ++ [(id, r, parts)] })
  | some x =>
    (s.updClx q x.id (fun y => { y with heard := y.heard ++ [r], parts := mergeParts y.parts parts })).collPump q x.id 64

/-! ### Loss of a partner (R446) -/

/-- Commands of group `g` that wait in the collective queue are set aside with those in progress. -/
def State.holdGroup (s : State) (q g : Nat) : State :=
  let p := s.rd (265 + q) (grPart g)
  let is := fun (c : BitVec 512) => fld c 7 0 == 4 && cxGroup c == g
  let queued := ((s.port q).blk.get {} p).clxq.filter is
  let s1 := s.updPort q (fun x => { x with
    blk := x.blk.upd {} p (fun b => { b with clxq := b.clxq.filter (fun c => !is c) })
    clx := x.clx.map (fun c => if c.ofGroup g ∧ c.phase ≠ .ended then { c with held := true, phase := .read, open_ := 0 } else c) })
  let mine := ((s.port q).clx.filter (fun c => c.ofGroup g)).map (fun c => c.id)
  let s1 := s1.updNode (265 + q) (fun n => { n with iss := n.iss.giveUp (fun e => match e.why with
    | .clx i _ => mine.contains i | _ => false) })
  let s2 := queued.foldl (fun s c => (s.clxStart q p c (fun x => { x with held := true })).1) s1
  s2.wr (265 + q) (grHeld g) ((s2.port q).clx.filter (fun c => c.ofGroup g && c.held)).length

/-- The group becomes ABORTED for the loss of rank `r`; ABORT goes to every live partner (R446). -/
def State.groupAbort (s : State) (q g r : Nat) : State :=
  let n := 265 + q
  let s0 := s.updGroup q g (fun x => { x with lost := if x.lost.contains r then x.lost else x.lost ++ [r] })
  if s.rd n (grState g) ≠ 2 then s0
  else
    let s1 := (((s0.wr n (grState g) 3).wr n (grLost g) r).wr n (grLostV g) 1).inc n (grAborts g)
    let s2 := (s1.holdGroup q g).updGroup q g (fun x => { x with early := [] })
    (partners (s.rd n (grN g)) (s.rd n (grRank g))).foldl (fun s k =>
      if (s.group q g).lost.contains k then s
      else s.sendRank q g k (.abort g (BitVec.ofNat 32 (s.rd n (grEpoch g))) r) false) s2

/-- A partner is heard (R444). -/
def State.heardFrom (s : State) (q g r : Nat) : State := s.updGroup q g (fun x => { x with heardAt := x.heardAt.put 0 r s.now })

/-- A partner's keepalive (R444, R445): HALTED is a loss, the end of PAUSED lets held exchanges go on. -/
def State.keepalive (s : State) (q g r : Nat) (st : PeerState) : State :=
  let s1 := s.updGroup q g (fun x => { x with
    peer := x.peer.put .running r st
    pausedAt := if st = .paused then (if x.peer.get .running r = .paused then x.pausedAt else x.pausedAt.put 0 r s.now) else x.pausedAt.put 0 r 0 })
  match st with
  | .halted => s1.groupAbort q g r
  | .paused => s1
  | .running => ((s1.port q).clx.filter (fun x => x.ofGroup g)).foldl (fun s x => s.collPump q x.id 64) s1

/-! ### Shrinking (R447) -/

/-- The new partners of this member, as old ranks. -/
def shrinkPartners (members : List Nat) (rank : Nat) : List Nat :=
  match members.findIdx? (fun k => k == rank) with
  | none => []
  | some i => (partners members.length i).map (fun j => members.getD j 0)

/-- Digests go to the new partners, but for rank `from_`. -/
def State.shrinkSend (s : State) (q g from_ : Nat) (ds : List (Nat × W64)) : State :=
  match (s.group q g).shrink with
  | none => s
  | some h =>
    if ds = [] then s
    else ((shrinkPartners h.members (s.rd (265 + q) (grRank g))).filter (fun k => k != from_)).foldl (fun s k =>
      s.sendRank q g k (.digest g (BitVec.ofNat 32 (s.rd (265 + q) (grEpoch g))) ds) false) s

/-- Digests arrive from a rank: those not yet held are kept and forwarded. -/
def State.digestIn (s : State) (q g r : Nat) (ds : List (Nat × W64)) : State :=
  match (s.group q g).shrink with
  | none => s.updGroup q g (fun x => { x with digests := x.digests ++ ds.filter (fun d => !x.digests.any (fun e => e.1 == d.1)) })
  | some h =>
    let new := ds.filter (fun d => !h.heard.any (fun e => e.1 == d.1))
    (s.updGroup q g (fun x => { x with shrink := some { h with heard := h.heard ++ new } })).shrinkSend q g r new

/-- A group entry is free again; its counters stay (R446, R447, R457). -/
def State.groupFree (s : State) (q g : Nat) : State :=
  let n := 265 + q
  let s1 := ((s.port q).clx.filter (fun x => x.ofGroup g)).foldl (fun s x => s.collEnd q x.id ccAborted 0) s
  ((((s1.wr n (grState g) 0).wr n (grPart g) 0x1F).wr n (grStateSelf g) 0).wr n (grHeld g) 0).updPort q (fun x => { x with groups := x.groups.put {} g {} })

/-- The bitmap of a shrink has come in (R447). -/
def State.shrinkGo (s : State) (q : Nat) (x : Clx) : State :=
  let n := 265 + q
  let g := cxGroup x.cmd
  let bs := x.data.getList 0 0 512
  let m : BitVec 4096 := BitVec.ofNat 4096 (ofLE bs)
  let members := bitsOf m (s.rd n (grN g))
  let epoch : W32 := BitVec.ofNat 32 (fld x.cmd 351 320)
  if !members.contains (s.rd n (grRank g)) then ((s.clxEnd q x ccNotMember 0 (s.groupTail q g))).groupFree q g
  else
    let d : W64 := BitVec.ofNat 64 (crc64 0 (bytesLE 4 epoch.toNat ++ bs))
    let own := (s.rd n (grRank g), d)
    let heard := own :: (s.group q g).digests.filter (fun e => e.1 != own.1)
    let s1 := (s.updClx q x.id (fun y => { y with phase := .run })).updGroup q g (fun y => { y with
      shrink := some ⟨x.id, epoch, members, d, heard, s.now + 4000 * s.rd n (grLiveUs g)⟩, digests := [] })
    s1.shrinkSend q g 0x1000 heard

/-- The shrink ends with SHRINK_MISMATCH; the group stays ABORTED. -/
def State.shrinkFail (s : State) (q g : Nat) (h : Shrink) : State :=
  let s1 := (s.wr (265 + q) (grState g) 3).updGroup q g (fun x => { x with shrink := none })
  match s1.clx q h.clx with
  | none => s1
  | some x => s1.clxEnd q x ccShrinkMismatch 0 (s1.groupTail q g)

/-- The shrink succeeds: epoch, ranks and members are adopted, and the held collectives run again. -/
def State.shrinkAdopt (s : State) (q g : Nat) (h : Shrink) : State :=
  let n := 265 + q
  let idx := fun (k : Nat) => h.members.findIdx? (fun m => m == k)
  let rank := (idx (s.rd n (grRank g))).getD 0
  let s1 := ((((s.wr n (grEpoch g) h.epoch.toNat).wr n (grN g) h.members.length).wr n (grRank g) rank).wr n (grLostV g) 0).wr n (grState g) 2
  let s2 := (s1.wr n (grHeld g) 0).updGroup q g (fun x => { x with
    shrink := none, early := [], lost := [], peer := [], pausedAt := [], sentAt := []
    heardAt := x.heardAt.foldl (fun t kv => match idx kv.1 with | some i => Table.put 0 t i s.now | none => t) []
    conns := x.conns.filterMap (fun c => (idx c.1).map (fun i => (i, c.2))) })
  let s3 := (partners h.members.length rank).foldl (fun s k => s.heardFrom q g k) s2
  let s4 := match s3.clx q h.clx with
    | none => s3
    | some x => s3.clxEnd q x ccOk 0 (s3.groupTail q g)
  ((s4.port q).clx.filter (fun x => x.ofGroup g && x.held && !x.parked)).foldl (fun s x =>
    (s.updClx q x.id (fun y => { y with replayed := true, since := s.now })).collBegin q x.id) s4

/-- Every survivor's digest is held. -/
def Shrink.complete (h : Shrink) : Bool := h.members.all (fun k => h.heard.any (fun d => d.1 == k))
/-- And equal to this member's. -/
def Shrink.agree (h : Shrink) : Bool := h.heard.all (fun d => !h.members.contains d.1 || d.2 == h.digest)

/-! ### Streams (R450–R452) -/

/-- Length of a stream's range. -/
def cxRange (c : BitVec 512) : Nat := 4096 * fld c 463 416
/-- Its connection. -/
def cxConn (c : BitVec 512) : Nat := fld c 475 464
/-- The connections that a RESTORE names, from its mask (assumption log 61). -/
def cxConns (c : BitVec 512) : List Nat := ((List.range 4).filter (fun i => (fld c 483 480).testBit i)).map (fun i => (cxConn c + i) % 4096)

/-- The work request of a stream's piece at `pos` on connection `k` (R450, R452). -/
def streamWr (c : BitVec 512) (op k pos : Nat) : BitVec 512 :=
  BitVec.ofNat 512 (op + k * 2 ^ 12 + fld c 351 320 * 2 ^ 32 + (fld c 415 352 + pos) % 2 ^ 64 * 2 ^ 64 + (cxSpga c + pos) * 2 ^ 128
    + cxStk c * 2 ^ 184 + min (2 ^ 24) (cxRange c - pos) * 2 ^ 200)

/-- The place in the range of a piece. -/
def piecePos (x : Clx) (r : WorkReq) : Nat := (fld r.w 127 64 + 2 ^ 64 - fld x.cmd 415 352) % 2 ^ 64

/-- The next piece of a CKPT_STREAM, or its end. -/
def State.streamNext (s : State) (q i : Nat) : State :=
  match s.clx q i with
  | none => s
  | some x =>
    if cxRange x.cmd ≤ x.pos then s.clxEnd q x ccOk 0 x.crc
    else (s.updClx q i (fun y => { y with pos := y.pos + min (2 ^ 24) (cxRange x.cmd - y.pos) })).wrTake q x.part (streamWr x.cmd 1 (cxConn x.cmd) x.pos) (some i)

/-- The pieces of a RESTORE: one at a time on every connection of its mask that is OPEN. -/
def State.restoreNext (s : State) (q i : Nat) : State :=
  let s1 := ((s.clx q i).map (fun x => cxConns x.cmd)).getD [] |>.foldl (fun s k =>
    match s.clx q i with
    | none => s
    | some x =>
      if cxRange x.cmd ≤ x.pos ∨ !s.connOpen q k ∨ (s.port q).wrs.any (fun r => r.clx == some i && wrConn r.w == k) then s
      else (s.updClx q i (fun y => { y with pos := y.pos + min (2 ^ 24) (cxRange x.cmd - y.pos) })).wrTake q x.part (streamWr x.cmd 2 k x.pos) (some i)) s
  match s1.clx q i with
  | none => s1
  | some x =>
    if (s1.port q).wrs.any (fun r => r.clx == some i) then s1
    else if cxRange x.cmd ≤ x.pos then s1.clxEnd q x ccOk 0 0
    else s1.clxEnd q x ccPeerFail 0 0

/-! ### Endpoints (R453–R455) -/

/-- Endpoint `e`. -/
def State.ep (s : State) (q e : Nat) : Endpoint := (s.port q).eps.get {} e
/-- It changed. -/
def State.updEp (s : State) (q e : Nat) (f : Endpoint → Endpoint) : State := s.updPort q (fun x => { x with eps := x.eps.upd {} e f })
/-- The endpoint bound to key `k`. -/
def State.epOf (s : State) (q k : Nat) : Option Nat := ((s.port q).eps.find? (fun kv => kv.2.bound && kv.2.key == k)).map (·.1)

/-- A reply header (R455). -/
def rpHeader (rid : W64) (st len : Nat) : List Byte := bytesLE 8 rid.toNat ++ bytesLE 1 st ++ bytesLE 3 0 ++ bytesLE 4 len ++ bytesLE 16 0

/-- A reply header goes to the client at once. -/
def State.sendHeader (s : State) (q c : Nat) (rkey : W32) (roff : Nat) (h : List Byte) : State :=
  if s.connOpen q c then s.sendPkt q c (.req ⟨.put, rkey, roff, 0, h, 0, 0, true⟩) else s

/-- Bytes `[lo, hi)` of a message as a number. -/
def msgField (m : List Byte) (lo hi : Nat) : Nat := ofLE ((m.drop lo).take (hi - lo))

/-- A whole request (R454): placed in a slot, or answered. -/
def State.epRequest (s : State) (q c e : Nat) (m : List Byte) : State :=
  let x := s.ep q e
  let rid : W64 := BitVec.ofNat 64 (msgField m 0 8)
  let rkey : W32 := BitVec.ofNat 32 (msgField m 8 12)
  let roff := msgField m 16 24
  let no := fun (st : Nat) => s.sendHeader q c rkey roff (rpHeader rid st 0)
  if m.length < 64 ∨ msgField m 24 28 + 64 ≠ m.length then no 4
  else if 2 ^ x.szLog < m.length then no 3
  else match (List.range x.count).find? (fun i => (x.slots.get none i).isNone) with
    | none => no 2
    | some i =>
      let g := s.locPut q x.part (s.tkTag x.key) (s.tkPga x.key + i * 2 ^ x.szLog) m (fun _ => .slot e i)
      (g.1.inc tkPlace (tkInfl x.key)).updEp q e (fun y => { y with
        seq := y.seq + 1, nextDesc := (y.nextDesc + 1) % y.count
        slots := y.slots.put none i (some ⟨y.seq, c, rid, rkey, msgField m 12 16, roff, msgField m 24 28, g.2, y.nextDesc⟩) })

/-- A request's bytes are visible: its descriptor is written (R454). The order of its fields is the model's (assumption
log 61). -/
def State.epDescriptor (s : State) (q e i : Nat) (t : EpSlot) : State :=
  let x := s.ep q e
  (s.dec tkPlace (tkInfl x.key)).portPut q x.part (x.dpga.toNat + 32 * t.desc) x.dtag
    (bytesLE 4 t.seq.toNat ++ bytesLE 4 i ++ bytesLE 4 t.len ++ bytesLE 4 t.conn ++ bytesLE 8 t.rid.toNat ++ bytesLE 8 0) .plain

/-- An answer to a segment of a slot (R430, R454). -/
def State.slotAnswer (s : State) (q e i : Nat) (a : Answer) : State :=
  match (s.ep q e).slots.get none i with
  | none => s
  | some t =>
    if a.code ≠ rcOk then
      (((s.updEp q e (fun x => { x with slots := x.slots.put none i none })).dec tkPlace (tkInfl (s.ep q e).key)).sat tkPlace (tkErr (s.ep q e).key)).connError q t.conn 4 a.code
    else
      let s1 := s.updEp q e (fun x => { x with slots := x.slots.put none i (some { t with open_ := t.open_ - 1 }) })
      if t.open_ = 1 then s1.epDescriptor q e i t else s1

/-- The slot and sequence number that RESPOND and EP_FREE name. -/
def cxSlot (c : BitVec 512) : Nat := fld c 331 320
/-- The endpoint. -/
def cxEp (c : BitVec 512) : Nat := fld c 315 308

/-- The request that a command of partition `p` names, in a slot whose bytes are visible. -/
def State.epHeld (s : State) (q p : Nat) (c : BitVec 512) : Option EpSlot :=
  let x := s.ep q (cxEp c)
  if !x.bound || x.part != p then none
  else match x.slots.get none (cxSlot c) with
    | none => none
    | some t => if t.open_ = 0 ∧ t.seq.toNat = fld c 363 332 then some t else none

/-- A slot is free again. -/
def State.epFree (s : State) (q e i : Nat) : State := s.updEp q e (fun x => { x with slots := x.slots.put none i none })

/-- The header of a RESPOND goes out as a work request of its own (R455). -/
def State.respondHeader (s : State) (q : Nat) (x : Clx) (t : EpSlot) : State :=
  let i := (s.port q).next
  let w : BitVec 512 := BitVec.ofNat 512 (1 + t.conn * 2 ^ 12 + t.rkey.toNat * 2 ^ 32 + t.roff * 2 ^ 64 + 32 * 2 ^ 200)
  let r : WorkReq := { id := i, part := x.part, w := w, clx := some x.id, data := Table.putList 0 [] 0 (rpHeader t.rid 1 (cxCount x.cmd)) }
  (((s.updPort q (fun y => { y with wrs := y.wrs ++ [r], next := y.next + 1 })).sat (265 + q) (cnWrOutst t.conn)).updClx q x.id
    (fun y => { y with stage := 1 })).wrPump q t.conn

/-! ### What follows an event -/

/-- A work request of a command is taken off (R433: it has no record of its own). -/
def State.wrGone (s : State) (q : Nat) (r : WorkReq) : State :=
  ((s.wrKeyDone q r).dec (265 + q) (cnWrOutst (wrConn r.w))).updPort q (fun x => { x with wrs := x.wrs.filter (fun w => w.id != r.id) })

/-- A RESPOND goes on (R455): under RoCEv2 the header follows the body's packets, under UET the body's acknowledgement. -/
def State.respondStep (s : State) (q : Nat) (x : Clx) (r : WorkReq) : State :=
  match (s.ep q (cxEp x.cmd)).slots.get none (cxSlot x.cmd) with
  | none => s.clxEnd q x ccBadCmd 0 0
  | some t =>
    match r.fate with
    | some (0, _) =>
      let s1 := s.wrGone q r
      if x.stage = 0 then s1.respondHeader q x t
      else if (s1.port q).wrs.any (fun w => w.clx == some x.id) then s1
      else (s1.epFree q (cxEp x.cmd) (cxSlot x.cmd)).clxEnd q x ccOk 0 0
    | some (3, code) => (((s.wrGone q r).epFree q (cxEp x.cmd) (cxSlot x.cmd)).clxEnd q x ccLocalFail code 0)
    | some _ => (((s.wrGone q r).epFree q (cxEp x.cmd) (cxSlot x.cmd)).clxEnd q x ccPeerFail 0 0)
    | none => if x.stage = 0 ∧ r.sent ∧ !s.connUet q t.conn then s.respondHeader q x t else s

/-- A piece of a RESTORE has ended: a failed one is read once more on another connection (R452). -/
def State.restoreStep (s : State) (q : Nat) (x : Clx) (r : WorkReq) : State :=
  match r.fate with
  | none => s
  | some (0, _) => (s.wrGone q r).restoreNext q x.id
  | some _ =>
    let pos := piecePos x r
    let s1 := s.wrGone q r
    match (cxConns x.cmd).find? (fun k => k != wrConn r.w && s.connOpen q k) with
    | none => s1.clxEnd q x ccPeerFail 0 0
    | some k =>
      if x.retried.contains pos then s1.clxEnd q x ccPeerFail 0 0
      else (s1.updClx q x.id (fun y => { y with retried := y.retried ++ [pos] })).wrTake q x.part (streamWr x.cmd 2 k pos) (some x.id)

/-- A work request of a command goes on with it. -/
def State.clxWr (s : State) (q : Nat) (r : WorkReq) : State :=
  match r.clx.bind (s.clx q) with
  | none => if r.clx.isSome then s.wrGone q r else s
  | some x =>
    match fld x.cmd 7 0 with
    | 5 =>
      (match r.fate with
       | none => s
       | some (0, _) => ((s.wrGone q r).updClx q x.id (fun y => { y with crc := crc64 y.crc (r.data.getList 0 0 (wrLen r.w)) })).streamNext q x.id
       | some _ => (s.wrGone q r).clxEnd q x ccPeerFail 0 x.crc)
    | 6 => s.restoreStep q x r
    | _ => s.respondStep q x r

/-- After an event at port die `q`: work requests that ended let their commands go on. -/
def State.portPoll (s : State) (q : Nat) : State :=
  ((s.port q).wrs.filter (fun r => r.clx.isSome)).foldl (fun s r => s.clxWr q r) s

/-- An answer to a local access of a collective command (R443): source bytes come in, or landed bytes are counted. -/
def State.clxAnswer (s : State) (q i pos : Nat) (g : Segment) (a : Answer) : State :=
  match s.clx q i with
  | none => s
  | some x =>
    if x.parked || x.open_ == 0 then s
    else
      let coll := fld x.cmd 7 0 == 4
      let s1 := s.updClx q i (fun y => { y with open_ := y.open_ - 1, data := if g.op = .get then y.data.putList 0 pos a.data else y.data })
      if a.code ≠ rcOk ∨ a.poison then
        let code := if a.code = rcOk then rcPoisoned else a.code
        if coll then s1.collEnd q i ccLocalFail code
        else if fld x.cmd 7 0 = 2 then ((s1.wr (265 + q) (grState (cxGroup x.cmd)) 3).clxEnd q x ccLocalFail code (s1.groupTail q (cxGroup x.cmd)))
        else s1.clxEnd q x ccLocalFail code 0
      else if x.open_ ≠ 1 then s1
      else match s1.clx q i with
        | none => s1
        | some y =>
          if coll then (if y.phase = .land then s1.collEnd q i ccOk 0 else if y.phase = .read then s1.collGo q y else s1)
          else if fld x.cmd 7 0 = 2 then s1.shrinkGo q y
          else s1.clxEnd q y ccOk 0 (crc64 0 (y.data.getList 0 0 (cxRange y.cmd)))

end Sys2Proof.Machine
end

