-- ==== Sys2Proof/Machine/TimeOps.lean ====
section
/-! DEFINITION. The discipline of the time base (R551). -/

namespace Sys2Proof.Machine

/-- An integer clamped. -/
def clampInt (lo hi v : Int) : Int := if v < lo then lo else if hi < v then hi else v

/-- TBM_TOD_OFF. -/
def State.todOff (s : State) : Nat := s.hrd tbmTodOffLo + s.hrd tbmTodOffHi * 2 ^ 32

/-- TBM_FREQ_ADJ, signed. -/
def State.freqAdj (s : State) : Int := signedOf 32 (s.hrd tbmFreqAdj)

/-- Hub firmware's servo answers an offset of the source in ns (R551): beyond 1 ms it rewrites TBM_TOD_OFF; within, it steers to
`adj`, within ±100 ppm and at most 10 ppm per second. -/
def State.servo (s : State) (off adj : Int) : State :=
  if 1000000 < off.natAbs then
    (let v := intMod 64 (signedOf 64 s.todOff + off)
     (s.hwr tbmTodOffLo (v % 2 ^ 32)).hwr tbmTodOffHi (v / 2 ^ 32))
  else
    let room : Int := Int.ofNat ((s.now - s.hub.tb.adjAt) / 100)
    let v := clampInt (s.freqAdj - room) (s.freqAdj + room) (clampInt (-100000000) 100000000 adj)
    (s.hwr tbmFreqAdj (intMod 32 v)).updHub (fun h => { h with tb := { h.tb with adjAt := s.now } })

end Sys2Proof.Machine
end

