-- ==== Sys2Proof/Machine/PeerOps.lean ====
section
/-! DEFINITION. Arriving frames at an Ethernet port die and the requests that they carry (R419–R421, R426–R430, R434, R435, R439,
R444, R446, R447). -/

namespace Sys2Proof.Machine

/-! ### Requests of a peer on the panel (R430) -/

/-- A peer's request leaves its buffer and its key. -/
def State.reqGone (s : State) (q : Nat) (r : EthReq) : State :=
  let n := r.r.data.length
  (s.dec tkPlace (tkInfl r.key)).updPort q (fun x => { x with
    reqs := x.reqs.filter (fun e => e.id != r.id), held := x.held - n, conns := x.conns.upd {} r.conn (fun c => { c with held := c.held - n }) })

/-- The answer to a peer's request goes back (R427, R430). -/
def State.reqReply (s : State) (q : Nat) (r : EthReq) (old : W64) : State :=
  if !s.connOpen q r.conn then s
  else match r.r.op with
  | .put => s
  | .get =>
    let mtu := (s.conn q r.conn).mtuBytes
    (List.range (max 1 (ceilDiv r.r.len mtu))).foldl (fun s i =>
      s.sendOnce q r.conn 0 (.readData r.psn (i * mtu) (r.data.getList 0 (i * mtu) (min mtu (r.r.len - i * mtu))))) s
  | _ =>
    let cap := if s.connUet q r.conn then 64 else 16
    (s.updConn q r.conn (fun c => { c with replies := (c.replies ++ [(r.psn, old)]).drop (c.replies.length + 1 - cap) })).sendOnce q r.conn 0
      (.atomicOld r.psn old)

/-- An answer to a segment of a peer's request (R430). A failure is counted, moves the connection to ERROR and is told to the
peer. -/
def State.keyAnswer (s : State) (q id pos : Nat) (a : Answer) : State :=
  match (s.port q).reqs.find? (fun r => r.id == id) with
  | none => s
  | some r =>
    let bad := decide (a.code ≠ rcOk) || a.poison
    let code := if a.code = rcOk then rcPoisoned else a.code
    let r' := { r with
      open_ := r.open_ - 1
      data := if r.r.op = .get then r.data.putList 0 pos a.data else r.data
      fail := if bad then some (r.fail.getD code) else r.fail }
    let s1 := s.updPort q (fun x => { x with reqs := x.reqs.map (fun e => if e.id = id then r' else e) })
    let s2 := if bad then
        (let t := s1.sat tkPlace (tkErr r.key)
         (if t.connOpen q r.conn then t.sendOnce q r.conn 0 .accessErr else t).connError q r.conn 4 code)
      else s1
    if r'.open_ ≠ 0 then s2
    else if r'.fail.isSome then s2.reqGone q r'
    else (s2.reqGone q r').reqReply q r' a.old

/-- The segments of a peer's request go out; how many (R430, R49). -/
def State.reqSegs (s : State) (q p : Nat) (r : PeerReq) (why : Nat → IssWhy) : State × Nat :=
  let k := fld r.key 11 0
  let a := s.tkPga k + r.off
  if r.op = .put then s.locPut q p (s.tkTag k) a r.data why
  else if r.op = .get then s.locGet q p (s.tkTag k) a r.len why
  else match decodePga (BitVec.ofNat 56 a) r.len (s.partStacks p).length with
    | some (.direct t off) =>
      let g : Segment := { putSeg (s.tkTag k) off [] false with op := r.op, len := r.len, opnd := r.opnd, swap := r.swap }
      (s.issueSeg (265 + q) (.key p) t g (why 0), 1)
    | _ => (s, 0)

/-- A peer's request is issued on the panel (R430). -/
def State.reqIssue (s : State) (q c psn : Nat) (r : PeerReq) : State :=
  let k := fld r.key 11 0
  let i := (s.port q).next
  let e : EthReq := { id := i, conn := c, key := k, psn := psn, r := r, open_ := 0, data := [], fail := none }
  let s1 := (s.inc tkPlace (tkInfl k)).updPort q (fun x => { x with
    reqs := x.reqs ++ [e], next := x.next + 1, held := x.held + r.data.length
    conns := x.conns.upd {} c (fun y => { y with held := y.held + r.data.length }) })
  let g := s1.reqSegs q (s.rd (265 + q) (cnPart c)) r (fun pos => .key k c i pos)
  if g.2 = 0 then (g.1.reqGone q e).reqReply q e 0
  else g.1.updPort q (fun x => { x with reqs := x.reqs.map (fun y => if y.id = i then { y with open_ := g.2 } else y) })

/-! ### The checks (R428) -/

/-- A counter meets the replay window (R426): none where it is outside or seen. -/
def Conn.window (x : Conn) (ctr : Nat) : Option Conn :=
  if !x.rxSeen then some { x with rxSeen := true, rxHigh := ctr, rxGot := [0] }
  else if x.rxHigh < ctr then
    some { x with rxHigh := ctr, rxGot := 0 :: ((x.rxGot.map (· + (ctr - x.rxHigh))).filter (fun d => decide (d ≤ 1024))) }
  else
    let d := x.rxHigh - ctr
    if 1024 < d ∨ x.rxGot.contains d then none else some { x with rxGot := x.rxGot ++ [d] }

/-- The transport's verdict on a sequence number (check 5). -/
inductive PsnFate where
  | fresh | dup | ahead
  deriving DecidableEq, Repr

/-- Check 5. -/
def State.psnFate (s : State) (q c psn : Nat) : PsnFate :=
  let x := s.conn q c
  if s.connUet q c then (if x.uetGot.contains psn then .dup else .fresh)
  else
    let d := (psn + 2 ^ 24 - x.psn) % 2 ^ 24
    if d = 0 then .fresh else if 2 ^ 23 ≤ d then .dup else .ahead

/-- The sequence number is taken. -/
def State.psnTake (s : State) (q c psn : Nat) (b : PktBody) : State :=
  if s.connUet q c then s.updConn q c (fun x => { x with uetGot := x.uetGot ++ [psn] })
  else s.updConn q c (fun x => { x with psn := (psn + reqPsns x.mtuBytes b) % 2 ^ 24 })

/-- Check 6: the token bucket of CN_RXLIM, Gb/s with a burst of 64 KiB. -/
def State.rxLimit (s : State) (q c len : Nat) : State × Bool :=
  let lim := s.rd (265 + q) (cnRxlim c)
  let x := s.conn q c
  let used := x.used - lim * (s.now - x.usedAt)
  if lim = 0 then (s, true)
  else if used + 8 * len ≤ 8 * 65536 then (s.updConn q c (fun y => { y with used := used + 8 * len, usedAt := s.now }), true)
  else (s, false)

/-- Check 7: an operation served by the connection's transport (R427). -/
def State.opServed (s : State) (q c : Nat) (r : PeerReq) : Bool :=
  match r.op with
  | .put | .get => true
  | .for_ => s.connUet q c && (r.len == 4 || r.len == 8)
  | _ => r.len == 8 || (s.connUet q c && r.len == 4)

/-- Bytes that a request covers. -/
def reqLen (r : PeerReq) : Nat := match r.op with | .put => r.data.length | _ => r.len

/-- Check 8 (R422, R428). -/
def State.keyOk (s : State) (q c : Nat) (r : PeerReq) : Bool :=
  let k := fld r.key 11 0
  let cn := s.rd tkPlace (tkConn k)
  fld r.key 31 20 == 0 && s.keyLive k (s.rd (265 + q) (cnPart c)) && fld r.key 19 12 == s.rd tkPlace (tkGen k)
    && (cn == 0xFFF || cn == c)
    && (s.rd tkPlace (tkRights k)).testBit (opRight r.op)
    && decide (r.off + reqLen r ≤ s.tkLen k)
    && (!opAtomic r.op || (s.tkPga k + r.off) % r.len == 0)

/-- Check 9: room in the receive buffer. -/
def State.rxRoom (s : State) (q c : Nat) (r : PeerReq) : Bool :=
  decide ((s.port q).held + r.data.length ≤ 2 ^ 25) && decide ((s.conn q c).held + r.data.length ≤ 2 ^ 20)

/-- An acknowledgement of one packet (R429). -/
def State.sendAck (s : State) (q c psn : Nat) : State := s.sendOnce q c 0 (.ack [psn] [])

/-- A duplicate is answered without being applied again (R427, R428). -/
def State.answerAgain (s : State) (q c psn : Nat) (b : PktBody) : State :=
  let s1 := s.sat (265 + q) (cnDup c)
  match b with
  | .req r =>
    if r.op = .get then (if s.keyOk q c r then s1.reqIssue q c psn r else s1)
    else if opAtomic r.op then
      (match (s.conn q c).replies.find? (fun e => e.1 == psn) with
       | some e => s1.sendOnce q c 0 (.atomicOld psn e.2)
       | none => s1)
    else s1.sendAck q c psn
  | _ => s1.sendAck q c psn

/-- A request passes checks 5–9 or fails one (R428–R430, R453). -/
def State.reqRx (s : State) (q port c len psn : Nat) (b : PktBody) : State :=
  let n := 265 + q
  match s.psnFate q c psn with
  | .dup => s.answerAgain q c psn b
  | .ahead => s.sendOnce q c 0 (.seqNak (s.conn q c).psn)
  | .fresh =>
    if s.moltPaused (s.rd n (cnPart c)) then s.sat n (ptRxFull port)
    else
      let l := s.rxLimit q c len
      if !l.2 then l.1.sat n (ptOverRate port)
      else
        let s := l.1
        match b with
        | .req r =>
          if !s.opServed q c r then ((s.psnTake q c psn b).sendOnce q c 0 .invalidReq).connError q c 5 0
          else if !s.keyOk q c r then
            (((s.psnTake q c psn b).sat tkPlace (tkErr (fld r.key 11 0))).sendOnce q c 0 .accessErr).connError q c 5 0
          else if !s.rxRoom q c r then s.sat n (ptRxFull port)
          else
            let s1 := (s.psnTake q c psn b).sendAck q c psn
            (match s.epOf q (fld r.key 11 0) with
             | some e =>
               if r.op = .put then
                 s1.updPort q (fun x => { x with held := x.held + r.data.length, conns := x.conns.upd {} c (fun y =>
                   if r.last then { y with held := y.held + r.data.length, msg := [], msgs := y.msgs ++ [(e, y.msg ++ r.data)] }
                   else { y with held := y.held + r.data.length, msg := y.msg ++ r.data }) })
               else s1.reqIssue q c psn r
             | none => s1.reqIssue q c psn r)
        | _ => ((s.psnTake q c psn b).sendOnce q c 0 .invalidReq).connError q c 5 0

/-! ### Collective packets (R439) -/

/-- A packet of group `g` on connection `c`: one of an older epoch is acknowledged and discarded, one of a newer epoch gets no
acknowledgement, and one of the current epoch acts. -/
def State.groupRx (s : State) (q c psn g : Nat) (epoch : W32) (b : PktBody) : State :=
  let n := 265 + q
  if s.rd n (grState g) = 0 then s
  else match (s.group q g).conns.find? (fun x => x.2 == c) with
  | none => s
  | some (r, _) =>
    match s.psnFate q c psn with
    | .dup => s.answerAgain q c psn b
    | .ahead => s.sendOnce q c 0 (.seqNak (s.conn q c).psn)
    | .fresh =>
      let cur := s.rd n (grEpoch g)
      if cur < epoch.toNat then s
      else
        let s1 := (s.psnTake q c psn b).sendAck q c psn
        if epoch.toNat < cur then s1.sat n (grEpochDrop g)
        else match b with
          | .coll _ _ id parts => s1.collPacket q g r id parts
          | .digest _ _ ds => s1.digestIn q g r ds
          | .abort _ _ lost => s1.groupAbort q g lost
          | _ => s1

/-! ### Authenticated packets -/

/-- A CNP halves the rate, not below 1 Gb/s and at most once per 50 µs (R434). -/
def State.cnpRx (s : State) (q c : Nat) : State :=
  let x := s.conn q c
  let line := (bitsOf (BitVec.ofNat 8 (s.rd (265 + q) (cnPorts c))) 8).map (fun p => modeRate (s.portMode q p))
  let cur := if x.rate = 0 then line.headD 0 else x.rate
  let early := match x.cutAt with | none => false | some t => decide (s.now < t + 50000)
  if early then s.updConn q c (fun y => { y with cnpAt := s.now })
  else s.updConn q c (fun y => { y with rate := max 1000 (cur / 2), cnpAt := s.now, cutAt := some s.now })

/-- An ECN-marked packet draws a CNP, at most one per 50 µs (R434). -/
def State.ecnRx (s : State) (q c : Nat) (ecn : Bool) : State :=
  let early := match (s.conn q c).cnpOut with | none => false | some t => decide (s.now < t + 50000)
  if !ecn || s.connUet q c || early then s
  else (s.updConn q c (fun y => { y with cnpOut := some s.now })).sendOnce q c 0 .cnp

/-- The retries of a connection are over (R434). -/
def State.retryOut (s : State) (q c : Nat) : Bool := decide ((s.conn q c).retry.toNat ≤ (s.conn q c).tries)

/-- A RoCEv2 connection retransmits from the oldest packet, or gives up (R434). -/
def State.retryAll (s : State) (q c : Nat) : State :=
  if (s.conn q c).unacked = [] then s
  else if s.retryOut q c then s.connError q c 1 0
  else (s.updConn q c (fun x => { x with tries := x.tries + 1 })).resend q c (fun _ => true)

/-- What an authenticated, unreplayed packet does. -/
def State.bodyRx (s : State) (q port c len psn : Nat) (b : PktBody) : State :=
  match b with
  | .req _ | .unsupported => s.reqRx q port c len psn b
  | .handshake => s
  | .ack psns missing =>
    let s1 := s.acked q c psns
    if s.connUet q c then s1.resend q c (fun t => missing.contains t.psn) else s1
  | .seqNak psn => if s.connUet q c then s else if (s.conn q c).unacked.any (fun t => t.psn == psn) then s.retryAll q c else s
  | .accessErr => s.connError q c 2 0
  | .invalidReq => s.connError q c 3 0
  | .readData r pos bs => s.readBack q c r pos bs
  | .atomicOld r old => s.oldBack q c r old
  | .cnp => if s.connUet q c then s else s.cnpRx q c
  | .keepalive g epoch st =>
    (match (s.group q g).conns.find? (fun x => x.2 == c) with
     | none => s
     | some (r, _) => if s.rd (265 + q) (grState g) = 0 ∨ s.rd (265 + q) (grEpoch g) ≠ epoch.toNat then s else s.keepalive q g r st)
  | .coll g epoch _ _ | .digest g epoch _ | .abort g epoch _ => s.groupRx q c psn g epoch b

/-- A sealed packet from `src` (checks 3 and 4 of R428, R426): RoCEv2's seal header has its version, the epoch of its counter, and zeros. -/
def State.packetRx (s : State) (q port : Nat) (src : BitVec 128) (c len : Nat) (hdr : BitVec 96) (psn : Nat) (ecn : Bool) (b : PktBody) : State :=
  let n := 265 + q
  let st := s.rd n (cnState c)
  let x := s.conn q c
  let ctr : W64 := BitVec.ofNat 64 (fld hdr 95 32)
  let e := ctr.toNat / 2 ^ 32
  if src ≠ x.peerIp ∨ (!s.connUet q c ∧ hdr ≠ sealHeader ctr.toNat) then s.sat n (ptAuthFail port)
  else if st = 1 then (if b = .handshake then s.wr n (cnState c) 2 else s.sat n (ptAuthFail port))
  else if st ≠ 2 then s.sat n (ptAuthFail port)
  else
    let seen := fun (s : State) => ((s.connGroups q c).foldl (fun s y => s.heardFrom q y.1 y.2) s).ecnRx q c ecn
    if s.connUet q c then (seen s).bodyRx q port c len psn b
    else if e ≠ x.rxEpoch ∧ e ≠ x.rxEpoch + 1 then s.sat n (ptAuthFail port)
    else match x.window ctr.toNat with
      | none => s.sat n (ptReplay port)
      | some x' => (seen (s.updConn q c (fun _ => { x' with rxEpoch := e }))).bodyRx q port c len psn b

/-- MACsec validates a frame, Strict (R421): none where it fails. A packet number below the replay window's is a replay. -/
def State.macsecRx (s : State) (q port : Nat) (f : Frame) : Option State :=
  if s.rd (265 + q) (ptMacsec port) = 0 then some s
  else match f.sec with
  | none => none
  | some t =>
    let k := 16 * port + 4 * t.sc.val + t.an.val
    let next := (s.port q).msRx.get 1 k
    if !t.ok || decide (t.pn + s.rd (265 + q) (ptMsReplay port) < next) then none
    else some (s.updPort q (fun x => { x with msRx := x.msRx.put 1 k (max next (t.pn + 1)) }))

/-- Check 2 of R428: the frame is for the port, within its largest frame, and one that the port takes (R419). -/
def State.frameMine (s : State) (q port : Nat) (f : Frame) : Bool :=
  let n := 265 + q
  let ip := fun (a : BitVec 128) => (s.portAddrs q port).contains a
  decide (f.len ≤ s.rd n (ptMtu port)) && (f.sec.isNone || decide (s.rd n (ptMacsec port) = 1))
    && (match f.kind with
        | .neighbour a => ip a
        | .echo a => ip a && decide (f.mac = s.portMac q port) && decide (s.rd n (ptEcho port) = 1)
        | .packet dst _ _ _ _ _ _ => ip dst && decide (f.mac = s.portMac q port)
        | .noClass => false
        | _ => true)

/-- PT_FEC_CORR after `c` more corrected symbols; it saturates (R421). -/
def State.fecCount (s : State) (n port c : Nat) : State := s.wr n (ptFecCorr port) (min 0xFFFFFFFF (s.rd n (ptFecCorr port) + c))

/-- ETH_FRAME_RX (R419–R421, R428). An event message of IEEE 1588 is stamped, and disciplines the time base on the port of PT_PTP. -/
def State.frameRx (s : State) (q port : Nat) (f : Frame) : State :=
  let n := 265 + q
  if !s.portUp q port then s
  else
    let s0 := s.fecCount n port f.corrected
    if f.kind = .badCodeword then (s0.sat n (ptFecUncorr port)).sat n (ptRxFcs port)
    else if f.kind = .badFcs then s0.sat n (ptRxFcs port)
    else match s0.macsecRx q port f with
    | none => s0.sat n (ptMacsecDrop port)
    | some s1 =>
      if !s1.frameMine q port f then s1.sat n (ptRxNoclass port)
      else match f.kind with
      | .neighbour _ => s1.emit (.linkReply q port false)
      | .echo _ => s1.emit (.linkReply q port true)
      | .ptp off adj =>
        let s2 := s1.emit (.stamp q port s.tb)
        if s.rd n (ptPtp port) = 1 ∧ s.hrd tbmDisc = 2 ∧ s.hub.score.fwUp then s2.servo off adj else s2
      | .unauth => s1.sat n (ptAuthFail port)
      | .uetReplay => s1.sat n (ptReplay port)
      | .packet _ src c hdr psn ecn b => (s1.packetRx q port src c f.len hdr psn ecn b).portPoll q
      | _ => s1

end Sys2Proof.Machine
end

