-- ==== Sys2Proof/Machine/PortInsn.lean ====
section
/-! DEFINITION. The Ethernet port dies' commands, work requests and events (chapter 14). -/

namespace Sys2Proof.Machine

/-- Port die `q` is an Ethernet port die: PD-E and PD-W always, PD-S in that role (R375, R417). -/
def State.isEth (s : State) (q : Nat) : Bool := q == 1 || q == 3 || (q == 2 && (s.port 2).ethRole)

/-- The block of partition `p` in a port die. -/
def State.blk (s : State) (q p : Nat) : PortBlk := (s.port q).blk.get {} p
/-- It changed. -/
def State.updBlk (s : State) (q p : Nat) (f : PortBlk → PortBlk) : State := s.updPort q (fun x => { x with blk := x.blk.upd {} p f })

/-! ### Port commands (R431) -/

/-- PR_STATUS. -/
def prOk : Nat := 0
def prBadParam : Nat := 1
def prNotOwner : Nat := 2
def prTkBusy : Nat := 3
def prWinMismatch : Nat := 4
def prConnBusy : Nat := 5
def prNoPort : Nat := 6
def prNonceReused : Nat := 7

/-- The oldest command of partition `p`'s queue, if its opcode is `op` or reserved, and no TK_UNBIND is running. -/
def State.portHead (s : State) (q p op : Nat) : Option (BitVec 512) :=
  let b := s.blk q p
  if !s.isEth q || b.unbinding.isSome then none
  else b.cmdq.head?.bind (fun c => if fld c 7 0 = op ∨ fld c 7 0 = 0 ∨ 5 < fld c 7 0 then some c else none)

/-- The 16-byte result of a port command. -/
def State.portResult (s : State) (q p : Nat) (c : BitVec 512) (st value : Nat) : State :=
  s.portPut q p (fld c 87 32) (BitVec.ofNat 16 (fld c 31 16)) (bytesLE 16 (value % 2 ^ 32 + st * 2 ^ 32)) .plain

/-- Bits that no parameter of the opcode uses are 0. -/
def pcReserved (c : BitVec 512) : Bool :=
  fld c 15 8 == 0 && fld c 95 88 == 0
    && (match fld c 7 0 with
        | 1 => fld c 511 227 == 0
        | 3 => fld c 127 121 == 0 && fld c 511 437 == 0
        | _ => fld c 511 108 == 0)

/-- A port command leaves the queue and runs; a reserved one is BAD_PARAM. -/
def State.portRun (s : State) (q p op : Nat) (f : BitVec 512 → State → State) : State :=
  match s.portHead q p op with
  | none => s
  | some c =>
    let s1 := s.updBlk q p (fun b => { b with cmdq := b.cmdq.drop 1 })
    if fld c 7 0 ≠ op ∨ !pcReserved c then s1.portResult q p c prBadParam 0 else f c s1

/-- The window entry that a binding is checked against (R423): its memory in partition `p`. -/
def State.bindWindow (s : State) (p : Nat) (t : Tgt) (tag : W16) (k off len rights : Nat) : Bool :=
  let i := fld tag 15 8
  let w := (s.unit t).window i
  s.inPart p t && decide (i < segCount t) && w.st == .open && w.skind.toNat == 2 && w.srcval.toNat == k && w.gen.toNat == fld tag 7 0
    && decide (64 * w.base64.toNat ≤ off) && decide (off + len ≤ 64 * w.limit64.toNat) && decide (rights &&& w.rights.toNat = rights)

/-- TK_BIND (R422, R423). -/
def State.tkBind (s : State) (q p : Nat) (c : BitVec 512) : State :=
  let k := fld c 107 96
  let a := fld c 163 108
  let len := 64 * fld c 194 164
  let rights := fld c 197 195
  let tag : W16 := BitVec.ofNat 16 (fld c 226 211)
  if a % 64 ≠ 0 ∨ len = 0 then s.portResult q p c prBadParam 0
  else if s.rd tkPlace (tkOwner k) ≠ p then s.portResult q p c prNotOwner 0
  else if s.rd tkPlace (tkBound k) = 1 then s.portResult q p c prTkBusy 0
  else match decodePga (BitVec.ofNat 56 a) len (s.partStacks p).length with
    | some (.direct t off) =>
      if segReg t then s.portResult q p c prBadParam 0
      else if !s.bindWindow p t tag k off len rights then s.portResult q p c prWinMismatch 0
      else
        let gen := (nextGen (BitVec.ofNat 8 (s.rd tkPlace (tkGen k)))).toNat
        let cell := match t with | .tile t => tileCell t | _ => nodeCell (tgtNode t)
        let s1 := (((s.wr tkPlace (tkGen k) gen).wr tkPlace (tkBound k) 1).wr tkPlace (tkRights k) rights).wr tkPlace (tkLocal k) (fld c 198 198)
        let s2 := ((s1.wr tkPlace (tkConn k) (fld c 210 199)).wr tkPlace (tkCell k) cell.toNat).wr tkPlace (Machine.tkTag k) tag.toNat
        let s3 := ((s2.wr tkPlace (tkPgaLo k) (a % 2 ^ 32)).wr tkPlace (tkPgaHi k) (a / 2 ^ 32)).wr tkPlace (tkLen64 k) (len / 64)
        ((s3.wr tkPlace (tkInfl k) 0).wr tkPlace (tkErr k) 0).portResult q p c prOk (k + gen * 2 ^ 12)
    | _ => s.portResult q p c prBadParam 0

/-- TK_BIND (R423, R431). -/
def execTkBind (q : Fin 4) (p : PartNo) (s : State) : Result := .next (s.portRun q.val p.val 1 (fun c s => s.tkBind q.val p.val c))

/-- TK_UNBIND (R424): new arrivals are refused at once. -/
def execTkUnbind (q : Fin 4) (p : PartNo) (s : State) : Result :=
  .next (s.portRun q.val p.val 2 (fun c s =>
    let k := fld c 107 96
    if s.rd tkPlace (tkOwner k) ≠ p.val then s.portResult q.val p.val c prNotOwner 0
    else if !s.keyLive k p.val then s.portResult q.val p.val c prBadParam 0
    else s.updBlk q.val p.val (fun b => { b with unbinding := some c })))

/-- TK_UNBIND_COMPLETE (R424): every operation of the key has its answer. -/
def execTkUnbindComplete (q : Fin 4) (p : PartNo) (s : State) : Result :=
  .next (match (s.blk q.val p.val).unbinding with
    | none => s
    | some c =>
      let k := fld c 107 96
      if s.rd tkPlace (tkInfl k) ≠ 0 then s
      else
        let gen := (nextGen (BitVec.ofNat 8 (s.rd tkPlace (tkGen k)))).toNat
        (((s.updBlk q.val p.val (fun b => { b with unbinding := none })).wr tkPlace (tkBound k) 0).wr tkPlace (tkGen k) gen).portResult q.val p.val c prOk 0)

/-- The code of a port die in endpoint IDs and QPNs: 1 PD-E, 2 PD-S, 3 PD-W (R425). -/
def portCode (q : Nat) : Nat := q

/-- A connection entry as CONN_OPEN leaves it (R425, R426, R431). -/
def State.connEntry (s : State) (q p i : Nat) (c : BitVec 512) : State :=
  let n := 265 + q
  let uet := fld c 108 108
  let s1 := ((((s.wr n (cnState i) (if uet = 1 then 1 else 2)).wr n (cnUet i) uet).wr n (cnPart i) p).wr n (cnPorts i) (fld c 116 109)).wr n (cnEpoch i) 0
  let s2 := ((((s1.wr n (cnErrwhy i) 0).wr n (cnRcode i) 0).wr n (cnTxctrLo i) 0).wr n (cnTxctrHi i) 0).wr n (cnWrOutst i) 0
  let old := (s.conn q i).nonces
  s2.updConn q i (fun _ => {
    peerId := BitVec.ofNat 64 (fld c 191 128), nk := fld c 120 117, nonce := BitVec.ofNat 64 (fld c 255 192)
    nonces := (old ++ [BitVec.ofNat 64 (fld c 255 192)]).drop (old.length + 1 - 16)
    peerIp := BitVec.ofNat 128 (fld c 383 256), peerQpn := BitVec.ofNat 24 (fld c 407 384), mtu := BitVec.ofNat 2 (fld c 409 408)
    tmo := BitVec.ofNat 5 (fld c 414 410), retry := BitVec.ofNat 3 (fld c 417 415), srcIp := bit c 418
    vlan := BitVec.ofNat 12 (fld c 430 419), dscp := BitVec.ofNat 6 (fld c 436 431) })

/-- CONN_OPEN (R425, R427, R431): RoCEv2 is OPEN at once, UET after its handshake. -/
def State.connOpenCmd (s : State) (q p : Nat) (c : BitVec 512) : State :=
  let i := fld c 107 96
  let ports := bitsOf (BitVec.ofNat 8 (fld c 116 109)) 8
  let uet := bit c 108
  if fld c 409 408 = 3 ∨ (uet ∧ fld c 409 408 ≠ 2) ∨ ports = [] ∨ (!uet ∧ ports.length ≠ 1) then s.portResult q p c prBadParam 0
  else if s.rd (265 + q) (cnState i) ≠ 0 then s.portResult q p c prConnBusy 0
  else if ports.all (fun j => !s.portOn q j) then s.portResult q p c prNoPort 0
  else if (s.conn q i).nonces.contains (BitVec.ofNat 64 (fld c 255 192)) then s.portResult q p c prNonceReused 0
  else (s.connEntry q p i c).portResult q p c prOk (portCode q * 2 ^ 20 + i)

/-- CONN_OPEN (R425, R431). -/
def execConnOpen (q : Fin 4) (p : PartNo) (s : State) : Result := .next (s.portRun q.val p.val 3 (fun c s => s.connOpenCmd q.val p.val c))

/-- A connection returns to CLOSED (R431): its work requests end, nothing is sent. -/
def State.connShut (s : State) (q i : Nat) : State :=
  let n := 265 + q
  let s1 := s.flushConn q i 4
  let x := s.conn q i
  ((((s1.wr n (cnState i) 0).wr n (cnPart i) 0x1F).wr n (cnPorts i) 0).updPort q (fun y => { y with
    held := y.held - (x.msg.length + (x.msgs.map (fun m => m.2.length)).sum)
    conns := y.conns.put {} i { nonces := x.nonces, held := x.held - (x.msg.length + (x.msgs.map (fun m => m.2.length)).sum) } })).portPoll q

/-- CONN_CLOSE (R431). -/
def execConnClose (q : Fin 4) (p : PartNo) (s : State) : Result :=
  .next (s.portRun q.val p.val 4 (fun c s =>
    let i := fld c 107 96
    if s.rd (265 + q.val) (cnPart i) ≠ p.val then s.portResult q.val p.val c prNotOwner 0
    else (s.connShut q.val i).portResult q.val p.val c prOk 0))

/-- CONN_QUERY (R431). -/
def execConnQuery (q : Fin 4) (p : PartNo) (s : State) : Result :=
  .next (s.portRun q.val p.val 5 (fun c s =>
    let i := fld c 107 96
    if s.rd (265 + q.val) (cnPart i) ≠ p.val then s.portResult q.val p.val c prNotOwner 0
    else s.portResult q.val p.val c prOk (s.reg (265 + q.val) (0x300000 + 64 * i)).toNat))

/-! ### Work requests (R432, R433) -/

/-- The oldest work request of partition `p` is taken if its operation is `op`, or reserved; a molt holds it (R424). -/
def State.wrNext (s : State) (q p op : Nat) : State :=
  match (s.blk q p).wrq with
  | [] => s
  | w :: _ =>
    let o := wrOp w
    if !s.isEth q || s.moltPaused p || !(o == op || o == 0 || decide (5 < o)) || decide (256 ≤ s.rd (265 + q) (cnWrOutst (wrConn w))) then s
    else (s.updBlk q p (fun b => { b with wrq := b.wrq.drop 1 })).wrTake q p w none

/-- WR_WRITE (R432). -/
def execWrWrite (q : Fin 4) (p : PartNo) (s : State) : Result := .next (s.wrNext q.val p.val 1)
/-- WR_READ (R432). -/
def execWrRead (q : Fin 4) (p : PartNo) (s : State) : Result := .next (s.wrNext q.val p.val 2)
/-- WR_FADD (R432). -/
def execWrFadd (q : Fin 4) (p : PartNo) (s : State) : Result := .next (s.wrNext q.val p.val 3)
/-- WR_CSWAP (R432). -/
def execWrCswap (q : Fin 4) (p : PartNo) (s : State) : Result := .next (s.wrNext q.val p.val 4)
/-- WR_FOR (R432). -/
def execWrFor (q : Fin 4) (p : PartNo) (s : State) : Result := .next (s.wrNext q.val p.val 5)

/-- WR_COMPLETION (R433): work request `i` of those taken has ended, and its record goes out; under RoCEv2 in request order. -/
def execWrCompletion (q : Fin 4) (i : Nat) (s : State) : Result :=
  .next (match (s.port q.val).wrs[i]? with
    | none => s
    | some r =>
      let c := wrConn r.w
      match r.fate with
      | none => s
      | some (st, code) =>
        if r.clx.isSome ∨ (!s.connUet q.val c ∧ ((s.port q.val).wrs.take i).any (fun e => wrConn e.w == c && e.clx.isNone)) then s
        else ((s.wrGone q.val r).portPut q.val r.part (fld r.w 287 232) (BitVec.ofNat 16 (fld r.w 303 288))
          (crBytes r.w st code (if 3 ≤ wrOp r.w then 0 else r.got)) (.wrDone c)).wrPump q.val c)

/-! ### Events -/

/-- ETH_FRAME_RX (R428). -/
def execEthFrameRx (q : Fin 4) (port : Fin 8) (f : Frame) (s : State) : Result :=
  .next (if s.isEth q.val then s.frameRx q.val port.val f else s)

/-- ROCE_ACK_TIMEOUT (R434): 4.096 µs × 2^PO_TMO have passed since the oldest packet went. -/
def execRoceAckTimeout (q : Fin 4) (c : Fin 4096) (s : State) : Result :=
  let x := s.conn q.val c.val
  .next (match x.unacked with
    | [] => s
    | t :: _ =>
      if s.connUet q.val c.val || !s.connOpen q.val c.val || s.connPaused q.val c.val then s
      else (((s.till (t.at_ + 4096 * 2 ^ x.tmo.toNat)).retryAll q.val c.val).portPoll q.val))

/-- UET_RTO_EXPIRY (R434): packet `psn` has had no acknowledgement for ETH_UET_RTO. -/
def execUetRtoExpiry (q : Fin 4) (c : Fin 4096) (psn : Nat) (s : State) : Result :=
  let x := s.conn q.val c.val
  .next (match x.unacked.find? (fun t => t.psn == psn) with
    | none => s
    | some t =>
      if !s.connUet q.val c.val || !s.connOpen q.val c.val || s.connPaused q.val c.val then s
      else
        let s1 := s.till (t.at_ + 1000 * max 1 (s.rd (265 + q.val) uetRtoUs))
        (if x.retry.toNat ≤ t.tries then s1.connError q.val c.val 1 0 else s1.resend q.val c.val (fun u => u.psn == psn)).portPoll q.val)

/-- CNP_RATE_INCREASE (R434). -/
def execCnpRateIncrease (q : Fin 4) (c : Fin 4096) (s : State) : Result :=
  let x := s.conn q.val c.val
  let line := ((bitsOf (BitVec.ofNat 8 (s.rd (265 + q.val) (cnPorts c.val))) 8).map (fun p => modeRate (s.portMode q.val p))).headD 0
  .next (if x.rate = 0 ∨ s.connUet q.val c.val ∨ !s.connOpen q.val c.val then s
    else (s.till (x.cnpAt + 55000)).updConn q.val c.val (fun y => { y with
      rate := if line ≤ y.rate + line / 20 then 0 else y.rate + line / 20, cnpAt := max s.now (x.cnpAt + 55000) }))

/-- ETH_PORT_UP (R417, R418, R495): the port has trained; a bad or failing lane makes it FAILED. `ok` tells that no lane failed. -/
def execEthPortUp (q : Fin 4) (port : Fin 8) (ok : Bool) (s : State) : Result :=
  let n := 265 + q.val
  let st := s.rd n (ptState port.val)
  let bad := (modeLanes (s.portMode q.val port.val) (port.val % 2)).any (fun l => (s.rd n (qBadlane (port.val / 2))).testBit l)
  .next (if !s.isEth q.val || !s.portOn q.val port.val || (st != 1 && st != 3) then s
    else if bad || !ok then (s.setPort q.val port.val 4).raiseReason 7
    else s.setPort q.val port.val 2)

/-- A port goes down: the packets outstanding on it go out again on the remaining ports (R434). -/
def State.portDown (s : State) (q port st : Nat) : State :=
  if !s.portUp q port then s.wr (265 + q) (ptState port) st
  else ((s.port q).conns.map (·.1)).foldl (fun s c => if s.connOpen q c then s.resend q c (fun t => t.port == port) else s) (s.setPort q port st)

/-- ETH_PORT_DOWN (R434, R435, R495). -/
def execEthPortDown (q : Fin 4) (port : Fin 8) (s : State) : Result :=
  .next (if s.portUp q.val port.val then s.portDown q.val port.val 3 else s)

/-- A quad's ports train again in its configured mode (R417, R418); a FAILED port stays so. -/
def State.retrain (s : State) (q quad : Nat) : State :=
  [2 * quad, 2 * quad + 1].foldl (fun s j =>
    if s.rd (265 + q) (ptState j) = 4 then s else s.portDown q j (if s.portOn q j then 1 else 0)) (s.applyMode q quad)

/-- Q_RETRAIN (R417). -/
def execQRetrain (q quad : Fin 4) (s : State) : Result := .next (if s.isEth q.val then s.retrain q.val quad.val else s)

end Sys2Proof.Machine
end

