-- ==== Sys2Proof/Machine/FleetInsn.lean ====
section
/-! DEFINITION. The collective engine's commands and events, and the effective-capacity record (chapter 15). -/

namespace Sys2Proof.Machine

/-! ### The collective queue (R443) -/

/-- The oldest command of partition `p`'s collective queue, if its opcode is `op`, and no other of the partition runs. -/
def State.clxHead (s : State) (q p : Nat) (ok : BitVec 512 → Bool) : Option (BitVec 512) :=
  if !s.isEth q || (s.port q).clx.any (fun x => x.part == p && !x.held && !x.parked) then none
  else (s.blk q p).clxq.head?.bind (fun c => if ok c || fld c 7 0 == 0 || decide (11 < fld c 7 0) then some c else none)

/-- Reserved bits are 0, and CX_GROUP and CX_EP stand only where their commands use them. -/
def cxReserved (c : BitVec 512) : Bool :=
  let op := fld c 7 0
  fld c 15 14 == 0 && fld c 127 127 == 0 && fld c 319 316 == 0
    && (decide (1 ≤ op ∧ op ≤ 4) || fld c 13 8 == 0) && (decide (8 ≤ op ∧ op ≤ 11) || fld c 315 308 == 0)

/-- A collective command leaves its queue and runs; a malformed one ends BAD_CMD. -/
def State.clxRun (s : State) (q p : Nat) (ok : BitVec 512 → Bool) (f : BitVec 512 → State → State) : State :=
  match s.clxHead q p ok with
  | none => s
  | some c =>
    let s1 := s.updBlk q p (fun b => { b with clxq := b.clxq.drop 1 })
    if !ok c || !cxReserved c then s1.clxRecord q p c ccBadCmd 0 0 false 0 else f c s1

/-- The layout gives partition `p` group `g` (R437). -/
def State.ownsGroup (s : State) (p g : Nat) : Bool :=
  (s.hub.rot.layout.find? (fun e => e.id == p)).any (fun e => decide (e.grpBase ≤ g ∧ g < e.grpBase + e.grpCnt))

/-- The layout gives partition `p` endpoint `e` (R453). -/
def State.ownsEp (s : State) (p e : Nat) : Bool :=
  (s.hub.rot.layout.find? (fun x => x.id == p)).any (fun x => decide (x.epBase ≤ e ∧ e < x.epBase + x.epCnt))

/-- Opcode `o`, as a test. -/
def cxIs (o : Nat) (c : BitVec 512) : Bool := fld c 7 0 == o

/-! ### Groups (R437, R446, R447) -/

/-- What GROUP_CREATE asks for can be (R437, R442): a connection of the partition is OPEN to every partner. -/
def State.groupOk (s : State) (q p g : Nat) (d : GroupDesc) : Bool :=
  s.ownsGroup p g && s.rd (265 + q) (grState g) == 0 && decide (1 ≤ d.n ∧ d.n ≤ 4096 ∧ d.rank < d.n ∧ 1 ≤ d.nrails ∧ d.nrails ≤ 3 ∧ d.rail < d.nrails)
    && (partners d.n d.rank).all (fun r => d.conns.any (fun x => x.1 == r && s.connOpen q x.2 && s.rd (265 + q) (cnPart x.2) == p))

/-- A group entry as GROUP_CREATE fills it. -/
def State.groupMake (s : State) (q p g : Nat) (d : GroupDesc) : State :=
  let n := 265 + q
  let s1 := ((((s.wr n (grState g) 2).wr n (grPart g) p).wr n (grRail g) d.rail).wr n (grNrails g) d.nrails).wr n (grStateSelf g) 0
  let s2 := (((s1.wr n (grN g) d.n).wr n (grRank g) d.rank).wr n (grEpoch g) d.epoch.toNat).wr n (grLostV g) 0
  let s3 := ((s2.wr n (grAborts g) 0).wr n (grHeld g) 0).updGroup q g (fun _ => { conns := d.conns })
  (partners d.n d.rank).foldl (fun s k => s.heardFrom q g k) s3

/-- GROUP_CREATE (R437). -/
def execGroupCreate (q : Fin 4) (p : PartNo) (d : GroupDesc) (s : State) : Result :=
  .next (s.clxRun q.val p.val (cxIs 1) (fun c s =>
    let g := cxGroup c
    if s.groupOk q.val p.val g d then
      (let s1 := s.groupMake q.val p.val g d
       s1.clxRecord q.val p.val c ccOk 0 0 false (s1.groupTail q.val g))
    else s.clxRecord q.val p.val c ccBadCmd 0 0 false 0))

/-- The group is partition `p`'s. -/
def State.inGroup (s : State) (q p g : Nat) : Bool := s.rd (265 + q) (grState g) != 0 && s.rd (265 + q) (grPart g) == p

/-- GROUP_SHRINK (R447): the bitmap is read, and the collectives in progress are set aside. -/
def State.shrinkBegin (s : State) (q p : Nat) (c : BitVec 512) : State :=
  let n := 265 + q
  let g := cxGroup c
  let st := s.rd n (grState g)
  if !s.inGroup q p g || (st != 2 && st != 3) || decide (fld c 351 320 ≤ s.rd n (grEpoch g)) || !s.localKey p (cxStk c) (cxSpga c) 512 1 then
    s.clxRecord q p c ccBadCmd 0 0 false (s.groupTail q g)
  else
    let s1 := (if st = 2 then s.holdGroup q g else s).wr n (grState g) 4
    let r := s1.clxStart q p c id
    let l := r.1.locGet q p (s.tkTag (cxStk c)) (cxSpga c) 512 (fun pos => .clx r.2 pos)
    l.1.updClx q r.2 (fun x => { x with open_ := l.2 })

/-- GROUP_SHRINK (R447). -/
def execGroupShrink (q : Fin 4) (p : PartNo) (s : State) : Result := .next (s.clxRun q.val p.val (cxIs 2) (fun c s => s.shrinkBegin q.val p.val c))

/-- SHRINK_DIGESTS_COMPLETE (R447): a digest of every survivor is held. -/
def execShrinkDigestsComplete (q : Fin 4) (g : Fin 64) (s : State) : Result :=
  .next (match (s.group q.val g.val).shrink with
    | none => s
    | some h =>
      if !h.complete then s
      else if h.agree then s.shrinkAdopt q.val g.val h
      else s.shrinkFail q.val g.val h)

/-- SHRINK_TIMEOUT (R447): 4 × GR_LIVE_US have passed. -/
def execShrinkTimeout (q : Fin 4) (g : Fin 64) (s : State) : Result :=
  .next (match (s.group q.val g.val).shrink with
    | none => s
    | some h => if h.complete then s else (s.till h.due).shrinkFail q.val g.val h)

/-- GROUP_DISSOLVE (R446). -/
def execGroupDissolve (q : Fin 4) (p : PartNo) (s : State) : Result :=
  .next (s.clxRun q.val p.val (cxIs 3) (fun c s =>
    let g := cxGroup c
    if s.inGroup q.val p.val g then (s.groupFree q.val g).clxRecord q.val p.val c ccOk 0 0 false (s.groupTail q.val g)
    else s.clxRecord q.val p.val c ccBadCmd 0 0 false 0))

/-! ### Collectives (R440–R445) -/

/-- The command's element type, operator, root and local keys let it run (R440, R443). -/
def State.collOk (s : State) (q p : Nat) (c : BitVec 512) : Bool :=
  let g := cxGroup c
  let k := fld c 122 120
  let n := s.rd (265 + q) (grN g)
  let total := cxCount c * cxEsz c
  let src := s.srcBlocks q c * total
  let dst := s.dstBlocks q c * total
  decide (k ≤ 4) && (if k ≤ 1 then (collOp c).isSome else true) && (decide (k ≠ 3) || decide (fld c 171 160 < n))
    && (decide (src = 0) || s.localKey p (cxStk c) (cxSpga c) src 1) && (decide (dst = 0) || s.localKey p (cxDtk c) (cxDpga c) dst 2)

/-- A command that takes up a collective from before a molt (R445). -/
def State.collAdopt (s : State) (q : Nat) (x : Clx) (c : BitVec 512) : State :=
  let ks := clxKeys c (fld c 171 160 == s.rd (265 + q) (grRank (cxGroup c)))
  let s1 := ks.foldl (fun s k => s.inc tkPlace (tkInfl k)) (s.updClx q x.id (fun y => { y with cmd := c, keys := ks, parked := false }))
  if x.held then s1
  else match x.phase with
    | .read => s1.collBegin q x.id
    | .run => s1.collPump q x.id 64
    | .land => s1.collLand q { x with cmd := c, keys := ks, parked := false }
    | .ended => s1

/-- A collective command runs: an ABORTED or SHRINKING group takes a BARRIER alone, which waits (R446). -/
def State.collRun (s : State) (q p : Nat) (c : BitVec 512) : State :=
  let g := cxGroup c
  let st := s.rd (265 + q) (grState g)
  let bad := s.clxRecord q p c ccBadCmd 0 0 false (s.groupTail q g)
  if !s.inGroup q p g || !s.collOk q p c then bad
  else match (s.port q).clx.find? (fun x => x.ofGroup g && x.parked && cxId x.cmd == cxId c && x.part == p) with
  | some x => s.collAdopt q x c
  | none =>
    if st = 2 then
      (let r := s.clxStart q p c id
       r.1.collBegin q r.2)
    else if (st = 3 ∨ st = 4) ∧ fld c 122 120 = 4 then
      (s.clxStart q p c (fun x => { x with held := true })).1.inc (265 + q) (grHeld g)
    else bad

/-- A collective of kind `k`; a reserved kind is BAD_CMD under any of the rows. -/
def State.collRow (s : State) (q p k : Nat) : State :=
  s.clxRun q p (fun c => fld c 7 0 == 4 && (fld c 122 120 == k || decide (4 < fld c 122 120))) (fun c s => s.collRun q p c)

/-- ALL_REDUCE (R440, R441). -/
def execAllReduce (q : Fin 4) (p : PartNo) (s : State) : Result := .next (s.collRow q.val p.val 0)
/-- REDUCE_SCATTER (R440, R441). -/
def execReduceScatter (q : Fin 4) (p : PartNo) (s : State) : Result := .next (s.collRow q.val p.val 1)
/-- ALL_GATHER (R440). -/
def execAllGather (q : Fin 4) (p : PartNo) (s : State) : Result := .next (s.collRow q.val p.val 2)
/-- BROADCAST (R440). -/
def execBroadcast (q : Fin 4) (p : PartNo) (s : State) : Result := .next (s.collRow q.val p.val 3)
/-- BARRIER (R440). -/
def execCollBarrier (q : Fin 4) (p : PartNo) (s : State) : Result := .next (s.collRow q.val p.val 4)

/-- COLL_COMPLETE (R443): command `i` of those in progress has ended, and its record goes out. -/
def execCollComplete (q : Fin 4) (i : Nat) (s : State) : Result :=
  .next (match (s.port q.val).clx[i]? with
    | none => s
    | some x =>
      let g := cxGroup x.cmd
      match x.fate with
      | none => s
      | some (st, code) =>
        if x.parked then s
        else
          let s1 := (s.clxDrop q.val x).clxRecord q.val x.part x.cmd st x.flags code x.replayed (s.groupTail q.val g)
          if st = ccOk then s1.inc (265 + q.val) (grOps g) else s1)

/-- STRAGGLER_TIMEOUT (R445): collective `i` of those in progress has waited longer than GR_SLOW_MS; event 7 goes out once. -/
def execStragglerTimeout (q : Fin 4) (i : Nat) (s : State) : Result :=
  .next (match (s.port q.val).clx[i]? with
    | none => s
    | some x =>
      let g := cxGroup x.cmd
      let ms := s.rd (265 + q.val) (grSlowMs g)
      if !x.ofGroup g || x.slow || x.held || x.parked || x.fate.isSome || ms == 0 then s
      else ((s.till (x.since + 1000000 * ms)).updClx q.val x.id (fun y => { y with slow := true })).event 7 (g + 256 * s.rd (265 + q.val) (grRail g)) x.part true)

/-! ### Liveness (R444, R446) -/

/-- Rank `r` is a partner of this member in a group that is not FREE. -/
def State.isPartner (s : State) (q g r : Nat) : Bool :=
  s.rd (265 + q) (grState g) != 0 && (partners (s.rd (265 + q) (grN g)) (s.rd (265 + q) (grRank g))).contains r

/-- KEEPALIVE_SEND (R444, R445): nothing has gone to partner `r` for GR_LIVE_US / 4. -/
def execKeepaliveSend (q : Fin 4) (g : Fin 64) (r : Fin 4096) (s : State) : Result :=
  let n := 265 + q.val
  let x := s.group q.val g.val
  .next (if !s.isPartner q.val g.val r.val then s
    else
      let s1 := s.till (x.sentAt.get 0 r.val + 250 * s.rd n (grLiveUs g.val))
      let st := s1.selfState (s1.rd n (grPart g.val)) x
      (s1.wr n (grStateSelf g.val) (b2n (st != .running))).sendRank q.val g.val r.val
        (.keepalive g.val (BitVec.ofNat 32 (s.rd n (grEpoch g.val))) st) true)

/-- PARTNER_LIVENESS_TIMEOUT (R444, R446): nothing is heard from partner `r` within GR_LIVE_US, or its connection is in ERROR. -/
def execPartnerLivenessTimeout (q : Fin 4) (g : Fin 64) (r : Fin 4096) (s : State) : Result :=
  let n := 265 + q.val
  let x := s.group q.val g.val
  let err := match s.rankConn q.val g.val r.val with | some c => s.rd n (cnState c) == 3 | none => false
  .next (if !s.isPartner q.val g.val r.val then s
    else (if err then s else s.till (x.heardAt.get 0 r.val + 1000 * s.rd n (grLiveUs g.val))).groupAbort q.val g.val r.val)

/-- PARTNER_PAUSE_TIMEOUT (R444): partner `r` reports PAUSED for longer than GR_PAUSE_MS. -/
def execPartnerPauseTimeout (q : Fin 4) (g : Fin 64) (r : Fin 4096) (s : State) : Result :=
  let x := s.group q.val g.val
  .next (if !s.isPartner q.val g.val r.val || s.peerState q.val g.val r.val != .paused then s
    else (s.till (x.pausedAt.get 0 r.val + 1000000 * s.rd (265 + q.val) (grPauseMs g.val))).groupAbort q.val g.val r.val)

/-- ABORT_RECEIVED (R439, R446): an ABORT of epoch `epoch` for rank `lost`. -/
def execAbortReceived (q : Fin 4) (g : Fin 64) (epoch : W32) (lost : Fin 4096) (s : State) : Result :=
  .next (if s.rd (265 + q.val) (grState g.val) ≠ 0 ∧ s.rd (265 + q.val) (grEpoch g.val) = epoch.toNat then s.groupAbort q.val g.val lost.val else s)

/-! ### Streams (R450–R452) -/

/-- A stream's connection is the partition's and OPEN. -/
def State.streamConn (s : State) (q p c : Nat) : Bool := s.connOpen q c && s.rd (265 + q) (cnPart c) == p

/-- CKPT_STREAM (R450). -/
def execCkptStream (q : Fin 4) (p : PartNo) (s : State) : Result :=
  .next ((s.clxRun q.val p.val (cxIs 5) (fun c s =>
    if !s.localKey p.val (cxStk c) (cxSpga c) (cxRange c) 1 || !s.streamConn q.val p.val (cxConn c) then s.clxRecord q.val p.val c ccBadCmd 0 0 false 0
    else
      let r := s.clxStart q.val p.val c (fun x => { x with phase := .run })
      r.1.streamNext q.val r.2)).portPoll q.val)

/-- RESTORE (R452). -/
def execRestore (q : Fin 4) (p : PartNo) (s : State) : Result :=
  .next ((s.clxRun q.val p.val (cxIs 6) (fun c s =>
    let st := (s.part p.val).sch.state
    if (st != .halted && st != .empty) || !s.localKey p.val (cxStk c) (cxSpga c) (cxRange c) 2 || cxConns c == []
        || !(cxConns c).all (fun k => s.streamConn q.val p.val k) then s.clxRecord q.val p.val c ccBadCmd 0 0 false 0
    else
      let r := s.clxStart q.val p.val c (fun x => { x with phase := .run })
      r.1.restoreNext q.val r.2)).portPoll q.val)

/-- DIGEST (R451). -/
def execDigest (q : Fin 4) (p : PartNo) (s : State) : Result :=
  .next (s.clxRun q.val p.val (cxIs 7) (fun c s =>
    if !s.localKey p.val (cxStk c) (cxSpga c) (cxRange c) 1 then s.clxRecord q.val p.val c ccBadCmd 0 0 false 0
    else if cxRange c = 0 then s.clxRecord q.val p.val c ccOk 0 0 false 0
    else
      let r := s.clxStart q.val p.val c id
      let l := r.1.locGet q.val p.val (s.tkTag (cxStk c)) (cxSpga c) (cxRange c) (fun pos => .clx r.2 pos)
      l.1.updClx q.val r.2 (fun x => { x with open_ := l.2 })))

/-! ### Endpoints (R453–R455) -/

/-- EP_OPEN (R453). -/
def execEpOpen (q : Fin 4) (p : PartNo) (s : State) : Result :=
  .next (s.clxRun q.val p.val (cxIs 8) (fun c s =>
    let e := cxEp c
    let k := fld c 331 320
    let sz := fld c 335 332
    let n := fld c 347 336 + 1
    if !s.ownsEp p.val e || (s.ep q.val e).bound || decide (sz < 12) || !s.keyLive k p.val || !(s.rd tkPlace (tkRights k)).testBit 1
        || decide (s.tkLen k < n * 2 ^ sz) || (s.epOf q.val k).isSome then s.clxRecord q.val p.val c ccBadCmd 0 0 false 0
    else (s.updEp q.val e (fun _ => {
        bound := true, part := p.val, key := k, szLog := sz, count := n
        dpga := BitVec.ofNat 56 (fld c 403 348), dtag := BitVec.ofNat 16 (fld c 419 404) })).clxRecord q.val p.val c ccOk 0 0 false 0))

/-- EP_REQUEST_ARRIVAL (R454): the oldest whole message of connection `c` is placed, or answered. -/
def execEpRequestArrival (q : Fin 4) (c : Fin 4096) (s : State) : Result :=
  .next (match (s.conn q.val c.val).msgs with
    | [] => s
    | (e, m) :: _ =>
      let s1 := s.updPort q.val (fun x => { x with held := x.held - m.length, conns := x.conns.upd {} c.val (fun y => { y with
        held := y.held - m.length, msgs := y.msgs.drop 1 }) })
      if (s.ep q.val e).bound then s1.epRequest q.val c.val e m else s1)

/-- RESPOND (R455): the body is a work request of its own; with no body the header goes at once. -/
def State.respond (s : State) (q p : Nat) (c : BitVec 512) : State :=
  match s.epHeld q p c with
  | none => s.clxRecord q p c ccBadCmd 0 0 false 0
  | some t =>
    let len := cxCount c
    if t.rmax < len ∨ 2 ^ 24 < len ∨ (len ≠ 0 ∧ !s.localKey p (cxStk c) (cxSpga c) len 1) then s.clxRecord q p c ccBadCmd 0 0 false 0
    else if !s.connOpen q t.conn then (s.epFree q (cxEp c) (cxSlot c)).clxRecord q p c ccPeerFail 0 0 false 0
    else
      let r := s.clxStart q p c (fun x => { x with phase := .run })
      if len = 0 then
        (match r.1.clx q r.2 with
         | none => r.1
         | some x => r.1.respondHeader q x t)
      else r.1.wrTake q p (BitVec.ofNat 512 (1 + t.conn * 2 ^ 12 + t.rkey.toNat * 2 ^ 32 + (t.roff + 64) % 2 ^ 64 * 2 ^ 64 + cxSpga c * 2 ^ 128
        + cxStk c * 2 ^ 184 + len * 2 ^ 200)) (some r.2)

/-- RESPOND (R455). -/
def execRespond (q : Fin 4) (p : PartNo) (s : State) : Result :=
  .next ((s.clxRun q.val p.val (cxIs 10) (fun c s => s.respond q.val p.val c)).portPoll q.val)

/-- EP_FREE (R455). -/
def execEpFree (q : Fin 4) (p : PartNo) (s : State) : Result :=
  .next (s.clxRun q.val p.val (cxIs 11) (fun c s =>
    match s.epHeld q.val p.val c with
    | none => s.clxRecord q.val p.val c ccBadCmd 0 0 false 0
    | some _ => (s.epFree q.val (cxEp c) (cxSlot c)).clxRecord q.val p.val c ccOk 0 0 false 0))

/-- EP_CLOSE (R455): every held request is answered FAILED. -/
def execEpClose (q : Fin 4) (p : PartNo) (s : State) : Result :=
  .next (s.clxRun q.val p.val (cxIs 9) (fun c s =>
    let e := cxEp c
    let x := s.ep q.val e
    if !x.bound || x.part != p.val then s.clxRecord q.val p.val c ccBadCmd 0 0 false 0
    else
      let s1 := x.slots.foldl (fun s kv => match kv.2 with
        | none => s
        | some t => s.sendHeader q.val t.conn t.rkey t.roff (rpHeader t.rid 5 0)) s
      (s1.updEp q.val e (fun _ => {})).clxRecord q.val p.val c ccOk 0 0 false 0))

/-! ### Effective capacity (R449) -/

/-- EC_SCORE (R449). -/
def State.ecScoreOf (s : State) (p live img : Nat) : Nat :=
  let h := (s.part p).wbs.hist
  match h.head?, h.getLast? with
  | some a, some z =>
    let dt := z.2.1 - a.2.1
    let per := ((h.dropLast).map (·.1)).sum
    if dt = 0 ∨ img = 0 then 0 else min 0xFFFF (1000 * per * live / (dt * img))
  | _, _ => 0

/-- The record's fields (R449); EC_GEN passes an odd value, so it rises by 2. -/
def State.ecRewrite (s : State) (p : Nat) : State :=
  let x := s.part p
  let secs := s.partSecs p
  let live := ((s.partDies p).filter (fun d => (s.hub.anat.smap.get {} d).valid && !s.hub.lost.contains d)).length
  let key := match x.img with
    | none => []
    | some z => if x.variant = 0 then [] else (z.variants.getD (x.variant - 1) z.base).key
  let img := if x.img.isSome then 10 * secs.length - key.length else 0
  let stk := fun (st : Nat) => (secs.filter (fun k => (s.hub.anat.stk.get {} k).state.toNat == st)).length
  let derate := s.hrd thmInletDerate == 1 || s.hrd thmFlowLow == 1 || s.hrd thmFlowStop == 1 || s.hrd pmgrDerate == 1
  let slips := match x.wbs.hist with | [] => 0 | a :: _ => x.sch.slip.toNat - a.2.2
  let s1 := (((s.hwr (ecLdies p) live).hwr (ecLdiesImg p) img).hwr (ecStacks p) (stk 0)).hwr (ecStacksDeg p) (stk 1)
  let s2 := (((s1.hwr (ecVariant p) (b2n (x.variant ≠ 0))).hwr (ecDerate p) (b2n derate)).hwr (ecScore p) (s.ecScoreOf p live img)).hwr (ecCapW p)
    (4 * s.hrd pmgrCapW)
  (((s2.hwr (ecSlips p) slips).hwr (ecTimeLo p) (s.tb % 2 ^ 32)).hwr (ecTimeHi p) (s.tb / 2 ^ 32)).hwr (ecGen p) (s.hrd (ecGen p) + 2)

/-- EC_RECORD_REWRITE (R449). -/
def execEcRecordRewrite (p : PartNo) (s : State) : Result := .next (if s.hub.score.fwUp ∧ (s.part p.val).formed then s.ecRewrite p.val else s)

end Sys2Proof.Machine
end

