-- ==== Sys2Proof/Machine/HostInsn.lean ====
section
/-! DEFINITION. The host's events and commands (chapter 12). A command is named by its function, pair and tag. -/

namespace Sys2Proof.Machine

/-! ### Queue pairs (R387–R390, R397) -/

/-- QP_CTAIL_WRITE (R382, R387, R390): commands up to the tail become visible; `tee` is the request's T bit. -/
def execQpCtailWrite (f : Fin 50) (q : Fin 8) (v : W32) (tee : Bool) (s : State) : Result :=
  let p := fnPlace f.val
  let n := 2 ^ s.rd p (qpCsz q.val)
  let s1 := s.wr p (qpCtail q.val) (fld v 11 0)
  .next (if s.unserved f.val tee then s
    else if s.rd p (qpEn q.val) = 0 then s1
    else s1.updFn f.val (fun x => { x with visible := x.visible.put 0 q.val ((fld v 11 0 % n + n - s.rd p (qpChead q.val) % n) % n) }))

/-- QP_SHEAD_WRITE (R382, R387, R388). -/
def execQpSheadWrite (f : Fin 50) (q : Fin 8) (v : W32) (tee : Bool) (s : State) : Result :=
  let s1 := s.wr (fnPlace f.val) (qpShead q.val) (fld v 12 0)
  .next (if s.unserved f.val tee then s
    else if s1.statusRoom f.val q.val then s1.wr (fnPlace f.val) (qpStallSts q.val) 0 else s1)

/-- The configuration of a pair can be enabled (R387, R389). -/
def State.qpOk (s : State) (f q : Nat) : Bool :=
  let p := fnPlace f
  let c := s.rd p (qpCsz q)
  let z := s.rd p (qpSsz q)
  decide (4 ≤ c ∧ c ≤ 12 ∧ c + 1 ≤ z ∧ z ≤ 13) && decide (s.rd p (qpCbLo q) % 4096 = 0) && decide (s.rd p (qpSbLo q) % 4096 = 0)

/-- QP_ENABLE (R382, R389). -/
def execQpEnable (f : Fin 50) (q : Fin 8) (tee : Bool) (s : State) : Result :=
  let p := fnPlace f.val
  .next (if s.unserved f.val tee then s
    else if s.rd p (qpEn q.val) = 1 then s
    else if !s.qpOk f.val q.val then s.wr p (qpCfgErr q.val) 1
    else ((((((s.wr p (qpEn q.val) 1).wr p (qpRun q.val) 1).wr p (qpChead q.val) 0).wr p (qpCtail q.val) 0).wr p (qpShead q.val) 0).wr p
      (qpStallSts q.val) 0).updFn f.val (fun x => { x with
        visible := x.visible.put 0 q.val 0, stTail := x.stTail.put 0 q.val 0, coal := x.coal.put 0 q.val 0
        dmaStop := x.dmaStop.put false q.val false }))

/-- A pair disabled (R389): nothing more is fetched, and the replies of its commands are lost. -/
def State.qpDisable (s : State) (f q : Nat) : State :=
  ((s.wr (fnPlace f) (qpEn q) 0).updFn f (fun x => { x with visible := x.visible.put 0 q 0 })).updHub (fun h => { h with
    cmds := h.cmds.map (fun c => if c.fn = f ∧ c.qp = q then { c with mute := true } else c) })

/-- QP_DISABLE (R382, R389). -/
def execQpDisable (f : Fin 50) (q : Fin 8) (tee : Bool) (s : State) : Result :=
  .next (if s.unserved f.val tee then s else s.qpDisable f.val q.val)

/-- QP_RUN_CLEAR (R382, R389). -/
def execQpRunClear (f : Fin 50) (q : Fin 8) (tee : Bool) (s : State) : Result :=
  .next (if s.unserved f.val tee then s
    else if s.rd (fnPlace f.val) (qpEn q.val) = 0 then s.wr (fnPlace f.val) (qpRun q.val) 0 else s)

/-- COMMAND_FETCHED (R388, R390, R391, R397): the next visible entry `e` comes in; `ok` tells that the ring read succeeded. -/
def execCommandFetched (f : Fin 50) (q : Fin 8) (ok : Bool) (e : BitVec 512) (s : State) : Result :=
  .next (if !s.mayFetch f.val q.val then s
    else if !s.statusRoom f.val q.val then s.wr (fnPlace f.val) (qpStallSts q.val) 1
    else if !ok then (s.wr (fnPlace f.val) (qpDmaErr q.val) 1).updFn f.val (fun x => { x with dmaStop := x.dmaStop.put false q.val true })
    else s.takeCmd f.val q.val e)

/-- IRQ_COALESCE_TIMEOUT (R389): QP_COAL_US has passed since a reply without an interrupt. -/
def execIrqCoalesceTimeout (f : Fin 50) (q : Fin 8) (s : State) : Result :=
  let p := fnPlace f.val
  .next (if s.rd p (qpCoalUs q.val) = 0 ∨ (s.fn f.val).coal.get 0 q.val = 0 then s
    else (s.updFn f.val (fun x => { x with coal := x.coal.put 0 q.val 0 })).msix f.val (s.rd p (qpVec q.val)))

/-! ### Commands of the port (R393) -/

/-- A stack of partition `p` is in self-refresh for its temperature (R566). -/
def State.partHot (s : State) (p : Nat) : Bool := (s.partSecs p).any (fun k => (s.stack k).tooHot)

/-- The partition is READY or HALTED. -/
def State.atHalt (s : State) (p : Nat) : Bool := match (s.part p).sch.state with | .ready | .halted => true | _ => false

/-- The images of a twin pair are one (R343). -/
def State.pairAlike (s : State) (p : Nat) : Bool :=
  match s.pair p with
  | [a, b] => (match (s.part a).img, (s.part b).img with
    | some x, some y => x.digest == y.digest
    | _, _ => false)
  | _ => true

/-- RUN_STEP on a partition (R320, R330, R336, R337, R343, R393, R566, R568, R569); one whose stack has lost a channel needs an image
accepted against its holes first (R270, R374). -/
def State.runStep (s : State) (c : HostCmd) : State :=
  let x := s.part c.part
  let n := cmdB c.cmd 8 12
  let go := (s.beginHw c id).updPart c.part (fun y => { y with wbs := { y.wbs with steps := if n = 0 then none else some n } })
  match s.partBar c with
  | some code => s.endCmd c code []
  | none =>
    if s.hrd thmFlowStop = 1 ∨ (s.atHalt c.part && (x.holed || !s.pairAlike c.part)) then s.endCmd c scBadState []
    else match x.sch.state with
    | .running | .replaying | .rollback => s.endCmd c scRunActive []
    | .ready => go.updPart c.part (fun y => { y with sch := { y.sch with state := .running, why := 0 }, wbs := { y.wbs with started := true } })
    | .halted =>
      if x.sch.why ≠ 1 ∨ s.partHot c.part then s.endCmd c scBadState []
      else
        let r := go.updPart c.part (fun y => { y with sch := { y.sch with why := 0 } })
        if x.wbs.withheld then r.updPart c.part (fun y => { y with
            sch := { y.sch with state := .running }, wbs := { y.wbs with withheld := false, resumeAt := s.tb } }) |>.openScheduled c.part
        else if x.wbs.forced then ((r.setSch c.part .rollback).restore c.part false).railsReport c.part true
        else r.setSch c.part .rollback
    | _ => s.endCmd c scBadState []

/-- RUN_STEP (R393). -/
def execRunStep (f : Fin 50) (q : Fin 8) (tag : W16) (s : State) : Result :=
  .next (match s.turn f.val q.val tag 1 with | none => s | some c => s.runStep c)

/-- DOORBELL (R393). -/
def execDoorbell (f : Fin 50) (q : Fin 8) (tag : W16) (s : State) : Result :=
  .next (match s.turn f.val q.val tag 2 with
    | none => s
    | some c =>
      match s.partBar c with
      | some code => s.endCmd c code []
      | none =>
        if c.len = 0 ∨ (if c.vf1 then 16 else 32) < c.len then s.endCmd c scBadParam []
        else
          let d := bytesLE 32 (cmdB c.cmd 24 56)
          (s.beginHw c (fun y => { y with data := d })).moveNext { c with begun := true, data := d })

/-- A wait that QUERY_COUNTER arms (R88, R393). -/
def State.armWait (s : State) (c : HostCmd) : State :=
  let p := c.part
  let cell := BitVec.ofNat 16 (cmdB c.cmd 8 10)
  let l := s.members p cell
  let k := cmdB c.cmd 10 11
  let us := cmdB c.cmd 24 28
  let top := if l.any (fun t => match t with | .tile _ => true | _ => false) then 32 else 64
  if l = [] ∨ !s.sourceOk p 0 cell ∨ top ≤ k ∨ us = 0 ∨ 1000000 < us then s.endCmd c scBadParam []
  else
    let w : HostWait := { fn := c.fn, qp := c.qp, tag := c.tag, ch := s.barrierCh p l, members := l, cnt := k, v := cmdB c.cmd 16 22, arrived := [] }
    let s1 := (s.beginHw c (fun y => { y with due := s.now + 1000 * us })).updPart p (fun x => { x with waits := x.waits ++ [w] })
    s1.hostWaits p

/-- QUERY_COUNTER (R88, R393). -/
def execQueryCounter (f : Fin 50) (q : Fin 8) (tag : W16) (s : State) : Result :=
  .next (match s.turn f.val q.val tag 3 with
    | none => s
    | some c =>
      match s.partBar c with
      | some code => s.endCmd c code []
      | none =>
        if bit c.cmd 88 then s.armWait c
        else match s.hostCell c.part (BitVec.ofNat 16 (cmdB c.cmd 8 10)) with
        | none => s.endCmd c scBadParam []
        | some t =>
          let k := cmdB c.cmd 10 11
          if (memShape t).2.1 ≤ k then s.endCmd c scBadParam []
          else
            let v := (s.unit t).ccnt k
            s.endCmd c scOk (bytesLE 6 v.val.toNat ++ bytesLE 1 (b2n v.err + 2 * b2n v.sat)))

/-- QUERY_COUNTER_TIMEOUT (R393): a wait whose members have all reached the value ends OK instead. -/
def execQueryCounterTimeout (f : Fin 50) (q : Fin 8) (tag : W16) (s : State) : Result :=
  .next (match s.begunCmd f.val q.val tag with
    | none => s
    | some c =>
      if c.opc ≠ 3 then s
      else
        let s1 := (s.till c.due).hostWaits c.part
        if (s1.begunCmd f.val q.val tag).isNone then s1
        else (s1.updPart c.part (fun x => { x with
          waits := x.waits.filter (fun w => !(w.fn == c.fn && w.qp == c.qp && w.tag == c.tag)) })).endCmd c scTimeout [])

/-! ### Commands of hub firmware (R393) -/

/-- A firmware command whose turn it is runs; `needPart` tells that it acts on a formed partition. -/
def State.fwRun (s : State) (f q : Nat) (tag : W16) (opc : Nat) (needPart : Bool) (act : HostCmd → State) : State :=
  match s.turn f q tag opc with
  | none => s
  | some c =>
    match (if needPart then s.partBar c else if c.slotOk then none else some scBadParam) with
    | some code => s.endCmd c code []
    | none => act c

/-- HOST_NOP (R393). -/
def execHostNop (f : Fin 50) (q : Fin 8) (tag : W16) (s : State) : Result :=
  .next (s.fwRun f.val q.val tag 0x0F false (fun c => s.endCmd c scOk []))

/-- A load that failed a check: SCH_LOAD_ERR, and LOAD_FAIL with the same (R351, R393). -/
def State.loadFail (s : State) (c : HostCmd) (e : LoadErr) : State :=
  (s.updPart c.part (fun x => { x with sch := { x.sch with
    loadCode := BitVec.ofNat 8 e.1, loadSect := BitVec.ofNat 12 e.2.1, loadRec := BitVec.ofNat 32 e.2.2 } })).endCmd c scLoadFail
    (bytesLE 1 e.1 ++ bytesLE 2 e.2.1 ++ [0] ++ bytesLE 4 e.2.2)

/-- LOAD_IMAGE (R346–R351, R393, R397): `img` is the file as read from host memory, none where the access failed; `room` tells
that hub staging holds it. -/
def execLoadImage (f : Fin 50) (q : Fin 8) (tag : W16) (room : Bool) (img : Option (List Byte)) (s : State) : Result :=
  .next (s.fwRun f.val q.val tag 0x10 true (fun c =>
    if !s.atRest c.part then s.endCmd c scBadState []
    else if !room then s.endCmd c scNoResource []
    else if !(s.fn f.val).busMaster then s.endCmd c scDmaFault []
    else match img with
    | none => s.endCmd c scDmaFault []
    | some b =>
      match s.placeImage c.part b with
      | .error e => s.loadFail c e
      | .ok (z, zs) =>
        match s.loadFault c.part z zs with
        | some e => s.loadFail c e
        | none => (s.loadImage c.part z).endCmd c scOk []))

/-- HALT (R337, R393). -/
def execHalt (f : Fin 50) (q : Fin 8) (tag : W16) (s : State) : Result :=
  .next (s.fwRun f.val q.val tag 0x11 true (fun c =>
    match (s.part c.part).sch.state with
    | .halted | .done => s.endCmd c scOk (bytesLE 4 (s.part c.part).sch.committed.toNat)
    | .running | .replaying | .rollback => (s.begin c id).haltRequest c.part 1
    | _ => s.endCmd c scBadState []))

/-- RESET_PARTITION (R396). -/
def execResetPartition (f : Fin 50) (q : Fin 8) (tag : W16) (s : State) : Result :=
  .next (s.fwRun f.val q.val tag 0x12 true (fun c => (s.resetPart c.part (fun d => d.is c.fn c.qp c.tag)).endCmd c scOk []))

/-- The longest DMA. -/
def dmaMax : Nat := 16777216

/-- DMA_WRITE (R393, R397): `bs` are the bytes read from host memory, none where the access failed. -/
def execDmaWrite (f : Fin 50) (q : Fin 8) (tag : W16) (bs : Option (List Byte)) (s : State) : Result :=
  let long := match s.turn f.val q.val tag 0x13, bs with
    | some c, some b => decide (c.len ≤ dmaMax) && decide (b.length ≠ c.len)
    | _, _ => false
  if long then .fault .illFormed
  else .next (s.fwRun f.val q.val tag 0x13 true (fun c =>
    if dmaMax < c.len then s.endCmd c scBadParam []
    else if !(s.fn f.val).busMaster then s.endCmd c scDmaFault (bytesLE 4 0)
    else match bs with
    | none => s.endCmd c scDmaFault (bytesLE 4 0)
    | some b => (s.begin c (fun y => { y with data := b })).moveNext { c with begun := true, data := b }))

/-- DMA_READ (R393, R397). -/
def execDmaRead (f : Fin 50) (q : Fin 8) (tag : W16) (s : State) : Result :=
  .next (s.fwRun f.val q.val tag 0x14 true (fun c =>
    if dmaMax < c.len then s.endCmd c scBadParam []
    else if !(s.fn f.val).busMaster then s.endCmd c scDmaFault (bytesLE 4 0)
    else (s.begin c id).moveNext { c with begun := true }))

/-- A command that waits for the accesses made before it to an aperture ends, once they have (R386). -/
def State.aptDone (s : State) (c : HostCmd) : State :=
  if (s.fn c.fn).accs.any (fun a => decide (a.apt = cmdB c.cmd 8 9) && decide (a.id < c.mark)) then s else s.endCmd c scOk []

/-- A later command has had new accesses to the aperture refused since (R386). -/
def State.aptLater (s : State) (c : HostCmd) : Bool :=
  ((s.hub.cmds.dropWhile (fun d => !d.is c.fn c.qp c.tag)).drop 1).any (fun d =>
    d.fn == c.fn && !d.begun && (d.opc == 0x15 || d.opc == 0x16) && decide (cmdB d.cmd 8 9 = cmdB c.cmd 8 9))

/-- An aperture's mapping replaced (R383, R386); accesses made before the command's acceptance run on. -/
def State.remap (s : State) (c : HostCmd) (m : Aperture) : State :=
  let m := if s.aptLater c then {} else m
  ((s.begin c id).updFn c.fn (fun x => { x with apt := x.apt.put {} (cmdB c.cmd 8 9) m })).aptDone { c with begun := true }

/-- APERTURE_MAP (R383, R386). -/
def execApertureMap (f : Fin 50) (q : Fin 8) (tag : W16) (s : State) : Result :=
  .next (s.fwRun f.val q.val tag 0x15 true (fun c =>
    if !s.aptOk f.val c.part c.cmd then s.endCmd c scBadParam []
    else s.remap c {
      mapped := true
      base := BitVec.ofNat 56 (cmdB c.cmd 16 23)
      size4k := cmdB c.cmd 28 32
      tag := BitVec.ofNat 16 (cmdB c.cmd 24 26)
      rights := BitVec.ofNat 2 (cmdB c.cmd 9 10)
      part := c.part }))

/-- APERTURE_UNMAP (R386). -/
def execApertureUnmap (f : Fin 50) (q : Fin 8) (tag : W16) (s : State) : Result :=
  .next (s.fwRun f.val q.val tag 0x16 false (fun c => if 16 ≤ cmdB c.cmd 8 9 then s.endCmd c scBadParam [] else s.remap c {}))

/-- APERTURE_UNMAP_COMPLETE (R386). -/
def execApertureUnmapComplete (f : Fin 50) (q : Fin 8) (tag : W16) (s : State) : Result :=
  .next (match s.begunCmd f.val q.val tag with
    | none => s
    | some c => if c.opc = 0x15 ∨ c.opc = 0x16 then s.aptDone c else s)

/-- WINDOW_OPEN (R62, R65, R393): a window of source kind 1; an index that is not CLOSED is BAD_STATE (assumption log 54). -/
def execWindowOpen (f : Fin 50) (q : Fin 8) (tag : W16) (s : State) : Result :=
  .next (s.fwRun f.val q.val tag 0x17 true (fun c =>
    match s.hostCell c.part (BitVec.ofNat 16 (cmdB c.cmd 8 10)) with
    | none => s.endCmd c scBadParam []
    | some t =>
      let i := cmdB c.cmd 10 11
      let m := memShape t
      let r : WopenReq :=
        { idx := i, rights := BitVec.ofNat 3 (cmdB c.cmd 11 12), skind := 1, srcval := 0, cnt := BitVec.ofNat 8 (cmdB c.cmd 13 14),
          cmode := BitVec.ofNat 2 (cmdB c.cmd 12 13), base64 := cmdB c.cmd 16 24 / 64, limit64 := cmdB c.cmd 24 32 / 64, dest := .none }
      if m.1 ≤ i ∨ 8 ≤ cmdB c.cmd 11 12 ∨ 4 ≤ cmdB c.cmd 12 13 ∨ cmdB c.cmd 16 24 % 64 ≠ 0 ∨ cmdB c.cmd 24 32 % 64 ≠ 0 ∨ !r.rangeOk m.2.2 m.2.1 then
        s.endCmd c scBadParam []
      else if ((s.unit t).window i).st ≠ .closed then s.endCmd c scBadState []
      else
        let s1 := s.till ((s.unit t).openDue i)
        let s2 := s1.updUnit t (fun u => u.open_ r s1.now (s1.dieTb (tgtNode t)))
        s2.endCmd c scOk (bytesLE 2 (((s2.unit t).window i).tag i).toNat)))

/-- WINDOW_CLOSE (R70, R393): an index that is CLOSED is BAD_STATE (assumption log 54). -/
def execWindowClose (f : Fin 50) (q : Fin 8) (tag : W16) (s : State) : Result :=
  .next (s.fwRun f.val q.val tag 0x18 true (fun c =>
    match s.hostCell c.part (BitVec.ofNat 16 (cmdB c.cmd 8 10)) with
    | none => s.endCmd c scBadParam []
    | some t =>
      let i := cmdB c.cmd 10 11
      if (memShape t).1 ≤ i then s.endCmd c scBadParam []
      else if ((s.unit t).window i).st = .closed then s.endCmd c scBadState []
      else (((s.begin c id).updUnit t (fun u => u.closeNow i none (.host c.fn c.qp c.tag.toNat))).settleUnit t).hostPoll c.part))

/-- ASYNC_EVENT (R398): held until an event ends it; a fifth finds no resource (assumption log 54). -/
def execAsyncEvent (f : Fin 50) (q : Fin 8) (tag : W16) (s : State) : Result :=
  .next (s.fwRun f.val q.val tag 0x19 false (fun c =>
    if 4 ≤ (s.hub.cmds.filter (fun d => d.fn == f.val && d.opc == 0x19 && d.begun)).length then s.endCmd c scNoResource []
    else
      let s1 := s.begin c id
      match (s1.fn f.val).evq with
      | [] => s1
      | e :: r => ((s1.updFn f.val (fun x => { x with evq := r })).wr (fnPlace f.val) fnEvq r.length).eventTo e f.val))

/-- Two partitions can be twins (R343, R393, R586): alike in size, of one owner where both are confidential, and where both hold an
image, one image that allows it. -/
def State.twinOk (s : State) (a b : Nat) : Bool :=
  let x := s.hub.rot.owner.get {} a
  let y := s.hub.rot.owner.get {} b
  (!(s.confPart a && s.confPart b) || (x.bound && y.bound && decide (x.id = y.id))) && decide ((s.partSecs a).length = (s.partSecs b).length) && !(s.part a).sch.twinOn && !(s.part b).sch.twinOn
    && (match (s.part a).img, (s.part b).img with
        | some x, some y => x.twinOk && y.twinOk && decide (x.digest = y.digest)
        | _, _ => true)

/-- SET_TWIN (R343, R553): `lat` is the relay latency that hub firmware measures. -/
def execSetTwin (f : Fin 50) (q : Fin 8) (tag : W16) (lat : Fin 257) (s : State) : Result :=
  .next (s.fwRun f.val q.val tag 0x1A false (fun c =>
    let a := cmdB c.cmd 8 9
    let b := cmdB c.cmd 9 10
    let on := cmdB c.cmd 10 11
    if 24 ≤ a ∨ 24 ≤ b ∨ a = b ∨ 1 < on then s.endCmd c scBadParam []
    else if !(s.part a).formed || !(s.part b).formed || !s.atRest a || !s.atRest b then s.endCmd c scBadState []
    else if on = 0 then
      (if (s.part a).sch.twinOn ∧ (s.part a).sch.twinPart.toNat = b then (s.untwin a).endCmd c scOk [] else s.endCmd c scBadState [])
    else if !s.twinOk a b then s.endCmd c scBadState []
    else
      let lead := BitVec.ofNat 16 (max (s.lead a) (s.lead b) + lat.val)
      let join := fun (s : State) (p o : Nat) =>
        (s.updPart p (fun x => { x with
          lead0 := some (s.node x.root).sync.lead, sch := { x.sch with twinOn := true, twinPart := BitVec.ofNat 5 o } })).updNode (s.part p).root
          (fun n => { n with sync := { n.sync with lead := lead } })
      ((join (join s a b) b a).hwr twinLat lat.val).endCmd c scOk []))

/-- SET_PORT_ROLE (R375). -/
def execSetPortRole (f : Fin 50) (q : Fin 8) (tag : W16) (s : State) : Result :=
  .next (s.fwRun f.val q.val tag 0x1C false (fun c =>
    if 1 < cmdB c.cmd 8 9 then s.endCmd c scBadParam []
    else (s.updHub (fun h => { h with roleNext := decide (cmdB c.cmd 8 9 = 1) })).endCmd c scOk []))

/-! ### Apertures and BAR2 (R380–R385) -/

/-- APERTURE_WRITE (R382–R384): bytes written at BAR4 offset `off`; `tee` is the request's T bit. -/
def execApertureWrite (f : Fin 50) (off : Nat) (bs : List Byte) (tee : Bool) (s : State) : Result :=
  if bs = [] ∨ 4096 < bs.length ∨ 16 * aptSpan f.val ≤ off then .fault .illFormed
  else .next (if s.unserved f.val tee then s else s.aptAccess f.val off bs.length true bs)

/-- APERTURE_READ (R382–R384). -/
def execApertureRead (f : Fin 50) (off len : Nat) (tee : Bool) (s : State) : Result :=
  if len = 0 ∨ 4096 < len ∨ 16 * aptSpan f.val ≤ off then .fault .illFormed
  else .next (if s.unserved f.val tee then s.emit (.completion f.val false []) else s.aptAccess f.val off len false [])

/-- FN_APT_FENCE_READ (R385). -/
def execFnAptFenceRead (f : Fin 50) (tee : Bool) (s : State) : Result :=
  .next (if s.unserved f.val tee then s.emit (.completion f.val false [])
    else (s.updFn f.val (fun x => { x with fences := x.fences ++ [x.accNext] })).aptFences f.val)

/-- BAR2_WRITE (R380). -/
def execBar2Write (f : Fin 50) (tee : Bool) (s : State) : Result :=
  .next (if s.unserved f.val tee then s else s.inc (fnPlace f.val) fnBar2Wr)

/-- TDISP_MESSAGE (R381, R382): lock, start, stop, or an error of the interface. Only a VF has an interface, and a message travels within an open
secured session of its DOE mailbox. -/
def execTdispMessage (f : Fin 50) (m : TdispMsg) (s : State) : Result :=
  let x := s.fn f.val
  let within := fun (n : Fin 4) (t : State) => if x.sessions.contains n.val then t else s
  .next (if isPf f.val then s
    else match m, x.tdisp with
    | .lock n i, .unlocked => within n (s.updFn f.val (fun x => { x with
        tdisp := .locked
        stream := i.val + 1 }))
    | .start n, .locked => within n (s.updFn f.val (fun x => { x with tdisp := .run }))
    | .stop n, _ => within n (s.updFn f.val (fun x => { x with tdisp := .unlocked }))
    | .error, _ => s.updFn f.val (fun x => { x with tdisp := .error, apt := [] })
    | _, _ => s)

/-! ### Resets of functions and links (R376, R377, R403, R409, R624) -/

/-- Registers of function `f` from `lo` to `hi` back to their reset values. -/
def State.resetFnRegs (s : State) (f lo hi : Nat) : State :=
  { s with regs := s.regs.filter (fun kv => !(decide (kv.1 / 2 ^ 24 = fnPlace f) && decide (lo ≤ kv.1 % 2 ^ 24) && decide (kv.1 % 2 ^ 24 < hi))) }

/-- A held ASYNC_EVENT is discarded without a reply (R403). -/
def State.dropHeld (s : State) (f : Nat) : State :=
  (s.hub.cmds.filter (fun c => c.fn == f && c.opc == 0x19 && c.begun)).foldl (fun s c =>
    (((s.updHub (fun h => { h with cmds := h.cmds.filter (fun d => !d.is c.fn c.qp c.tag) })).dec (fnPlace f) (qpOutst c.qp))).dec (fnPlace f) fnFwcmds) s

/-- A Function Level Reset of `f` (R403, R409): its pairs are disabled, its apertures unmapped, its events discarded, its MSI-X
masked, its mailbox channel reset, with RECEIVER_RESET for an outbound message that waits in it. -/
def State.fnReset1 (s : State) (f : Nat) : State :=
  let s1 := ((List.range 8).foldl (fun s q => s.qpDisable f q) s).dropHeld f
  let s2 := ((s1.resetFnRegs f 0x10000 0x11000).resetFnRegs f 0x8000 0xC008).wr (fnPlace f) fnEvq 0
  (s2.updFn f (fun x => { x with
    apt := []
    evq := []
    evLost := false
    mbaIn := none
    outEnd := if s.rd (fnPlace f) mbaOutPend = 1 then .receiverReset else x.outEnd })).mbaNext f

/-- A physical function's reset takes every function of port `b` with it (R403). -/
def State.pfReset (s : State) (b : Nat) : State :=
  ((List.range 25).foldl (fun s i => s.fnReset1 (25 * b + i)) s).updFn (25 * b) (fun x => { x with vfEnable := false })

/-- A hot reset or a link-down of a PCIe port (R403). -/
def State.portReset (s : State) (b : Nat) : State := (s.pfReset b).bb srcFw 0x0701 0 (0x1F1 + 2 * b) 31 0 []

/-- VF_FUNCTION_LEVEL_RESET (R403). -/
def execVfFunctionLevelReset (b : Fin 2) (v : Fin 24) (s : State) : Result := .next (s.fnReset1 (25 * b.val + v.val + 1))
/-- PF_FUNCTION_LEVEL_RESET (R403). -/
def execPfFunctionLevelReset (b : Fin 2) (s : State) : Result := .next (s.pfReset b.val)

/-- HOT_RESET_OR_LINK_DOWN (R377, R403): `down` tells that the link is gone. -/
def execHotResetOrLinkDown (b : Fin 2) (down : Bool) (s : State) : Result :=
  let s1 := s.portReset b.val
  .next (if down then s1.updPort (2 * b.val) (fun x => { x with linkUp := false }) else s1)

/-- PERST_N_ASSERT (R403, R624). -/
def execPerstNAssert (b : Fin 2) (s : State) : Result :=
  .next ((s.portReset b.val).updPort (2 * b.val) (fun x => { x with perst := true, linkUp := false }))

/-- Lane `i` of PCIe port `b` is not marked by the bad-lane fuses (R376). -/
def State.laneGood (s : State) (b i : Nat) : Bool :=
  !s.hub.fuses.recs.any (fun r => decide (fld r 23 16 = 4) && decide (fld r 15 0 = 0x1F1 + 2 * b) && decide (fld r 35 24 = i))

/-- The widest width of R375, within the `lanes` of the link, that the good lanes of port `b` form, counted from lane 0 or under reversal from
lane 15 (R376). -/
def State.linkWidth (s : State) (b lanes : Nat) : Option Nat :=
  [16, 8, 4, 2, 1].find? (fun w => decide (w ≤ lanes)
    && ((List.range w).all (fun i => s.laneGood b i) || (List.range w).all (fun i => s.laneGood b (15 - i))))

/-- Port `b` may train (R375, R376): main power is good, and PD-S in the PCIe role has reached instar 4. -/
def State.mayTrain (s : State) (b : Nat) : Bool :=
  s.hub.feed.mainGood && !(s.port (2 * b)).ethRole && (decide (b = 0) || decide (s.hrd bootPhase = 1 ∧ s.hub.boot.target = 4) || decide (4 ≤ s.hrd bootInstar))

/-- PCIE_LINK_UP (R375, R376, R495, R624): the port trains with PERST_N high over a link of `lanes` lanes at 16 × 2^rate GT/s. -/
def execPcieLinkUp (b : Fin 2) (lanes : Fin 17) (rate : Fin 4) (s : State) : Result :=
  .next (match s.linkWidth b.val lanes.val with
    | none => s
    | some w =>
      if !s.mayTrain b.val then s
      else
        let s1 := s.updPort (2 * b.val) (fun x => { x with
          linkUp := true
          width := w
          rate := 16 * 2 ^ rate.val
          perst := false })
        if w < 16 then s1.raiseReason 7 else s1)

/-- Bus Master Enable of a function cleared (R403): running DMA commands end DMA_FAULT. -/
def State.bmeClear (s : State) (f : Nat) : State :=
  let s1 := s.updFn f (fun x => { x with busMaster := false })
  (s1.hub.cmds.filter (fun c => c.fn == f && c.begun && (c.opc == 0x13 || c.opc == 0x14))).foldl (fun s c => s.endCmd c scDmaFault (bytesLE 4 c.bytes)) s1

/-- BUS_MASTER_ENABLE_CLEARED (R403). -/
def execBusMasterEnableCleared (f : Fin 50) (s : State) : Result := .next (s.bmeClear f.val)

end Sys2Proof.Machine
end

