-- ==== Sys2Proof/Machine/FormOps.lean ====
section
/-! DEFINITION. Forming and dissolving a partition (R74, R259, R478 step 5, R584, R585, R587, R592). -/

namespace Sys2Proof.Machine

/-- A tile as formation and dissolution leave it (R74, R214, R587): every quarter taken OFF and ON again, so every byte is zero;
reset; IMEM zero; its windows `w`. Its remap tables and its error counts stay. -/
def Tile.wiped (x : Tile) (id : TileId) (w : WinUnit) : Tile :=
  { x.reset with
    id := id
    w := w
    seq := { x.reset.seq with imem := [], imemBad := [], cmdqOvf := x.seq.cmdqOvf, cmdqTaken := x.seq.cmdqTaken }
    xe := {}
    spm := { x.spm.recycled with kept := 0 } }

/-- A stack node prepared for a partition (R259): its windows `w`, the partition's key pair or none, and the wipe begun,
during which the node is INIT. A retired stack stays as it is. -/
def Stack.prepare (x : Stack) (key : Nat) (w : WinUnit) : Stack :=
  let y := { x with w := w, xe := {}, desc := [], ready := [], cmdq := [], sxq := [], sxe := none, closing := none, key := key, xtsOn := decide (key ≠ 0),
                    xtsEpoch := if key = 0 then x.xtsEpoch else x.xtsEpoch + 1 }
  if x.st = 2 ∨ x.st = 3 ∨ x.pw = .off then y else { y with pw := .init }

/-- A fresh key pair: its generation (R585). -/
def State.drawKey (s : State) : State × Nat :=
  let g := s.hub.rot.keyGen + 1
  (s.updHub (fun h => { h with rot := { h.rot with keyGen := g } }), g)

/-- The identity that a partition's formation gives tile `t` (R84, R215). -/
def tileIdOf (secs : List Nat) (p t : Nat) : TileId :=
  let r := (secs.findIdx? (fun k => k == t / 160)).getD 0
  { rel := BitVec.ofNat 12 (160 * r + t % 160), part := BitVec.ofNat 5 p, srank := BitVec.ofNat 5 r, rwGen := 1 }

/-- The sectors `ks` given to partition `p`, 31 for none, in the site map (R45, R46). -/
def State.mapSecs (s : State) (ks : List Nat) (p : Nat) : State :=
  s.editAnat (fun a => ks.foldl (fun a k => { a with
    stk := a.stk.upd {} k (fun x => { x with part := BitVec.ofNat 5 p })
    smap := (List.range 10).foldl (fun t i => t.upd {} (10 * k + i) (fun m => { m with part := BitVec.ofNat 5 p })) a.smap }) a)

/-- The functions that a partition's layout entry exposes read its number (R378). -/
def State.exposeFn (s : State) (e : LayoutEntry) : State :=
  let s1 := if bit e.flags 1 then s.wr (fnPlace (e.id + 1)) fnPart e.id else s
  if bit e.flags 2 then s1.wr (fnPlace (25 + e.id + 1)) fnPart e.id else s1

/-- Partition `e.id` formed (R478 step 5): stacks prepared, scratchpads zeroed, windows cleared, register windows opened, the
step channel configured, the capacity record written. An invalid L-die is reported SHRUNK. -/
def State.formPart (s : State) (e : LayoutEntry) : State :=
  let p := e.id
  let ks := bitsOf e.secs 24
  let conf := bit e.flags 0
  let kk := if conf then s.drawKey else (s, 0)
  let s1 := kk.1.updPart p (fun _ => { formed := true, secs := e.secs, snodes := e.secs, exposedN := bit e.flags 1,
                                       exposedS := bit e.flags 2, conf := conf })
  let s2 := s1.mapSecs ks p
  let s3 := (s2.mapTiles (s2.partTiles p) (fun t x => x.wiped (tileIdOf ks p t) {})).mapStacks ks (fun x => x.prepare kk.2 {})
  let s4 := (s3.mapNodes (s3.partNodes p) (fun x => { x with rwin := [], sync := { x.sync with got := [], edges := [] } })).updHub
    (fun h => { h with rwin := (s3.hubBlocks p).foldl (fun t b => t.put [] b []) h.rwin, cellq := h.cellq.put [] p [] })
  let s5 := [1, 2, 3].foldl (fun s q => s.updPort q (fun x => { x with blk := x.blk.put {} p {} })) s4
  let s6 := (((s5.openRegs p).resync p).exposeFn e).updHub (fun h => { h with rot := { h.rot with owner := h.rot.owner.put {} p {} } })
  let s6 := s6.measure 6 p (e.bytes ++ bytesLE 1 (b2n conf) ++ bytesLE 48 0)
  let s7 := ((((s6.hwr (spConf p) (b2n conf)).hwr (spFormed p) 1).hwr (spOwned p) 0).hwr (spNkMask p) 0).hwr (spXtsOn p) (b2n conf)
  let bad := s7.invalidDies p
  let s8 := (((s7.hwr (fpMolting p) 0).hwr (fpVariant p) 0).hwr (fpInvalid p) bad.length).ecRewrite p
  if bad = [] then s8
  else (s8.bb srcFw 0x0202 2 0xFFFF p 0 []).event 2 bad.length p true

/-- The owner of partition `p` is gone with every key of the partition (R584), and measurement 6 says so (R577); what R577 counts for it since
its formation stays. -/
def State.dropOwner (s : State) (p : Nat) : State :=
  (((s.updHub (fun h => { h with rot := { h.rot with owner := h.rot.owner.upd {} p (fun o => { loads := o.loads, imageHash := o.imageHash }) } })).hwr
    (spOwned p) 0).hwr (spNkMask p) 0).measurePart p

/-- Partition `p` dissolved (R74, R258, R396, R424, R584, R587, R592): its commands end ABORTED, its keys are erased before its
windows close, its scratchpads are zeroed, and its sectors belong to no partition. -/
def State.dissolvePart (s : State) (p : Nat) : State :=
  if !(s.part p).formed then s
  else
    let ks := s.partSecs p
    let s1 := ((s.untwin p).mapStacks ks (fun x => { x with key := 0, xtsOn := false })).dropGroups p
    let s2 := ((((s1.partCloseAll p false).unbindKeys p).connsError p).abortCmds p (fun _ => false)).unmapPart p
    let s3 := s2.mapTiles (s2.partTiles p) (fun _ x => x.wiped {} x.w.tables)
    let s4 := (s3.mapStacks ks (fun x => { x with w := x.w.tables, xe := {}, desc := [], ready := [] })).mapNodes (s3.partNodes p) (fun x =>
      { x with wbsRoot := false, sync := { x.sync with cfg := [], got := [], edges := [] } })
    let s5 := s4.updHub (fun h => { h with molt := h.molt.put {} p {} })
    let s6 := [1, 2, 3].foldl (fun s q => s.updPort q (fun x => { x with blk := x.blk.upd {} p (fun b => { rwin := b.rwin }) })) s5
    let s7 := (s6.vfsOf p).foldl (fun s f => s.wr (fnPlace f) fnPart 0x1F) s6
    let s8 := (((s7.dropOwner p).measure 6 p []).measure 7 p []).hwr (spConf p) 0 |>.hwr (spFormed p) 0
    ((((s8.hwr (spXtsOn p) 0).hwr (fpMolting p) 0).mapSecs ks 0x1F).updPart p (fun _ => {})).rerouteLate

end Sys2Proof.Machine
end

