-- ==== Sys2Proof/Machine/PowerOps.lean ====
section
/-! DEFINITION. Limits, clocks and voltages, inrush tokens, regions switched off (R494, R507, R516–R540, R557, R568). -/

namespace Sys2Proof.Machine

/-! ### The panel's limit (R507, R525, R568) -/

/-- The feed's limit in W (R504, R507). -/
def State.feedLimit (s : State) : Nat := if s.hrd pmgrFeed = 2 then 12000 else 15500

/-- PMGR_LIMIT_W as R525 and R568 give it. -/
def State.limitNow (s : State) : Nat :=
  if s.hrd thmFlowStop = 1 then 2325 else min (s.hrd pmgrCapW) (min s.feedLimit (s.hrd thmBudgetW))

/-- The records of every formed partition rewritten (R449). -/
def State.ecAll (s : State) : State :=
  (List.range 24).foldl (fun s p => if (s.part p).formed then s.ecRewrite p else s) s

/-- PMGR_DERATE follows the limit (R525): a change is told to the physical functions and in the records. `tell` asks for event 6
even where nothing changed (R568, R569). -/
def State.noteDerate (s : State) (tell : Bool) : State :=
  let d := decide (s.hrd pmgrLimitW < s.hrd pmgrCapW)
  let same := decide (s.hrd pmgrDerate = b2n d)
  if same then (if tell then s.event 6 (b2n d) 31 false else s)
  else ((s.hwr pmgrDerate (b2n d)).event 6 (b2n d) 31 false).ecAll

/-- The limit set to `v` W; PMGR_PIN_10MS starts again at a change (R531). -/
def State.setLimit (s : State) (v : Nat) (tell : Bool) : State :=
  (if s.hrd pmgrLimitW = v then s else (s.hwr pmgrLimitW v).hwr pmgrPin10ms 0).noteDerate tell

/-! ### Budgets (R516, R524, R527–R529) -/

/-- The dies and the stack node of sector `k` that are ACTIVE. -/
def State.activeIn (s : State) (k : Nat) : List Nat :=
  (((List.range 10).map (fun i => 10 * k + i)) ++ [240 + k]).filter (fun n => s.power n == 3)

/-- What the loans of a die-cell add to its share, or take from it, in 0.1 W (R528). -/
def State.loansOf (s : State) (n : Nat) : Int :=
  (((s.hub.scpm.get {} (nodeSector n)).loans.filter (fun l => l.node == n)).map (fun l => if l.lent then -Int.ofNat l.amt else Int.ofNat l.amt)).foldl (· + ·) 0

/-- DPM_BUDGET of a die-cell: its share with its loans, at most 70 % of its region rating where it is capped (R516) and at most
DPM_BUDGET_MAX. The ratings are 14.0 A and 8.0 A at 6.5 V. -/
def State.setBudget (s : State) (n : Nat) : State :=
  let v := (Int.ofNat (s.dpm n).share + s.loansOf n).toNat
  let v1 := if s.rd n dpmCap70 = 1 then min v (if n < 240 then 637 else 364) else v
  s.wr n dpmBudget (min v1 (s.rd n dpmBudgetMax))

/-- Every loan of sector `k` ends (R528). -/
def State.endLoans (s : State) (k : Nat) (gone : Loan → Bool) : State :=
  let ns := ((s.hub.scpm.get {} k).loans.filter gone).map (·.node)
  ns.foldl (fun s n => s.setBudget n) (s.updHub (fun h => { h with scpm := h.scpm.upd {} k (fun x => { x with loans := x.loans.filter (fun l => !gone l) }) }))

/-- A cut that scales every budget of sector `k` by `num` / `den` (R528, R529). -/
def State.cutSector (s : State) (num den k : Nat) : State :=
  let s1 := s.endLoans k (fun _ => true)
  (s1.activeIn k).foldl (fun s n =>
    let v := s.rd n dpmBudget * num / den
    (((s.wr n dpmBudget v).updDpm n (fun d => { d with share := v })).wr n dpmThrottle 1).emit (.ctl n 1 v)) s1

/-! ### Regions switched off (R494, R516–R519) -/

/-- The cell belongs to die-cell `n`, or is one of its tiles (R42). -/
def cellOn (n : Nat) (c : W16) : Bool :=
  c == nodeCell n || (decide (n < 240) && (List.range 16).any (fun i => c == tileCell (16 * n + i)))

/-- The power region `key` is switched off for good: 0–287 a site, 288 + k port die k, 292 the hub. A lost die is declared lost
with cause region off (R516); a spare or a die of bring-up is FAILED; the links through the site fail and the routes avoid them (R282);
without the hub the panel enters cocoon. -/
def State.regionOff (s : State) (key : Nat) : State :=
  if key = 292 then s.cocoon 2 (decide (s.hrd bootImago = 1)) true
  else if 288 ≤ key then (if s.hrd bootImago = 1 then s.declareLost (265 + (key - 288)) 4
    else s.updHub (fun h => { h with boot := { h.boot with badPort := h.boot.badPort ++ [key - 288] } })).setRegion key 0
  else
    let s0 := match s.nodeAt key with
      | some n => s.dropInrush (key / 12) (cellOn n)
      | none => s
    let s1 := (s0.setRegion key 0).cutSite key
    if s.hrd bootImago = 1 then
      (match s.nodeAt key with
       | some n => s1.declareLost n 4
       | none => (((s1.editAnat (fun a => { a with site := a.site.upd {} key (fun x => { x with state := 4 }) })).checkSpares).strand key
          (s.partOfSector (key / 12))).reroute)
    else
      (match s.nodeAt key with
       | some n => s1.dieOff n
       | none => s1).updHub (fun h => { h with boot := { h.boot with
        badSite := if h.boot.badSite.get 0 key = 0 then h.boot.badSite.put 0 key 3 else h.boot.badSite } })

/-- A sector goes dark (R494, R519): its L-dies, spare and stack are gone, its partition halts SHRUNK. -/
def State.sectorOff (s : State) (k : Nat) : State :=
  let p := s.partOfSector k
  let dies := (List.range 10).map (fun i => 10 * k + i)
  let s1 := ((dies ++ [240 + k]).foldl (fun s n => s.dieOff n) s)
  let s2 := ((List.range 12).foldl (fun s i => (s.setRegion (12 * k + i) 0).cutSite (12 * k + i)) s1).editAnat (fun a => { a with
    smap := dies.foldl (fun t d => t.upd {} d (fun m => { m with valid := false })) a.smap
    stk := a.stk.upd {} k (fun x => { x with state := 3 })
    site := (List.range 12).foldl (fun t i => t.upd {} (12 * k + i) (fun x => { x with state := 5, ldie := 0xFF })) a.site })
  let s3 := ((dies ++ [240 + k]).foldl (fun s n => s.markDown n true) s2).updStack k (fun x => { x with st := 2 })
  let s3 := (List.range 12).foldl (fun s i => s.strand (12 * k + i) p) s3
  let s4 := s3.updHub (fun h => { h with lost := h.lost ++ (dies ++ [240 + k]).filter (fun n => !h.lost.contains n), molt := h.molt.put {} p {} })
  if 24 ≤ p ∨ !(s4.part p).formed then (s4.raiseReason 3).checkSpares.reroute
  else
    let s5 := (s4.hwr (fpMolting p) 0).hwr (fpInvalid p) (s4.invalidDies p).length
    let s6 := match (s5.part p).sch.state with
      | .running | .replaying | .rollback => s5.haltNow p 5
      | _ => s5
    (((s6.event 2 (s6.invalidDies p).length p true).event 4 k p true).raiseReason 3).checkSpares.reroute

end Sys2Proof.Machine
end

