-- ==== Sys2Proof/Machine/ResetOps.lean ====
section
/-! DEFINITION. Cold and warm reset, the start of hub firmware (R14, R458, R481, R496, R497, R508, R548, R552, R608, R617–R619). -/

namespace Sys2Proof.Machine

/-! ### Registers -/

/-- Every word kept in part: `keep` gives, by place and offset, the bits that stay; the others go back to their reset values. -/
def State.keepRegs (s : State) (keep : Nat → Nat → W32) : State :=
  { s with regs := s.regs.filterMap (fun kv =>
      let v := kv.2 &&& keep (kv.1 / 2 ^ 24) (kv.1 % 2 ^ 24)
      if v = 0 then none else some (kv.1, v)) }

/-- What a cold reset keeps of the hub's words: those held in MRAM or in the ROT's own store, and RTC_VALID while standby power
stays (R481, R552, R595, R612). -/
def coldKeep (stby : Bool) (p off : Nat) : W32 :=
  if p ≠ 264 then 0
  else if off = 0x1000 ∨ off = 0x100C ∨ off = 0x1010 then 0xFFFFFFFF
  else if off = 0x1004 then 0xC
  else if off = 0x1008 ∨ off = 0x2020 then 0xFFFF
  else if off = 0x34000 then 0x11
  else if off = 0x34004 ∨ off = 0x34008 ∨ 0x34010 ≤ off ∧ off < 0x34070 ∨ off = 0x34078 ∨ off = 0x3407C then 0xFFFFFFFF
  else if off = 0x32024 ∧ stby then 0x8000
  else 0

/-- What a warm reset keeps of the hub's words (R14, R481, R500, R503, R531, R555, R573, R595, R603): the black box, BOOT, the
fault block, counters, live states, RWQ fields. -/
def warmHub (off : Nat) : W32 :=
  if 0x1000 ≤ off ∧ off < 0x1014 ∨ 0x2000 ≤ off ∧ off < 0x2100 ∨ 0x30000 ≤ off ∧ off < 0x30100 ∨ off = 0xC then 0xFFFFFFFF
  else if 0x31000 ≤ off ∧ off < 0x31100 then 0xFFFFFFFF
  else if 0x31100 ≤ off ∧ off < 0x31400 then (if off % 32 = 0 then 0xFF000FFF else if off % 32 = 4 then 0xFFFFFFFF else 0xFFF00000)
  else if off = 0x32000 then 0x78
  else if off = 0x32010 ∨ off = 0x32014 then 0xFFFFFFFF
  else if off = 0x32018 then 0xFFFF0000
  else if off = 0x32024 then 0x8000
  else if off = 0x33000 then 0xF7F
  else if off = 0x33004 ∨ off = 0x33008 ∨ off = 0x33010 ∨ off = 0x33014 ∨ 0x33100 ≤ off ∧ off < 0x33120 then 0xFFFFFFFF
  else if off = 0x34000 then 0x17
  else if 0x34004 ≤ off ∧ off < 0x34080 then 0xFFFFFFFF
  else 0

/-- What a warm reset keeps of a die-cell's words (R532, R554): fused values and counters; the region stays capped and its failed
phases counted. -/
def warmDie (off : Nat) : W32 :=
  if off = 0x60000 then 8
  else if off = 0x60008 ∨ off = 0x6000C ∨ off = 0x60010 ∨ off = 0x70010 ∨ off = 0x70020 ∨ 0x70040 ≤ off ∧ off < 0x70064 then 0xFFFFFFFF
  else if 0x70100 ≤ off ∧ off < 0x70210 ∧ (off % 16 = 4 ∨ off % 16 = 8) then 0xFFFFFFFF
  else 0

/-- What a warm reset keeps of a port die's words (R436, R457): counters. -/
def warmPort (off : Nat) : W32 :=
  if 0x100100 ≤ off ∧ off < 0x100500 then (if off % 128 = 0 then 0xFFFF0000 else if 8 ≤ off % 128 then 0xFFFFFFFF else 0)
  else if 0x300000 ≤ off ∧ off < 0x340000 then (if off % 64 = 0x10 ∨ off % 64 = 0x14 ∨ off % 64 = 0x1C then 0xFFFFFFFF else 0)
  else if 0x500000 ≤ off ∧ off < 0x501000 then
    (if off % 64 = 0x18 ∨ off % 64 = 0x20 then 0xFFFFFFFF else if off % 64 = 0x1C then 0xFFFF else 0)
  else warmDie off

/-- What a warm reset keeps of any word. -/
def warmKeep (p off : Nat) : W32 :=
  match placeKind p with
  | .hub => warmHub off
  | .die => warmDie off
  | .port => warmPort off
  | .tk => if off % 32 = 0x14 then 0xFFFF0000 else 0
  | .fn => 0

/-! ### Cold reset -/

/-- The state that power off leaves (R496, R508): MRAM, fuses and the ROT's own store; the standby domain's clock, the black box's
staging and the endpoint ID while standby power stays (R552, R605). -/
def State.cold (s : State) (stby : Bool) : State :=
  let h := s.hub
  let r := h.rot
  let hub : Hub := {
    bbx := if stby then h.bbx else { h.bbx with staged := [] }
    fuses := h.fuses
    rot := { roles := r.roles, roleSet := r.roleSet, counter := r.counter, layout := r.layout, addrs := r.addrs, caks := r.caks, fuses := r.fuses, clears := r.clears,
             panelTag := r.panelTag, keyGen := r.keyGen }
    feed := { stby := stby }
    score := { eid := if stby then h.score.eid else 0 }
    tb := if stby then { rtcBase := h.tb.rtcBase, rtcAt := h.tb.rtcAt } else {}
    roleNext := h.roleNext }
  let s1 : State := { State.reset with pending := s.pending, now := s.now, freeCtr := s.freeCtr, out := s.out, regs := s.regs, hub := hub }
  let s2 := s1.keepRegs (coldKeep stby)
  if stby then s2.setMramOk else s2

/-! ### Hub firmware (R577, R578, R608) -/

/-- An image's version and signers meet the firmware update policy (R578). -/
def State.policyOk (s : State) (least svn signer : Nat) (opSig : Bool) : Bool :=
  decide (least ≤ svn) && (s.hrd polFwSigners).testBit signer && (decide (s.hrd polReqOpsig = 0) || opSig)

/-- A slot holds an image that the ROT starts (R577). -/
def State.slotRuns (s : State) (f : FwSlot) : Bool := f.valid && s.policyOk (s.hrd polMinSvnHub) f.svn.toNat f.signer.toNat f.opSig

/-- The ROT starts the valid slot of the higher SVN; where it fails, the other, with a record (R608). Without either, hub firmware
does not run. -/
def State.startFw (s : State) : State :=
  let b := s.hub.bbx
  let firstB := b.slotB.valid && (!b.slotA.valid || decide (b.slotA.svn.toNat < b.slotB.svn.toNat))
  let slot := fun (x : Bool) => if x then b.slotB else b.slotA
  let run := fun (s : State) (x : Bool) =>
    ((s.hwr hubFwSvn (slot x).svn.toNat).hwr hubFwSlot (b2n x)).updHub (fun h => { h with score := { h.score with fwUp := true, kickAt := s.now } })
  if s.slotRuns (slot firstB) then run s firstB
  else if s.slotRuns (slot !firstB) then (run s !firstB).bb srcRot 0x0501 1 0x1F0 31 0 (bytesLE 1 (b2n firstB))
  else s.updHub (fun h => { h with score := { h.score with fwUp := false } })

/-! ### Warm reset -/

/-- What a warm reset leaves of a scratchpad: its error counts and its retirement bits (R244). -/
def Spm.warm (p : Spm) : Spm := { ceCnt := p.ceCnt, ueCnt := p.ueCnt, retired := p.retired, retirePend := p.retirePend }

/-- What a warm reset leaves of a die-cell's own state: the fabric counters (R316), and the spare tile's bits (R244). -/
def Node.warm (x : Node) : Node :=
  { fab := { ce := x.fab.ce, drop := x.fab.drop, defl := x.fab.defl, stale := x.fab.stale, dup := x.fab.dup, seqold := x.fab.seqold,
             aged := x.fab.aged, tdown := x.fab.tdown, miss := x.fab.miss, bad := x.fab.bad }
    ctl := { retry := x.ctl.retry }
    spareSpm := x.spareSpm.warm }

/-- What a warm reset leaves of a stack node: completion and error counters, channel states, the key epoch (R275). -/
def Stack.warm (x : Stack) : Stack :=
  { w := { cc := x.w.cc }, lateCnt := x.lateCnt, cmdqDrop := x.cmdqDrop, resDrop := x.resDrop, chan := x.chan, ce := x.ce, ue := x.ue, odecc := x.odecc,
    xtsEpoch := x.xtsEpoch }

/-- What a warm reset leaves of a tile (R244). -/
def Tile.warm (x : Tile) : Tile := { spm := x.spm.warm }

/-- Outstanding commands end ABORTED, partitions halt without a combine, and every pair is disabled (R389, R497 step 1). -/
def State.warmStop (s : State) : State :=
  let s1 := s.hub.cmds.foldl (fun s c => s.endCmd c scAborted (if c.opc = 0x13 ∨ c.opc = 0x14 then bytesLE 4 c.bytes else [])) s
  let s2 := (List.range 24).foldl (fun s p => if (s.part p).formed && decide ((s.part p).sch.state ≠ .empty) then s.haltNow p 1 else s) s1
  (List.range 50).foldl (fun s f => (List.range 8).foldl (fun s q => s.qpDisable f q) s) s2

/-- A warm reset (R496, R497). In cocoon it has no effect: only a cold reset leaves that (R498). -/
def State.warm (s : State) : State :=
  if !s.hub.feed.mainGood || decide (s.hrd bootPhase = 3) then s
  else
    let s1 := s.warmStop
    let h := s1.hub
    let hub : Hub := {
      region := [(288, 3), (292, 3)].filter (fun x => !h.fuseOpen.contains x.1), fuseOpen := h.fuseOpen, bbx := h.bbx, cool := h.cool, fuses := h.fuses
      boot := { powerAt := h.boot.powerAt, bundle := h.boot.bundle }
      rot := { h.rot with owner := [], sessions := [], chunks := [], pkts := [], meas := [], sk := [] }
      feed := h.feed, score := { h.score with fwUp := false }, sram := h.sram, phases := h.phases
      tb := { h.tb with diff := [], pulse := [] }, twinMis := h.twinMis, roleNext := h.roleNext
      pinSum := h.pinSum, pinN := h.pinN, pinAvg := h.pinAvg }
    let s2 : State := { s1 with
      tiles := Table.mapListed {} s1.tiles (fun _ x => x.warm)
      snodes := Table.mapListed {} s1.snodes (fun _ x => x.warm)
      nodes := Table.mapListed {} s1.nodes (fun _ x => x.warm)
      ctlq := [], hub := hub, parts := []
      fns := Table.mapListed {} s1.fns (fun f x => if f < 25 then { busMaster := x.busMaster, d3 := x.d3, vfEnable := x.vfEnable, mps := x.mps, mrrs := x.mrrs, pme := x.pme } else {})
      ports := Table.mapListed {} s1.ports (fun q x =>
        if q = 0 then { fast := x.fast, linkUp := x.linkUp, width := x.width, rate := x.rate, perst := x.perst } else { ethRole := x.ethRole }) }
    let s3 := s2.keepRegs warmKeep
    ((((s3.hwr bootInstar 0).hwr bootPhase 0).hwr bootChrysalis 1).hwr bootImago 0).startFw

end Sys2Proof.Machine
end

