-- ==== Sys2Proof/Machine/BootOps.lean ====
section
/-! DEFINITION. What the instars of bring-up do (R28–R46, R272, R458–R479). -/

namespace Sys2Proof.Machine

/-! ### The sequencer (R460–R464) -/

/-- BOOT's own state changed. -/
def State.updBoot (s : State) (f : Boot → Boot) : State := s.updHub (fun h => { h with boot := f h.boot })

/-- Instar `i` is running and its work is not done. -/
def State.booting (s : State) (i : Nat) : Bool :=
  decide (s.hrd bootPhase = 1) && decide (s.hub.boot.target = i) && !s.hub.boot.work

/-- Milliseconds since the instar started. -/
def State.stepMs (s : State) : Nat := min 0xFFFF ((s.now - s.hub.boot.startAt) / 1000000)

/-- The instar's work is done, well or with a code. -/
def State.bootDone (s : State) (code : Nat) : State := s.updBoot (fun b => { b with work := true, code := code })

/-- A fatal finding at a site or port code: the panel enters cocoon at once (R464, R480). -/
def State.bootFatal (s : State) (site code : Nat) : State :=
  let s1 := ((s.hwr bootErrPsite site).hwr bootErrInstar s.hub.boot.target).hwr bootStepMs s.stepMs
  let s2 := s1.cocoon code false (decide (code = 2))
  s2.updBoot (fun b => { b with work := true, code := code })

/-- The bound of an instar in ns (R462). -/
def instarBound (i : Nat) : Nat := 1000000000 * [0, 3, 5, 2, 15, 15, 5, 20].getD i 0

/-- A BOOT_GO (R460, R570): accepted for the next instar while none runs, before eclosion and outside cocoon. -/
def State.bootGo (s : State) (target : Nat) : State :=
  if s.hub.feed.mainGood && decide (s.hrd thmFlowStop = 0) && decide (s.hrd bootImago = 0)
      && (decide (s.hrd bootPhase = 0) || decide (s.hrd bootPhase = 2)) && decide (target = s.hrd bootInstar + 1) && decide (target ≤ 7) then
    (s.hwr bootPhase 1).updBoot (fun b => { b with startAt := s.now, target := target, work := false, code := 0 })
  else s.sat 264 bootGoDrop

/-! ### What is bad (R33, R34, R476) -/

/-- A site is marked bad, unless it is already (R476): 1 by fuse, 2 by the soft map, 3 + cause in this boot. -/
def Boot.site (b : Boot) (k why : Nat) : Boot := if b.badSite.get 0 k = 0 then { b with badSite := b.badSite.put 0 k why } else b
/-- A physical tile is marked bad, unless it is already. -/
def Boot.tile (b : Boot) (k t why : Nat) : Boot := if b.badTile.get 0 (17 * k + t) = 0 then { b with badTile := b.badTile.put 0 (17 * k + t) why } else b

/-- A site treated as bad. -/
def Boot.bad (b : Boot) (k : Nat) : Bool := decide (b.badSite.get 0 k ≠ 0) || b.dark.contains (k / 12)

/-- The registers that count bad units (R481). -/
def State.bootCounts (s : State) : State :=
  let b := s.hub.boot
  let dies := (List.range 288).filter (fun k => k % 12 != 5)
  let good := dies.filter (fun k => !b.bad k)
  (((s.hwr bootDiesBad (dies.length - good.length)).hwr bootStacksBad
      ((List.range 24).filter (fun k => b.dark.contains k || decide ((s.stack k).st = 2))).length).hwr bootPortsBad
      ((List.range 4).filter (fun q => b.badPort.contains q || b.silentPorts.contains q)).length).hwr bootTilesBad
      ((b.badTile.filter (fun kv => good.contains (kv.1 / 17))).length)

/-- The fields of an identity record (R32). -/
def idRole (r : BitVec 128) : Nat := fld r 11 9
def idSlot (r : BitVec 128) : Nat := fld r 15 12
/-- The neighbour code of edge `e`. -/
def idNbr (r : BitVec 128) (e : Nat) : Nat := fld r (25 + 10 * e) (16 + 10 * e)

/-- An identity record passes the checks of R33 but that of repeated slots; `code` is its P-site or port code. -/
def State.idOk (s : State) (r : BitVec 128) (code : Nat) : Bool :=
  let role := idRole r
  decide (crc16 (bytesLE 14 (fld r 111 0)) = fld r 127 112) && decide (fld r 8 0 = code) && decide (fld r 95 64 = s.hub.rot.panelTag.toNat)
    && (if 288 ≤ code then decide (role = 5) else if code % 12 = 5 then decide (role = 3) else decide (role = 1 ∨ role = 2 ∨ role = 4))
    && (if role = 1 then decide (idSlot r < 10) else decide (idSlot r = 15))

/-- Another active compute die of the sector carries the same logical slot (R33). -/
def State.slotTwice (s : State) (k : Nat) : Bool :=
  decide (idRole (s.idRecord k) = 1) && ((List.range 12).map (fun i => 12 * (k / 12) + i)).any (fun q =>
    q != k && decide (idRole (s.idRecord q) = 1) && decide (idSlot (s.idRecord q) = idSlot (s.idRecord k)))

/-- The site answers on its control ring. -/
def State.answers (s : State) (k : Nat) : Bool := decide (s.hub.region.get 0 k ≠ 0) && !s.hub.boot.silent.contains k

/-- The sites that the checks of R33, the fused role and the bad-unit fuses mark bad (R36, R476). -/
def State.fuseChecks (s : State) : State :=
  s.updBoot (fun b =>
    let b1 := (List.range 288).foldl (fun b k =>
      if !s.answers k then b
      else if !s.idOk (s.idRecord k) k || s.slotTwice k || decide (idRole (s.idRecord k) = 4) then b.site k 1 else b) b
    let b2 := (s.hub.fuses.recs.filter (fun r => decide (fld r 23 16 = 1))).foldl (fun b r => b.tile (fld r 15 0) (fld r 28 24) 1) b1
    let b3 := (s.hub.fuses.recs.filter (fun r => decide (fld r 23 16 = 3 ∨ fld r 23 16 = 4))).foldl (fun b r =>
      { b with lanes := b.lanes ++ [(fld r 23 16 + 2, fld r 15 0, fld r 35 24)] }) b2
    { b3 with
      spareTile := s.hub.fuses.spareAt
      badPort := [1, 2, 3].filter (fun q => b.silentPorts.contains q || !s.idOk (s.idRecord (288 + q)) (0x1F1 + q)) })

/-! ### The soft map (R466, R467) -/

/-- Records of one copy of a table that fail their CRC, logged (R466). -/
def State.logBadCrc (s : State) (copy : Nat) (l : List (BitVec 64)) : State :=
  (l.filter (fun r => !recOk r)).foldl (fun s r => s.bb srcFw 0x0601 1 0x1F0 31 0 (bytesLE 1 copy ++ bytesLE 8 r.toNat)) s

/-- Records that only one copy holds are appended to the other (R466). -/
def State.completeCopies (s : State) (get : Mram → List (BitVec 64)) (set : Mram → List (BitVec 64) → Mram) : State :=
  let h := s.hub.bbx.hub
  let e := s.hub.bbx.east
  if !h.readable || !e.readable then s
  else
    let miss := fun (a b : List (BitVec 64)) => (b.filter recOk).filter (fun r => !a.contains r)
    let h' := set h ((get h ++ miss (get h) (get e)).take 8192)
    let e' := set e ((get e ++ miss (get e) (get h)).take 8192)
    s.updHub (fun x => { x with bbx := { x.bbx with hub := h', east := e' } })

/-- The tables of the MRAMs read: bad records logged, the copies completed, an unreadable copy reported. -/
def State.readMaps (s : State) : State :=
  let log := fun (s : State) (get : Mram → List (BitVec 64)) =>
    (s.logBadCrc 0 (if s.hub.bbx.hub.readable then get s.hub.bbx.hub else [])).logBadCrc 1 (if s.hub.bbx.east.readable then get s.hub.bbx.east else [])
  let s1 := log (log (log (log s (·.soft)) (·.spmRep)) (·.stkRep)) (·.phase)
  let s2 := (((s1.completeCopies (·.soft) (fun m l => { m with soft := l })).completeCopies (·.spmRep) (fun m l => { m with spmRep := l })).completeCopies
    (·.stkRep) (fun m l => { m with stkRep := l })).completeCopies (·.phase) (fun m l => { m with phase := l })
  if s.hub.bbx.hub.readable && s.hub.bbx.east.readable then s2 else s2.raiseReason 0xA

/-- Bad units of the soft map, in record order (R466, R467, R476): 1 DIE_BAD, 2 TILE_BAD, 3 SPARE_TILE, 5 LANE_BAD, 6 SERDES_BAD. -/
def Boot.softUnit (b : Boot) (r : BitVec 64) : Boot :=
  let k := fld r 12 4
  match fld r 3 0 with
  | 1 => b.site k 2
  | 2 => b.tile k (fld r 24 13 % 32) 2
  | 3 => if b.spareTile.get 0 k = 0 then { b with spareTile := b.spareTile.put 0 k (fld r 16 13 + 1) } else b
  | 5 => { b with lanes := b.lanes ++ [(5, k, fld r 24 13)] }
  | 6 => { b with lanes := b.lanes ++ [(6, k, fld r 24 13)] }
  | _ => b

/-- The substitutions of the soft map that stand: those whose site is not treated as bad (R39, R467), in record order. -/
def State.substs (s : State) : List (Nat × Nat) :=
  ((s.mramTable (·.soft)).filter (fun r => decide (fld r 3 0 = 4 ∧ fld r 32 25 < 240 ∧ fld r 12 4 < 288) && !s.hub.boot.bad (fld r 12 4)
    && decide (fld r 12 4 / 12 = fld r 32 25 / 10))).map (fun r => (fld r 32 25, fld r 12 4))

/-- The soft map applied to the findings (R466, R467); reserved kinds are logged. -/
def State.softChecks (s : State) : State :=
  let l := s.mramTable (·.soft)
  let s1 := s.updBoot (fun b => l.foldl Boot.softUnit b)
  let s2 := (l.filter (fun r => decide (fld r 3 0 = 0 ∨ 6 < fld r 3 0))).foldl (fun s r => s.bb srcFw 0x0600 1 0x1F0 31 0 (bytesLE 8 r.toNat)) s1
  -- a site whose L-die another site serves by the soft map was lost (assumption log 73)
  s2.substs.foldl (fun s x => s.updBoot (fun b => (List.range 288).foldl (fun b k =>
    if k / 12 = x.1 / 10 ∧ k ≠ x.2 ∧ idRole (s.idRecord k) = 1 ∧ idSlot (s.idRecord k) = x.1 % 10 then b.site k 2 else b) b)) s2

/-! ### The site map (R39, R45) -/

/-- SITE_STATE by a site's finding. -/
def Boot.siteState (b : Boot) (k role : Nat) : BitVec 3 :=
  if b.dark.contains (k / 12) then 5
  else match b.badSite.get 0 k with
    | 0 => if role = 2 then 1 else 0
    | 1 => 2
    | 2 => if k % 12 = 5 then 5 else 3
    | _ => if k % 12 = 5 then 5 else 4

/-- Passes 1 and 2 of the site map (R39), with the states of every site and stack. -/
def State.buildMap (s : State) : State :=
  let b := s.hub.boot
  let role := fun k => if s.answers k then idRole (s.idRecord k) else 0
  let site := (List.range 288).foldl (fun (t : Table SiteInfo) k => t.put {} k {
    role := BitVec.ofNat 3 (role k), lslot := if s.answers k then BitVec.ofNat 4 (idSlot (s.idRecord k)) else 0xF, state := b.siteState k (role k) }) []
  let acts := (List.range 288).filter (fun k => decide (role k = 1 ∧ idSlot (s.idRecord k) < 10))
  let p1 := acts.foldl (fun (a : Table Smap × Table SiteInfo) k =>
    let n := 10 * (k / 12) + idSlot (s.idRecord k)
    if b.bad k then (a.1.upd {} n (fun m => if m.valid then m else { m with psite := k }), a.2)
    else (a.1.put {} n { psite := k, valid := true }, a.2.upd {} k (fun i => { i with ldie := BitVec.ofNat 8 n }))) ([], site)
  let p2 := s.substs.foldl (fun (a : Table Smap × Table SiteInfo) x =>
    let old := (a.1.get {} x.1).psite
    (a.1.put {} x.1 { psite := x.2, origin := 1, valid := true },
     (a.2.upd {} old (fun i => if i.ldie.toNat = x.1 then { i with ldie := 0xFF } else i)).upd {} x.2 (fun i => { i with
       state := 0, ldie := BitVec.ofNat 8 x.1 }))) p1
  let stk := (List.range 24).foldl (fun (t : Table Stkmap) k => t.put {} k {
    psite := 12 * k + 5, state := if b.dark.contains k then 3 else if b.bad (12 * k + 5) then 2 else (s.stack k).st }) []
  s.editAnat (fun a => { a with smap := p2.1, site := p2.2, stk := stk })

/-- Some L-die has a working die. -/
def State.someDie (s : State) : Bool := s.hub.anat.smap.any (fun kv => kv.2.valid)

/-! ### Links (R34, R281, R282) -/

/-- The place that a neighbour code names: a P-site, 288 + k for port die k, 292 the hub. -/
def nbrPlace (c : Nat) : Option Nat :=
  if c < 288 then some c else if c = 0x200 then some 292 else if 0x201 ≤ c ∧ c ≤ 0x204 then some (288 + (c - 0x201)) else none

/-- The neighbour code of a place. -/
def placeCode (k : Nat) : Nat := if k < 288 then k else if k = 292 then 0x200 else 0x201 + (k - 288)

/-- The record of the die on site `q` names the die at site or place `k` on some edge; an end site's inner edge, which carries both of
its ring's links, names both partners by the farther one (assumption log 66). -/
def State.recordNames (s : State) (q k : Nat) : Bool :=
  let r := s.idRecord q
  (List.range 4).any (fun f => idNbr r f == placeCode k)
    || (torusLinks q).any (fun l => l.dst == k && (torusLinks q).any (fun m => m.edge == l.edge && m.dst != k && idNbr r l.edge == placeCode m.dst))

/-- A link that the die on site `k` names on edge `e` is trained (R34): its partner names the die too and is not treated as bad.
The hub has no record of its own. -/
def State.linkNamed (s : State) (k e : Nat) : Bool :=
  match nbrPlace (idNbr (s.idRecord k) e) with
  | none => false
  | some q =>
    if q = 292 then true
    else if q < 288 then !s.hub.boot.bad q && s.recordNames q k
    else !s.hub.boot.badPort.contains (q - 288) && s.recordNames q k

/-- The place across edge `e` of site `k`, as the panel is wired (R278, R280), by the farther partner on an edge that carries two links. -/
def facing (k e : Nat) : List Nat :=
  ((torusLinks k).filter (fun l => l.edge == e)).map (·.dst)
    ++ (attachments.filter (fun a => a.2.1 == k && a.2.2.1 == e)).map (fun a => if a.1 = 264 then 292 else 288 + (a.1 - 265))

/-- What R34's check leaves an end of a link: 5 no link, 4 FAILED and not trained, 0 to be trained. A die that names no partner on an edge
faces one that names it: the link fails at both ends. -/
def State.endCheck (s : State) (n e : Nat) : BitVec 3 :=
  match s.siteOf n with
  | some k =>
    if idNbr (s.idRecord k) e ≠ 0x3FF then (if s.linkNamed k e then 0 else 4)
    else if (facing k e).any (fun q => q == 292 || s.recordNames q k) then 4 else 5
  | none =>
    match attachments.find? (fun a => a.1 == n && a.2.2.2 == e) with
    | none => 5
    | some a =>
      if !s.hub.boot.bad a.2.1 && idNbr (s.idRecord a.2.1) a.2.2.1 == placeCode (if n = 264 then 292 else 288 + (n - 265))
          && (n == 264 || s.recordNames (288 + (n - 265)) a.2.1) then 0 else 4

/-- Every end of every link marked as R34's check finds it, before any is trained. -/
def State.checkLinks (s : State) : State :=
  ((List.range 269).filter (fun n => decide (264 ≤ n) || (s.siteOf n).isSome)).foldl (fun s n => (List.range 4).foldl (fun s e =>
    s.updFab n (fun f => { f with link := f.link.put {} e { st := s.endCheck n e } })) s) s

/-- Channels that the modules `m` lost leave of 24 (R281). -/
def chansLeft (m : BitVec 8) : BitVec 5 := BitVec.ofNat 5 (24 - 3 * (bitsOf m 8).length)

/-- A link end whose modules `m` could not be restored, besides those known already: three channels are absent for each (R281). -/
def Link.lose (l : Link) (m : BitVec 8) : Link :=
  let a := l.absent ||| m
  { l with absent := a, ch := chansLeft a, st := if a = 0 then 2 else if a = 0xFF then 4 else 3 }

/-- The link ends whose link crosses the repeat path of site `k` along the axis of edge `e`. -/
def crossing (k e : Nat) : List (Nat × Nat) :=
  (List.range 288).flatMap (fun q => ((torusLinks q).filter (fun l => l.mid == some k && l.isY == (e % 2 == 0))).map (fun l => (q, l.edge)))

/-- A link trained, unless R34 leaves it untrained (R281); modules that the repeat path has lost are lost to the links that cross it. -/
def State.setLink (s : State) (l : LinkTrain) : State :=
  let n := l.node.val
  if s.endCheck n l.edge.val ≠ 0 ∨ n < 264 ∧ s.siteOf n = none then s
  else
    let s1 := s.updFab n (fun f => { f with link := f.link.upd {} l.edge.val (fun x => { x.lose l.lost with thru := chansLeft l.thruLost }) })
    if l.thruLost = 0 then s1
    else match s.siteOf n with
      | none => s1
      | some k => (crossing k l.edge.val).foldl (fun s x => match s.nodeAt x.1 with
        | some m => if s.endCheck m x.2 ≠ 0 then s else s.updFab m (fun f => { f with link := f.link.upd {} x.2 (fun y => y.lose l.thruLost) })
        | none => s) s1

/-- BOOT_LINKS_FAILED and BOOT_LINKS_DEGR: a link between two sites counts once. -/
def State.countLinks (s : State) : State :=
  let count := fun (st : BitVec 3) => (List.range 269).foldl (fun a n => a + ((List.range 4).filter (fun e =>
    decide (((s.node n).fab.link.get {} e).st = st) && ((s.linkedTo n e) ++ []).all (fun m => decide (n ≤ m.1)))).length) 0
  (s.hwr bootLinksFailed (count 4)).hwr bootLinksDegr (count 3)

/-! ### Boot tables and windows (R470) -/

/-- Tables written into a router. -/
def State.setTables (s : State) (t : RouterTables) : State :=
  s.updFab t.node.val (fun f => { f with
    route := t.route.foldl (fun m x => if x.1 < 512 then m.put 0 x.1 x.2 else m) f.route
    tree := t.tree.foldl (fun m x => if x.1 < 256 then m.put 0 x.1 x.2 else m) f.tree
    phIdx := t.phIdx.foldl (fun m x => if x.1 < 4096 then m.put 0 x.1 x.2 else m) f.phIdx
    slot := t.slot.foldl (fun m x => if x.1 < 32768 then m.put 0 x.1 x.2 else m) f.slot })

/-- A boot window (R470): over `limit64` units of 64 bytes, open to the hub die cell's writes. -/
def bootWindow (w : Window) (limit64 now tb : Nat) : Window :=
  { w with gen := nextGen w.gen, st := .open, rights := 2, skind := 0, srcval := nodeCell 264, cmode := 0, cnt := 0xFF, base64 := 0,
           limit64 := BitVec.ofNat 32 limit64, rej := 0, qthr := 0, opened := true, openT := now, openTb := BitVec.ofNat 32 tb }

/-- The boot windows opened on the tiles and the stack node that take part. -/
def State.openBoot (s : State) (dies snodes : List Nat) : State :=
  let s1 := dies.foldl (fun s n => (List.range 16).foldl (fun s i => s.updTile (16 * n + i) (fun x => { x with
    w := { x.w with win := x.w.win.upd {} 63 (fun w => bootWindow w 0x10000 s.now (s.dieTb n)) } })) s) s
  snodes.foldl (fun s k => s.updStack k (fun x => { x with w := { x.w with win := x.w.win.upd {} 255 (fun w => bootWindow w 0x20000 s.now (s.dieTb (stackNode k))) } })) s1

/-- The boot phase, tree 255 and the boot windows cleared (R470, R478). -/
def State.clearBoot (s : State) : State :=
  let s1 := s.mapNodes (List.range 269) (fun x => { x with fab := { x.fab with tree := x.fab.tree.put 0 255 0, phIdx := x.fab.phIdx.put 0 4095 0 } })
  let s2 := s1.mapTiles (List.range 3840) (fun _ x => { x with w := { x.w with win := x.w.win.put {} 63 {} } })
  (s2.mapStacks (List.range 24) (fun x => { x with w := { x.w with win := x.w.win.put {} 255 {} } }))

/-! ### Stack repairs replayed (R269, R272) -/

/-- A repair record replayed: a chunk of the spare store, a channel; without a resource the channel retires. -/
def Stack.replay (x : Stack) (r : BitVec 64) : Stack :=
  let q := fld r 10 5
  match fld r 35 34 with
  | 1 => if x.spareUsed < 4096 then { x with spareUsed := x.spareUsed + 1, remap := x.remap.put false (q * 2 ^ 23 + fld r 33 11) true }
    else x.retireChan (q / 2) 3 2
  | 2 => x.retireChan (q / 2) 3 2
  | _ => x

/-! ### The bundle (R468, R469, R579) -/

/-- `n` bytes of the header at `a`, as a number. -/
def zbWord (z : Bundle) (a n : Nat) : Nat := ofLE ((z.bytes.drop a).take n)

/-- The section whose first chunk and whose count stand at `a` and `a + 2` of the header. -/
def zbSect (z : Bundle) (a : Nat) : List Byte := (z.bytes.drop (4096 * zbWord z a 2)).take (4096 * zbWord z (a + 2) 2)
def zbTile (z : Bundle) : List Byte := zbSect z 8
def zbStk (z : Bundle) : List Byte := zbSect z 12
def zbSig (z : Bundle) : List Byte := zbSect z 16

/-- What ZB_DIGEST covers (R468): every chunk but chunk 0 and the signature section, in order. -/
def zbCovered (z : Bundle) : List Byte :=
  let a := 4096 * zbWord z 16 2
  ((z.bytes.take a).drop 4096) ++ z.bytes.drop (a + 4096 * zbWord z 18 2)

/-- ZB_DIGEST holds (R469). -/
def zbDigestOk (z : Bundle) : Bool := decide (zbWord z 32 48 = ofLE (bytesLE 48 (Config.sha384 (zbCovered z)).toNat))

/-- `n` bytes of the signature section at `a`. -/
def zbSigWord (z : Bundle) (a n : Nat) : Nat := ofLE (((zbSig z).drop a).take n)
def zbSvn (z : Bundle) : Nat := zbSigWord z 6 2
def zbSigner (z : Bundle) : Nat := zbSigWord z 8 1
def zbOpSig (z : Bundle) : Bool := (zbSigWord z 9 1).testBit 0

/-- The signature section is laid out as R579 says: magic, version, signer, zeros, the digest of chunk 0. -/
def zbSigFormed (z : Bundle) : Bool :=
  decide (9510 ≤ (zbSig z).length) && decide (zbSigWord z 0 4 = 0x3447535A) && decide (zbSigWord z 4 2 = 1) && decide (zbSigner z < 4)
    && decide (zbSigWord z 9 1 < 2) && decide (zbSigWord z 10 6 = 0) && ((zbSig z).drop 9510).all (· == 0)
    && decide (zbSigWord z 16 48 = ofLE (bytesLE 48 (Config.sha384 (z.bytes.take 4096)).toNat))

/-! ### Receivers (R470, R471) -/

/-- The tile or stack node that a receiver is, where it serves a logical number. -/
def State.receiverTile (s : State) (site t : Nat) : Option Nat := s.tileAt site t

/-- Receivers of the broadcast by number (R470): every tile but those of bad dies and those that fuses mark bad, and every stack
node that is not retired. -/
def State.receivers (s : State) : List Nat :=
  let b := s.hub.boot
  ((List.range 288).filter (fun k => k % 12 != 5 && !b.bad k && decide (s.hub.region.get 0 k = 3))).flatMap (fun k =>
      ((List.range 17).filter (fun t => decide (b.badTile.get 0 (17 * k + t) ≠ 1))).map (fun t => 17 * k + t))
    ++ ((List.range 24).filter (fun k => decide (s.hub.region.get 0 (12 * k + 5) = 3 ∧ (s.stack k).st ≠ 2))).map (fun k => 4896 + k)

/-- Chunk `c` of its section lands at receiver `r` (R471), with the poison bit or without. A die's unused spare tile takes it into its own
scratchpad; a bad tile and the dies that serve no L-die hold nothing that anything reads. -/
def State.landChunk (s : State) (r c : Nat) (poison : Bool) : State :=
  match s.hub.boot.bundle with
  | none => s
  | some z =>
    if 4896 ≤ r then s.updStack (r - 4896) (fun x => x.write (4096 * c) (((zbStk z).drop (4096 * c)).take 4096) poison s.now s.freeCtr)
    else
      let bs := ((zbTile z).drop (4096 * c)).take 4096
      match s.receiverTile (r / 17) (r % 17) with
      | none => (match s.nodeAt (r / 17) with
        | some n => if r % 17 = 16 then s.updNode n (fun x => { x with spareSpm := x.spareSpm.write (4096 * c) bs poison }) else s
        | none => s)
      | some t =>
        s.updTile t (fun x => { x with
          spm := x.spm.write (4096 * c) bs poison
          seq := if c < 8 then { x.seq with imem := x.seq.imem.putList 0 (256 * c) ((List.range 256).map (fun i =>
            BitVec.ofNat 128 (ofLE ((bs.drop (16 * i)).take 16)))) } else x.seq })

/-- How many chunks receiver `r` takes. -/
def State.chunksOf (s : State) (r : Nat) : Nat :=
  match s.hub.boot.bundle with
  | none => 0
  | some z => (if 4896 ≤ r then (zbStk z).length else (zbTile z).length) / 4096

/-- Receiver `r` is treated as bad with a cause (R473, R474): a tile, or a stack node, which is retired. -/
def State.receiverBad (s : State) (r cause : Nat) : State :=
  if 4896 ≤ r then (s.updStack (r - 4896) (fun x => { x with st := 2 })).updBoot (fun b => b.site (12 * (r - 4896) + 5) (3 + cause))
  else s.updBoot (fun b => b.tile (r / 17) (r % 17) (3 + cause))

end Sys2Proof.Machine
end

