-- ==== Sys2Proof/Machine/PowerInsn.lean ====
section
/-! DEFINITION. Feeds, standby power, reset pins, eFuses, phases, inrush, budgets, region states (chapters 18 and 23). -/

namespace Sys2Proof.Machine

/-! ### Feeds and standby (R458, R504–R508, R613, R617–R619) -/

/-- A voltage in units of 10 mV lies in the operating range of the 48 V feed, or of the 12 V feed (R504). -/
def feedIn (f48 : Bool) (v : Nat) : Bool := if f48 then decide (4400 ≤ v ∧ v ≤ 5600) else decide (1140 ≤ v ∧ v ≤ 1260)

/-- MAIN_POWER_GOOD (R458, R504, R505, R548, R593): `f48` and `f12` tell which feeds are within range, `e` and `w` which 48 V
pairs; the feed in use is latched, and the hub die and PD-N are powered. With both, main power is withheld. -/
def execMainPowerGood (f48 f12 e w : Bool) (vin : W16) (s : State) : Result :=
  let f := s.hub.feed
  .next (if !f.stby || f.mainGood || f.tripped || (!f48 && !f12) then s
    else if f48 != f12 && !feedIn f48 vin.toNat then s
    else if f48 && f12 then
      (if s.hrd pmgrFeed = 3 then s else (s.hwr pmgrFeed 3).bb srcBbx 0x0301 1 0x1F0 31 0 [])
    else
      let boots := s.hub.bbx.bootCount + 1
      let s1 := s.updHub (fun h => { h with
        feed := { h.feed with mainGood := true, latched := if f48 then 1 else 2 }
        bbx := { h.bbx with bootCount := boots }
        boot := { powerAt := s.now }
        region := [(288, 3), (292, 3)]
        tb := { h.tb with startAt := some s.now }
        phases := ((s.mramTable (·.phase)).filter (fun r => decide (fld r 8 0 = 0x1F0 ∨ fld r 8 0 = 0x1F1))).map (fun r =>
          (fld r 8 0, fld r 11 9, fld r 15 12)) })
      let s2 := ((s1.hwr bootCount boots.toNat).hwr pmgrFeed (if f48 then 1 else 2)).hwr pmgrVin vin.toNat
      let s3 := ((s2.hwr pmgrPairE (b2n (f48 && e))).hwr pmgrPairW (b2n (f48 && w))).hwr tbmLocked 1
      let s4 := ((s3.hwr polDbgNonceLo (Config.free32 s.freeCtr 0).toNat).hwr polDbgNonceHi (Config.free32 s.freeCtr 1).toNat).drawn
      let s5 := (s4.updPort 0 (fun x => { x with fast := true })).updPort 2 (fun x => { x with ethRole := s.hub.roleNext })
      let s6 := [1, 3].foldl (fun s q => s.updPort q (fun x => { x with ethRole := true })) s5
      ((s6.setLimit s6.limitNow false).wr 265 clkFpllLock 1).startFw)

/-- SECOND_FEED_APPEARS (R505): ignored, and logged once. -/
def execSecondFeedAppears (s : State) : Result :=
  .next (if !s.hub.feed.mainGood || s.hub.feed.otherLogged then s
    else (s.updHub (fun h => { h with feed := { h.feed with otherLogged := true } })).bb srcFw 0x0301 0 0x1F0 31 0 [])

/-- BUSBAR_PAIR_LOST (R506): the east pair, or the west one. -/
def execBusbarPairLost (west : Bool) (s : State) : Result :=
  .next (if !s.hub.feed.mainGood || decide (s.hub.feed.latched ≠ 1) || decide (s.hrd (if west then pmgrPairW else pmgrPairE) = 0) then s
    else (s.hwr (if west then pmgrPairW else pmgrPairE) 0).bb srcFw 0x0303 1 0x1F0 31 0 [])

/-- Every die budget is zero (R508). -/
def State.zeroBudgets (s : State) : State := (List.range 24).foldl (fun s k => s.cutSector 0 1 k) s

/-- The latched feed is gone (R508, R613): budgets fall to zero, the black box writes its last records, partitions end. -/
def State.feedLost (s : State) (stby : Bool) : State := (s.zeroBudgets.powerLoss).cold stby

/-- FEED_UNDERVOLTAGE (R508, R613, R618). After a hard trip it unlatches the trip: main power must be removed and restored. -/
def execFeedUndervoltage (s : State) : Result :=
  .next (if s.hub.feed.mainGood then s.feedLost true else if s.hub.feed.tripped then s.cold true else s)

/-- STANDBY_POWER_ON (R458, R552, R617): the standby domain is up, with the copies of the MRAM that can be used. -/
def execStandbyPowerOn (hubOk eastOk : Bool) (s : State) : Result :=
  .next (if s.hub.feed.stby then s
    else (s.updHub (fun h => { h with
      feed := { h.feed with stby := true }
      tb := { h.tb with rtcBase := 0, rtcAt := s.now }
      bbx := { h.bbx with hub := { h.bbx.hub with readable := hubOk }, east := { h.bbx.east with readable := eastOk } } })).setMramOk)

/-- STANDBY_POWER_LOSS (R613, R618). -/
def execStandbyPowerLoss (s : State) : Result :=
  .next (if !s.hub.feed.stby then s else if s.hub.feed.mainGood then s.feedLost false else s.powerLoss.cold false)

/-- WARM_RST_N_LOW (R497, R619): ignored while main power is not good, so also under a cold reset. -/
def execWarmRstNLow (s : State) : Result := .next s.warm

/-- COLD_RST_N_LOW (R496, R619): everything but VAON is switched off. -/
def execColdRstNLow (s : State) : Result := .next (if s.hub.feed.stby then s.cold true else s)

/-! ### The cap (R525, R526) -/

/-- SET_POWER_CAP (R393, R525, R570). -/
def execSetPowerCap (f : Fin 50) (q : Fin 8) (tag : W16) (s : State) : Result :=
  .next (s.fwRun f.val q.val tag 0x1B false (fun c =>
    let w := cmdB c.cmd 8 12
    if w < 4000 ∨ 15500 < w ∨ w % 50 ≠ 0 then s.endCmd c scBadParam []
    else
      let s1 := s.hwr pmgrCapW w
      ((s1.setLimit s1.limitNow false).ecAll).endCmd c scOk []))

/-! ### eFuses and phases (R494, R515–R519) -/

/-- SITE_EFUSE_TRIP (R517, R518): region `key` (0–287 a site, 288 + k port die k, 292 the hub) is switched off; its eFuse stays open until cold
reset, and no later boot powers a site whose eFuse tripped. A spare that trips while it wakes fails that wake. -/
def execSiteEfuseTrip (key : Fin 293) (s : State) : Result :=
  let k := key.val
  .next (if s.hub.region.get 0 k = 0 then s
    else
      let code := if k < 288 then k else if k = 292 then 0x1F0 else 0x1F1 + (k - 288)
      let s1 := (s.updHub (fun h => { h with fuseOpen := h.fuseOpen ++ [k] })).bb srcFw 0x0305 2 code (if k < 288 then s.partOfSector (k / 12) else 31) 0 []
      if k < 288 then
        (match (if (s.hub.anat.site.get {} k).state = 1 then s.waitsSpare (k / 12) else none) with
         | some n => ((s1.setRegion k 0).cutSite k).wakeFailed k n (s.partOfSector (k / 12)) 0
         | none => (s1.softAppend (softRec 1 k 0xFFF 0xFF 0 s.hub.bbx.bootCount.toNat)).regionOff k)
      else s1.regionOff k)

/-- SECTOR_EFUSE_TRIP (R494, R517, R519). -/
def execSectorEfuseTrip (k : StackNo) (s : State) : Result :=
  let s1 := ((s.hwr (scpmEfuse k.val) 1).dropInrush k.val (fun _ => true)).bb srcFw 0x0305 2 0xFFFF (s.partOfSector k.val) 0 (bytesLE 1 k.val)
  .next (if s.hrd (scpmEfuse k.val) = 1 then s
    else if s.hrd bootImago = 1 then s1.sectorOff k.val
    else ((List.range 12).foldl (fun s i => match s.nodeAt (12 * k.val + i) with
      | some n => ((s.setRegion (12 * k.val + i) 0).cutSite (12 * k.val + i)).dieOff n
      | none => (s.setRegion (12 * k.val + i) 0).cutSite (12 * k.val + i)) s1).updHub (fun h => { h with
      boot := { h.boot with dark := h.boot.dark ++ [k.val] } }))

/-- Phases N and supplies of a rail (R510): N of R516, and how many rails of the kind the region has. -/
def railN (key rail : Nat) : Nat :=
  match rail with
  | 0 => 2
  | 1 => if key < 288 then 10 else 3
  | 2 => 3
  | 3 => 3
  | 4 => 3
  | 5 => 1
  | 6 => 4
  | _ => 1

/-- Failed phases of a rail at P-site or port code `site`; the three stack supplies of three phases count apart (R510, R516,
assumption log 70). -/
def State.railFails (s : State) (site rail sub : Nat) : Nat :=
  (s.hub.phases.filter (fun x => x.1 == site && x.2.1 == rail && (rail != 5 || x.2.2 / 3 == sub))).length

/-- The field of DPM_PF_* of a rail (R532). -/
def pfField (rail : Nat) : Option Fd :=
  match rail with
  | 0 => some dpmPfVlink | 1 => some dpmPfVlogic | 2 => some dpmPfVarray | 3 => some dpmPfVmif | 4 => some dpmPfVserdes
  | 5 => some dpmPfVstk | _ => none

/-- The worst fate of region `key` by its rails (R516): 0 none, 1 capped, 2 off. -/
def State.phaseFate (s : State) (key site : Nat) : Nat :=
  if key = 292 then (if 3 ≤ s.railFails site 6 0 ∨ 3 ≤ s.railFails site 7 0 then 2 else 0)
  else (List.range 6).foldl (fun m rail =>
    let f := (List.range 3).foldl (fun a i => max a (s.railFails site rail i)) 0
    max m (if f < 3 then 0 else if railN key rail ≤ 2 ∨ 4 ≤ f then 2 else 1)) 0

/-- The failed phases of region `key` shown in its DPM block and acted on (R516). -/
def State.phaseAct (s : State) (key : Nat) : State :=
  let site := if key < 288 then key else if key = 292 then 0x1F0 else 0x1F1 + (key - 288)
  let node := if key < 288 then s.nodeAt key else if key = 292 then none else some (265 + (key - 288))
  let s1 := match node with
    | none => s
    | some n => (List.range 6).foldl (fun s r => match pfField r with
      | some fd => s.wr n fd (min 7 ((List.range 3).foldl (fun a i => max a (s.railFails site r i)) 0))
      | none => s) s
  match s.phaseFate key site with
  | 0 => s1
  | 1 =>
    let s2 := match node with
      | some n => (s1.wr n dpmCap70 1).setBudget n
      | none => s1
    s2.raiseReason 0xB
  | _ => s1.regionOff key

/-- PHASE_FAILURE (R515, R516): a phase of a rail of region `key` is disconnected, reported and recorded. -/
def execPhaseFailure (key : Fin 293) (rail : Fin 8) (phase : Fin 16) (s : State) : Result :=
  let k := key.val
  let site := if k < 288 then k else if k = 292 then 0x1F0 else 0x1F1 + (k - 288)
  .next (if s.hub.region.get 0 k = 0 ∨ s.hub.phases.contains (site, rail.val, phase.val) then s
    else
      let s1 := (s.updHub (fun h => { h with phases := h.phases ++ [(site, rail.val, phase.val)] })).mramAppend (fun m =>
        { m with phase := m.phase ++ [phaseRec site rail.val phase.val] })
      let s2 := s1.bb srcFw 0x0304 1 site (if k < 288 then s.partOfSector (k / 12) else 31) 0 (bytesLE 1 rail.val ++ bytesLE 1 phase.val)
      s2.phaseAct k)

/-! ### Inrush (R520–R523) -/

/-- INRUSH_REQUEST (R520, R521, R523): a switch-on of a cell asks for its token. -/
def execInrushRequest (k : StackNo) (cell : W16) (cls : InrushClass) (s : State) : Result := .next (s.inrushAsk k.val cell cls 0)

/-- INRUSH_GRANT (R521): the sector's bus current, averaged over 10 µs, reads `i` in 0.1 A, and waiting requests that fit are
granted. -/
def execInrushGrant (k : StackNo) (i : BitVec 12) (s : State) : Result :=
  .next ((s.hwr (scpmI k.val) i.toNat).grantHeads k.val ((s.hub.scpm.get {} k.val).queue.length))

/-- INRUSH_WAIT_EXPIRY (R522): the oldest request has waited 1 ms; it ramps slowly at a quarter of its class's inrush. -/
def execInrushWaitExpiry (k : StackNo) (s : State) : Result :=
  let x := s.hub.scpm.get {} k.val
  .next (match x.queue with
    | [] => s
    | r :: rest =>
      let s1 := (s.till (r.at_ + 1000000)).updHub (fun h => { h with scpm := h.scpm.put {} k.val { x with
        queue := rest, granted := x.granted ++ [{ r with ma := r.ma / 4, slow := true }] } })
      ((s1.inc 264 (scpmSlow k.val)).noteScpm k.val).grantHeads k.val rest.length)

/-- RAMP_END (R274, R521, R522): the oldest token of a cell is released; a stack that was woken from OFF begins its training. -/
def execRampEnd (k : StackNo) (cell : W16) (s : State) : Result :=
  let x := s.hub.scpm.get {} k.val
  .next (match x.granted.findIdx? (fun r => r.cell == cell) with
    | none => s
    | some i =>
      let s1 := ((s.updHub (fun h => { h with scpm := h.scpm.put {} k.val { x with granted := x.granted.eraseIdx i } })).noteScpm k.val).grantHeads
        k.val x.queue.length
      let y := s1.stack k.val
      if (x.granted[i]?.map (·.cls)) = some .stackRails ∧ cell = nodeCell (stackNode k.val) ∧ y.pw = .off ∧ y.waking then s1.trainStack k.val else s1)

/-! ### Budgets (R524–R530) -/

/-- SECTOR_OVERCURRENT (R524, R528): every die of the sector is cut; by how much is not stated (assumption log 71). -/
def execSectorOvercurrent (k : StackNo) (i : BitVec 12) (s : State) : Result :=
  .next (if i.toNat ≤ s.hrd (scpmIlim k.val) then s
    else
      let s1 := (((s.hwr (scpmI k.val) i.toNat).hwr (scpmOver k.val) 1).endLoans k.val (fun _ => true)).drawn
      (s1.activeIn k.val).zipIdx.foldl (fun s n =>
        let v := (Config.freeWord s1.freeCtr n.2).toNat % (s.rd n.1 dpmBudget + 1)
        (((s.wr n.1 dpmBudget v).updDpm n.1 (fun d => { d with share := v })).wr n.1 dpmThrottle 1).emit (.ctl n.1 1 v)) s1)

/-- SCPM_OVER_CLEARS (R524): the bus is within its limit again, and the dies are lowered no further. -/
def execScpmOverClears (k : StackNo) (i : BitVec 12) (s : State) : Result :=
  .next (if s.hrd (scpmOver k.val) = 0 ∨ s.hrd (scpmIlim k.val) < i.toNat then s
    else (s.activeIn k.val).foldl (fun s n => s.wr n dpmThrottle (b2n (decide (s.rd n dpmBudget ≤ s.rd n dpmPower))))
      ((s.hwr (scpmI k.val) i.toNat).hwr (scpmOver k.val) 0))

/-- Watts for each sector: `rem` in proportion to the demands, none below its least; sectors held at their least leave the rest to
the others (R527, assumption log 72). -/
def divide (rem : Nat) (xs : List (Nat × Nat × Nat)) : Nat → List (Nat × Nat)
  | 0 => xs.map (fun x => (x.1, x.2.2))
  | n + 1 =>
    let d := xs.foldl (fun a x => a + x.2.1) 0
    let part := fun (x : Nat × Nat × Nat) => if d = 0 then rem / max 1 xs.length else rem * x.2.1 / d
    let low := xs.filter (fun x => decide (part x < x.2.2))
    if low = [] then xs.map (fun x => (x.1, part x))
    else low.map (fun x => (x.1, x.2.2)) ++ divide (rem - low.foldl (fun a x => a + x.2.2) 0) (xs.filter (fun x => decide (x.2.2 ≤ part x))) n

/-- What a die power manager reports is noted (R527, R532, R538). -/
def State.noteRead (s : State) (r : DieRead) : State :=
  let n := r.node.val
  let s1 := (s.wr n dpmPower r.power.toNat).wr n dpmThrottle (b2n (decide (r.down.val ≠ 0 ∨ r.throttled ≠ 0)))
  let s2 := s1.wr n dpmThrUs (min 0xFFFFFFFF (s1.rd n dpmThrUs + r.throttled.toNat))
  ((s2.wr n dpmPauses (s2.rd n dpmPauses + r.pauses.toNat)).updDpm n (fun d => { d with budDown := r.down.val })).setClocks n

/-- Spare budget changes hands in sector `k` (R528): dies 10 % or more below their share lend the excess; dies at their share borrow
up to half of it, in ascending order, while the pool lasts. A loan ends 1 ms after it was made. -/
def State.lend (s : State) (k : Nat) : State :=
  let ns := s.activeIn k
  let share := fun n => (s.dpm n).share
  let lends := (ns.filter (fun n => decide (10 * s.rd n dpmPower ≤ 9 * share n) && decide (share n ≠ 0))).map (fun n => (n, share n - s.rd n dpmPower))
  let asks := (ns.filter (fun n => decide (share n ≤ s.rd n dpmPower) && decide (share n ≠ 0))).map (fun n => (n, share n / 2))
  let pool := lends.foldl (fun a l => a + l.2) 0
  let r := asks.foldl (fun (a : List Loan × Nat) x =>
    let v := min x.2 a.2
    if v = 0 then a else (a.1 ++ [⟨x.1, v, false, s.now + 1000000⟩], a.2 - v)) ([], pool)
  let used := pool - r.2
  let out := lends.foldl (fun (a : List Loan × Nat) x =>
    let v := min x.2 a.2
    if v = 0 then a else (a.1 ++ [⟨x.1, v, true, s.now + 1000000⟩], a.2 - v)) ([], used)
  s.updHub (fun h => { h with scpm := h.scpm.upd {} k (fun x => { x with loans := out.1 ++ r.1 }) })

/-- Sector `k` shares `w` watts among its ACTIVE dies (R527): at half of it while its stack is hot (R566). A stack node is never cut
below what its scheduled traffic needs. -/
def State.shareOut (s : State) (reads : List DieRead) (k w : Nat) : State :=
  let w1 := if (s.stack k).hot then w / 2 else w
  let ns := s.activeIn k
  let each := 10 * w1 / max 1 ns.length
  let s1 := (s.hwr (scpmBudgetW k) (min 4095 w1)).updHub (fun h => { h with scpm := h.scpm.upd {} k (fun x => { x with loans := [] }) })
  let s2 := ns.foldl (fun s n =>
    let least := match reads.find? (fun r => r.node.val == n) with | some r => r.least.toNat | none => 0
    s.updDpm n (fun d => { d with share := if n < 240 then each else max each least })) s1
  let s3 := s2.lend k
  ns.foldl (fun s n => (s.setBudget n).emit (.ctl n 0 ((s.setBudget n).rd n dpmBudget))) s3

/-- BUDGET_DIVIDE (R527, R528): `draw` is what the hub, the port dies and the conversion take, in W; `demand` the sectors' demands;
`reads` what the dies report. -/
def execBudgetDivide (draw : W16) (demand : List W16) (reads : List DieRead) (s : State) : Result :=
  .next (if !s.hub.feed.mainGood || decide (s.hrd bootInstar < 2) then s
    else
      let s1 := reads.foldl (fun s r => s.noteRead r) s
      let ks := (List.range 24).filter (fun k => !(s1.activeIn k).isEmpty)
      let xs := ks.map (fun k => (k, (demand.getD k 0).toNat, 10 * (s1.activeIn k).length))
      let ws := divide (s1.hrd pmgrLimitW - draw.toNat) xs 24
      let s2 := ws.foldl (fun s x => s.shareOut reads x.1 x.2) s1
      s2.hwr pmgrCapping (b2n (reads.any (fun r => decide (r.down.val ≠ 0 ∨ r.throttled ≠ 0)))))

/-- BUDGET_LOAN_LAPSE (R528): loans of a sector that were made 1 ms ago end. -/
def execBudgetLoanLapse (k : StackNo) (s : State) : Result :=
  .next (match (s.hub.scpm.get {} k.val).loans with
    | [] => s
    | l :: ls =>
      let s1 := s.till (ls.foldl (fun m x => min m x.end_) l.end_)
      s1.endLoans k.val (fun x => decide (x.end_ ≤ s1.now)))

/-- INPUT_POWER_SAMPLE (R526, R529): input power `p` in W and the feed's voltage. The running sum of the 10 ms window, extended at the
present rate, must not pass 1.10 times the limit. -/
def execInputPowerSample (p vin : W16) (s : State) : Result :=
  .next (if !s.hub.feed.mainGood then s
    else
      let sum := s.hub.pinSum + p.toNat
      let n := s.hub.pinN + 1
      let whole := sum + (1000 - n) * p.toNat
      let top := 1100 * s.hrd pmgrLimitW
      let s1 := s.hwr pmgrVin vin.toNat
      let s2 := if top < whole then ((List.range 24).foldl (fun s k => s.cutSector top whole k) s1).sat 264 pmgrCuts else s1
      if n < 1000 then s2.updHub (fun h => { h with pinSum := sum, pinN := n })
      else
        let avg := sum / 1000
        let l := (s.hub.pinAvg ++ [avg]).drop (s.hub.pinAvg.length - 99)
        let s3 := s2.updHub (fun h => { h with pinSum := 0, pinN := 0, pinAvg := l })
        (s3.hwr pmgrPin1s (l.foldl (· + ·) 0 / max 1 l.length)).hwr pmgrPin10ms (max (s3.hrd pmgrPin10ms) avg))

/-! ### Region states (R242, R512) -/

/-- REGION_SLEEP (R512): only a die whose partition is EMPTY or not formed, once every quarter has accepted PWR_RETAIN or PWR_DOWN. -/
def execRegionSleep (d : DieNo) (s : State) : Result :=
  let p := s.partOfNode d.val
  let idle := decide (24 ≤ p) || !(s.part p).formed || decide ((s.part p).sch.state = .empty)
  let quiet := (List.range 16).all (fun i => (List.range 4).all (fun q =>
    match (s.tile (16 * d.val + i)).spm.quarter q with | .retain => true | .off => true | _ => false))
  .next (if s.power d.val = 3 ∧ idle ∧ quiet then s.setPower d.val 2 else s)

/-- REGION_AON (R512): a die of no partition keeps VLINK alone, so its arrays and its tiles' logic lose what they held. -/
def execRegionAon (d : DieNo) (s : State) : Result :=
  .next (if (s.power d.val = 2 ∨ s.power d.val = 3) ∧ 24 ≤ s.partOfNode d.val then (s.dieOff d.val).setPower d.val 1 else s)

/-- REGION_WAKE (R487, R512): from SLEEP with its arrays, from AON as a woken spare is prepared. -/
def execRegionWake (d : DieNo) (s : State) : Result :=
  .next (if s.power d.val = 2 then (s.setPower d.val 3).setClocks d.val
    else if s.power d.val = 1 then s.freshDie d.val (s.partOfNode d.val)
    else s)

end Sys2Proof.Machine
end

