-- ==== Sys2Proof/Machine/BootInsn.lean ====
section
/-! DEFINITION. The instars of bring-up (chapter 16). -/

namespace Sys2Proof.Machine

/-- BOOT_GO (R460, R570). -/
def execBootGo (target : Fin 8) (s : State) : Result := .next (s.bootGo target.val)

/-! ### Instar 1 (R462, R512, R515, R518, R519) -/

/-- What cleared records were waiting for (R41, R467, R589): the records of the mask go from both copies, BB_CLEAR is appended. -/
def State.runClears (s : State) : State :=
  let s1 := s.hub.rot.clears.foldl (fun (s : State) c =>
    let site := fun (k : Nat) => decide (c.2 = 0xFFFF) || decide (c.2.toNat = k)
    let s1 := s.mramAppend (fun m => { m with
      soft := if bit c.1 0 then m.soft.filter (fun r => !site (fld r 12 4)) else m.soft
      spmRep := if bit c.1 1 then m.spmRep.filter (fun r => !site (fld r 8 0)) else m.spmRep
      stkRep := if bit c.1 2 then m.stkRep.filter (fun r => !site (12 * fld r 4 0 + 5)) else m.stkRep
      phase := if bit c.1 3 then m.phase.filter (fun r => !site (fld r 8 0)) else m.phase })
    if bit c.1 4 then s1.bb srcRot 0x0805 1 0xFFFF 31 0 [] else s1) s
  s1.updHub (fun h => { h with rot := { h.rot with clears := [] } })

/-- Sites that no boot powers (R512, R518): DIE_BAD of the soft map with SM_CAUSE 0. -/
def State.neverPowered (s : State) (k : Nat) : Bool :=
  (s.mramTable (·.soft)).any (fun r => decide (fld r 3 0 = 1 ∧ fld r 12 4 = k ∧ fld r 35 33 = 0))

/-- The control network runs, at 125 MHz where `fast` (R306, R316). -/
def State.ringsUp (s : State) (fast : Bool) : State :=
  let s1 := (s.updHub (fun h => { h with ringOn := true })).updNode 264 (fun x => { x with ctl := { x.ctl with p0 := true, p1 := true, fast := fast } })
  let s2 := ((List.range 24).map (12 * ·) ++ [288, 289, 290, 291]).foldl (fun s k => s.ringPorts k) s1
  ((List.range 269).filter (fun n => decide (s.power n ≠ 0))).foldl (fun s n => s.updNode n (fun x => { x with ctl := { x.ctl with fast := fast } })) s2

/-- INSTAR_SKELETON (R32, R306, R462, R512, R515, R519): `dark` are the sectors whose bus does not come up, `silent` and
`silentPorts` the dies that do not answer, `hubFault` a fault of the hub's own. -/
def execInstarSkeleton (dark : List StackNo) (silent : List (Fin 288)) (silentPorts : List (Fin 4)) (hubFault : Bool) (s : State) : Result :=
  .next (if !s.booting 1 then s
    else if hubFault || !s.hub.score.fwUp then s.bootFatal 0x1F0 2
    else
      let ds := dark.map (·.val)
      let s1 := s.runClears.updBoot (fun b => { b with
        dark := ds, silent := silent.map (·.val), silentPorts := silentPorts.map (·.val)
        badSite := silent.foldl (fun t k => t.put 0 k.val 8) b.badSite })
      let s2 := (List.range 24).foldl (fun s k => if ds.contains k then s else s.hwr (scpmEfuse k) 0) s1
      let on := (List.range 288).filter (fun k => !ds.contains (k / 12) && !s2.neverPowered k && !s2.hub.fuseOpen.contains k)
      let s3 := s2.updHub (fun h => { h with
        region := ([289, 290, 291].filter (fun k => !h.fuseOpen.contains k)).foldl (fun t k => t.put 0 k 1) (on.foldl (fun t k => t.put 0 k 1) h.region)
        phases := ((s2.mramTable (·.phase)).map (fun r => (fld r 8 0, fld r 11 9, fld r 15 12))) })
      let keys := (List.range 293).filter (fun k => s3.phaseFate k (if k < 288 then k else if k = 292 then 0x1F0 else 0x1F1 + (k - 288)) = 2)
      (keys.foldl (fun s k => s.regionOff k) (s3.ringsUp false)).updBoot (fun b => { b with work := true }))

/-! ### Instar 2 (R30–R46, R465–R467) -/

/-- Queued fuse records are programmed (R589). -/
def State.burnFuses (s : State) : State :=
  (s.updHub (fun h => { h with fuses := { h.fuses with recs := h.fuses.recs ++ h.rot.fuses }, rot := { h.rot with fuses := [] } })).hwr polFusePend 0

/-- Every regulator's disabled phases shown in the DPM blocks (R515, R532). -/
def State.phasesShown (s : State) : State :=
  ((s.hub.phases.map (fun x => if x.1 < 288 then x.1 else if x.1 = 0x1F0 then 292 else 288 + (x.1 - 0x1F1))).eraseDups.filter (fun k =>
    decide (k < 292 ∧ s.hub.region.get 0 k ≠ 0))).foldl (fun s k => s.phaseAct k) s

/-- INSTAR_IDENTIFY (R33–R35, R39, R45, R46, R462, R465–R467, R476). -/
def execInstarIdentify (s : State) : Result :=
  .next (if !s.booting 2 then s
    else
      let s1 := s.burnFuses
      if s1.hub.boot.silentPorts.contains 0 || !s1.idOk (s1.idRecord 288) 0x1F1 then
        ((s1.updPort 0 (fun x => { x with linkUp := false, fast := false })).raiseReason 8).bootFatal 0x1F1 3
      else if !s1.hub.bbx.hub.readable && !s1.hub.bbx.east.readable then s1.bootFatal 0x1F0 4
      else
        let s2 := (s1.readMaps.fuseChecks).softChecks
        let s3 := (List.range 24).foldl (fun s k => if s.hub.boot.bad (12 * k + 5) then s.updStack k (fun x => { x with st := 2 }) else s) s2
        let s4 := ((s3.buildMap.ringsUp false).phasesShown).bootCounts
        if s4.someDie then s4.bootDone 0 else s4.bootFatal 0x1F0 5)

/-! ### Instars 3 and 4 -/

/-- INSTAR_CLOCKS (R306, R462, R511, R534, R549): `unlocked` are the dies whose PLL does not lock, `fault` a fault of a hub PLL or of
the time-base master. -/
def execInstarClocks (unlocked : List (Fin 288)) (fault : Bool) (s : State) : Result :=
  .next (if !s.booting 3 then s
    else if fault then s.bootFatal 0x1F0 6
    else
      let un := unlocked.map (·.val)
      let s1 := s.updBoot (fun b => (un.filter (fun k => !b.bad k)).foldl (fun b k => b.site k 6) b)
      let on := (List.range 288).filter (fun k => !s1.hub.boot.bad k && decide (s1.hub.region.get 0 k ≠ 0))
      let s2 := on.foldl (fun s k => s.setRegion k 3) s1
      let ns := (List.range 264).filter (fun n => s2.power n = 3)
      let s3 := ns.foldl (fun s n => ((s.wr n clkFpllLock 1).wr n tbSynced 1).setClocks n) s2
      let s4 := ([1, 2, 3].filter (fun q => !s3.hub.boot.badPort.contains q)).foldl (fun s q =>
        (((s.setRegion (288 + q) 3).updPort q (fun x => { x with fast := true })).wr (265 + q) clkFpllLock 1).wr (265 + q) tbSynced 1) s3
      ((s4.ringsUp true).bootCounts).bootDone 0)

/-- The stacks that have no edge left after training are retired (R271). -/
def State.retireEdgeless (s : State) : State :=
  (List.range 24).foldl (fun s k => if (List.range 4).all (fun e => decide (((s.node (240 + k)).fab.link.get {} e).st = 4))
    then s.updStack k (fun x => { x with st := 2 }) else s) s

/-- STACK_TRAIN_DONE (R269, R271, R272): the state machine of stack `k` has run its steps 1 to 4 in `ms` and retired the channels `bad`, or has
failed at a step with a code. The repair records are then replayed (step 5), a record without a resource fails with code 5, and the wipe
begins under a cleared key (step 6). A stack that does not train within 500 ms, or that has lost more than 4 channels, is retired. -/
def execStackTrainDone (k : StackNo) (ok : Bool) (step : BitVec 3) (code : Byte) (ms : W16) (bad : List (Fin 32)) (s : State) : Result :=
  let x := s.stack k.val
  .next (if x.pw ≠ .init ∨ 6 ≤ x.train.step.toNat then s
    else
      let s1 := match x.train.at_ with | some a => s.till (a + 1000000 * ms.toNat) | none => s
      let y := bad.foldl (fun y c => Stack.retireChan y c.val 1 2) x
      let recs := (s.mramTable (·.stkRep)).filter (fun r => decide (fld r 4 0 = k.val))
      let late := !ok || decide (500 < ms.toNat)
      let z := if late then y else { recs.foldl Stack.replay y with key := 0, xtsOn := false }
      let y1 := { z with
        st := if late ∨ 4 < z.retiredCount then 2 else if 0 < z.retiredCount then 1 else 0
        train := { x.train with
          step := if late then step else 6, fail := late
          code := if y.retiredCount < z.retiredCount then 5 else code } }
      (s1.setStack k.val y1).stackDegraded k.val)

/-- STACK_WIPE_COMPLETE (R259, R272): zero over every burst under the key that the node holds, and the node leaves INIT. After training that
is its step 6. -/
def execStackWipeComplete (k : StackNo) (s : State) : Result :=
  .next (s.updStack k.val (fun x =>
    if x.pw = .init ∧ 6 ≤ x.train.step.toNat ∧ !x.train.fail ∧ x.st ≠ 2 then
      { x with mem := [], dev := [], mkey := x.key, bkey := [], pw := .active, train := { x.train with step := 7, done := true } }
    else x))

/-- INSTAR_TRAIN (R28, R34, R237, R272, R281, R376, R418, R462, R470): `links` are the links as they trained, `tables` the tables of
the boot phase, `lanes` what lane repair could not restore: SM_KIND, place and SM_UNIT. -/
def execInstarTrain (links : List LinkTrain) (tables : List RouterTables) (lanes : List (Nat × Nat × Nat)) (s : State) : Result :=
  .next (if !s.booting 4 then s
    else
      let s1 := links.foldl (fun s l => s.setLink l) (s.updBoot (fun b => { b with lanes := b.lanes ++ lanes.filter (fun l => !b.lanes.contains l) })).checkLinks
      let dies := (List.range 240).filter (fun n => s1.power n = 3)
      let snodes := (List.range 24).filter (fun k => decide (s1.power (240 + k) = 3 ∧ (s1.stack k).st ≠ 2))
      let s2 := (snodes.foldl (fun s k => s.trainStack k) s1).retireEdgeless
      let s3 := dies.foldl (fun s n => ((List.range 16).foldl (fun s i => s.updTile (16 * n + i) (fun x => { x with
        spm := x.spm.powerUp 0 })) s).loadRemaps n) s2
      let s4 := s3.hub.boot.lanes.foldl (fun s l => if l.1 = 6 ∧ 0x1F1 ≤ l.2.1 ∧ l.2.1 < 0x1F5 then
        s.wr (265 + (l.2.1 - 0x1F1)) (qBadlane (l.2.2 / 4 % 4)) (s.rd (265 + (l.2.1 - 0x1F1)) (qBadlane (l.2.2 / 4 % 4)) ||| 2 ^ (l.2.2 % 4)) else s) s3
      let s5 := ([1, 2, 3].filter (fun q => s4.isEth q && !s4.hub.boot.badPort.contains q)).foldl (fun s q =>
        let s := (List.range 4).foldl (fun s k => s.applyMode q k) s
        ((List.range 8).filter (fun p => s.portOn q p)).foldl (fun s p => s.wr (265 + q) (ptState p) 1) s) s4
      let s6 := tables.foldl (fun s t => s.setTables t) (s5.countLinks.rerouteOf (List.range 269))
      let s7 := (dies ++ snodes.map (240 + ·) ++ [264, 265, 266, 267, 268]).foldl (fun (s : State) n => s.updFab n (fun f => { f with ready := true })) s6
      ((s7.openBoot dies snodes).bootCounts).updBoot (fun b => { b with work := true }))

/-! ### Instar 5 (R468–R473) -/

/-- BOOT_FW_ADDR and BOOT_FW_LEN are valid (R468). -/
def State.fwPlaceOk (s : State) : Bool :=
  decide (s.hrd bootFwAddrLo % 4096 = 0) && decide (s.hrd bootFwLen % 4096 = 0) && decide (0 < s.hrd bootFwLen) && decide (s.hrd bootFwLen ≤ 0x1000000)

/-- The bundle's header keeps R468; `n` is its length in chunks. -/
def bundleHeaderOk (z : Bundle) (n : Nat) : Bool :=
  let w := zbWord z
  let secs := [(w 8 2, w 10 2), (w 12 2, w 14 2), (w 16 2, w 18 2)]
  decide (z.bytes.length = 4096 * n) && decide (w 0 4 = 0x344E425A) && decide (w 4 2 = 1) && decide (w 6 2 = n)
    && decide (8 ≤ w 10 2 ∧ w 10 2 ≤ 1024) && decide (1 ≤ w 14 2 ∧ w 14 2 ≤ 2048) && decide (1 ≤ w 18 2 ∧ w 18 2 ≤ 8)
    && decide (w 20 4 = 0) && ((z.bytes.take 4096).drop 80).all (· == 0)
    && secs.all (fun x => decide (1 ≤ x.1 ∧ x.1 + x.2 ≤ n))
    && (match secs with
        | [a, b, c] => [(a, b), (a, c), (b, c)].all (fun p => decide (p.1.1 + p.1.2 ≤ p.2.1 ∨ p.2.1 + p.2.2 ≤ p.1.1))
        | _ => false)

/-- INSTAR_LOAD (R462, R468, R469, R577–R579): the bundle as PD-N reads it, or none where a read fails. -/
def execInstarLoad (b : Option Bundle) (s : State) : Result :=
  .next (if !s.booting 5 || !s.hub.boot.miss.isEmpty then s
    else if !s.fwPlaceOk then s.bootDone 8
    else if !(s.fn 0).busMaster then s.bootDone 7
    else match b with
      | none => s.bootDone 7
      | some z =>
        if !bundleHeaderOk z (s.hrd bootFwLen / 4096) then s.bootDone 8
        else if !zbDigestOk z || !zbSigFormed z || !z.sigOk || !s.policyOk (s.hrd polMinSvnBundle) (zbSvn z) (zbSigner z) (zbOpSig z) then s.bootDone 9
        else
          let s0 := s.measure 3 0 (bytesLE 48 (zbWord z 32 48) ++ bytesLE 8 (zbWord z 24 8) ++ bytesLE 2 (zbSvn z))
          let s1 := s0.updHub (fun h => { h with
            rot := { h.rot with bundleSvn := BitVec.ofNat 16 (zbSvn z), bundleBuild := BitVec.ofNat 64 (zbWord z 24 8)
                                bundleOk := (Fin.ofNat 4 (zbSigner z), zbOpSig z) }
            boot := { h.boot with bundle := some z, round := 0, p2p := [] } })
          let s2 := ((s1.updBoot (fun b => { b with
            miss := s1.receivers.flatMap (fun r => (List.range (s1.chunksOf r)).map (fun c => (r, c))) })).hwr bootRounds 0).hwr bootP2p 0
          if s2.hub.boot.miss = [] then s2.bootDone 0 else s2)

/-- The broadcast of instar 5 is under way. -/
def State.loading (s : State) : Bool := s.booting 5 && !s.hub.boot.miss.isEmpty

/-- BROADCAST_ROUND_END (R470–R472): of what the round sent, `lost` names what did not land, or landed poisoned; the rest has landed.
At most 8 repair rounds follow round 0. -/
def execBroadcastRoundEnd (lost : List (Receiver × Nat × Bool)) (s : State) : Result :=
  .next (if !s.loading || decide (8 < s.hub.boot.round) then s
    else
      let m := s.hub.boot.miss
      let fate := fun (r c : Nat) => (lost.find? (fun l => l.1.key == r && l.2.1 == c)).map (·.2.2)
      let s1 := m.foldl (fun s x => match fate x.1 x.2 with
        | none => s.landChunk x.1 x.2 false
        | some true => s.landChunk x.1 x.2 true
        | some false => s) s
      let left := m.filter (fun x => (fate x.1 x.2).isSome)
      let n := s.hub.boot.round
      let s2 := (s1.hwr bootRounds n).updBoot (fun b => { b with miss := left, round := n + 1 })
      if left = [] then s2.bootDone 0
      else if n = 8 then s2.hwr bootP2p ((left.map (·.1)).eraseDups.length) else s2)

/-- P2P_LOAD_ATTEMPT (R473): one attempt for a receiver that is still incomplete leaves it without the chunks `lost`. -/
def execP2pLoadAttempt (r : Receiver) (lost : List Nat) (s : State) : Result :=
  let k := r.key
  let mine := s.hub.boot.miss.filter (fun x => x.1 == k)
  .next (if !s.loading || decide (s.hub.boot.round ≤ 8) || mine.isEmpty then s
    else
      let s1 := (mine.filter (fun x => !lost.contains x.2)).foldl (fun s x => s.landChunk x.1 x.2 false) s
      let left := mine.filter (fun x => lost.contains x.2)
      let n := s.hub.boot.p2p.get 0 k + 1
      let s2 := s1.updBoot (fun b => { b with
        miss := if n < 3 then b.miss.filter (fun x => x.1 != k || lost.contains x.2) else b.miss.filter (fun x => x.1 != k), p2p := b.p2p.put 0 k n })
      let s3 := if 3 ≤ n ∧ left ≠ [] then (s2.receiverBad k 1).inc 264 bootLoadFail else s2
      if s3.hub.boot.miss = [] then s3.bootCounts.bootDone 0 else s3)

/-! ### Instar 6 (R474, R475) -/

/-- A receiver's result (R474–R476): a failing unit that is not bad already fails with cause known-answer test. -/
def State.katResult (s : State) (r : Nat) (ok : Bool) : State :=
  if !s.receivers.contains r ∨ s.hub.boot.kat.get 0 r ≠ 0 then s
  else
    let s1 := s.updBoot (fun b => { b with kat := b.kat.put 0 r (if ok then 1 else 2) })
    if ok then s1 else s1.receiverBad r 2

/-- The instar's work is done once every receiver has reported. -/
def State.katDone (s : State) : State :=
  if s.receivers.any (fun r => decide (s.hub.boot.kat.get 0 r = 0)) then s else s.bootCounts.bootDone 0

/-- INSTAR_PROVE (R474, R475, R530): the results of a wave of tests. -/
def execInstarProve (results : List (Receiver × Bool)) (s : State) : Result :=
  .next (if !s.booting 6 then s else (results.foldl (fun s x => s.katResult x.1.key x.2) s).katDone)

/-- KAT_REPORT_TIMEOUT (R474). -/
def execKatReportTimeout (r : Receiver) (s : State) : Result :=
  .next (if !s.booting 6 then s else (s.katResult r.key false).katDone)

/-! ### A spare woken in service (R487) -/

/-- The four edges of die-cell `n` trained with the lane-repair lists (R28, R34, R487); `lost` names modules that could not be restored. -/
def State.trainEdges (s : State) (n : Nat) (lost : List (Fin 4 × BitVec 8)) : State :=
  (List.range 4).foldl (fun s e =>
    let m := ((lost.find? (fun x => x.1.val == e)).map (·.2)).getD 0
    let c := s.endCheck n e
    s.updFab n (fun f => { f with link := f.link.put {} e (if c = 0 then ({} : Link).lose m else { st := c }) })) s

/-- SPARE_WAKE (R486–R491): the spare on P-site `site` is awake, its edges trained but for the modules `lost`, or its wake failed with a
cause and the lost L-die is handled without it. -/
def execSpareWake (site : Fin 288) (ok : Bool) (cause : Fin 8) (lost : List (Fin 4 × BitVec 8)) (s : State) : Result :=
  let p := s.partOfSector (site.val / 12)
  let m := s.hub.molt.get {} p
  .next (match s.waitsSpare (site.val / 12) with
    | none => s
    | some n =>
      if (s.hub.anat.site.get {} site.val).state ≠ 1 then s
      else if ok then
        (((((s.substitute n site.val p).trainEdges n lost).reroute.updHub (fun h => { h with molt := h.molt.put {} p { m with
          ldies := m.ldies.map (fun x => if x.1 = n then (x.1, some site.val) else x) } })).checkSpares).moltReady p)
      else (s.wakeFailed site.val n p cause.val).setRegion site.val 0)

end Sys2Proof.Machine
end

