-- ==== Sys2Proof/Machine/CellInsn.lean ====
section
/-! DEFINITION. The cell-window queue of a partition (R87, R89). -/

namespace Sys2Proof.Machine

/-- STATUS 9 of R262. -/
def stWinMismatch : BitVec 8 := 9

/-- The oldest command of partition `p`'s cell-window queue, if its opcode is `op`, hub firmware runs, and no CLOSE_NOW before
it is still closing. -/
def State.cellHead (s : State) (p op : Nat) : Option (BitVec 512) :=
  match s.hub.cellq.get [] p with
  | [] => none
  | c :: _ =>
    if !s.hub.score.fwUp || s.hub.cellRun.any (fun r => r.part == p && decide (fld r.cmd 7 0 = 2)) then none
    else
      let o := fld c 7 0
      if o = op ∨ (op = 4 ∧ (o = 0 ∨ 4 < o)) then some c else none

/-- The command leaves the queue. -/
def State.cellPop (s : State) (p : Nat) : State := s.updHub (fun h => { h with cellq := h.cellq.upd [] p (·.drop 1) })

/-- The 16-byte result of a cell command (R89, R262). -/
def State.cellResult (s : State) (p : Nat) (c : BitVec 512) (tag : W16) (st : Nat) (status : BitVec 8) : State :=
  (s.hubPut p (BitVec.ofNat 56 (fld c 87 32)) (BitVec.ofNat 16 (fld c 31 16)) (snResult tag st status 0 0) .plain).1

/-- The target cell of a command. -/
def cellOf (c : BitVec 512) : W16 := BitVec.ofNat 16 (fld c 287 272)

/-- The members of the target cell; none where the cell is outside the partition or not of level 1–4, or an index is beyond a
member's table (R89). A cell without members, an empty composite, ends BAD_PARAM too (DESIGN CHOICE, log 94: the spec does not say). -/
def State.cellMembers (s : State) (p : Nat) (c : BitVec 512) : Option (List Tgt) :=
  let v := cellOf c
  let l := s.members p v
  if 1 ≤ cellLevel v ∧ cellLevel v ≤ 4 ∧ s.sourceOk p 0 v ∧ l ≠ [] ∧ l.all (fun t => decide (fld c 103 96 < (memShape t).1)) then some l else none

/-- Every member holds window `i` with one generation. -/
def State.oneGen (s : State) (l : List Tgt) (i : Nat) : Bool :=
  match l with
  | [] => false
  | t :: r => r.all (fun u => ((s.unit u).window i).gen == ((s.unit t).window i).gen)

/-- The counters that a command names exist in every member (R88). -/
def cellCnt (l : List Tgt) (k : Nat) : Bool := l.all (fun t => decide (k < (memShape t).2.1))

/-- CELL_WOPEN (R87, R89). Parameters are checked before R87's test of the members, so a command that fails both ends BAD_PARAM (DESIGN
CHOICE, log 94: the spec gives no order). -/
def execCellWopen (p : PartNo) (s : State) : Result :=
  .next (match s.cellHead p.val 1 with
    | none => s
    | some c =>
      let s0 := s.cellPop p.val
      let i := fld c 103 96
      let r : WopenReq :=
        { idx := i, rights := BitVec.ofNat 3 (fld c 106 104), skind := BitVec.ofNat 2 (fld c 108 107),
          srcval := BitVec.ofNat 16 (fld c 124 109), cnt := BitVec.ofNat 8 (fld c 132 125), cmode := BitVec.ofNat 2 (fld c 134 133),
          base64 := fld c 166 135, limit64 := fld c 198 167, dest := .none }
      match s.cellMembers p.val c with
      | none => s0.cellResult p.val c 0 0 stBadParam
      | some l =>
        if !l.all (fun t => r.rangeOk (memShape t).2.2 (memShape t).2.1) || !s.sourceOk p.val r.skind r.srcval then s0.cellResult p.val c 0 0 stBadParam
        else if !s.oneGen l i || l.any (fun t => ((s.unit t).window i).st != .closed) then s0.cellResult p.val c 0 0 stWinMismatch
        else
          let s1 := s0.till (l.foldl (fun a t => max a ((s.unit t).openDue i)) 0)
          let s2 := l.foldl (fun s t => s.updUnit t (fun u => u.open_ r s1.now (s1.dieTb (tgtNode t)))) s1
          s2.cellResult p.val c (((s2.unit (l.headD .hub)).window i).tag i) 1 stOk)

/-- A close of a cell command begins on its members; `act` is done at each. TAG of the result is the first member's (DESIGN CHOICE, log
94: the spec names no member where they differ). -/
def State.cellClose (s : State) (p : Nat) (c : BitVec 512) (l : List Tgt) (act : Nat → WinUnit → WinUnit) : State :=
  let i := fld c 103 96
  let id := s.hub.cellNext
  let w := (s.unit (l.headD .hub)).window i
  let r : CellCmd := ⟨id, p, c, stOk, w.tag i⟩
  let s1 := s.updHub (fun h => { h with cellNext := id + 1, cellRun := h.cellRun ++ [r] })
  (l.foldl (fun s t => if ((s.unit t).window i).st = .closed then s else (s.updUnit t (act id)).settleUnit t) s1).hostPoll p

/-- A close that ends at once with a status, its done counter raised on every member; TAG and STATE of the result are the first member's
(DESIGN CHOICE, log 94). -/
def State.cellEndsNow (s : State) (p : Nat) (c : BitVec 512) (l : List Tgt) (status : BitVec 8) : State :=
  let i := fld c 103 96
  let s1 := (l.foldl (fun s t => (s.updUnit t (fun u => u.bump (fld c 205 200) 1)).settleUnit t) s).hostPoll p
  let w := (s1.unit (l.headD .hub)).window i
  s1.cellResult p c (w.tag i) w.st.code status

/-- CELL_CLOSE_NOW (R87, R89). -/
def execCellCloseNow (p : PartNo) (s : State) : Result :=
  .next (match s.cellHead p.val 2 with
    | none => s
    | some c =>
      let s0 := s.cellPop p.val
      let i := fld c 103 96
      match s.cellMembers p.val c with
      | none => s0.cellResult p.val c 0 0 stBadParam
      | some l =>
        if !cellCnt l (fld c 205 200) then s0.cellResult p.val c 0 0 stBadParam
        else if l.all (fun t => ((s.unit t).window i).st == .closed) then s0.cellEndsNow p.val c l stAlreadyClosed
        else s0.cellClose p.val c l (fun id u => u.closeNow i none (.cell id)))

/-- CELL_CLOSE_QUIESCE (R72, R87, R89). -/
def execCellCloseQuiesce (p : PartNo) (s : State) : Result :=
  .next (match s.cellHead p.val 3 with
    | none => s
    | some c =>
      let s0 := s.cellPop p.val
      let i := fld c 103 96
      match s.cellMembers p.val c with
      | none => s0.cellResult p.val c 0 0 stBadParam
      | some l =>
        let ws := l.map (fun t => (s.unit t).window i)
        if !cellCnt l (fld c 205 200) then s0.cellResult p.val c 0 0 stBadParam
        else if ws.all (fun w => w.st == .closed) then s0.cellEndsNow p.val c l stAlreadyClosed
        else if ws.any (fun w => w.st == .quiescing) then s0.cellEndsNow p.val c l stBusy
        else if fld c 271 256 = 0 ∨ ws.any (fun w => w.st == .open && decide (w.cnt = 0xFF)) then s0.cellEndsNow p.val c l stBadParam
        else s0.cellClose p.val c l (fun id u => u.quiesce i (fld c 255 208) (s.now + 1000 * fld c 271 256) none (.cell id)))

/-- CELL_CLOSE_ENDED (R87, R89): every member's close of the partition's oldest cell close that can end has ended; the done
counter rises on every member, and the result is sent. -/
def execCellCloseEnded (p : PartNo) (s : State) : Result :=
  let done := fun (r : CellCmd) => r.part == p.val
    && (s.members p.val (cellOf r.cmd)).all (fun t => ((s.unit t).window (fld r.cmd 103 96)).pend.all (fun q => q.dest != .cell r.id))
  .next (match s.hub.cellRun.find? done with
    | none => s
    | some r =>
      let s0 := s.updHub (fun h => { h with cellRun := h.cellRun.filter (fun c => c.id != r.id) })
      let l := s.members p.val (cellOf r.cmd)
      let s1 := (l.foldl (fun s t => (s.updUnit t (fun u => u.bump (fld r.cmd 205 200) 1)).settleUnit t) s0).hostPoll p.val
      s1.cellResult p.val r.cmd r.tag 0 r.status)

/-- CELL_WQUERY (R89): the one tag that every member holds; STATE is the first member's (DESIGN CHOICE, log 94). A reserved opcode ends here with BAD_PARAM. -/
def execCellWquery (p : PartNo) (s : State) : Result :=
  .next (match s.cellHead p.val 4 with
    | none => s
    | some c =>
      let s0 := s.cellPop p.val
      let i := fld c 103 96
      match (if fld c 7 0 = 4 then s.cellMembers p.val c else none) with
      | none => s0.cellResult p.val c 0 0 stBadParam
      | some l =>
        let w := (s.unit (l.headD .hub)).window i
        if s.oneGen l i then s0.cellResult p.val c (w.tag i) w.st.code stOk else s0.cellResult p.val c 0 0 stWinMismatch)

end Sys2Proof.Machine
end

