-- ==== Sys2Proof/Machine/MbxInsn.lean ====
section
/-! DEFINITION. The mailboxes' events (R405–R416, R609). -/

namespace Sys2Proof.Machine

/-- MBA_IN_GO (R382, R407, R410); `tee` is the request's T bit. -/
def execMbaInGo (f : Fin 50) (tee : Bool) (s : State) : Result := .next (if s.unserved f.val tee then s else s.mbaGo f.val)

/-- MAILBOX_TAKE (R406, R410, R415): hub firmware takes an inbound message; the host takes an outbound one by its ACK. -/
def execMailboxTake (m : MboxRef) (s : State) : Result :=
  .next (if !s.hub.score.fwUp then s
    else match m with
    | .inA f => s.mbaTake f.val
    | .outA _ => s
    | .b k m => s.mbbTake k.val m.val)

/-- MAILBOX_DONE (R410, R415, R609): hub firmware acts on the message it took, by its code, and finishes it. -/
def execMailboxDone (m : MboxRef) (s : State) : Result :=
  .next (if !s.hub.score.fwUp then s
    else match m with
    | .inA f =>
      if (s.mbaCode f.val).isNone then s
      else
        let r := s.mbaAct f.val
        r.1.mbaDone f.val r.2
    | .outA _ => s
    | .b k m => s.mbbFinish k.val m.val)

/-- MBA_OUT_GO (R407, R408, R411, R609): a message of hub firmware for the host. -/
def execMbaOutGo (f : Fin 50) (msg : List W32) (s : State) : Result :=
  .next (if s.hub.score.fwUp then s.mbaOut f.val (msg.take 16) else s)

/-- MBA_OUT_ACK (R382, R411). -/
def execMbaOutAck (f : Fin 50) (tee : Bool) (s : State) : Result := .next (if s.unserved f.val tee then s else s.outAck f.val)

/-- MBX_TIMEOUT_EXPIRY (R406, R411, R415): the message is withdrawn. -/
def execMbxTimeoutExpiry (m : MboxRef) (s : State) : Result :=
  .next (match m with
    | .inA f => s.mbaExpire f.val
    | .outA f => s.outExpire f.val
    | .b k m =>
      if s.hrd (mbbPend k.val m.val) = 0 then s
      else (s.till ((s.hub.mbb.get {} (4 * k.val + m.val)).goAt + s.mbbTmo k.val m.val)).mbbEnd k.val m.val 1 0)

/-- MBB_LOCK_READ (R413): cell `c` reads the lock of mailbox `m` of sector `k` by its GET number `q`. -/
def execMbbLockRead (k : StackNo) (m : Fin 4) (c q : W16) (s : State) : Result :=
  let r := s.mbbLock k.val m.val c
  .next (r.1.emit (.answer c q ⟨rcOk, bytesLE 4 r.2.toNat, false, 0⟩))

/-- MBB_LOCK_RELEASE (R414): cell `c` writes the lock by its PUT number `q`. -/
def execMbbLockRelease (k : StackNo) (m : Fin 4) (c q : W16) (s : State) : Result :=
  .next ((s.mbbWord k.val (64 * m.val) 0 c).emit (.answer c q ⟨rcOk, [], false, 0⟩))

/-- MBB_GO (R414, R415): cell `c` writes GO by its PUT number `q`. -/
def execMbbGo (k : StackNo) (m : Fin 4) (c q : W16) (s : State) : Result :=
  .next (match s.mbbRefuse k.val m.val c with
    | some code => s.emit (.answer c q ⟨code, [], false, 0⟩)
    | none => (s.mbbGo k.val m.val).emit (.answer c q ⟨rcOk, [], false, 0⟩))

/-- MBB_LOCK_EXPIRY (R414): the owner has neither sent nor released within 1 ms of the grant. -/
def execMbbLockExpiry (k : StackNo) (m : Fin 4) (s : State) : Result :=
  let x := s.hub.mbb.get {} (4 * k.val + m.val)
  .next (if s.hrd (mbbHeld k.val m.val) = 0 ∨ s.hrd (mbbPend k.val m.val) = 1 ∨ s.hrd (mbbTaken k.val m.val) = 1 ∨ x.sending then s
    else ((s.till (x.grantAt + 1000000)).mbbFree k.val m.val).bb srcFw 0x0702 1 0xFFFF (s.partOfSector k.val) 0 [])

/-- The result of a class B mailbox has its answer (R415): the lock is free, whatever the answer. -/
def State.mbbAnswered (s : State) (i : Nat) : State :=
  if (s.hub.mbb.get {} i).sending then s.mbbFree (i / 4) (i % 4) else s

/-- MBB_RESULT_ANSWERED (R415). -/
def execMbbResultAnswered (k : StackNo) (m : Fin 4) (s : State) : Result :=
  let i := 4 * k.val + m.val
  .next ((s.updNode hubNode (fun n => { n with iss := n.iss.giveUp (fun g => g.why == .mbb i) })).mbbAnswered i)

/-- A class A message of one code is finished (R609). -/
def State.mbaFinish (s : State) (f code : Nat) : State :=
  if s.mbaCode f = some code then
    (let r := s.mbaAct f
     r.1.mbaDone f r.2)
  else s

/-- MBA_PING (R609). -/
def execMbaPing (f : Fin 50) (s : State) : Result := .next (s.mbaFinish f.val 1)
/-- MBA_BB_READ (R609, R614). -/
def execMbaBbRead (f : Fin 50) (s : State) : Result := .next (s.mbaFinish f.val 2)
/-- MBA_HOST_MARK (R609). -/
def execMbaHostMark (f : Fin 50) (s : State) : Result := .next (s.mbaFinish f.val 3)
/-- MBB_PING (R609). -/
def execMbbPing (k : StackNo) (m : Fin 4) (s : State) : Result :=
  .next (if s.mbbCode k.val m.val = some 1 then s.mbbFinish k.val m.val else s)
/-- MBB_HALT_SELF (R337, R609). -/
def execMbbHaltSelf (k : StackNo) (m : Fin 4) (s : State) : Result :=
  .next (if s.mbbCode k.val m.val = some 2 then s.mbbFinish k.val m.val else s)

end Sys2Proof.Machine
end

