-- ==== Sys2Proof/Machine/IssInsn.lean ====
section
/-! DEFINITION. Answers to the segments that tiles and die-cells issue, and their retransmission (R69, R78, R82, R264, R302, R393,
R415, R430–R433, R443). -/

namespace Sys2Proof.Machine

/-- An answer to data of the strided engine of stack `k` (R264): bytes applied are counted, the first failure is kept, and nothing more is
sent after it (R266). -/
def State.sxeAnswer (s : State) (k len : Nat) (a : Answer) : State :=
  s.updStack k (fun x => { x with sxe := x.sxe.map (fun j => { j with
    open_ := j.open_ - 1
    bytes := if a.code = rcOk then j.bytes + len else j.bytes
    status := if a.code ≠ rcOk ∧ j.status = 0 then stRemoteFail else j.status
    rest := if a.code = rcOk then j.rest else []
    rcode := if a.code ≠ rcOk ∧ j.status = 0 then a.code else j.rcode }) })

/-- What an answer to a segment of die-cell `n` does, by why the segment went out. -/
def State.issDone (s : State) (n : Nat) (g : IssSeg) (a : Answer) : State :=
  let q := n - 265
  match g.why with
  | .snResult => if a.code = rcOk then s else s.updStack (n - 240) (fun x => { x with resDrop := satInc x.resDrop })
  | .sxeData => s.sxeAnswer (n - 240) (segSize g.seg) a
  | .plain => s
  | .host f qp tag pos => s.moveAnswer f qp tag pos (segSize g.seg) a
  | .apt f i pos => s.aptAnswer f i pos a
  | .mbb i => s.mbbAnswered i
  | .key _ _ i pos => (s.keyAnswer q i pos a).portPoll q
  | .wr i pos => (s.wrAnswer q i pos g.seg a).portPoll q
  | .wrDone c => if a.code = rcOk then s else s.sat n (cnCmpDrop c)
  | .clx i pos => (s.clxAnswer q i pos g.seg a).portPoll q
  | .slot e i => s.slotAnswer q e i a

/-- The outstanding segment of die-cell `n` that a number to a node names. -/
def State.issFind (s : State) (n nd : Nat) (q : W16) : Option IssSeg := (s.node n).iss.out.find? (fun g => g.node == nd && g.seg.seq == q)

/-- The SXE of a stack node goes on after an answer (R301). -/
def State.sxeWake (s : State) (n : Nat) : State := if 240 ≤ n ∧ n < 264 then s.sxeGo (n - 240) else s

/-- An answer arrives: the first counts, a later one is discarded, and sends that R301 held go on (R78, R301, R302). -/
def State.issAnswer (s : State) (n nd : Nat) (q : W16) (a : Answer) : State :=
  match s.issFind n nd q with
  | none => s
  | some g =>
    (((s.updNode n (fun x => { x with iss := { x.iss with out := x.iss.out.filter (fun h => !(h.node == nd && h.seg.seq == q)) } })).issDone n g a).issPump n).sxeWake n

/-- The retransmission time of a die-cell in ns: ETH_RTO of a port die, 0 reading as 1, and TDMA_RTO's default of the others
(R82, R430, assumption log 48). -/
def State.issRto (s : State) (n : Nat) : Nat := if 265 ≤ n then 1000 * max 1 (s.rd n ethRtoUs) else 20000

/-- The retransmission time of a segment expires (R82, R295, R430): it goes out again with a fresh issue time, or is answered
TARGET_DOWN by the first router, or TIMEOUT after 7 retransmissions. -/
def State.issRetransmit (s : State) (n nd : Nat) (q : W16) : State :=
  match s.issFind n nd q with
  | none => s
  | some g =>
    let s := s.till (g.seg.issue + s.issRto n)
    if 7 ≤ g.retries then s.issAnswer n nd q ⟨rcTimeout, [], false, 0⟩
    else if s.routeDown n nd then s.issAnswer n nd q ⟨rcTargetDown, [], false, 0⟩
    else
      let g' := { g with seg := { g.seg with issue := s.now }, retries := g.retries + 1 }
      (s.updNode n (fun x => { x with iss := { x.iss with out := x.iss.out.map (fun h => if h.node == nd && h.seg.seq == q then g' else h) } })).emit
        (.request g.tgt g'.seg)

/-- TDMA_RESPONSE (R69, R430): an answer from node `n` to the segment of number `q` of a tile or a die-cell arrives. -/
def execTdmaResponse (t : CtlTgt) (n : NodeNo) (q : W16) (a : Answer) (s : State) : Result :=
  .next (match t with
    | .tile t => (s.tdmaAnswer t.val n.val q a).hostPoll (s.partOfSector (t.val / 160))
    | .die d => s.issAnswer d.val n.val q a)

/-- TDMA_RETRANSMIT (R82). -/
def execTdmaRetransmit (t : CtlTgt) (n : NodeNo) (q : W16) (s : State) : Result :=
  .next (match t with
    | .tile t => s.tdmaRetransmit t.val n.val q
    | .die d => s.issRetransmit d.val n.val q)

/-- PD_ONPANEL_RETRANSMIT (R430). -/
def execPdOnpanelRetransmit (d : Fin 4) (n : NodeNo) (q : W16) (s : State) : Result := .next (s.issRetransmit (265 + d.val) n.val q)

end Sys2Proof.Machine
end

