-- ==== Sys2Proof/Machine/ReconInsn.lean ====
section
/-! DEFINITION. Instar 7 and the ends of instars (R39, R460, R461, R464, R476–R480, R500, R577, R578). -/

namespace Sys2Proof.Machine

/-! ### Settling (R476, R477) -/

/-- A scratchpad bank of physical tile `t` of site `k` is retired (R237, R239); one marked RETIRE_PENDING in this boot is not yet. A spare
site's tables are those of the records. -/
def State.bankGone (s : State) (k t : Nat) : Bool :=
  match s.tileAt k t, s.nodeAt k with
  | some i, _ => decide ((s.tile i).spm.retired ≠ 0)
  | none, some n => t == 16 && decide ((s.node n).spareSpm.retired ≠ 0)
  | none, none => decide ((s.remapOf k t {}).retired ≠ 0)

/-- SM_CAUSE of a finding: that of this boot, or service. -/
def causeOf (why : Nat) : Nat := why - 3

/-- One compute die settled by its bad mesh tiles (R477): the findings, with the soft-map records that it needs (R476). -/
def State.settleDie (s : State) (a : Boot × List (BitVec 64)) (k : Nat) : Boot × List (BitVec 64) :=
  let b0 := a.1
  let boot := s.hub.bbx.bootCount.toNat
  if b0.dark.contains (k / 12) then a
  else if b0.badSite.get 0 k ≠ 0 then
    (if 3 ≤ b0.badSite.get 0 k then (b0, a.2 ++ [softRec 1 k 0xFFF 0xFF (causeOf (b0.badSite.get 0 k)) boot]) else a)
  else
    let b := (List.range 17).foldl (fun b t => if s.bankGone k t then b.tile k t 7 else b) b0
    let why := fun t => b.badTile.get 0 (17 * k + t)
    let bad := (List.range 16).filter (fun t => decide (why t ≠ 0))
    let newTiles := ((List.range 17).filter (fun t => decide (3 ≤ why t))).map (fun t => softRec 2 k t 0xFF (causeOf (why t)) boot)
    let sp := b.spareTile.get 0 k
    match bad with
    | [] => (b, a.2 ++ newTiles)
    | [t] =>
      if why 16 = 0 ∧ sp = t + 1 then (b, a.2 ++ newTiles)
      else if why 16 = 0 ∧ sp = 0 then
        ({ b with spareTile := b.spareTile.put 0 k (t + 1) }, a.2 ++ newTiles ++ [softRec 3 k t 0xFF (causeOf (why t)) boot])
      else (b.site k (3 + causeOf (why t)), a.2 ++ [softRec 1 k t 0xFF (causeOf (why t)) boot])
    | t :: _ => (b.site k (3 + causeOf (why t)), a.2 ++ [softRec 1 k t 0xFF (causeOf (why t)) boot])

/-- Every unit settled; the records of R476 and R477 in the order found: compute dies, stack nodes, lanes. -/
def State.settle (s : State) : State × List (BitVec 64) :=
  let r := ((List.range 288).filter (fun k => k % 12 != 5)).foldl s.settleDie (s.hub.boot, [])
  let boot := s.hub.bbx.bootCount.toNat
  let r1 := (List.range 24).foldl (fun (a : Boot × List (BitVec 64)) k =>
    let b := if (s.stack k).st = 2 ∧ !a.1.dark.contains k then a.1.site (12 * k + 5) 6 else a.1
    if 3 ≤ b.badSite.get 0 (12 * k + 5) then (b, a.2 ++ [softRec 1 (12 * k + 5) 0xFFF 0xFF (causeOf (b.badSite.get 0 (12 * k + 5))) boot]) else (b, a.2)) r
  let old := (s.mramTable (·.soft)).map (fun r => (fld r 3 0, fld r 12 4, fld r 24 13))
  let fused := s.hub.fuses.recs.map (fun r => (fld r 23 16 + 2, fld r 15 0, fld r 35 24))
  let new := r1.1.lanes.eraseDups.filter (fun l => !old.contains l && !fused.contains l)
  (s.updBoot (fun _ => r1.1), r1.2 ++ new.map (fun l => softRec l.1 l.2.1 l.2.2 0xFF 3 boot))

/-- Pass 3 of the site map (R39, R478 step 1): an L-die on a bad site moves to its sector's spare, or is invalid. The SUBST
records. -/
def State.passThree (s : State) : State × List (BitVec 64) :=
  let b := s.hub.boot
  let boot := s.hub.bbx.bootCount.toNat
  let a0 := s.hub.anat
  let site0 := (List.range 288).foldl (fun (t : Table SiteInfo) k => if b.bad k then t.upd {} k (fun i => { i with
    state := b.siteState k i.role.toNat, ldie := 0xFF }) else t) a0.site
  let r := (List.range 240).foldl (fun (x : Table Smap × Table SiteInfo × List (BitVec 64)) n =>
    let m := x.1.get {} n
    if m.valid && !b.bad m.psite then x
    else
      match ((List.range 12).map (fun i => 12 * (n / 10) + i)).find? (fun q => (x.2.1.get {} q).state == 1 && decide (s.hub.region.get 0 q = 3)) with
      | some q => (x.1.upd {} n (fun m => { m with psite := q, origin := 2, valid := true }),
          x.2.1.upd {} q (fun i => { i with state := 0, ldie := BitVec.ofNat 8 n }), x.2.2 ++ [softRec 4 q 0xFFF n 0 boot])
      | none => (x.1.upd {} n (fun m => { m with valid := false }), x.2.1, x.2.2)) (a0.smap, site0, [])
  let stk := (List.range 24).foldl (fun (t : Table Stkmap) k => t.upd {} k (fun m => { m with
    state := if b.dark.contains k then 3 else (s.stack k).st })) a0.stk
  (s.editAnat (fun a => { a with smap := r.1, site := r.2.1, stk := stk }), r.2.2)

/-- Dies left in SPARE_READY keep VLINK alone (R478 step 2). -/
def State.parkSpares (s : State) : State :=
  ((List.range 288).filter (fun k => (s.hub.anat.site.get {} k).state == 1)).foldl (fun s k => s.setRegion k 1) s

/-! ### Reasons (R500) -/

/-- A reason recorded in the black box since the last BB_CLEAR (R500). -/
def State.bbReason (s : State) (n : Nat) : Bool :=
  let m := if s.hub.bbx.hub.readable then s.hub.bbx.hub else s.hub.bbx.east
  let l := m.perm ++ m.wrap
  let cleared := l.any (fun r => r.code == 0x0805)
  l.any (fun r => decide (r.code = 0x0203) && decide ((r.data.getD 3 0).toNat = n) && (!cleared || decide (s.hrd bbClearSeq < r.seq.toNat)))
    || s.hub.bbx.staged.any (fun r => decide (r.code = 0x0203) && decide ((r.data.getD 3 0).toNat = n))

/-- The condition of a reason holds (R499, R500). -/
def State.reasonHolds (s : State) (n : Nat) : Bool :=
  let b := s.hub.boot
  match n with
  | 1 => (List.range 240).any (fun d => !b.dark.contains (d / 10) && !(s.hub.anat.smap.get {} d).valid)
  | 2 => decide (s.hrd fltSpareLow ≠ 0 ∧ s.sparesLeft ≤ s.hrd fltSpareLow)
  | 3 => !b.dark.isEmpty
  | 4 => (List.range 24).any (fun k => (s.hub.anat.stk.get {} k).state == 2)
  | 5 => (List.range 24).any (fun k => (s.hub.anat.stk.get {} k).state == 1)
  | 6 => !b.badPort.isEmpty
  | 7 => b.lanes.any (fun l => l.1 == 6) || (decide ((s.port 0).linkUp) && decide ((s.port 0).width < 16))
      || (decide ((s.port 2).linkUp) && decide ((s.port 2).width < 16))
  | 8 => b.badPort.contains 0
  | 9 => decide (8192 ≤ s.hub.bbx.hub.soft.length) || decide (8192 ≤ s.hub.bbx.east.soft.length)
  | 10 => !s.hub.bbx.hub.readable || !s.hub.bbx.east.readable
  | 11 => (List.range 269).any (fun d => decide (s.rd d dpmCap70 = 1))
  | 12 => s.bbReason 12
  | 13 => s.bbReason 13
  | _ => false

/-- The reasons recomputed (R500): those that hold no longer are cleared, those that newly hold are raised. -/
def State.recomputeReasons (s : State) : State :=
  let hold := (List.range 14).filter (fun n => s.reasonHolds n)
  let keep := ((List.range 14).filter (fun n => (s.hrd fltRrReasons).testBit n && hold.contains n))
  let s1 := ((s.hwr fltRrReasons (keep.foldl (fun a n => a + 2 ^ n) 0)).hwr fltRrActive (b2n (!keep.isEmpty))).hwr fltRrPrompt
    (b2n (keep.any (fun n => promptReasons.contains n)))
  hold.foldl (fun s n => s.raiseReason n) s1

/-! ### Eclosion (R478) -/

/-- The measurements meet the firmware update policy (R578). -/
def State.measureOk (s : State) : Bool :=
  let b := s.hub.bbx
  let slot := if s.hrd hubFwSlot = 1 then b.slotB else b.slotA
  s.policyOk (s.hrd polMinSvnHub) (s.hrd hubFwSvn) slot.signer.toNat slot.opSig
    && s.policyOk (s.hrd polMinSvnBundle) s.hub.rot.bundleSvn.toNat s.hub.rot.bundleOk.1.val s.hub.rot.bundleOk.2

/-- A key derived from the device unique secret (R576). -/
def rotKey (info : List Byte) (n : Nat) : List Byte := Config.hkdf384 Config.dus [] info n

/-- The characters of a string as bytes. -/
def ascii (x : String) : List Byte := x.toList.map (fun c => BitVec.ofNat 8 c.toNat)

/-- The seeds of DevID-EC and DevID-PQ, for the life of the panel (R576). -/
def devIdEc : List Byte := rotKey (ascii "AZ4-DEVID-EC") 48
def devIdPq : List Byte := rotKey (ascii "AZ4-DEVID-PQ") 32

/-- SK under the sealing epoch and the debug level in force (R576). -/
def State.sealKey (s : State) : List Byte := rotKey (ascii "AZ4-SEAL" ++ bytesLE 4 (s.hrd polSealEpoch) ++ bytesLE 1 (s.hrd polDebug)) 32

/-- What measurement 5 is taken over (R577): POL_COUNTER, POL_LAYOUT_HASH, the digest of the firmware policy, POL_DEBUG. -/
def State.policyWords (s : State) : List Byte :=
  bytesLE 8 s.hub.rot.counter.toNat ++ (List.range 12).flatMap (fun i => bytesLE 4 (s.hrd (polLayoutHash i)))
    ++ bytesLE 48 (Config.sha384 (bytesLE 2 (s.hrd polMinSvnHub) ++ bytesLE 2 (s.hrd polMinSvnBundle) ++ bytesLE 1 (s.hrd polFwSigners)
      ++ bytesLE 1 (s.hrd polReqOpsig))).toNat ++ bytesLE 1 (s.hrd polDebug)

/-- Measurements 4 and 5 as instar 7 records them: the soft map as used, and the policy (R478 step 4, R577). -/
def State.measureBoot (s : State) : State :=
  (s.measure 4 0 ((s.mramTable (·.soft)).flatMap (fun r => bytesLE 8 r.toNat))).measure 5 0 s.policyWords

/-- The sealed store opened, or found broken and emptied (R578); under FULL debug it stays closed. -/
def State.unseal (s : State) (storeOk : Bool) : State :=
  if s.hrd polDebug = 2 then s
  else
    let s1 := (s.updHub (fun h => { h with rot := { h.rot with sk := s.sealKey } })).hwr polSealed 0
    if storeOk then s1
    else (s1.updHub (fun h => { h with rot := { h.rot with caks := [] } })).bb srcRot 0x0503 1 0x1F0 31 0 []

/-- The partitions of the layout formed, the confidential ones not under FULL debug (R478 step 5, R594). -/
def State.formLayout (s : State) : State :=
  (s.hub.rot.layout.filter (fun e => decide (s.hrd polDebug ≠ 2) || !bit e.flags 0)).foldl (fun s e => s.formPart e) s

/-- What instar 7 appends to the soft-repair store, and its log records (R237). -/
def State.settleRecords (s : State) (recs skipped : List (BitVec 64)) : State :=
  (skipped.filter (fun x => decide (fld x 3 0 ≠ 3))).foldl
    (fun s x => s.bb srcFw 0x0100 1 (fld x 12 4) 31 (fld x 35 33) (bytesLE 8 x.toNat)) (recs.foldl (fun s x => s.softAppend x) s.parkSpares)

/-- The end of instar 7: remaps against those at its start, routes, partitions, imago (R454, R460). -/
def State.toImago (s old : State) (storeOk : Bool) : State :=
  (((((((List.range 240).foldl (fun x n => x.settleRemaps old n) (s.unseal storeOk)).rerouteOf (List.range 269)).clearBoot.formLayout.bootCounts.hwr
    bootChrysalis 0).hwr bootImago 1).recomputeReasons).bootDone 0)

/-- INSTAR_RECONCILE (R39, R476–R479, R500, R577, R578): `storeOk` tells that the sealed store's blob authenticates. -/
def execInstarReconcile (storeOk : Bool) (s : State) : Result :=
  .next (if !s.booting 7 then s
    else
      let r := s.settle
      let p := r.1.passThree
      if !p.1.someDie then p.1.bootFatal 0x1F0 5
      else
        let s3 := (p.1.settleRecords (r.2 ++ p.2) r.2).measureBoot
        if !s3.measureOk then s3.bootFatal 0x1F0 10 else s3.toImago s storeOk)

/-! ### Ends (R460–R464) -/

/-- Every stack that trains has reported, and is wiped or retired (R272). -/
def State.stacksReady (s : State) : Bool :=
  (List.range 24).all (fun k => let x := s.stack k
    x.pw != .init || x.train.fail || decide (x.st = 2))

/-- INSTAR_COMPLETE (R460, R464, R481): the instar's work is done; it ends DONE, or FAILED with a retryable code. The third failure
enters cocoon. -/
def execInstarComplete (s : State) : Result :=
  let b := s.hub.boot
  .next (if s.hrd bootPhase ≠ 1 ∨ !b.work ∨ (b.target = 4 ∧ !s.stacksReady) then s
    else
      let s1 := s.hwr bootStepMs s.stepMs
      if b.code = 0 then
        ((((s1.hwr (bootLastMs b.target) s.stepMs).hwr bootInstar b.target).hwr bootPhase 0).hwr bootTries 0)
      else
        let s2 := s1.bb srcFw 0x0101 1 0x1F0 31 b.code (bytesLE 1 b.target)
        if 2 ≤ s.hrd bootTries then s2.bootFatal 0x1F0 11
        else (((s2.hwr bootPhase 2).hwr bootCode b.code).hwr bootTries (s.hrd bootTries + 1)))

/-- INSTAR_TIMEOUT (R462). -/
def execInstarTimeout (s : State) : Result :=
  .next (if s.hrd bootPhase ≠ 1 then s else (s.till (s.hub.boot.startAt + instarBound s.hub.boot.target)).bootFatal 0x1F0 1)

/-- A cocoon request of the host or out of band (R461, R498). -/
def State.cocoonAsked (s : State) : State :=
  if !s.hub.feed.mainGood || decide (s.hrd bootPhase = 3) then s else s.cocoon 12 (decide (s.hrd bootImago = 1)) false

/-- BOOT_COCOON (R461, R498). -/
def execBootCocoon (s : State) : Result := .next s.cocoonAsked

end Sys2Proof.Machine
end

