-- ==== Sys2Proof/Machine/TimeInsn.lean ====
section
/-! DEFINITION. References, tile clocks, eyespots, the time base and the real-time clock (chapter 19). -/

namespace Sys2Proof.Machine

/-- A die that fails: declared lost with `cause` in service; bad at this boot with soft-map cause `sm` before it (R466, R482, R485). -/
def State.dieFails (s : State) (n cause sm : Nat) : State :=
  if s.hrd bootImago = 1 then s.declareLost n cause
  else if 265 ≤ n then s.updBoot (fun b => { b with badPort := b.badPort ++ [n - 265] })
  else match s.siteOf n with
    | some k => s.updBoot (fun b => b.site k (3 + sm))
    | none => s

/-! ### References (R533–R536) -/

/-- REF10_LOSS (R535, R555): the external 10 MHz is gone; where it is selected, the synthesiser holds and glides. -/
def execRef10Loss (s : State) : Result :=
  let s1 := s.hwr tbmRef10Ok 0
  .next (if !s.hub.feed.mainGood then s
    else if s.hrd tbmFref = 1 ∧ s.hrd tbmHoldover = 0 then (s1.hwr tbmHoldover 1).bb srcFw 0x0300 1 0x1F0 31 1 []
    else s1)

/-- TBM_FREF_WRITE (R535, R555): hub firmware selects the on-panel oscillator, or the external 10 MHz, which is `present` or not. -/
def execTbmFrefWrite (ext present : Bool) (s : State) : Result :=
  let hold := b2n (ext && !present)
  .next (if !s.hub.score.fwUp then s
    else
      let s1 := ((s.hwr tbmFref (b2n ext)).hwr tbmRef10Ok (b2n present)).hwr tbmHoldover hold
      if s.hrd tbmFref = b2n ext ∧ s.hrd tbmHoldover = hold then s1 else s1.bb srcFw 0x0300 1 0x1F0 31 hold [])

/-- FABRIC_PLL_LOCK_LOSS (R536): a die is lost with cause probe; the hub's own PLL is a hub fault. -/
def execFabricPllLockLoss (n : NodeNo) (s : State) : Result :=
  .next (if n.val = 264 then
      (if !s.hub.feed.mainGood || decide (s.hrd bootPhase = 3) then s
       else (s.hwr tbmLocked 0).cocoon 2 (decide (s.hrd bootImago = 1)) true)
    else if s.power n.val ≠ 3 then s
    else (s.wr n.val clkFpllLock 0).dieFails n.val 2 3)

/-! ### Droops and eyespots (R538–R543) -/

/-- Stretched periods counted (R539, R554). -/
def State.stretch (s : State) (n t periods : Nat) (going : Bool) : State :=
  (s.wr n (aclkStretchCnt t) (min 0xFFFFFFFF (s.rd n (aclkStretchCnt t) + periods))).wr n (aclkStretching t) (b2n going)

/-- VLOGIC_DROOP (R539): a droop at tile `t` has stretched so many periods, and is over or not. -/
def execVlogicDroop (d : DieNo) (t : Fin 17) (periods : W16) (ended : Bool) (s : State) : Result :=
  .next (if s.power d.val ≠ 3 then s else s.stretch d.val t.val periods.toNat (!ended))

/-- The lowest code of every eyespot of die `n`. -/
def State.eyeLowest (s : State) (n : Nat) : Nat :=
  (List.range 17).foldl (fun m t => min m (s.rd n (eyeMargin t))) (s.rd n eyeFabMargin)

/-- The trim follows the codes (R542): 5 mV up every 10 µs while one warns, 5 mV down after 10 ms in which all are 4 above the
warning threshold. -/
def State.trimStep (s : State) (n : Nat) (warn : Bool) : State :=
  let d := s.dpm n
  if warn then
    (if s.now < d.trimAt + 10000 ∨ 850 ≤ s.rd n dpmVlogicMv then s.updDpm n (fun d => { d with calm := none })
     else s.updDpm n (fun d => { d with trim := d.trim + 5, trimAt := s.now, calm := none }))
  else if s.eyeLowest n < s.rd n eyeWarnTh + 4 then s.updDpm n (fun d => { d with calm := none })
  else match d.calm with
    | none => s.updDpm n (fun d => { d with calm := some s.now })
    | some t => if s.now < t + 10000000 then s else s.updDpm n (fun d => { d with trim := d.trim - 5, calm := some s.now })

/-- A warning at the highest VLOGIC lowers the tile's clock by a step every 10 µs; the request ends with the warning (R542). -/
def State.eyeStep (s : State) (n t : Nat) (warn : Bool) : State :=
  if !warn then s.updDpm n (fun d => { d with eyeDown := d.eyeDown.put 0 t 0 })
  else if s.rd n dpmVlogicMv < 850 ∨ s.now < (s.dpm n).eyeAt.get 0 t + 10000 then s
  else s.updDpm n (fun d => { d with eyeDown := d.eyeDown.put 0 t (min 32 (d.eyeDown.get 0 t + 1)), eyeAt := d.eyeAt.put 0 t s.now })

/-- EYE_DRIFT_MV and EYE_AGING of a warning tile; ageing is recorded (R543). -/
def State.noteDrift (s : State) (n t : Nat) : State :=
  let v := (s.dpm n).trim
  let s1 := s.wr n (eyeDriftMv t) v
  if v ≤ 40 ∨ s.rd n (eyeAging t) = 1 then s1
  else (s1.wr n (eyeAging t) 1).bb srcFw 0x0300 1 (s.siteCode n) (s.partOfNode n) 2 (bytesLE 1 t)

/-- A tile critical at 500 MHz and 0.85 V for 1 ms fails its die (R543). -/
def State.critTimer (s : State) (n t : Nat) (crit : Bool) : State :=
  let at_ := (s.dpm n).critSince.get none t
  if !crit || decide (s.rd n dpmVlogicMv < 850) || decide (32 < s.rd n (aclkStep t)) then
    s.updDpm n (fun d => { d with critSince := d.critSince.put none t none })
  else match at_ with
    | none => s.updDpm n (fun d => { d with critSince := d.critSince.put none t (some s.now) })
    | some t0 => if s.now < t0 + 1000000 then s else s.dieFails n 3 0

/-- EYESPOT_REPORT (R539–R543): the lowest code of 1 µs of tile `e`'s eyespots, or of the fabric domain's for 17, and the periods
that a critical code stretched. -/
def execEyespotReport (n : NodeNo) (e : Fin 18) (code : BitVec 4) (stretched : W16) (s : State) : Result :=
  let d := n.val
  let t := e.val
  let warn := decide (code.toNat < s.rd d eyeWarnTh)
  let crit := decide (code.toNat < s.rd d eyeCritTh)
  .next (if d = 264 ∨ s.power d ≠ 3 then s
    else if t = 17 then
      let s1 := s.wr d eyeFabMargin code.toNat
      if 240 ≤ d then s1
      else if crit && decide (850 ≤ s.rd d dpmVlogicMv) then s1.dieFails d 3 0
      else (s1.trimStep d warn).setClocks d
    else if 240 ≤ d then s
    else
      let s1 := (s.wr d (eyeMargin t) code.toNat).wr d (eyeWarnF t) (b2n warn)
      let s2 := (if crit then s1.inc d (eyeCritCnt t) else s1).stretch d t stretched.toNat crit
      let s3 := (s2.trimStep d warn).eyeStep d t warn
      let s4 := if warn then s3.noteDrift d t else s3
      (s4.setClocks d).critTimer d t crit)

/-! ### The time base (R548–R551) -/

/-- The die-cells whose copies are aligned. -/
def State.syncedNodes (s : State) : List Nat := (List.range 269).filter (fun n => n != 264 && s.rd n tbSynced == 1)

/-- TB_PULSE_SEND (R550). -/
def execTbPulseSend (s : State) : Result :=
  .next (if s.hub.tb.startAt = none then s
    else
      let s1 := s.till (s.hub.tb.pulseAt + 1000 * s.hrd tbmPulseUs)
      (s1.updHub (fun h => { h with tb := { h.tb with pulseAt := s1.now, pulse := s1.syncedNodes } })).emit (.pulse s1.tb))

/-- A copy that cannot be corrected, or gets no pulse (R550). -/
def State.copyLost (s : State) (n : Nat) : State :=
  ((s.updHub (fun h => { h with tb := { h.tb with diff := h.tb.diff.put 0 n 0, pulse := h.tb.pulse.filter (· != n) } })).wr n tbSynced 0).dieFails n 2 3

/-- TB_PULSE_ARRIVAL (R550): die-cell `n`'s copy has drifted by so many counts since the last pulse. A correction waits for the end of
an exchange phase; the pulse stays until then. -/
def execTbPulseArrival (n : NodeNo) (drift : Int) (s : State) : Result :=
  let d := s.hub.tb.diff.get 0 n.val + drift
  let set := fun (s : State) (v : Int) (keep : Bool) => s.updHub (fun h => { h with tb := { h.tb with
    diff := h.tb.diff.put 0 n.val v, pulse := if keep then h.tb.pulse else h.tb.pulse.filter (· != n.val) } })
  .next (if !s.hub.tb.pulse.contains n.val then s
    else if d = 0 then set s 0 false
    else if 1 < d.natAbs then s.copyLost n.val
    else if (s.node n.val).xbusy then set s d true
    else ((set s 0 false).inc n.val tbCorrCnt).inc 264 tbmCorrTotal)

/-- TB_PULSE_MISSING (R550). -/
def execTbPulseMissing (n : NodeNo) (s : State) : Result :=
  .next (if n.val = 264 ∨ s.rd n.val tbSynced = 0 then s else (s.inc n.val tbPulseMiss).copyLost n.val)

/-- PPS_EDGE (R551, R555): the edge is stamped; with TBM_DISC 1, hub firmware's servo acts on the offset of the source. -/
def execPpsEdge (off adj : Int) (s : State) : Result :=
  .next (if s.hub.tb.startAt = none then s
    else
      let s1 := (s.hwr tbmPpsStampLo (s.tb % 2 ^ 32)).updHub (fun h => { h with tb := { h.tb with pps := BitVec.ofNat 64 s.tb, ppsAt := some s.now } })
      if s.hrd tbmDisc = 1 && s.hub.score.fwUp then s1.servo off adj else s1)

/-- The place and the registers of a target that hold a pair of words. -/
def State.pairRead (s : State) (t : Tgt) (place off : Nat) : State :=
  (s.latch t off 1).emit (.regRead place off (BitVec.ofNat 32 (s.tgtWord t off)))

/-- TB_LO_READ (R554): of a die-cell that has the clock block and is powered. -/
def execTbLoRead (n : NodeNo) (s : State) : Result :=
  .next (if n.val = 264 ∨ s.power n.val = 0 then s
    else s.pairRead (if n.val < 264 then .dieReg n.val else .port (n.val - 265)) n.val 0x70008)

/-- TBM_PPS_STAMP_LO_READ (R555). -/
def execTbmPpsStampLoRead (s : State) : Result :=
  .next (if !s.hub.feed.mainGood then s else s.pairRead .hub 264 0x32010)

/-- RTC_SEC_WRITE (R552, R555): hub firmware sets the real-time clock. -/
def execRtcSecWrite (v : W32) (s : State) : Result :=
  .next (if !s.hub.score.fwUp then s
    else (s.hwr rtcValid 1).updHub (fun h => { h with tb := { h.tb with rtcBase := v.toNat, rtcAt := s.now } }))

end Sys2Proof.Machine
end

