-- ==== Sys2Proof/Machine/ThermInsn.lean ====
section
/-! DEFINITION. Coolant, flow stops, hot spots, throttles, the hard trip (chapter 20). -/

namespace Sys2Proof.Machine

/-! ### Hot-spot entries (R573, R574) -/

/-- How many hot spots a die-cell has (R561). -/
def hotSpots (n : Nat) : Nat := if n < 240 then 18 else if n = 264 then 4 else 2

/-- A hot-spot field of die-cell `n`; the hub's entries lie at 0x03_3100 of its space. -/
def hotFd (n : Nat) (f : Fd) : Fd := if n = 264 then { f with off := f.off - 0xA0000 + 0x33100 } else f

/-- Hot spot `h` of die-cell `n`. -/
def State.hotAt (s : State) (n h : Nat) : HotTimers := s.hub.hot.get {} (hotKey n h)
/-- Hot spot `h` of die-cell `n` set. -/
def State.setHot (s : State) (n h : Nat) (x : HotTimers) : State := s.updHub (fun u => { u with hot := u.hot.put {} (hotKey n h) x })

/-- The code of a temperature in 0.25 °C (R574). -/
def hotCode (v : Int) : Nat := min 1023 v.toNat

/-- HS_TH in °C (R564). -/
def State.hotTh (s : State) (x : HotTimers) : Nat := s.hrd thmTjThrottle - (if x.dis || x.lost then 5 else 0)

/-- V is above HS_TH, or below HS_TH − 3 K (R565). -/
def State.hotOver (s : State) (x : HotTimers) : Bool := match x.v with | some v => decide (4 * Int.ofNat (s.hotTh x) < v) | none => false
def State.hotCool (s : State) (x : HotTimers) : Bool := match x.v with | some v => decide (v < 4 * Int.ofNat (s.hotTh x) - 12) | none => true

/-! ### The budget (R557, R565, R568) -/

/-- Some hot spot of the hub or a port die is over its threshold. -/
def State.outerHot (s : State) : Bool :=
  [264, 265, 266, 267, 268].any (fun n => decide (s.power n ≠ 0) && (List.range (hotSpots n)).any (fun h => s.hotOver (s.hotAt n h)))

/-- T_in in 0.01 °C: 55 °C for P_inlet while temperatures are lost (R559). -/
def State.inlet (s : State) : Int := signedOf 16 (s.hrd thmTIn)

/-- P_inlet in W (R557). -/
def pInlet (t : Int) : Nat := if t ≤ 4500 then 15500 else if t ≤ 5500 then (15500 - 6 * (t - 4500)).toNat else 4000

/-- P_therm in whole watts (R557): `sum` of `n` flow samples in 0.01 L/min, the temperature for P_inlet, the inlet's, the glycol's
share. -/
def pTherm (sum n : Nat) (tp t : Int) (g : Nat) : Nat :=
  min (pInlet tp * min sum (1600 * n) / (1600 * n)) ((Int.ofNat ((69700 - 187 * g) * sum) * (6500 - t)).toNat / (10000000 * n))

/-- THERMAL_BUDGET_UPDATE (R557, R559, R565, R568): before the first valid sample the budget keeps its reset value. -/
def execThermalBudgetUpdate (s : State) : Result :=
  let xs := (s.hub.cool.flows.filter (fun x => decide (s.now ≤ x.1 + 10000000))).map (·.2)
  let sum := xs.foldl (· + ·) 0
  let n := xs.length
  let t := s.inlet
  let tp := if s.hrd thmDataLost = 1 then 5500 else t
  .next (if !s.hub.feed.mainGood then s
    else
      let s1 := ((s.hwr thmInletDerate (b2n (decide (4500 < tp)))).hwr thmInletHigh (b2n (decide (5500 < tp)))).hwr thmInletLow (b2n (decide (tp < 2000)))
      let s2 := if n = 0 then s1
        else ((s1.hwr thmFlow (sum / n)).hwr thmFlowLow (b2n (decide (sum < 1600 * n)))).hwr thmBudgetW (pTherm sum n tp t (s.hrd thmGlycolPct))
      s2.setLimit (if s2.outerHot then min s2.limitNow (s2.hrd pmgrLimitW * 95 / 100) else s2.limitNow) false)

/-! ### Flow stops (R559, R560, R567–R569) -/

/-- A flow stop is declared, once (R567, R568, R570): the cut, the slowest clocks, a halt asked of every running partition. -/
def State.flowStop (s : State) (cause : Nat) : State :=
  if s.hrd thmFlowStop = 1 then s
  else
    let old := s.hrd pmgrLimitW
    let s1 := ((((s.hwr thmFlowStop 1).hwr thmLastCause cause).inc 264 thmFlowStops).bb srcFw 0x0402 2 0xFFFF 31 cause []).updHub (fun h => { h with
      cool := { h.cool with stopAt := s.now } })
    let s2 := (List.range 24).foldl (fun s k => s.cutSector 2325 (max 1 old) k) s1
    let s3 := (List.range 240).foldl (fun s n => s.setClocks n) s2
    let s4 := (List.range 24).foldl (fun s p => match (s.part p).sch.state with
      | .running | .replaying | .rollback => (s.haltRequest p 1).railsReport p true
      | _ => s) s3
    s4.setLimit 2325 true

/-- COOLANT_FLOW_READ (R559, R560, R567): a read that fails gives nothing; else CM_FLOW, CM_STATUS and CM_SEQ. -/
def execCoolantFlowRead (r : Option (W16 × W16 × W16)) (s : State) : Result :=
  let c := s.hub.cool
  .next (if !s.hub.feed.mainGood then s
    else
      let bad := match r with
        | none => true
        | some (flow, status, seq) => c.seq == some seq || status.getLsbD 1 || decide (6000 < flow.toNat)
      let c1 := match r with
        | none => c
        | some (_, status, seq) => { c with seq := some seq, failed := status.getLsbD 0, sensor := status.getLsbD 1 }
      if bad then
        (let s1 := s.updHub (fun h => { h with cool := { c1 with
           bad := c.bad + 1, backSince := if 10 ≤ c.bad + 1 then none else c.backSince } })
         if c1.failed then s1.flowStop 2 else if c.bad + 1 = 10 then s1.flowStop 3 else s1)
      else
        let flow := match r with | some (v, _, _) => v.toNat | none => 0
        let low := if flow < 600 then c.low + 1 else 0
        let s1 := s.updHub (fun h => { h with cool := { c1 with
          bad := 0, low := low
          flows := c.flows.filter (fun x => decide (s.now < x.1 + 10000000)) ++ [(s.now, flow)]
          backSince := if flow < 1600 then none else if c.backSince.isNone then some s.now else c.backSince } })
        if 2 ≤ low then s1.flowStop 1 else if c1.failed then s1.flowStop 2 else s1)

/-- A temperature of the tray is valid (R559). -/
def coolOk (c : Cool) (t : Option W16) : Bool :=
  match t with
  | none => false
  | some v => !c.sensor && decide (-1000 ≤ signedOf 16 v.toNat) && decide (signedOf 16 v.toNat ≤ 10000)

/-- COOLANT_TEMP_READ (R559): inlet and outlet, none where the read fails; the last valid ones stand. -/
def execCoolantTempRead (tin tout : Option W16) (s : State) : Result :=
  let c := s.hub.cool
  .next (if !s.hub.feed.mainGood then s
    else
      let s1 := match tout with | some v => if coolOk c tout then s.hwr thmTOut v.toNat else s | none => s
      if coolOk c tin then
        ((s1.hwr thmTIn (match tin with | some v => v.toNat | none => 0)).hwr thmDataLost 0).updHub (fun h => { h with cool := { h.cool with tBadSince := none } })
      else match c.tBadSince with
        | none => s1.updHub (fun h => { h with cool := { h.cool with tBadSince := some s.now } })
        | some t => if s.now < t + 1000000000 then s1 else s1.hwr thmDataLost 1)

/-- FLOW_FAIL_N_LOW (R560). -/
def execFlowFailNLow (s : State) : Result := .next (if s.hub.feed.mainGood then s.flowStop 2 else s)

/-- FLOW_STOP_FORCED_HALT (R568): partition `p`'s combine has not completed within 20 ms. A molt or a rollback in progress completes
(R570). -/
def execFlowStopForcedHalt (p : PartNo) (s : State) : Result :=
  .next (if s.hrd thmFlowStop = 0 ∨ (s.hub.molt.get {} p.val).ldies ≠ [] then s
    else match (s.part p.val).sch.state with
    | .running | .replaying =>
      let s0 := s.till (s.hub.cool.stopAt + 20000000)
      let s1 := s0.mapTiles (s0.partTiles p.val) (fun _ x => { x with seq := { x.seq with en := false, st := .stopped, hold := .none } })
      let s2 := (s1.haltNow p.val 1).updPart p.val (fun x => { x with
        wbs := { x.wbs with wb := none, cAt := none, replayDue := false, withheld := false, forced := true } })
      s2.hwr thmForced 1
    | _ => s)

/-- FLOW_STOP_END (R569): the flow was back for 1 s; `pin` tells that FLOW_FAIL_N is high. -/
def execFlowStopEnd (pin : Bool) (s : State) : Result :=
  .next (match s.hub.cool.backSince with
    | none => s
    | some t =>
      if s.hrd thmFlowStop = 0 ∨ s.hub.cool.failed ∨ !pin then s
      else
        let s1 := (s.till (t + 1000000000)).hwr thmFlowStop 0
        let s2 := s1.setLimit s1.limitNow false
        let s3 := if s2.hrd pmgrDerate = 1 then s2.event 6 0 31 false else s2
        (List.range 240).foldl (fun s n => s.setClocks n) s3)

/-! ### Hot spots (R561–R565) -/

/-- A sensor's reading is discarded (R563). -/
def hotBad (last v : Option Int) : Bool :=
  match v with
  | none => true
  | some v => decide (v < -80) || decide (600 < v) || (match last with | some l => decide (40 < (v - l).natAbs) | none => false)

/-- The voted value (R563); none where no input is valid. -/
def hotVote : Option Int → Option Int → Option Int → Option Int
  | some a, some b, some m => some (max (min a b) (min (max a b) m))
  | some a, some b, none => some (max a b)
  | some a, none, some m => some (max a m)
  | none, some b, some m => some (max b m)
  | some a, none, none => some a
  | none, some b, none => some b
  | none, none, m => m

/-- Since when a condition holds without a break. -/
def since (now : Nat) (c : Bool) (t : Option Nat) : Option Nat := if c then some (t.getD now) else none

/-- A hot spot after an update at `now` (R563, R564). -/
def HotTimers.update (x : HotTimers) (now : Nat) (a b m : Option Int) : HotTimers :=
  let a1 := if hotBad x.lastA a then none else a
  let b1 := if hotBad x.lastB b then none else b
  let v := hotVote a1 b1 m
  let apart := match a1, b1 with | some p, some q => some (p - q).natAbs | _, _ => none
  let dis := since now (match apart with | some d => decide (20 < d) | none => false) x.disSince
  let la := since now a1.isNone x.lostSinceA
  let lb := since now b1.isNone x.lostSinceB
  let dc := since now (match apart with | some d => decide (d ≤ 8) | none => false) x.disCalm
  let lc := since now (a1.isSome && b1.isSome) x.lostCalm
  let past := fun (t : Option Nat) (d : Nat) => match t with | some t => decide (t + d ≤ now) | none => false
  { x with
    lastA := if a1.isSome then a1 else x.lastA, lastB := if b1.isSome then b1 else x.lastB
    v := if v.isSome then v else x.v, blind := v.isNone
    disSince := dis, lostSinceA := la, lostSinceB := lb, disCalm := dc, lostCalm := lc
    dis := (x.dis && !past dc 10000000000) || past dis 10000001
    lost := (x.lost && !past lc 10000000000) || past la 10000000 || past lb 10000000 }

/-- The registers of hot spot `h` of die-cell `n` (R574); sensors that read nothing keep their codes. -/
def State.noteHot (s : State) (n h : Nat) (x : HotTimers) (r : HotRead) (aOk bOk : Bool) : State :=
  let code := fun (s : State) (f : Fd) (v : Option Int) => match v with | some v => s.wr n (hotFd n f) (hotCode v) | none => s
  let s1 := code (code (code (code s (hsA h) r.a) (hsB h) r.b) (hsM h) r.m) (hsV h) x.v
  let put := fun (s : State) (f : Fd) (b : Bool) => s.wr n (hotFd n f) (b2n b)
  (put (put (put (put s1 (hsAOk h) aOk) (hsBOk h) bOk) (hsDisagree h) x.dis) (hsLost h) x.lost).wr n (hotFd n (hsTh h)) (s.hotTh x)

/-- A throttle step of tile `t` of die `n` lowered by one (R565). -/
def State.throttleTile (s : State) (n t : Nat) : State :=
  s.setHot n t { s.hotAt n t with throttle := max 32 ((s.hotAt n t).throttle - 1) }

/-- One hot spot updated and acted on (R562–R565). -/
def State.hotUpdate (s : State) (n : Nat) (r : HotRead) : State :=
  let h := r.h.val
  if hotSpots n ≤ h then s
  else
    let x0 := s.hotAt n h
    let m := if s.hrd thmDataLost = 1 then none else r.m
    let x := x0.update s.now r.a r.b m
    let s1 := (s.setHot n h x).noteHot n h x { r with m := m } (!hotBad x0.lastA r.a) (!hotBad x0.lastB r.b)
    let raise := fun (s : State) (up : Bool) (code : Nat) =>
      if up then (s.inc 264 thmDisagreeCnt).bb srcFw 0x0403 1 (s.siteCode n) (s.partOfNode n) code (bytesLE 1 h) else s
    let s2 := raise (raise s1 (x.dis && !x0.dis) 1) (x.lost && !x0.lost) 2
    if !s2.hotOver x then s2
    else
      let s3 := s2.wr n (hotFd n (hsThrottle h)) 1
      if 240 ≤ n then s3
      else if h < 17 then s3.throttleTile n h
      else (List.range 17).foldl (fun s t => s.throttleTile n t) s3

/-- THM_SENSOR_FLAG and the highest V of the panel's powered dies (R573). -/
def State.noteHottest (s : State) : State :=
  let xs := s.hub.hot.filter (fun kv => decide (s.power (kv.1 / 32) ≠ 0))
  let best := xs.foldl (fun (a : Option (Nat × Int)) kv => match kv.2.v, a with
    | some v, some (_, w) => if w < v then some (kv.1, v) else a
    | some v, none => some (kv.1, v)
    | none, _ => a) none
  let s1 := s.hwr thmSensorFlag (b2n (xs.any (fun kv => kv.2.dis || kv.2.lost)))
  match best with
  | none => s1
  | some (k, v) => ((s1.hwr thmHotV (hotCode v)).hwr thmHotSite (s.siteCode (k / 32))).hwr thmHotIdx (k % 32)

/-- HOTSPOT_UPDATE (R538, R561–R565, R573, R574): the hot spots of die-cell `n`. -/
def execHotspotUpdate (n : NodeNo) (rs : List HotRead) (s : State) : Result :=
  .next (if !s.hub.feed.mainGood || decide (s.power n.val = 0) then s
    else ((rs.foldl (fun s r => s.hotUpdate n.val r) s).noteHottest).setClocks n.val)

/-- Tile `t`'s throttle step rises: neither its own hot spot nor the router's holds it (R565). -/
def State.mayRise (s : State) (n t : Nat) : Bool :=
  [t, 17].all (fun h => decide (s.rd n (hsThrottle h) = 0) || s.hotCool (s.hotAt n h))

/-- THROTTLE_RECOVERY_STEP (R565): steps of die-cell `n`'s tiles rise by 1; HS_THROTTLE clears once they are back at 64. -/
def execThrottleRecoveryStep (n : NodeNo) (s : State) : Result :=
  let d := n.val
  .next (if s.power d = 0 then s
    else
      let s1 := if 240 ≤ d then s
        else (List.range 17).foldl (fun s t =>
          if s.mayRise d t then s.setHot d t { s.hotAt d t with throttle := min 64 ((s.hotAt d t).throttle + 1) } else s) s
      let full := fun (s : State) (h : Nat) =>
        if 240 ≤ d then true
        else if h < 17 then decide ((s.hotAt d h).throttle = 64) else (List.range 17).all (fun t => decide ((s.hotAt d t).throttle = 64))
      ((List.range (hotSpots d)).foldl (fun s h =>
        if full s h && s.hotCool (s.hotAt d h) then s.wr d (hotFd d (hsThrottle h)) 0 else s) s1).setClocks d)

/-! ### Stack temperature (R273, R566) -/

/-- SN_TEMPERATURE_CHANGE (R273, R566): refresh at twice the rate above 85 °C, SN_HOT and its report above 95 °C, self-refresh at
105 °C until below 100 °C, where the owning partition is asked to halt. A stack that a command had put into self-refresh stays there until
it is woken, and one at 105 °C is not woken before it is below 100 °C. -/
def execSnTemperatureChange (k : StackNo) (temp : Byte) (s : State) : Result :=
  let x := s.stack k.val
  let hot := decide (95 < temp.toNat)
  let x1 := { x with temp := temp, ref2x := decide (85 < temp.toNat), hot := hot }
  let cut := decide (105 ≤ temp.toNat ∧ x1.pw = .active)
  let x2 := if cut then { x1 with pw := .selfRefresh, tooHot := true, waking := true }
    else if 105 ≤ temp.toNat ∧ x1.pw = .selfRefresh then { x1 with tooHot := true }
    else if temp.toNat < 100 ∧ x1.tooHot then
      (if x1.pw = .selfRefresh ∧ x1.waking then { x1 with tooHot := false, pw := .active, waking := false } else { x1 with tooHot := false })
    else x1
  let s1 := s.setStack k.val x2
  let s2 := if hot then s1.report (stackNode k.val) (.stackHot k.val temp) else s1
  .next (if cut then (s2.haltRequest (s2.partOfSector k.val) 1).event 6 1 31 false else s2)

/-! ### The hard trip (R571, R572) -/

/-- Words that out-of-band management reads on standby power after a trip (R571, R606). -/
def tripKeep (p off : Nat) : W32 := if p = 264 ∧ (0x2000 ≤ off ∧ off < 0x2100 ∨ off = 0x30000 ∨ off = 0x33000) then 0xFFFFFFFF else 0

/-- HARD_TRIP (R570–R572, R607, R613): the panel is off but for standby until a cold reset. -/
def execHardTrip (at_ : TripAt) (s : State) : Result :=
  .next (if !s.hub.feed.mainGood then s
    else
      let s1 := match at_ with
        | .outlet => s.bb srcAnalog 0x0401 2 0xFFFF 31 0 (bytesLE 1 0xFF)
        | .spot n h b =>
          let x := s.hotAt n.val h.val
          let w := s.bb srcAnalog 0x0401 2 (s.siteCode n.val) (s.partOfNode n.val) 0 (bytesLE 1 h.val ++ bytesLE 1 (b2n b))
          (match (if b then x.lastA else x.lastB) with
           | some v => if v < 400 then w.bb srcAnalog 0x0404 1 (s.siteCode n.val) (s.partOfNode n.val) 0 (bytesLE 1 h.val ++ bytesLE 1 (b2n b)) else w
           | none => w)
      let s2 := (s1.hwr thmTripped 1).powerLoss
      let kept := (s2.keepRegs tripKeep).regs
      let off := s2.cold true
      let s3 := { off with regs := kept.foldl (fun (t : Table W32) (kv : Nat × W32) => t.put 0 kv.1 kv.2) off.regs }
      ((s3.updHub (fun h => { h with feed := { h.feed with tripped := true } })).emit .thermtrip).emit (.pldmEvent 0x42))

end Sys2Proof.Machine
end

