-- ==== Sys2Proof/Machine/SecInsn.lean ====
section
/-! DEFINITION. Attestation, owners, policy packets and debug levels (chapter 21). -/

namespace Sys2Proof.Machine

/-- The root of trust's state changed. -/
def State.updRot (s : State) (f : Rot → Rot) : State := s.updHub (fun h => { h with rot := f h.rot })

/-! ### SPDM (R577, R580) -/

/-- How an answer is marked: the function, or 50 for MCTP. -/
def viaCode : SpdmVia → Nat
  | .doe f => f.val
  | .mctp => 50

/-- The open sessions of a responder, and how many it may have. -/
def State.sessionsOf (s : State) (v : SpdmVia) : List Nat :=
  match v with | .doe f => (s.fn f.val).sessions | .mctp => s.hub.rot.sessions
def sessionMax : SpdmVia → Nat
  | .doe _ => 4
  | .mctp => 2
/-- They are changed. -/
def State.setSessions (s : State) (v : SpdmVia) (l : List Nat) : State :=
  match v with
  | .doe f => s.updFn f.val (fun x => { x with sessions := l })
  | .mctp => s.updRot (fun r => { r with sessions := l })

/-- The responder answers: the panel is on, and hub firmware runs. -/
def State.spdmUp (s : State) : Bool := s.hub.feed.mainGood && s.hub.score.fwUp

/-- A responder answers for partition `p` (R580): the physical functions for every one, a VF for its own. -/
def State.viaSees (s : State) (v : SpdmVia) (p : Nat) : Bool :=
  match v with
  | .mctp => false
  | .doe f => isPf f.val || decide (s.fnPartOf f.val = p)

/-- Bytes of a firmware slot (R610). -/
def slotBytes : Nat := 0x780000

/-- The seeds of the alias keys (R576), which follow measurements 1 to 3. -/
def aliasInfo (name : String) (digests : List (BitVec 384)) : List Byte := ascii name ++ digests.flatMap (fun d => bytesLE 48 d.toNat)

/-- A 384-bit value as bytes. -/
def bytes384 (v : BitVec 384) : List Byte := bytesLE 48 v.toNat

/-- What measurement block `i` is taken over, of partition `p` for blocks 6 and 7, and its SVN; none where it has not been recorded in this boot
(R577). Blocks 1 and 2 are recorded at standby power, and no later event of a boot changes them. -/
def State.measured (s : State) (i p : Nat) : Option (List Byte × Nat) :=
  let b := s.hub.bbx
  match i with
  | 1 => some (Config.romDigest, Config.romSvn.toNat)
  | 2 => some ((if s.hrd hubFwSlot = 1 then b.slotB else b.slotA).img.getList 0 0 slotBytes, s.hrd hubFwSvn)
  | _ => match s.hub.rot.meas.get [] (measKey i p) with
    | [] => none
    | bs => some (bs, if i = 3 then s.hub.rot.bundleSvn.toNat else 0)

/-- A measurement record (R577): the block's index, the SHA-384 of its item, its SVN. -/
def measRecord (i : Nat) (m : List Byte × Nat) : List Byte := bytesLE 1 i ++ bytes384 (Config.sha384 m.1) ++ bytesLE 2 m.2

/-- Alias-EC and Alias-PQ of this boot (R576). -/
def State.aliasKey (s : State) (name : String) : List Byte :=
  rotKey (aliasInfo name ([1, 2, 3].map (fun i => Config.sha384 (((s.measured i 0).map (·.1)).getD [])))) 48

/-- The least of 0, 1, … that is not taken, below `n`. -/
def lowestFree (taken : List Nat) (n : Nat) : Option Nat := (List.range n).find? (fun i => !taken.contains i)

/-- A use of cryptography (R575). -/
inductive AlgoUse where
  | hash | keyDerivation | signature | agreement | pqSignature | pqEstablishment | authenticated | storage | random
  deriving DecidableEq, Repr

/-- The only algorithm of each use (R575): the panel offers no other. -/
def AlgoUse.algo : AlgoUse → Algo
  | .hash => .sha384
  | .keyDerivation => .hkdfSha384
  | .signature => .ecdsaP384
  | .agreement => .ecdhP384
  | .pqSignature => .mlDsa87
  | .pqEstablishment => .mlKem1024
  | .authenticated => .aes256Gcm
  | .storage => .xtsAes256
  | .random => .ctrDrbgAes256

/-- The number of an algorithm in an answer (assumption log 75): its place in R575's table, from 1; another's code. -/
def algoCode : Algo → Nat
  | .sha384 => 1 | .hkdfSha384 => 2 | .ecdsaP384 => 3 | .ecdhP384 => 4 | .mlDsa87 => 5 | .mlKem1024 => 6 | .aes256Gcm => 7 | .xtsAes256 => 8
  | .ctrDrbgAes256 => 9 | .other c => c.toNat

/-- The uses that an SPDM session negotiates (R580): signature, hash, key agreement, authenticated encryption. -/
def spdmUses : List AlgoUse := [.signature, .hash, .agreement, .authenticated]

/-- What ALGORITHMS selects for a use from those a requester offers: the panel's one algorithm, or none (0). -/
def AlgoUse.pick (u : AlgoUse) (offered : List Algo) : Byte := if offered.contains u.algo then BitVec.ofNat 8 (algoCode u.algo) else 0

/-- The slots of an IDE stream all go, in key set 0 or in key set 1 (R381, assumption log 102). -/
def IdeStream.secure (x : IdeStream) : Bool :=
  [0, 6].any (fun b => (List.range 6).all (fun i => x.go.get false (b + i)))

/-- An IDE_KM message (R381, assumption log 102): a slot goes only once a key is in it; a key programmed stops its slot. -/
def IdeStream.message (x : IdeStream) (op : IdeOp) : IdeStream × Bool :=
  match op with
  | .keyProg i k => ({ keys := x.keys.put 0 i.val k, go := x.go.put false i.val false }, true)
  | .setGo i => if x.keys.any (fun kv => kv.1 == i.val) then ({ x with go := x.go.put false i.val true }, true) else (x, false)
  | .setStop i => ({ x with go := x.go.put false i.val false }, true)

/-- IDE_KM in session `n` of the physical function of a port, which holds the port's nine streams (R381, assumption log 102). -/
def State.ideMessage (s : State) (v : SpdmVia) (n stream : Nat) (op : IdeOp) : State × Bool :=
  match v with
  | .mctp => (s, false)
  | .doe f =>
    if !isPf f.val || !(s.fn f.val).sessions.contains n then (s, false)
    else
      let q := 2 * (f.val / 25)
      let r := ((s.port q).ide.get {} stream).message op
      (s.updPort q (fun x => { x with ide := x.ide.put {} stream r.1 }), r.2)

/-- DOE Discovery (R381, assumption log 102): entry `i` of the protocols of a function's DOE mailbox, with the index of the next, 0 at the last:
DOE Discovery 0, CMA/SPDM 1, secured CMA/SPDM 2. -/
def doeDiscovery (i : Nat) : List Byte := [BitVec.ofNat 8 i, BitVec.ofNat 8 (if i < 2 then i + 1 else 0)]

/-- SPDM_REQUEST (R381, R575, R577, R580): code 0 answers, 1 is an error. -/
def execSpdmRequest (v : SpdmVia) (req : SpdmReq) (s : State) : Result :=
  let open_ := s.sessionsOf v
  let answer := fun (s : State) (ok : Bool) (bs : List Byte) => s.emit (.mgmt (viaCode v) (b2n (!ok)) bs)
  .next (if !s.spdmUp then s
    else match req with
    | .version offered => if offered.contains 0x13 then answer s true [0x13] else answer s (offered.contains 0x12) (if offered.contains 0x12 then [0x12] else [])
    | .capabilities => answer s true []
    | .algorithms asym hash dhe aead =>
      let bs := [AlgoUse.signature.pick asym, AlgoUse.hash.pick hash, AlgoUse.agreement.pick dhe, AlgoUse.authenticated.pick aead]
      answer s (!bs.contains 0) (if bs.contains 0 then [] else bs)
    | .digests => answer s true [1]
    | .certificate slot => answer s (decide (slot.val = 0)) []
    | .challenge slot => answer s (decide (slot.val = 0)) []
    | .measurements i p =>
      if i.val = 0 ∨ 6 ≤ i.val ∧ !s.viaSees v p.val then answer s false []
      else (match s.measured i.val p.val with
        | some m => answer s true (measRecord i.val m)
        | none => answer s false [])
    | .keyExchange ok =>
      (match lowestFree open_ (sessionMax v) with
       | some n => if ok then answer (s.setSessions v (open_ ++ [n])) true (bytesLE 1 n) else answer s false []
       | none => answer s false [])
    | .heartbeat n => answer s (open_.contains n.val) []
    | .keyUpdate n => answer s (open_.contains n.val) []
    | .endSession n => answer (s.setSessions v (open_.filter (· != n.val))) (open_.contains n.val) []
    | .ideKm n stream op =>
      let r := s.ideMessage v n.val stream.val op
      answer r.1 r.2 []
    | .discovery i =>
      (match v with
       | .doe _ => if i.toNat < 3 then answer s true (doeDiscovery i.toNat) else answer s false []
       | .mctp => answer s false [])
    | .unsupported => answer s false [])

/-! ### The key protocol (R581–R584) -/

/-- A request of the key protocol: within session `n` of a responder that is up. It is answered with its code and bit 7, or refused
with 0x100, or 0x101 for OWNER_BUSY (assumption log 75). -/
def State.keyReq (s : State) (v : SpdmVia) (n : Nat) (code : Nat) (ok : Bool) (act : State → State × List Byte) : State :=
  if !s.spdmUp || !(s.sessionsOf v).contains n then s
  else if !ok then s.emit (.mgmt (viaCode v) 0x100 [BitVec.ofNat 8 code])
  else (act s).1.emit (.mgmt (viaCode v) (code + 0x80) (act s).2)

/-- PQ_ENDORSE (R581): certificates and a signature over the transcript and the nonce. -/
def execPqEndorse (v : SpdmVia) (n : Fin 4) (nonce : BitVec 256) (s : State) : Result :=
  .next (s.keyReq v n.val 0x01 true (fun s => (s, bytesLE 32 nonce.toNat)))

/-- A function is a VF of a formed confidential partition. -/
def State.confVf (s : State) (f : Nat) : Bool := !isPf f && s.confPart (s.fnPartOf f) && (s.part (s.fnPartOf f)).formed

/-- KEM_GET (R581): a fresh encapsulation key, for a VF of a confidential partition without an owner. The key pair is known by its
generation. -/
def execKemGet (f : Fin 50) (n : Fin 4) (s : State) : Result :=
  let p := s.fnPartOf f.val
  .next (s.keyReq (.doe f) n.val 0x02 (s.confVf f.val && !(s.hub.rot.owner.get {} p).bound) (fun s =>
    let k := s.drawKey
    (k.1.updRot (fun r => { r with owner := r.owner.upd {} p (fun o => { o with kemOut := some (4 * f.val + n.val), kemKey := k.2 }) }), [])))

/-- The PMK of partition `p` (R582), from the secret of a ciphertext; the session's exported master secret is free. -/
def State.pmkOf (s : State) (p : Nat) (ct : List Byte) : List Byte :=
  Config.hkdf384 (Config.kemSecret (s.hub.rot.owner.get {} p).kemKey ct) ((List.range 48).map (Config.freeByte s.freeCtr))
    (ascii "AZ4-PMK" ++ bytesLE 1 p ++ bytesLE 8 s.hub.rot.counter.toNat) 48

/-- The key-wrap key and the owner request key (R582). -/
def Owner.kw (o : Owner) : List Byte := Config.hkdf384 o.pmk [] (ascii "AZ4-KW") 32
def Owner.ka (o : Owner) : List Byte := Config.hkdf384 o.pmk [] (ascii "AZ4-KA") 48

/-- OWNER_BIND (R577, R581, R582, R595): in the session that took the encapsulation key; an owned partition answers OWNER_BUSY. The answer
proves the owner request key over the session's transcript hash, which is free. -/
def execOwnerBind (f : Fin 50) (n : Fin 4) (id : BitVec 384) (ct : List Byte) (s : State) : Result :=
  let p := s.fnPartOf f.val
  let o := s.hub.rot.owner.get {} p
  .next (if s.spdmUp && (s.sessionsOf (.doe f)).contains n.val && s.confVf f.val && o.bound then s.emit (.mgmt f.val 0x101 [])
    else s.keyReq (.doe f) n.val 0x03 (s.confVf f.val && decide (o.kemOut = some (4 * f.val + n.val))) (fun s =>
      let o1 : Owner := { o with bound := true, id := id, kemOut := none, kemKey := 0, pmk := s.pmkOf p ct }
      ((((s.updRot (fun r => { r with owner := r.owner.put {} p o1 })).hwr (spOwned p) 1).measurePart p).drawn,
       Config.hmac384 o1.ka ((List.range 48).map (fun i => Config.freeByte s.freeCtr (48 + i))))))

/-- A request to set or clear a network key of partition `p` is allowed (R583): of a confidential partition its owner's, from any
session, by the MAC under KA; of another, one from its VF's or a physical function's session. -/
def State.nkAllowed (s : State) (v : SpdmVia) (p : Nat) (macOk : Bool) : Bool :=
  (s.part p).formed && (if s.confPart p then (s.hub.rot.owner.get {} p).bound && macOk else s.viaSees v p)

/-- NK_SET (R581, R583, R595): `macOk` and `wrapOk` tell that the MAC and the wrapped key authenticate. -/
def execNkSet (v : SpdmVia) (n : Fin 4) (p : PartNo) (i : Fin 16) (key : BitVec 256) (macOk wrapOk : Bool) (s : State) : Result :=
  .next (s.keyReq v n.val 0x04 (s.nkAllowed v p.val macOk && (!s.confPart p.val || wrapOk)) (fun s =>
    ((s.updRot (fun r => { r with owner := r.owner.upd {} p.val (fun o => { o with nk := o.nk.put 0 i.val key }) })).setReg 264 (spNkMask p.val).off
      (setBit (s.reg 264 (spNkMask p.val).off) (3 + i.val)), [])))

/-- NK_CLEAR (R581, R583): connections that use the key go to ERROR, and their packets are given up. -/
def execNkClear (v : SpdmVia) (n : Fin 4) (p : PartNo) (i : Fin 16) (macOk : Bool) (s : State) : Result :=
  .next (s.keyReq v n.val 0x05 (s.nkAllowed v p.val macOk) (fun s =>
    let s1 := (s.updRot (fun r => { r with owner := r.owner.upd {} p.val (fun o => { o with nk := o.nk.put 0 i.val 0 }) })).setReg 264 (spNkMask p.val).off
      (clrBit (s.reg 264 (spNkMask p.val).off) (3 + i.val))
    ([1, 2, 3].foldl (fun s q => ((s.connsOf q p.val).filter (fun c => decide (((s.port q).conns.get {} c).nk = i.val))).foldl (fun s c =>
      s.connError q c 0 0) s) s1, [])))

/-- The stacks of a partition wiped under fresh keys and its scratchpads zeroed (R259, R584, R587). -/
def State.scrub (s : State) (p : Nat) : State :=
  let k := s.drawKey
  (k.1.mapTiles (k.1.partTiles p) (fun _ x => x.wiped x.id x.w.tables)).mapStacks (k.1.partSecs p) (fun x => x.prepare k.2 x.w.tables)

/-- OWNER_RELEASE (R581, R584): by the owner, by the MAC under KA. -/
def execOwnerRelease (v : SpdmVia) (n : Fin 4) (p : PartNo) (macOk : Bool) (s : State) : Result :=
  .next (s.keyReq v n.val 0x06 (s.confPart p.val && s.nkAllowed v p.val macOk) (fun s =>
    (((s.dropOwner p.val).resetPart p.val (fun _ => false)).scrub p.val, [])))

/-- STATUS of the key protocol (R581): SEC_PART of a partition that the responder answers for. -/
def execKpStatus (v : SpdmVia) (n : Fin 4) (p : PartNo) (s : State) : Result :=
  let sees := match v with | .mctp => true | .doe _ => s.viaSees v p.val
  .next (s.keyReq v n.val 0x07 sees (fun s => (s, bytesLE 4 (s.reg 264 (spConf p.val).off).toNat)))

/-- CAK_SET (R421, R578, R581): an Operator's MACsec key enters the sealed store, where it is open. -/
def execCakSet (v : SpdmVia) (n : Fin 4) (key : BitVec 256) (s : State) : Result :=
  let may := match v with | .mctp => true | .doe f => isPf f.val
  .next (s.keyReq v n.val 0x08 (may && decide (s.hrd polSealed = 0)) (fun s => (s.updRot (fun r => { r with caks := r.caks ++ [key] }), [])))

/-! ### The layout (R591, R592) -/

/-- A layout entry from its 32 bytes; none where bytes or flags that must be 0 are not. -/
def layoutEntry (b : List Byte) : Option LayoutEntry :=
  let g := fun (i n : Nat) => ofLE ((b.drop i).take n)
  if !(b.drop 13).all (· == 0) || decide (7 < g 1 1) then none
  else some { id := g 0 1, flags := BitVec.ofNat 8 (g 1 1), secs := BitVec.ofNat 24 (g 2 3), grpBase := g 5 1, grpCnt := g 6 1, epBase := g 7 1,
              epCnt := g 8 1, tkBase := g 9 2, tkCnt := g 11 2 }

/-- Ranges of one kind overlap. -/
def spansMeet (a n b m : Nat) : Bool := decide (n ≠ 0 ∧ m ≠ 0 ∧ a < b + m ∧ b < a + n)

/-- Two entries share nothing. -/
def entriesApart (x y : LayoutEntry) : Bool :=
  decide (x.id ≠ y.id) && (x.secs &&& y.secs == 0) && !spansMeet x.grpBase x.grpCnt y.grpBase y.grpCnt
    && !spansMeet x.epBase x.epCnt y.epBase y.epCnt && !spansMeet x.tkBase x.tkCnt y.tkBase y.tkCnt

/-- Every two of a list are apart. -/
def allApart {α : Type} (r : α → α → Bool) : List α → Bool
  | [] => true
  | x :: xs => xs.all (r x) && allApart r xs

/-- An entry that stands by itself; `eth` tells that PD-S is set for the Ethernet role. -/
def entryOk (eth : Bool) (e : LayoutEntry) : Bool :=
  decide (e.id < 24) && (e.secs != 0) && decide (e.grpBase + e.grpCnt ≤ 64 ∧ e.epBase + e.epCnt ≤ 256 ∧ e.tkBase + e.tkCnt ≤ 4096)
    && (bit e.flags 1 || bit e.flags 2) && !(eth && bit e.flags 2)

/-- An address record that stands by itself. -/
def addrOk (es : List LayoutEntry) (b : List Byte) : Bool :=
  let g := fun (i : Nat) => ofLE ((b.drop i).take 1)
  es.any (fun e => decide (e.id = g 0)) && decide (1 ≤ g 1 ∧ g 1 ≤ 3 ∧ g 2 < 8 ∧ g 3 < 2) && ((b.drop 4).take 4).all (· == 0)

/-- `k` pieces of `n` bytes. -/
def piecesOf (n : Nat) (bs : List Byte) (k : Nat) : List (List Byte) := (List.range k).map (fun i => (bs.drop (n * i)).take n)

/-- A LAYOUT body as entries and address records, if its content stands (R591). -/
def layoutOf (eth : Bool) (bs : List Byte) : Option (List LayoutEntry × List (BitVec 192)) :=
  let n := ofLE (bs.take 2)
  let m := ofLE ((bs.drop 2).take 2)
  let es := (piecesOf 32 (bs.drop 16) n).filterMap layoutEntry
  let as := piecesOf 24 (bs.drop (16 + 32 * n)) m
  if bs.length = 16 + 32 * n + 24 * m ∧ ((bs.drop 4).take 12).all (· == 0) ∧ es.length = n ∧ es.all (entryOk eth) ∧ allApart entriesApart es
      ∧ as.all (addrOk es) ∧ allApart (fun a b => a.drop 8 != b.drop 8) as then
    some (es, as.map (fun a => BitVec.ofNat 192 (ofLE a)))
  else none

/-- The entries of the layout in force that a new one drops or changes. -/
def State.layoutGone (s : State) (es : List LayoutEntry) : List LayoutEntry := s.hub.rot.layout.filter (fun e => !es.contains e)

/-- A layout applied (R592, R594): partitions are dissolved and formed in imago; before it, they are formed by instar 7. -/
def State.applyLayout (s : State) (es : List LayoutEntry) (addrs : List (BitVec 192)) (hash : BitVec 384) : State :=
  let gone := s.layoutGone es
  let fresh := es.filter (fun e => !s.hub.rot.layout.contains e && (decide (s.hrd polDebug ≠ 2) || !bit e.flags 0))
  let s1 := gone.foldl (fun s e => s.dissolvePart e.id) s
  let s2 := s1.updRot (fun r => { r with layout := es, addrs := addrs })
  let s3 := if s.hrd bootImago = 1 then fresh.foldl (fun s e => s.formPart e) s2 else s2
  (List.range 12).foldl (fun s i => s.hwr (polLayoutHash i) (fld hash (32 * i + 31) (32 * i))) s3

/-! ### Policy packets (R589, R590) -/

/-- The kind, and other fields, of a packet's header. -/
def pktF (p : PolicyPkt) (lo n : Nat) : Nat := ofLE ((p.hdr.drop lo).take n)
def pktKind (p : PolicyPkt) : Nat := pktF p 6 2

/-- Check 1 (R590). -/
def pktFormed (p : PolicyPkt) (total : Nat) : Bool :=
  decide (p.hdr.length = 128) && decide (pktF p 0 4 = 0x344B505A) && decide (pktF p 4 2 = 1) && decide (pktF p 12 4 = 0) && decide (pktF p 28 4 = 0)
    && decide (pktF p 24 4 = p.len) && decide (p.len ≤ 49152) && decide (total = 128 + p.len + 9446) && decide (total ≤ 65536)

/-- The RWQ field at an offset with its lowest bit (R595). -/
def rwqField (off lo : Nat) : Option Fd :=
  [polMinSvnHub, polMinSvnBundle, polFwSigners, polReqOpsig].find? (fun f => decide (f.off = off ∧ f.lo = lo))

/-- Check 9 (R589, R591, R593). -/
def State.policyContent (s : State) (p : PolicyPkt) : Bool :=
  match pktKind p, p.body with
  | 1, .roles bs => decide (bs.length = 5378)
  | 2, .roles bs => decide (bs.length = 5378)
  | 3, .layout bs => (layoutOf (s.port 2).ethRole bs).isSome && decide (bs.length = p.len)
  | 4, .debug level nonce =>
    decide (level = 1 ∨ level = 2) && decide (s.hrd polDebug ≤ level.toNat) && decide (nonce.toNat = s.hrd polDbgNonceLo + s.hrd polDbgNonceHi * 2 ^ 32)
  | 5, .fwPolicy a b _ _ => decide (s.hrd polMinSvnHub ≤ a.toNat) && decide (s.hrd polMinSvnBundle ≤ b.toNat)
  | 6, .fuses rs => decide (rs.length ≤ 64) && decide (p.len = 8 * rs.length) && rs.all (fun r => decide (1 ≤ fld r 23 16 ∧ fld r 23 16 ≤ 5)
      && decide (fld r 15 0 < 288 ∨ 0x1F1 ≤ fld r 15 0 ∧ fld r 15 0 ≤ 0x1F4))
  | 7, .clear mask site => decide (mask.toNat < 32) && decide (site.toNat < 288 ∨ site = 0xFFFF)
  | 8, .keys op => decide (op = 1)
  | 9, .rwq off lo v => (match rwqField off lo with | some f => decide (v.toNat < 2 ^ (f.hi + 1 - f.lo)) | none => false)
  | _, _ => false

/-- Partitions that a packet dissolves or changes. -/
def State.policyParts (s : State) (p : PolicyPkt) : List Nat :=
  match pktKind p, p.body with
  | 3, .layout bs => (match layoutOf (s.port 2).ethRole bs with | some x => (s.layoutGone x.1).map (·.id) | none => [])
  | 4, .debug level _ => if level = 2 then (List.range 24).filter (fun p => s.confPart p) else []
  | _, _ => []

/-- Partition `p` may be dissolved or changed (check 10 of R590). -/
def State.policyIdle (s : State) (p : Nat) : Bool := !(s.part p).formed || (s.atRest p && decide ((s.hub.molt.get {} p).ldies = []))

/-- The reason of the first check that a packet fails (R590); none where it passes. -/
def State.policyReason (s : State) (j : PolicyJob) : Option Nat :=
  let p := j.pkt
  let bound := s.hrd polRolesBound = 1
  if !pktFormed p j.total then some 1
  else if pktF p 8 4 ≠ s.hub.rot.panelTag.toNat then some 2
  else if pktF p 16 8 ≠ s.hub.rot.counter.toNat + 1 ∨ pktKind p = 1 ∧ pktF p 16 8 ≠ 1 then some 3
  else if (if pktKind p = 1 then decide bound || decide (pktF p 32 48 ≠ 0) else decide (¬bound) || decide (pktF p 32 48 ≠ s.hub.rot.roleSet.toNat)) then some 4
  else if pktF p 80 48 ≠ p.hash.toNat then some 1
  else if !p.opOk then some 5
  else if !p.cuOk then some 6
  else if pktKind p = 0 ∨ 9 < pktKind p ∨ pktKind p = 8 ∧ s.hrd bootImago = 0 then some 7
  else if !s.policyContent p then some 8
  else if !(s.policyParts p).all (fun q => s.policyIdle q) then some 9
  else none

/-- The ROT is done with the packet at the front (R590, R595): reason 0 is acceptance. -/
def State.policyEnd (s : State) (j : PolicyJob) (reason : Nat) : State :=
  let s1 := ((s.updRot (fun r => { r with pkts := r.pkts.drop 1 })).hwr polLastReason reason).hwr polLastKind (pktKind j.pkt)
  match j.frm with
  | none => s1
  | some (f, q, tag) =>
    match s1.hub.cmds.find? (fun c => c.is f q tag) with
    | none => s1
    | some c => if reason = 0 then s1.endCmd c scOk [] else s1.endCmd c scPolicyReject (bytesLE 2 reason)

/-- The ROT takes packets in order of arrival (R590): it ends those that fail a check, up to one that passes. -/
def State.policyPump (s : State) : Nat → State
  | 0 => s
  | n + 1 =>
    match s.hub.rot.pkts with
    | [] => s
    | j :: _ => match s.policyReason j with
      | none => s
      | some r => State.policyPump (s.policyEnd j r) n

/-- A packet arrives (R590). -/
def State.policyArrive (s : State) (j : PolicyJob) : State :=
  (s.updRot (fun r => { r with pkts := r.pkts ++ [j] })).policyPump (s.hub.rot.pkts.length + 1)

/-- POLICY (R393, R397, R589, R590): `pkt` is the packet as the ROT reads it from host memory, none where the access failed. A packet
that passes the checks waits for the step of its kind. -/
def execPolicy (f : Fin 50) (q : Fin 8) (tag : W16) (pkt : Option PolicyPkt) (s : State) : Result :=
  .next (s.fwRun f.val q.val tag 0x1D false (fun c =>
    if !(s.fn f.val).busMaster then s.endCmd c scDmaFault []
    else match pkt with
    | none => s.endCmd c scDmaFault []
    | some p => (s.begin c id).policyArrive ⟨some (c.fn, c.qp, c.tag), cmdB c.cmd 16 20, p⟩))

/-- The packet at the front of the ROT's queue is applied, if it is of kind `kind` and passes (R589, R590): the counter advances, measurement 5
is taken (R577) and a record is written. -/
def State.policyApply (s : State) (kind : Nat) (act : State → PolicyPkt → State) : State :=
  match s.hub.rot.pkts with
  | [] => s
  | j :: rest =>
    if pktKind j.pkt ≠ kind then s
    else
      let n := rest.length + 1
      match s.policyReason j with
      | some r => (s.policyEnd j r).policyPump n
      | none =>
        let c := s.hub.rot.counter + 1
        let s0 := ((act s j.pkt).updRot (fun r => { r with counter := c })).hwr polCounterLo (c.toNat % 2 ^ 32)
        let s1 := s0.measure 5 0 s0.policyWords
        ((s1.bb srcRot 0x0502 0 0x1F0 31 0 (bytesLE 2 kind)).policyEnd j 0).policyPump n

/-- A role set is in force (R588, R595). -/
def State.setRoles (s : State) (p : PolicyPkt) : State :=
  let bs := match p.body with | .roles bs => bs | _ => []
  (List.range 12).foldl (fun s i => s.hwr (polRolesetHash i) (fld p.hash (32 * i + 31) (32 * i)))
    ((s.updRot (fun r => { r with roles := bs, roleSet := p.hash })).hwr polRolesBound 1)

/-- BIND_ROLES (R588, R589). -/
def execBindRoles (s : State) : Result := .next (s.policyApply 1 (fun s p => s.setRoles p))

/-- ROTATE_ROLES (R588, R589). -/
def execRotateRoles (s : State) : Result := .next (s.policyApply 2 (fun s p => s.setRoles p))

/-- LAYOUT (R591, R592). -/
def execLayoutPkt (s : State) : Result :=
  .next (s.policyApply 3 (fun s p => match p.body with
    | .layout bs => (match layoutOf (s.port 2).ethRole bs with
      | some x => s.applyLayout x.1 x.2 p.hash
      | none => s)
    | _ => s))

/-- The key store of the crypto block erased (R594): every network key is gone, and the connections that used one go to ERROR as NK_CLEAR leaves
them (R581). -/
def State.eraseKeys (s : State) : State :=
  (List.range 24).foldl (fun s p =>
    let s1 := (s.updRot (fun r => { r with owner := r.owner.upd {} p (fun o => { o with nk := [], pmk := [] }) })).hwr (spNkMask p) 0
    [1, 2, 3].foldl (fun s q => (s.connsOf q p).foldl (fun s c => s.connError q c 0 0) s) s1) s

/-- FULL takes effect (R594): the confidential partitions end, with their scratchpads and stacks wiped, the key store is erased and the sealed
store closes. -/
def State.debugFull (s : State) : State :=
  let ps := (List.range 24).filter (fun p => s.confPart p)
  let s1 := ps.foldl (fun s p =>
    let ks := s.partSecs p
    let k := (s.dissolvePart p).drawKey
    k.1.mapStacks ks (fun x => x.prepare k.2 x.w.tables)) s
  ((s1.eraseKeys.updRot (fun r => { r with sk := [] })).hwr polDebug 2).hwr polSealed 1

/-- DEBUG_UNLOCK (R593, R594). -/
def execDebugUnlock (s : State) : Result :=
  .next (s.policyApply 4 (fun s p => match p.body with
    | .debug level _ => if level = 2 then s.debugFull else s.hwr polDebug level.toNat
    | _ => s))

/-- FW_POLICY (R578, R589). -/
def execFwPolicy (s : State) : Result :=
  .next (s.policyApply 5 (fun s p => match p.body with
    | .fwPolicy a b m f => (((s.hwr polMinSvnHub a.toNat).hwr polMinSvnBundle b.toNat).hwr polFwSigners (m.toNat % 16)).hwr polReqOpsig (f.toNat % 2)
    | _ => s))

/-- FUSE_WRITE (R32, R589): programmed at the next instar 2. -/
def execFuseWrite (s : State) : Result :=
  .next (s.policyApply 6 (fun s p => match p.body with
    | .fuses rs => (s.updRot (fun r => { r with fuses := r.fuses ++ rs })).hwr polFusePend 1
    | _ => s))

/-- RECORD_CLEAR (R41, R237, R269, R467, R500, R515, R589): in effect at the next boot. -/
def execRecordClear (s : State) : Result :=
  .next (s.policyApply 7 (fun s p => match p.body with
    | .clear mask site => s.updRot (fun r => { r with clears := r.clears ++ [(mask, site)] })
    | _ => s))

/-- KEY_HIERARCHY (R576, R589): the sealing epoch advances, modulo 2^16, and the store is sealed under the new key. -/
def execKeyHierarchy (s : State) : Result :=
  .next (s.policyApply 8 (fun s _ =>
    let s1 := s.inc 264 polSealEpoch
    if s.hrd polSealed = 0 then s1.updRot (fun r => { r with sk := s1.sealKey }) else s1))

/-- RWQ_WRITE (R14, R589, R595). -/
def execRwqWrite (s : State) : Result :=
  .next (s.policyApply 9 (fun s p => match p.body with
    | .rwq off lo v => (match rwqField off lo with | some f => s.hwr f v.toNat | none => s)
    | _ => s))

/-- POL_COUNTER_LO_READ (R595). -/
def execPolCounterLoRead (s : State) : Result := .next (if !s.hub.feed.mainGood then s else s.pairRead .hub 264 0x34004)

end Sys2Proof.Machine
end

