-- ==== Sys2Proof/Machine/MgmtInsn.lean ====
section
/-! DEFINITION. Hub firmware's watchdog and restarts, load shedding, telemetry, out-of-band management, firmware updates, the debug
pins (chapter 22, R593). -/

namespace Sys2Proof.Machine

/-! ### Restarts (R600–R602) -/

/-- SCORE_KICK (R600). -/
def execScoreKick (s : State) : Result :=
  .next (if s.hub.score.fwUp then s.updHub (fun h => { h with score := { h.score with kickAt := s.now } }) else s)

/-- An inbound class A message ends TIMEOUT, taken or not (R601). -/
def State.mbaDrop (s : State) (f : Nat) : State :=
  let p := fnPlace f
  if s.rd p mbaInPend = 0 ∧ s.rd p mbaInTaken = 0 then s
  else ((((s.wr p mbaInPend 0).wr p mbaInTaken 0).wr p mbaInTimeout 1).updFn f (fun x => { x with mbaIn := none })).mbaIrq f

/-- A class B message ends TIMEOUT, taken or not (R601). -/
def State.mbbDrop (s : State) (k m : Nat) : State :=
  if s.hrd (mbbPend k m) = 0 ∧ s.hrd (mbbTaken k m) = 0 then s else s.mbbEnd k m 1 0

/-- Restarts that put the panel into cocoon: the third within an hour (R600). -/
def hourNs : Nat := 3600000000000

/-- SCORE restarts the hub cores (R600, R601). -/
def State.fwRestart (s : State) : State :=
  let l := s.hub.score.restarts.filter (fun t => decide (s.now < t + hourNs)) ++ [s.now]
  let s1 := (s.inc 264 fwRestarts).updHub (fun h => { h with score := { h.score with fwUp := false, restarts := l } })
  let s2 := s1.bb srcScore 0x0801 1 0x1F0 31 0 (bytesLE 2 (s1.hrd fwRestarts))
  if 3 ≤ l.length ∧ s.hrd bootPhase ≠ 3 then s2.cocoon 2 (decide (s.hrd bootImago = 1)) true
  else
    let s3 := (s2.hub.cmds.filter (·.fw)).foldl (fun s c => s.endCmd c scAborted (if c.opc = 0x13 ∨ c.opc = 0x14 then bytesLE 4 c.bytes else [])) s2
    let s4 := (List.range 50).foldl (fun s f => (s.mbaDrop f).updFn f (fun x => { x with sessions := [] })) s3
    let s5 := (List.range 24).foldl (fun s k => (List.range 4).foldl (fun s m => s.mbbDrop k m) s) s4
    s5.updRot (fun r => { r with sessions := [], chunks := [], pkts := [] })

/-- SCORE_WATCHDOG_EXPIRY (R600): 50 ms without a kick. -/
def execScoreWatchdogExpiry (s : State) : Result :=
  .next (if s.hub.score.fwUp then (s.till (s.hub.score.kickAt + 50000000)).fwRestart else s)

/-- FW_UNRECOVERABLE_ERROR (R600). -/
def execFwUnrecoverableError (s : State) : Result := .next (if s.hub.score.fwUp then s.fwRestart else s)

/-- FW_RESTARTED (R486, R600, R601, R609): hub firmware runs again from the copy verified at boot. -/
def execFwRestarted (s : State) : Result :=
  .next (if s.hub.score.fwUp || s.hub.score.restarts == [] || !s.hub.feed.mainGood then s
    else
      let s1 := s.updHub (fun h => { h with
        score := { h.score with fwUp := true, kickAt := s.now }
        hb := (List.range 269).foldl (fun t n => if s.timed n then t.put 0 n s.now else t) h.hb
        molt := Table.mapListed {} h.molt (fun _ m => if m.ldies = [] then m else { m with at_ := s.now }) })
      s1.mbaPfs 0x0102 (s1.hrd fwRestarts))

/-- SCORE_MISMATCH (R602): a second mismatch within 1 s enters cocoon. -/
def execScoreMismatch (s : State) : Result :=
  let again := match s.hub.score.mismatchAt with | some t => decide (s.now < t + 1000000000) | none => false
  .next (if !s.hub.feed.mainGood then s
    else
      let s1 := ((s.inc 264 scoreResets).bb srcScore 0x0802 1 0x1F0 31 0 []).updHub (fun h => { h with score := { h.score with mismatchAt := some s.now } })
      if again && decide (s.hrd bootPhase ≠ 3) then s1.cocoon 2 (decide (s.hrd bootImago = 1)) true else s1)

/-! ### Shedding and telemetry (R599, R604) -/

/-- The shed level that follows `cur` (R599). -/
def State.shedNext (s : State) (occ : Nat) : Nat :=
  let cur := s.hrd fwShed
  let b := s.hrd fwBacklog
  if s.hrd fwHwm ≤ b then 2
  else if cur = 2 then (if 2 * b < s.hrd fwHwm then 1 else 2)
  else if cur = 1 then (if occ < 60 then 0 else 1)
  else if 80 < occ then 1 else 0

/-- SHED_LEVEL_EVAL (R599, R603): the shares of the cores over the last 100 ms. -/
def execShedLevelEval (c0 c1 c2 c3 : Fin 101) (s : State) : Result :=
  .next (if !s.hub.score.fwUp then s
    else
      let s1 := (((s.hwr fwC0Pct c0.val).hwr fwC1Pct c1.val).hwr fwC2Pct c2.val).hwr fwC3Pct c3.val
      let v := s.shedNext (c2.val + c3.val)
      let s2 := s1.hwr telDecim (if v = 0 then 1 else if v = 1 then 10 else 100)
      if v = s.hrd fwShed then s2 else ((s2.hwr fwShed v).bb srcFw 0x0803 0 0x1F0 31 v []).mbaPfs 0x0103 v)

/-- A telemetry record of number `q` (R604). -/
def State.telRecord (s : State) (q : Nat) : List Byte :=
  let sum := fun (l : List Nat) => l.foldl (· + ·) 0
  let slip := sum ((List.range 24).map (fun p => (s.part p).sch.slip.toNat))
  let fab := sum (s.nodes.map (fun kv => kv.2.fab.ce.toNat))
  let spm := sum (s.tiles.map (fun kv => sum (kv.2.spm.ceCnt.map (fun c => c.2.toNat))))
  let sn := sum (s.snodes.map (fun kv => kv.2.ce.toNat))
  let dark := ((List.range 24).filter (fun k => s.sectorDark k)).length
  let b := bytesLE 8 s.tb ++ bytesLE 2 (s.hrd pmgrPin1s) ++ bytesLE 2 (s.hrd pmgrLimitW) ++ bytesLE 2 (s.hrd thmTIn) ++ bytesLE 2 (s.hrd thmTOut)
    ++ bytesLE 2 (s.hrd thmFlow) ++ bytesLE 2 (s.hrd thmHotV) ++ bytesLE 2 (s.hrd thmHotSite + 2048 * s.hrd thmHotIdx)
    ++ bytesLE 1 s.sparesLeft ++ bytesLE 1 dark ++ bytesLE 4 (s.reg 264 4).toNat ++ bytesLE 4 slip ++ bytesLE 4 fab ++ bytesLE 4 spm ++ bytesLE 4 sn
    ++ bytesLE 2 (s.hrd fltRrReasons) ++ bytesLE 2 (s.hrd pmgrCuts) ++ bytesLE 4 q ++ List.replicate 8 0
  b ++ bytesLE 4 (crc32 b)

/-- TELEMETRY_WRITE (R599, R604): the record goes to the place that TEL_SEQ names, then TEL_SEQ advances (assumption log 76). -/
def execTelemetryWrite (s : State) : Result :=
  .next (if !s.hub.score.fwUp then s
    else
      let s1 := s.till (s.hub.score.telBeat + 1000000 * s.hrd telPeriod * s.hrd telDecim)
      let q := (s1.hrd telSeq + 1) % 2 ^ 32
      (s1.updHub (fun h => { h with
        sram := h.sram.putList 0 (0x80000 + 64 * (s1.hrd telSeq % 4096)) (s1.telRecord q), score := { h.score with telBeat := s1.now } })).hwr telSeq q)

/-! ### Out-of-band management (R605, R606) -/

/-- MCTP_SET_ENDPOINT_ID (R605). -/
def execMctpSetEndpointId (eid : Byte) (s : State) : Result :=
  .next (if s.hub.feed.stby then s.updHub (fun h => { h with score := { h.score with eid := eid } }) else s)

/-- A vendor-defined command is answered over MCTP with its completion code (R606): 0 OK, 1 UNAVAILABLE, 2 REFUSED, 3 BAD_PARAM. -/
def State.vdm (s : State) (code : Nat) (bs : List Byte) : State := s.emit (.mgmt 50 code bs)

/-- Words that REG_READ gives on standby power alone. -/
def standbyWord (off : Nat) : Bool := decide (0x2000 ≤ off ∧ off < 0x2100) || decide (off = 0x30000) || decide (off = 0x33000)

/-- VDM_REG_READ (R606). -/
def execVdmRegRead (off : BitVec 24) (n : Nat) (s : State) : Result :=
  let o := off.toNat
  .next (if !s.hub.feed.stby then s
    else if n = 0 ∨ 16 < n ∨ o % 4 ≠ 0 ∨ 2 ^ 24 < o + 4 * n then s.vdm 3 []
    else if !s.hub.feed.mainGood && !(List.range n).all (fun i => standbyWord (o + 4 * i)) then s.vdm 1 []
    else (s.latch .hub o n).vdm 0 ((s.tgtWords .hub o n).flatMap (fun w => bytesLE 4 w.toNat)))

/-- VDM_REG_WRITE (R573, R603, R606). -/
def execVdmRegWrite (t : VdmTarget) (v : W32) (s : State) : Result :=
  .next (if !s.hub.feed.stby then s
    else if !s.hub.feed.mainGood then s.vdm 1 []
    else match t with
    | .fltCfg => (s.writeWord 264 0x30004 v).vdm 0 []
    | .glycol => (s.hwr thmGlycolPct (min 30 v.toNat)).vdm 0 []
    | .tjThrottle => (s.hwr thmTjThrottle (clampNat 80 95 v.toNat)).vdm 0 []
    | .fwHwm => (s.hwr fwHwm (clampNat 64 1000 v.toNat)).vdm 0 []
    | .telPeriod => (s.hwr telPeriod (clampNat 1 1000 v.toNat)).vdm 0 []
    | .other => s.vdm 2 [])

/-- VDM_BB_INFO (R606, R612). -/
def execVdmBbInfo (s : State) : Result :=
  .next (if !s.hub.feed.stby then s else s.vdm 0 ((List.range 5).flatMap (fun i => bytesLE 4 (s.reg 264 (0x1000 + 4 * i)).toNat)))

/-- VDM_BB_READ (R606, R614): the records held of `n` numbers in a row. -/
def execVdmBbRead (copy : Byte) (first : W32) (n : Byte) (s : State) : Result :=
  let m := s.bbCopy (copy == 1)
  .next (if !s.hub.feed.stby then s
    else if 1 < copy.toNat ∨ n = 0 ∨ 16 < n.toNat then s.vdm 3 []
    else if !m.readable then s.vdm 1 []
    else s.vdm 0 (((List.range n.toNat).filterMap (fun i => m.find (first.toNat + i))).flatMap BbRec.bytes))

/-- VDM_COCOON (R461, R498, R606). -/
def execVdmCocoon (s : State) : Result :=
  .next (if !s.hub.feed.stby then s else if !s.hub.feed.mainGood then s.vdm 2 [] else (s.vdm 0 []).cocoonAsked)

/-- VDM_WARM_RESET (R496, R497, R606). -/
def execVdmWarmReset (s : State) : Result :=
  .next (if !s.hub.feed.stby then s else if !s.hub.feed.mainGood then s.vdm 2 [] else (s.vdm 0 []).warm)

/-- VDM_POLICY_CHUNK (R589, R590, R606): bytes at an offset of the packet; the chunk flagged last submits it, and `last` is the packet as
the ROT reads it. -/
def execVdmPolicyChunk (off : Nat) (bs : List Byte) (last : Option PolicyPkt) (s : State) : Result :=
  .next (if !s.hub.feed.stby then s
    else if !s.hub.feed.mainGood then s.vdm 2 []
    else if 1024 < bs.length ∨ 65536 < off + bs.length then s.vdm 3 []
    else
      let s1 := s.updRot (fun r => { r with chunks := r.chunks.putList 0 off bs })
      match last with
      | none => s1.vdm 0 []
      | some p => ((s1.updRot (fun r => { r with chunks := [] })).policyArrive ⟨none, off + bs.length, p⟩).vdm 0 [])

/-! ### Firmware updates (R578, R579, R608, R610) -/

/-- The slot that does not run, changed. -/
def State.updSlot (s : State) (f : FwSlot → FwSlot) : State :=
  s.updHub (fun h => { h with bbx := if s.hrd hubFwSlot = 0 then { h.bbx with slotB := f h.bbx.slotB } else { h.bbx with slotA := f h.bbx.slotA } })

/-- An update can be taken: firmware runs and the hub-side MRAM can be written. -/
def State.updating (s : State) : Bool := s.hub.score.fwUp && s.hub.bbx.hub.readable

/-- PLDM_FW_DATA (R608): bytes of the image for the slot not running. -/
def execPldmFwData (off : Nat) (bs : List Byte) (s : State) : Result :=
  .next (if !s.updating then s
    else if slotBytes < off + bs.length then s.vdm 1 []
    else (s.updSlot (fun x => { x with valid := false, img := x.img.putList 0 off bs })).vdm 0 [])

/-- PLDM_VERIFY_COMPLETE (R578, R579, R608): what the new image's signature block names, and whether its signatures verify. -/
def execPldmVerifyComplete (sigOk : Bool) (svn : W16) (signer : Fin 4) (opSig : Bool) (s : State) : Result :=
  .next (if !s.updating then s
    else if sigOk && s.policyOk (s.hrd polMinSvnHub) svn.toNat signer.val opSig then
      (s.updSlot (fun x => { x with valid := true, svn := svn, signer := BitVec.ofNat 2 signer.val, opSig := opSig })).vdm 0 []
    else (s.updSlot (fun _ => {})).vdm 1 [])

/-- PLDM_ACTIVATE_FIRMWARE (R608): at the next reset; self-contained activation is not offered. -/
def execPldmActivateFirmware (selfContained : Bool) (s : State) : Result :=
  .next (if !s.updating then s else s.vdm (b2n selfContained) [])

/-! ### Repairs (R237–R239, R269) -/

/-- REPAIR_REPORT (R235, R237–R239, R268, R269, R610): hub firmware appends the record of the oldest repair it was told of. A row's repair is
written into the black box too, under a code that R611 does not name (assumption log 101). -/
def execRepairReport (s : State) : Result :=
  let isRepair := fun (c : CtlPkt) => match c.body with
    | .msg (.spmRepair ..) => true
    | .msg (.stackRepair ..) => true
    | _ => false
  .next (if !s.hub.score.fwUp then s
    else match s.hub.inbox.find? isRepair with
    | none => s
    | some c =>
      let s1 := s.updHub (fun h => { h with inbox := h.inbox.eraseP isRepair })
      match c.body with
      | .msg (.spmRepair t bank row retire) =>
        (match s.siteOf (tileDie t) with
         | none => s1
         | some site =>
           let r := spmRec site (s.physTile site (t % 16)) bank row (b2n retire)
           let s2 := s1.mramAppend (fun m => { m with spmRep := m.spmRep ++ [r] })
           s2.bb srcFw (if retire then 0x0602 else 0x0600) (if retire then 1 else 0) site (s.partOfNode (tileDie t)) 0 (bytesLE 8 r.toNat))
      | .msg (.stackRepair k q chunk kind) =>
        let r := stkRec k q chunk kind
        let s2 := s1.mramAppend (fun m => { m with stkRep := m.stkRep ++ [r] })
        if kind = 0 then s2.bb srcFw 0x0600 0 (s.siteCode (stackNode k)) (s.partOfSector k) 0 (bytesLE 8 r.toNat) else s2
      | _ => s1)

/-! ### Reads without firmware (R593, R614) -/

/-- Byte `i` of record `k` of a region (R610, R611). -/
def regionByte (l : List BbRec) (k i : Nat) : Byte := match l[k]? with | some r => r.bytes.getD i 0 | none => 0

/-- Where in the list of the wrap region the record at position `k` stands: the oldest record follows those that were overwritten. -/
def Mram.wrapIndex (m : Mram) (k : Nat) : Nat :=
  let n := m.wrap.length
  if n ≤ k then k else (k + n - m.wrapStart % n) % n

/-- A byte of an MRAM (R610); the tables' places within their megabyte are not given: free (assumption log 77). -/
def State.mramByte (s : State) (east : Bool) (a i : Nat) : Byte :=
  let m := s.bbCopy east
  let slot := if a < 0x880000 then s.hub.bbx.slotA.img.get 0 (a - 0x100000) else s.hub.bbx.slotB.img.get 0 (a - 0x880000)
  if a < 0x100000 then Config.freeByte s.freeCtr i
  else if a < 0x1000000 then (if east then 0 else slot)
  else if a < 0x1800000 then regionByte m.perm ((a - 0x1000000) / 256) (a % 256)
  else regionByte m.wrap (m.wrapIndex ((a - 0x1800000) / 256)) (a % 256)

/-- SERVICE_SPI_READ (R610, R614): the tray service tool reads `n` bytes of an MRAM; `low` is SVC_EN_N held low. -/
def execServiceSpiRead (east low : Bool) (off : BitVec 26) (n : Fin 65) (s : State) : Result :=
  .next (if s.hub.feed.stby || !low then s
    else (s.emit (.mgmt 51 0 ((List.range n.val).map (fun i => s.mramByte east ((off.toNat + i) % 2 ^ 26) i)))).drawn)

/-- The debug level that an access needs (R593). -/
def debugLevel : DebugAccess → Nat
  | .bypass => 0 | .idcode => 0 | .sample => 0
  | .reg _ _ => 1 | .fuse _ => 1 | .record _ _ => 1
  | .memRead _ _ _ => 2 | .memWrite _ _ _ => 2 | .scan => 2 | .extest => 2

/-- What an access reads (R593); the device's code, the pins and a scan's bits are free. -/
def State.debugRead (s : State) (a : DebugAccess) : List Byte :=
  match a with
  | .bypass => [0]
  | .reg t off => bytesLE 4 (s.tgtWord t (off / 4 * 4))
  | .fuse k => bytesLE 16 (s.idRecord k.val).toNat
  | .record east q => (match (s.bbCopy east).find q.toNat with | some r => r.bytes | none => [])
  | .memRead (.tile t) off len => ((s.tile t).spm.read off len).2.1
  | .memRead (.stack k) off len => (s.stack k).decipher k off ((s.stack k).read off len s.now s.freeCtr).2.1
  | .memRead .hub off len => s.hub.sram.getList 0 off len
  | .memRead _ _ _ => []
  | .memWrite _ _ _ => []
  | _ => (List.range 4).map (fun i => Config.freeByte s.freeCtr i)

/-- What an access writes (R593). -/
def State.debugWrite (s : State) (a : DebugAccess) : State :=
  match a with
  | .memWrite (.tile t) off bs => s.updTile t (fun x => { x with spm := x.spm.write off bs false })
  | .memWrite (.stack k) off bs => s.updStack k (fun x =>
    (if x.key = x.mkey ∧ x.bkey = [] then x else x.rekey k off bs.length).write off bs false s.now s.freeCtr)
  | .memWrite .hub off bs => s.updHub (fun h => { h with sram := h.sram.putList 0 off bs })
  | _ => s

/-- PROBOSCIS_ACCESS (R593): code 0 where POL_DEBUG allows it, 1 where it reaches nothing. -/
def execProboscisAccess (a : DebugAccess) (s : State) : Result :=
  .next (if !s.hub.feed.mainGood then s
    else if s.hrd polDebug < debugLevel a then s.emit (.mgmt 52 1 [])
    else ((s.debugWrite a).emit (.mgmt 52 0 (s.debugRead a))).drawn)

end Sys2Proof.Machine
end

