-- ==== Sys2Proof/Machine/MxaInsn.lean ====
section
/-! DEFINITION. The matrix array's instructions and its events (R118–R155). -/

namespace Sys2Proof.Machine

/-- MMA (R123): it enters the MXA queue. -/
def execMma (t : TileNo) (s : State) : Result := .next (s.issueAs .mma t.val (doQueued t.val))
/-- MDRAIN (R140): it enters the MXA queue. -/
def execMdrain (t : TileNo) (s : State) : Result := .next (s.issueAs .mdrain t.val (doQueued t.val))
/-- RBLOAD (R126): it enters the MXA queue. -/
def execRbload (t : TileNo) (s : State) : Result := .next (s.issueAs .rbload t.val (doQueued t.val))
/-- RBSHIFT (R128): it enters the MXA queue. -/
def execRbshift (t : TileNo) (s : State) : Result := .next (s.issueAs .rbshift t.val (doQueued t.val))
/-- POSLD (R152): it runs when it reaches the head. -/
def execPosld (t : TileNo) (s : State) : Result := .next (s.issueAs .posld t.val (doQueued t.val))
/-- POSGEN (R152): it runs when it reaches the head. -/
def execPosgen (t : TileNo) (s : State) : Result := .next (s.issueAs .posgen t.val (doQueued t.val))
/-- MXSET (R155): it runs when it reaches the head. -/
def execMxset (t : TileNo) (s : State) : Result := .next (s.issueAs .mxset t.val (doQueued t.val))
/-- MFENCE (R149): it leaves the head once every earlier drain has ended. -/
def execMfence (t : TileNo) (s : State) : Result := .next (s.issueAs .mfence t.val (doQueued t.val))

/-- A drain to the VXE is in progress on bank `b`. -/
def Mxa.vxeDrainOn (m : Mxa) (b : Bool) : Bool := m.drains.any (fun d => bit d.insn.w 103 && bit d.insn.w 104 == b)

/-- A drain of bank `b` to the scratchpad that will clear what the bank held: a following MMA takes the clearing first,
since its first write falls after the drain's last read (R132, R150). -/
def Mxa.clearBefore (m : Mxa) (b : Bool) : Mxa :=
  if m.drains.any (fun d => bit d.insn.w 104 == b && !bit d.insn.w 101 && !d.cleared) then
    { (m.setBank b (m.bank b).clearDrained) with
      drains := m.drains.map (fun d => if bit d.insn.w 104 == b then { d with cleared := true } else d) }
  else m

/-- The MMA at the head starts in the veins (R119, R131, R132, R150). -/
def State.mmaStart (s : State) (t : Nat) (i : QInsn) (fa fw : Fmt) (md : Mode) : State :=
  s.guardRanges t 1 i.pc.toNat (mmaRanges i.w fw md) (fun s =>
    let x := s.tile t
    let b := bit i.w 103
    let m := x.mxa.clearBefore b
    let r := x.spm.readRanges (mmaRanges i.w fw md)
    let inp : MmaIn := ⟨r.2.1.getD 0 [], r.2.1.getD 1 [], r.2.1.getD 2 [], r.2.2⟩
    let y := m.mma i.w inp fa fw md
    let m' := m.setBank b { y.1 with st := .accum }
    (s.setTile t { x with spm := r.1, mxa := { m'.pop with
      veins := m'.veinsFree.veins ++ [⟨b, i.pc, y.2, mmaRanges i.w fw md, decide (0 < fld i.w 58 48)⟩] } }).mxaSettle t)

/-- MMA_VEIN_START (R150): the MMA at the head starts once no drain to the VXE holds its bank. -/
def execMmaVeinStart (t : TileNo) (s : State) : Result :=
  let m := (s.tile t.val).mxa
  .next (match m.q with
    | [] => s
    | i :: _ =>
      if insnKind i.w ≠ some .mma ∨ m.vxeDrainOn (bit i.w 103) then s
      else match mmaMode i.w with
        | none => s
        | some (fa, fw, md) => s.mmaStart t.val i fa fw md)

/-- MMA_COMPLETE (R133, R147): the oldest MMA ends; its bank is READY unless a later MMA on it is under way, and its flags
are ORed. -/
def execMmaComplete (t : TileNo) (s : State) : Result :=
  .next (s.updTile t.val (fun x =>
    match x.mxa.veins with
    | [] => x
    | r :: rest =>
      let f := x.mxa.orFlags r.cflags
      let b := f.1.bank r.bank
      let m := if rest.any (fun q => q.bank == r.bank) then f.1
        else f.1.setBank r.bank { b with st := if b.st = .accum then .ready else b.st }
      ({ x with mxa := { m with veins := rest } }).raiseFlags f.2))

/-- Rows of a drain to the VXE that the drain queue has room for (R145). -/
def Tile.deliver (x : Tile) : Nat → Tile
  | 0 => x
  | n + 1 =>
    match x.mxa.drains.find? (fun d => bit d.insn.w 103 && decide (d.row < 64)) with
    | none => x
    | some d =>
      if 8 ≤ x.vxe.dq.length then x
      else
        let r := (x.mxa.bank (bit d.insn.w 104)).row d.insn.w x.srKey d.row
        let cf := r.2.zipIdx.foldl (fun t f => if f.1 = 0 then t else Table.upd 0 t f.2 (· ||| f.1)) d.cflags
        Tile.deliver { x with
          vxe := { x.vxe with dq := x.vxe.dq ++ [r.1] }
          mxa := { x.mxa with drains := x.mxa.drains.map (fun e => if e = d then { d with row := d.row + 1, cflags := cf } else e) } } n

/-- The drain at the head starts (R140–R145): to the scratchpad its lines are written, to the VXE its first rows go out. A
line that may not be written abandons the drain, and leaves every byte it would have written undefined (R153). -/
def State.drainBegin (s : State) (t : Nat) (i : QInsn) : State :=
  let b := bit i.w 104
  let rs := ((s.tile t).mxa.bank b).drainRanges i.w
  match (s.tile t).spm.refusedAny rs with
  | some f => (s.updTile t (fun x => { x with mxa := { x.mxa with drains := x.mxa.drains ++ [⟨i, 0, [], false, rs⟩] } })).bankFault t f 1 i.pc.toNat
  | none =>
    let x := s.tile t
    let m := (x.mxa.setBank b { x.mxa.bank b with st := .draining }).pop
    if bit i.w 103 then
      ((s.setTile t ({ x with mxa := { m with drains := m.drains ++ [⟨i, 0, [], false, []⟩] } })).updTile t (fun x => x.deliver 8)).mxaSettle t
    else match Fmt.ofCode (fld i.w 111 108) with
      | none => s
      | some d =>
        let r := drainToSpm (x.mxa.bank b) i.w d x.srKey x.spm
        (s.setTile t { x with spm := r.1, mxa := { m with drains := m.drains ++ [⟨i, 64, r.2, false, rs⟩] } }).mxaSettle t

/-- DRAIN_START (R140): the drain at the head starts once its bank is READY and, for the VXE, no other drain delivers. -/
def execDrainStart (t : TileNo) (s : State) : Result :=
  let m := (s.tile t.val).mxa
  .next (match m.q with
    | [] => s
    | i :: _ =>
      if insnKind i.w = some .mdrain ∧ (m.bank (bit i.w 104)).st = .ready
          ∧ !(bit i.w 103 && (m.vxeDrainOn false || m.vxeDrainOn true)) then s.drainBegin t.val i
      else s)

/-- DRAIN_RESUME (R145): the drain queue has room, and rows go out again. -/
def execDrainResume (t : TileNo) (s : State) : Result := .next (s.updTile t.val (fun x => x.deliver 8))

/-- A drain's end on its bank (R132, R133, R146). -/
def Bank.drained (b : Bank) (retain cleared : Bool) : Bank :=
  let b' := if retain || cleared then b else b.clearDrained
  { b' with st := if b.st = .draining then (if retain then .ready else .idle) else b.st }

/-- DRAIN_END (R132, R147): the oldest drain whose rows are all out ends. -/
def execDrainEnd (t : TileNo) (s : State) : Result :=
  let x := s.tile t.val
  .next (match x.mxa.drains.find? (fun d => decide (64 ≤ d.row)) with
    | none => s
    | some d =>
      let b := bit d.insn.w 104
      let f := x.mxa.orFlags d.cflags
      let m := f.1.setBank b ((f.1.bank b).drained (bit d.insn.w 101) d.cleared)
      (s.setTile t.val (({ x with mxa := { m with drains := m.drains.erase d } }).raiseFlags f.2)).mxaSettle t.val)

/-- RBLOAD_COMPLETE (R126, R127): the RBLOAD at the head has copied its rows. -/
def execRbloadComplete (t : TileNo) (s : State) : Result :=
  .next (match (s.tile t.val).mxa.q with
    | [] => s
    | i :: _ =>
      if insnKind i.w ≠ some .rbload then s
      else s.guardRanges t.val 1 i.pc.toNat (rbloadRanges i.w) (fun s =>
        let x := s.tile t.val
        let r := rbload i.w 0 (fld i.w 76 70) (x.mxa, x.spm)
        (s.setTile t.val { x with mxa := r.1.pop.veinsFree, spm := r.2 }).mxaSettle t.val))

/-- The tail range of an RBSHIFT (R128). -/
def rbshiftTail (w : Insn) : Nat × Nat :=
  match Fmt.ofCode (fld w 111 108) with
  | some f => if bit w 103 then (fld w 23 0, fld w 107 104 * f.bits / 8) else (0, 0)
  | none => (0, 0)

/-- RBSHIFT_COMPLETE (R128): the RBSHIFT at the head has shifted the chain. -/
def execRbshiftComplete (t : TileNo) (s : State) : Result :=
  .next (match (s.tile t.val).mxa.q with
    | [] => s
    | i :: _ =>
      if insnKind i.w ≠ some .rbshift then s
      else s.guardRanges t.val 1 i.pc.toNat [rbshiftTail i.w] (fun s =>
        let x := s.tile t.val
        let r := x.spm.readUse (rbshiftTail i.w).1 (rbshiftTail i.w).2
        (s.setTile t.val { x with mxa := (x.mxa.pop.shift i.w r.2.1 r.2.2).veinsFree, spm := r.1 }).mxaSettle t.val))

end Sys2Proof.Machine
end

