-- ==== Sys2Proof/Machine/SegInsn.lean ====
section
/-! DEFINITION. Requests at their targets, closes of windows, register accesses over the control network, and plain register
writes (R14, R67–R77, R299–R308). -/

namespace Sys2Proof.Machine

/-- SEGMENT_ARRIVAL (R47–R49, R67, R68, R299–R302): request `g` arrives at target `t`. -/
def execSegmentArrival (t : Tgt) (g : Segment) (s : State) : Result :=
  if segOk t g then .next (s.arriveSeg t g) else .fault .illFormed

/-- SEGMENT_WRITE_VISIBLE (R70, R76, R77): accepted segment `i` of a memory takes effect. -/
def execSegmentWriteVisible (t : Tgt) (i : Nat) (s : State) : Result :=
  .next ((s.segVisible t i).hostPoll (s.segPart t 0))

/-- CLOSE_COMPLETE (R70, R204, R262): closes of which no accepted segment remains end. -/
def execCloseComplete (t : Tgt) (s : State) : Result := .next ((s.settleUnit t).hostPoll (s.segPart t 0))

/-- A close of a cell command has timed out at a member (R89). -/
def State.cellTimeout (s : State) (w : Window) : State :=
  let ids := w.pend.filterMap (fun p => match p.dest with
    | .cell id => if p.quiesce && p.gen == w.gen then some id else none
    | _ => none)
  s.updHub (fun h => { h with cellRun := h.cellRun.map (fun c => if ids.contains c.id then { c with status := stQuiesceTimeout } else c) })

/-- QUIESCE_TIMEOUT (R72, R204, R262): the window closes with that status. -/
def execQuiesceTimeout (t : Tgt) (i : Nat) (s : State) : Result :=
  let v := (s.unit t).window i
  .next (if v.st = .quiescing then
    ((((s.till v.qdead).cellTimeout v).updUnit t (fun u => u.shut i stQuiesceTimeout)).settleUnit t).hostPoll (s.segPart t 0)
  else s)

/-- The die-cell that a control-network access reaches (R308). -/
def ctlNode (t : CtlTgt) : Nat :=
  match t with
  | .tile t => tileDie t.val
  | .die n => n.val

/-- Where a control-network access lands among the targets of a read. -/
def ctlTgt (t : CtlTgt) : Tgt :=
  match t with
  | .tile t => .tileReg t.val
  | .die n => if n.val < 264 then .dieReg n.val else if n.val = 264 then .hub else .port (n.val - 265)

/-- A register access of 4–64 bytes at a word boundary (R308). -/
def ctlOk (off n : Nat) : Bool := decide (off % 4 = 0) && decide (1 ≤ n ∧ n ≤ 16)

/-- The access lies within the register space of what it reaches (R55). -/
def ctlInside (t : CtlTgt) (off n : Nat) : Bool := decide (off + 4 * n ≤ (ctlTgt t).size)

/-- CTL_REG_RD (R308): `n` words from `off`, answered by REG_RSP with the code of R67: OUT_OF_BOUNDS beyond the register space. -/
def execCtlRegRd (t : CtlTgt) (tag : Byte) (off n : Nat) (s : State) : Result :=
  if ctlOk off n then
    (let s1 := if ctlInside t off n then s.latch (ctlTgt t) off n else s
     let body := if ctlInside t off n then CtlBody.regRsp tag rcOk (s1.tgtWords (ctlTgt t) off n) else .regRsp tag rcOutOfBounds []
     .next { s1 with ctlq := s1.ctlq ++ [⟨ctlNode t, body⟩] })
  else .fault .illFormed

/-- CTL_REG_WR (R308, R316): words written from `off` on, answered by REG_RSP. -/
def execCtlRegWr (t : CtlTgt) (tag : Byte) (off : Nat) (vs : List W32) (s : State) : Result :=
  if ctlOk off vs.length then
    (let s1 := if ctlInside t off vs.length then s.ctlWrite t off vs else s
     .next { s1 with ctlq := s1.ctlq ++ [⟨ctlNode t, .regRsp tag (if ctlInside t off vs.length then rcOk else rcOutOfBounds) []⟩] })
  else .fault .illFormed

/-- CTL_MBX (R308, R412, R414): a PUT into a class B mailbox block arrives over the control network; the hub answers it with the
code of R67. -/
def execCtlMbx (g : Segment) (s : State) : Result :=
  if g.op = .put ∧ segOk .hub g ∧ 0x40000 ≤ g.off ∧ g.off < 0x41800 then
    .next (match s.segCheck .hub g with
      | some c => (s.rejectSeg .hub g).answer g ⟨c, [], false, 0⟩
      | none => s.acceptSeg .hub g)
  else .fault .illFormed

/-- REGISTER_WRITE (R14, R410): fields without behaviour of their own, by access type. A function whose Bus Master Enable
falls is handled by R403. -/
def execRegisterWrite (p : RegPlace) (off : Nat) (v : W32) (s : State) : Result :=
  .next (match p with
    | .cfg f => if off = 4 ∧ (s.fn f.val).busMaster ∧ !bit v 2 then s.bmeClear f.val else s.writePlain p off v
    | .die n =>
      (let s1 := s.writePlain p off v
       if 265 ≤ n.val ∧ 0x100010 ≤ off ∧ off < 0x100020 ∧ bit v 5 then s1.retrain (n.val - 265) ((off - 0x100010) / 4) else s1)
    | _ => s.writePlain p off v)

end Sys2Proof.Machine
end

