-- ==== Sys2Proof/Machine/TdmaInsn.lean ====
section
/-! DEFINITION. The tile DMA's instructions and the start of its operations (R47, R208–R211). -/

namespace Sys2Proof.Machine

/-- TTGT (R208). -/
def execTtgt (t : TileNo) (s : State) : Result := .next (s.issueAs .ttgt t.val (doTtgt t.val))
/-- PUT (R47, R208). -/
def execPutOp (t : TileNo) (s : State) : Result := .next (s.issueAs .put t.val (doRemote .put t.val))
/-- GET (R47, R208). -/
def execGetOp (t : TileNo) (s : State) : Result := .next (s.issueAs .get t.val (doRemote .get t.val))
/-- FADD (R47, R208). -/
def execFadd (t : TileNo) (s : State) : Result := .next (s.issueAs .fadd t.val (doRemote .fadd t.val))
/-- CSWAP (R47, R208). -/
def execCswap (t : TileNo) (s : State) : Result := .next (s.issueAs .cswap t.val (doRemote .cswap t.val))
/-- FOR (R47, R208). -/
def execForOr (t : TileNo) (s : State) : Result := .next (s.issueAs .for_ t.val (doRemote .for_ t.val))

/-- TDMA_OP_START (R210, R213): the next queued operation starts once fewer than 64 are outstanding; after an exception
none starts. -/
def execTdmaOpStart (t : TileNo) (s : State) : Result :=
  let x := s.tile t.val
  .next (match x.tdma.q with
    | [] => s
    | o :: rest =>
      if x.seq.st = .exc ∨ 64 ≤ x.tdma.out.length then s
      else (s.setTile t.val { x with tdma := { x.tdma with q := rest } }).startOp t.val o)

end Sys2Proof.Machine
end

