-- ==== Sys2Proof/Machine/VxeInsn.lean ====
section
/-! DEFINITION. The vector engine's instructions and its events (R156–R188). -/

namespace Sys2Proof.Machine

/-- VFA (R163): it enters the VXE queue, as every VXE instruction does. -/
def execVfa (t : TileNo) (s : State) : Result := .next (s.issueAs .vfa t.val (doQueued t.val))
/-- VIA (R164). -/
def execVia (t : TileNo) (s : State) : Result := .next (s.issueAs .via t.val (doQueued t.val))
/-- VCMP (R165). -/
def execVcmp (t : TileNo) (s : State) : Result := .next (s.issueAs .vcmp t.val (doQueued t.val))
/-- VSEL (R166). -/
def execVsel (t : TileNo) (s : State) : Result := .next (s.issueAs .vsel t.val (doQueued t.val))
/-- VKOP (R166). -/
def execVkop (t : TileNo) (s : State) : Result := .next (s.issueAs .vkop t.val (doQueued t.val))
/-- VCVT (R171). -/
def execVcvt (t : TileNo) (s : State) : Result := .next (s.issueAs .vcvt t.val (doQueued t.val))
/-- VTR (R175). -/
def execVtr (t : TileNo) (s : State) : Result := .next (s.issueAs .vtr t.val (doQueued t.val))
/-- VRED (R178). -/
def execVred (t : TileNo) (s : State) : Result := .next (s.issueAs .vred t.val (doQueued t.val))
/-- VSCAN (R179). -/
def execVscan (t : TileNo) (s : State) : Result := .next (s.issueAs .vscan t.val (doQueued t.val))
/-- VXSCAN (R181). -/
def execVxscan (t : TileNo) (s : State) : Result := .next (s.issueAs .vxscan t.val (doQueued t.val))
/-- VCOMB (R180). -/
def execVcomb (t : TileNo) (s : State) : Result := .next (s.issueAs .vcomb t.val (doQueued t.val))
/-- VLD (R168). -/
def execVld (t : TileNo) (s : State) : Result := .next (s.issueAs .vld t.val (doQueued t.val))
/-- VST (R168). -/
def execVst (t : TileNo) (s : State) : Result := .next (s.issueAs .vst t.val (doQueued t.val))
/-- VDQPOP (R170). -/
def execVdqpop (t : TileNo) (s : State) : Result := .next (s.issueAs .vdqpop t.val (doQueued t.val))
/-- VIOTA (R166). -/
def execViota (t : TileNo) (s : State) : Result := .next (s.issueAs .viota t.val (doQueued t.val))
/-- VROT (R166). -/
def execVrot (t : TileNo) (s : State) : Result := .next (s.issueAs .vrot t.val (doQueued t.val))

/-- An instruction of the VXE runs: its results are written, its flags wait for its completion (R185); `mem` are the
scratchpad words it reads or writes. -/
def Vxe.ran (v : Vxe) (i : QInsn) (r : VRes) (mem : List (Nat × Nat)) : Vxe :=
  { v.apply r with run := v.run ++ [⟨i, mem, laneFlags r.lf⟩] }

/-- A VLD or VST whose access is refused (R241): it has started, and the exception abandons it with its destination
undefined (R188). -/
def State.vxeRefused (s : State) (t : Nat) (v : Vxe) (i : QInsn) (rs : List (Nat × Nat)) (f : Nat × Nat) : State :=
  (s.updTile t (fun x => { x with vxe := { v with run := v.run ++ [⟨i, rs, []⟩] } })).bankFault t f 2 i.pc.toNat

/-- A drain to the VXE is in progress or waits in the MXA queue (R170). -/
def Mxa.vxeDrainComing (m : Mxa) : Bool :=
  m.drains.any (fun d => bit d.insn.w 103 && decide (d.row < 64))
    || m.q.any (fun i => insnKind i.w == some .mdrain && bit i.w 103)

/-- The channels of a VXSCAN (R181). -/
def vxChannels (w : Insn) : List Nat := (List.range (fld w 72 68)).map (· + fld w 67 64)

/-- The arrival of lane `l` of a VXSCAN (R181, R183). -/
def Vxe.scanArrival (v : Vxe) (w : Insn) (l : Nat) : Arrival :=
  let aff := vSub w / 4 == 6
  let act := bit (v.mask (vKm w)) l
  let val := (v.lane (vVA w) l).toNat + (if aff then 2 ^ 32 * (v.lane (vVA w + 1) l).toNat else 0)
  let p := bit v.vpoison (vVA w) || (aff && bit v.vpoison (vVA w + 1))
  ⟨.vxscan (vSub w / 4) (fld w 72 68), false, act && p, !act, if act then BitVec.ofNat 64 val else 0⟩

/-- A VXSCAN starts (R181, R183, R206): SYNC_MISMATCH off the domain, else an arrival on each channel, and the wait. -/
def State.vxscanStart (s : State) (t : Nat) (i : QInsn) : State :=
  let chs := vxChannels i.w
  if chs.any (fun c => !s.onChannel t c) then s.raise t exMismatch 2 i.pc.toNat
  else if chs.any (fun c => s.armed t c) then (chs.foldl (fun s c => s.conflict t c) s).raise t exMismatch 2 i.pc.toNat
  else
    let x := s.tile t
    let s1 := chs.zipIdx.foldl (fun s c => s.arrive t c.1 (x.vxe.scanArrival i.w c.2)) s
    s1.updTile t (fun x => { x with
      vxe := { x.vxe with wait := .prefix_ i }, dlv := chs.foldl (fun d c => d.put .none c .none) x.dlv })

/-- The head instruction starts (R168, R170, R184, R188). -/
def State.vxeStart (s : State) (t : Nat) (i : QInsn) (k : InsnKind) : State :=
  let x := s.tile t
  let v := { x.vxe with q := x.vxe.q.tail }
  let pc := i.pc.toNat
  let rs := v.memRanges i.w
  let past := rs.any (fun r => decide (spmTop < r.1 + 4))
  match k with
  | .vld =>
    if past then s.raise t exIllegal 2 pc
    else match x.spm.refusedAny rs with
      | some f => s.vxeRefused t v i rs f
      | none =>
        let r := v.vld i.w x.spm
        s.setTile t { x with spm := r.1, vxe := v.ran i r.2 rs }
  | .vst =>
    if past then s.raise t exIllegal 2 pc
    else match x.spm.refusedAny rs with
      | some f => s.vxeRefused t v i rs f
      | none => s.setTile t { x with spm := v.vst i.w x.spm, vxe := v.ran i {} rs }
  | .vdqpop =>
    (match v.dq with
     | r :: rest => s.setTile t { x with vxe := { v with dq := rest }.ran i (vdqpop i.w r) [] }
     | [] =>
       if x.mxa.vxeDrainComing then s.setTile t { x with vxe := { v with wait := .row i } }
       else s.raise t exDqEmpty 2 pc)
  | .vxscan => (s.setTile t { x with vxe := v }).vxscanStart t i
  | k => s.setTile t { x with vxe := v.ran i (v.compute k i.w x.srKey) [] }

/-- VXE_INSN_START (R184): the head instruction starts, unless its predecessor waits for a row or a prefix. -/
def execVxeInsnStart (t : TileNo) (s : State) : Result :=
  let v := (s.tile t.val).vxe
  .next (match v.q, v.wait with
    | i :: _, .none =>
      match insnKind i.w with
      | some k => s.vxeStart t.val i k
      | none => s
    | _, _ => s)

/-- VXE_INSN_COMPLETE (R185): instruction `n` of those running completes, and its flags are ORed. -/
def execVxeInsnComplete (t : TileNo) (n : Nat) (s : State) : Result :=
  .next (s.updTile t.val (fun x =>
    match x.vxe.run[n]? with
    | none => x
    | some r =>
      let f := x.vxe.orFlags r.lflags
      ({ x with vxe := { f.1 with run := x.vxe.run.eraseIdx n } }).raiseFlags f.2))

/-- VDQPOP_ROW_ARRIVAL (R170): a row has reached the head of the drain queue, and the waiting VDQPOP takes it. -/
def execVdqpopRowArrival (t : TileNo) (s : State) : Result :=
  .next (s.updTile t.val (fun x =>
    match x.vxe.wait, x.vxe.dq with
    | .row i, r :: rest => { x with vxe := { x.vxe with dq := rest, wait := .none }.ran i (vdqpop i.w r) [] }
    | _, _ => x))

/-- What the prefixes write (R182): lanes and bits of KD where the prefix is present and the lane's KM bit is 1; KD bits
from n up are cleared. The written lanes raise the flags of their prefix's combines (R176), and a poisoned prefix in any
lane poisons VD and KD (R183). -/
def Vxe.prefixes (v : Vxe) (w : Insn) (ds : List Deliv) : VRes :=
  let aff := vSub w / 4 == 6
  let got := ds.zipIdx.filterMap (fun d => match d.1 with
    | .prefix_ val _ fl => if bit (v.mask (vKm w)) d.2 then some (d.2, val, fl) else none
    | _ => none)
  { vw := got.flatMap (fun g => (vVD w, g.1, BitVec.ofNat 32 g.2.1.toNat) ::
      (if aff then [(vVD w + 1, g.1, BitVec.ofNat 32 (g.2.1.toNat / 2 ^ 32))] else [])),
    kw := [(vKD w, maskOf (got.map (·.1)))], lf := got.map (fun g => (g.1, g.2.2)), srcK := [vKm w],
    poison := ds.any (fun d => match d with | .prefix_ _ p _ => p | _ => false),
    wr := vVD w :: (if aff then [vVD w + 1] else []) }

/-- VXSCAN_PREFIX_ARRIVAL (R182, R183): every channel has delivered, and VD and KD are written; or a channel reports members
whose operators or counts differ, and SYNC_MISMATCH is raised, whatever the others do, with VD and KD as they were. -/
def execVxscanPrefixArrival (t : TileNo) (s : State) : Result :=
  let x := s.tile t.val
  .next (match x.vxe.wait with
    | .prefix_ i =>
      let ds := (vxChannels i.w).map (fun c => x.dlv.get .none c)
      if ds.contains .mismatch then
        (s.setTile t.val { x with vxe := { x.vxe with wait := .none } }).raise t.val exMismatch 2 i.pc.toNat
      else if ds.contains .none then s
      else s.setTile t.val { x with
        vxe := { x.vxe with wait := .none }.ran i (x.vxe.prefixes i.w ds) []
        dlv := (vxChannels i.w).foldl (fun d c => d.put .none c .none) x.dlv }
    | _ => s)

end Sys2Proof.Machine
end

