-- ==== Sys2Proof/Machine/Dispatch.lean ====
section
/-! DEFINITION. One arm per command. -/

namespace Sys2Proof.Machine

def exec (i : Instr) (s : State) : Host.Outcome State Fault Refusal :=
  match i with
  | .mainPowerGood f48 f12 e w vin => Sys2Proof.Machine.execMainPowerGood f48 f12 e w vin s
  | .secondFeedAppears => Sys2Proof.Machine.execSecondFeedAppears s
  | .busbarPairLost west => Sys2Proof.Machine.execBusbarPairLost west s
  | .feedUndervoltage => Sys2Proof.Machine.execFeedUndervoltage s
  | .standbyPowerOn hubOk eastOk => Sys2Proof.Machine.execStandbyPowerOn hubOk eastOk s
  | .standbyPowerLoss => Sys2Proof.Machine.execStandbyPowerLoss s
  | .warmRstNLow => Sys2Proof.Machine.execWarmRstNLow s
  | .coldRstNLow => Sys2Proof.Machine.execColdRstNLow s
  | .perstNAssert b => Sys2Proof.Machine.execPerstNAssert b s
  | .pcieLinkUp b lanes rate => Sys2Proof.Machine.execPcieLinkUp b lanes rate s
  | .hotResetOrLinkDown b down => Sys2Proof.Machine.execHotResetOrLinkDown b down s
  | .vfFunctionLevelReset b v => Sys2Proof.Machine.execVfFunctionLevelReset b v s
  | .pfFunctionLevelReset b => Sys2Proof.Machine.execPfFunctionLevelReset b s
  | .busMasterEnableCleared f => Sys2Proof.Machine.execBusMasterEnableCleared f s
  | .bootGo target => Sys2Proof.Machine.execBootGo target s
  | .instarSkeleton dark silent silentPorts hubFault => Sys2Proof.Machine.execInstarSkeleton dark silent silentPorts hubFault s
  | .instarIdentify => Sys2Proof.Machine.execInstarIdentify s
  | .instarClocks unlocked fault => Sys2Proof.Machine.execInstarClocks unlocked fault s
  | .instarTrain links tables lanes => Sys2Proof.Machine.execInstarTrain links tables lanes s
  | .stackTrainDone k ok step code ms bad => Sys2Proof.Machine.execStackTrainDone k ok step code ms bad s
  | .instarLoad b => Sys2Proof.Machine.execInstarLoad b s
  | .broadcastRoundEnd lost => Sys2Proof.Machine.execBroadcastRoundEnd lost s
  | .p2pLoadAttempt r lost => Sys2Proof.Machine.execP2pLoadAttempt r lost s
  | .instarProve results => Sys2Proof.Machine.execInstarProve results s
  | .katReportTimeout r => Sys2Proof.Machine.execKatReportTimeout r s
  | .instarReconcile storeOk => Sys2Proof.Machine.execInstarReconcile storeOk s
  | .instarComplete => Sys2Proof.Machine.execInstarComplete s
  | .instarTimeout => Sys2Proof.Machine.execInstarTimeout s
  | .bootCocoon => Sys2Proof.Machine.execBootCocoon s
  | .stackWipeComplete k => Sys2Proof.Machine.execStackWipeComplete k s
  | .tileCmdqWrite t v => Sys2Proof.Machine.execTileCmdqWrite t v s
  | .seqEnableSet t => Sys2Proof.Machine.execSeqEnableSet t s
  | .seqEnableClear t => Sys2Proof.Machine.execSeqEnableClear t s
  | .seqReset t => Sys2Proof.Machine.execSeqReset t s
  | .seqTakeEntry t => Sys2Proof.Machine.execSeqTakeEntry t s
  | .issueHoldRelease t => Sys2Proof.Machine.execIssueHoldRelease t s
  | .nop t => Sys2Proof.Machine.execNop t s
  | .jmp t => Sys2Proof.Machine.execJmp t s
  | .pset t => Sys2Proof.Machine.execPset t s
  | .fence t => Sys2Proof.Machine.execFence t s
  | .fenceComplete t => Sys2Proof.Machine.execFenceComplete t s
  | .iload t => Sys2Proof.Machine.execIload t s
  | .iloadComplete t => Sys2Proof.Machine.execIloadComplete t s
  | .endProg t => Sys2Proof.Machine.execEndProg t s
  | .endComplete t => Sys2Proof.Machine.execEndComplete t s
  | .wopen t => Sys2Proof.Machine.execWopen t s
  | .wopenHoldRelease t => Sys2Proof.Machine.execWopenHoldRelease t s
  | .closeNow t => Sys2Proof.Machine.execCloseNow t s
  | .closeQuiesce t => Sys2Proof.Machine.execCloseQuiesce t s
  | .quiesceTimeout t ix => Sys2Proof.Machine.execQuiesceTimeout t ix s
  | .closeComplete t => Sys2Proof.Machine.execCloseComplete t s
  | .wquery t => Sys2Proof.Machine.execWquery t s
  | .ccntSet t => Sys2Proof.Machine.execCcntSet t s
  | .ccntGet t => Sys2Proof.Machine.execCcntGet t s
  | .loopStart t => Sys2Proof.Machine.execLoopStart t s
  | .lstride t => Sys2Proof.Machine.execLstride t s
  | .lbind t => Sys2Proof.Machine.execLbind t s
  | .waitcnt t => Sys2Proof.Machine.execWaitcnt t s
  | .waitcntComplete t => Sys2Proof.Machine.execWaitcntComplete t s
  | .bar t => Sys2Proof.Machine.execBar t s
  | .cwait t => Sys2Proof.Machine.execCwait t s
  | .cwaitArrival t => Sys2Proof.Machine.execCwaitArrival t s
  | .flagor t => Sys2Proof.Machine.execFlagor t s
  | .stepFence t => Sys2Proof.Machine.execStepFence t s
  | .ttgt t => Sys2Proof.Machine.execTtgt t s
  | .putOp t => Sys2Proof.Machine.execPutOp t s
  | .getOp t => Sys2Proof.Machine.execGetOp t s
  | .fadd t => Sys2Proof.Machine.execFadd t s
  | .cswap t => Sys2Proof.Machine.execCswap t s
  | .forOr t => Sys2Proof.Machine.execForOr t s
  | .tdmaOpStart t => Sys2Proof.Machine.execTdmaOpStart t s
  | .tdmaResponse t n q a => Sys2Proof.Machine.execTdmaResponse t n q a s
  | .tdmaRetransmit t n q => Sys2Proof.Machine.execTdmaRetransmit t n q s
  | .segmentArrival t g => Sys2Proof.Machine.execSegmentArrival t g s
  | .segmentWriteVisible t ix => Sys2Proof.Machine.execSegmentWriteVisible t ix s
  | .mma t => Sys2Proof.Machine.execMma t s
  | .mmaVeinStart t => Sys2Proof.Machine.execMmaVeinStart t s
  | .mmaComplete t => Sys2Proof.Machine.execMmaComplete t s
  | .mdrain t => Sys2Proof.Machine.execMdrain t s
  | .drainStart t => Sys2Proof.Machine.execDrainStart t s
  | .drainResume t => Sys2Proof.Machine.execDrainResume t s
  | .drainEnd t => Sys2Proof.Machine.execDrainEnd t s
  | .rbload t => Sys2Proof.Machine.execRbload t s
  | .rbloadComplete t => Sys2Proof.Machine.execRbloadComplete t s
  | .rbshift t => Sys2Proof.Machine.execRbshift t s
  | .rbshiftComplete t => Sys2Proof.Machine.execRbshiftComplete t s
  | .posld t => Sys2Proof.Machine.execPosld t s
  | .posgen t => Sys2Proof.Machine.execPosgen t s
  | .mxset t => Sys2Proof.Machine.execMxset t s
  | .mfence t => Sys2Proof.Machine.execMfence t s
  | .vfa t => Sys2Proof.Machine.execVfa t s
  | .via t => Sys2Proof.Machine.execVia t s
  | .vcmp t => Sys2Proof.Machine.execVcmp t s
  | .vsel t => Sys2Proof.Machine.execVsel t s
  | .vkop t => Sys2Proof.Machine.execVkop t s
  | .vcvt t => Sys2Proof.Machine.execVcvt t s
  | .vtr t => Sys2Proof.Machine.execVtr t s
  | .vred t => Sys2Proof.Machine.execVred t s
  | .vscan t => Sys2Proof.Machine.execVscan t s
  | .vxscan t => Sys2Proof.Machine.execVxscan t s
  | .vxscanPrefixArrival t => Sys2Proof.Machine.execVxscanPrefixArrival t s
  | .vcomb t => Sys2Proof.Machine.execVcomb t s
  | .vld t => Sys2Proof.Machine.execVld t s
  | .vst t => Sys2Proof.Machine.execVst t s
  | .vdqpop t => Sys2Proof.Machine.execVdqpop t s
  | .vdqpopRowArrival t => Sys2Proof.Machine.execVdqpopRowArrival t s
  | .viota t => Sys2Proof.Machine.execViota t s
  | .vrot t => Sys2Proof.Machine.execVrot t s
  | .vxeInsnStart t => Sys2Proof.Machine.execVxeInsnStart t s
  | .vxeInsnComplete t n => Sys2Proof.Machine.execVxeInsnComplete t n s
  | .spmMopqWrite t off bs => Sys2Proof.Machine.execSpmMopqWrite t off bs s
  | .mopFill t => Sys2Proof.Machine.execMopFill t s
  | .mopCopy t => Sys2Proof.Machine.execMopCopy t s
  | .mopEnd t => Sys2Proof.Machine.execMopEnd t s
  | .pwrUp t q => Sys2Proof.Machine.execPwrUp t q s
  | .pwrRetain t q => Sys2Proof.Machine.execPwrRetain t q s
  | .pwrDown t q => Sys2Proof.Machine.execPwrDown t q s
  | .quarterOn t q => Sys2Proof.Machine.execQuarterOn t q s
  | .spmScrubTick t => Sys2Proof.Machine.execSpmScrubTick t s
  | .liveRowRepair t => Sys2Proof.Machine.execLiveRowRepair t s
  | .snWopen k => Sys2Proof.Machine.execSnWopen k s
  | .snCloseNow k => Sys2Proof.Machine.execSnCloseNow k s
  | .snCloseQuiesce k => Sys2Proof.Machine.execSnCloseQuiesce k s
  | .snWquery k => Sys2Proof.Machine.execSnWquery k s
  | .snCcntSet k => Sys2Proof.Machine.execSnCcntSet k s
  | .sxeStrided k => Sys2Proof.Machine.execSxeStrided k s
  | .sxeTranspose k => Sys2Proof.Machine.execSxeTranspose k s
  | .sxeCommandEnd k => Sys2Proof.Machine.execSxeCommandEnd k s
  | .snFence k => Sys2Proof.Machine.execSnFence k s
  | .snBadOpcode k => Sys2Proof.Machine.execSnBadOpcode k s
  | .snSelfRefresh k => Sys2Proof.Machine.execSnSelfRefresh k s
  | .snOff k fw => Sys2Proof.Machine.execSnOff k fw s
  | .snWake k => Sys2Proof.Machine.execSnWake k s
  | .stackReadRelease k j => Sys2Proof.Machine.execStackReadRelease k j s
  | .stackReadLate k => Sys2Proof.Machine.execStackReadLate k s
  | .snPatrolScrub k => Sys2Proof.Machine.execSnPatrolScrub k s
  | .snChunkRepair k ppr => Sys2Proof.Machine.execSnChunkRepair k ppr s
  | .snRecalibration k failed ecc => Sys2Proof.Machine.execSnRecalibration k failed ecc s
  | .snTemperatureChange k temp => Sys2Proof.Machine.execSnTemperatureChange k temp s
  | .routerHeadArrival n fc hs => Sys2Proof.Machine.execRouterHeadArrival n fc hs s
  | .scheduledFlitArrival n fc inPort inCh dev => Sys2Proof.Machine.execScheduledFlitArrival n fc inPort inCh dev s
  | .ctlRegRd t tag off n => Sys2Proof.Machine.execCtlRegRd t tag off n s
  | .ctlRegWr t tag off vs => Sys2Proof.Machine.execCtlRegWr t tag off vs s
  | .ctlRegRsp n errs => Sys2Proof.Machine.execCtlRegRsp n errs s
  | .ctlMsg n errs => Sys2Proof.Machine.execCtlMsg n errs s
  | .ctlMbx g => Sys2Proof.Machine.execCtlMbx g s
  | .ctlHeartbeat n errs => Sys2Proof.Machine.execCtlHeartbeat n errs s
  | .heartbeatSend n => Sys2Proof.Machine.execHeartbeatSend n s
  | .syncArrival n ch c => Sys2Proof.Machine.execSyncArrival n ch c s
  | .syncDelivery n ch => Sys2Proof.Machine.execSyncDelivery n ch s
  | .wingbeatSend p => Sys2Proof.Machine.execWingbeatSend p s
  | .wingbeatArrival n => Sys2Proof.Machine.execWingbeatArrival n s
  | .wingbeatRelease p => Sys2Proof.Machine.execWingbeatRelease p s
  | .xchgStreamStart n ix j late => Sys2Proof.Machine.execXchgStreamStart n ix j late s
  | .exchangeReport n => Sys2Proof.Machine.execExchangeReport n s
  | .stepCombine p => Sys2Proof.Machine.execStepCombine p s
  | .resumeWingbeat p => Sys2Proof.Machine.execResumeWingbeat p s
  | .wingbeatWatchdog p silent => Sys2Proof.Machine.execWingbeatWatchdog p silent s
  | .probeTimeout n => Sys2Proof.Machine.execProbeTimeout n s
  | .qpCtailWrite f q v tee => Sys2Proof.Machine.execQpCtailWrite f q v tee s
  | .qpSheadWrite f q v tee => Sys2Proof.Machine.execQpSheadWrite f q v tee s
  | .qpEnable f q tee => Sys2Proof.Machine.execQpEnable f q tee s
  | .qpDisable f q tee => Sys2Proof.Machine.execQpDisable f q tee s
  | .qpRunClear f q tee => Sys2Proof.Machine.execQpRunClear f q tee s
  | .commandFetched f q ok e => Sys2Proof.Machine.execCommandFetched f q ok e s
  | .irqCoalesceTimeout f q => Sys2Proof.Machine.execIrqCoalesceTimeout f q s
  | .runStep f q tag => Sys2Proof.Machine.execRunStep f q tag s
  | .doorbell f q tag => Sys2Proof.Machine.execDoorbell f q tag s
  | .queryCounter f q tag => Sys2Proof.Machine.execQueryCounter f q tag s
  | .queryCounterTimeout f q tag => Sys2Proof.Machine.execQueryCounterTimeout f q tag s
  | .hostNop f q tag => Sys2Proof.Machine.execHostNop f q tag s
  | .loadImage f q tag room img => Sys2Proof.Machine.execLoadImage f q tag room img s
  | .halt f q tag => Sys2Proof.Machine.execHalt f q tag s
  | .resetPartition f q tag => Sys2Proof.Machine.execResetPartition f q tag s
  | .dmaWrite f q tag bs => Sys2Proof.Machine.execDmaWrite f q tag bs s
  | .dmaRead f q tag => Sys2Proof.Machine.execDmaRead f q tag s
  | .apertureMap f q tag => Sys2Proof.Machine.execApertureMap f q tag s
  | .apertureUnmap f q tag => Sys2Proof.Machine.execApertureUnmap f q tag s
  | .apertureUnmapComplete f q tag => Sys2Proof.Machine.execApertureUnmapComplete f q tag s
  | .windowOpen f q tag => Sys2Proof.Machine.execWindowOpen f q tag s
  | .windowClose f q tag => Sys2Proof.Machine.execWindowClose f q tag s
  | .asyncEvent f q tag => Sys2Proof.Machine.execAsyncEvent f q tag s
  | .setTwin f q tag lat => Sys2Proof.Machine.execSetTwin f q tag lat s
  | .setPowerCap f q tag => Sys2Proof.Machine.execSetPowerCap f q tag s
  | .setPortRole f q tag => Sys2Proof.Machine.execSetPortRole f q tag s
  | .policy f q tag pkt => Sys2Proof.Machine.execPolicy f q tag pkt s
  | .apertureWrite f off bs tee => Sys2Proof.Machine.execApertureWrite f off bs tee s
  | .apertureRead f off len tee => Sys2Proof.Machine.execApertureRead f off len tee s
  | .fnAptFenceRead f tee => Sys2Proof.Machine.execFnAptFenceRead f tee s
  | .bar2Write f tee => Sys2Proof.Machine.execBar2Write f tee s
  | .tdispMessage f m => Sys2Proof.Machine.execTdispMessage f m s
  | .mbaInGo f tee => Sys2Proof.Machine.execMbaInGo f tee s
  | .mailboxTake m => Sys2Proof.Machine.execMailboxTake m s
  | .mailboxDone m => Sys2Proof.Machine.execMailboxDone m s
  | .mbaOutGo f msg => Sys2Proof.Machine.execMbaOutGo f msg s
  | .mbaOutAck f tee => Sys2Proof.Machine.execMbaOutAck f tee s
  | .mbxTimeoutExpiry m => Sys2Proof.Machine.execMbxTimeoutExpiry m s
  | .mbbLockRead k m c q => Sys2Proof.Machine.execMbbLockRead k m c q s
  | .mbbLockRelease k m c q => Sys2Proof.Machine.execMbbLockRelease k m c q s
  | .mbbGo k m c q => Sys2Proof.Machine.execMbbGo k m c q s
  | .mbbLockExpiry k m => Sys2Proof.Machine.execMbbLockExpiry k m s
  | .mbbResultAnswered k m => Sys2Proof.Machine.execMbbResultAnswered k m s
  | .mbaPing f => Sys2Proof.Machine.execMbaPing f s
  | .mbaBbRead f => Sys2Proof.Machine.execMbaBbRead f s
  | .mbaHostMark f => Sys2Proof.Machine.execMbaHostMark f s
  | .mbbPing k m => Sys2Proof.Machine.execMbbPing k m s
  | .mbbHaltSelf k m => Sys2Proof.Machine.execMbbHaltSelf k m s
  | .ethFrameRx q port f => Sys2Proof.Machine.execEthFrameRx q port f s
  | .tkBind q p => Sys2Proof.Machine.execTkBind q p s
  | .tkUnbind q p => Sys2Proof.Machine.execTkUnbind q p s
  | .tkUnbindComplete q p => Sys2Proof.Machine.execTkUnbindComplete q p s
  | .connOpen q p => Sys2Proof.Machine.execConnOpen q p s
  | .connClose q p => Sys2Proof.Machine.execConnClose q p s
  | .connQuery q p => Sys2Proof.Machine.execConnQuery q p s
  | .wrWrite q p => Sys2Proof.Machine.execWrWrite q p s
  | .wrRead q p => Sys2Proof.Machine.execWrRead q p s
  | .wrFadd q p => Sys2Proof.Machine.execWrFadd q p s
  | .wrCswap q p => Sys2Proof.Machine.execWrCswap q p s
  | .wrFor q p => Sys2Proof.Machine.execWrFor q p s
  | .wrCompletion q ix => Sys2Proof.Machine.execWrCompletion q ix s
  | .pdOnpanelRetransmit d n q => Sys2Proof.Machine.execPdOnpanelRetransmit d n q s
  | .roceAckTimeout q c => Sys2Proof.Machine.execRoceAckTimeout q c s
  | .uetRtoExpiry q c psn => Sys2Proof.Machine.execUetRtoExpiry q c psn s
  | .cnpRateIncrease q c => Sys2Proof.Machine.execCnpRateIncrease q c s
  | .ethPortUp q port ok => Sys2Proof.Machine.execEthPortUp q port ok s
  | .ethPortDown q port => Sys2Proof.Machine.execEthPortDown q port s
  | .qRetrain q quad => Sys2Proof.Machine.execQRetrain q quad s
  | .groupCreate q p d => Sys2Proof.Machine.execGroupCreate q p d s
  | .groupShrink q p => Sys2Proof.Machine.execGroupShrink q p s
  | .shrinkDigestsComplete q g => Sys2Proof.Machine.execShrinkDigestsComplete q g s
  | .shrinkTimeout q g => Sys2Proof.Machine.execShrinkTimeout q g s
  | .groupDissolve q p => Sys2Proof.Machine.execGroupDissolve q p s
  | .allReduce q p => Sys2Proof.Machine.execAllReduce q p s
  | .reduceScatter q p => Sys2Proof.Machine.execReduceScatter q p s
  | .allGather q p => Sys2Proof.Machine.execAllGather q p s
  | .broadcast q p => Sys2Proof.Machine.execBroadcast q p s
  | .collBarrier q p => Sys2Proof.Machine.execCollBarrier q p s
  | .collComplete q ix => Sys2Proof.Machine.execCollComplete q ix s
  | .ckptStream q p => Sys2Proof.Machine.execCkptStream q p s
  | .restore q p => Sys2Proof.Machine.execRestore q p s
  | .digest q p => Sys2Proof.Machine.execDigest q p s
  | .epOpen q p => Sys2Proof.Machine.execEpOpen q p s
  | .epRequestArrival q c => Sys2Proof.Machine.execEpRequestArrival q c s
  | .respond q p => Sys2Proof.Machine.execRespond q p s
  | .epFree q p => Sys2Proof.Machine.execEpFree q p s
  | .epClose q p => Sys2Proof.Machine.execEpClose q p s
  | .keepaliveSend q g r => Sys2Proof.Machine.execKeepaliveSend q g r s
  | .partnerLivenessTimeout q g r => Sys2Proof.Machine.execPartnerLivenessTimeout q g r s
  | .partnerPauseTimeout q g r => Sys2Proof.Machine.execPartnerPauseTimeout q g r s
  | .abortReceived q g epoch lost => Sys2Proof.Machine.execAbortReceived q g epoch lost s
  | .stragglerTimeout q ix => Sys2Proof.Machine.execStragglerTimeout q ix s
  | .ecRecordRewrite p => Sys2Proof.Machine.execEcRecordRewrite p s
  | .heartbeatTimeout n => Sys2Proof.Machine.execHeartbeatTimeout n s
  | .spareWake site ok cause lost => Sys2Proof.Machine.execSpareWake site ok cause lost s
  | .siteEfuseTrip key => Sys2Proof.Machine.execSiteEfuseTrip key s
  | .sectorEfuseTrip k => Sys2Proof.Machine.execSectorEfuseTrip k s
  | .phaseFailure key rail phase => Sys2Proof.Machine.execPhaseFailure key rail phase s
  | .inrushRequest k cell cls => Sys2Proof.Machine.execInrushRequest k cell cls s
  | .inrushGrant k ix => Sys2Proof.Machine.execInrushGrant k ix s
  | .inrushWaitExpiry k => Sys2Proof.Machine.execInrushWaitExpiry k s
  | .rampEnd k cell => Sys2Proof.Machine.execRampEnd k cell s
  | .sectorOvercurrent k ix => Sys2Proof.Machine.execSectorOvercurrent k ix s
  | .budgetDivide draw demand reads => Sys2Proof.Machine.execBudgetDivide draw demand reads s
  | .budgetLoanLapse k => Sys2Proof.Machine.execBudgetLoanLapse k s
  | .inputPowerSample p vin => Sys2Proof.Machine.execInputPowerSample p vin s
  | .regionSleep d => Sys2Proof.Machine.execRegionSleep d s
  | .regionAon d => Sys2Proof.Machine.execRegionAon d s
  | .regionWake d => Sys2Proof.Machine.execRegionWake d s
  | .ref10Loss => Sys2Proof.Machine.execRef10Loss s
  | .tbmFrefWrite ext present => Sys2Proof.Machine.execTbmFrefWrite ext present s
  | .fabricPllLockLoss n => Sys2Proof.Machine.execFabricPllLockLoss n s
  | .vlogicDroop d t periods ended => Sys2Proof.Machine.execVlogicDroop d t periods ended s
  | .eyespotReport n e code stretched => Sys2Proof.Machine.execEyespotReport n e code stretched s
  | .tbPulseSend => Sys2Proof.Machine.execTbPulseSend s
  | .tbPulseArrival n drift => Sys2Proof.Machine.execTbPulseArrival n drift s
  | .tbPulseMissing n => Sys2Proof.Machine.execTbPulseMissing n s
  | .ppsEdge off adj => Sys2Proof.Machine.execPpsEdge off adj s
  | .tbLoRead n => Sys2Proof.Machine.execTbLoRead n s
  | .tbmPpsStampLoRead => Sys2Proof.Machine.execTbmPpsStampLoRead s
  | .rtcSecWrite v => Sys2Proof.Machine.execRtcSecWrite v s
  | .thermalBudgetUpdate => Sys2Proof.Machine.execThermalBudgetUpdate s
  | .coolantFlowRead r => Sys2Proof.Machine.execCoolantFlowRead r s
  | .coolantTempRead tin tout => Sys2Proof.Machine.execCoolantTempRead tin tout s
  | .flowFailNLow => Sys2Proof.Machine.execFlowFailNLow s
  | .flowStopForcedHalt p => Sys2Proof.Machine.execFlowStopForcedHalt p s
  | .flowStopEnd pin => Sys2Proof.Machine.execFlowStopEnd pin s
  | .hotspotUpdate n rs => Sys2Proof.Machine.execHotspotUpdate n rs s
  | .throttleRecoveryStep n => Sys2Proof.Machine.execThrottleRecoveryStep n s
  | .hardTrip at_ => Sys2Proof.Machine.execHardTrip at_ s
  | .spdmRequest v req => Sys2Proof.Machine.execSpdmRequest v req s
  | .pqEndorse v n nonce => Sys2Proof.Machine.execPqEndorse v n nonce s
  | .kemGet f n => Sys2Proof.Machine.execKemGet f n s
  | .ownerBind f n id ct => Sys2Proof.Machine.execOwnerBind f n id ct s
  | .nkSet v n p ix key macOk wrapOk => Sys2Proof.Machine.execNkSet v n p ix key macOk wrapOk s
  | .nkClear v n p ix macOk => Sys2Proof.Machine.execNkClear v n p ix macOk s
  | .ownerRelease v n p macOk => Sys2Proof.Machine.execOwnerRelease v n p macOk s
  | .kpStatus v n p => Sys2Proof.Machine.execKpStatus v n p s
  | .cakSet v n key => Sys2Proof.Machine.execCakSet v n key s
  | .bindRoles => Sys2Proof.Machine.execBindRoles s
  | .rotateRoles => Sys2Proof.Machine.execRotateRoles s
  | .layoutPkt => Sys2Proof.Machine.execLayoutPkt s
  | .debugUnlock => Sys2Proof.Machine.execDebugUnlock s
  | .fwPolicy => Sys2Proof.Machine.execFwPolicy s
  | .fuseWrite => Sys2Proof.Machine.execFuseWrite s
  | .recordClear => Sys2Proof.Machine.execRecordClear s
  | .keyHierarchy => Sys2Proof.Machine.execKeyHierarchy s
  | .rwqWrite => Sys2Proof.Machine.execRwqWrite s
  | .polCounterLoRead => Sys2Proof.Machine.execPolCounterLoRead s
  | .scoreKick => Sys2Proof.Machine.execScoreKick s
  | .scoreWatchdogExpiry => Sys2Proof.Machine.execScoreWatchdogExpiry s
  | .fwUnrecoverableError => Sys2Proof.Machine.execFwUnrecoverableError s
  | .scoreMismatch => Sys2Proof.Machine.execScoreMismatch s
  | .shedLevelEval c0 c1 c2 c3 => Sys2Proof.Machine.execShedLevelEval c0 c1 c2 c3 s
  | .telemetryWrite => Sys2Proof.Machine.execTelemetryWrite s
  | .mctpSetEndpointId eid => Sys2Proof.Machine.execMctpSetEndpointId eid s
  | .vdmRegRead off n => Sys2Proof.Machine.execVdmRegRead off n s
  | .vdmRegWrite t v => Sys2Proof.Machine.execVdmRegWrite t v s
  | .vdmBbInfo => Sys2Proof.Machine.execVdmBbInfo s
  | .vdmBbRead copy first n => Sys2Proof.Machine.execVdmBbRead copy first n s
  | .vdmCocoon => Sys2Proof.Machine.execVdmCocoon s
  | .vdmWarmReset => Sys2Proof.Machine.execVdmWarmReset s
  | .vdmPolicyChunk off bs last => Sys2Proof.Machine.execVdmPolicyChunk off bs last s
  | .pldmFwData off bs => Sys2Proof.Machine.execPldmFwData off bs s
  | .pldmVerifyComplete sigOk svn signer opSig => Sys2Proof.Machine.execPldmVerifyComplete sigOk svn signer opSig s
  | .pldmActivateFirmware selfContained => Sys2Proof.Machine.execPldmActivateFirmware selfContained s
  | .bbRecordAppend => Sys2Proof.Machine.execBbRecordAppend s
  | .repairReport => Sys2Proof.Machine.execRepairReport s
  | .serviceSpiRead east low off n => Sys2Proof.Machine.execServiceSpiRead east low off n s
  | .cellWopen p => Sys2Proof.Machine.execCellWopen p s
  | .cellCloseNow p => Sys2Proof.Machine.execCellCloseNow p s
  | .cellCloseQuiesce p => Sys2Proof.Machine.execCellCloseQuiesce p s
  | .cellCloseEnded p => Sys2Proof.Machine.execCellCloseEnded p s
  | .cellWquery p => Sys2Proof.Machine.execCellWquery p s
  | .registerWrite p off v => Sys2Proof.Machine.execRegisterWrite p off v s
  | .fwRestarted => Sys2Proof.Machine.execFwRestarted s
  | .proboscisAccess a => Sys2Proof.Machine.execProboscisAccess a s
  | .scpmOverClears k ix => Sys2Proof.Machine.execScpmOverClears k ix s
  | .selfRefreshExit k => Sys2Proof.Machine.execSelfRefreshExit k s

end Sys2Proof.Machine
end

