-- ==== Sys2Proof/Machine/Tick.lean ====
section
/-! DEFINITION. Time passing on an empty queue. -/

namespace Sys2Proof.Machine

/-- One nanosecond passes (assumption log 1). -/
def State.tick (s : State) : State := { s with now := s.now + 1 }

end Sys2Proof.Machine
end

