-- ==== Sys2Proof/Safety.lean ====
section
/-! DEFINITION. The words that statements use: a command that runs, what a command leaves alone, the canonical form of the state,
what every step keeps, and when an instruction of a tile issues. -/

namespace Sys2Proof.Machine

/-- Command `c` runs in `s`: exec answers a next state, and `P` holds of it. -/
def Runs (c : Instr) (s : State) (P : State → Prop) : Prop := ∃ t, exec c s = .next t ∧ P t

/-- Command `c` stops in `s` on operands that no packet, word or write of the row can hold. -/
def Stops (c : Instr) (s : State) : Prop := exec c s = .fault .illFormed

/-- Tiles, stacks and the network side of every die-cell are as before. -/
abbrev SameCells (s t : State) : Prop := t.tiles = s.tiles ∧ t.snodes = s.snodes ∧ t.nodes = s.nodes

/-- Functions, port dies and partitions are as before. -/
abbrev SameEdges (s t : State) : Prop := t.fns = s.fns ∧ t.ports = s.ports ∧ t.parts = s.parts

/-- Everything but tile `n`, messages, draws of free values and what has been sent is as before. -/
def OnlyTile (n : Nat) (s t : State) : Prop :=
  t = { s with tiles := t.tiles, ctlq := t.ctlq, out := t.out, freeCtr := t.freeCtr } ∧ ∀ m, m ≠ n → t.tile m = s.tile m

/-- Everything but stack node `k`, messages, draws of free values and what has been sent is as before. -/
def OnlyStack (k : Nat) (s t : State) : Prop :=
  t = { s with snodes := t.snodes, ctlq := t.ctlq, out := t.out, freeCtr := t.freeCtr } ∧ ∀ m, m ≠ k → t.stack m = s.stack m

/-- Every sparse table of the panel is canonical: keys rising, nothing listed that reads as unlisted. -/
abbrev Canon (s : State) : Prop :=
  Table.wf 0 s.regs = true ∧ Table.wf {} s.tiles = true ∧ Table.wf {} s.snodes = true ∧ Table.wf {} s.nodes = true ∧ Table.wf {} s.fns = true
    ∧ Table.wf {} s.ports = true ∧ Table.wf {} s.parts = true

/-- What every command keeps of the panel: the queue, the direction of time, what has been sent, the canonical form, and the
permanent region of both copies of the black box (R610). -/
structure Keeps (s t : State) : Prop where
  pending : t.pending = s.pending
  now : s.now ≤ t.now
  freeCtr : s.freeCtr ≤ t.freeCtr
  out : s.out <+: t.out
  canon : Canon s → Canon t
  permHub : s.hub.bbx.hub.perm <+: t.hub.bbx.hub.perm
  permEast : s.hub.bbx.east.perm <+: t.hub.bbx.east.perm

/-- The next instruction of tile `t` is `w`, of kind `k`; it executes, `w'` is what it is after adjustment, it is legal and nothing
holds it (R193–R195, R202). -/
structure Issues (k : InsnKind) (t : Nat) (w w' : Insn) (s : State) : Prop where
  run : (s.tile t).seq.st = .run
  word : (s.tile t).seq.imem.get 0 (s.tile t).seq.pc = w
  good : (List.range 4).any (fun i => (s.tile t).seq.imemBad.contains (4 * (s.tile t).seq.pc + i)) = false
  kind : insnKind w = some k
  executes : (s.tile t).executes w = true
  adjusted : adjustWord (s.tile t).loop k w = some w'
  legal : insnLegal k w' = true
  free : (s.tile t).blocked k w' = none

/-- The rows that are instructions of a tile: the tile, and the instruction's kind (R193). -/
def issueRow : Instr → Option (TileNo × InsnKind)
  | .nop t => some (t, .nop)
  | .jmp t => some (t, .jmp)
  | .pset t => some (t, .pset)
  | .fence t => some (t, .fence)
  | .iload t => some (t, .iload)
  | .endProg t => some (t, .endp)
  | .wopen t => some (t, .wopen)
  | .closeNow t => some (t, .closeNow)
  | .closeQuiesce t => some (t, .closeQuiesce)
  | .wquery t => some (t, .wquery)
  | .ccntSet t => some (t, .ccntSet)
  | .ccntGet t => some (t, .ccntGet)
  | .loopStart t => some (t, .loop)
  | .lstride t => some (t, .lstride)
  | .lbind t => some (t, .lbind)
  | .waitcnt t => some (t, .waitcnt)
  | .bar t => some (t, .bar)
  | .cwait t => some (t, .cwait)
  | .flagor t => some (t, .flagor)
  | .stepFence t => some (t, .step)
  | .ttgt t => some (t, .ttgt)
  | .putOp t => some (t, .put)
  | .getOp t => some (t, .get)
  | .fadd t => some (t, .fadd)
  | .cswap t => some (t, .cswap)
  | .forOr t => some (t, .for_)
  | .mma t => some (t, .mma)
  | .mdrain t => some (t, .mdrain)
  | .rbload t => some (t, .rbload)
  | .rbshift t => some (t, .rbshift)
  | .posld t => some (t, .posld)
  | .posgen t => some (t, .posgen)
  | .mxset t => some (t, .mxset)
  | .mfence t => some (t, .mfence)
  | .vfa t => some (t, .vfa)
  | .via t => some (t, .via)
  | .vcmp t => some (t, .vcmp)
  | .vsel t => some (t, .vsel)
  | .vkop t => some (t, .vkop)
  | .vcvt t => some (t, .vcvt)
  | .vtr t => some (t, .vtr)
  | .vred t => some (t, .vred)
  | .vscan t => some (t, .vscan)
  | .vxscan t => some (t, .vxscan)
  | .vcomb t => some (t, .vcomb)
  | .vld t => some (t, .vld)
  | .vst t => some (t, .vst)
  | .vdqpop t => some (t, .vdqpop)
  | .viota t => some (t, .viota)
  | .vrot t => some (t, .vrot)
  | _ => none

/-- Command `c` of function `f`, pair `q`, number `tag` and opcode `opc` was accepted, has not begun, and it is its turn (R392); its
result slot is one. -/
structure Turn (f q : Nat) (tag : W16) (opc : Nat) (c : HostCmd) (s : State) : Prop where
  cmd : s.turn f q tag opc = some c
  slot : c.slotOk = true

/-- A command whose turn it is, of a formed partition. -/
structure PartTurn (f q : Nat) (tag : W16) (opc : Nat) (c : HostCmd) (s : State) : Prop where
  cmd : s.turn f q tag opc = some c
  part : s.partBar c = none

end Sys2Proof.Machine
end

