-- ==== Sys2Proof/Certificates/Slice0/Obligations.lean ====
section
/-! DEFINITION. What is claimed of the panel: the statements for the provers. -/

open Sys2Proof Sys2Proof.Machine

/-- Main power good with one feed present, its voltage in that feed's range, latches that feed, counts the boot and starts the time base; a second feed is noted once and
changes no latch; a lost 48 V pair shows in its PMGR bit; undervoltage, loss of standby power and COLD_RST_N switch everything but
VAON off; standby power starts the real-time clock; WARM_RST_N returns the boot ladder to instar 0 and keeps the feed. The standby
power row takes the copies of the MRAM that can be used as an operand. -/
def Obligations.FeedsAndStandbyPower : Prop :=
  ∀ s : State, Canon s →
    (∀ f48 f12 e w vin, s.hub.feed.stby = true → s.hub.feed.mainGood = false → s.hub.feed.tripped = false → f48 ≠ f12 →
      feedIn f48 vin.toNat = true →
      Runs (.mainPowerGood f48 f12 e w vin) s (fun t =>
        t.hub.feed.mainGood = true ∧ t.hub.feed.latched = (if f48 then 1 else 2) ∧ t.hub.bbx.bootCount = s.hub.bbx.bootCount + 1
          ∧ t.hub.boot.powerAt = s.now ∧ t.hub.tb.startAt = some s.now ∧ t.pending = s.pending))
    ∧ (s.hub.feed.mainGood = true → s.hub.feed.otherLogged = false →
      Runs .secondFeedAppears s (fun t =>
        t.hub.feed = { s.hub.feed with otherLogged := true } ∧ t.hrd pmgrFeed = s.hrd pmgrFeed ∧ SameCells s t ∧ SameEdges s t))
    ∧ (∀ west, s.hub.feed.mainGood = true → s.hub.feed.latched = 1 → s.hrd (if west then pmgrPairW else pmgrPairE) ≠ 0 →
      Runs (.busbarPairLost west) s (fun t =>
        t.hrd (if west then pmgrPairW else pmgrPairE) = 0 ∧ t.hrd (if west then pmgrPairE else pmgrPairW) = s.hrd (if west then pmgrPairE else pmgrPairW)
          ∧ t.hub.feed = s.hub.feed ∧ SameCells s t ∧ SameEdges s t))
    ∧ (s.hub.feed.mainGood = true →
      Runs .feedUndervoltage s (fun t => t.hub.feed = { stby := true } ∧ t.tiles = [] ∧ t.snodes = [] ∧ t.parts = [] ∧ t.hub.bbx.staged = []))
    ∧ (∀ hubOk eastOk, s.hub.feed.stby = false →
      Runs (.standbyPowerOn hubOk eastOk) s (fun t =>
        t.hub.feed = { s.hub.feed with stby := true } ∧ t.hub.tb.rtcBase = 0 ∧ t.hub.tb.rtcAt = s.now ∧ t.hub.bbx.hub.readable = hubOk
          ∧ t.hub.bbx.east.readable = eastOk ∧ t.hrd bbHubOk = b2n hubOk ∧ t.hrd bbEastOk = b2n eastOk ∧ SameCells s t ∧ SameEdges s t))
    ∧ (s.hub.feed.stby = true →
      Runs .standbyPowerLoss s (fun t => t.hub.feed = {} ∧ t.tiles = [] ∧ t.snodes = [] ∧ t.parts = [] ∧ t.hub.bbx.staged = []))
    ∧ (s.hub.feed.mainGood = true → s.hrd bootPhase ≠ 3 →
      Runs .warmRstNLow s (fun t =>
        t.hub.feed = s.hub.feed ∧ t.hrd bootInstar = 0 ∧ t.hrd bootPhase = 0 ∧ t.hrd bootChrysalis = 1 ∧ t.hrd bootImago = 0 ∧ t.parts = []))
    ∧ (s.hub.feed.stby = true →
      Runs .coldRstNLow s (fun t =>
        t.hub.feed = { stby := true } ∧ t.tiles = [] ∧ t.snodes = [] ∧ t.nodes = [] ∧ t.parts = [] ∧ t.fns = [] ∧ t.ports = []
          ∧ t.hub.fuses = s.hub.fuses))

/-- A site's eFuse switches its region off and stays open, and a sector's makes it dark; a failed phase is disconnected once and kept in both copies of the MRAM;
a region sleeps only without a running partition and with quiet quarters, falls to AON only outside a partition, and wakes to
ACTIVE. A request joins its sector's queue unless the sector has no power; a grant reads the bus current and serves the head only while it
fits under 90 % of the limit; a request that waited 1 ms ramps slowly on a quarter of its inrush; the end of a ramp releases the
cell's oldest token. -/
def Obligations.RegionsPhasesAndInrush : Prop :=
  ∀ s : State, Canon s →
    (∀ key : Fin 293, s.hub.region.get 0 key.val ≠ 0 → Table.wf 0 s.hub.region = true → 288 ≤ key.val → key.val < 292 →
      Runs (.siteEfuseTrip key) s (fun t => t.hub.region.get 0 key.val = 0 ∧ t.hub.fuseOpen = s.hub.fuseOpen ++ [key.val]))
    ∧ (∀ k : StackNo, s.hrd (scpmEfuse k.val) = 0 → s.hrd bootImago = 0 →
      Runs (.sectorEfuseTrip k) s (fun t => t.hrd (scpmEfuse k.val) = 1 ∧ t.hub.boot.dark = s.hub.boot.dark ++ [k.val]))
    ∧ (∀ (key : Fin 293) (rail : Fin 8) (phase : Fin 16), s.hub.region.get 0 key.val ≠ 0 → key.val < 288 →
      s.hub.phases.contains (key.val, rail.val, phase.val) = false →
      Runs (.phaseFailure key rail phase) s (fun t => (key.val, rail.val, phase.val) ∈ t.hub.phases))
    ∧ (∀ d : DieNo, s.power d.val = 3 → 24 ≤ s.partOfNode d.val →
      (∀ i : Fin 16, ∀ q : Fin 4, (s.tile (16 * d.val + i.val)).spm.quarter q.val = .off) →
      Runs (.regionSleep d) s (fun t => t = s.setPower d.val 2))
    ∧ (∀ d : DieNo, s.power d.val = 2 ∨ s.power d.val = 3 → 24 ≤ s.partOfNode d.val →
      Runs (.regionAon d) s (fun t => t = (s.dieOff d.val).setPower d.val 1))
    ∧ (∀ d : DieNo, s.power d.val = 2 → Runs (.regionWake d) s (fun t => t = (s.setPower d.val 3).setClocks d.val ∧ t.tiles = s.tiles))
    ∧ (∀ k : StackNo,
      (∀ cell cls, Table.wf {} s.hub.scpm = true → s.hrd (scpmEfuse k.val) = 0 → (s.hub.scpm.get {} k.val).queue = [] →
        90 * s.hrd (scpmIlim k.val) < s.hrd (scpmI k.val) * 100 + (s.hub.scpm.get {} k.val).rsv + classMa cls →
        Runs (.inrushRequest k cell cls) s (fun t =>
          (t.hub.scpm.get {} k.val).queue = [{ cell := cell, cls := cls, unit := 0, ma := classMa cls, at_ := s.now, slow := false }]
            ∧ (t.hub.scpm.get {} k.val).granted = (s.hub.scpm.get {} k.val).granted ∧ SameCells s t ∧ SameEdges s t))
      ∧ (∀ i : BitVec 12, (s.hub.scpm.get {} k.val).queue = [] →
        Runs (.inrushGrant k i) s (fun t => t.hrd (scpmI k.val) = i.toNat ∧ t.hub.scpm = s.hub.scpm ∧ t.out = s.out))
      ∧ (∀ r, Table.wf {} s.hub.scpm = true → (s.hub.scpm.get {} k.val).queue = [r] →
        Runs (.inrushWaitExpiry k) s (fun t =>
          (t.hub.scpm.get {} k.val).queue = []
            ∧ (t.hub.scpm.get {} k.val).granted = (s.hub.scpm.get {} k.val).granted ++ [{ r with ma := r.ma / 4, slow := true }]
            ∧ r.at_ + 1000000 ≤ t.now))
      ∧ (∀ (cell : W16) (i : Nat), Table.wf {} s.hub.scpm = true → (s.hub.scpm.get {} k.val).queue = [] →
        (s.hub.scpm.get {} k.val).granted.findIdx? (fun r => r.cell == cell) = some i →
        Runs (.rampEnd k cell) s (fun t => (t.hub.scpm.get {} k.val).granted = (s.hub.scpm.get {} k.val).granted.eraseIdx i)))

/-- A cap between 4,000 and 15,500 W in steps of 50 W is taken and answered; a sector over its current limit shows it and its loans end;
within the limit again, the bit clears; a division ends with PMGR_CAPPING telling whether any die is held down; loans lapse at their
end; a sample of the input power adds to the window of 1,000 samples. How far an overloaded sector's dies are lowered is a free value
(assumption log 71). -/
def Obligations.PowerBudgets : Prop :=
  ∀ s : State, Canon s →
    (∀ (f : Fin 50) (q : Fin 8) (tag : W16) (c : HostCmd), Turn f.val q.val tag 0x1B c s →
      4000 ≤ cmdB c.cmd 8 12 → cmdB c.cmd 8 12 ≤ 15500 → cmdB c.cmd 8 12 % 50 = 0 →
      exec (.setPowerCap f q tag) s = .next (((((s.hwr pmgrCapW (cmdB c.cmd 8 12)).setLimit (s.hwr pmgrCapW (cmdB c.cmd 8 12)).limitNow false).ecAll).endCmd
        c scOk [])))
    ∧ (∀ (k : StackNo) (i : BitVec 12), s.hrd (scpmIlim k.val) < i.toNat → s.activeIn k.val = [] →
      (s.hub.scpm.get {} k.val).loans = [] →
      Runs (.sectorOvercurrent k i) s (fun t => t.hrd (scpmOver k.val) = 1 ∧ t.hrd (scpmI k.val) = i.toNat ∧ SameCells s t ∧ SameEdges s t))
    ∧ (∀ (k : StackNo) (i : BitVec 12), s.hrd (scpmOver k.val) = 1 → i.toNat ≤ s.hrd (scpmIlim k.val) → s.activeIn k.val = [] →
      Runs (.scpmOverClears k i) s (fun t => t.hrd (scpmOver k.val) = 0 ∧ t.hrd (scpmI k.val) = i.toNat ∧ SameCells s t ∧ SameEdges s t))
    ∧ (∀ draw demand reads, s.hub.feed.mainGood = true → 2 ≤ s.hrd bootInstar →
      Runs (.budgetDivide draw demand reads) s (fun t => t.hrd pmgrCapping = b2n (reads.any (fun r => decide (r.down.val ≠ 0 ∨ r.throttled ≠ 0)))))
    ∧ (∀ (k : StackNo) (l : Loan), Table.wf {} s.hub.scpm = true → (s.hub.scpm.get {} k.val).loans = [l] →
      Runs (.budgetLoanLapse k) s (fun t => (t.hub.scpm.get {} k.val).loans = [] ∧ l.end_ ≤ t.now ∧ SameCells s t))
    ∧ (∀ p vin : W16, s.hub.feed.mainGood = true → s.hub.pinN < 999 →
      s.hub.pinSum + p.toNat + (1000 - (s.hub.pinN + 1)) * p.toNat ≤ 1100 * s.hrd pmgrLimitW →
      Runs (.inputPowerSample p vin) s (fun t =>
        t.hub.pinSum = s.hub.pinSum + p.toNat ∧ t.hub.pinN = s.hub.pinN + 1 ∧ t.hrd pmgrVin = vin.toNat ∧ SameCells s t ∧ SameEdges s t))

/-- A tail write sets QP_CTAIL and, on an enabled pair, makes the commands up to it visible; a head write sets QP_SHEAD; enabling a pair
whose configuration is in range sets QP_EN and QP_RUN and clears its indices; disabling clears QP_EN and loses the replies of its
commands; QP_RUN clears on a disabled pair; a fetch that may proceed takes the command in, and one whose read fails stops the pair; a due
interrupt of QP_COAL_US is raised and counts anew. A write that the port does not serve (a function that is not up, or without the T bit to a
TDISP interface in RUN) changes nothing. -/
def Obligations.QueuePairRegisters : Prop :=
  ∀ (s : State) (f : Fin 50) (q : Fin 8) (tee : Bool), Canon s →
    (s.unserved f.val tee = true → (∀ v : W32, exec (.qpCtailWrite f q v tee) s = .next s ∧ exec (.qpSheadWrite f q v tee) s = .next s)
      ∧ exec (.qpEnable f q tee) s = .next s ∧ exec (.qpDisable f q tee) s = .next s ∧ exec (.qpRunClear f q tee) s = .next s)
    ∧ (∀ v : W32, s.unserved f.val tee = false → Runs (.qpCtailWrite f q v tee) s (fun t =>
      t.rd (fnPlace f.val) (qpCtail q.val) = fld v 11 0 ∧ SameCells s t ∧ t.hub = s.hub ∧ t.ports = s.ports ∧ t.parts = s.parts ∧ t.out = s.out
        ∧ (s.rd (fnPlace f.val) (qpEn q.val) = 0 → t.fns = s.fns)
        ∧ (s.rd (fnPlace f.val) (qpEn q.val) ≠ 0 → (t.fn f.val).visible = (s.fn f.val).visible.put 0 q.val
            ((fld v 11 0 % 2 ^ s.rd (fnPlace f.val) (qpCsz q.val) + 2 ^ s.rd (fnPlace f.val) (qpCsz q.val)
              - s.rd (fnPlace f.val) (qpChead q.val) % 2 ^ s.rd (fnPlace f.val) (qpCsz q.val)) % 2 ^ s.rd (fnPlace f.val) (qpCsz q.val)))))
    ∧ (∀ v : W32, s.unserved f.val tee = false → Runs (.qpSheadWrite f q v tee) s (fun t =>
      t.rd (fnPlace f.val) (qpShead q.val) = fld v 12 0 ∧ t = { s with regs := t.regs }))
    ∧ (s.unserved f.val tee = false → s.rd (fnPlace f.val) (qpEn q.val) = 0 → s.qpOk f.val q.val = true → Runs (.qpEnable f q tee) s (fun t =>
      t.rd (fnPlace f.val) (qpEn q.val) = 1 ∧ t.rd (fnPlace f.val) (qpRun q.val) = 1 ∧ t.rd (fnPlace f.val) (qpChead q.val) = 0
        ∧ t.rd (fnPlace f.val) (qpCtail q.val) = 0 ∧ t.rd (fnPlace f.val) (qpShead q.val) = 0 ∧ t.rd (fnPlace f.val) (qpStallSts q.val) = 0
        ∧ t = { s with regs := t.regs, fns := t.fns }))
    ∧ (s.unserved f.val tee = false → s.rd (fnPlace f.val) (qpEn q.val) = 0 → s.qpOk f.val q.val = false → Runs (.qpEnable f q tee) s (fun t =>
      t.rd (fnPlace f.val) (qpEn q.val) = 0 ∧ t.rd (fnPlace f.val) (qpCfgErr q.val) = 1 ∧ t = { s with regs := t.regs }))
    ∧ (s.unserved f.val tee = false → Runs (.qpDisable f q tee) s (fun t =>
      t.rd (fnPlace f.val) (qpEn q.val) = 0 ∧ (∀ c ∈ t.hub.cmds, c.fn = f.val → c.qp = q.val → c.mute = true)
        ∧ t.hub.cmds.length = s.hub.cmds.length ∧ SameCells s t ∧ t.out = s.out))
    ∧ (s.unserved f.val tee = false → s.rd (fnPlace f.val) (qpEn q.val) = 0 → Runs (.qpRunClear f q tee) s (fun t =>
      t.rd (fnPlace f.val) (qpRun q.val) = 0 ∧ t = { s with regs := t.regs }))
    ∧ (∀ e : BitVec 512, s.mayFetch f.val q.val = true → s.statusRoom f.val q.val = true →
      exec (.commandFetched f q true e) s = .next (s.takeCmd f.val q.val e))
    ∧ (∀ e : BitVec 512, s.mayFetch f.val q.val = true → s.statusRoom f.val q.val = true → Runs (.commandFetched f q false e) s (fun t =>
      t.rd (fnPlace f.val) (qpDmaErr q.val) = 1 ∧ t.hub = s.hub ∧ t.out = s.out))
    ∧ (s.rd (fnPlace f.val) (qpCoalUs q.val) ≠ 0 → (s.fn f.val).coal.get 0 q.val ≠ 0 →
      exec (.irqCoalesceTimeout f q) s
        = .next ((s.updFn f.val (fun x => { x with coal := x.coal.put 0 q.val 0 })).msix f.val (s.rd (fnPlace f.val) (qpVec q.val))))

/-- QP_CHEAD advances modulo the ring's size; a command that the checks refuse leaves the list of outstanding commands as it was, and one
that they pass joins its end, not begun. -/
def Obligations.CommandIntake : Prop :=
  ∀ (s : State) (f : Fin 50) (q : Fin 8) (e : BitVec 512), Canon s → s.rd (fnPlace f.val) (qpFmt q.val) = 0 → s.hrd bootPhase ≠ 3 →
    (s.takeCmd f.val q.val e).rd (fnPlace f.val) (qpChead q.val)
        = (s.rd (fnPlace f.val) (qpChead q.val) + 1) % 2 ^ s.rd (fnPlace f.val) (qpCsz q.val) % 4096
      ∧ (∀ code, s.cmdCheck f.val q.val e false = some code → (s.takeCmd f.val q.val e).hub.cmds = s.hub.cmds)
      ∧ (s.cmdCheck f.val q.val e false = none → (s.takeCmd f.val q.val e).hub.cmds = s.hub.cmds ++ [{
          fn := f.val, qp := q.val, tag := BitVec.ofNat 16 (cmdB e 2 4), opc := fld e 7 0, part := cmdB e 4 5, cmd := e, vf1 := false
          fw := cmdFw (fld e 7 0), mark := (s.fn f.val).accNext }])

/-- Ending a command takes it, and only commands of its name, off the list; on an enabled pair of a function that makes requests
exactly one reply is written, final, with the command's tag and code; on a disabled pair none is. -/
def Obligations.CommandEnds : Prop :=
  ∀ (s : State) (c : HostCmd) (code : W16) (data : List Byte), Canon s → c.fn < 50 → c.qp < 8 →
    (s.endCmd c code data).hub.cmds = s.hub.cmds.filter (fun d => !d.is c.fn c.qp c.tag)
      ∧ (s.endCmd c code data).tiles = s.tiles ∧ (s.endCmd c code data).parts = s.parts ∧ (s.endCmd c code data).snodes = s.snodes
      ∧ (c.mute = true ∨ s.rd (fnPlace c.fn) (qpEn c.qp) = 0 ∨ s.masters c.fn = false → (s.endCmd c code data).out = s.out)
      ∧ (c.mute = false → s.rd (fnPlace c.fn) (qpEn c.qp) ≠ 0 → s.masters c.fn = true →
          ∃ (r : Reply32) (rest : List Out), (s.endCmd c code data).out = s.out ++ .reply r :: rest ∧ rest.length ≤ 1 ∧ (∀ x, .reply x ∉ rest)
            ∧ r.fn = c.fn ∧ r.qp = c.qp ∧ r.tag = c.tag ∧ r.code = code ∧ r.final = true ∧ r.event = false ∧ r.opc = c.opc)

/-- RUN_STEP on a READY partition sets it running for the steps asked for, 0 for no limit; on one halted by request it starts the resume;
DOORBELL sends its bytes as a PUT; a plain QUERY_COUNTER answers the counter's value and flags; a QUERY_COUNTER whose time is over ends
TIMEOUT, unless its members have all reached the value by then. -/
def Obligations.PortCommands : Prop :=
  ∀ (s : State) (f : Fin 50) (q : Fin 8) (tag : W16) (c : HostCmd), Canon s →
    (s.turn f.val q.val tag 1 = some c → s.partBar c = none → s.hrd thmFlowStop = 0 → (s.part c.part).sch.state = .ready →
      (s.part c.part).holed = false → s.pairAlike c.part = true →
      Runs (.runStep f q tag) s (fun t =>
        (t.part c.part).sch.state = .running ∧ (t.part c.part).sch.why = 0 ∧ (t.part c.part).wbs.started = true
          ∧ (t.part c.part).wbs.steps = (if cmdB c.cmd 8 12 = 0 then none else some (cmdB c.cmd 8 12)) ∧ SameCells s t))
    ∧ (s.turn f.val q.val tag 1 = some c → s.partBar c = none → s.hrd thmFlowStop = 0 → (s.part c.part).sch.state = .halted →
      (s.part c.part).holed = false → s.pairAlike c.part = true → (s.part c.part).sch.why = 1 → s.partHot c.part = false → (s.part c.part).wbs.withheld = false → (s.part c.part).wbs.forced = false →
      Runs (.runStep f q tag) s (fun t => (t.part c.part).sch.state = .rollback ∧ (t.part c.part).sch.why = 0 ∧ SameCells s t))
    ∧ (s.turn f.val q.val tag 2 = some c → s.partBar c = none → 1 ≤ c.len → c.len ≤ (if c.vf1 then 16 else 32) →
      exec (.doorbell f q tag) s = .next ((s.beginHw c (fun y => { y with data := bytesLE 32 (cmdB c.cmd 24 56) })).moveNext
        { c with begun := true, data := bytesLE 32 (cmdB c.cmd 24 56) }))
    ∧ (∀ m : Tgt, s.turn f.val q.val tag 3 = some c → s.partBar c = none → bit c.cmd 88 = false →
      s.hostCell c.part (BitVec.ofNat 16 (cmdB c.cmd 8 10)) = some m → cmdB c.cmd 10 11 < (memShape m).2.1 →
      exec (.queryCounter f q tag) s = .next (s.endCmd c scOk (bytesLE 6 ((s.unit m).ccnt (cmdB c.cmd 10 11)).val.toNat
        ++ bytesLE 1 (b2n ((s.unit m).ccnt (cmdB c.cmd 10 11)).err + 2 * b2n ((s.unit m).ccnt (cmdB c.cmd 10 11)).sat))))
    ∧ (s.turn f.val q.val tag 3 = some c → s.partBar c = none → bit c.cmd 88 = true → exec (.queryCounter f q tag) s = .next (s.armWait c))
    ∧ (s.begunCmd f.val q.val tag = some c → c.opc = 3 → ((s.till c.due).hostWaits c.part).begunCmd f.val q.val tag ≠ none →
      exec (.queryCounterTimeout f q tag) s = .next ((((s.till c.due).hostWaits c.part).updPart c.part (fun x => { x with
        waits := x.waits.filter (fun w => !(w.fn == c.fn && w.qp == c.qp && w.tag == c.tag)) })).endCmd c scTimeout []))
    ∧ (s.begunCmd f.val q.val tag = some c → c.opc = 3 → ((s.till c.due).hostWaits c.part).begunCmd f.val q.val tag = none →
      exec (.queryCounterTimeout f q tag) s = .next ((s.till c.due).hostWaits c.part))

/-- Each command of hub firmware whose turn it is does what its row of R393 gives: NOP ends OK; an image without a fault is loaded and the
command ends OK, one with a fault is named in SCH_LOAD_* and ends LOAD_FAIL, and a partition that is not at rest takes none; HALT of a halted partition answers its committed steps and
of a running one asks for the halt; a reset resets the partition; a DMA moves its first segment; ASYNC_EVENT is held; SET_PORT_ROLE sets
the role of the next cold boot. -/
def Obligations.FirmwareCommands : Prop :=
  ∀ (s : State) (f : Fin 50) (q : Fin 8) (tag : W16) (c : HostCmd), Canon s →
    (Turn f.val q.val tag 0x0F c s → exec (.hostNop f q tag) s = .next (s.endCmd c scOk []))
    ∧ (∀ file z zs, PartTurn f.val q.val tag 0x10 c s → s.atRest c.part = true → (s.fn f.val).busMaster = true →
      s.placeImage c.part file = .ok (z, zs) → s.loadFault c.part z zs = none →
      exec (.loadImage f q tag true (some file)) s = .next ((s.loadImage c.part z).endCmd c scOk []))
    ∧ (∀ file (e : LoadErr), PartTurn f.val q.val tag 0x10 c s → s.atRest c.part = true → (s.fn f.val).busMaster = true →
      s.placeImage c.part file = .error e ∨ (∃ z zs, s.placeImage c.part file = .ok (z, zs) ∧ s.loadFault c.part z zs = some e) →
      Runs (.loadImage f q tag true (some file)) s (fun t => (t.part c.part).sch.loadCode = BitVec.ofNat 8 e.1
        ∧ (t.part c.part).sch.loadSect = BitVec.ofNat 12 e.2.1 ∧ (t.part c.part).sch.loadRec = BitVec.ofNat 32 e.2.2
        ∧ (t.part c.part).img = (s.part c.part).img ∧ SameCells s t))
    ∧ (∀ room file, PartTurn f.val q.val tag 0x10 c s → s.atRest c.part = false →
      exec (.loadImage f q tag room file) s = .next (s.endCmd c scBadState []))
    ∧ (PartTurn f.val q.val tag 0x11 c s → (s.part c.part).sch.state = .halted →
      exec (.halt f q tag) s = .next (s.endCmd c scOk (bytesLE 4 (s.part c.part).sch.committed.toNat)))
    ∧ (PartTurn f.val q.val tag 0x11 c s → (s.part c.part).sch.state = .running →
      exec (.halt f q tag) s = .next ((s.begin c id).haltRequest c.part 1))
    ∧ (PartTurn f.val q.val tag 0x12 c s →
      exec (.resetPartition f q tag) s = .next ((s.resetPart c.part (fun d => d.is c.fn c.qp c.tag)).endCmd c scOk []))
    ∧ (∀ bs, PartTurn f.val q.val tag 0x13 c s → c.len ≤ 16777216 → (s.fn f.val).busMaster = true → bs.length = c.len →
      exec (.dmaWrite f q tag (some bs)) s = .next ((s.begin c (fun y => { y with data := bs })).moveNext { c with begun := true, data := bs }))
    ∧ (PartTurn f.val q.val tag 0x14 c s → c.len ≤ 16777216 → (s.fn f.val).busMaster = true →
      exec (.dmaRead f q tag) s = .next ((s.begin c id).moveNext { c with begun := true }))
    ∧ (Turn f.val q.val tag 0x19 c s → (s.hub.cmds.filter (fun d => d.fn == f.val && d.opc == 0x19 && d.begun)).length < 4 → (s.fn f.val).evq = [] →
      exec (.asyncEvent f q tag) s = .next (s.begin c id))
    ∧ (Turn f.val q.val tag 0x1C c s → cmdB c.cmd 8 9 ≤ 1 →
      Runs (.setPortRole f q tag) s (fun t => t.hub.roleNext = decide (cmdB c.cmd 8 9 = 1) ∧ SameCells s t))

/-- A mapping that names an aperture, a 4 KiB base in spaces 0 to 2 of the partition and at most the aperture's size replaces the aperture's, any
other is BAD_PARAM; an unmap clears it; either ends once the accesses made before it have; an access of BAR4 goes through the aperture's mapping and one that no
packet can hold stops; a window of the host opens on a CLOSED index and a close of another starts the close; SET_TWIN joins two
partitions at rest with the larger lead plus the relay's latency. -/
def Obligations.AperturesAndWindowsOfTheHost : Prop :=
  ∀ (s : State) (f : Fin 50) (q : Fin 8) (tag : W16) (c : HostCmd), Canon s →
    (∀ d, PartTurn f.val q.val tag 0x15 c s → cmdB c.cmd 8 9 < 16 → 4096 * cmdB c.cmd 28 32 ≤ aptSpan f.val →
      fld (BitVec.ofNat 56 (cmdB c.cmd 16 23)) 11 0 = 0 → fld (BitVec.ofNat 56 (cmdB c.cmd 16 23)) 55 53 ≤ 2 →
      decodePga (BitVec.ofNat 56 (cmdB c.cmd 16 23)) 1 (s.partStacks c.part).length = some d → s.destInPart c.part d = true →
      exec (.apertureMap f q tag) s = .next (s.remap c {
        mapped := true, base := BitVec.ofNat 56 (cmdB c.cmd 16 23), size4k := cmdB c.cmd 28 32
        tag := BitVec.ofNat 16 (cmdB c.cmd 24 26), rights := BitVec.ofNat 2 (cmdB c.cmd 9 10), part := c.part }))
    ∧ (PartTurn f.val q.val tag 0x15 c s → 16 ≤ cmdB c.cmd 8 9 ∨ aptSpan f.val < 4096 * cmdB c.cmd 28 32
      ∨ fld (BitVec.ofNat 56 (cmdB c.cmd 16 23)) 11 0 ≠ 0 ∨ 2 < fld (BitVec.ofNat 56 (cmdB c.cmd 16 23)) 55 53 →
      exec (.apertureMap f q tag) s = .next (s.endCmd c scBadParam []))
    ∧ (Turn f.val q.val tag 0x16 c s → cmdB c.cmd 8 9 < 16 → exec (.apertureUnmap f q tag) s = .next (s.remap c {}))
    ∧ (s.begunCmd f.val q.val tag = some c → c.opc = 0x15 ∨ c.opc = 0x16 →
      (∀ a ∈ (s.fn c.fn).accs, a.apt = cmdB c.cmd 8 9 → c.mark ≤ a.id) →
      exec (.apertureUnmapComplete f q tag) s = .next (s.endCmd c scOk []))
    ∧ (∀ off bs tee, bs ≠ [] → bs.length ≤ 4096 → off < 16 * aptSpan f.val → s.unserved f.val tee = false →
      exec (.apertureWrite f off bs tee) s = .next (s.aptAccess f.val off bs.length true bs))
    ∧ (∀ off bs tee, bs = [] ∨ 4096 < bs.length ∨ 16 * aptSpan f.val ≤ off → Stops (.apertureWrite f off bs tee) s)
    ∧ (∀ off len tee, 1 ≤ len → len ≤ 4096 → off < 16 * aptSpan f.val → s.unserved f.val tee = false →
      exec (.apertureRead f off len tee) s = .next (s.aptAccess f.val off len false []))
    ∧ (∀ tee, s.unserved f.val tee = false →
      exec (.fnAptFenceRead f tee) s = .next ((s.updFn f.val (fun x => { x with fences := x.fences ++ [x.accNext] })).aptFences f.val))
    ∧ (∀ m : Tgt, PartTurn f.val q.val tag 0x18 c s → s.hostCell c.part (BitVec.ofNat 16 (cmdB c.cmd 8 10)) = some m →
      cmdB c.cmd 10 11 < (memShape m).1 → ((s.unit m).window (cmdB c.cmd 10 11)).st ≠ .closed →
      exec (.windowClose f q tag) s = .next ((((s.begin c id).updUnit m (fun u => u.closeNow (cmdB c.cmd 10 11) none (.host c.fn c.qp c.tag.toNat))).settleUnit
        m).hostPoll c.part))
    ∧ (∀ lat, Turn f.val q.val tag 0x1A c s → cmdB c.cmd 8 9 < 24 → cmdB c.cmd 9 10 < 24 → cmdB c.cmd 8 9 ≠ cmdB c.cmd 9 10 → cmdB c.cmd 10 11 = 1 →
      (s.part (cmdB c.cmd 8 9)).formed = true → (s.part (cmdB c.cmd 9 10)).formed = true → s.atRest (cmdB c.cmd 8 9) = true →
      s.atRest (cmdB c.cmd 9 10) = true → s.twinOk (cmdB c.cmd 8 9) (cmdB c.cmd 9 10) = true →
      Runs (.setTwin f q tag lat) s (fun t =>
        (t.part (cmdB c.cmd 8 9)).sch.twinOn = true ∧ (t.part (cmdB c.cmd 9 10)).sch.twinOn = true
          ∧ (t.part (cmdB c.cmd 8 9)).sch.twinPart = BitVec.ofNat 5 (cmdB c.cmd 9 10) ∧ (t.part (cmdB c.cmd 9 10)).sch.twinPart = BitVec.ofNat 5 (cmdB c.cmd 8 9)
          ∧ (t.node (s.part (cmdB c.cmd 9 10)).root).sync.lead
              = BitVec.ofNat 16 (max (s.lead (cmdB c.cmd 8 9)) (s.lead (cmdB c.cmd 9 10)) + lat.val) ∧ t.tiles = s.tiles))

/-- A WINDOW_OPEN that names a memory of the partition, an index of it that is CLOSED, and a range in it, waits for the index's 4 µs,
opens it with source kind 1, and ends OK with the tag of the window. -/
def Obligations.HostWindowOpens : Prop :=
  ∀ (s : State) (f : Fin 50) (q : Fin 8) (tag : W16) (c : HostCmd) (m : Tgt) (r : WopenReq), Canon s →
    PartTurn f.val q.val tag 0x17 c s → s.hostCell c.part (BitVec.ofNat 16 (cmdB c.cmd 8 10)) = some m →
    r = { idx := cmdB c.cmd 10 11, rights := BitVec.ofNat 3 (cmdB c.cmd 11 12), skind := 1, srcval := 0, cnt := BitVec.ofNat 8 (cmdB c.cmd 13 14)
          cmode := BitVec.ofNat 2 (cmdB c.cmd 12 13), base64 := cmdB c.cmd 16 24 / 64, limit64 := cmdB c.cmd 24 32 / 64, dest := .none } →
    cmdB c.cmd 10 11 < (memShape m).1 → cmdB c.cmd 11 12 < 8 → cmdB c.cmd 12 13 < 4 → cmdB c.cmd 16 24 % 64 = 0 → cmdB c.cmd 24 32 % 64 = 0 →
    r.rangeOk (memShape m).2.2 (memShape m).2.1 = true → ((s.unit m).window (cmdB c.cmd 10 11)).st = .closed →
    ∃ u : State, u = (s.till ((s.unit m).openDue (cmdB c.cmd 10 11))).updUnit m (fun x => x.open_ r (s.till ((s.unit m).openDue (cmdB c.cmd 10 11))).now
        ((s.till ((s.unit m).openDue (cmdB c.cmd 10 11))).dieTb (tgtNode m)))
      ∧ exec (.windowOpen f q tag) s = .next (u.endCmd c scOk (bytesLE 2 (((u.unit m).window (cmdB c.cmd 10 11)).tag (cmdB c.cmd 10 11)).toNat))

/-- VF_FUNCTION_LEVEL_RESET disables the function's eight pairs, unmaps its apertures, drops its events and its inbound mailbox message.
PF_FUNCTION_LEVEL_RESET, HOT_RESET_OR_LINK_DOWN and PERST_N_ASSERT do so to every function of the port and clear its VF Enable;
a link-down and PERST_N leave the link down, PERST_N held, a hot reset leaves the port as it was. PCIE_LINK_UP, where the port may train, brings the link up
at the widest width that its lanes and its good lanes, from either end, form, at the trained rate; where it may not, or no width forms, it changes nothing.
With Bus Master Enable cleared no DMA command of the function runs on, and one that ran ends DMA_FAULT with its bytes; a BAR2 write is counted;
a virtual function's interface moves between UNLOCKED, LOCKED, RUN and ERROR as the messages of a session that it holds open say. -/
def Obligations.FunctionsLinksAndTdisp : Prop :=
  ∀ s : State, Canon s →
    (∀ (b : Fin 2) (v : Fin 24), Runs (.vfFunctionLevelReset b v) s (fun t =>
      (∀ q : Fin 8, t.rd (fnPlace (25 * b.val + v.val + 1)) (qpEn q.val) = 0)
        ∧ (t.fn (25 * b.val + v.val + 1)).apt = [] ∧ (t.fn (25 * b.val + v.val + 1)).evq = [] ∧ (t.fn (25 * b.val + v.val + 1)).mbaIn = none
        ∧ SameCells s t ∧ t.parts = s.parts ∧ t.ports = s.ports))
    ∧ (∀ b : Fin 2, Runs (.pfFunctionLevelReset b) s (fun t =>
      (∀ i : Fin 25, (t.fn (25 * b.val + i.val)).apt = [] ∧ (t.fn (25 * b.val + i.val)).evq = [] ∧ (t.fn (25 * b.val + i.val)).mbaIn = none
          ∧ ∀ q : Fin 8, t.rd (fnPlace (25 * b.val + i.val)) (qpEn q.val) = 0)
        ∧ (t.fn (25 * b.val)).vfEnable = false ∧ SameCells s t ∧ t.parts = s.parts ∧ t.ports = s.ports))
    ∧ (∀ (b : Fin 2) (down : Bool), Runs (.hotResetOrLinkDown b down) s (fun t =>
      (∀ i : Fin 25, (t.fn (25 * b.val + i.val)).apt = [] ∧ (t.fn (25 * b.val + i.val)).evq = [] ∧ (t.fn (25 * b.val + i.val)).mbaIn = none
          ∧ ∀ q : Fin 8, t.rd (fnPlace (25 * b.val + i.val)) (qpEn q.val) = 0)
        ∧ (t.fn (25 * b.val)).vfEnable = false ∧ t.port (2 * b.val) = { s.port (2 * b.val) with linkUp := (s.port (2 * b.val)).linkUp && !down }
        ∧ SameCells s t ∧ t.parts = s.parts))
    ∧ (∀ b : Fin 2, Runs (.perstNAssert b) s (fun t =>
      (∀ i : Fin 25, (t.fn (25 * b.val + i.val)).apt = [] ∧ (t.fn (25 * b.val + i.val)).evq = [] ∧ (t.fn (25 * b.val + i.val)).mbaIn = none
          ∧ ∀ q : Fin 8, t.rd (fnPlace (25 * b.val + i.val)) (qpEn q.val) = 0)
        ∧ (t.fn (25 * b.val)).vfEnable = false ∧ t.port (2 * b.val) = { s.port (2 * b.val) with linkUp := false, perst := true }
        ∧ SameCells s t ∧ t.parts = s.parts))
    ∧ (∀ (b : Fin 2) (lanes : Fin 17) (rate : Fin 4) (w : Nat), s.mayTrain b.val = true → w ∈ [16, 8, 4, 2, 1] → w ≤ lanes.val →
      ((∀ i < w, s.laneGood b.val i = true) ∨ ∀ i < w, s.laneGood b.val (15 - i) = true) →
      (∀ v ∈ [16, 8, 4, 2, 1], w < v → v ≤ lanes.val →
        (∃ i < v, s.laneGood b.val i = false) ∧ ∃ i < v, s.laneGood b.val (15 - i) = false) →
      Runs (.pcieLinkUp b lanes rate) s (fun t =>
        t.port (2 * b.val) = { s.port (2 * b.val) with linkUp := true, width := w, rate := 16 * 2 ^ rate.val, perst := false }
          ∧ SameCells s t ∧ t.parts = s.parts))
    ∧ (∀ (b : Fin 2) (lanes : Fin 17) (rate : Fin 4), s.mayTrain b.val = false ∨ s.linkWidth b.val lanes.val = none →
      exec (.pcieLinkUp b lanes rate) s = .next s)
    ∧ (∀ f : Fin 50, Runs (.busMasterEnableCleared f) s (fun t =>
      (t.fn f.val).busMaster = false ∧ (∀ c ∈ t.hub.cmds, c ∈ s.hub.cmds ∧ ¬(c.fn = f.val ∧ c.begun = true ∧ (c.opc = 0x13 ∨ c.opc = 0x14)))
        ∧ SameCells s t ∧ t.ports = s.ports ∧ t.parts = s.parts))
    ∧ (∀ (f : Fin 50) (c : HostCmd), s.hub.cmds = [c] → c.fn = f.val → c.begun = true → c.opc = 0x13 ∨ c.opc = 0x14 →
      exec (.busMasterEnableCleared f) s
        = .next ((s.updFn f.val (fun x => { x with busMaster := false })).endCmd c scDmaFault (bytesLE 4 c.bytes)))
    ∧ (∀ (f : Fin 50) (tee : Bool), s.unserved f.val tee = false → Runs (.bar2Write f tee) s (fun t =>
      t.rd (fnPlace f.val) fnBar2Wr = (s.rd (fnPlace f.val) fnBar2Wr + 1) % 2 ^ (fnBar2Wr.hi + 1 - fnBar2Wr.lo) ∧ t = { s with regs := t.regs }))
    ∧ (∀ (f : Fin 50) (n : Fin 4) (i : Fin 8), f.val ≠ 0 → f.val ≠ 25 →
      (n.val ∈ (s.fn f.val).sessions →
        ((s.fn f.val).tdisp = .unlocked → Runs (.tdispMessage f (.lock n i)) s (fun t =>
          t.fn f.val = { s.fn f.val with tdisp := .locked, stream := i.val + 1 } ∧ t = { s with fns := t.fns }))
        ∧ ((s.fn f.val).tdisp = .locked → Runs (.tdispMessage f (.start n)) s (fun t =>
          t.fn f.val = { s.fn f.val with tdisp := .run } ∧ t = { s with fns := t.fns }))
        ∧ Runs (.tdispMessage f (.stop n)) s (fun t => t.fn f.val = { s.fn f.val with tdisp := .unlocked } ∧ t = { s with fns := t.fns }))
      ∧ Runs (.tdispMessage f .error) s (fun t => t.fn f.val = { s.fn f.val with tdisp := .error, apt := [] } ∧ t = { s with fns := t.fns })
      ∧ (n.val ∉ (s.fn f.val).sessions → exec (.tdispMessage f (.lock n i)) s = .next s ∧ exec (.tdispMessage f (.start n)) s = .next s
        ∧ exec (.tdispMessage f (.stop n)) s = .next s))

/-- A GO on a quiet inbound side makes a snapshot pending and counts it; hub firmware takes it within its time and finishes it with a result;
PING ends OK, BB_READ puts the records it names into the slot, HOST_MARK writes its record at most once a second; a message whose time is
over is withdrawn with TIMEOUT; an outbound message fills a free channel, and its ACK or time-out frees it, with its end for hub firmware.
A GO or an ACK that the port does not serve changes nothing. -/
def Obligations.ClassAMailboxes : Prop :=
  ∀ (s : State) (f : Fin 50) (tee : Bool), Canon s →
    (s.unserved f.val tee = true → exec (.mbaInGo f tee) s = .next s ∧ exec (.mbaOutAck f tee) s = .next s)
    ∧ (s.unserved f.val tee = false → s.rd (fnPlace f.val) mbaInPend = 0 → s.rd (fnPlace f.val) mbaInTaken = 0 → s.rd (fnPlace f.val) mbaInDone = 0 →
      s.rd (fnPlace f.val) mbaInTimeout = 0 → s.rd (fnPlace f.val) mbaInRreset = 0 → s.hub.score.fwUp = true →
      Runs (.mbaInGo f tee) s (fun t => t.rd (fnPlace f.val) mbaInPend = 1
        ∧ t.rd (fnPlace f.val) mbaInSeq = (s.rd (fnPlace f.val) mbaInSeq + 1) % 2 ^ (mbaInSeq.hi + 1 - mbaInSeq.lo)
        ∧ (t.fn f.val).mbaIn = some ⟨(List.range 16).map (fun i => BitVec.ofNat 32 (s.rd (fnPlace f.val) (mbaInData i))), s.now⟩
        ∧ t = { s with regs := t.regs, fns := t.fns }))
    ∧ (∀ m, s.hub.score.fwUp = true → (s.fn f.val).mbaIn = some m → s.rd (fnPlace f.val) mbaInPend = 1 → s.now ≤ m.at_ + s.mbaTmo f.val →
      Runs (.mailboxTake (.inA f)) s (fun t => t.rd (fnPlace f.val) mbaInPend = 0 ∧ t.rd (fnPlace f.val) mbaInTaken = 1 ∧ t = { s with regs := t.regs }))
    ∧ (s.hub.score.fwUp = true → s.mbaCode f.val = some 1 → Runs (.mailboxDone (.inA f)) s (fun t =>
      t.rd (fnPlace f.val) mbaInTaken = 0 ∧ t.rd (fnPlace f.val) mbaInDone = 1 ∧ t.rd (fnPlace f.val) mbaInResult = 0 ∧ (t.fn f.val).mbaIn = none))
    ∧ (s.mbaCode f.val = some 1 → Runs (.mbaPing f) s (fun t =>
      t.rd (fnPlace f.val) mbaInTaken = 0 ∧ t.rd (fnPlace f.val) mbaInDone = 1 ∧ t.rd (fnPlace f.val) mbaInResult = 0 ∧ (t.fn f.val).mbaIn = none
        ∧ SameCells s t ∧ t.parts = s.parts))
    ∧ (∀ m r rs, s.mbaCode f.val = some 2 → (s.fn f.val).mbaIn = some m → f.val % 25 = 0 → fld (m.data.getD 2 0) 3 0 ≠ 0 →
      (s.bbCopy (bit (m.data.getD 2 0) 4)).run (m.data.getD 1 0).toNat (fld (m.data.getD 2 0) 3 0) = r :: rs →
      exec (.mbaBbRead f) s = .next ((s.writeSlot f.val (fld (m.data.getD 2 0) 21 16) 0 ((r :: rs).flatMap BbRec.bytes)).mbaDone f.val mrOk))
    ∧ (s.mbaCode f.val = some 3 → f.val % 25 = 0 → s.hub.score.markAt = none → Runs (.mbaHostMark f) s (fun t =>
      t.hub.score.markAt = some s.now ∧ t.rd (fnPlace f.val) mbaInDone = 1 ∧ t.rd (fnPlace f.val) mbaInResult = 0 ∧ SameCells s t))
    ∧ (∀ m, (s.fn f.val).mbaIn = some m → s.rd (fnPlace f.val) mbaInPend ≠ 0 → Runs (.mbxTimeoutExpiry (.inA f)) s (fun t =>
      t.rd (fnPlace f.val) mbaInPend = 0 ∧ t.rd (fnPlace f.val) mbaInTimeout = 1 ∧ (t.fn f.val).mbaIn = none ∧ m.at_ + s.mbaTmo f.val ≤ t.now
        ∧ SameCells s t))
    ∧ (∀ msg, s.hub.score.fwUp = true → s.rd (fnPlace f.val) mbaOutPend = 0 → (s.fn f.val).busMaster = true → Runs (.mbaOutGo f msg) s (fun t =>
      t.rd (fnPlace f.val) mbaOutPend = 1 ∧ (t.fn f.val).outAt = s.now
        ∧ (∀ i, i < 16 → t.rd (fnPlace f.val) (mbaOutData i) = ((msg.take 16).getD i 0).toNat) ∧ SameCells s t ∧ t.hub = s.hub))
    ∧ (s.unserved f.val tee = false → s.rd (fnPlace f.val) mbaOutPend ≠ 0 → (s.fn f.val).outq = [] → Runs (.mbaOutAck f tee) s (fun t =>
      t.rd (fnPlace f.val) mbaOutPend = 0 ∧ (t.fn f.val).outEnd = .taken ∧ t = { s with regs := t.regs, fns := t.fns }))
    ∧ (∀ m l, s.unserved f.val tee = false → s.rd (fnPlace f.val) mbaOutPend ≠ 0 → (s.fn f.val).outq = m :: l →
      exec (.mbaOutAck f tee) s = .next ((((s.wr (fnPlace f.val) mbaOutPend 0).updFn f.val (fun x => { x with outEnd := .taken })).updFn f.val
        (fun x => { x with outq := l })).mbaSend f.val m))
    ∧ (s.rd (fnPlace f.val) mbaOutPend ≠ 0 → (s.fn f.val).outq = [] → Runs (.mbxTimeoutExpiry (.outA f)) s (fun t =>
      t.rd (fnPlace f.val) mbaOutPend = 0 ∧ (t.fn f.val).outEnd = .timeout ∧ (s.fn f.val).outAt + s.mbaTmo f.val ≤ t.now ∧ SameCells s t))

/-- A read of a free lock grants it to the reader and reads 0, a read of a lock that another cell holds reads that cell with bit 31 set
and changes nothing; the owner's release frees it; the owner's GO makes its message pending and counts it; a lock whose owner stays
silent for 1 ms is freed; hub firmware takes and finishes a message, and one whose time is over ends with TIMEOUT; an answered result frees the
lock; PING ends OK and HALT_SELF asks for the halt of the sector's partition. -/
def Obligations.ClassBMailboxes : Prop :=
  ∀ (s : State) (k : StackNo) (m : Fin 4) (c q : W16), Canon s →
    (s.hrd (mbbHeld k.val m.val) = 0 → Runs (.mbbLockRead k m c q) s (fun t =>
      t.hrd (mbbHeld k.val m.val) = 1 ∧ t.hrd (mbbOwner k.val m.val) = c.toNat ∧ t.out = s.out ++ [.answer c q ⟨rcOk, bytesLE 4 0, false, 0⟩]
        ∧ SameCells s t ∧ SameEdges s t))
    ∧ (s.hrd (mbbHeld k.val m.val) ≠ 0 → s.hrd (mbbOwner k.val m.val) ≠ c.toNat → Runs (.mbbLockRead k m c q) s (fun t =>
      t = { s with out := s.out ++ [.answer c q ⟨rcOk, bytesLE 4 (BitVec.ofNat 32 (2 ^ 31 + s.hrd (mbbOwner k.val m.val))).toNat, false, 0⟩] }))
    ∧ (s.hrd (mbbHeld k.val m.val) = 1 → s.hrd (mbbOwner k.val m.val) = c.toNat → s.hrd (mbbPend k.val m.val) = 0 → s.hrd (mbbTaken k.val m.val) = 0 →
      Runs (.mbbLockRelease k m c q) s (fun t => t.hrd (mbbHeld k.val m.val) = 0 ∧ t.out = s.out ++ [.answer c q ⟨rcOk, [], false, 0⟩]
        ∧ SameCells s t ∧ SameEdges s t))
    ∧ (s.hrd (mbbHeld k.val m.val) = 1 → s.hrd (mbbOwner k.val m.val) = c.toNat → s.hrd (mbbPend k.val m.val) = 0 → s.hrd (mbbTaken k.val m.val) = 0 →
      s.hub.score.fwUp = true → Runs (.mbbGo k m c q) s (fun t => t.hrd (mbbPend k.val m.val) = 1 ∧ t.hrd (mbbHeld k.val m.val) = 1
        ∧ t.hrd (mbbSeq k.val m.val) = (s.hrd (mbbSeq k.val m.val) + 1) % 2 ^ ((mbbSeq k.val m.val).hi + 1 - (mbbSeq k.val m.val).lo)
        ∧ t.out = s.out ++ [.answer c q ⟨rcOk, [], false, 0⟩] ∧ SameCells s t ∧ SameEdges s t))
    ∧ (∀ code, s.mbbRefuse k.val m.val c = some code → Runs (.mbbGo k m c q) s (fun t =>
      t = { s with out := s.out ++ [.answer c q ⟨code, [], false, 0⟩] }))
    ∧ (s.hrd (mbbHeld k.val m.val) ≠ 0 → s.hrd (mbbPend k.val m.val) = 0 → s.hrd (mbbTaken k.val m.val) = 0 →
      (s.hub.mbb.get {} (4 * k.val + m.val)).sending = false → Runs (.mbbLockExpiry k m) s (fun t =>
        t.hrd (mbbHeld k.val m.val) = 0 ∧ (s.hub.mbb.get {} (4 * k.val + m.val)).grantAt + 1000000 ≤ t.now ∧ SameCells s t ∧ SameEdges s t))
    ∧ ((s.hub.mbb.get {} (4 * k.val + m.val)).sending = true → Runs (.mbbResultAnswered k m) s (fun t =>
      t.hrd (mbbHeld k.val m.val) = 0 ∧ t.hrd (mbbPend k.val m.val) = 0 ∧ t.hrd (mbbTaken k.val m.val) = 0 ∧ t.tiles = s.tiles ∧ SameEdges s t))
    ∧ (s.hub.score.fwUp = true → exec (.mailboxTake (.b k m)) s = .next (s.mbbTake k.val m.val)
      ∧ exec (.mailboxDone (.b k m)) s = .next (s.mbbFinish k.val m.val))
    ∧ (s.hrd (mbbPend k.val m.val) ≠ 0 → exec (.mbxTimeoutExpiry (.b k m)) s
      = .next ((s.till ((s.hub.mbb.get {} (4 * k.val + m.val)).goAt + s.mbbTmo k.val m.val)).mbbEnd k.val m.val 1 0))
    ∧ (s.mbbCode k.val m.val = some 1 → exec (.mbbPing k m) s = .next (s.mbbEnd k.val m.val 0 0))
    ∧ (s.mbbCode k.val m.val = some 2 → exec (.mbbHaltSelf k m) s = .next ((s.haltRequest (s.partOfSector k.val) 1).mbbEnd k.val m.val 0 0))

/-- With the oldest command of a partition's cell-window queue at hand: CELL_WOPEN opens the index on every member and sends the tag;
a close whose members are all CLOSED ends ALREADY_CLOSED, and one with an open member starts on every member; a quiesce of an OPEN
index with a counter starts on every member; a close that has ended everywhere raises its counter and sends its result; CELL_WQUERY
sends the one tag that every member holds. -/
def Obligations.CellWindows : Prop :=
  ∀ (s : State) (p : PartNo) (c : BitVec 512) (l : List Tgt), s.cellMembers p.val c = some l →
    (∀ r : WopenReq, s.cellHead p.val 1 = some c →
      r = { idx := fld c 103 96, rights := BitVec.ofNat 3 (fld c 106 104), skind := BitVec.ofNat 2 (fld c 108 107), srcval := BitVec.ofNat 16 (fld c 124 109)
            cnt := BitVec.ofNat 8 (fld c 132 125), cmode := BitVec.ofNat 2 (fld c 134 133), base64 := fld c 166 135, limit64 := fld c 198 167, dest := .none } →
      (∀ t ∈ l, r.rangeOk (memShape t).2.2 (memShape t).2.1 = true) → s.sourceOk p.val r.skind r.srcval = true → s.oneGen l (fld c 103 96) = true →
      (∀ t ∈ l, ((s.unit t).window (fld c 103 96)).st = .closed) →
      ∃ u v : State, u = (s.cellPop p.val).till (l.foldl (fun a t => max a ((s.unit t).openDue (fld c 103 96))) 0)
        ∧ v = l.foldl (fun s t => s.updUnit t (fun x => x.open_ r u.now (u.dieTb (tgtNode t)))) u
        ∧ exec (.cellWopen p) s
            = .next (v.cellResult p.val c (((v.unit (l.headD .hub)).window (fld c 103 96)).tag (fld c 103 96)) 1 stOk))
    ∧ (s.cellHead p.val 2 = some c → cellCnt l (fld c 205 200) = true → (∀ t ∈ l, ((s.unit t).window (fld c 103 96)).st = .closed) →
      exec (.cellCloseNow p) s = .next ((s.cellPop p.val).cellEndsNow p.val c l stAlreadyClosed))
    ∧ (∀ t ∈ l, s.cellHead p.val 2 = some c → cellCnt l (fld c 205 200) = true → ((s.unit t).window (fld c 103 96)).st ≠ .closed →
      exec (.cellCloseNow p) s = .next ((s.cellPop p.val).cellClose p.val c l (fun id u => u.closeNow (fld c 103 96) none (.cell id))))
    ∧ (s.cellHead p.val 3 = some c → cellCnt l (fld c 205 200) = true → fld c 271 256 ≠ 0 →
      (∀ t ∈ l, ((s.unit t).window (fld c 103 96)).st = .open ∧ ((s.unit t).window (fld c 103 96)).cnt ≠ 0xFF) → l ≠ [] →
      exec (.cellCloseQuiesce p) s = .next ((s.cellPop p.val).cellClose p.val c l
        (fun id u => u.quiesce (fld c 103 96) (fld c 255 208) (s.now + 1000 * fld c 271 256) none (.cell id))))
    ∧ (∀ r : CellCmd, s.hub.cellRun = [r] → r.part = p.val → r.cmd = c → s.members p.val (cellOf c) = l →
      (∀ t ∈ l, ((s.unit t).window (fld c 103 96)).pend = []) →
      exec (.cellCloseEnded p) s = .next (((l.foldl (fun s t => (s.updUnit t (fun u => u.bump (fld c 205 200) 1)).settleUnit t)
        (s.updHub (fun h => { h with cellRun := [] }))).hostPoll p.val).cellResult p.val c r.tag 0 r.status))
    ∧ (s.cellHead p.val 4 = some c → fld c 7 0 = 4 → s.oneGen l (fld c 103 96) = true →
      exec (.cellWquery p) s = .next ((s.cellPop p.val).cellResult p.val c (((s.unit (l.headD .hub)).window (fld c 103 96)).tag (fld c 103 96))
        ((s.unit (l.headD .hub)).window (fld c 103 96)).st.code stOk))

/-- At a tile's scratchpad, for an unscheduled segment younger than 1 ms: a fresh number that passes the checks joins the accepted
segments and changes no byte; one that fails a check leaves the scratchpad and the counters as they were, raises only the window's
count of rejections, and is answered with the check's code; a duplicate PUT whose original was answered is answered OK and changes no
byte. A copy for several tiles (R298) lands at each of them. Aged segments are dropped unanswered. A form that no packet holds stops. -/
def Obligations.SegmentsAtTheirTarget : Prop :=
  ∀ (s : State) (k : TileNo) (g : Segment), Canon s → g.sched = false →
    (segOk (.tile k.val) g = false → Stops (.segmentArrival (.tile k.val) g) s)
    ∧ (segOk (.tile k.val) g = true → s.now ≤ g.issue + 1000000 → (((s.node (tileDie k.val)).dup.get {} g.node.toNat).meet g.seq).2 = .fresh →
      (.tile k.val :: mateTgts (.tile k.val) g).all (fun u => (s.segCheck u g).isSome) = false → s.segFull (.tile k.val) g = false →
      exec (.segmentArrival (.tile k.val) g) s = .next ((.tile k.val :: mateTgts (.tile k.val) g).foldl (fun s u => s.landSeg u g)
        (s.updNode (tileDie k.val) (fun x => { x with
          dup := x.dup.put {} g.node.toNat ((((s.node (tileDie k.val)).dup.get {} g.node.toNat).meet g.seq).1.accept g.seq) }))))
    ∧ (segOk (.tile k.val) g = true → g.mates = 0 → s.now ≤ g.issue + 1000000 →
      (((s.node (tileDie k.val)).dup.get {} g.node.toNat).meet g.seq).2 = .fresh → s.segCheck (.tile k.val) g = none → s.segFull (.tile k.val) g = false →
      Runs (.segmentArrival (.tile k.val) g) s (fun t =>
        (t.tile k.val).w.acc = (s.tile k.val).w.acc ++ [⟨fld g.tag 15 8, ((s.tile k.val).w.window (fld g.tag 15 8)).gen,
            ((s.tile k.val).w.window (fld g.tag 15 8)).cnt, ((s.tile k.val).w.window (fld g.tag 15 8)).cmode, g⟩]
          ∧ (t.tile k.val).spm = (s.tile k.val).spm ∧ (t.tile k.val).w.cc = (s.tile k.val).w.cc ∧ (t.tile k.val).w.win = (s.tile k.val).w.win
          ∧ t = { s with tiles := t.tiles, nodes := t.nodes } ∧ ∀ m, m ≠ k.val → t.tile m = s.tile m))
    ∧ (∀ code, segOk (.tile k.val) g = true → g.mates = 0 → s.now ≤ g.issue + 1000000 →
      (((s.node (tileDie k.val)).dup.get {} g.node.toNat).meet g.seq).2 = .fresh → s.segCheck (.tile k.val) g = some code →
      Runs (.segmentArrival (.tile k.val) g) s (fun t =>
        (t.tile k.val).spm = (s.tile k.val).spm ∧ (t.tile k.val).w.cc = (s.tile k.val).w.cc ∧ (t.tile k.val).w.acc = (s.tile k.val).w.acc
          ∧ (fld g.tag 15 8 < 64 → (t.tile k.val).w.win = ((s.tile k.val).w.updWin (fld g.tag 15 8) (fun w => { w with rej := satInc w.rej })).win)
          ∧ t.out = s.out ++ [.answer g.node g.seq ⟨code, [], false, 0⟩] ∧ ∀ m, m ≠ k.val → t.tile m = s.tile m))
    ∧ (segOk (.tile k.val) g = true → g.mates = 0 → s.now ≤ g.issue + 1000000 → g.op = .put →
      (((s.node (tileDie k.val)).dup.get {} g.node.toNat).meet g.seq).2 = .dup → (s.tile k.val).w.waits g = false →
      Runs (.segmentArrival (.tile k.val) g) s (fun t =>
        t.tiles = s.tiles ∧ t.snodes = s.snodes ∧ t.out = s.out ++ [.answer g.node g.seq ⟨rcOk, [], false, 0⟩]))
    ∧ (segOk (.tile k.val) g = true → g.issue + 1000000 < s.now →
      Runs (.segmentArrival (.tile k.val) g) s (fun t => t.tiles = s.tiles ∧ t.snodes = s.snodes ∧ t.out = s.out ∧ t.hub = s.hub))

/-- An accepted segment takes effect and hub firmware notices what its counter and its window's closes release; a quiesce whose time is
over closes its window; closes without accepted segments end; a read over the control network answers the words it names, or OUT_OF_BOUNDS
beyond the register space, and changes
no register of a tile; a write writes its words; a mailbox PUT is checked as a segment; a plain write does what its
field's access type says, a die-cell's, a function's and a composite cell's member table alike. A register access of another length or off a word stops. -/
def Obligations.VisibilityClosesAndRegisters : Prop :=
  ∀ s : State, Canon s →
    (∀ (m : Tgt) (i : Nat), exec (.segmentWriteVisible m i) s = .next ((s.segVisible m i).hostPoll (s.segPart m 0)))
    ∧ (∀ m : Tgt, exec (.closeComplete m) s = .next ((s.settleUnit m).hostPoll (s.segPart m 0)))
    ∧ (∀ (m : Tgt) (i : Nat), ((s.unit m).window i).st = .quiescing →
      exec (.quiesceTimeout m i) s = .next (((((s.till ((s.unit m).window i).qdead).cellTimeout ((s.unit m).window i)).updUnit m
        (fun u => u.shut i stQuiesceTimeout)).settleUnit m).hostPoll (s.segPart m 0)))
    ∧ (∀ (k : TileNo) (tag : Byte) (off n : Nat), off % 4 = 0 → 1 ≤ n → n ≤ 16 → off + 4 * n ≤ 65536 → Runs (.ctlRegRd (.tile k) tag off n) s (fun t =>
      t = { s with ctlq := s.ctlq ++ [⟨tileDie k.val, .regRsp tag rcOk ((List.range n).map (fun i => BitVec.ofNat 32 ((s.tile k.val).word k.val (off + 4 * i) s.now)))⟩] }))
    ∧ (∀ (m : CtlTgt) (tag : Byte) (off n : Nat), off % 4 ≠ 0 ∨ n = 0 ∨ 16 < n → Stops (.ctlRegRd m tag off n) s)
    ∧ (∀ (m : CtlTgt) (tag : Byte) (off n : Nat), off % 4 = 0 → 1 ≤ n → n ≤ 16 → (ctlTgt m).size < off + 4 * n → Runs (.ctlRegRd m tag off n) s (fun t =>
      t = { s with ctlq := s.ctlq ++ [⟨ctlNode m, .regRsp tag rcOutOfBounds []⟩] }))
    ∧ (∀ (m : CtlTgt) (tag : Byte) (off : Nat) (vs : List W32), off % 4 = 0 → 1 ≤ vs.length → vs.length ≤ 16 →
      (off + 4 * vs.length ≤ (ctlTgt m).size → Runs (.ctlRegWr m tag off vs) s (fun t =>
        t = { s.ctlWrite m off vs with ctlq := (s.ctlWrite m off vs).ctlq ++ [⟨ctlNode m, .regRsp tag rcOk []⟩] }))
      ∧ ((ctlTgt m).size < off + 4 * vs.length → Runs (.ctlRegWr m tag off vs) s (fun t =>
        t = { s with ctlq := s.ctlq ++ [⟨ctlNode m, .regRsp tag rcOutOfBounds []⟩] })))
    ∧ (∀ (m : CtlTgt) (tag : Byte) (off : Nat) (vs : List W32), off % 4 ≠ 0 ∨ vs = [] ∨ 16 < vs.length → Stops (.ctlRegWr m tag off vs) s)
    ∧ (∀ g : Segment, g.op = .put → segOk .hub g = true → 0x40000 ≤ g.off → g.off < 0x41800 →
      (s.segCheck .hub g = none → exec (.ctlMbx g) s = .next (s.acceptSeg .hub g))
      ∧ ∀ code, s.segCheck .hub g = some code → exec (.ctlMbx g) s = .next ((s.rejectSeg .hub g).answer g ⟨code, [], false, 0⟩))
    ∧ (∀ (k : TileNo) (off : Nat) (v : W32), Runs (.registerWrite (.tile k) off v) s (fun t =>
      t.tile k.val = (s.tile k.val).writePlain off v ∧ OnlyTile k.val s t))
    ∧ (∀ (f : Fin 50) (tee : Bool) (off : Nat) (v : W32),
      (s.unserved f.val tee = false → exec (.registerWrite (.fn f tee) off v) s = .next (s.writeFn f.val off v))
      ∧ (s.unserved f.val tee = true → exec (.registerWrite (.fn f tee) off v) s = .next s))
    ∧ (∀ (n : NodeNo) (off : Nat) (v : W32), n.val < 265 → exec (.registerWrite (.die n) off v) s = .next (s.writeNode n.val off v))
    ∧ (∀ (p : PartNo) (off : Nat) (v : W32), exec (.registerWrite (.composite p) off v) s = .next (s.setMember p.val (off / 4) v))

/-- An answer to an outstanding segment of a die-cell takes it off its list, does what the segment was for and lets held sends go on; an answer to none changes
nothing; a segment whose retransmission time is over goes out again with a fresh issue time while its target is up and fewer than seven
retransmissions were made; one whose target is down is answered TARGET_DOWN, one resent seven times TIMEOUT. -/
def Obligations.AnswersAndRetransmission : Prop :=
  ∀ (s : State) (d n : NodeNo) (q : W16),
    (∀ (g : IssSeg) (a : Answer), s.issFind d.val n.val q = some g → exec (.tdmaResponse (.die d) n q a) s
      = .next ((((s.updNode d.val (fun x => { x with iss := { x.iss with out := x.iss.out.filter (fun h => !(h.node == n.val && h.seg.seq == q)) } })).issDone d.val g a).issPump d.val).sxeWake d.val))
    ∧ (∀ a : Answer, s.issFind d.val n.val q = none → Runs (.tdmaResponse (.die d) n q a) s (fun t => t = s))
    ∧ (∀ g : IssSeg, s.issFind d.val n.val q = some g → g.retries < 7 → bit ((s.node d.val).fab.route.get 0 n.val) 6 = false →
      bit ((s.node d.val).fab.route.get 0 n.val) 7 = true → Runs (.tdmaRetransmit (.die d) n q) s (fun t =>
        g.seg.issue + s.issRto d.val ≤ t.now
          ∧ t.out = s.out ++ [.request g.tgt { g.seg with issue := t.now }] ∧ t.tiles = s.tiles ∧ t.snodes = s.snodes ∧ t.hub = s.hub ∧ t.regs = s.regs))
    ∧ (∀ (p : Fin 4) (g : IssSeg), d.val = 265 + p.val → s.issFind d.val n.val q = some g → g.retries < 7 →
      bit ((s.node d.val).fab.route.get 0 n.val) 6 = false → bit ((s.node d.val).fab.route.get 0 n.val) 7 = true →
      Runs (.pdOnpanelRetransmit p n q) s (fun t => g.seg.issue + s.issRto d.val ≤ t.now
        ∧ t.out = s.out ++ [.request g.tgt { g.seg with issue := t.now }] ∧ t.tiles = s.tiles ∧ t.snodes = s.snodes ∧ t.hub = s.hub ∧ t.regs = s.regs))
    ∧ (∀ g : IssSeg, s.issFind d.val n.val q = some g → g.retries < 7 → s.routeDown d.val n.val = true → exec (.tdmaRetransmit (.die d) n q) s
      = .next ((s.till (g.seg.issue + s.issRto d.val)).issAnswer d.val n.val q ⟨rcTargetDown, [], false, 0⟩))
    ∧ (∀ g : IssSeg, s.issFind d.val n.val q = some g → 7 ≤ g.retries → exec (.tdmaRetransmit (.die d) n q) s
      = .next ((s.till (g.seg.issue + s.issRto d.val)).issAnswer d.val n.val q ⟨rcTimeout, [], false, 0⟩))

/-- For every row that is a tile instruction: a sequencer that does not run stays as it is; a word of which a 4-byte piece was read with an uncorrectable error raises
IFETCH_POISON; a word of no instruction, and one that is illegal, raise ILLEGAL_INSN of its unit; a legal word whose predicate is false
only moves the sequencer on; a word whose unit queue is full, or whose channel a VXSCAN uses, holds issue; a word of another kind is not this
row's (the model's choice, log 2). The looper's adjustment leaves the opcode, the predicate and the binding, and without a binding the whole word. -/
def Obligations.IssueOfAnInstruction : Prop :=
  (∀ (l : Looper) (k : InsnKind) (w w' : Insn), (fld w 114 112 = 0 → adjustWord l k w = some w)
    ∧ (adjustWord l k w = some w' → insnKind w' = insnKind w ∧ fld w' 127 112 = fld w 127 112))
  ∧ ∀ (s : State) (c : Instr) (n : TileNo) (k : InsnKind) (w : Insn), issueRow c = some (n, k) →
    (s.tile n.val).seq.imem.get 0 (s.tile n.val).seq.pc = w →
    ((s.tile n.val).seq.st ≠ .run → exec c s = .next s)
    ∧ ((s.tile n.val).seq.st = .run →
      ((∃ i, i < 4 ∧ 4 * (s.tile n.val).seq.pc + i ∈ (s.tile n.val).seq.imemBad) →
        exec c s = .next (s.raise n.val exIfetch (fld w 127 125) (s.tile n.val).seq.pc))
      ∧ ((∀ i, i < 4 → 4 * (s.tile n.val).seq.pc + i ∉ (s.tile n.val).seq.imemBad) →
        (insnKind w = none → exec c s = .next (s.raise n.val exIllegal (fld w 127 125) (s.tile n.val).seq.pc))
        ∧ (∀ k', insnKind w = some k' → k' ≠ k → exec c s = .next s)
        ∧ (insnKind w = some k → (s.tile n.val).executes w = false → insnLegal k w = true →
          exec c s = .next (s.advance n.val (s.tile n.val).seq.pc))
        ∧ (insnKind w = some k → (s.tile n.val).executes w = false → insnLegal k w = false →
          exec c s = .next (s.raise n.val exIllegal (fld w 127 125) (s.tile n.val).seq.pc))
        ∧ (insnKind w = some k → (s.tile n.val).executes w = true → adjustWord (s.tile n.val).loop k w = none →
          exec c s = .next (s.raise n.val exIllegal (fld w 127 125) (s.tile n.val).seq.pc))
        ∧ (∀ w', insnKind w = some k → (s.tile n.val).executes w = true → adjustWord (s.tile n.val).loop k w = some w' →
          insnLegal k w' = false → exec c s = .next (s.raise n.val exIllegal (fld w 127 125) (s.tile n.val).seq.pc))
        ∧ (∀ w' u, insnKind w = some k → (s.tile n.val).executes w = true → adjustWord (s.tile n.val).loop k w = some w' →
          insnLegal k w' = true → (s.tile n.val).blocked k w' = some u →
          exec c s = .next (s.holdAt n.val (s.tile n.val).seq.pc (.queue u)))))

/-- The first exception stops issue, records code, index and unit, abandons the work of the matrix array and the vector engine, leaves
the DMA, the windows and their counters, the predicates, the looper, IMEM, the identity and the exchange as they are, and reports to hub
firmware; every scratchpad byte outside the abandoned drains and stores reads as before. A later fault only sets SEQ_EXC_MORE. -/
def Obligations.TileExceptions : Prop :=
  ∀ (s : State) (n : TileNo) (code : BitVec 4) (u pc : Nat), Canon s → pc < 2048 → u < 8 →
    ((s.tile n.val).seq.st ≠ .exc →
      s.raise n.val code u pc = { (s.setTile n.val ((s.raise n.val code u pc).tile n.val)) with
          ctlq := s.ctlq ++ [⟨tileDie n.val, .msg (.exception n.val code (BitVec.ofNat 11 pc) (BitVec.ofNat 3 u))⟩], freeCtr := s.freeCtr + 64 }
      ∧ (s.raise n.val code u pc).tile n.val = { s.tile n.val with
          seq := { (s.tile n.val).seq with st := .exc, hold := .none, excCode := code, excPc := BitVec.ofNat 11 pc, excUnit := BitVec.ofNat 3 u }
          mxa := (s.tile n.val).mxa.abandon s.freeCtr, vxe := (s.tile n.val).vxe.abandon (s.freeCtr + 8)
          spm := ((s.raise n.val code u pc).tile n.val).spm }
      ∧ ((s.tile n.val).abandonedRanges = [] → ((s.raise n.val code u pc).tile n.val).spm = (s.tile n.val).spm)
      ∧ ((s.tile n.val).mxa.abandon s.freeCtr).q = [] ∧ ((s.tile n.val).mxa.abandon s.freeCtr).veins = []
      ∧ ((s.tile n.val).mxa.abandon s.freeCtr).drains = [] ∧ ((s.tile n.val).vxe.abandon (s.freeCtr + 8)).q = []
      ∧ ((s.tile n.val).vxe.abandon (s.freeCtr + 8)).run = [] ∧ ((s.tile n.val).vxe.abandon (s.freeCtr + 8)).wait = .none)
    ∧ ((s.tile n.val).seq.st = .exc →
      s.raise n.val code u pc = s.updTile n.val (fun x => { x with seq := { x.seq with excMore := true } }))

/-- Issue goes on at the next index; where the most recently started active body ends there and has iterations left it adds 1 to its
level's index and goes back to the body's first instruction; past index 2,047 LOOP_FAULT is raised. NOP only goes on. LOOP makes its level
active at iteration 0 over the body that follows, skips a body of count 0, and raises LOOP_FAULT on an active level, past index 2,047 or past
an enclosing body. JMP goes to its target after its two cycles, inside every active body and from no body's last instruction. -/
def Obligations.LoopsAndJumps : Prop :=
  ∀ (s : State) (n : TileNo) (w w' : Insn) (x : Tile), s.tile n.val = x →
    (∀ pc, pc < 2047 → x.loop.endsAt pc = none →
      s.advance n.val pc = s.setTile n.val { x with seq := { x.seq with st := .run, hold := .none, pc := pc + 1 } })
    ∧ (∀ pc L, x.loop.endsAt pc = some L → (x.loop.level L).i + 1 < (x.loop.level L).n → (x.loop.level L).first ≤ 2047 →
      s.advance n.val pc = s.setTile n.val { x with
        loop := { x.loop with lev := x.loop.lev.put {} L { x.loop.level L with i := (x.loop.level L).i + 1 } }
        seq := { x.seq with st := .run, hold := .none, pc := (x.loop.level L).first } })
    ∧ (∀ pc L, pc < 2047 → x.loop.endsAt pc = some L → (x.loop.level L).n ≤ (x.loop.level L).i + 1 →
      ({ x.loop with lev := x.loop.lev.put {} L { x.loop.level L with active := false } } : Looper).endsAt pc = none →
      s.advance n.val pc = s.setTile n.val { x with
        loop := { x.loop with lev := x.loop.lev.put {} L { x.loop.level L with active := false } }
        seq := { x.seq with st := .run, hold := .none, pc := pc + 1 } })
    ∧ (x.loop.endsAt 2047 = none → s.advance n.val 2047 = (s.setTile n.val x).raise n.val exLoop (fld (x.seq.imem.get 0 2047) 127 125) 2047)
    ∧ (Issues .nop n.val w w' s → exec (.nop n) s = .next (s.advance n.val x.seq.pc))
    ∧ (Issues .loop n.val w w' s → (x.loop.level (fld w' 111 110)).active = false → x.seq.pc + fld w' 10 0 ≤ 2047 →
      (∀ M, M < 4 → (x.loop.level M).active = true → x.seq.pc + fld w' 10 0 ≤ (x.loop.level M).last) →
      (fld w' 87 64 ≠ 0 → exec (.loopStart n) s = .next (s.setTile n.val { x with
        loop := { x.loop with
          lev := x.loop.lev.put {} (fld w' 111 110) ⟨true, fld w' 87 64, 0, x.seq.pc + 1, x.seq.pc + fld w' 10 0, x.loop.started + 1⟩
          started := x.loop.started + 1 }
        seq := { x.seq with pc := x.seq.pc + 1 } }))
      ∧ (fld w' 87 64 = 0 → x.seq.pc + fld w' 10 0 < 2047 → x.loop.endsAt (x.seq.pc + fld w' 10 0) = none →
        exec (.loopStart n) s = .next (s.setTile n.val { x with seq := { x.seq with pc := x.seq.pc + fld w' 10 0 + 1 } })))
    ∧ (Issues .loop n.val w w' s → (x.loop.level (fld w' 111 110)).active = true ∨ 2047 < x.seq.pc + fld w' 10 0
        ∨ (∃ M, M < 4 ∧ (x.loop.level M).active = true ∧ (x.loop.level M).last < x.seq.pc + fld w' 10 0) →
      exec (.loopStart n) s = .next (s.raise n.val exLoop 5 x.seq.pc))
    ∧ (Issues .jmp n.val w w' s →
      (∀ L, L < 4 → (x.loop.level L).active = true → (x.loop.level L).first ≤ fld w' 10 0 ∧ fld w' 10 0 ≤ (x.loop.level L).last
        ∧ (x.loop.level L).last ≠ x.seq.pc) →
      exec (.jmp n) s = .next (s.setTile n.val { x with seq := { x.seq with st := .hold, hold := .jmp, holdPc := x.seq.pc, pc := fld w' 10 0 } }))
    ∧ (Issues .jmp n.val w w' s →
      (∃ L, L < 4 ∧ (x.loop.level L).active = true ∧ (fld w' 10 0 < (x.loop.level L).first ∨ (x.loop.level L).last < fld w' 10 0
        ∨ (x.loop.level L).last = x.seq.pc)) →
      exec (.jmp n) s = .next (s.raise n.val exLoop 0 x.seq.pc))
    ∧ (x.seq.hold = .jmp → exec (.issueHoldRelease n) s = .next (s.setTile n.val { x with seq := { x.seq with st := .run, hold := .none } }))

/-- PSET writes its constant, a comparison with a counter, a loop index test or a combination of two predicates into the predicate it names
(p0 goes on reading 1, and p8 to p15 read FIRST and LAST of the levels); LSTRIDE writes one generator's stride of one level; LBIND writes one
binding. Each then goes on, and changes nothing else. -/
def Obligations.PredicatesStridesAndBindings : Prop :=
  ∀ (s : State) (n : TileNo) (w w' : Insn) (x : Tile), s.tile n.val = x →
    (∀ p, p < 16 → x.pred p = (if p = 0 then true else if p < 8 then x.seq.pred.toNat.testBit p
      else if p < 12 then (x.loop.level (p - 8)).active && decide ((x.loop.level (p - 8)).i = 0)
      else (x.loop.level (p - 12)).active && decide ((x.loop.level (p - 12)).i + 1 = (x.loop.level (p - 12)).n)))
    ∧ (Issues .pset n.val w w' s → exec (.pset n) s
        = .next ((s.setTile n.val { x with seq := x.seq.setPred (fld w' 111 109) (psetValue x w') }).advance n.val x.seq.pc)
      ∧ (∀ p, p < 8 → (x.seq.setPred (fld w' 111 109) (psetValue x w')).pred.toNat.testBit p
          = if p = fld w' 111 109 then psetValue x w' else x.seq.pred.toNat.testBit p)
      ∧ (fld w' 108 107 = 0 → psetValue x w' = bit w' 64)
      ∧ (fld w' 108 107 = 1 → psetValue x w' = decide (fld w' 95 64 ≤ (x.w.ccnt (fld w' 104 100)).val.toNat))
      ∧ (fld w' 108 107 = 2 → psetValue x w' = ((x.loop.level (fld w' 106 105)).active && decide ((x.loop.level (fld w' 106 105)).i = fld w' 87 64))))
    ∧ (Issues .lstride n.val w w' s → exec (.lstride n) s = .next ((s.setTile n.val { x with loop := { x.loop with
        gstr := x.loop.gstr.put 0 (4 * fld w' 111 109 + fld w' 108 107) (BitVec.ofNat 32 (fld w' 95 64)) } }).advance n.val x.seq.pc))
    ∧ (Issues .lbind n.val w w' s → exec (.lbind n) s = .next ((s.setTile n.val { x with loop := { x.loop with
        bind := x.loop.bind.put {} (fld w' 111 109) ⟨BitVec.ofNat 4 (fld w' 3 0), BitVec.ofNat 4 (fld w' 7 4), BitVec.ofNat 4 (fld w' 11 8)⟩ } }).advance
          n.val x.seq.pc))

/-- WOPEN opens a CLOSED window with the next generation and writes its result word, answers a window that is not CLOSED WIN_BUSY and bad
parameters BAD_PARAM without opening, and holds issue for 4 µs after the index's last OPEN; CLOSE_NOW and CLOSE_QUIESCE start their close, or end
at once with ALREADY_CLOSED, WIN_BUSY or BAD_PARAM, writing the result and raising the done counter; WQUERY writes tag and state; CCNT_SET
sets a counter and clears its bits; CCNT_GET writes a counter's value and bits. The result's four bytes lie in powered banks. -/
def Obligations.TileWindowCommands : Prop :=
  ∀ (s : State) (n : TileNo) (w w' : Insn) (x : Tile), Canon s → s.tile n.val = x →
    (Issues .wopen n.val w w' s → x.spm.refused (fld w' 61 38) 4 = none →
      ((x.w.window (fld w' 111 106)).st = .closed → (wopenReq w' x.seq.pc).rangeOk 262144 32 = true →
        s.sourceOk x.id.part.toNat (wopenReq w' x.seq.pc).skind (wopenReq w' x.seq.pc).srcval = true → x.w.openDue (fld w' 111 106) ≤ s.now →
        exec (.wopen n) s = .next ((s.setTile n.val { x with
          w := x.w.open_ (wopenReq w' x.seq.pc) s.now (s.dieTb (tileDie n.val))
          spm := x.spm.write (fld w' 61 38) (bytesLE 4 (resultWord ((x.w.open_ (wopenReq w' x.seq.pc) s.now (s.dieTb (tileDie n.val))).window (fld w' 111 106))
            (fld w' 111 106) 0)) false }).advance n.val x.seq.pc))
      ∧ ((x.w.window (fld w' 111 106)).st = .closed → (wopenReq w' x.seq.pc).rangeOk 262144 32 = true →
        s.sourceOk x.id.part.toNat (wopenReq w' x.seq.pc).skind (wopenReq w' x.seq.pc).srcval = true → s.now < x.w.openDue (fld w' 111 106) →
        exec (.wopen n) s = .next (s.holdAt n.val x.seq.pc (.wopen (wopenReq w' x.seq.pc))))
      ∧ ((x.w.window (fld w' 111 106)).st ≠ .closed → exec (.wopen n) s = .next ((s.setTile n.val { x with
          spm := x.spm.write (fld w' 61 38) (bytesLE 4 (resultWord (x.w.window (fld w' 111 106)) (fld w' 111 106) stBusy)) false }).advance n.val x.seq.pc))
      ∧ ((x.w.window (fld w' 111 106)).st = .closed → (wopenReq w' x.seq.pc).rangeOk 262144 32 = false →
        exec (.wopen n) s = .next ((s.setTile n.val { x with
          spm := x.spm.write (fld w' 61 38) (bytesLE 4 (resultWord (x.w.window (fld w' 111 106)) (fld w' 111 106) stBadParam)) false }).advance
            n.val x.seq.pc)))
    ∧ (∀ r, x.seq.hold = .wopen r → exec (.wopenHoldRelease n) s = .next ((s.till (x.w.openDue r.idx)).commitOpen n.val x.seq.holdPc r))
    ∧ (Issues .closeNow n.val w w' s →
      ((x.w.window (fld w' 111 106)).st ≠ .closed → exec (.closeNow n) s = .next ((((s.setTile n.val { x with
          w := x.w.closeNow (fld w' 111 106) (some (fld w' 105 101)) (.tileWord (fld w' 61 38) x.seq.pc) }).settleTile n.val).tilePoll n.val).advanceOk
            n.val x.seq.pc))
      ∧ ((x.w.window (fld w' 111 106)).st = .closed → exec (.closeNow n) s
          = .next ((s.closeEnds n.val x.seq.pc (fld w' 111 106) (fld w' 61 38) (fld w' 105 101) stAlreadyClosed).advanceOk n.val x.seq.pc)))
    ∧ (Issues .closeQuiesce n.val w w' s →
      ((x.w.window (fld w' 111 106)).st = .open → (x.w.window (fld w' 111 106)).cnt ≠ 0xFF → fld w' 31 16 ≠ 0 →
        exec (.closeQuiesce n) s = .next ((((s.setTile n.val { x with
          w := x.w.quiesce (fld w' 111 106) (fld w' 95 64 + 2 ^ 32 * fld w' 15 0) (s.now + 1000 * fld w' 31 16) (some (fld w' 105 101))
            (.tileWord (fld w' 55 32) x.seq.pc) }).settleTile n.val).tilePoll n.val).advanceOk n.val x.seq.pc))
      ∧ ((x.w.window (fld w' 111 106)).st = .quiescing → exec (.closeQuiesce n) s
          = .next ((s.closeEnds n.val x.seq.pc (fld w' 111 106) (fld w' 55 32) (fld w' 105 101) stBusy).advanceOk n.val x.seq.pc))
      ∧ ((x.w.window (fld w' 111 106)).st = .open → (x.w.window (fld w' 111 106)).cnt = 0xFF ∨ fld w' 31 16 = 0 → exec (.closeQuiesce n) s
          = .next ((s.closeEnds n.val x.seq.pc (fld w' 111 106) (fld w' 55 32) (fld w' 105 101) stBadParam).advanceOk n.val x.seq.pc)))
    ∧ (Issues .wquery n.val w w' s → x.spm.refused (fld w' 61 38) 4 = none → exec (.wquery n) s = .next ((s.setTile n.val { x with
        spm := x.spm.write (fld w' 61 38) (bytesLE 4 (resultWord (x.w.window (fld w' 111 106)) (fld w' 111 106) 0)) false }).advance n.val x.seq.pc))
    ∧ (Issues .ccntSet n.val w w' s → exec (.ccntSet n) s = .next ((((s.setTile n.val { x with
        w := x.w.ccntSet (fld w' 111 107) (fld w' 95 64 + 2 ^ 32 * fld w' 15 0) }).settleTile n.val).tilePoll n.val).advanceOk n.val x.seq.pc))
    ∧ (Issues .ccntGet n.val w w' s → x.spm.refused (fld w' 23 0) 8 = none → exec (.ccntGet n) s = .next ((s.setTile n.val { x with
        spm := x.spm.write (fld w' 23 0) (bytesLE 8 (ccntWord (x.w.ccnt (fld w' 111 107)))) false }).advance n.val x.seq.pc))

/-- FENCE, END and STEP hold issue; a FENCE whose units are complete goes on, or raises REMOTE_FAULT when it names the DMA and TDMA_ERR_V is
set; END then makes every loop level inactive and the sequencer IDLE; STEP then arrives on the step channel with the phase's flags. WAITCNT
goes on once its counter has reached the value, raises REMOTE_FAULT on the counter's error bit, which decides first, and holds otherwise.
ILOAD holds, copies its words into IMEM one by one, each word read with an uncorrectable error marked so, and goes on; into an active body it
raises LOOP_FAULT, and from a bank that is off, at issue or at its end, the bank fault. -/
def Obligations.FencesWaitsAndLoads : Prop :=
  ∀ (s : State) (n : TileNo) (w w' : Insn) (x : Tile), Canon s → s.tile n.val = x →
    (Issues .fence n.val w w' s → exec (.fence n) s = .next (s.holdAt n.val x.seq.pc (.fence (fld w' 99 96))))
    ∧ (∀ m, x.seq.hold = .fence m → x.fenceDone m = true →
      (m.testBit 2 = false ∨ x.tdma.err.v = false → exec (.fenceComplete n) s = .next (s.advance n.val x.seq.holdPc))
      ∧ (m.testBit 2 = true → x.tdma.err.v = true → exec (.fenceComplete n) s = .next (s.raise n.val exRemote 0 x.seq.holdPc)))
    ∧ (Issues .endp n.val w w' s → exec (.endProg n) s = .next (s.holdAt n.val x.seq.pc .endFence))
    ∧ (x.seq.hold = .endFence → x.fenceDone 15 = true → x.tdma.err.v = false → (s.part x.id.part.toNat).wbs.closing = false →
      exec (.endComplete n) s = .next (s.setTile n.val { x with
        loop := x.loop.stop, seq := { x.seq with st := .idle, hold := .none, pc := (x.seq.holdPc + 1) % 2048 } }))
    ∧ (Table.wf {} x.loop.lev = true → ∀ L, L < 4 → (x.loop.stop.level L).active = false)
    ∧ (Issues .step n.val w w' s → exec (.stepFence n) s = .next (s.holdAt n.val x.seq.pc (.step false)))
    ∧ (x.seq.hold = .step false → x.fenceDone 11 = true → exec (.fenceComplete n) s = .next (s.stepArrive n.val))
    ∧ (Issues .waitcnt n.val w w' s →
      ((x.w.ccnt (fld w' 111 107)).err = true → exec (.waitcnt n) s = .next (s.raise n.val exRemote 4 x.seq.pc))
      ∧ ((x.w.ccnt (fld w' 111 107)).err = false → fld w' 95 64 + 2 ^ 32 * fld w' 15 0 ≤ (x.w.ccnt (fld w' 111 107)).val.toNat →
        exec (.waitcnt n) s = .next (s.advance n.val x.seq.pc))
      ∧ ((x.w.ccnt (fld w' 111 107)).err = false → (x.w.ccnt (fld w' 111 107)).val.toNat < fld w' 95 64 + 2 ^ 32 * fld w' 15 0 →
        exec (.waitcnt n) s = .next (s.holdAt n.val x.seq.pc (.waitcnt (fld w' 111 107) (fld w' 95 64 + 2 ^ 32 * fld w' 15 0)))))
    ∧ (∀ c v, x.seq.hold = .waitcnt c v →
      ((x.w.ccnt c).err = false → v ≤ (x.w.ccnt c).val.toNat → exec (.waitcntComplete n) s = .next (s.advance n.val x.seq.holdPc))
      ∧ ((x.w.ccnt c).err = true → exec (.waitcntComplete n) s = .next (s.raise n.val exRemote 4 x.seq.holdPc)))
    ∧ (Issues .iload n.val w w' s →
      ((∀ L, L < 4 → (x.loop.level L).active = true →
          fld w' 34 24 + (fld w' 45 35 + 1) ≤ (x.loop.level L).first ∨ (x.loop.level L).last < fld w' 34 24) →
        (x.spm.refused (fld w' 23 0) (16 * (fld w' 45 35 + 1)) = none →
          exec (.iload n) s = .next (s.holdAt n.val x.seq.pc (.iload (fld w' 23 0) (fld w' 34 24) (fld w' 45 35 + 1))))
        ∧ (∀ f, x.spm.refused (fld w' 23 0) (16 * (fld w' 45 35 + 1)) = some f → exec (.iload n) s = .next (s.bankFault n.val f 0 x.seq.pc)))
      ∧ ((∃ L, L < 4 ∧ (x.loop.level L).active = true ∧ (x.loop.level L).first < fld w' 34 24 + (fld w' 45 35 + 1) ∧ fld w' 34 24 ≤ (x.loop.level L).last) →
        exec (.iload n) s = .next (s.raise n.val exLoop 0 x.seq.pc)))
    ∧ (∀ src dst k, x.seq.hold = .iload src dst k →
      (x.spm.refused src (16 * k) = none → exec (.iloadComplete n) s = .next ((s.setTile n.val { x with
        spm := (iloadWords src dst k (x.spm, x.seq)).1, seq := (iloadWords src dst k (x.spm, x.seq)).2 }).advance n.val x.seq.holdPc))
      ∧ (∀ f, x.spm.refused src (16 * k) = some f → exec (.iloadComplete n) s = .next (s.bankFault n.val f 0 x.seq.holdPc)))
    ∧ (∀ src dst k spm q, iloadWords src dst 0 (spm, q) = (spm, q)
      ∧ iloadWords src dst (k + 1) (spm, q) = iloadWords (src + 16) (dst + 1) k ((spm.read src 16).1, { q with
          imem := q.imem.put 0 dst (BitVec.ofNat 128 (ofLE (spm.read src 16).2.1))
          imemBad := q.imemBad.filter (· / 4 != dst) ++ (if (spm.read src 16).2.2 then [4 * dst, 4 * dst + 1, 4 * dst + 2, 4 * dst + 3] else []) }))

/-- On a channel whose domain has the tile and that no QUERY_COUNTER has armed, BAR and FLAGOR arrive and hold; CWAIT arrives once its counter
has reached the value, or, marked as faulted, once its error bit is set, and holds; on another channel each raises SYNC_MISMATCH and sends
nothing; on an armed one the command that armed it ends SYNC_CONFLICT too. Nothing but the tile's arrivals and its hold changes. -/
def Obligations.BarriersOfATile : Prop :=
  ∀ (s : State) (n : TileNo) (w w' : Insn) (x : Tile), Canon s → s.tile n.val = x →
    (Issues .bar n.val w w' s →
      (s.onChannel n.val (fld w' 111 108) = true → s.armed n.val (fld w' 111 108) = false → exec (.bar n) s = .next (s.setTile n.val { x with
        arr := x.arr.put none (fld w' 111 108) (some ⟨.bar, false, false, false, 0⟩)
        seq := { x.seq with st := .hold, hold := .bar (fld w' 111 108), holdPc := x.seq.pc } }))
      ∧ (s.onChannel n.val (fld w' 111 108) = false → exec (.bar n) s = .next (s.raise n.val exMismatch 4 x.seq.pc))
      ∧ (s.onChannel n.val (fld w' 111 108) = true → s.armed n.val (fld w' 111 108) = true →
        exec (.bar n) s = .next ((s.conflict n.val (fld w' 111 108)).raise n.val exMismatch 4 x.seq.pc)))
    ∧ (Issues .flagor n.val w w' s →
      (s.onChannel n.val (fld w' 111 108) = true → s.armed n.val (fld w' 111 108) = false → exec (.flagor n) s = .next (s.setTile n.val { x with
        arr := x.arr.put none (fld w' 111 108) (some ⟨.flagor, false, false, false, BitVec.ofNat 64 (fld w' 95 64)⟩)
        seq := { x.seq with st := .hold, hold := .flagor (fld w' 111 108) (fld w' 107 105) (fld w' 23 0), holdPc := x.seq.pc } }))
      ∧ (s.onChannel n.val (fld w' 111 108) = false → exec (.flagor n) s = .next (s.raise n.val exMismatch 4 x.seq.pc))
      ∧ (s.onChannel n.val (fld w' 111 108) = true → s.armed n.val (fld w' 111 108) = true →
        exec (.flagor n) s = .next ((s.conflict n.val (fld w' 111 108)).raise n.val exMismatch 4 x.seq.pc)))
    ∧ (Issues .cwait n.val w w' s →
      (s.onChannel n.val (fld w' 111 108) = true → s.armed n.val (fld w' 111 108) = false →
        ((x.w.ccnt (fld w' 107 103)).err = true ∨ fld w' 95 64 + 2 ^ 32 * fld w' 15 0 ≤ (x.w.ccnt (fld w' 107 103)).val.toNat →
          exec (.cwait n) s = .next (s.setTile n.val { x with
            arr := x.arr.put none (fld w' 111 108) (some ⟨.cwait, (x.w.ccnt (fld w' 107 103)).err, false, false, 0⟩)
            seq := { x.seq with
              st := .hold, hold := .cwait (fld w' 111 108) (fld w' 107 103) (fld w' 95 64 + 2 ^ 32 * fld w' 15 0) true, holdPc := x.seq.pc } }))
        ∧ ((x.w.ccnt (fld w' 107 103)).err = false → (x.w.ccnt (fld w' 107 103)).val.toNat < fld w' 95 64 + 2 ^ 32 * fld w' 15 0 →
          exec (.cwait n) s
            = .next (s.holdAt n.val x.seq.pc (.cwait (fld w' 111 108) (fld w' 107 103) (fld w' 95 64 + 2 ^ 32 * fld w' 15 0) false))))
      ∧ (s.onChannel n.val (fld w' 111 108) = false → exec (.cwait n) s = .next (s.raise n.val exMismatch 4 x.seq.pc))
      ∧ (s.onChannel n.val (fld w' 111 108) = true → s.armed n.val (fld w' 111 108) = true →
        exec (.cwait n) s = .next ((s.conflict n.val (fld w' 111 108)).raise n.val exMismatch 4 x.seq.pc)))
    ∧ (∀ ch c v, x.seq.hold = .cwait ch c v false → (x.w.ccnt c).err = true ∨ v ≤ (x.w.ccnt c).val.toNat →
      exec (.cwaitArrival n) s = .next (s.setTile n.val { x with
        arr := x.arr.put none ch (some ⟨.cwait, (x.w.ccnt c).err, false, false, 0⟩)
        seq := { x.seq with st := .hold, hold := .cwait ch c v true, holdPc := x.seq.holdPc } }))

/-- A write of TILE_CMDQ appends bits 10 to 0 to fewer than 16 entries, and on 16 sets the overflow bit and discards; SEQ_ENABLE holds
what is written and moves the sequencer between STOPPED and IDLE, and no other state; an IDLE sequencer takes the oldest entry, counts it and runs from its index; a tile reset stops the
sequencer at index 0, empties the queue, clears predicates, looper, target registers, record and counters, and keeps IMEM, the scratchpad, the
identity and the sequence numbering. -/
def Obligations.TheTileCommandQueue : Prop :=
  ∀ (s : State) (n : TileNo) (x : Tile), Canon s → s.tile n.val = x →
    (∀ v : W32, (x.seq.cmdq.length < 16 → exec (.tileCmdqWrite n v) s
        = .next (s.setTile n.val { x with seq := { x.seq with cmdq := x.seq.cmdq ++ [fld v 10 0] } }))
      ∧ (16 ≤ x.seq.cmdq.length → exec (.tileCmdqWrite n v) s = .next (s.setTile n.val { x with seq := { x.seq with cmdqOvf := true } })))
    ∧ exec (.seqEnableSet n) s = .next (s.setTile n.val { x with seq := { x.seq with en := true, st := if x.seq.st = .stopped then .idle else x.seq.st } })
    ∧ exec (.seqEnableClear n) s = .next (s.setTile n.val { x with seq := { x.seq with en := false, st := if x.seq.st = .idle then .stopped else x.seq.st } })
    ∧ (∀ e r, x.seq.st = .idle → x.seq.cmdq = e :: r → exec (.seqTakeEntry n) s = .next (s.setTile n.val { x with
        seq := { x.seq with st := .run, pc := e, cmdq := r, cmdqTaken := x.seq.cmdqTaken + 1 } }))
    ∧ Runs (.seqReset n) s (fun t =>
      (t.tile n.val).seq.en = false ∧ (t.tile n.val).seq.st = .stopped ∧ (t.tile n.val).seq.pc = 0 ∧ (t.tile n.val).seq.cmdq = [] ∧ (t.tile n.val).seq.pred = 0
        ∧ (t.tile n.val).seq.excCode = 0 ∧ (t.tile n.val).seq.excMore = false ∧ (t.tile n.val).seq.imem = x.seq.imem ∧ (t.tile n.val).loop = {}
        ∧ (t.tile n.val).tdma.t = [] ∧ (t.tile n.val).tdma.q = [] ∧ (t.tile n.val).tdma.out = [] ∧ (t.tile n.val).tdma.seqNext = x.tdma.seqNext
        ∧ (t.tile n.val).w.cc = [] ∧ (t.tile n.val).w.win = closeAll x.w.win 64 ∧ (t.tile n.val).vxe = {} ∧ (t.tile n.val).mxa = x.mxa.reset
        ∧ (t.tile n.val).spm = x.spm ∧ (t.tile n.val).id = x.id ∧ (t.tile n.val).xe = x.xe ∧ (∀ m, m ≠ n.val → t.tile m = s.tile m)
        ∧ t.snodes = s.snodes ∧ SameEdges s t)

/-- TTGT writes one target register; a remote operation enters the DMA queue with the register's base and tag as they stand, its offset,
local address, length and source counter; the oldest queued operation starts while fewer than 64 are outstanding and no exception is taken:
a local byte that is off is the bank fault, an address of no memory fails ADDR_FAULT, one outside the partition PART_FAULT, a length of 0 is
complete at once, and anything else is outstanding with its segments going out. -/
def Obligations.RemoteOperations : Prop :=
  ∀ (s : State) (n : TileNo) (w w' : Insn) (x : Tile), Canon s → s.tile n.val = x →
    (Issues .ttgt n.val w w' s → exec (.ttgt n) s = .next ((s.setTile n.val { x with tdma := { x.tdma with
        t := x.tdma.t.put {} (fld w' 111 108) ⟨BitVec.ofNat 56 (fld w' 55 0), BitVec.ofNat 16 (fld w' 79 64)⟩ } }).advance n.val x.seq.pc))
    ∧ (Issues .put n.val w w' s → exec (.putOp n) s
        = .next ((s.setTile n.val { x with tdma := { x.tdma with q := x.tdma.q ++ [tdmaOp x .put w' x.seq.pc] } }).advance n.val x.seq.pc))
    ∧ (Issues .get n.val w w' s → exec (.getOp n) s
        = .next ((s.setTile n.val { x with tdma := { x.tdma with q := x.tdma.q ++ [tdmaOp x .get w' x.seq.pc] } }).advance n.val x.seq.pc))
    ∧ (Issues .fadd n.val w w' s → exec (.fadd n) s
        = .next ((s.setTile n.val { x with tdma := { x.tdma with q := x.tdma.q ++ [tdmaOp x .fadd w' x.seq.pc] } }).advance n.val x.seq.pc))
    ∧ (Issues .cswap n.val w w' s → exec (.cswap n) s
        = .next ((s.setTile n.val { x with tdma := { x.tdma with q := x.tdma.q ++ [tdmaOp x .cswap w' x.seq.pc] } }).advance n.val x.seq.pc))
    ∧ (Issues .for_ n.val w w' s → exec (.forOr n) s
        = .next ((s.setTile n.val { x with tdma := { x.tdma with q := x.tdma.q ++ [tdmaOp x .for_ w' x.seq.pc] } }).advance n.val x.seq.pc))
    ∧ (∀ op pc, (tdmaOp x op w' pc).pga = (x.tdma.t.get {} (fld w' 111 108)).base + BitVec.ofNat 56 (fld w' 63 24)
        ∧ (tdmaOp x op w' pc).tag = (x.tdma.t.get {} (fld w' 111 108)).tag
        ∧ (tdmaOp x op w' pc).local_ = (if opAtomic op then (fld w' 23 0, 24) else (fld w' 23 0, fld w' 88 64)))
    ∧ (x.tdma.t = [] → (x.tdma.t.get {} (fld w' 111 108)).base = 0xE0000000000000)
    ∧ (∀ o rest, x.tdma.q = o :: rest →
      (x.seq.st = .exc ∨ 64 ≤ x.tdma.out.length → exec (.tdmaOpStart n) s = .next s)
      ∧ (x.seq.st ≠ .exc → x.tdma.out.length < 64 →
        (∀ f, x.spm.refused o.local_.1 o.local_.2 = some f → exec (.tdmaOpStart n) s
          = .next ((s.setTile n.val { x with tdma := { x.tdma with q := rest } }).bankFault n.val f 3 o.pc.toNat))
        ∧ (x.spm.refused o.local_.1 o.local_.2 = none →
          (decodePga o.pga o.len (s.partStacks x.id.part.toNat).length = none → exec (.tdmaOpStart n) s
            = .next (s.setTile n.val (({ x with tdma := { x.tdma with q := rest } } : Tile).tdmaFail o rcAddrFault)))
          ∧ (∀ d, decodePga o.pga o.len (s.partStacks x.id.part.toNat).length = some d →
            (s.destInPart x.id.part.toNat d = false → exec (.tdmaOpStart n) s
              = .next (s.setTile n.val (({ x with tdma := { x.tdma with q := rest } } : Tile).tdmaFail o rcPartFault)))
            ∧ (s.destInPart x.id.part.toNat d = true → o.len = 0 → exec (.tdmaOpStart n) s
              = .next ((s.setTile n.val { x with tdma := { x.tdma with q := rest } }).countSource n.val o 0))
            ∧ (s.destInPart x.id.part.toNat d = true → o.len ≠ 0 → opAtomic o.op = false → exec (.tdmaOpStart n) s
              = .next (((s.setTile n.val { x with tdma := { x.tdma with
                  q := rest, out := x.tdma.out ++ [⟨o, d.segments (s.partStacks x.id.part.toNat) o.len, [], ({ x.tdma with q := rest } : Tdma).slot⟩] } }).pump
                    n.val).updTile n.val Tile.retire))
            ∧ (∀ tg off, s.destInPart x.id.part.toNat d = true → o.len ≠ 0 → opAtomic o.op = true → d = .direct tg off → exec (.tdmaOpStart n) s
              = .next (((s.setTile n.val { x with tdma := { x.tdma with
                  q := rest, out := x.tdma.out ++ [⟨o, [(tg, off, 0, o.len)], [], ({ x.tdma with q := rest } : Tdma).slot⟩] } }).pump n.val).updTile
                    n.val Tile.retire))))))

/-- The first answer to an outstanding segment takes it off its operation: an OK PUT counts its bytes, or one operation, on its source counter, an OK GET's
bytes land, any other code fails the operation, keeping the first failure in TDMA_ERR and setting the counter's error bit; an answer to no
outstanding segment changes nothing of the tile. A segment whose time is over goes out again with a fresh issue time, and after seven
retransmissions fails with TIMEOUT, or at once with TARGET_DOWN where the route to its target is down. -/
def Obligations.RemoteAnswers : Prop :=
  ∀ (s : State) (n : TileNo) (nd : NodeNo) (q : W16) (a : Answer) (x : Tile), Canon s → s.tile n.val = x →
    (x.tdma.find nd.val q = none → exec (.tdmaResponse (.tile n) nd q a) s = .next (s.hostPoll (s.partOfSector (n.val / 160))))
    ∧ (∀ i o g, x.tdma.find nd.val q = some (i, o, g) →
      (a.code = rcOk → o.op.op = .put → exec (.tdmaResponse (.tile n) nd q a) s = .next
        (((((s.setTile n.val { x with tdma := x.tdma.done i o g }).countSource n.val o.op g.len).pump n.val).updTile n.val Tile.retire).hostPoll
          (s.partOfSector (n.val / 160))))
      ∧ (a.code = rcOk → o.op.op = .get → exec (.tdmaResponse (.tile n) nd q a) s = .next
        ((((((s.setTile n.val { x with tdma := x.tdma.done i o g }).tileWrite n.val 3 o.op.pc.toNat (o.op.laddr + g.pos) (a.data.take g.len)
          a.poison).countSource n.val o.op g.len).pump n.val).updTile n.val Tile.retire).hostPoll (s.partOfSector (n.val / 160))))
      ∧ (a.code = rcOk → opAtomic o.op.op = true → exec (.tdmaResponse (.tile n) nd q a) s = .next
        ((((((s.setTile n.val { x with tdma := x.tdma.done i o g }).tileWrite n.val 3 o.op.pc.toNat (o.op.laddr + 16) (bytesLE o.op.len a.old.toNat)
          false).countSource n.val o.op g.len).pump n.val).updTile n.val Tile.retire).hostPoll (s.partOfSector (n.val / 160))))
      ∧ (a.code = rcPoisoned → o.op.op = .get → exec (.tdmaResponse (.tile n) nd q a) s = .next
        ((((((s.setTile n.val { x with tdma := x.tdma.done i o g }).tileWrite n.val 3 o.op.pc.toNat (o.op.laddr + g.pos) (a.data.take g.len)
          a.poison).updTile n.val (fun y => y.tdmaFail o.op a.code)).pump n.val).updTile n.val Tile.retire).hostPoll (s.partOfSector (n.val / 160))))
      ∧ (a.code ≠ rcOk → a.code ≠ rcPoisoned → exec (.tdmaResponse (.tile n) nd q a) s = .next
        ((((s.setTile n.val (({ x with tdma := x.tdma.done i o g } : Tile).tdmaFail o.op a.code)).pump n.val).updTile n.val Tile.retire).hostPoll
          (s.partOfSector (n.val / 160))))
      ∧ (g.retries < 7 → s.targetDown n.val nd.val = false → Runs (.tdmaRetransmit (.tile n) nd q) s (fun t => t.now = max s.now (g.issue + x.tdma.rtoNs)
        ∧ t.out = s.out ++ [.request g.tgt (x.request n.val t.now o.slot o.op { g with issue := t.now, retries := g.retries + 1 }).2]
        ∧ (t.tile n.val).tdma.q = x.tdma.q ∧ (t.tile n.val).tdma.err = x.tdma.err ∧ (t.tile n.val).w = x.w ∧ (t.tile n.val).seq = x.seq
        ∧ (∀ m, m ≠ n.val → t.tile m = s.tile m) ∧ t.snodes = s.snodes ∧ t.hub = s.hub))
      ∧ (g.retries < 7 → s.targetDown n.val nd.val = true → exec (.tdmaRetransmit (.tile n) nd q) s = .next
        ((((s.till (g.issue + x.tdma.rtoNs)).setTile n.val (({ x with tdma := x.tdma.done i o g } : Tile).tdmaFail o.op rcTargetDown)).pump n.val).updTile
          n.val Tile.retire))
      ∧ (7 ≤ g.retries → exec (.tdmaRetransmit (.tile n) nd q) s = .next ((((s.till (g.issue + x.tdma.rtoNs)).setTile n.val
          (({ x with tdma := x.tdma.done i o g } : Tile).tdmaFail o.op rcTimeout)).pump n.val).updTile n.val Tile.retire)))
    ∧ (∀ (o : TdmaOp) (code : BitVec 4),
      (x.tdmaFail o code).tdma.err = (if x.tdma.err.v then x.tdma.err else ⟨true, code, o.tag, o.pc, o.pga⟩)
        ∧ (o.scnten = false → (x.tdmaFail o code).w = x.w)
        ∧ (o.scnten = true → Table.wf {} x.w.cc = true →
          (x.tdmaFail o code).w.ccnt o.scnt = { x.w.ccnt o.scnt with err := true }
            ∧ ∀ c, c ≠ o.scnt → (x.tdmaFail o code).w.ccnt c = x.w.ccnt c))

/-- Each of the eight enters the end of the matrix array's queue and the sequencer goes on; then the head runs as far as it waits for nothing: POSGEN
and POSLD write 64 positions, MXSET one mask word or the position window, an MFENCE leaves once no drain is in progress, and a head whose bank's
type it breaks raises ILLEGAL_INSN. -/
def Obligations.MatrixArrayQueue : Prop :=
  ∀ (s : State) (n : TileNo) (w w' : Insn) (x : Tile), s.tile n.val = x →
    (∀ k, k ∈ [InsnKind.mma, .mdrain, .rbload, .rbshift, .posld, .posgen, .mxset, .mfence] → insnKind w' = some k →
      doQueued n.val w' x.seq.pc s = ((s.setTile n.val { x with mxa := { x.mxa with q := x.mxa.q ++ [⟨w', BitVec.ofNat 11 x.seq.pc⟩] } }).advance
        n.val x.seq.pc).mxaSettle n.val)
    ∧ (Issues .mma n.val w w' s → exec (.mma n) s = .next (doQueued n.val w' x.seq.pc s))
    ∧ (Issues .mdrain n.val w w' s → exec (.mdrain n) s = .next (doQueued n.val w' x.seq.pc s))
    ∧ (Issues .rbload n.val w w' s → exec (.rbload n) s = .next (doQueued n.val w' x.seq.pc s))
    ∧ (Issues .rbshift n.val w w' s → exec (.rbshift n) s = .next (doQueued n.val w' x.seq.pc s))
    ∧ (Issues .posld n.val w w' s → exec (.posld n) s = .next (doQueued n.val w' x.seq.pc s))
    ∧ (Issues .posgen n.val w w' s → exec (.posgen n) s = .next (doQueued n.val w' x.seq.pc s))
    ∧ (Issues .mxset n.val w w' s → exec (.mxset n) s = .next (doQueued n.val w' x.seq.pc s))
    ∧ (Issues .mfence n.val w w' s → exec (.mfence n) s = .next (doQueued n.val w' x.seq.pc s))
    ∧ (∀ (i : QInsn) (r : List QInsn) (m : Nat), x.mxa.q = i :: r →
      (x.mxa.headIllegal i.w = true → s.mxaHead n.val (m + 1) = s.raise n.val exIllegal 1 i.pc.toNat)
      ∧ (x.mxa.headIllegal i.w = false →
        (insnKind i.w = some .posgen → s.mxaHead n.val (m + 1)
          = (s.setTile n.val { x with mxa := ({ x.mxa with q := r } : Mxa).setPos (bit i.w 96) (posgenValues i.w) }).mxaHead n.val m)
        ∧ (insnKind i.w = some .mxset → s.mxaHead n.val (m + 1)
          = (s.setTile n.val { x with mxa := ({ x.mxa with q := r } : Mxa).mxset i.w }).mxaHead n.val m)
        ∧ (insnKind i.w = some .mfence → x.mxa.drains = [] → s.mxaHead n.val (m + 1)
          = (s.setTile n.val { x with mxa := { x.mxa with q := r } }).mxaHead n.val m)
        ∧ (insnKind i.w = some .mfence → x.mxa.drains ≠ [] → s.mxaHead n.val (m + 1) = s)
        ∧ (insnKind i.w = some .posld → x.spm.refused (fld i.w 23 0) 256 = none → s.mxaHead n.val (m + 1)
          = (s.setTile n.val { x with
              spm := (x.spm.readUse (fld i.w 23 0) 256).1
              mxa := ({ x.mxa with q := r } : Mxa).setPos (bit i.w 96)
                ((List.range 64).map (fun j => ofLE (((x.spm.readUse (fld i.w 23 0) 256).2.1.drop (4 * j)).take 3))) }).mxaHead n.val m)))
    ∧ (∀ (kp : Bool) (vs : List Nat) (i : Nat), i < vs.length → ((if kp then (x.mxa.setPos kp vs).kpos else (x.mxa.setPos kp vs).qpos).get 0 i)
        = BitVec.ofNat 24 (vs.getD i 0))
    ∧ (∀ i, i < 64 → (posgenValues w').getD i 0 = intMod 24 (Int.ofNat (fld w' 87 64) + Int.ofNat i * signedOf 8 (fld w' 95 88)))

/-- An MMA at the head whose ranges read, and whose bank no drain to the vector engine holds, starts: every cell that the masks and the positions
feed holds the accumulation of its row and column onto its initial value and is LIVE, every other cell of the bank and the other bank are as
before, and its column flags wait; one with a range off power is the bank fault; the oldest MMA's completion ORs those flags and makes its bank READY unless a later MMA on it is under way. -/
def Obligations.MatrixMultiply : Prop :=
  ∀ (s : State) (n : TileNo) (x : Tile), Canon s → s.tile n.val = x →
    (∀ (i : QInsn) (r : List QInsn) (fa fw : Fmt) (md : Mode), x.mxa.q = i :: r → insnKind i.w = some .mma → mmaMode i.w = some (fa, fw, md) →
      x.mxa.vxeDrainOn (bit i.w 103) = false → x.spm.refusedAny (mmaRanges i.w fw md) = none →
      exec (.mmaVeinStart n) s = .next ((s.setTile n.val { x with
        spm := (x.spm.readRanges (mmaRanges i.w fw md)).1
        mxa := { ((x.mxa.clearBefore (bit i.w 103)).setBank (bit i.w 103) { ((x.mxa.clearBefore (bit i.w 103)).mma i.w
            ⟨(x.spm.readRanges (mmaRanges i.w fw md)).2.1.getD 0 [], (x.spm.readRanges (mmaRanges i.w fw md)).2.1.getD 1 [],
              (x.spm.readRanges (mmaRanges i.w fw md)).2.1.getD 2 [], (x.spm.readRanges (mmaRanges i.w fw md)).2.2⟩ fa fw md).1 with st := .accum }) with
          q := r
          veins := x.mxa.veins.map (fun v => { v with inVeins := false }) ++ [⟨bit i.w 103, i.pc, ((x.mxa.clearBefore (bit i.w 103)).mma i.w
            ⟨(x.spm.readRanges (mmaRanges i.w fw md)).2.1.getD 0 [], (x.spm.readRanges (mmaRanges i.w fw md)).2.1.getD 1 [],
              (x.spm.readRanges (mmaRanges i.w fw md)).2.1.getD 2 [], (x.spm.readRanges (mmaRanges i.w fw md)).2.2⟩ fa fw md).2,
            mmaRanges i.w fw md, decide (0 < fld i.w 58 48)⟩] } }).mxaSettle n.val))
    ∧ (∀ (i : QInsn) (r : List QInsn) (fa fw : Fmt) (md : Mode) f, x.mxa.q = i :: r → insnKind i.w = some .mma → mmaMode i.w = some (fa, fw, md) →
      x.mxa.vxeDrainOn (bit i.w 103) = false → x.spm.refusedAny (mmaRanges i.w fw md) = some f →
      exec (.mmaVeinStart n) s = .next (s.bankFault n.val f 1 i.pc.toNat))
    ∧ (x.mxa.drains = [] → ∀ b, x.mxa.clearBefore b = x.mxa)
    ∧ (∀ (m : Mxa) (w : Insn) (inp : MmaIn) (fa fw : Fmt) (md : Mode) (r c : Nat), r < 64 → c < 64 →
      (m.mma w inp fa fw md).1.acc.get (64 * r + c)
          = (if m.fed w r c then (m.cell (m.bank (bit w 103)) w inp fa fw md r c).1 else (m.bank (bit w 103)).acc.get (64 * r + c))
        ∧ bit ((m.mma w inp fa fw md).1.live.get r) c = (m.fed w r c || bit ((m.bank (bit w 103)).live.get r) c)
        ∧ mmaInit (m.bank (bit w 103)) w inp r c = (if fld w 102 101 = 0 then (m.bank (bit w 103)).acc.get (64 * r + c)
            else if fld w 102 101 = 1 then 0 else BitVec.ofNat 32 (ofLE ((inp.bias.drop (4 * c)).take 4)))
        ∧ (∀ b, b ≠ bit w 103 → (m.setBank (bit w 103) (m.mma w inp fa fw md).1).bank b = m.bank b))
    ∧ (∀ (q : MmaRun) (rest : List MmaRun), x.mxa.veins = q :: rest → rest.any (fun p => p.bank == q.bank) = false →
      (x.mxa.bank q.bank).st = .accum → Runs (.mmaComplete n) s (fun t => OnlyTile n.val s t
        ∧ (t.tile n.val).mxa.veins = rest ∧ ((t.tile n.val).mxa.bank q.bank).st = .ready
        ∧ ((t.tile n.val).mxa.bank q.bank).acc = (x.mxa.bank q.bank).acc ∧ (t.tile n.val).mxa.bank (!q.bank) = x.mxa.bank (!q.bank)
        ∧ (t.tile n.val).mxa.cflags = (x.mxa.orFlags q.cflags).1.cflags ∧ (t.tile n.val).fl.all = x.fl.all ||| (x.mxa.orFlags q.cflags).2
        ∧ (t.tile n.val).fl.sflags = x.fl.sflags ||| (x.mxa.orFlags q.cflags).2 ∧ (t.tile n.val).spm = x.spm ∧ (t.tile n.val).seq = x.seq
        ∧ (t.tile n.val).vxe = x.vxe ∧ (t.tile n.val).w = x.w))

/-- A drain at the head whose bank is READY starts: to the scratchpad it writes its lines and its bank is draining, to the vector engine, while no other
drain delivers, its first rows go out as the queue has room; room resumes delivery; the oldest drain whose rows are out ends, ORs its flags, and, unless it
retains, clears LIVE and poison and leaves its bank IDLE. RBLOAD and RBSHIFT at the head complete on the row buffers. A range off power is the bank fault, and a drain's abandoned bytes are those it would have written. -/
def Obligations.DrainsAndRowBuffers : Prop :=
  ∀ (s : State) (n : TileNo) (x : Tile), Canon s → s.tile n.val = x →
    (∀ (i : QInsn) (r : List QInsn) (d : Fmt), x.mxa.q = i :: r → insnKind i.w = some .mdrain → (x.mxa.bank (bit i.w 104)).st = .ready →
      bit i.w 103 = false → Fmt.ofCode (fld i.w 111 108) = some d →
      (x.spm.refusedAny ((x.mxa.bank (bit i.w 104)).drainRanges i.w) = none → exec (.drainStart n) s = .next ((s.setTile n.val { x with
          spm := (drainToSpm (x.mxa.bank (bit i.w 104)) i.w d x.srKey x.spm).1
          mxa := { (x.mxa.setBank (bit i.w 104) { x.mxa.bank (bit i.w 104) with st := .draining }) with
            q := r, drains := x.mxa.drains ++ [⟨i, 64, (drainToSpm (x.mxa.bank (bit i.w 104)) i.w d x.srKey x.spm).2, false,
              (x.mxa.bank (bit i.w 104)).drainRanges i.w⟩] } }).mxaSettle n.val))
      ∧ (∀ f, x.spm.refusedAny ((x.mxa.bank (bit i.w 104)).drainRanges i.w) = some f → exec (.drainStart n) s = .next ((s.setTile n.val { x with
          mxa := { x.mxa with drains := x.mxa.drains ++ [⟨i, 0, [], false, (x.mxa.bank (bit i.w 104)).drainRanges i.w⟩] } }).bankFault n.val f 1 i.pc.toNat)))
    ∧ (∀ (i : QInsn) (r : List QInsn), x.mxa.q = i :: r → insnKind i.w = some .mdrain → (x.mxa.bank (bit i.w 104)).st = .ready →
      bit i.w 103 = true → x.mxa.vxeDrainOn false = false → x.mxa.vxeDrainOn true = false →
      exec (.drainStart n) s = .next ((s.setTile n.val (({ x with
          mxa := { (x.mxa.setBank (bit i.w 104) { x.mxa.bank (bit i.w 104) with st := .draining }) with
            q := r, drains := x.mxa.drains ++ [⟨i, 0, [], false, []⟩] } } : Tile).deliver 8)).mxaSettle n.val))
    ∧ exec (.drainResume n) s = .next (s.setTile n.val (x.deliver 8))
    ∧ (∀ m, (x.deliver m).spm = x.spm ∧ (x.deliver m).seq = x.seq ∧ (x.deliver m).w = x.w ∧ (x.deliver m).mxa.bank0 = x.mxa.bank0
        ∧ (x.deliver m).mxa.bank1 = x.mxa.bank1 ∧ (x.vxe.dq.length ≤ 8 → (x.deliver m).vxe.dq.length ≤ 8) ∧ x.vxe.dq <+: (x.deliver m).vxe.dq)
    ∧ (∀ d, x.mxa.drains.find? (fun d => decide (64 ≤ d.row)) = some d →
      exec (.drainEnd n) s = .next ((s.setTile n.val (({ x with
          mxa := { ((x.mxa.orFlags d.cflags).1.setBank (bit d.insn.w 104) (((x.mxa.orFlags d.cflags).1.bank (bit d.insn.w 104)).drained (bit d.insn.w 101)
            d.cleared)) with drains := x.mxa.drains.erase d } } : Tile).raiseFlags (x.mxa.orFlags d.cflags).2)).mxaSettle n.val))
    ∧ (∀ (b : Bank), b.st = .draining →
      (b.drained false false).st = .idle ∧ (∀ r, (b.drained false false).live.get r = 0) ∧ (b.drained false false).poison = false
        ∧ (b.drained false false).acc = b.acc ∧ b.drained true false = { b with st := .ready })
    ∧ (∀ (i : QInsn) (r : List QInsn), x.mxa.q = i :: r → insnKind i.w = some .rbload → x.spm.refusedAny (rbloadRanges i.w) = none →
      exec (.rbloadComplete n) s = .next ((s.setTile n.val { x with
        mxa := ({ (rbload i.w 0 (fld i.w 76 70) (x.mxa, x.spm)).1 with q := (rbload i.w 0 (fld i.w 76 70) (x.mxa, x.spm)).1.q.tail } : Mxa).veinsFree
        spm := (rbload i.w 0 (fld i.w 76 70) (x.mxa, x.spm)).2 }).mxaSettle n.val))
    ∧ (∀ (i : QInsn) (r : List QInsn), x.mxa.q = i :: r → insnKind i.w = some .rbshift → x.spm.refusedAny [rbshiftTail i.w] = none →
      exec (.rbshiftComplete n) s = .next ((s.setTile n.val { x with
        mxa := (({ x.mxa with q := r } : Mxa).shift i.w (x.spm.readUse (rbshiftTail i.w).1 (rbshiftTail i.w).2).2.1
          (x.spm.readUse (rbshiftTail i.w).1 (rbshiftTail i.w).2).2.2).veinsFree
        spm := (x.spm.readUse (rbshiftTail i.w).1 (rbshiftTail i.w).2).1 }).mxaSettle n.val))
    ∧ (∀ (i : QInsn) (r : List QInsn) f, x.mxa.q = i :: r →
      (insnKind i.w = some .rbload → x.spm.refusedAny (rbloadRanges i.w) = some f → exec (.rbloadComplete n) s = .next (s.bankFault n.val f 1 i.pc.toNat))
      ∧ (insnKind i.w = some .rbshift → x.spm.refusedAny [rbshiftTail i.w] = some f → exec (.rbshiftComplete n) s = .next (s.bankFault n.val f 1 i.pc.toNat)))

/-- Each vector instruction that issues enters the end of the vector engine's queue with its index, and the sequencer goes on; nothing else of the
tile changes. -/
def Obligations.VectorQueue : Prop :=
  ∀ (s : State) (n : TileNo) (w w' : Insn) (x : Tile), s.tile n.val = x →
    (∀ k, k ∈ [InsnKind.vfa, .via, .vcmp, .vsel, .vkop, .vcvt, .vtr, .vred, .vscan, .vxscan, .vcomb, .vld, .vst, .vdqpop, .viota, .vrot] →
      insnKind w' = some k →
      doQueued n.val w' x.seq.pc s
        = (s.setTile n.val { x with vxe := { x.vxe with q := x.vxe.q ++ [⟨w', BitVec.ofNat 11 x.seq.pc⟩] } }).advance n.val x.seq.pc)
    ∧ (Issues .vfa n.val w w' s → exec (.vfa n) s = .next (doQueued n.val w' x.seq.pc s))
    ∧ (Issues .via n.val w w' s → exec (.via n) s = .next (doQueued n.val w' x.seq.pc s))
    ∧ (Issues .vcmp n.val w w' s → exec (.vcmp n) s = .next (doQueued n.val w' x.seq.pc s))
    ∧ (Issues .vsel n.val w w' s → exec (.vsel n) s = .next (doQueued n.val w' x.seq.pc s))
    ∧ (Issues .vkop n.val w w' s → exec (.vkop n) s = .next (doQueued n.val w' x.seq.pc s))
    ∧ (Issues .vcvt n.val w w' s → exec (.vcvt n) s = .next (doQueued n.val w' x.seq.pc s))
    ∧ (Issues .vtr n.val w w' s → exec (.vtr n) s = .next (doQueued n.val w' x.seq.pc s))
    ∧ (Issues .vred n.val w w' s → exec (.vred n) s = .next (doQueued n.val w' x.seq.pc s))
    ∧ (Issues .vscan n.val w w' s → exec (.vscan n) s = .next (doQueued n.val w' x.seq.pc s))
    ∧ (Issues .vxscan n.val w w' s → exec (.vxscan n) s = .next (doQueued n.val w' x.seq.pc s))
    ∧ (Issues .vcomb n.val w w' s → exec (.vcomb n) s = .next (doQueued n.val w' x.seq.pc s))
    ∧ (Issues .vld n.val w w' s → exec (.vld n) s = .next (doQueued n.val w' x.seq.pc s))
    ∧ (Issues .vst n.val w w' s → exec (.vst n) s = .next (doQueued n.val w' x.seq.pc s))
    ∧ (Issues .vdqpop n.val w w' s → exec (.vdqpop n) s = .next (doQueued n.val w' x.seq.pc s))
    ∧ (Issues .viota n.val w w' s → exec (.viota n) s = .next (doQueued n.val w' x.seq.pc s))
    ∧ (Issues .vrot n.val w w' s → exec (.vrot n) s = .next (doQueued n.val w' x.seq.pc s))

/-- The head starts once its predecessor waits for nothing: a register instruction writes its results and its flags wait for its completion, which ORs them into the
lane, tile and step flags; a load reads and a store writes the active lanes' words, past the scratchpad's top they are illegal and off power the bank fault; VDQPOP takes a row, waits for one
that is coming, or raises DQ_EMPTY; VXSCAN arrives on its channels and waits for its prefixes, or raises SYNC_MISMATCH off the domain. -/
def Obligations.VectorExecution : Prop :=
  ∀ (s : State) (n : TileNo) (x : Tile) (i : QInsn) (r : List QInsn) (v : Vxe), Canon s → s.tile n.val = x → v = { x.vxe with q := r } →
    (∀ k, x.vxe.q = i :: r → x.vxe.wait = .none → insnKind i.w = some k →
      (k ∈ [InsnKind.vfa, .via, .vcmp, .vsel, .vkop, .vcvt, .vtr, .vred, .vscan, .vcomb, .viota, .vrot] →
        exec (.vxeInsnStart n) s = .next (s.setTile n.val { x with vxe := v.ran i (v.compute k i.w x.srKey) [] }))
      ∧ (k = .vld → (v.memRanges i.w).any (fun p => decide (spmTop < p.1 + 4)) = false → x.spm.refusedAny (v.memRanges i.w) = none →
        exec (.vxeInsnStart n) s = .next (s.setTile n.val { x with spm := (v.vld i.w x.spm).1, vxe := v.ran i (v.vld i.w x.spm).2 (v.memRanges i.w) }))
      ∧ (k = .vst → (v.memRanges i.w).any (fun p => decide (spmTop < p.1 + 4)) = false → x.spm.refusedAny (v.memRanges i.w) = none →
        exec (.vxeInsnStart n) s = .next (s.setTile n.val { x with spm := v.vst i.w x.spm, vxe := v.ran i {} (v.memRanges i.w) }))
      ∧ (∀ f, k = .vld ∨ k = .vst → (v.memRanges i.w).any (fun p => decide (spmTop < p.1 + 4)) = false → x.spm.refusedAny (v.memRanges i.w) = some f →
        exec (.vxeInsnStart n) s = .next ((s.setTile n.val { x with vxe := { v with run := v.run ++ [⟨i, v.memRanges i.w, []⟩] } }).bankFault n.val f 2 i.pc.toNat))
      ∧ (k = .vld ∨ k = .vst → (v.memRanges i.w).any (fun p => decide (spmTop < p.1 + 4)) = true →
        exec (.vxeInsnStart n) s = .next (s.raise n.val exIllegal 2 i.pc.toNat))
      ∧ (∀ d rest, k = .vdqpop → x.vxe.dq = d :: rest →
        exec (.vxeInsnStart n) s = .next (s.setTile n.val { x with vxe := ({ v with dq := rest } : Vxe).ran i (vdqpop i.w d) [] }))
      ∧ (k = .vdqpop → x.vxe.dq = [] → x.mxa.vxeDrainComing = true →
        exec (.vxeInsnStart n) s = .next (s.setTile n.val { x with vxe := { v with wait := .row i } }))
      ∧ (k = .vdqpop → x.vxe.dq = [] → x.mxa.vxeDrainComing = false → exec (.vxeInsnStart n) s = .next (s.raise n.val exDqEmpty 2 i.pc.toNat))
      ∧ (k = .vxscan → (vxChannels i.w).any (fun c => !s.onChannel n.val c) = true →
        exec (.vxeInsnStart n) s = .next ((s.setTile n.val { x with vxe := v }).raise n.val exMismatch 2 i.pc.toNat))
      ∧ (∀ c, k = .vxscan → vxChannels i.w = [c] → s.onChannel n.val c = true → s.armed n.val c = false →
        exec (.vxeInsnStart n) s = .next (s.setTile n.val { x with
          arr := x.arr.put none c (some (v.scanArrival i.w 0)), vxe := { v with wait := .prefix_ i }, dlv := x.dlv.put .none c .none })))
    ∧ (∀ d rest, x.vxe.wait = .row i → x.vxe.dq = d :: rest → exec (.vdqpopRowArrival n) s
        = .next (s.setTile n.val { x with vxe := ({ x.vxe with dq := rest, wait := .none } : Vxe).ran i (vdqpop i.w d) [] }))
    ∧ (x.vxe.wait = .prefix_ i →
      (((vxChannels i.w).map (fun c => x.dlv.get .none c)).contains .none = false → ((vxChannels i.w).map (fun c => x.dlv.get .none c)).contains .mismatch = false →
        exec (.vxscanPrefixArrival n) s = .next (s.setTile n.val { x with
          vxe := ({ x.vxe with wait := .none } : Vxe).ran i (x.vxe.prefixes i.w ((vxChannels i.w).map (fun c => x.dlv.get .none c))) []
          dlv := (vxChannels i.w).foldl (fun d c => d.put .none c .none) x.dlv }))
      ∧ (((vxChannels i.w).map (fun c => x.dlv.get .none c)).contains .mismatch = true →
        exec (.vxscanPrefixArrival n) s = .next ((s.setTile n.val { x with vxe := { x.vxe with wait := .none } }).raise n.val exMismatch 2 i.pc.toNat)))
    ∧ (∀ (m : Nat) (q : VxeRun), x.vxe.run[m]? = some q → exec (.vxeInsnComplete n m) s = .next (s.setTile n.val { x with
        vxe := { (x.vxe.orFlags q.lflags).1 with run := x.vxe.run.eraseIdx m }
        fl := { x.fl with all := x.fl.all ||| (x.vxe.orFlags q.lflags).2, sflags := x.fl.sflags ||| (x.vxe.orFlags q.lflags).2 } }))

/-- VIA, VSEL, VIOTA and VROT write, in the lanes that their mask makes active, their value into VD, and leave every other lane and register; VCMP and VKOP write one
mask register and no vector register; k0 reads as all ones and takes no write. VIA adds, subtracts, compares and shifts 32-bit words as integers. -/
def Obligations.VectorResults : Prop :=
  ∀ (v : Vxe) (w : Insn) (r l : Nat), Table.wf 0 v.v = true → Table.wf 0 v.k = true → r < 32 → l < 64 →
    (v.apply (v.via w)).lane r l = (if r = vVD w ∧ bit (v.mask (vKm w)) l
        then BitVec.ofNat 32 (viaLane (vSub w) (v.lane (vVA w) l).toNat (v.srcB w l)).1 else v.lane r l)
    ∧ (v.apply (v.vsel w)).lane r l = (if r = vVD w ∧ bit (v.mask (vKm w)) l
        then BitVec.ofNat 32 (if bit (v.mask (fld w 17 15)) l then (v.lane (vVA w) l).toNat else v.srcB w l) else v.lane r l)
    ∧ (v.apply (v.viota w)).lane r l = (if r = vVD w ∧ bit (v.mask (vKm w)) l
        then BitVec.ofNat 32 (intMod 32 (Int.ofNat (vImm w) + Int.ofNat l * signedOf 16 (fld w 63 48))) else v.lane r l)
    ∧ (v.apply (v.vrot w)).lane r l = (if r = vVD w ∧ bit (v.mask (vKm w)) l then v.lane (vVA w) ((l + vImm w % 64) % 64) else v.lane r l)
    ∧ (∀ k, (v.apply (v.via w)).mask k = v.mask k ∧ (v.apply (v.vrot w)).mask k = v.mask k)
    ∧ (v.apply (v.vcmp w)).lane r l = v.lane r l
    ∧ (∀ k, k ≠ vKD w ∨ k = 0 → (v.apply (v.vcmp w)).mask k = v.mask k ∧ (v.apply (v.vkop w)).mask k = v.mask k)
    ∧ (vKD w ≠ 0 → bit ((v.apply (v.vcmp w)).mask (vKD w)) l
        = (bit (v.mask (vKm w)) l && vcmpLane (vSub w) (v.lane (vVA w) l).toNat (v.srcB w l)))
    ∧ (vKD w ≠ 0 → vSub w = 0 → (v.apply (v.vkop w)).mask (vKD w) = v.mask (fld w 7 5) &&& v.mask (fld w 12 10))
    ∧ (v.mask 0 = BitVec.allOnes 64)
    ∧ (∀ a b : W32, BitVec.ofNat 32 (viaLane 0 a.toNat b.toNat).1 = a + b ∧ BitVec.ofNat 32 (viaLane 1 a.toNat b.toNat).1 = a - b
        ∧ BitVec.ofNat 32 (viaLane 2 a.toNat b.toNat).1 = a * b ∧ BitVec.ofNat 32 (viaLane 9 a.toNat b.toNat).1 = a &&& b
        ∧ BitVec.ofNat 32 (viaLane 10 a.toNat b.toNat).1 = a ||| b ∧ BitVec.ofNat 32 (viaLane 11 a.toNat b.toNat).1 = a ^^^ b
        ∧ BitVec.ofNat 32 (viaLane 14 a.toNat b.toNat).1 = a >>> (b.toNat % 32) ∧ BitVec.ofNat 32 (viaLane 15 a.toNat b.toNat).1 = a.sshiftRight (b.toNat % 32))

/-- In a scratchpad whose check symbols match, a write puts its bytes at its offset and leaves every other byte; a store of the vector engine leaves every byte outside its active
lanes' words and puts each lane's word; a fill puts its pattern and leaves every byte outside its range; a drain leaves every byte outside its ranges; a read changes no byte
and delivers no poison. A half-row with matching symbols decodes clean, and the poison mark decodes as poisoned. -/
def Obligations.ScratchpadBytes : Prop :=
  ∀ (p : Spm), p.dev = [] → Table.wf 0 p.data = true →
    (∀ (off a : Nat) (bs : List Byte), (p.write off bs false).data.get 0 a = (if off ≤ a ∧ a < off + bs.length then bs.getD (a - off) 0 else p.data.get 0 a)
      ∧ (p.write off bs false).dev = [])
    ∧ (∀ off n, p.read off n = (p, p.data.getList 0 off n, false) ∧ p.readUse off n = (p, p.data.getList 0 off n, false))
    ∧ (∀ (v : Vxe) (w : Insn) (a : Nat), v.vpoison = 0 → v.kpoison = 0 →
      (∀ rg ∈ v.memRanges w, a < rg.1 ∨ rg.1 + rg.2 ≤ a) → (v.vst w p).data.get 0 a = p.data.get 0 a)
    ∧ (∀ (v : Vxe) (w : Insn) (l : Nat) (a : Nat), v.vpoison = 0 → v.kpoison = 0 → l ∈ v.active w → 0 < fld w 63 48 → a < 4 →
      (v.vst w p).data.get 0 (vAddr w l + a) = (bytesLE 4 (v.lane (vVA w) l).toNat).getD a 0)
    ∧ (∀ (d : BitVec 128) (a : Nat), mopBadDesc d = false → fld d 1 0 = 0 → p.allOn = true →
      (p.runMop d).data.get 0 a = (if fld d 31 8 ≤ a ∧ a < fld d 31 8 + fld d 88 64 then (bytesLE 4 (fld d 127 96)).getD (a % 4) 0 else p.data.get 0 a))
    ∧ (∀ (b : Bank) (w : Insn) (d : Fmt) (k : SrKey) (a : Nat), b.poison = false → bit w 103 = false → Fmt.ofCode (fld w 111 108) = some d →
      (∀ rg ∈ b.drainRanges w, a < rg.1 ∨ rg.1 + rg.2 ≤ a) → (drainToSpm b w d k p).1.data.get 0 a = p.data.get 0 a)
    ∧ decodeDev 0 = .clean ∧ decodeDev poisonDev = .poisoned

/-- A 16-byte write to SPM_MOPQ joins fewer than 8 descriptors, a full queue overflows, any other write sets MOP_BAD; the head fills or copies, and its end raises its counter,
with the error bit on a bad descriptor or a stop; power commands leave their result, refuse BUSY (a power-down also where the image keeps the quarter ON); power-up from OFF
asks for its inrush token, is done only after token and ramp, and zeroes the quarter, and one that was RETAINed is kept;
the scrub reads its row and moves on; a queued row moves to a spare row, retires its bank on an uncorrectable error, or is noted. -/
def Obligations.ScratchpadCommands : Prop :=
  ∀ (s : State) (n : TileNo) (x : Tile), Canon s → s.tile n.val = x →
    (∀ (off : Nat) (bs : List Byte),
      (off = 0x40 → bs.length = 16 → x.spm.mopq.length < 8 → exec (.spmMopqWrite n off bs) s
        = .next (s.setTile n.val { x with spm := { x.spm with mopq := x.spm.mopq ++ [BitVec.ofNat 128 (ofLE bs)] } }))
      ∧ (off = 0x40 → bs.length = 16 → 8 ≤ x.spm.mopq.length → exec (.spmMopqWrite n off bs) s
        = .next (s.setTile n.val { x with spm := { x.spm with mopOvf := true } }))
      ∧ (off ≠ 0x40 ∨ bs.length ≠ 16 → exec (.spmMopqWrite n off bs) s = .next (s.setTile n.val { x with spm := { x.spm with mopBad := true } })))
    ∧ (∀ d r, x.spm.mopq = d :: r → x.spm.mopRun = false →
      (fld d 1 0 = 0 → exec (.mopFill n) s = .next (s.setTile n.val { x with spm := { x.spm.runMop d with
          mopRun := true, mopStop := if x.spm.mopStops d then some (x.spm.mopStopAt d) else none } }))
      ∧ (fld d 1 0 = 1 → exec (.mopCopy n) s = .next (s.setTile n.val { x with spm := { x.spm.runMop d with
          mopRun := true, mopStop := if x.spm.mopStops d then some (x.spm.mopStopAt d) else none } })))
    ∧ (∀ d r, x.spm.mopq = d :: r →
      (x.spm.mopRun = true → mopBadDesc d = false → x.spm.mopStop = none → exec (.mopEnd n) s
        = .next (((s.setTile n.val { x with spm := { x.spm with mopq := r, mopRun := false } }).tileBump n.val (fld d 6 2) 1).tilePoll n.val))
      ∧ (∀ a, x.spm.mopRun = true → mopBadDesc d = false → x.spm.mopStop = some a → exec (.mopEnd n) s
        = .next (((s.setTile n.val { x with
            spm := ({ x.spm with mopq := r, mopRun := false, mopStop := none } : Spm).recordFault a 3 6, w := x.w.setErr (fld d 6 2) }).tileBump n.val
              (fld d 6 2) 1).tilePoll n.val))
      ∧ (mopBadDesc d = true → x.spm.mopStop = none → exec (.mopEnd n) s
        = .next (((s.setTile n.val { x with spm := { x.spm with mopq := r, mopRun := false }, w := x.w.setErr (fld d 6 2) }).tileBump n.val
            (fld d 6 2) 1).tilePoll n.val)))
    ∧ (∀ q : Fin 4,
      (x.spm.quarter q.val = .off → exec (.pwrUp n q) s
        = .next ((s.setTile n.val { x with spm := (x.spm.setQuarter q.val .powering).pwrResult q.val 0 0 }).inrushAsk (n.val / 160) (tileCell n.val)
          .quarter q.val))
      ∧ (x.spm.quarter q.val = .retain → exec (.pwrUp n q) s
        = .next (s.setTile n.val { x with spm := ({ x.spm with rising := setBit x.spm.rising q.val } : Spm).pwrResult q.val 0 0 }))
      ∧ (x.spm.quarter q.val = .on ∨ x.spm.quarter q.val = .powering → exec (.pwrUp n q) s
        = .next (s.setTile n.val { x with spm := x.spm.pwrResult q.val 0 2 }))
      ∧ (x.pwrBusy q.val true = false → exec (.pwrRetain n q) s
        = .next (s.setTile n.val { x with spm := (x.spm.setQuarter q.val .retain).pwrResult q.val 1 0 }))
      ∧ (x.pwrBusy q.val true = true → exec (.pwrRetain n q) s = .next (s.setTile n.val { x with spm := x.spm.pwrResult q.val 1 1 }))
      ∧ (x.pwrBusy q.val false = false → bit x.spm.kept q.val = false → exec (.pwrDown n q) s
        = .next (s.setTile n.val { x with spm := ({ x.spm with rising := clrBit x.spm.rising q.val }.setQuarter q.val .off).pwrResult q.val 2 0 }))
      ∧ (x.pwrBusy q.val false = true ∨ bit x.spm.kept q.val = true → exec (.pwrDown n q) s = .next (s.setTile n.val { x with spm := x.spm.pwrResult q.val 2 1 }))
      ∧ (x.spm.quarter q.val = .powering → s.inrushOpen (n.val / 160) (tileCell n.val) .quarter q.val = true → exec (.quarterOn n q) s = .next s)
      ∧ (x.spm.quarter q.val = .powering → s.inrushOpen (n.val / 160) (tileCell n.val) .quarter q.val = false → Table.wf 0 x.spm.data = true → Runs (.quarterOn n q) s (fun t => OnlyTile n.val s t
        ∧ (t.tile n.val).spm.quarter q.val = .on ∧ ∀ a, (t.tile n.val).spm.data.get 0 a = if a / 0x400000 = q.val then 0 else x.spm.data.get 0 a))
      ∧ (x.spm.quarter q.val = .retain → bit x.spm.rising q.val = true → Runs (.quarterOn n q) s (fun t => OnlyTile n.val s t
        ∧ (t.tile n.val).spm.quarter q.val = .on ∧ (t.tile n.val).spm.data = x.spm.data)))
    ∧ (x.spm.scrubInt ≠ 0 → x.spm.dev = [] → exec (.spmScrubTick n) s
        = .next (s.setTile n.val { x with spm := { x.spm with scrubRow := (x.spm.scrubRow + 1) % 16416 } }))
    ∧ (∀ rr rest, x.spm.repairQ = rr :: rest →
      (∀ k, ({ x.spm with repairQ := rest } : Spm).nextSpare rr.bank = some k → Runs (.liveRowRepair n) s (fun t => OnlyTile n.val s t
        ∧ (t.tile n.val).spm.repairQ = rest ∧ ((t.tile n.val).spm.rmap.get {} (32 * rr.bank + k)).valid = true
        ∧ t.ctlq = s.ctlq ++ [⟨tileDie n.val, .msg (.spmRepair n.val rr.bank rr.row false)⟩]
        ∧ (t.tile n.val).spm.retired = x.spm.retired ∧ (t.tile n.val).seq = x.seq ∧ (t.tile n.val).w = x.w))
      ∧ (({ x.spm with repairQ := rest } : Spm).nextSpare rr.bank = none → rr.ue = true → exec (.liveRowRepair n) s
        = .next ((s.setTile n.val { x with spm := { x.spm with repairQ := rest, retired := setBit x.spm.retired rr.bank } }).report (tileDie n.val)
          (.tileFailure n.val)))
      ∧ (({ x.spm with repairQ := rest } : Spm).nextSpare rr.bank = none → rr.ue = false → exec (.liveRowRepair n) s
        = .next ((s.setTile n.val { x with spm := { x.spm with repairQ := rest, retirePend := setBit x.spm.retirePend rr.bank } }).report (tileDie n.val)
          (.spmRepair n.val rr.bank rr.row true))))

/-- The command at the head of a stack's queue leaves it, once no CLOSE_NOW before it is still at work. WOPEN opens a CLOSED window, after the 4 µs of its index, and sends the new tag, or sends WIN_BUSY or BAD_PARAM
without opening; CLOSE_NOW and CLOSE_QUIESCE start their close or end with ALREADY_CLOSED, WIN_BUSY or BAD_PARAM, raising the done counter before the result;
WQUERY sends tag and state; CCNT_SET sets its counter and clears its bits; a reserved opcode ends BAD_PARAM. -/
def Obligations.StackWindowCommands : Prop :=
  ∀ (s : State) (k : StackNo) (x : Stack) (c : BitVec 512) (r : List (BitVec 512)) (q : WopenReq), Canon s → s.stack k.val = x → x.cmdq = c :: r →
    q = { idx := fld c 103 96, rights := BitVec.ofNat 3 (fld c 106 104), skind := BitVec.ofNat 2 (fld c 108 107), srcval := BitVec.ofNat 16 (fld c 124 109)
          cnt := BitVec.ofNat 8 (fld c 132 125), cmode := BitVec.ofNat 2 (fld c 134 133), base64 := fld c 166 135, limit64 := fld c 198 167, dest := .none } →
    (x.closeOpen = true → exec (.snWopen k) s = .next s ∧ exec (.snCloseNow k) s = .next s ∧ exec (.snCloseQuiesce k) s = .next s
      ∧ exec (.snWquery k) s = .next s ∧ exec (.snCcntSet k) s = .next s ∧ exec (.snBadOpcode k) s = .next s)
    ∧ (x.closeOpen = false →
    (fld c 7 0 = 1 →
      ((x.w.window (fld c 103 96)).st = .closed → q.rangeOk stackTop64 64 = true → s.sourceOk (s.partOfSector k.val) q.skind q.srcval = true →
        exec (.snWopen k) s = .next (((s.till (x.w.openDue q.idx)).setStack k.val { x with
          cmdq := r
          w := x.w.open_ q (s.till (x.w.openDue q.idx)).now ((s.till (x.w.openDue q.idx)).dieTb (stackNode k.val)) }).snWinResult k.val c (fld c 103 96) stOk))
      ∧ ((x.w.window (fld c 103 96)).st ≠ .closed →
        exec (.snWopen k) s = .next ((s.setStack k.val { x with cmdq := r }).snWinResult k.val c (fld c 103 96) stBusy))
      ∧ ((x.w.window (fld c 103 96)).st = .closed → q.rangeOk stackTop64 64 = false ∨ s.sourceOk (s.partOfSector k.val) q.skind q.srcval = false →
        exec (.snWopen k) s = .next ((s.setStack k.val { x with cmdq := r }).snWinResult k.val c (fld c 103 96) stBadParam)))
    ∧ (fld c 7 0 = 2 →
      ((x.w.window (fld c 103 96)).st = .closed →
        exec (.snCloseNow k) s = .next ((s.setStack k.val { x with cmdq := r }).snCloseEnds k.val c (fld c 103 96) (fld c 205 200) stAlreadyClosed))
      ∧ ((x.w.window (fld c 103 96)).st ≠ .closed → exec (.snCloseNow k) s = .next (((s.setStack k.val { x with
          cmdq := r, w := x.w.closeNow (fld c 103 96) (some (fld c 205 200)) (snDest c), closing := some x.w.closes }).settleStack k.val).stackPoll k.val)))
    ∧ (fld c 7 0 = 3 →
      ((x.w.window (fld c 103 96)).st = .closed →
        exec (.snCloseQuiesce k) s = .next ((s.setStack k.val { x with cmdq := r }).snCloseEnds k.val c (fld c 103 96) (fld c 205 200) stAlreadyClosed))
      ∧ ((x.w.window (fld c 103 96)).st = .quiescing →
        exec (.snCloseQuiesce k) s = .next ((s.setStack k.val { x with cmdq := r }).snCloseEnds k.val c (fld c 103 96) (fld c 205 200) stBusy))
      ∧ ((x.w.window (fld c 103 96)).st = .open → (x.w.window (fld c 103 96)).cnt = 0xFF ∨ fld c 271 256 = 0 →
        exec (.snCloseQuiesce k) s = .next ((s.setStack k.val { x with cmdq := r }).snCloseEnds k.val c (fld c 103 96) (fld c 205 200) stBadParam))
      ∧ ((x.w.window (fld c 103 96)).st = .open → (x.w.window (fld c 103 96)).cnt ≠ 0xFF → fld c 271 256 ≠ 0 →
        exec (.snCloseQuiesce k) s = .next (((s.setStack k.val { x with
          cmdq := r
          w := x.w.quiesce (fld c 103 96) (fld c 255 208) (s.now + 1000 * fld c 271 256) (some (fld c 205 200)) (snDest c) }).settleStack k.val).stackPoll k.val)))
    ∧ (fld c 7 0 = 4 → exec (.snWquery k) s = .next ((s.setStack k.val { x with cmdq := r }).snWinResult k.val c (fld c 103 96) stOk))
    ∧ (fld c 7 0 = 5 → exec (.snCcntSet k) s = .next ((((s.setStack k.val { x with
        cmdq := r, w := x.w.ccntSet (fld c 205 200) (fld c 255 208) }).settleStack k.val).stackPoll k.val).sendResult k.val (BitVec.ofNat 56 (fld c 87 32))
          (BitVec.ofNat 16 (fld c 31 16)) (snResult 0 0 stOk 0 0)))
    ∧ (fld c 7 0 = 0 ∨ 8 < fld c 7 0 → exec (.snBadOpcode k) s = .next ((s.setStack k.val { x with cmdq := r }).sendResult k.val
        (BitVec.ofNat 56 (fld c 87 32)) (BitVec.ofNat 16 (fld c 31 16)) (snResult 0 0 stBadParam 0 0))))

/-- With the engine idle and none waiting, a SXE command at the head starts: bad parameters, or a destination that the issuer's checks refuse, end DESC_FAULT, and a stack
that is not ACTIVE ends BANK_OFF, else its segments go out run by run; with the engine busy it steps aside and the queue goes on; the oldest that waits starts once the engine is idle. A command whose segments are all
answered ends with status, code and bytes. SN_FENCE ends once no SXE work and no close of the queue is pending. -/
def Obligations.StackEngineCommands : Prop :=
  ∀ (s : State) (k : StackNo) (x : Stack) (c : BitVec 512) (r : List (BitVec 512)), Canon s → s.stack k.val = x →
    (x.cmdq = c :: r → fld c 7 0 = 6 → x.sxq = [] → x.sxe = none → x.closeOpen = false →
      exec (.sxeStrided k) s = .next ((s.setStack k.val { x with cmdq := r }).sxeStart k.val c (sxeStridedOk c)))
    ∧ (x.cmdq = c :: r → fld c 7 0 = 7 → x.sxq = [] → x.sxe = none → x.closeOpen = false →
      exec (.sxeTranspose k) s = .next ((s.setStack k.val { x with cmdq := r }).sxeStart k.val c (sxeTransposeOk c)))
    ∧ (∀ j, x.cmdq = c :: r → x.sxe = some j → x.closeOpen = false →
      (fld c 7 0 = 6 → exec (.sxeStrided k) s = .next (s.setStack k.val { x with cmdq := r, sxq := x.sxq ++ [c] }))
      ∧ (fld c 7 0 = 7 → exec (.sxeTranspose k) s = .next (s.setStack k.val { x with cmdq := r, sxq := x.sxq ++ [c] })))
    ∧ (x.sxq = c :: r → x.sxe = none →
      (fld c 7 0 = 6 → exec (.sxeStrided k) s = .next ((s.setStack k.val { x with sxq := r }).sxeStart k.val c (sxeStridedOk c)))
      ∧ (fld c 7 0 = 7 → exec (.sxeTranspose k) s = .next ((s.setStack k.val { x with sxq := r }).sxeStart k.val c (sxeTransposeOk c))))
    ∧ (∀ ok, ok = false ∨ s.sxeDestOk k.val c = false → s.sxeStart k.val c ok
        = s.sendResult k.val (BitVec.ofNat 56 (fld c 87 32)) (BitVec.ofNat 16 (fld c 31 16)) (snResult 0 0 stDescFault 0 0))
    ∧ (s.sxeDestOk k.val c = true → x.pw ≠ .active → s.sxeStart k.val c true
        = s.sendResult k.val (BitVec.ofNat 56 (fld c 87 32)) (BitVec.ofNat 16 (fld c 31 16)) (snResult 0 0 stBankOff 0 0))
    ∧ (s.sxeDestOk k.val c = true → x.pw = .active → s.sxeStart k.val c true
        = (s.setStack k.val { x with sxe := some ⟨c, 0, 0, stOk, 0, sxeSegs c (s.partStacks (s.partOfSector k.val)), 0, [], false⟩ }).sxeGo k.val)
    ∧ (∀ j, x.sxe = some j → j.open_ = 0 → j.rest = [] → exec (.sxeCommandEnd k) s = .next ((s.setStack k.val { x with sxe := none }).sendResult k.val
        (BitVec.ofNat 56 (fld j.cmd 87 32)) (BitVec.ofNat 16 (fld j.cmd 31 16)) (snResult 0 0 j.status j.rcode j.bytes)))
    ∧ (x.cmdq = c :: r → fld c 7 0 = 8 → x.sxe = none → x.sxq = [] → x.closeOpen = false → (∀ kv ∈ x.w.win, ∀ p ∈ kv.2.pend, p.queued = false) →
      exec (.snFence k) s = .next ((s.setStack k.val { x with cmdq := r }).sendResult k.val (BitVec.ofNat 56 (fld c 87 32)) (BitVec.ofNat 16 (fld c 31 16))
        (snResult 0 0 stOk 0 0)))
    ∧ (x.sxe.isSome ∨ x.sxq ≠ [] ∨ (∃ kv ∈ x.w.win, ∃ p ∈ kv.2.pend, p.queued = true) → exec (.snFence k) s = .next s)
    ∧ (∀ i j : Nat, fld c 135 133 < 7 → i < fld c 159 136 →
      sxeStridedAt c ((j * fld c 159 136 + i) * 2 ^ fld c 135 133)
        = intMod 37 (Int.ofNat (fld c 132 96) + Int.ofNat j * signedOf 40 (fld c 223 184) + Int.ofNat i * signedOf 40 (fld c 263 224)))

/-- SELF_REFRESH and OFF are refused BUSY unless the stack is ACTIVE and quiet, a program's OFF is REFUSED, WAKE brings a stack out of either, from OFF through an inrush token; training that succeeds clears the key for the wipe, the wipe zeroes every burst and ends INIT;
a late read is counted and marks the step; the patrol moves one burst on; a queued chunk is repaired, remapped or costs its channel; two failed recalibrations retire a channel; a scheduled read is released at its time unless it meets a hole or a stack at rest;
105 °C forces self-refresh. Each changes its stack alone, but for reports and what a retirement asks for. -/
def Obligations.StackPowerReadsAndRepair : Prop :=
  ∀ (s : State) (k : StackNo) (x : Stack), Canon s → s.stack k.val = x →
    (x.pwrBusy 0 = false → exec (.snSelfRefresh k) s = .next (s.setStack k.val { x with
        resOp := 1, resCode := 0, resSeq := x.resSeq + 1, pw := .selfRefresh, waking := false }))
    ∧ (x.pwrBusy 0 = true → exec (.snSelfRefresh k) s = .next (s.setStack k.val { x with resOp := 1, resCode := 1, resSeq := x.resSeq + 1 }))
    ∧ (x.pwrBusy 0 = false → exec (.snOff k true) s = .next (s.setStack k.val { x with
        resOp := 2, resCode := 0, resSeq := x.resSeq + 1, pw := .off, waking := false, mem := [], dev := [], remap := [], spareUsed := 0 }))
    ∧ (exec (.snOff k false) s = .next (s.setStack k.val { x with resOp := 2, resCode := 3, resSeq := x.resSeq + 1 }))
    ∧ (x.pw = .selfRefresh → exec (.snWake k) s = .next (s.setStack k.val { x with resOp := 0, resCode := 0, resSeq := x.resSeq + 1, waking := true }))
    ∧ (x.pw = .off → x.waking = false → exec (.snWake k) s = .next ((s.setStack k.val { x with
        resOp := 0, resCode := 0, resSeq := x.resSeq + 1, waking := true }).inrushAsk k.val (nodeCell (stackNode k.val)) .stackRails 0))
    ∧ (x.pw = .active ∨ x.pw = .init → exec (.snWake k) s = .next (s.setStack k.val { x with resOp := 0, resCode := 2, resSeq := x.resSeq + 1 }))
    ∧ (x.pw = .selfRefresh → x.waking = true → x.tooHot = false → exec (.selfRefreshExit k) s
        = .next (s.setStack k.val { x with pw := .active, waking := false }))
    ∧ (exec (.stackReadLate k) s = .next (s.setStack k.val { x with lateStep := true, lateCnt := satInc x.lateCnt }))
    ∧ (x.scrubHrs ≠ 0 → x.pw = .active → x.dev = [] → exec (.snPatrolScrub k) s
        = .next (s.setStack k.val { x with scrubAt := (x.scrubAt + 1) % 2147483648 }))
    ∧ (∀ rr rest, x.rq = rr :: rest →
      Runs (.snChunkRepair k true) s (fun t => OnlyStack k.val s t ∧ (t.stack k.val).rq = rest ∧ (t.stack k.val).spareUsed = x.spareUsed
        ∧ t.ctlq = s.ctlq ++ [⟨stackNode k.val, .msg (.stackRepair k.val rr.q rr.chunk 0)⟩] ∧ (t.stack k.val).w = x.w ∧ (t.stack k.val).cmdq = x.cmdq)
      ∧ (x.spareUsed < 4096 → Runs (.snChunkRepair k false) s (fun t => OnlyStack k.val s t ∧ (t.stack k.val).rq = rest
        ∧ (t.stack k.val).spareUsed = x.spareUsed + 1 ∧ (t.stack k.val).remap.get false (rr.q * 2 ^ 23 + rr.chunk) = true
        ∧ t.ctlq = s.ctlq ++ [⟨stackNode k.val, .msg (.stackRepair k.val rr.q rr.chunk 1)⟩] ∧ (x.dev = [] → (t.stack k.val).mem = x.mem)))
      ∧ (4096 ≤ x.spareUsed → exec (.snChunkRepair k false) s
        = .next ((s.retireChannel k.val (rr.q / 2) 3).report (stackNode k.val) (.stackRepair k.val (rr.q / 2 * 2) rr.chunk 2))))
    ∧ (∀ ecc : W32, x.recal = [] → exec (.snRecalibration k [] ecc) s = .next (s.setStack k.val { x with odecc := ecc }))
    ∧ (∀ (c : Fin 32) (ecc : W32), x.recal = [] →
      exec (.snRecalibration k [c] ecc) s = .next (s.setStack k.val { x with odecc := ecc, recal := [(c.val, 1)] }))
    ∧ (∀ ecc : W32, x.recal = [(31, 1)] → (x.chan.get {} 31).state = 0 →
      exec (.snRecalibration k [31] ecc) s = .next ((s.setStack k.val { x with odecc := ecc, recal := [(31, 2)] }).retireChannel k.val 31 2))
    ∧ (∀ (c why st : Nat), (x.retireChan c why st).chan.get {} c = ⟨BitVec.ofNat 2 st, BitVec.ofNat 4 why⟩ ∨ BitVec.ofNat 2 st = 0)
    ∧ (∀ (c why st a : Nat), Table.wf 0 x.mem = true →
      (x.retireChan c why st).mem.get 0 a = if snChannel a = c then 0 else x.mem.get 0 a)
    ∧ (∀ temp : Byte,
      (temp.toNat ≤ 95 → x.tooHot = false → exec (.snTemperatureChange k temp) s
        = .next (s.setStack k.val { x with temp := temp, ref2x := decide (85 < temp.toNat), hot := false }))
      ∧ (95 < temp.toNat → temp.toNat < 100 → x.tooHot = false → exec (.snTemperatureChange k temp) s
        = .next ((s.setStack k.val { x with temp := temp, ref2x := true, hot := true }).report (stackNode k.val) (.stackHot k.val temp)))
      ∧ (105 ≤ temp.toNat → x.pw = .active → exec (.snTemperatureChange k temp) s
        = .next ((((s.setStack k.val { x with temp := temp, ref2x := true, hot := true, pw := .selfRefresh, tooHot := true, waking := true }).report (stackNode k.val)
          (.stackHot k.val temp)).haltRequest (s.partOfSector k.val) 1).event 6 1 31 false)))
    ∧ (x.pw = .init → 6 ≤ x.train.step.toNat → x.train.fail = false → x.st ≠ 2 → exec (.stackWipeComplete k) s = .next (s.setStack k.val { x with
        mem := [], dev := [], mkey := x.key, bkey := [], pw := .active, train := { x.train with step := 7, done := true } }))
    ∧ (x.pw ≠ .init ∨ x.train.step.toNat < 6 ∨ x.train.fail = true ∨ x.st = 2 → exec (.stackWipeComplete k) s = .next s)
    ∧ (∀ (step : BitVec 3) (code : Byte) (ms : W16), x.pw = .init → x.chan = [] → x.train.step.toNat < 6 → ms.toNat ≤ 500 →
      (s.mramTable (·.stkRep)).filter (fun r => decide (fld r 4 0 = k.val)) = [] → exec (.stackTrainDone k true step code ms []) s
        = .next (((x.train.at_.elim s (fun a => s.till (a + 1000000 * ms.toNat))).setStack k.val { x with
          st := 0, key := 0, xtsOn := false, train := { x.train with step := 6, fail := false, code := code } }).stackDegraded k.val))
    ∧ (∀ (ok : Bool) (step : BitVec 3) (code : Byte) (ms : W16), x.pw = .init → x.train.step.toNat < 6 → ok = false ∨ 500 < ms.toNat →
      exec (.stackTrainDone k ok step code ms []) s
        = .next (((x.train.at_.elim s (fun a => s.till (a + 1000000 * ms.toNat))).setStack k.val { x with
          st := 2, train := { x.train with step := step, fail := true, code := code } }).stackDegraded k.val))
    ∧ (∀ (j : Nat) (d : BitVec 256), s.exchanging (stackNode k.val) = true →
      x.xdesc (s.node (stackNode k.val)).fab.phase.toNat j = some d →
      (x.pw ≠ .active ∨ x.holeIn (fld d 132 96) (fld d 88 64) = true →
        exec (.stackReadRelease k j) s = .next (s.tillTb (s.phaseAt (stackNode k.val) (fld d 159 136))))
      ∧ (∀ u y, u = s.tillTb (s.phaseAt (stackNode k.val) (fld d 159 136)) → y = x.readMarks (fld d 132 96) (fld d 88 64) u.now u.freeCtr →
        x.pw = .active → x.holeIn (fld d 132 96) (fld d 88 64) = false →
        exec (.stackReadRelease k j) s = .next (((u.setStack k.val { y.1 with ready := Table.put ([], []) y.1.ready j y.2 }).drawn).checkRead k.val x)))

/-- Clean heads from the edges take their outputs in the order of R288: the primary port's lowest free channel, else the alternative's, else another, one older; a local head
enters on its first output or waits; a channel is free where it is present, no slot entry reserves it over the packet's flits, and no packet occupies it. A head of a reserved
type is dropped and counted; one whose destination is down is answered TARGET_DOWN at its first router and dropped later; a flit that cannot be corrected drops its packet. A
scheduled flit leaves on every present output of the entry that covers it, poisoned where it came poisoned, or is counted as missed and fails the phase. A control packet leaves
the network for hub firmware by a way that works, a priority packet before others, and waits where none does; a heartbeat restarts its die-cell's timer. -/
def Obligations.RoutersAndTheControlNetwork : Prop :=
  ∀ (s : State) (n : NodeNo) (x : Node), Canon s → s.node n.val = x →
    (∀ (fc : Nat) (h : PktHead), x.fab.inject = [] → (∀ d ∈ h.devs, decodeBurst d = .clean) → 4 ≤ h.inPort ∨ x.fab.present n.val h.inPort h.inCh = true →
      (fld h.hdr 3 0 = 0 ∨ 8 < fld h.hdr 3 0 → exec (.routerHeadArrival n fc [h]) s = .next (s.updFab n.val (fun f => { f with bad := satInc f.bad })))
      ∧ (1 ≤ fld h.hdr 3 0 → fld h.hdr 3 0 ≤ 8 → bit (x.fab.route.get 0 (fld h.hdr 63 48)) 6 = true ∨ bit (x.fab.route.get 0 (fld h.hdr 63 48)) 7 = false →
        (h.inPort = 4 → exec (.routerHeadArrival n fc [h]) s = .next { s with
          out := s.out ++ [.answer (BitVec.ofNat 16 (fld h.hdr 47 32)) (BitVec.ofNat 16 (fld h.hdr 95 80)) ⟨rcTargetDown, [], false, 0⟩] })
        ∧ (h.inPort < 4 → exec (.routerHeadArrival n fc [h]) s = .next (s.updFab n.val (fun f => { f with tdown := satInc f.tdown }))))
      ∧ (1 ≤ fld h.hdr 3 0 → fld h.hdr 3 0 ≤ 8 → bit (x.fab.route.get 0 (fld h.hdr 63 48)) 6 = false → bit (x.fab.route.get 0 (fld h.hdr 63 48)) 7 = true →
        (∀ o, h.inPort < 4 → routeHead (x.fab.route.get 0 (fld h.hdr 63 48)) (s.freeList n.val fc h.hdr) = some o →
          exec (.routerHeadArrival n fc [h]) s = .next (s.hopHead n.val fc h o))
        ∧ (∀ c, h.inPort = 4 → ((s.freeList n.val fc h.hdr)[fld (x.fab.route.get 0 (fld h.hdr 63 48)) 2 0]?).join = some c →
          exec (.routerHeadArrival n fc [h]) s = .next (s.hopHead n.val fc h (fld (x.fab.route.get 0 (fld h.hdr 63 48)) 2 0, c, false)))
        ∧ (h.inPort = 4 → ((s.freeList n.val fc h.hdr)[fld (x.fab.route.get 0 (fld h.hdr 63 48)) 2 0]?).join = none →
          exec (.routerHeadArrival n fc [h]) s = .next (s.updFab n.val (fun f => { f with inject := [h] })))))
    ∧ (∀ (fc : Nat) (h : PktHead) (d : BitVec 24), x.fab.inject = [] → h.devs = [d] → decodeBurst d = .bad →
      (4 ≤ h.inPort → exec (.routerHeadArrival n fc [h]) s = .next (s.updFab n.val (fun f => { f with drop := satInc f.drop })))
      ∧ (∀ l, h.inPort < 4 → l = x.fab.link.get {} h.inPort → (l.ues.filter (fun u => decide (s.now < u + 1000000))).length < 16 →
        exec (.routerHeadArrival n fc [h]) s = .next (s.updFab n.val (fun f => { f with
          drop := satInc f.drop, link := f.link.put {} h.inPort { l with ues := l.ues.filter (fun u => decide (s.now < u + 1000000)) ++ [s.now] } }))))
    ∧ (∀ (fc : Nat) (g h : PktHead), x.fab.inject = [] → g.inPort < 4 → h.inPort < 4 → PktHead.rank g < PktHead.rank h →
      exec (.routerHeadArrival n fc [g, h]) s = .next ((s.headIn n.val fc g).headIn n.val fc h |>.updFab n.val (fun f => { f with inject := [] }))
      ∧ exec (.routerHeadArrival n fc [h, g]) s = exec (.routerHeadArrival n fc [g, h]) s)
    ∧ (∀ g h : PktHead, (64 ≤ fld g.hdr 13 7 ∧ fld h.hdr 13 7 < 64 ∨ fld h.hdr 13 7 < fld g.hdr 13 7) → g.inPort < 8 → g.inCh < 64 → h.inPort < 8 → h.inCh < 64 → PktHead.rank g < PktHead.rank h)
    ∧ (∀ p c fc k, x.fab.free n.val p c fc k = true ↔ x.fab.present n.val p c = true ∧ x.fab.busy.get 0 (64 * p + c) ≤ fc
      ∧ ∀ r ∈ x.fab.runs, ∀ e ∈ x.fab.entriesOf r.num, (p, c) ∈ x.fab.entryOutputs e →
        fc + k ≤ r.t + fld e 23 0 ∨ r.t + fld e 23 0 + fld e 39 24 ≤ fc)
    ∧ (∀ (e : BitVec 13) (free : List (Option Nat)) (c : Nat), (free[fld e 2 0]?).join = some c → routeHead e free = some (fld e 2 0, c, false))
    ∧ (∀ (fc inp ch : Nat) (dev : BitVec 24), decodeBurst dev = .clean → 4 ≤ inp ∨ x.fab.present n.val inp ch = true → x.fab.entryFor fc inp ch = none →
      Runs (.scheduledFlitArrival n fc inp ch dev) s (fun t =>
        (t.node n.val).fab = { x.fab with miss := satInc x.fab.miss, exMiss := true } ∧ t = { s with nodes := t.nodes } ∧ ∀ m, m ≠ n.val → t.node m = s.node m))
    ∧ (∀ (fc inp ch : Nat) (dev : BitVec 24) (e : BitVec 80), decodeBurst dev = .clean ∨ decodeBurst dev = .poisoned → 4 ≤ inp ∨ x.fab.present n.val inp ch = true →
      x.fab.entryFor fc inp ch = some e → exec (.scheduledFlitArrival n fc inp ch dev) s = .next { s with
        out := s.out ++ ((x.fab.entryOutputs e).filter (fun o => x.fab.present n.val o.1 o.2)).map (fun o => Out.flit n.val o.1 o.2 (decodeBurst dev == .poisoned)) })
    ∧ (∀ (fc inp ch : Nat) (dev : BitVec 24) (e : BitVec 80), decodeBurst dev = .bad → 4 ≤ inp → x.fab.entryFor fc inp ch = some e →
      exec (.scheduledFlitArrival n fc inp ch dev) s = .next { s.updFab n.val (fun f => { f with exUe := true }) with
        out := s.out ++ ((x.fab.entryOutputs e).filter (fun o => x.fab.present n.val o.1 o.2)).map (fun o => Out.flit n.val o.1 o.2 true) })
    ∧ exec (.heartbeatSend n) s = .next { s with ctlq := s.ctlq ++ [⟨n.val, .heartbeat⟩] }
    ∧ (∀ w, s.ctlWay n.val = some w →
      (∀ r, s.ctlq = ⟨n.val, .heartbeat⟩ :: r → exec (.ctlHeartbeat n []) s = .next { s with ctlq := r, hub := { s.hub with hb := s.hub.hb.put 0 n.val s.now } })
      ∧ (∀ r (tag : Byte) (code : BitVec 4) (ws : List W32), s.ctlq = ⟨n.val, .regRsp tag code ws⟩ :: r → (∀ c ∈ r, c.src = n.val → c.prio = false) →
        exec (.ctlRegRsp n []) s = .next { s with ctlq := r, hub := { s.hub with inbox := s.hub.inbox ++ [⟨n.val, .regRsp tag code ws⟩] } })
      ∧ (∀ r (m : CtlMsg), s.ctlq = ⟨n.val, .msg m⟩ :: r → CtlPkt.prio ⟨n.val, .msg m⟩ = true ∨ (∀ c ∈ r, c.src = n.val → c.prio = false) →
        exec (.ctlMsg n []) s = .next (State.onMsg { s with ctlq := r } n.val m))
      ∧ (∀ r (tag : Byte) (code : BitVec 4) (ws : List W32), s.ctlq = ⟨n.val, .regRsp tag code ws⟩ :: ⟨n.val, .heartbeat⟩ :: r →
        exec (.ctlRegRsp n []) s = .next s ∧ exec (.ctlHeartbeat n []) s
          = .next { s with ctlq := ⟨n.val, .regRsp tag code ws⟩ :: r, hub := { s.hub with hb := s.hub.hb.put 0 n.val s.now } }))
    ∧ (s.ctlWay n.val = none → ∀ errs, exec (.ctlHeartbeat n errs) s = .next s ∧ exec (.ctlRegRsp n errs) s = .next s ∧ exec (.ctlMsg n errs) s = .next s)
    ∧ (∀ (l : Nat × Nat) (fails : Nat), s.siteOf n.val = none → fails < 3 →
      s.ctlCross n.val l fails = s.updNode n.val (fun y => { y with ctl := { y.ctl with retry := satAdd y.ctl.retry (min 2 fails) } }))
    ∧ (∀ (l : Nat × Nat), s.siteOf n.val = none → 264 < n.val → (s.ctlCross n.val l 3).hub.ringDown.contains (312 + (n.val - 265)) = true)
    ∧ (∀ t b r f, s.onMsg n.val (.spmRepair t b r f) = { s with hub := { s.hub with inbox := s.hub.inbox ++ [⟨n.val, .msg (.spmRepair t b r f)⟩] } })

/-- A member tile's arrival moves from the tile into its die's node; a child whose arrivals are complete sends them to its parent over their link and keeps none; a channel
that is complete at its root delivers; members of different instructions all get a mismatch, a faulted CWAIT raises REMOTE_FAULT, BAR goes on, and FLAGOR writes the OR of
every payload, sets its predicate and goes on. -/
def Obligations.SynchronisationNetwork : Prop :=
  ∀ (s : State) (n : NodeNo), Canon s →
    (∀ (ch : Fin 17) (i : Fin 16) (a : Arrival), (s.tile (16 * n.val + i.val)).arr.get none ch.val = some a →
      bit (s.chCfg n.val ch.val) 24 = true → bit (s.chCfg n.val ch.val) (8 + i.val) = true → Table.wf [] (s.node n.val).sync.got = true →
      Runs (.syncArrival n ch (.tile i)) s (fun t =>
        (t.tile (16 * n.val + i.val)) = { s.tile (16 * n.val + i.val) with arr := (s.tile (16 * n.val + i.val)).arr.put none ch.val none }
          ∧ (t.node n.val).sync.got.get [] ch.val = (s.node n.val).sync.got.get [] ch.val ++ [(.tile (16 * n.val + i.val), a)]
          ∧ t = { s with tiles := t.tiles, nodes := t.nodes }))
    ∧ (∀ (ch : Fin 17) (e : Fin 4) (m : Nat), s.syncChild n.val ch.val e.val = some m → m ≠ n.val → s.syncFull m ch.val = true →
      Table.wf [] (s.node n.val).sync.got = true → Table.wf [] (s.node m).sync.got = true → Table.wf 0 (s.node n.val).sync.edges = true →
      Runs (.syncArrival n ch (.edge e)) s (fun t =>
        (t.node n.val).sync.got.get [] ch.val = (s.node n.val).sync.got.get [] ch.val ++ (s.node m).sync.got.get [] ch.val
          ∧ bit ((t.node n.val).sync.edges.get 0 ch.val) e.val = true ∧ (t.node m).sync.got.get [] ch.val = [] ∧ t = { s with nodes := t.nodes }))
    ∧ (∀ ch : Fin 16, bit (s.chCfg n.val ch.val) 25 = true → s.syncFull n.val ch.val = true →
      exec (.syncDelivery n ch) s = .next ((s.syncClear n.val ch.val).syncDeliver ch.val ((s.node n.val).sync.got.get [] ch.val)))
    ∧ (∀ (ch : Nat) (l : List (Member × Arrival)) (a : Nat × Arrival) (r : List (Nat × Arrival)), s.ranked l = a :: r →
      (∃ b ∈ r, b.2.sig ≠ a.2.sig) → s.syncDeliver ch l = (a :: r).foldl (fun s m => s.mismatchAt m.1 ch) s)
    ∧ (∀ (ch : Nat) (l : List (Member × Arrival)) (t : Nat) (a : Arrival), s.ranked l = [(t, a)] → a.sig = .bar →
      s.syncDeliver ch l = s.deliverTo t ch a.fault (a.payload.toNat % 2 ^ 32) .none)
    ∧ (∀ (t ch : Nat) (f : Bool) (v : Nat), (s.tile t).seq.hold = .bar ch → s.deliverTo t ch f v .none = s.advance t (s.tile t).seq.holdPc)
    ∧ (∀ (t ch c v w : Nat) (b : Bool), (s.tile t).seq.hold = .cwait ch c v b →
      s.deliverTo t ch true w .none = s.raise t exRemote 4 (s.tile t).seq.holdPc ∧ s.deliverTo t ch false w .none = s.advance t (s.tile t).seq.holdPc)
    ∧ (∀ (t ch pd raddr v : Nat) (f : Bool), (s.tile t).seq.hold = .flagor ch pd raddr → (s.tile t).seq.st = .hold → (s.tile t).spm.refused raddr 4 = none → pd ≠ 0 →
      s.deliverTo t ch f v .none = ((s.setTile t { s.tile t with
        spm := (s.tile t).spm.write raddr (bytesLE 4 v) false
        seq := { (s.tile t).seq with pred := if v ≠ 0 then setBit (s.tile t).seq.pred pd else clrBit (s.tile t).seq.pred pd } }).advance t (s.tile t).seq.holdPc))

/-- The first wingbeat goes out once every tile holds at STEP, and a later one once the combine of the beat lets it; at a die-cell its phase joins the one before and digests start anew; a descriptor goes out at its time, once and in the order of the list; its release moves every tile on; a die-cell
reports once, at its end of exchange; a complete combine is decided by the lowest row that any word calls for: all clear commits, poison rolls back, an exchange failure is
replayed; a partition in ROLLBACK resumes once its tiles hold again; a beat that does not complete in time halts a partition whose tile has stopped. -/
def Obligations.RunningASchedule : Prop :=
  ∀ (s : State) (p : PartNo), Canon s →
    (s.pair p.val = [p.val] → s.firstReady p.val = true → exec (.wingbeatSend p) s = .next ((s.sendFirst p.val false).endNowait [p.val]))
    ∧ (s.pair p.val = [p.val] → s.firstReady p.val = false → s.nextReady p.val = true →
      exec (.wingbeatSend p) s = .next ((s.sendNext [p.val]).endNowait [p.val]))
    ∧ (∀ (n : NodeNo) (wb : Wingbeat), s.partOfNode n.val < 24 → (s.part (s.partOfNode n.val)).wbs.wb = some wb → wb.noExchange = true →
      Runs (.wingbeatArrival n) s (fun t => t.node n.val = { s.node n.val with xbusy := false } ∧ t.hub = s.hub ∧ SameEdges s t
        ∧ (n.val < 240 → (∀ i, i < 16 → (t.tile (16 * n.val + i)).xe = { (s.tile (16 * n.val + i)).xe with digest := 0, sent := 0 }) ∧ t.snodes = s.snodes)
        ∧ (240 ≤ n.val → t.tiles = s.tiles ∧ (t.stack (n.val - 240)).xe = { (s.stack (n.val - 240)).xe with digest := 0, sent := 0 })))
    ∧ (∀ (n : NodeNo) (wb : Wingbeat), s.partOfNode n.val < 24 → (s.part (s.partOfNode n.val)).wbs.wb = some wb → wb.noExchange = false →
      Runs (.wingbeatArrival n) s (fun t => (t.node n.val).xbusy = true ∧ (t.node n.val).fab.phase = BitVec.ofNat 12 wb.phase
        ∧ (t.node n.val).fab.runs = (⟨wb.phase, wb.seq, wb.t⟩ :: (s.node n.val).fab.runs).take 2 ∧ t.hub = s.hub ∧ SameEdges s t))
    ∧ (∀ wb, (s.part p.val).wbs.wb = some wb → exec (.wingbeatRelease p) s = .next (s.releaseWb p.val wb))
    ∧ (∀ t : Nat, (s.tile t).seq.hold = .step true → s.leaveStep t = s.advance t (s.tile t).seq.holdPc)
    ∧ (∀ (n : NodeNo) (i : Fin 16) (j : Nat) (late : List Nat), s.exchanging n.val = true →
      (∀ o d, n.val < 240 → (s.tile (16 * n.val + i.val)).xe.sent = j → (s.tile (16 * n.val + i.val)).xdescOff (s.node n.val).fab.phase.toNat j = some o →
        (s.tile (16 * n.val + i.val)).spm.refused o 32 = none → d = (s.tile (16 * n.val + i.val)).xdesc o →
        exec (.xchgStreamStart n i j late) s = .next (((((s.descRead (16 * n.val + i.val) o).tillTb (s.phaseAt n.val (fld d 55 32))).tileStream
          (16 * n.val + i.val) d late ((s.part (s.partOfNode n.val)).sch.state == .replaying))).tilePoll (16 * n.val + i.val)))
      ∧ (∀ o f, n.val < 240 → (s.tile (16 * n.val + i.val)).xe.sent = j → (s.tile (16 * n.val + i.val)).xdescOff (s.node n.val).fab.phase.toNat j = some o →
        (s.tile (16 * n.val + i.val)).spm.refused o 32 = some f →
        exec (.xchgStreamStart n i j late) s = .next (s.bankFault (16 * n.val + i.val) f 3 0))
      ∧ (∀ d, 240 ≤ n.val → n.val < 264 → (s.stack (n.val - 240)).xe.sent = j → (s.stack (n.val - 240)).xdesc (s.node n.val).fab.phase.toNat j = some d →
        exec (.xchgStreamStart n i j late) s = .next ((s.tillTb (s.phaseAt n.val (fld d 55 32))).stackStream (n.val - 240) j d late)))
    ∧ (∀ n : NodeNo, s.partOfNode n.val < 24 → bit (s.chCfg n.val 16) 24 = true → (s.part (s.partOfNode n.val)).wbs.wb = none →
      (s.part (s.partOfNode n.val)).sch.state = .running → (s.part (s.partOfNode n.val)).wbs.started = false →
      ((s.node n.val).sync.got.get [] 16).any (fun g => g.1 == Member.node n.val) = false → (s.node n.val).xbusy = false →
      exec (.exchangeReport n) s = .next (((s.tillTb (s.part (s.partOfNode n.val)).wbs.rel).updNode n.val (fun x => { x with xbusy := false })).syncAdd n.val 16
        [(.node n.val, ⟨.step, false, false, false, 0⟩)]))
    ∧ (s.pair p.val = [p.val] → s.combineFull p.val = true → exec (.stepCombine p) s = .next (s.combine [p.val])
      ∧ (∀ u, u = (s.clearStep p.val).updHub (fun h => { h with rearms := Table.put 0 h.rearms p.val 0 }) →
        ((s.stepWord p.val).testBit 9 = true → s.combine [p.val]
          = (u.updPart p.val (fun y => { y with sch := { y.sch with lastCause := BitVec.ofNat 14 (s.stepWord p.val) } })).haltNow p.val 2)
        ∧ ((s.stepWord p.val).testBit 9 = false → (s.stepWord p.val).testBit 8 = true → s.combine [p.val]
          = (u.updPart p.val (fun y => { y with sch := { y.sch with lastCause := BitVec.ofNat 14 (s.stepWord p.val) } })).rollback p.val)
        ∧ (s.stepWord p.val < 2 ^ 14 → 2 ^ 10 ≤ s.stepWord p.val → (s.stepWord p.val).testBit 9 = false → (s.stepWord p.val).testBit 8 = false →
          s.combine [p.val]
            = (u.updPart p.val (fun y => { y with sch := { y.sch with lastCause := BitVec.ofNat 14 (s.stepWord p.val) } })).failReplay [p.val] s.tb)
        ∧ (s.stepWord p.val < 256 → s.combine [p.val] = u.commitStep p.val s.tb (s.stepWord p.val))))
    ∧ (s.pair p.val = [p.val] → (s.part p.val).sch.state = .rollback → (s.part p.val).wbs.wb = none → s.allAtStep p.val = true → (s.part p.val).wbs.haltReq = 0 →
      (s.hub.molt.get {} p.val).ldies = [] → exec (.resumeWingbeat p) s
        = .next ((((s.sendFirst p.val true).updPart p.val (fun x => { x with sch := { x.sch with rollback := x.sch.rollback + 1 } })).moltEnd p.val true).endNowait [p.val]))
    ∧ ((s.part p.val).sch.state = .running → (s.part p.val).wbs.cAt = none → (s.part p.val).wbs.wb = none → (s.part p.val).wbs.started = false →
      (s.part p.val).wbs.closing = false → s.hub.tb.startAt = none → (∃ t ∈ s.liveTiles p.val, (s.tile t).seq.hold ≠ .step true ∧ (s.tile t).seq.st = .idle) →
      (∀ t ∈ s.liveTiles p.val, (s.tile t).seq.hold ≠ .step true → (s.tile t).seq.st ≠ .exc) →
      exec (.wingbeatWatchdog p []) s = .next ((s.inc 264 fltWdCnt).haltNow p.val 4))

/-- A powered die-cell that is timed and silent is declared lost with cause heartbeat at the end of its time, a probed one with cause probe 1 ms after the probe; a die already declared is not declared
again; a declaration records site, cause and partition. A spare that woke for a lost L-die is substituted for it, its edges train but for the modules that are lost, and the routes follow; a wake that failed costs the spare. -/
def Obligations.LostDies : Prop :=
  ∀ (s : State) (n : NodeNo), Canon s →
    (s.timed n.val = true → exec (.heartbeatTimeout n) s
      = .next ((s.till (s.hub.hb.get 0 n.val + s.hrd fltHbMiss * (s.node n.val).ctl.hb.toNat * 1000)).declareLost n.val 1))
    ∧ (∀ at_, s.hub.probe.get 0 n.val = at_ + 1 → exec (.probeTimeout n) s
      = .next (((s.till (at_ + 1000000)).updHub (fun h => { h with probe := h.probe.put 0 n.val 0 })).declareLost n.val 2))
    ∧ (∀ c, s.hub.lost.contains n.val = true → s.declareLost n.val c = s)
    ∧ (∀ c, n.val = 264 → c < 8 → c ≠ 1 → s.hub.lost.contains 264 = false → (s.declareLost 264 c).hub.lost = s.hub.lost ++ [264]
      ∧ (s.declareLost 264 c).hrd fltLastCause = c)
    ∧ (∀ (site : Fin 288) (l : Nat), s.waitsSpare (site.val / 12) = some l → (s.hub.anat.site.get {} site.val).state = 1 →
      (∀ (c : Fin 8) (lost : List (Fin 4 × BitVec 8)), exec (.spareWake site true c lost) s = .next
        ((((((s.substitute l site.val (s.partOfSector (site.val / 12))).trainEdges l lost).reroute).updHub (fun h => { h with
          molt := h.molt.put {} (s.partOfSector (site.val / 12)) { s.hub.molt.get {} (s.partOfSector (site.val / 12)) with
            ldies := (s.hub.molt.get {} (s.partOfSector (site.val / 12))).ldies.map (fun x => if x.1 = l then (x.1, some site.val) else x) } })).checkSpares).moltReady
          (s.partOfSector (site.val / 12))))
      ∧ (∀ (c : Fin 8) (lost : List (Fin 4 × BitVec 8)), exec (.spareWake site false c lost) s
        = .next ((s.wakeFailed site.val l (s.partOfSector (site.val / 12)) c.val).setRegion site.val 0)))

/-- The loss of a selected 10 MHz reference is holdover; selecting a reference records what holds; a lost PLL loses its die; a droop counts its stretched periods; an eyespot's code, warning and critical count are recorded; a pulse goes
out to every aligned copy, a copy one count off is corrected outside a phase and one further off, or without a pulse, is lost; a PPS edge is stamped; reads of the low words latch; a write sets the real-time clock. -/
def Obligations.ReferencesEyespotsAndTheTimeBase : Prop :=
  ∀ s : State, Canon s →
    (s.hub.feed.mainGood = true → s.hrd tbmFref = 1 → s.hrd tbmHoldover = 0 →
      exec .ref10Loss s = .next (((s.hwr tbmRef10Ok 0).hwr tbmHoldover 1).bb srcFw 0x0300 1 0x1F0 31 1 []))
    ∧ (s.hub.feed.mainGood = true → s.hrd tbmFref ≠ 1 → exec .ref10Loss s = .next (s.hwr tbmRef10Ok 0))
    ∧ (∀ (e q : Bool) (u : State), s.hub.score.fwUp = true →
      u = ((s.hwr tbmFref (b2n e)).hwr tbmRef10Ok (b2n q)).hwr tbmHoldover (b2n (e && !q)) → exec (.tbmFrefWrite e q) s
        = .next (if s.hrd tbmFref = b2n e ∧ s.hrd tbmHoldover = b2n (e && !q) then u else u.bb srcFw 0x0300 1 0x1F0 31 (b2n (e && !q)) []))
    ∧ (∀ n : NodeNo, n.val ≠ 264 → s.power n.val = 3 → exec (.fabricPllLockLoss n) s = .next ((s.wr n.val clkFpllLock 0).dieFails n.val 2 3))
    ∧ (∀ (d : DieNo) (t : Fin 17) (k : W16), s.power d.val = 3 → Runs (.vlogicDroop d t k true) s (fun u =>
      u.rd d.val (aclkStretchCnt t.val) = min 0xFFFFFFFF (s.rd d.val (aclkStretchCnt t.val) + k.toNat) ∧ u.rd d.val (aclkStretching t.val) = 0
        ∧ u = { s with regs := u.regs }))
    ∧ (∀ (n : NodeNo) (code : BitVec 4) (k : W16), 264 < n.val → s.power n.val = 3 → Runs (.eyespotReport n 17 code k) s (fun u =>
      u.rd n.val eyeFabMargin = code.toNat ∧ u = { s with regs := u.regs }))
    ∧ (∀ (d : DieNo) (e : Fin 17) (code : BitVec 4) (k : W16), s.power d.val = 3 → s.rd d.val eyeWarnTh ≤ code.toNat → s.rd d.val eyeCritTh ≤ code.toNat →
      exec (.eyespotReport ⟨d.val, by omega⟩ ⟨e.val, by omega⟩ code k) s = .next ((((((((s.wr d.val (eyeMargin e.val) code.toNat).wr d.val (eyeWarnF e.val) 0).stretch
        d.val e.val k.toNat false).trimStep d.val false).eyeStep d.val e.val false).setClocks d.val).critTimer d.val e.val false)))
    ∧ (∀ a, s.hub.tb.startAt = some a → Runs .tbPulseSend s (fun t => t.now = max s.now (s.hub.tb.pulseAt + 1000 * s.hrd tbmPulseUs)
        ∧ t.hub.tb.pulse = s.syncedNodes ∧ t.hub.tb.pulseAt = t.now ∧ t.out = s.out ++ [.pulse t.tb] ∧ SameCells s t ∧ SameEdges s t ∧ t.regs = s.regs))
    ∧ (∀ n : NodeNo, s.hub.tb.pulse.contains n.val = true →
      (s.hub.tb.diff.get 0 n.val = 0 → Runs (.tbPulseArrival n 0) s (fun t => t.hub.tb.pulse.contains n.val = false ∧ SameCells s t ∧ t.regs = s.regs))
      ∧ (s.hub.tb.diff.get 0 n.val = 0 → (s.node n.val).xbusy = false → Table.wf 0 s.hub.tb.diff = true → Runs (.tbPulseArrival n 1) s (fun t =>
        t.hub.tb.pulse.contains n.val = false ∧ t.hub.tb.diff.get 0 n.val = 0 ∧ SameCells s t ∧ SameEdges s t))
      ∧ (∀ v : Int, 1 < (s.hub.tb.diff.get 0 n.val + v).natAbs → exec (.tbPulseArrival n v) s = .next (s.copyLost n.val)))
    ∧ (∀ n : NodeNo, n.val ≠ 264 → s.rd n.val tbSynced = 1 → exec (.tbPulseMissing n) s = .next ((s.inc n.val tbPulseMiss).copyLost n.val))
    ∧ (∀ (a : Nat) (o d : Int), s.hub.tb.startAt = some a → s.hrd tbmDisc = 0 → Runs (.ppsEdge o d) s (fun t => t.hub.tb.pps = BitVec.ofNat 64 s.tb
        ∧ t.hub.tb.ppsAt = some s.now ∧ t.hrd tbmPpsStampLo = s.tb % 2 ^ 32 ∧ SameCells s t ∧ SameEdges s t))
    ∧ (∀ n : NodeNo, n.val < 264 → s.power n.val ≠ 0 → exec (.tbLoRead n) s = .next (s.pairRead (.dieReg n.val) n.val 0x70008))
    ∧ (s.hub.feed.mainGood = true → exec .tbmPpsStampLoRead s = .next (s.pairRead .hub 264 0x32010))
    ∧ (∀ v : W32, s.hub.score.fwUp = true → Runs (.rtcSecWrite v) s (fun t => t.hrd rtcValid = 1 ∧ t.hub.tb.rtcBase = v.toNat ∧ t.hub.tb.rtcAt = s.now
        ∧ SameCells s t ∧ SameEdges s t))

/-- A valid flow sample joins the last and clears the counts of bad ones, two low samples, a failure flag, a tenth bad read or the pin declare a flow stop, once; a flow stop cuts, records and asks every running partition to halt, and 20 ms later forces it; it ends once flow was back for 1 s.
A valid inlet temperature is recorded; the budget follows flow and inlet; a hot spot takes the vote of its sensors and throttles above its threshold; steps recover; a hard trip leaves standby power only. -/
def Obligations.CoolingAndHeat : Prop :=
  ∀ s : State, Canon s → s.hub.feed.mainGood = true →
    (∀ flow status seq : W16, s.hub.cool.seq ≠ some seq → status.toNat % 4 = 0 → 600 ≤ flow.toNat → flow.toNat ≤ 6000 →
      Runs (.coolantFlowRead (some (flow, status, seq))) s (fun t => t.hub.cool.bad = 0 ∧ t.hub.cool.low = 0 ∧ t.hub.cool.seq = some seq ∧ t.hub.cool.failed = false
        ∧ t.hub.cool.flows = s.hub.cool.flows.filter (fun x => decide (s.now < x.1 + 10000000)) ++ [(s.now, flow.toNat)] ∧ SameCells s t ∧ SameEdges s t ∧ t.regs = s.regs))
    ∧ (s.hub.cool.bad ≠ 9 → s.hub.cool.failed = false → Runs (.coolantFlowRead none) s (fun t => t.hub.cool.bad = s.hub.cool.bad + 1
        ∧ t.hub.cool.flows = s.hub.cool.flows ∧ SameCells s t ∧ SameEdges s t ∧ t.regs = s.regs))
    ∧ (∀ a : W16, s.hub.cool.sensor = false → -1000 ≤ signedOf 16 a.toNat → signedOf 16 a.toNat ≤ 10000 →
      Runs (.coolantTempRead (some a) none) s (fun t => t.hrd thmTIn = a.toNat ∧ t.hrd thmDataLost = 0 ∧ t.hub.cool.tBadSince = none ∧ SameCells s t ∧ SameEdges s t))
    ∧ (exec .flowFailNLow s = .next (s.flowStop 2))
    ∧ (∀ c, s.hrd thmFlowStop = 1 → s.flowStop c = s)
    ∧ (∀ p : PartNo, s.hrd thmFlowStop = 1 → (s.hub.molt.get {} p.val).ldies = [] → (s.part p.val).sch.state = .running →
      exec (.flowStopForcedHalt p) s = .next ((((((s.till (s.hub.cool.stopAt + 20000000)).mapTiles (s.partTiles p.val) (fun _ x => { x with
        seq := { x.seq with en := false, st := .stopped, hold := .none } })).haltNow p.val 1).updPart p.val (fun x => { x with
        wbs := { x.wbs with wb := none, cAt := none, replayDue := false, withheld := false, forced := true } })).hwr thmForced 1)))
    ∧ (∀ a u, s.hub.cool.backSince = some a → s.hrd thmFlowStop = 1 → s.hub.cool.failed = false →
      u = ((s.till (a + 1000000000)).hwr thmFlowStop 0).setLimit ((s.till (a + 1000000000)).hwr thmFlowStop 0).limitNow false →
      exec (.flowStopEnd true) s = .next ((List.range 240).foldl (fun s n => s.setClocks n) (if u.hrd pmgrDerate = 1 then u.event 6 0 31 false else u)))
    ∧ (∀ (xs : List Nat) (tp : Int) (u v : State), (s.hub.cool.flows.filter (fun x => decide (s.now ≤ x.1 + 10000000))).map (·.2) = xs →
      tp = (if s.hrd thmDataLost = 1 then 5500 else s.inlet) →
      u = ((s.hwr thmInletDerate (b2n (decide (4500 < tp)))).hwr thmInletHigh (b2n (decide (5500 < tp)))).hwr thmInletLow (b2n (decide (tp < 2000))) →
      v = (if xs = [] then u else ((u.hwr thmFlow (xs.foldl (· + ·) 0 / xs.length)).hwr thmFlowLow (b2n (decide (xs.foldl (· + ·) 0 < 1600 * xs.length)))).hwr
        thmBudgetW (pTherm (xs.foldl (· + ·) 0) xs.length tp s.inlet (s.hrd thmGlycolPct))) →
      exec .thermalBudgetUpdate s = .next (v.setLimit (if v.outerHot then min v.limitNow (v.hrd pmgrLimitW * 95 / 100) else v.limitNow) false))
    ∧ (∀ (sum n : Nat) (t : Int) (g : Nat), 0 < n → pTherm sum n t t g ≤ pInlet t ∧ (t ≤ 4500 → pInlet t = 15500) ∧ (5500 < t → pInlet t = 4000))
    ∧ (∀ n : NodeNo, s.power n.val ≠ 0 → exec (.hotspotUpdate n []) s = .next ((s.noteHottest).setClocks n.val)
        ∧ (∀ r, exec (.hotspotUpdate n [r]) s = .next (((s.hotUpdate n.val r).noteHottest).setClocks n.val)))
    ∧ (∀ a b m : Int, hotVote (some a) (some b) (some m) = some (max (min a b) (min (max a b) m)) ∧ hotVote (some a) (some b) none = some (max a b)
        ∧ hotVote (some a) none (some m) = some (max a m) ∧ hotVote none none (some m) = some m)
    ∧ (∀ n : NodeNo, s.power n.val = 0 → exec (.throttleRecoveryStep n) s = .next s)
    ∧ (∀ n : NodeNo, 264 < n.val → s.power n.val ≠ 0 → Runs (.throttleRecoveryStep n) s (fun t => t.hub.hot = s.hub.hot ∧ SameCells s t))
    ∧ (∀ (n : DieNo) (t : Nat), (s.throttleTile n.val t).hub.hot = s.hub.hot.put {} (hotKey n.val t) { s.hotAt n.val t with throttle := max 32 ((s.hotAt n.val t).throttle - 1) })
    ∧ (∀ a : TripAt, Runs (.hardTrip a) s (fun t => t.hub.feed.tripped = true ∧ (∀ k, (t.tile k).seq.st ≠ .run) ∧ (∃ l, t.out = l ++ [.thermtrip, .pldmEvent 0x42])))

/-- BOOT_GO for the next instar is accepted while none runs, before eclosion and outside cocoon, and starts it; any other only counts in BOOT_GO_DROP. An instar whose work is done ends DONE with its time recorded, or
FAILED with its code, and at the third failure in cocoon with code 11; one that has not completed at its bound is in cocoon with code 1; a request enters cocoon with code 12. -/
def Obligations.BringUpSequence : Prop :=
  ∀ s : State, Canon s →
    (∀ t : Fin 8, s.hub.feed.mainGood = true → s.hrd thmFlowStop = 0 → s.hrd bootImago = 0 → s.hrd bootPhase = 0 ∨ s.hrd bootPhase = 2 →
      t.val = s.hrd bootInstar + 1 → Runs (.bootGo t) s (fun u => u.hrd bootPhase = 1
        ∧ u.hub.boot = { s.hub.boot with startAt := s.now, target := t.val, work := false, code := 0 }
        ∧ u = { s with regs := u.regs, hub := { s.hub with boot := u.hub.boot } }))
    ∧ (∀ t : Fin 8, s.hub.feed.mainGood = false ∨ s.hrd thmFlowStop ≠ 0 ∨ s.hrd bootImago ≠ 0 ∨ (s.hrd bootPhase ≠ 0 ∧ s.hrd bootPhase ≠ 2)
      ∨ t.val ≠ s.hrd bootInstar + 1 → exec (.bootGo t) s = .next (s.sat 264 bootGoDrop))
    ∧ (s.hrd bootPhase = 1 → s.hub.boot.work = true → (s.hub.boot.target = 4 → s.stacksReady = true) →
      (s.hub.boot.code = 0 → exec .instarComplete s = .next (((((s.hwr bootStepMs s.stepMs).hwr (bootLastMs s.hub.boot.target) s.stepMs).hwr bootInstar
          s.hub.boot.target).hwr bootPhase 0).hwr bootTries 0))
      ∧ (∀ u : State, u = (s.hwr bootStepMs s.stepMs).bb srcFw 0x0101 1 0x1F0 31 s.hub.boot.code (bytesLE 1 s.hub.boot.target) → s.hub.boot.code ≠ 0 →
        (u.hrd bootTries < 2 → exec .instarComplete s = .next (((u.hwr bootPhase 2).hwr bootCode s.hub.boot.code).hwr bootTries (u.hrd bootTries + 1)))
        ∧ (2 ≤ u.hrd bootTries → exec .instarComplete s = .next (u.bootFatal 0x1F0 11))))
    ∧ (s.hrd bootPhase = 1 → exec .instarTimeout s = .next ((s.till (s.hub.boot.startAt + instarBound s.hub.boot.target)).bootFatal 0x1F0 1))
    ∧ (s.hub.feed.mainGood = true → s.hrd bootPhase ≠ 3 → exec .bootCocoon s = .next (s.cocoon 12 (decide (s.hrd bootImago = 1)) false))

/-- Instar 1 powers every site that is not dark or retired for good; instar 2 burns waiting fuses, reads the maps and builds the site map; instar 3 starts the clocks of the ports; instar 4 trains and readies the routers;
instar 5 checks the bundle and broadcasts it in rounds, then point to point; instar 6 counts what each receiver reports and times out; instar 7 settles the map, records and measures it, and the panel is in imago if some die and the measurements stand. -/
def Obligations.BringUpInstars : Prop :=
  ∀ s : State, Canon s →
    (∀ dark silent ports, s.booting 1 = true → s.hub.score.fwUp = true →
      exec (.instarSkeleton dark silent ports true) s = .next (s.bootFatal 0x1F0 2)
      ∧ (s.hub.rot.clears = [] → s.mramTable (·.phase) = [] → Table.wf 0 s.hub.region = true → Runs (.instarSkeleton dark silent ports false) s (fun t =>
        t.hub.boot.work = true ∧ t.hub.boot.dark = dark.map (·.val) ∧ t.hub.boot.silent = silent.map (·.val)
          ∧ ∀ k, k < 288 → (∀ d ∈ dark, d.val ≠ k / 12) → s.neverPowered k = false → s.hub.fuseOpen.contains k = false → t.hub.region.get 0 k = 1)))
    ∧ (s.booting 2 = true → ∀ u v : State, u = s.burnFuses → u.hub.boot.silentPorts.contains 0 = false →
      (u.idOk (u.idRecord 288) 0x1F1 = true → u.hub.bbx.hub.readable = false → u.hub.bbx.east.readable = false → exec .instarIdentify s = .next (u.bootFatal 0x1F0 4))
      ∧ (u.idOk (u.idRecord 288) 0x1F1 = true → u.hub.bbx.hub.readable = true ∨ u.hub.bbx.east.readable = true →
        v = (((((List.range 24).foldl (fun s k => if s.hub.boot.bad (12 * k + 5) then s.updStack k (fun x => { x with st := 2 }) else s)
          ((u.readMaps.fuseChecks).softChecks)).buildMap.ringsUp false).phasesShown).bootCounts) →
        exec .instarIdentify s = .next (if v.someDie then v.bootDone 0 else v.bootFatal 0x1F0 5)))
    ∧ (∀ un, s.booting 3 = true → exec (.instarClocks un true) s = .next (s.bootFatal 0x1F0 6)
      ∧ Runs (.instarClocks un false) s (fun t => t.hub.boot.work = true ∧ t.hub.boot.code = 0
        ∧ ∀ q, 1 ≤ q → q ≤ 3 → s.hub.boot.badPort.contains q = false → (t.port q).fast = true))
    ∧ (∀ links tables lanes, s.booting 4 = true → Runs (.instarTrain links tables lanes) s (fun t =>
      t.hub.boot.work = true ∧ ∀ n, 264 ≤ n → n ≤ 268 → (t.node n).fab.ready = true))
    ∧ (∀ z : Bundle, s.booting 5 = true → s.hub.boot.miss = [] →
      (s.fwPlaceOk = false → exec (.instarLoad (some z)) s = .next (s.bootDone 8))
      ∧ (s.fwPlaceOk = true → (s.fn 0).busMaster = false → exec (.instarLoad (some z)) s = .next (s.bootDone 7))
      ∧ (s.fwPlaceOk = true → (s.fn 0).busMaster = true → exec (.instarLoad none) s = .next (s.bootDone 7)
        ∧ (bundleHeaderOk z (s.hrd bootFwLen / 4096) = false → exec (.instarLoad (some z)) s = .next (s.bootDone 8))
        ∧ (bundleHeaderOk z (s.hrd bootFwLen / 4096) = true → zbDigestOk z = false ∨ zbSigFormed z = false ∨ z.sigOk = false
          ∨ s.policyOk (s.hrd polMinSvnBundle) (zbSvn z) (zbSigner z) (zbOpSig z) = false → exec (.instarLoad (some z)) s = .next (s.bootDone 9))
        ∧ (bundleHeaderOk z (s.hrd bootFwLen / 4096) = true → zbDigestOk z = true → zbSigFormed z = true → z.sigOk = true →
          s.policyOk (s.hrd polMinSvnBundle) (zbSvn z) (zbSigner z) (zbOpSig z) = true → Runs (.instarLoad (some z)) s (fun t =>
            t.hub.boot.bundle = some z ∧ t.hub.rot.bundleSvn = BitVec.ofNat 16 (zbSvn z) ∧ t.hrd bootRounds = 0 ∧ t.hrd bootP2p = 0
              ∧ t.hub.rot.meas = s.hub.rot.meas.put [] (measKey 3 0) (bytesLE 48 (zbWord z 32 48) ++ bytesLE 8 (zbWord z 24 8) ++ bytesLE 2 (zbSvn z))))))
    ∧ (∀ lost, s.loading = true → s.hub.boot.round ≤ 8 → Runs (.broadcastRoundEnd lost) s (fun t =>
      t.hub.boot.miss = s.hub.boot.miss.filter (fun x => lost.any (fun l => l.1.key == x.1 && l.2.1 == x.2)) ∧ t.hrd bootRounds = s.hub.boot.round
        ∧ t.hub.boot.round = s.hub.boot.round + 1 ∧ t.hub.boot.work = decide (t.hub.boot.miss = [])))
    ∧ (∀ r : Receiver, s.loading = true → 8 < s.hub.boot.round → (∃ x ∈ s.hub.boot.miss, x.1 = r.key) → Runs (.p2pLoadAttempt r []) s (fun t =>
      t.hub.boot.miss = s.hub.boot.miss.filter (fun x => x.1 != r.key) ∧ t.hub.boot.work = decide (t.hub.boot.miss = [])))
    ∧ (s.booting 6 = true → (∀ l, exec (.instarProve l) s = .next ((l.foldl (fun s x => s.katResult x.1.key x.2) s).katDone))
      ∧ (∀ r : Receiver, exec (.katReportTimeout r) s = .next ((s.katResult r.key false).katDone)))
    ∧ (∀ r ok, s.hub.boot.kat.get 0 r ≠ 0 → s.katResult r ok = s)
    ∧ (∀ r, s.receivers.contains r = true → s.hub.boot.kat.get 0 r = 0 → Table.wf 0 s.hub.boot.kat = true →
      (s.katResult r true).hub.boot.kat.get 0 r = 1 ∧ (s.katResult r false).hub.boot.kat.get 0 r = 2)
    ∧ (s.booting 7 = true → (s.settle.1.passThree.1.someDie = false → ∀ b, exec (.instarReconcile b) s = .next (s.settle.1.passThree.1.bootFatal 0x1F0 5))
      ∧ (s.settle.1.passThree.1.someDie = true → ∀ (b : Bool) (u : State),
          u = (s.settle.1.passThree.1.settleRecords (s.settle.2 ++ s.settle.1.passThree.2) s.settle.2).measureBoot →
        (u.measureOk = false → exec (.instarReconcile b) s = .next (u.bootFatal 0x1F0 10))
        ∧ (u.measureOk = true → exec (.instarReconcile b) s = .next (u.toImago s b))))
    ∧ (∀ recs skipped, s.settleRecords recs skipped = (skipped.filter (fun x => decide (fld x 3 0 ≠ 3))).foldl
        (fun s x => s.bb srcFw 0x0100 1 (fld x 12 4) 31 (fld x 35 33) (bytesLE 8 x.toNat)) (recs.foldl (fun s x => s.softAppend x) s.parkSpares))
    ∧ (Table.wf [] s.hub.rot.meas = true → s.measureBoot.hub.rot.meas.get [] (measKey 5 0) = s.policyWords
      ∧ s.measureBoot.hub.rot.meas.get [] (measKey 4 0) = (s.mramTable (·.soft)).flatMap (fun r => bytesLE 8 r.toNat))
    ∧ (∀ (old : State) (b : Bool), (s.toImago old b).hrd bootImago = 1)

/-- The oldest command of a partition's queue leaves it. A reserved opcode or reserved bits give BAD_PARAM. TK_BIND of a free key of the partition to an open window fills the entry and steps its generation;
TK_UNBIND refuses new arrivals and completes when no operation is left; CONN_OPEN refuses an index in use, a dark port or a used nonce, else fills the entry, OPEN at once under RoCEv2; only the owner may close or query. -/
def Obligations.KeyAndConnectionCommands : Prop :=
  ∀ (s u : State) (q : Fin 4) (p : PartNo) (c : BitVec 512) (r : List (BitVec 512)), Canon s → s.isEth q.val = true →
    (s.blk q.val p.val).unbinding = none → (s.blk q.val p.val).cmdq = c :: r → u = s.updBlk q.val p.val (fun b => { b with cmdq := b.cmdq.drop 1 }) →
    (∀ x ∈ [Instr.tkBind q p, .tkUnbind q p, .connOpen q p, .connClose q p, .connQuery q p], fld c 7 0 = 0 ∨ 5 < fld c 7 0 →
      exec x s = .next (u.portResult q.val p.val c prBadParam 0))
    ∧ (∀ x ∈ [(Instr.tkBind q p, 1), (.tkUnbind q p, 2), (.connOpen q p, 3), (.connClose q p, 4), (.connQuery q p, 5)], fld c 7 0 = x.2 → pcReserved c = false →
      exec x.1 s = .next (u.portResult q.val p.val c prBadParam 0))
    ∧ (pcReserved c = true → fld c 7 0 = 1 → ∀ k a : Nat, k = fld c 107 96 → a = fld c 163 108 → a % 64 = 0 → fld c 194 164 ≠ 0 →
      (u.rd tkPlace (tkOwner k) ≠ p.val → exec (.tkBind q p) s = .next (u.portResult q.val p.val c prNotOwner 0))
      ∧ (u.rd tkPlace (tkOwner k) = p.val → u.rd tkPlace (tkBound k) = 1 → exec (.tkBind q p) s = .next (u.portResult q.val p.val c prTkBusy 0))
      ∧ (∀ t off, u.rd tkPlace (tkOwner k) = p.val → u.rd tkPlace (tkBound k) = 0 →
        decodePga (BitVec.ofNat 56 a) (64 * fld c 194 164) (u.partStacks p.val).length = some (.direct t off) → segReg t = false →
        (u.bindWindow p.val t (BitVec.ofNat 16 (fld c 226 211)) k off (64 * fld c 194 164) (fld c 197 195) = false →
          exec (.tkBind q p) s = .next (u.portResult q.val p.val c prWinMismatch 0))
        ∧ (u.bindWindow p.val t (BitVec.ofNat 16 (fld c 226 211)) k off (64 * fld c 194 164) (fld c 197 195) = true → ∃ w : State,
          exec (.tkBind q p) s = .next (w.portResult q.val p.val c prOk (k + (nextGen (BitVec.ofNat 8 (u.rd tkPlace (tkGen k)))).toNat * 2 ^ 12))
            ∧ w = { u with regs := w.regs } ∧ w.rd tkPlace (tkBound k) = 1 ∧ w.rd tkPlace (tkGen k) = (nextGen (BitVec.ofNat 8 (u.rd tkPlace (tkGen k)))).toNat
            ∧ w.rd tkPlace (tkRights k) = fld c 197 195 ∧ w.rd tkPlace (tkOwner k) = p.val ∧ w.rd tkPlace (Machine.tkTag k) = fld c 226 211
            ∧ w.tkPga k = a ∧ w.tkLen k = 64 * fld c 194 164 ∧ w.rd tkPlace (tkInfl k) = 0)))
    ∧ (pcReserved c = true → fld c 7 0 = 2 → u.rd tkPlace (tkOwner (fld c 107 96)) = p.val → u.keyLive (fld c 107 96) p.val = true →
      exec (.tkUnbind q p) s = .next (u.updBlk q.val p.val (fun b => { b with unbinding := some c })))
    ∧ (∀ (v : State) (d : BitVec 512), (v.blk q.val p.val).unbinding = some d → v.rd tkPlace (tkInfl (fld d 107 96)) = 0 → exec (.tkUnbindComplete q p) v
      = .next ((((v.updBlk q.val p.val (fun b => { b with unbinding := none })).wr tkPlace (tkBound (fld d 107 96)) 0).wr tkPlace (tkGen (fld d 107 96))
          (nextGen (BitVec.ofNat 8 (v.rd tkPlace (tkGen (fld d 107 96))))).toNat).portResult q.val p.val d prOk 0))
    ∧ (∀ i, i = fld c 107 96 → pcReserved c = true → fld c 7 0 = 3 → fld c 409 408 ≠ 3 → (bit c 108 = true → fld c 409 408 = 2) →
      bitsOf (BitVec.ofNat 8 (fld c 116 109)) 8 ≠ [] → (bit c 108 = false → (bitsOf (BitVec.ofNat 8 (fld c 116 109)) 8).length = 1) →
      (u.rd (265 + q.val) (cnState i) ≠ 0 → exec (.connOpen q p) s = .next (u.portResult q.val p.val c prConnBusy 0))
      ∧ (u.rd (265 + q.val) (cnState i) = 0 → (∃ j ∈ bitsOf (BitVec.ofNat 8 (fld c 116 109)) 8, u.portOn q.val j = true) →
        ((u.conn q.val i).nonces.contains (BitVec.ofNat 64 (fld c 255 192)) = true → exec (.connOpen q p) s = .next (u.portResult q.val p.val c prNonceReused 0))
        ∧ ((u.conn q.val i).nonces.contains (BitVec.ofNat 64 (fld c 255 192)) = false →
          exec (.connOpen q p) s = .next ((u.connEntry q.val p.val i c).portResult q.val p.val c prOk (q.val * 2 ^ 20 + i))
          ∧ (u.connEntry q.val p.val i c).rd (265 + q.val) (cnState i) = (if bit c 108 then 1 else 2)
          ∧ (u.connEntry q.val p.val i c).rd (265 + q.val) (cnPart i) = p.val ∧ (u.connEntry q.val p.val i c).rd (265 + q.val) (cnPorts i) = fld c 116 109)))
    ∧ (∀ i, i = fld c 107 96 → pcReserved c = true →
      (u.rd (265 + q.val) (cnPart i) ≠ p.val → (fld c 7 0 = 4 → exec (.connClose q p) s = .next (u.portResult q.val p.val c prNotOwner 0))
        ∧ (fld c 7 0 = 5 → exec (.connQuery q p) s = .next (u.portResult q.val p.val c prNotOwner 0)))
      ∧ (u.rd (265 + q.val) (cnPart i) = p.val → (fld c 7 0 = 4 → exec (.connClose q p) s = .next ((u.connShut q.val i).portResult q.val p.val c prOk 0))
        ∧ (fld c 7 0 = 5 → exec (.connQuery q p) s = .next (u.portResult q.val p.val c prOk (u.reg (265 + q.val) (0x300000 + 64 * i)).toNat))))

/-- A work request of a partition that does not molt is taken, a bad one ends BAD_REQUEST at once; one that has ended gives its record. A frame with a bad FCS counts, one of a port that is not UP does nothing; one that MACsec refuses, that is too long or not for the port is dropped and counted; a neighbour or echo request is answered. A RoCEv2 connection retransmits from its oldest packet
after its timeout, a UET packet goes again after its own, and past the retries the connection fails. A rate rises by a twentieth of the line; a trained port is UP unless a lane is bad; a port that fails sends its packets again elsewhere. -/
def Obligations.WorkRequestsAndEthernetEvents : Prop :=
  ∀ (s : State) (q : Fin 4), Canon s →
    (∀ (p : PartNo) (w : BitVec 512) (r : List (BitVec 512)), s.isEth q.val = true → (s.blk q.val p.val).wrq = w :: r →
      (∀ x ∈ [(Instr.wrWrite q p, 1), (.wrRead q p, 2), (.wrFadd q p, 3), (.wrCswap q p, 4), (.wrFor q p, 5)], wrOp w = x.2 ∨ wrOp w = 0 ∨ 5 < wrOp w →
        s.moltPaused p.val = true ∨ 256 ≤ s.rd (265 + q.val) (cnWrOutst (wrConn w)) → exec x.1 s = .next s)
      ∧ (∀ u : State, u = (s.updBlk q.val p.val (fun b => { b with wrq := b.wrq.drop 1 })).wrTake q.val p.val w none →
        s.moltPaused p.val = false → s.rd (265 + q.val) (cnWrOutst (wrConn w)) < 256 →
        (wrOp w = 1 ∨ wrOp w = 0 ∨ 5 < wrOp w → exec (.wrWrite q p) s = .next u)
        ∧ (wrOp w = 2 ∨ wrOp w = 0 ∨ 5 < wrOp w → exec (.wrRead q p) s = .next u)
        ∧ (wrOp w = 3 ∨ wrOp w = 0 ∨ 5 < wrOp w → exec (.wrFadd q p) s = .next u)
        ∧ (wrOp w = 4 ∨ wrOp w = 0 ∨ 5 < wrOp w → exec (.wrCswap q p) s = .next u)
        ∧ (wrOp w = 5 ∨ wrOp w = 0 ∨ 5 < wrOp w → exec (.wrFor q p) s = .next u)))
    ∧ (∀ (p : Nat) (w : BitVec 512), (wrOp w = 0 ∨ 5 < wrOp w) → (∀ r ∈ (s.port q.val).wrs, r.id ≠ (s.port q.val).next) →
      ((s.wrTake q.val p w none).port q.val).wrs
        = (s.port q.val).wrs ++ [{ id := (s.port q.val).next, part := p, w := w, fate := some (5, 0) }])
    ∧ (∀ (i : Nat) (r : WorkReq) (st : Nat) (code : BitVec 4), (s.port q.val).wrs[i]? = some r → r.fate = some (st, code) → r.clx = none →
      (s.connUet q.val (wrConn r.w) = false → ∀ e ∈ (s.port q.val).wrs.take i, wrConn e.w = wrConn r.w → e.clx ≠ none) →
      exec (.wrCompletion q i) s = .next (((s.wrGone q.val r).portPut q.val r.part (fld r.w 287 232) (BitVec.ofNat 16 (fld r.w 303 288))
        (crBytes r.w st code (if 3 ≤ wrOp r.w then 0 else r.got)) (.wrDone (wrConn r.w))).wrPump q.val (wrConn r.w)))
    ∧ (∀ (j : Fin 8) (f : Frame), s.portUp q.val j.val = false → exec (.ethFrameRx q j f) s = .next s)
    ∧ (∀ (j : Fin 8) (f : Frame), s.isEth q.val = true → s.portUp q.val j.val = true →
      (f.kind = .badFcs → Runs (.ethFrameRx q j f) s (fun t => t.rd (265 + q.val) (ptRxFcs j.val) = min (2 ^ 32 - 1) (s.rd (265 + q.val) (ptRxFcs j.val) + 1)
        ∧ t.rd (265 + q.val) (ptFecCorr j.val) = min (2 ^ 32 - 1) (s.rd (265 + q.val) (ptFecCorr j.val) + f.corrected) ∧ t = { s with regs := t.regs }))
      ∧ (∀ u v : State, u = s.fecCount (265 + q.val) j.val f.corrected → f.kind ≠ .badCodeword → f.kind ≠ .badFcs →
        (u.macsecRx q.val j.val f = none → exec (.ethFrameRx q j f) s = .next (u.sat (265 + q.val) (ptMacsecDrop j.val)))
        ∧ (u.macsecRx q.val j.val f = some v → v.frameMine q.val j.val f = false → exec (.ethFrameRx q j f) s = .next (v.sat (265 + q.val) (ptRxNoclass j.val)))
        ∧ (u.macsecRx q.val j.val f = some v → v.frameMine q.val j.val f = true →
          (∀ a, f.kind = .neighbour a → exec (.ethFrameRx q j f) s = .next (v.emit (.linkReply q.val j.val false)))
          ∧ (∀ a, f.kind = .echo a → exec (.ethFrameRx q j f) s = .next (v.emit (.linkReply q.val j.val true)))
          ∧ (∀ dst src c hdr psn ecn b, f.kind = .packet dst src c hdr psn ecn b →
            exec (.ethFrameRx q j f) s = .next ((v.packetRx q.val j.val src c f.len hdr psn ecn b).portPoll q.val)))))
    ∧ (∀ (j : Nat) (f : Frame) (g : SecTag), s.rd (265 + q.val) (ptMacsec j) = 1 → (f.sec = none → s.macsecRx q.val j f = none)
      ∧ (f.sec = some g → g.ok = false ∨ g.pn + s.rd (265 + q.val) (ptMsReplay j) < (s.port q.val).msRx.get 1 (16 * j + 4 * g.sc.val + g.an.val) → s.macsecRx q.val j f = none))
    ∧ (∀ (j : Nat) (f : Frame), s.rd (265 + q.val) (ptMacsec j) = 0 → s.macsecRx q.val j f = some s
      ∧ (s.rd (265 + q.val) (ptMtu j) < f.len ∨ f.kind = .noClass ∨ f.sec ≠ none → s.frameMine q.val j f = false))
    ∧ (∀ (c : Fin 4096) (x : TxPkt) (r : List TxPkt), (s.conn q.val c.val).unacked = x :: r → s.connUet q.val c.val = false → s.connOpen q.val c.val = true →
      s.connPaused q.val c.val = false → exec (.roceAckTimeout q c) s
        = .next (((s.till (x.at_ + 4096 * 2 ^ (s.conn q.val c.val).tmo.toNat)).retryAll q.val c.val).portPoll q.val)
      ∧ (s.retryOut q.val c.val = true → s.retryAll q.val c.val = s.connError q.val c.val 1 0))
    ∧ (∀ (c : Fin 4096) (x : TxPkt) (n : Nat), (s.conn q.val c.val).unacked.find? (fun t => t.psn == n) = some x → s.connUet q.val c.val = true →
      s.connOpen q.val c.val = true → s.connPaused q.val c.val = false → ∀ u : State, u = s.till (x.at_ + 1000 * max 1 (s.rd (265 + q.val) uetRtoUs)) →
      ((s.conn q.val c.val).retry.toNat ≤ x.tries → exec (.uetRtoExpiry q c n) s = .next ((u.connError q.val c.val 1 0).portPoll q.val))
      ∧ (x.tries < (s.conn q.val c.val).retry.toNat → exec (.uetRtoExpiry q c n) s = .next ((u.resend q.val c.val (fun y => y.psn == n)).portPoll q.val)))
    ∧ (∀ (c : Fin 4096) (j : Nat) (l : List Nat), bitsOf (BitVec.ofNat 8 (s.rd (265 + q.val) (cnPorts c.val))) 8 = j :: l → (s.conn q.val c.val).rate ≠ 0 →
      s.connUet q.val c.val = false → s.connOpen q.val c.val = true → Runs (.cnpRateIncrease q c) s (fun t => t.now = max s.now ((s.conn q.val c.val).cnpAt + 55000)
        ∧ (t.conn q.val c.val).rate = (if modeRate (s.portMode q.val j) ≤ (s.conn q.val c.val).rate + modeRate (s.portMode q.val j) / 20 then 0
          else (s.conn q.val c.val).rate + modeRate (s.portMode q.val j) / 20) ∧ t = { s with now := t.now, ports := t.ports }))
    ∧ (∀ (j : Fin 8) (ok : Bool), s.isEth q.val = true → s.portOn q.val j.val = true →
      s.rd (265 + q.val) (ptState j.val) = 1 ∨ s.rd (265 + q.val) (ptState j.val) = 3 →
      ((∃ l ∈ modeLanes (s.portMode q.val j.val) (j.val % 2), (s.rd (265 + q.val) (qBadlane (j.val / 2))).testBit l = true) ∨ ok = false →
        exec (.ethPortUp q j ok) s = .next ((s.setPort q.val j.val 4).raiseReason 7))
      ∧ ((∀ l ∈ modeLanes (s.portMode q.val j.val) (j.val % 2), (s.rd (265 + q.val) (qBadlane (j.val / 2))).testBit l = false) → ok = true →
        exec (.ethPortUp q j ok) s = .next (s.setPort q.val j.val 2) ∧ (s.setPort q.val j.val 2).rd (265 + q.val) (ptState j.val) = 2))
    ∧ (∀ j : Fin 8, s.portUp q.val j.val = true → exec (.ethPortDown q j) s = .next (((s.port q.val).conns.map (·.1)).foldl (fun s c =>
      if s.connOpen q.val c then s.resend q.val c (fun t => t.port == j.val) else s) (s.setPort q.val j.val 3)))
    ∧ (∀ k : Fin 4, s.isEth q.val = true → exec (.qRetrain q k) s = .next ([2 * k.val, 2 * k.val + 1].foldl (fun s j =>
      if s.rd (265 + q.val) (ptState j) = 4 then s else s.portDown q.val j (if s.portOn q.val j then 1 else 0)) (s.applyMode q.val k.val)))

/-- The oldest command of a collective queue runs when no other of its partition does; one with reserved bits ends BAD_CMD. A group whose partners are all connected is created; an aborted group shrinks under a higher epoch, ends by agreement of every digest or in mismatch or in time;
it dissolves. A collective starts in an ACTIVE group, a barrier alone waits in an aborted one; it is reported when it has ended, and a straggler once. -/
def Obligations.GroupsAndCollectives : Prop :=
  ∀ (s u : State) (q : Fin 4) (p : PartNo) (c : BitVec 512), Canon s →
    (∀ ok : BitVec 512 → Bool, ok c = true → (∀ r, (s.blk q.val p.val).clxq = c :: r → s.isEth q.val = true →
      ((s.port q.val).clx.any (fun x => x.part == p.val && !x.held && !x.parked)) = false → s.clxHead q.val p.val ok = some c))
    ∧ (u = s.updBlk q.val p.val (fun b => { b with clxq := b.clxq.drop 1 }) →
      (∀ d, s.clxHead q.val p.val (cxIs 1) = some c → fld c 7 0 = 1 → cxReserved c = false →
        exec (.groupCreate q p d) s = .next (u.clxRecord q.val p.val c ccBadCmd 0 0 false 0))
      ∧ (∀ d, s.clxHead q.val p.val (cxIs 1) = some c → fld c 7 0 = 1 → cxReserved c = true →
        (u.groupOk q.val p.val (cxGroup c) d = false → exec (.groupCreate q p d) s = .next (u.clxRecord q.val p.val c ccBadCmd 0 0 false 0))
        ∧ (u.groupOk q.val p.val (cxGroup c) d = true → exec (.groupCreate q p d) s = .next ((u.groupMake q.val p.val (cxGroup c) d).clxRecord q.val p.val c ccOk 0 0 false
            ((u.groupMake q.val p.val (cxGroup c) d).groupTail q.val (cxGroup c)))
          ∧ (u.groupMake q.val p.val (cxGroup c) d).rd (265 + q.val) (grState (cxGroup c)) = 2
          ∧ (u.groupMake q.val p.val (cxGroup c) d).rd (265 + q.val) (grN (cxGroup c)) = d.n
          ∧ (u.groupMake q.val p.val (cxGroup c) d).rd (265 + q.val) (grRank (cxGroup c)) = d.rank))
      ∧ (s.clxHead q.val p.val (cxIs 2) = some c → fld c 7 0 = 2 → cxReserved c = true → u.inGroup q.val p.val (cxGroup c) = true →
        (fld c 351 320 ≤ u.rd (265 + q.val) (grEpoch (cxGroup c)) → exec (.groupShrink q p) s
          = .next (u.clxRecord q.val p.val c ccBadCmd 0 0 false (u.groupTail q.val (cxGroup c))))
        ∧ (∀ v : State, u.rd (265 + q.val) (grEpoch (cxGroup c)) < fld c 351 320 → u.rd (265 + q.val) (grState (cxGroup c)) = 3 →
          u.localKey p.val (cxStk c) (cxSpga c) 512 1 = true → v = ((u.wr (265 + q.val) (grState (cxGroup c)) 4).clxStart q.val p.val c id).1 →
          Runs (.groupShrink q p) s (fun t => t = (v.locGet q.val p.val (v.tkTag (cxStk c)) (cxSpga c) 512 (fun pos => .clx (u.port q.val).next pos)).1.updClx q.val
            (u.port q.val).next (fun x => { x with open_ := (v.locGet q.val p.val (v.tkTag (cxStk c)) (cxSpga c) 512 (fun pos => .clx (u.port q.val).next pos)).2 }))))
      ∧ (s.clxHead q.val p.val (cxIs 3) = some c → fld c 7 0 = 3 → cxReserved c = true →
        (u.inGroup q.val p.val (cxGroup c) = true → exec (.groupDissolve q p) s
          = .next ((u.groupFree q.val (cxGroup c)).clxRecord q.val p.val c ccOk 0 0 false (u.groupTail q.val (cxGroup c))))
        ∧ (u.inGroup q.val p.val (cxGroup c) = false → exec (.groupDissolve q p) s = .next (u.clxRecord q.val p.val c ccBadCmd 0 0 false 0)))
      ∧ (∀ k, s.clxHead q.val p.val (fun c => fld c 7 0 == 4 && (fld c 122 120 == k || decide (4 < fld c 122 120))) = some c → fld c 7 0 = 4 → fld c 122 120 = k →
        cxReserved c = true →
        (k = 0 → exec (.allReduce q p) s = .next (u.collRun q.val p.val c))
        ∧ (k = 1 → exec (.reduceScatter q p) s = .next (u.collRun q.val p.val c))
        ∧ (k = 2 → exec (.allGather q p) s = .next (u.collRun q.val p.val c))
        ∧ (k = 3 → exec (.broadcast q p) s = .next (u.collRun q.val p.val c))
        ∧ (k = 4 → exec (.collBarrier q p) s = .next (u.collRun q.val p.val c))))
    ∧ (s.inGroup q.val p.val (cxGroup c) = true → s.collOk q.val p.val c = true →
      (s.port q.val).clx.find? (fun x => x.ofGroup (cxGroup c) && x.parked && cxId x.cmd == cxId c && x.part == p.val) = none →
      (s.rd (265 + q.val) (grState (cxGroup c)) = 2 → s.collRun q.val p.val c = (s.clxStart q.val p.val c id).1.collBegin q.val (s.port q.val).next)
      ∧ (s.rd (265 + q.val) (grState (cxGroup c)) = 3 → fld c 122 120 = 4 → s.collRun q.val p.val c
        = (s.clxStart q.val p.val c (fun x => { x with held := true })).1.inc (265 + q.val) (grHeld (cxGroup c)))
      ∧ (s.rd (265 + q.val) (grState (cxGroup c)) = 3 → fld c 122 120 ≠ 4 → s.collRun q.val p.val c
        = s.clxRecord q.val p.val c ccBadCmd 0 0 false (s.groupTail q.val (cxGroup c))))
    ∧ (∀ (g : Fin 64) (h : Shrink), (s.group q.val g.val).shrink = some h →
      (h.complete = true → h.agree = true → exec (.shrinkDigestsComplete q g) s = .next (s.shrinkAdopt q.val g.val h))
      ∧ (h.complete = true → h.agree = false → exec (.shrinkDigestsComplete q g) s = .next (s.shrinkFail q.val g.val h))
      ∧ (h.complete = false → exec (.shrinkTimeout q g) s = .next ((s.till h.due).shrinkFail q.val g.val h)))
    ∧ (∀ (i : Nat) (x : Clx) (st : Nat) (code : BitVec 4), (s.port q.val).clx[i]? = some x → x.parked = false → x.fate = some (st, code) →
      exec (.collComplete q i) s = .next (if st = ccOk
        then ((s.clxDrop q.val x).clxRecord q.val x.part x.cmd st x.flags code x.replayed (s.groupTail q.val (cxGroup x.cmd))).inc (265 + q.val) (grOps (cxGroup x.cmd))
        else (s.clxDrop q.val x).clxRecord q.val x.part x.cmd st x.flags code x.replayed (s.groupTail q.val (cxGroup x.cmd))))
    ∧ (∀ (i : Nat) (x : Clx), (s.port q.val).clx[i]? = some x → x.ofGroup (cxGroup x.cmd) = true → x.held = false → x.parked = false → x.fate = none →
      s.rd (265 + q.val) (grSlowMs (cxGroup x.cmd)) ≠ 0 → (x.slow = true → exec (.stragglerTimeout q i) s = .next s)
      ∧ (x.slow = false → exec (.stragglerTimeout q i) s = .next (((s.till (x.since + 1000000 * s.rd (265 + q.val) (grSlowMs (cxGroup x.cmd)))).updClx q.val x.id
        (fun y => { y with slow := true })).event 7 (cxGroup x.cmd + 256 * s.rd (265 + q.val) (grRail (cxGroup x.cmd))) x.part true)))

/-- A stream, a restore and a digest start over a range that their local key covers; an endpoint opens over a key of the partition, places the oldest whole message of a connection, and answers FULL, TOO_LONG or MALFORMED itself; its requests are answered, freed, and failed at its close. A keepalive goes out with this member's state; a silent or long
paused partner, or an ABORT of the group's epoch, aborts the group for its rank. The capacity record is rewritten with an even generation. -/
def Obligations.StreamsEndpointsAndPartners : Prop :=
  ∀ (s u : State) (q : Fin 4) (p : PartNo) (c : BitVec 512), Canon s →
    (u = s.updBlk q.val p.val (fun b => { b with clxq := b.clxq.drop 1 }) → cxReserved c = true →
      (s.clxHead q.val p.val (cxIs 5) = some c → fld c 7 0 = 5 → u.localKey p.val (cxStk c) (cxSpga c) (cxRange c) 1 = true → u.streamConn q.val p.val (cxConn c) = true →
        exec (.ckptStream q p) s = .next (((u.clxStart q.val p.val c (fun x => { x with phase := .run })).1.streamNext q.val (u.port q.val).next).portPoll q.val))
      ∧ (s.clxHead q.val p.val (cxIs 5) = some c → fld c 7 0 = 5 → u.localKey p.val (cxStk c) (cxSpga c) (cxRange c) 1 = false →
        exec (.ckptStream q p) s = .next ((u.clxRecord q.val p.val c ccBadCmd 0 0 false 0).portPoll q.val))
      ∧ (s.clxHead q.val p.val (cxIs 6) = some c → fld c 7 0 = 6 → (u.part p.val).sch.state = .halted ∨ (u.part p.val).sch.state = .empty →
        u.localKey p.val (cxStk c) (cxSpga c) (cxRange c) 2 = true → cxConns c ≠ [] → (∀ k ∈ cxConns c, u.streamConn q.val p.val k = true) →
        exec (.restore q p) s = .next (((u.clxStart q.val p.val c (fun x => { x with phase := .run })).1.restoreNext q.val (u.port q.val).next).portPoll q.val))
      ∧ (s.clxHead q.val p.val (cxIs 6) = some c → fld c 7 0 = 6 → (u.part p.val).sch.state ≠ .halted → (u.part p.val).sch.state ≠ .empty →
        exec (.restore q p) s = .next ((u.clxRecord q.val p.val c ccBadCmd 0 0 false 0).portPoll q.val))
      ∧ (s.clxHead q.val p.val (cxIs 7) = some c → fld c 7 0 = 7 → u.localKey p.val (cxStk c) (cxSpga c) (cxRange c) 1 = true →
        (cxRange c = 0 → exec (.digest q p) s = .next (u.clxRecord q.val p.val c ccOk 0 0 false 0))
        ∧ (∀ v : State, cxRange c ≠ 0 → v = (u.clxStart q.val p.val c id).1 → Runs (.digest q p) s (fun t =>
          t = (v.locGet q.val p.val (v.tkTag (cxStk c)) (cxSpga c) (cxRange c) (fun pos => .clx (u.port q.val).next pos)).1.updClx q.val (u.port q.val).next
            (fun x => { x with open_ := (v.locGet q.val p.val (v.tkTag (cxStk c)) (cxSpga c) (cxRange c) (fun pos => .clx (u.port q.val).next pos)).2 }))))
      ∧ (s.clxHead q.val p.val (cxIs 8) = some c → fld c 7 0 = 8 → u.ownsEp p.val (cxEp c) = true → (u.ep q.val (cxEp c)).bound = false → 12 ≤ fld c 335 332 →
        u.keyLive (fld c 331 320) p.val = true → (u.rd tkPlace (tkRights (fld c 331 320))).testBit 1 = true →
        (fld c 347 336 + 1) * 2 ^ fld c 335 332 ≤ u.tkLen (fld c 331 320) → u.epOf q.val (fld c 331 320) = none →
        exec (.epOpen q p) s = .next ((u.updEp q.val (cxEp c) (fun _ => {
          bound := true, part := p.val, key := fld c 331 320, szLog := fld c 335 332, count := fld c 347 336 + 1
          dpga := BitVec.ofNat 56 (fld c 403 348), dtag := BitVec.ofNat 16 (fld c 419 404) })).clxRecord q.val p.val c ccOk 0 0 false 0))
      ∧ (s.clxHead q.val p.val (cxIs 10) = some c → fld c 7 0 = 10 → exec (.respond q p) s = .next ((u.respond q.val p.val c).portPoll q.val)
        ∧ (∀ t, u.epHeld q.val p.val c = some t → cxCount c = 0 → u.connOpen q.val t.conn = false →
          u.respond q.val p.val c = (u.epFree q.val (cxEp c) (cxSlot c)).clxRecord q.val p.val c ccPeerFail 0 0 false 0))
      ∧ (s.clxHead q.val p.val (cxIs 11) = some c → fld c 7 0 = 11 →
        (∀ t, u.epHeld q.val p.val c = some t → exec (.epFree q p) s = .next ((u.epFree q.val (cxEp c) (cxSlot c)).clxRecord q.val p.val c ccOk 0 0 false 0))
        ∧ (u.epHeld q.val p.val c = none → exec (.epFree q p) s = .next (u.clxRecord q.val p.val c ccBadCmd 0 0 false 0)))
      ∧ (s.clxHead q.val p.val (cxIs 9) = some c → fld c 7 0 = 9 → (u.ep q.val (cxEp c)).bound = true → (u.ep q.val (cxEp c)).part = p.val →
        (u.ep q.val (cxEp c)).slots = [] → exec (.epClose q p) s = .next ((u.updEp q.val (cxEp c) (fun _ => {})).clxRecord q.val p.val c ccOk 0 0 false 0)))
    ∧ (∀ (k : Fin 4096) (e : Nat) (m : List Byte) (r : List (Nat × List Byte)), (s.conn q.val k.val).msgs = (e, m) :: r → ∀ v : State,
      v = s.updPort q.val (fun x => { x with held := x.held - m.length, conns := x.conns.upd {} k.val (fun y => { y with held := y.held - m.length, msgs := y.msgs.drop 1 }) }) →
      ((v.ep q.val e).bound = false → exec (.epRequestArrival q k) s = .next v)
      ∧ ((v.ep q.val e).bound = true → exec (.epRequestArrival q k) s = .next (v.epRequest q.val k.val e m)
        ∧ (m.length < 64 → v.epRequest q.val k.val e m = v.sendHeader q.val k.val (BitVec.ofNat 32 (msgField m 8 12)) (msgField m 16 24)
            (rpHeader (BitVec.ofNat 64 (msgField m 0 8)) 4 0))))
    ∧ (∀ (g : Fin 64) (k : Fin 4096), s.isPartner q.val g.val k.val = true →
      (∀ v : State, v = s.till ((s.group q.val g.val).sentAt.get 0 k.val + 250 * s.rd (265 + q.val) (grLiveUs g.val)) → exec (.keepaliveSend q g k) s
        = .next ((v.wr (265 + q.val) (grStateSelf g.val) (b2n (v.selfState (v.rd (265 + q.val) (grPart g.val)) (s.group q.val g.val) != .running))).sendRank q.val g.val k.val
          (.keepalive g.val (BitVec.ofNat 32 (s.rd (265 + q.val) (grEpoch g.val))) (v.selfState (v.rd (265 + q.val) (grPart g.val)) (s.group q.val g.val))) true))
      ∧ (s.rankConn q.val g.val k.val = none → exec (.partnerLivenessTimeout q g k) s
        = .next ((s.till ((s.group q.val g.val).heardAt.get 0 k.val + 1000 * s.rd (265 + q.val) (grLiveUs g.val))).groupAbort q.val g.val k.val))
      ∧ (∀ i, s.rankConn q.val g.val k.val = some i → s.rd (265 + q.val) (cnState i) = 3 → exec (.partnerLivenessTimeout q g k) s = .next (s.groupAbort q.val g.val k.val))
      ∧ (s.peerState q.val g.val k.val = .paused → exec (.partnerPauseTimeout q g k) s
        = .next ((s.till ((s.group q.val g.val).pausedAt.get 0 k.val + 1000000 * s.rd (265 + q.val) (grPauseMs g.val))).groupAbort q.val g.val k.val)))
    ∧ (∀ (g : Fin 64) (e : W32) (k : Fin 4096), s.rd (265 + q.val) (grState g.val) ≠ 0 →
      (s.rd (265 + q.val) (grEpoch g.val) = e.toNat → exec (.abortReceived q g e k) s = .next (s.groupAbort q.val g.val k.val))
      ∧ (s.rd (265 + q.val) (grEpoch g.val) ≠ e.toNat → exec (.abortReceived q g e k) s = .next s))
    ∧ (s.hub.score.fwUp = true → (s.part p.val).formed = true → Runs (.ecRecordRewrite p) s (fun t => t.hrd (ecGen p.val) = (s.hrd (ecGen p.val) + 2) % 2 ^ 32
      ∧ t.hrd (ecTimeLo p.val) = s.tb % 2 ^ 32 ∧ t.hrd (ecTimeHi p.val) = s.tb / 2 ^ 32 % 2 ^ 32 ∧ t = { s with regs := t.regs }))

/-- A responder that is up prefers version 1.3, answers the digests of measured items but block 0, agrees on the one algorithm of each use where it is offered, relays IDE_KM, and opens the lowest free session. Within an open session, a VF of an unowned confidential partition draws an encapsulation key and binds its owner in that
same session; an owned one answers OWNER_BUSY; a network key is set and cleared by whom R583 allows; the owner releases; a physical function's session sets an Operator's key while the store is open; all else is refused. -/
def Obligations.AttestationAndTheKeyProtocol : Prop :=
  ∀ (s : State) (v : SpdmVia) (f : Fin 50) (n : Fin 4) (p : PartNo), Canon s → s.spdmUp = true → Table.wf {} s.hub.rot.owner = true →
    (∀ l, l.contains 0x13 = true → exec (.spdmRequest v (.version l)) s = .next (s.emit (.mgmt (viaCode v) 0 [0x13])))
    ∧ exec (.spdmRequest v (.measurements 0 p)) s = .next (s.emit (.mgmt (viaCode v) 1 []))
    ∧ (∀ i : Fin 8, 6 ≤ i.val → s.viaSees v p.val = false → exec (.spdmRequest v (.measurements i p)) s = .next (s.emit (.mgmt (viaCode v) 1 [])))
    ∧ (∀ i : Fin 8, i.val ≠ 0 → i.val < 6 ∨ s.viaSees v p.val = true →
      (∀ m, s.measured i.val p.val = some m →
        exec (.spdmRequest v (.measurements i p)) s = .next (s.emit (.mgmt (viaCode v) 0 (bytesLE 1 i.val ++ bytes384 (Config.sha384 m.1) ++ bytesLE 2 m.2))))
      ∧ (s.measured i.val p.val = none → exec (.spdmRequest v (.measurements i p)) s = .next (s.emit (.mgmt (viaCode v) 1 []))))
    ∧ (∀ sg hs ka ae : List Algo,
      (sg.contains .ecdsaP384 = true → hs.contains .sha384 = true → ka.contains .ecdhP384 = true → ae.contains .aes256Gcm = true →
        exec (.spdmRequest v (.algorithms sg hs ka ae)) s = .next (s.emit (.mgmt (viaCode v) 0 [3, 1, 4, 7])))
      ∧ (sg.contains .ecdsaP384 = false ∨ hs.contains .sha384 = false ∨ ka.contains .ecdhP384 = false ∨ ae.contains .aes256Gcm = false →
        exec (.spdmRequest v (.algorithms sg hs ka ae)) s = .next (s.emit (.mgmt (viaCode v) 1 []))))
    ∧ (∀ (j : Fin 4) (k : Fin 9) op, exec (.spdmRequest v (.ideKm j k op)) s
      = .next ((s.ideMessage v j.val k.val op).1.emit (.mgmt (viaCode v) (b2n (!(s.ideMessage v j.val k.val op).2)) [])))
    ∧ (∀ i, lowestFree (s.sessionsOf v) (sessionMax v) = some i → exec (.spdmRequest v (.keyExchange true)) s
      = .next ((s.setSessions v (s.sessionsOf v ++ [i])).emit (.mgmt (viaCode v) 0 (bytesLE 1 i))))
    ∧ (lowestFree (s.sessionsOf v) (sessionMax v) = none → exec (.spdmRequest v (.keyExchange true)) s = .next (s.emit (.mgmt (viaCode v) 1 [])))
    ∧ ((s.sessionsOf v).contains n.val = true →
      (∀ x, exec (.pqEndorse v n x) s = .next (s.emit (.mgmt (viaCode v) 0x81 (bytesLE 32 x.toNat))))
      ∧ (∀ i k m w, (s.nkAllowed v p.val m = true → s.confPart p.val = true → w = false → exec (.nkSet v n p i k m w) s = .next (s.emit (.mgmt (viaCode v) 0x100 [4])))
        ∧ (s.nkAllowed v p.val m = false → exec (.nkSet v n p i k m w) s = .next (s.emit (.mgmt (viaCode v) 0x100 [4]))
          ∧ exec (.nkClear v n p i m) s = .next (s.emit (.mgmt (viaCode v) 0x100 [5])))
        ∧ (s.nkAllowed v p.val m = true → s.confPart p.val = false ∨ w = true → Table.wf 0 (s.hub.rot.owner.get {} p.val).nk = true →
          Runs (.nkSet v n p i k m w) s (fun t => (t.hub.rot.owner.get {} p.val).nk.get 0 i.val = k ∧ bit (t.reg 264 (spNkMask p.val).off) (3 + i.val) = true
            ∧ t.out = s.out ++ [.mgmt (viaCode v) 0x84 []] ∧ SameCells s t ∧ SameEdges s t)))
      ∧ (∀ i m, s.nkAllowed v p.val m = true → (∀ q, q = 1 ∨ q = 2 ∨ q = 3 → s.connsOf q p.val = []) → Table.wf 0 (s.hub.rot.owner.get {} p.val).nk = true →
        Runs (.nkClear v n p i m) s (fun t => (t.hub.rot.owner.get {} p.val).nk.get 0 i.val = 0 ∧ bit (t.reg 264 (spNkMask p.val).off) (3 + i.val) = false
          ∧ t.out = s.out ++ [.mgmt (viaCode v) 0x85 []] ∧ SameCells s t ∧ SameEdges s t))
      ∧ (∀ m, s.confPart p.val = true → s.nkAllowed v p.val m = true → exec (.ownerRelease v n p m) s
        = .next ((((s.dropOwner p.val).resetPart p.val (fun _ => false)).scrub p.val).emit (.mgmt (viaCode v) 0x86 [])))
      ∧ (∀ m, s.confPart p.val = false → exec (.ownerRelease v n p m) s = .next (s.emit (.mgmt (viaCode v) 0x100 [6])))
      ∧ ((v = .mctp ∨ s.viaSees v p.val = true) → exec (.kpStatus v n p) s
        = .next (s.emit (.mgmt (viaCode v) 0x87 (bytesLE 4 (s.reg 264 (spConf p.val).off).toNat))))
      ∧ (∀ k, v = .mctp ∨ v = .doe 0 → (s.hrd polSealed ≠ 0 → exec (.cakSet v n k) s = .next (s.emit (.mgmt (viaCode v) 0x100 [8])))
        ∧ (s.hrd polSealed = 0 → exec (.cakSet v n k) s = .next ((s.updRot (fun r => { r with caks := r.caks ++ [k] })).emit (.mgmt (viaCode v) 0x88 [])))))
    ∧ ((s.sessionsOf (.doe f)).contains n.val = true → s.confVf f.val = true →
      ((s.hub.rot.owner.get {} (s.fnPartOf f.val)).bound = false → Runs (.kemGet f n) s (fun t =>
        t.hub.rot.owner.get {} (s.fnPartOf f.val) = { s.hub.rot.owner.get {} (s.fnPartOf f.val) with kemOut := some (4 * f.val + n.val), kemKey := s.hub.rot.keyGen + 1 }
          ∧ t.out = s.out ++ [.mgmt f.val 0x82 []] ∧ t.regs = s.regs ∧ SameCells s t ∧ SameEdges s t))
      ∧ (∀ id ct, (s.hub.rot.owner.get {} (s.fnPartOf f.val)).bound = true → exec (.ownerBind f n id ct) s = .next (s.emit (.mgmt f.val 0x101 [])))
      ∧ (∀ id ct, (s.hub.rot.owner.get {} (s.fnPartOf f.val)).bound = false → (s.hub.rot.owner.get {} (s.fnPartOf f.val)).kemOut ≠ some (4 * f.val + n.val) →
        exec (.ownerBind f n id ct) s = .next (s.emit (.mgmt f.val 0x100 [3])))
      ∧ (∀ id ct, (s.hub.rot.owner.get {} (s.fnPartOf f.val)).bound = false → (s.hub.rot.owner.get {} (s.fnPartOf f.val)).kemOut = some (4 * f.val + n.val) →
        Runs (.ownerBind f n id ct) s (fun t => t.hub.rot.owner.get {} (s.fnPartOf f.val)
            = { s.hub.rot.owner.get {} (s.fnPartOf f.val) with
                bound := true, id := id, kemOut := none, kemKey := 0, pmk := s.pmkOf (s.fnPartOf f.val) ct }
          ∧ t.hrd (spOwned (s.fnPartOf f.val)) = 1 ∧ t.out = s.out ++ [.mgmt f.val 0x83 (Config.hmac384 (t.hub.rot.owner.get {} (s.fnPartOf f.val)).ka
            ((List.range 48).map (fun i => Config.freeByte s.freeCtr (48 + i))))] ∧ SameCells s t ∧ SameEdges s t)))

/-- POLICY hands its packet to the root of trust, or ends DMA_FAULT. The checks of a packet answer in order: malformed, another panel, a counter that is not the next, the role set. A packet at the front that fails a check ends with that reason; one that passes
takes the effect of its kind, steps the counter, is measured, records it and ends OK. A read of the counter's low half latches the high half. -/
def Obligations.PolicyPackets : Prop :=
  ∀ (s : State) (j : PolicyJob), Canon s →
    (∀ (f : Fin 50) (q : Fin 8) (tag : W16) (c : HostCmd), Turn f.val q.val tag 0x1D c s →
      ((s.fn f.val).busMaster = false → ∀ x, exec (.policy f q tag x) s = .next (s.endCmd c scDmaFault []))
      ∧ ((s.fn f.val).busMaster = true → exec (.policy f q tag none) s = .next (s.endCmd c scDmaFault [])
        ∧ ∀ x, exec (.policy f q tag (some x)) s = .next ((s.begin c id).policyArrive ⟨some (c.fn, c.qp, c.tag), cmdB c.cmd 16 20, x⟩)))
    ∧ (pktFormed j.pkt j.total = false → s.policyReason j = some 1)
    ∧ (pktFormed j.pkt j.total = true → pktF j.pkt 8 4 ≠ s.hub.rot.panelTag.toNat → s.policyReason j = some 2)
    ∧ (pktFormed j.pkt j.total = true → pktF j.pkt 8 4 = s.hub.rot.panelTag.toNat → pktF j.pkt 16 8 ≠ s.hub.rot.counter.toNat + 1 → s.policyReason j = some 3)
    ∧ (pktFormed j.pkt j.total = true → pktF j.pkt 8 4 = s.hub.rot.panelTag.toNat → pktF j.pkt 16 8 = s.hub.rot.counter.toNat + 1 → pktKind j.pkt ≠ 1 →
      (s.hrd polRolesBound ≠ 1 ∨ pktF j.pkt 32 48 ≠ s.hub.rot.roleSet.toNat → s.policyReason j = some 4)
      ∧ (s.hrd polRolesBound = 1 → pktF j.pkt 32 48 = s.hub.rot.roleSet.toNat → pktF j.pkt 80 48 = j.pkt.hash.toNat →
        (j.pkt.opOk = false → s.policyReason j = some 5) ∧ (j.pkt.opOk = true → j.pkt.cuOk = false → s.policyReason j = some 6)))
    ∧ (∀ r : List PolicyJob, s.hub.rot.pkts = j :: r →
      (∀ x ∈ [(Instr.bindRoles, 1), (.rotateRoles, 2), (.layoutPkt, 3), (.debugUnlock, 4), (.fwPolicy, 5), (.fuseWrite, 6), (.recordClear, 7), (.keyHierarchy, 8), (.rwqWrite, 9)],
        (pktKind j.pkt ≠ x.2 → exec x.1 s = .next s)
        ∧ (∀ n, pktKind j.pkt = x.2 → s.policyReason j = some n → exec x.1 s = .next ((s.policyEnd j n).policyPump (r.length + 1))))
      ∧ (∀ (step : State → State) (done : State → Nat → State), s.policyReason j = none →
        (∀ w : State, step w = (w.updRot (fun r => { r with counter := s.hub.rot.counter + 1 })).hwr polCounterLo ((s.hub.rot.counter + 1).toNat % 2 ^ 32)) →
        (∀ (w : State) k, done w k = (((((step w).measure 5 0 (step w).policyWords).bb srcRot 0x0502 0 0x1F0 31 0 (bytesLE 2 k)).policyEnd j 0).policyPump (r.length + 1))) →
        (pktKind j.pkt = 1 → exec .bindRoles s = .next (done ((fun (s : State) (p : PolicyPkt) => s.setRoles p) s j.pkt) 1))
        ∧ (pktKind j.pkt = 2 → exec .rotateRoles s = .next (done ((fun (s : State) (p : PolicyPkt) => s.setRoles p) s j.pkt) 2))
        ∧ (pktKind j.pkt = 3 → exec .layoutPkt s = .next (done ((fun (s : State) (p : PolicyPkt) => match p.body with
          | .layout bs => (match layoutOf (s.port 2).ethRole bs with | some x => s.applyLayout x.1 x.2 p.hash | none => s)
          | _ => s) s j.pkt) 3))
        ∧ (pktKind j.pkt = 4 → exec .debugUnlock s = .next (done ((fun (s : State) (p : PolicyPkt) => match p.body with
          | .debug level _ => if level = 2 then s.debugFull else s.hwr polDebug level.toNat
          | _ => s) s j.pkt) 4))
        ∧ (pktKind j.pkt = 5 → exec .fwPolicy s = .next (done ((fun (s : State) (p : PolicyPkt) => match p.body with
          | .fwPolicy a b m f => (((s.hwr polMinSvnHub a.toNat).hwr polMinSvnBundle b.toNat).hwr polFwSigners (m.toNat % 16)).hwr polReqOpsig (f.toNat % 2)
          | _ => s) s j.pkt) 5))
        ∧ (pktKind j.pkt = 6 → exec .fuseWrite s = .next (done ((fun (s : State) (p : PolicyPkt) => match p.body with
          | .fuses rs => (s.updRot (fun r => { r with fuses := r.fuses ++ rs })).hwr polFusePend 1
          | _ => s) s j.pkt) 6))
        ∧ (pktKind j.pkt = 7 → exec .recordClear s = .next (done ((fun (s : State) (p : PolicyPkt) => match p.body with
          | .clear mask site => s.updRot (fun r => { r with clears := r.clears ++ [(mask, site)] })
          | _ => s) s j.pkt) 7))
        ∧ (pktKind j.pkt = 8 → exec .keyHierarchy s = .next (done ((fun (s : State) (_ : PolicyPkt) => if s.hrd polSealed = 0 then (s.inc 264 polSealEpoch).updRot (fun r => { r with sk := (s.inc 264 polSealEpoch).sealKey }) else s.inc 264 polSealEpoch) s j.pkt) 8))
        ∧ (pktKind j.pkt = 9 → exec .rwqWrite s = .next (done ((fun (s : State) (p : PolicyPkt) => match p.body with
          | .rwq off lo v => (match rwqField off lo with | some f => s.hwr f v.toNat | none => s)
          | _ => s) s j.pkt) 9))))
    ∧ (∀ n, j.frm = none → (s.policyEnd j n).hrd polLastReason = n % 65536 ∧ (s.policyEnd j n).hrd polLastKind = pktKind j.pkt % 65536
      ∧ (s.policyEnd j n).hub.rot.pkts = s.hub.rot.pkts.drop 1)
    ∧ (s.hub.feed.mainGood = true → Runs .polCounterLoRead s (fun t => t.hrd polCounterHi = s.hub.rot.counter.toNat / 2 ^ 32
      ∧ t.out = s.out ++ [.regRead 264 0x34004 (BitVec.ofNat 32 (s.hubWord 0x34004))] ∧ t = { s with regs := t.regs, out := t.out }))

/-- A kick restarts the watchdog's time; 50 ms without one, or an unrecoverable error, restart firmware, which runs again with its message to the physical functions; two safety-core mismatches within a second enter cocoon. The shed level follows backlog and share;
a telemetry record goes to the place of TEL_SEQ; the other firmware slot takes an update, whose verification makes or empties it; a repair that was reported is recorded; a staged record is written to both copies. -/
def Obligations.HubFirmwareTelemetryAndUpdates : Prop :=
  ∀ s : State, Canon s →
    (s.hub.score.fwUp = true → exec .scoreKick s = .next { s with hub := { s.hub with score := { s.hub.score with kickAt := s.now } } }
      ∧ exec .scoreWatchdogExpiry s = .next ((s.till (s.hub.score.kickAt + 50000000)).fwRestart) ∧ exec .fwUnrecoverableError s = .next s.fwRestart)
    ∧ (s.hub.score.fwUp = false → s.hub.score.restarts ≠ [] → s.hub.feed.mainGood = true → ∃ u : State, exec .fwRestarted s = .next (u.mbaPfs 0x0102 (s.hrd fwRestarts))
      ∧ u.hub.score = { s.hub.score with fwUp := true, kickAt := s.now } ∧ u = { s with hub := u.hub })
    ∧ (s.hub.feed.mainGood = true → ∀ u : State, u = ((s.inc 264 scoreResets).bb srcScore 0x0802 1 0x1F0 31 0 []).updHub (fun h => { h with
        score := { h.score with mismatchAt := some s.now } }) →
      (s.hub.score.mismatchAt = none → exec .scoreMismatch s = .next u)
      ∧ (∀ a, s.hub.score.mismatchAt = some a → a + 1000000000 ≤ s.now → exec .scoreMismatch s = .next u)
      ∧ (∀ a, s.hub.score.mismatchAt = some a → s.now < a + 1000000000 → s.hrd bootPhase ≠ 3 →
        exec .scoreMismatch s = .next (u.cocoon 2 (decide (s.hrd bootImago = 1)) true)))
    ∧ (∀ (a b c d : Fin 101) (n : Nat) (u : State), s.hub.score.fwUp = true → n = s.shedNext (c.val + d.val) →
      u = ((((s.hwr fwC0Pct a.val).hwr fwC1Pct b.val).hwr fwC2Pct c.val).hwr fwC3Pct d.val).hwr telDecim (if n = 0 then 1 else if n = 1 then 10 else 100) →
      exec (.shedLevelEval a b c d) s = .next (if n = s.hrd fwShed then u else ((u.hwr fwShed n).bb srcFw 0x0803 0 0x1F0 31 n []).mbaPfs 0x0103 n))
    ∧ (∀ n, (s.hrd fwHwm ≤ s.hrd fwBacklog → s.shedNext n = 2)
      ∧ (s.hrd fwBacklog < s.hrd fwHwm → s.hrd fwShed = 2 → s.hrd fwHwm ≤ 2 * s.hrd fwBacklog → s.shedNext n = 2)
      ∧ (s.hrd fwBacklog < s.hrd fwHwm → s.hrd fwShed = 0 → (80 < n → s.shedNext n = 1) ∧ (n ≤ 80 → s.shedNext n = 0))
      ∧ (s.hrd fwBacklog < s.hrd fwHwm → s.hrd fwShed = 1 → (60 ≤ n → s.shedNext n = 1) ∧ (n < 60 → s.shedNext n = 0)))
    ∧ (∀ u : State, s.hub.score.fwUp = true → u = s.till (s.hub.score.telBeat + 1000000 * s.hrd telPeriod * s.hrd telDecim) → Runs .telemetryWrite s (fun t =>
      t.hrd telSeq = (s.hrd telSeq + 1) % 2 ^ 32 ∧ t.now = u.now
        ∧ t.hub.sram = s.hub.sram.putList 0 (0x80000 + 64 * (s.hrd telSeq % 4096)) (u.telRecord ((s.hrd telSeq + 1) % 2 ^ 32)) ∧ SameCells s t ∧ SameEdges s t))
    ∧ (∀ s : State, ∀ q, (s.telRecord q).length = 64)
    ∧ (s.updating = true → s.hrd hubFwSlot = 0 →
      (∀ off bs, slotBytes < off + bs.length → exec (.pldmFwData off bs) s = .next (s.vdm 1 []))
      ∧ (∀ off bs, off + bs.length ≤ slotBytes → Runs (.pldmFwData off bs) s (fun t => t.hub.bbx.slotB = { s.hub.bbx.slotB with
          valid := false, img := s.hub.bbx.slotB.img.putList 0 off bs } ∧ t.hub.bbx.slotA = s.hub.bbx.slotA ∧ t.out = s.out ++ [.mgmt 50 0 []]))
      ∧ (∀ svn k o, s.policyOk (s.hrd polMinSvnHub) svn.toNat k.val o = true → Runs (.pldmVerifyComplete true svn k o) s (fun t =>
        t.hub.bbx.slotB = { s.hub.bbx.slotB with valid := true, svn := svn, signer := BitVec.ofNat 2 k.val, opSig := o } ∧ t.hub.bbx.slotA = s.hub.bbx.slotA))
      ∧ (∀ svn k o, Runs (.pldmVerifyComplete false svn k o) s (fun t => t.hub.bbx.slotB = {} ∧ t.hub.bbx.slotA = s.hub.bbx.slotA))
      ∧ (∀ b, exec (.pldmActivateFirmware b) s = .next (s.vdm (b2n b) [])))
    ∧ (∀ (n k : Nat) (q c kind : Nat) (l : List CtlPkt), s.hub.score.fwUp = true → s.hub.inbox = ⟨n, .msg (.stackRepair k q c kind)⟩ :: l →
      (kind ≠ 0 → exec .repairReport s = .next (({ s with hub := { s.hub with inbox := l } } : State).mramAppend (fun m => { m with stkRep := m.stkRep ++ [stkRec k q c kind] })))
      ∧ (kind = 0 → exec .repairReport s = .next ((({ s with hub := { s.hub with inbox := l } } : State).mramAppend (fun m => { m with stkRep := m.stkRep ++ [stkRec k q c 0] })).bb
        srcFw 0x0600 0 ((({ s with hub := { s.hub with inbox := l } } : State).mramAppend (fun m => { m with stkRep := m.stkRep ++ [stkRec k q c 0] })).siteCode (stackNode k))
        ((({ s with hub := { s.hub with inbox := l } } : State).mramAppend (fun m => { m with stkRep := m.stkRep ++ [stkRec k q c 0] })).partOfSector k) 0
        (bytesLE 8 (stkRec k q c 0).toNat))))
    ∧ (∀ (x : BbRec) (l : List BbRec), s.hub.bbx.staged = x :: l →
      (s.hub.bbx.hub.readable = false → s.hub.bbx.east.readable = false → exec .bbRecordAppend s = .next s)
      ∧ (∀ y : BbRec, s.hub.bbx.hub.readable = true → s.hub.bbx.east.readable = true → y = { x with seq := BitVec.ofNat 32 (s.hrd bbSeqNext) } →
        Runs .bbRecordAppend s (fun t => t.hub.bbx.staged = l ∧ t.hrd bbSeqNext = (s.hrd bbSeqNext + 1) % 2 ^ 32
          ∧ (x.sev = 2 → s.hrd bbPermCount < permMax → t.hub.bbx.hub.perm = s.hub.bbx.hub.perm ++ [y] ∧ t.hub.bbx.east.perm = s.hub.bbx.east.perm ++ [y]
            ∧ t.hub.bbx.hub.wrap = s.hub.bbx.hub.wrap ∧ t.hrd bbPermCount = s.hrd bbPermCount + 1)
          ∧ (x.sev ≠ 2 → s.hub.bbx.hub.wrap.length < wrapMax → s.hub.bbx.east.wrap.length < wrapMax →
            t.hub.bbx.hub.wrap = s.hub.bbx.hub.wrap ++ [y] ∧ t.hub.bbx.east.wrap = s.hub.bbx.east.wrap ++ [y] ∧ t.hub.bbx.hub.perm = s.hub.bbx.hub.perm))))

/-- With standby power the endpoint answers: reads of registers, on standby alone only of the words kept there; writes of five fields within their bounds; the black box's registers and records; cocoon and warm reset; the pieces of a policy packet. The service tool reads an MRAM only when the panel is unpowered
and SVC_EN_N is low. An access over the debug pins needs the level that its kind needs. -/
def Obligations.OutOfBandManagementAndDebugPins : Prop :=
  ∀ s : State, Canon s →
    (s.hub.feed.stby = true →
      (∀ e, Runs (.mctpSetEndpointId e) s (fun t => t.hub.score.eid = e ∧ t = { s with hub := { s.hub with score := { s.hub.score with eid := e } } }))
      ∧ (∀ (off : BitVec 24) n, (n = 0 ∨ 16 < n ∨ off.toNat % 4 ≠ 0 ∨ 2 ^ 24 < off.toNat + 4 * n) → exec (.vdmRegRead off n) s = .next (s.vdm 3 []))
      ∧ (∀ (off : BitVec 24) n, 1 ≤ n → n ≤ 16 → off.toNat % 4 = 0 → off.toNat + 4 * n ≤ 2 ^ 24 →
        s.hub.feed.mainGood = true ∨ (∀ i < n, standbyWord (off.toNat + 4 * i) = true) →
        exec (.vdmRegRead off n) s = .next ((s.latch .hub off.toNat n).vdm 0 ((s.tgtWords .hub off.toNat n).flatMap (fun w => bytesLE 4 w.toNat))))
      ∧ (∀ (off : BitVec 24) n i, 1 ≤ n → n ≤ 16 → off.toNat % 4 = 0 → off.toNat + 4 * n ≤ 2 ^ 24 → s.hub.feed.mainGood = false → i < n →
        standbyWord (off.toNat + 4 * i) = false → exec (.vdmRegRead off n) s = .next (s.vdm 1 []))
      ∧ (∀ (t : VdmTarget) (v : W32), s.hub.feed.mainGood = false → exec (.vdmRegWrite t v) s = .next (s.vdm 1 []))
      ∧ (∀ v : W32, s.hub.feed.mainGood = true → exec (.vdmRegWrite .other v) s = .next (s.vdm 2 []) ∧ exec (.vdmRegWrite .fltCfg v) s = .next ((s.writeWord 264 0x30004 v).vdm 0 [])
        ∧ Runs (.vdmRegWrite .glycol v) s (fun t => t.hrd thmGlycolPct = min 30 v.toNat ∧ t = { s with regs := t.regs, out := s.out ++ [.mgmt 50 0 []] })
        ∧ Runs (.vdmRegWrite .tjThrottle v) s (fun t => t.hrd thmTjThrottle = max 80 (min 95 v.toNat) ∧ t = { s with regs := t.regs, out := s.out ++ [.mgmt 50 0 []] })
        ∧ Runs (.vdmRegWrite .fwHwm v) s (fun t => t.hrd fwHwm = max 64 (min 1000 v.toNat) ∧ t = { s with regs := t.regs, out := s.out ++ [.mgmt 50 0 []] })
        ∧ Runs (.vdmRegWrite .telPeriod v) s (fun t => t.hrd telPeriod = max 1 (min 1000 v.toNat) ∧ t = { s with regs := t.regs, out := s.out ++ [.mgmt 50 0 []] }))
      ∧ exec .vdmBbInfo s = .next (s.vdm 0 ((List.range 5).flatMap (fun i => bytesLE 4 (s.reg 264 (0x1000 + 4 * i)).toNat)))
      ∧ (∀ (k : Byte) (q : W32) (n : Byte), k.toNat ≤ 1 → n ≠ 0 → n.toNat ≤ 16 →
        ((s.bbCopy (k == 1)).readable = false → exec (.vdmBbRead k q n) s = .next (s.vdm 1 []))
        ∧ ((s.bbCopy (k == 1)).readable = true → exec (.vdmBbRead k q n) s
          = .next (s.vdm 0 (((List.range n.toNat).filterMap (fun i => (s.bbCopy (k == 1)).find (q.toNat + i))).flatMap BbRec.bytes))))
      ∧ (s.hub.feed.mainGood = false → exec .vdmCocoon s = .next (s.vdm 2 []) ∧ exec .vdmWarmReset s = .next (s.vdm 2 []))
      ∧ (s.hub.feed.mainGood = true → exec .vdmWarmReset s = .next ((s.vdm 0 []).warm)
        ∧ (s.hrd bootPhase ≠ 3 → exec .vdmCocoon s = .next ((s.vdm 0 []).cocoon 12 (decide (s.hrd bootImago = 1)) false)))
      ∧ (∀ off bs x, s.hub.feed.mainGood = true → (1024 < bs.length ∨ 65536 < off + bs.length) → exec (.vdmPolicyChunk off bs x) s = .next (s.vdm 3 []))
      ∧ (∀ off bs, s.hub.feed.mainGood = true → bs.length ≤ 1024 → off + bs.length ≤ 65536 → Runs (.vdmPolicyChunk off bs none) s (fun t =>
          t.hub.rot.chunks = s.hub.rot.chunks.putList 0 off bs ∧ t.hub.rot.pkts = s.hub.rot.pkts ∧ t.out = s.out ++ [.mgmt 50 0 []])
        ∧ ∀ p, exec (.vdmPolicyChunk off bs (some p)) s = .next ((((s.updHub (fun h => { h with rot := { h.rot with chunks := [] } })).policyArrive
          ⟨none, off + bs.length, p⟩)).vdm 0 [])))
    ∧ (∀ (e : Bool) (off : BitVec 26) (n : Fin 65), (s.hub.feed.stby = true → ∀ l, exec (.serviceSpiRead e l off n) s = .next s)
      ∧ exec (.serviceSpiRead e false off n) s = .next s
      ∧ (s.hub.feed.stby = false → Runs (.serviceSpiRead e true off n) s (fun t =>
        t.out = s.out ++ [.mgmt 51 0 ((List.range n.val).map (fun i => s.mramByte e ((off.toNat + i) % 2 ^ 26) i))] ∧ t = { s with out := t.out, freeCtr := t.freeCtr })))
    ∧ (∀ (a i : Nat), 0x1000000 ≤ a → a < 0x1800000 → s.mramByte false a i = regionByte s.hub.bbx.hub.perm ((a - 0x1000000) / 256) (a % 256))
    ∧ (s.hub.feed.mainGood = true → ∀ a : DebugAccess,
      (s.hrd polDebug < debugLevel a → exec (.proboscisAccess a) s = .next { s with out := s.out ++ [.mgmt 52 1 []] })
      ∧ (debugLevel a ≤ s.hrd polDebug → exec (.proboscisAccess a) s = .next (((s.debugWrite a).emit (.mgmt 52 0 (s.debugRead a))).drawn)))
    ∧ (∀ (t : TileNo) (off : Nat) (bs : List Byte), s.debugWrite (.memWrite (.tile t) off bs)
      = s.setTile t { s.tile t with spm := (s.tile t).spm.write off bs false })

/-- Whatever command stands at the front of the queue, the step is its effect on the state with the queue's rest; on an empty queue a nanosecond of the time base passes and nothing else changes. Queue and clock are
the model's own (assumption log 1); the spec's clock ticks in nanoseconds. -/
def Obligations.StepRunsTheFrontCommand : Prop :=
  ∀ s : State,
    (∀ (c : Instr) (l : List Instr), s.pending = c :: l → Sys2Proof.Machine.step s = Sys2Proof.Machine.exec c { s with pending := l })
    ∧ (s.pending = [] → Sys2Proof.Machine.step s = .next { s with now := s.now + 1 })

/-- The state after reset is canonical and its queue empty (log 1); no feed is present (log 4: the choice of an unpowered start). No instar has run and the key hierarchy is sealed; the cap is 15,500 W, glycol 30 %, the throttle 95 °C, the store closed, debug off, the high-water mark 768, telemetry every 10 ms.
Every sequencer is STOPPED, every window closed, every counter 0. -/
def Obligations.TheStateAfterReset : Prop :=
  Canon State.reset ∧ State.reset.pending = [] ∧ State.reset.hub.feed.stby = false ∧ State.reset.hub.feed.mainGood = false
    ∧ State.reset.hrd bootInstar = 0 ∧ State.reset.hrd bootPhase = 0 ∧ State.reset.hrd bootChrysalis = 1 ∧ State.reset.hrd bootImago = 0
    ∧ State.reset.hrd pmgrCapW = 15500 ∧ State.reset.hrd thmGlycolPct = 30 ∧ State.reset.hrd thmTjThrottle = 95 ∧ State.reset.hrd polSealed = 1
    ∧ State.reset.hrd polDebug = 0 ∧ State.reset.hrd fwHwm = 768 ∧ State.reset.hrd telPeriod = 10
    ∧ (∀ t : TileNo, (State.reset.tile t).seq.st = .stopped ∧ ∀ i : Fin 64, ((State.reset.tile t).w.window i).st = .closed ∧ ((State.reset.tile t).w.ccnt i) = {})

/-- For every state and every step that answers a next state: if the panel's tables are canonical they stay so; the records in the permanent region of either copy of the black box stay, in place and unaltered, with new ones only behind them; what has been sent stays sent;
time does not go back; and the queue loses exactly its front command. Every well-formed command runs to a next state in every state, but a DMA_WRITE whose bytes are not as many as its
command asks for, which no host can send (the model's own stop, log 11). -/
def Obligations.EveryStepKeepsThePanelWhole : Prop :=
  (∀ s t : State, Sys2Proof.Machine.step s = .next t → Keeps { s with pending := s.pending.tail } t)
  ∧ (∀ (c : Instr) (s : State), c.wellFormed = true → (∃ t : State, Sys2Proof.Machine.exec c s = .next t)
    ∨ ∃ (f : Fin 50) (q : Fin 8) (tag : W16) (bs : List Byte) (d : HostCmd), c = .dmaWrite f q tag (some bs) ∧ s.turn f.val q.val tag 0x13 = some d ∧ bs.length ≠ d.len)
  ∧ (∀ s : State, (∀ c, s.pending.head? = some c → c.wellFormed = true ∧ ∀ f q tag bs, c ≠ .dmaWrite f q tag bs) → ∃ t, Sys2Proof.Machine.step s = .next t)

/-- The INT32 modes are I8 and T2I. A MAC step's accumulator is the old one plus the exact integer sum of the products, or the nearest bound with SATURATED and INEXACT raised in the cell's flags; a cell's steps follow one another, each on the accumulator that the one before left;
and no weight scale takes part. -/
def Obligations.IntegerMacStep : Prop :=
  (∀ md : Mode, md.isInt = true ↔ md = .i8 ∨ md = .t2i)
  ∧ (∀ (acc : W32) (ps : List Int),
    (-2 ^ 31 ≤ signedOf 32 acc.toNat + ps.sum → signedOf 32 acc.toNat + ps.sum ≤ 2 ^ 31 - 1 →
      signedOf 32 (macStepInt acc ps).1.toNat = signedOf 32 acc.toNat + ps.sum ∧ (macStepInt acc ps).2 = Flags.none)
    ∧ (2 ^ 31 - 1 < signedOf 32 acc.toNat + ps.sum → signedOf 32 (macStepInt acc ps).1.toNat = 2 ^ 31 - 1
      ∧ (macStepInt acc ps).2 = Flags.saturated ||| Flags.inexact)
    ∧ (signedOf 32 acc.toNat + ps.sum < -2 ^ 31 → signedOf 32 (macStepInt acc ps).1.toNat = -2 ^ 31
      ∧ (macStepInt acc ps).2 = Flags.saturated ||| Flags.inexact))
  ∧ (∀ (m : Mxa) (w : Insn) (x : MmaIn) (fw : Fmt) (k K r n j : Nat) (a : W32 × Flags) (ps : List Int),
    ps = (((List.range k).map (fun q => k * j + q)).filter (fun i => decide (i < K))).map (fun i =>
      signedOf 8 (m.rowBuf.get (512 * r + 32 * fld w 63 59 + i)).toNat * (if fw = .t2 then t2Value (x.weight fw k i n) else signedOf 8 (x.weight fw k i n))) →
    (m.accInt w x fw k K r n j 1 a).1 = (macStepInt a.1 ps).1
      ∧ (m.accInt w x fw k K r n j 1 a).2 &&& (macStepInt a.1 ps).2 = (macStepInt a.1 ps).2
      ∧ (m.accInt w x fw k K r n j 1 a).2 &&& a.2 = a.2
      ∧ (∀ c, m.accInt w x fw k K r n j (c + 1) a = m.accInt w x fw k K r n (j + 1) c (m.accInt w x fw k K r n j 1 a))
      ∧ (∀ c scl, m.accInt w { x with scl := scl } fw k K r n j c a = m.accInt w x fw k K r n j c a))
  ∧ (∀ (m : Mxa) (b : Bank) (w : Insn) (x : MmaIn) (fa fw : Fmt) (md : Mode) (r n : Nat), md.isInt = true →
    m.cell b w x fa fw md r n = m.accInt w x fw md.k (fld w 58 48) r n 0 (ceilDiv (fld w 58 48) md.k) (mmaInit b w x r n, Flags.none))

/-- FIRST of level L is predicate 8 + L and LAST is predicate 12 + L, of every instruction that names them and in SEQ_PRED. -/
def Obligations.FirstAndLastOfALoopLevel : Prop :=
  ∀ (x : Tile) (L : Fin 4),
    (x.pred (8 + L.val) = true ↔ (x.loop.level L.val).active = true ∧ (x.loop.level L.val).i = 0)
    ∧ (x.pred (12 + L.val) = true ↔ (x.loop.level L.val).active = true ∧ (x.loop.level L.val).i + 1 = (x.loop.level L.val).n)
    ∧ ((x.loop.level L.val).active = false → x.pred (8 + L.val) = false ∧ x.pred (12 + L.val) = false)
    ∧ x.predWord.testBit (8 + L.val) = x.pred (8 + L.val) ∧ x.predWord.testBit (12 + L.val) = x.pred (12 + L.val)
    ∧ (∀ w : Insn, fld w 119 116 = 8 + L.val ∨ fld w 119 116 = 12 + L.val → (x.executes w = true ↔ (x.pred (fld w 119 116) = true ↔ bit w 115 = false)))

/-- When a partition halts, SCH_HALT_WHY takes the reason, and the RUN_STEP that waits for it ends with the code of that reason: HALTED, or OK if the RUN_STEP asked for the halt, STEP_FAILED, TWIN_FAULT, WATCHDOG, SHRUNK. -/
def Obligations.HowAWaitingRunStepEnds : Prop :=
  ∀ (s : State) (p : PartNo) (why : Fin 6), Canon s → ∃ u : State, s.haltNow p.val why.val = u.stopped p.val why.val
    ∧ (u.part p.val).sch.why.toNat = why.val ∧ (u.part p.val).sch.state = .halted ∧ (u.part p.val).wbs.steps = (s.part p.val).wbs.steps ∧ u.hub.cmds = s.hub.cmds
    ∧ (∀ c : HostCmd, u.hub.cmds.filter (fun d => d.part == p.val && d.begun && (d.opc == 1 || d.opc == 0x11)) = [c] → c.opc = 1 →
      ∃ code, u.stopped p.val why.val = (u.endCmd c code (u.runData p.val)).event 1 why.val p.val true
        ∧ (why = 1 → (u.part p.val).wbs.steps = some 0 → code = scOk) ∧ (why = 1 → (u.part p.val).wbs.steps ≠ some 0 → code = scHalted)
        ∧ (why = 2 → code = scStepFailed) ∧ (why = 3 → code = scTwinFault) ∧ (why = 4 → code = scWatchdog) ∧ (why = 5 → code = scShrunk))
end

