-- ==== Sys2Proof/Laws/Dispatch.lean ====
section
/-! SUPPORT. What exec is on each command: its meaning, by name. -/

namespace Sys2Proof.Machine

@[simp] theorem exec_mainPowerGood {s : State} {f48} {f12} {e} {w} {vin} : exec (.mainPowerGood f48 f12 e w vin) s = execMainPowerGood f48 f12 e w vin s := rfl
@[simp] theorem exec_secondFeedAppears {s : State} : exec (.secondFeedAppears) s = execSecondFeedAppears s := rfl
@[simp] theorem exec_busbarPairLost {s : State} {west} : exec (.busbarPairLost west) s = execBusbarPairLost west s := rfl
@[simp] theorem exec_feedUndervoltage {s : State} : exec (.feedUndervoltage) s = execFeedUndervoltage s := rfl
@[simp] theorem exec_standbyPowerOn {s : State} {hubOk} {eastOk} : exec (.standbyPowerOn hubOk eastOk) s = execStandbyPowerOn hubOk eastOk s := rfl
@[simp] theorem exec_standbyPowerLoss {s : State} : exec (.standbyPowerLoss) s = execStandbyPowerLoss s := rfl
@[simp] theorem exec_warmRstNLow {s : State} : exec (.warmRstNLow) s = execWarmRstNLow s := rfl
@[simp] theorem exec_coldRstNLow {s : State} : exec (.coldRstNLow) s = execColdRstNLow s := rfl
@[simp] theorem exec_perstNAssert {s : State} {b} : exec (.perstNAssert b) s = execPerstNAssert b s := rfl
@[simp] theorem exec_pcieLinkUp {s : State} {b} {lanes} {rate} : exec (.pcieLinkUp b lanes rate) s = execPcieLinkUp b lanes rate s := rfl
@[simp] theorem exec_hotResetOrLinkDown {s : State} {b} {down} : exec (.hotResetOrLinkDown b down) s = execHotResetOrLinkDown b down s := rfl
@[simp] theorem exec_vfFunctionLevelReset {s : State} {b} {v} : exec (.vfFunctionLevelReset b v) s = execVfFunctionLevelReset b v s := rfl
@[simp] theorem exec_pfFunctionLevelReset {s : State} {b} : exec (.pfFunctionLevelReset b) s = execPfFunctionLevelReset b s := rfl
@[simp] theorem exec_busMasterEnableCleared {s : State} {f} : exec (.busMasterEnableCleared f) s = execBusMasterEnableCleared f s := rfl
@[simp] theorem exec_bootGo {s : State} {target} : exec (.bootGo target) s = execBootGo target s := rfl
@[simp] theorem exec_instarSkeleton {s : State} {dark} {silent} {silentPorts} {hubFault} : exec (.instarSkeleton dark silent silentPorts hubFault) s = execInstarSkeleton dark silent silentPorts hubFault s := rfl
@[simp] theorem exec_instarIdentify {s : State} : exec (.instarIdentify) s = execInstarIdentify s := rfl
@[simp] theorem exec_instarClocks {s : State} {unlocked} {fault} : exec (.instarClocks unlocked fault) s = execInstarClocks unlocked fault s := rfl
@[simp] theorem exec_instarTrain {s : State} {links} {tables} {lanes} : exec (.instarTrain links tables lanes) s = execInstarTrain links tables lanes s := rfl
@[simp] theorem exec_stackTrainDone {s : State} {k} {ok} {step} {code} {ms} {bad} : exec (.stackTrainDone k ok step code ms bad) s = execStackTrainDone k ok step code ms bad s := rfl
@[simp] theorem exec_instarLoad {s : State} {b} : exec (.instarLoad b) s = execInstarLoad b s := rfl
@[simp] theorem exec_broadcastRoundEnd {s : State} {lost} : exec (.broadcastRoundEnd lost) s = execBroadcastRoundEnd lost s := rfl
@[simp] theorem exec_p2pLoadAttempt {s : State} {r} {lost} : exec (.p2pLoadAttempt r lost) s = execP2pLoadAttempt r lost s := rfl
@[simp] theorem exec_instarProve {s : State} {results} : exec (.instarProve results) s = execInstarProve results s := rfl
@[simp] theorem exec_katReportTimeout {s : State} {r} : exec (.katReportTimeout r) s = execKatReportTimeout r s := rfl
@[simp] theorem exec_instarReconcile {s : State} {storeOk} : exec (.instarReconcile storeOk) s = execInstarReconcile storeOk s := rfl
@[simp] theorem exec_instarComplete {s : State} : exec (.instarComplete) s = execInstarComplete s := rfl
@[simp] theorem exec_instarTimeout {s : State} : exec (.instarTimeout) s = execInstarTimeout s := rfl
@[simp] theorem exec_bootCocoon {s : State} : exec (.bootCocoon) s = execBootCocoon s := rfl
@[simp] theorem exec_stackWipeComplete {s : State} {k} : exec (.stackWipeComplete k) s = execStackWipeComplete k s := rfl
@[simp] theorem exec_tileCmdqWrite {s : State} {t} {v} : exec (.tileCmdqWrite t v) s = execTileCmdqWrite t v s := rfl
@[simp] theorem exec_seqEnableSet {s : State} {t} : exec (.seqEnableSet t) s = execSeqEnableSet t s := rfl
@[simp] theorem exec_seqEnableClear {s : State} {t} : exec (.seqEnableClear t) s = execSeqEnableClear t s := rfl
@[simp] theorem exec_seqReset {s : State} {t} : exec (.seqReset t) s = execSeqReset t s := rfl
@[simp] theorem exec_seqTakeEntry {s : State} {t} : exec (.seqTakeEntry t) s = execSeqTakeEntry t s := rfl
@[simp] theorem exec_issueHoldRelease {s : State} {t} : exec (.issueHoldRelease t) s = execIssueHoldRelease t s := rfl
@[simp] theorem exec_nop {s : State} {t} : exec (.nop t) s = execNop t s := rfl
@[simp] theorem exec_jmp {s : State} {t} : exec (.jmp t) s = execJmp t s := rfl
@[simp] theorem exec_pset {s : State} {t} : exec (.pset t) s = execPset t s := rfl
@[simp] theorem exec_fence {s : State} {t} : exec (.fence t) s = execFence t s := rfl
@[simp] theorem exec_fenceComplete {s : State} {t} : exec (.fenceComplete t) s = execFenceComplete t s := rfl
@[simp] theorem exec_iload {s : State} {t} : exec (.iload t) s = execIload t s := rfl
@[simp] theorem exec_iloadComplete {s : State} {t} : exec (.iloadComplete t) s = execIloadComplete t s := rfl
@[simp] theorem exec_endProg {s : State} {t} : exec (.endProg t) s = execEndProg t s := rfl
@[simp] theorem exec_endComplete {s : State} {t} : exec (.endComplete t) s = execEndComplete t s := rfl
@[simp] theorem exec_wopen {s : State} {t} : exec (.wopen t) s = execWopen t s := rfl
@[simp] theorem exec_wopenHoldRelease {s : State} {t} : exec (.wopenHoldRelease t) s = execWopenHoldRelease t s := rfl
@[simp] theorem exec_closeNow {s : State} {t} : exec (.closeNow t) s = execCloseNow t s := rfl
@[simp] theorem exec_closeQuiesce {s : State} {t} : exec (.closeQuiesce t) s = execCloseQuiesce t s := rfl
@[simp] theorem exec_quiesceTimeout {s : State} {t} {ix} : exec (.quiesceTimeout t ix) s = execQuiesceTimeout t ix s := rfl
@[simp] theorem exec_closeComplete {s : State} {t} : exec (.closeComplete t) s = execCloseComplete t s := rfl
@[simp] theorem exec_wquery {s : State} {t} : exec (.wquery t) s = execWquery t s := rfl
@[simp] theorem exec_ccntSet {s : State} {t} : exec (.ccntSet t) s = execCcntSet t s := rfl
@[simp] theorem exec_ccntGet {s : State} {t} : exec (.ccntGet t) s = execCcntGet t s := rfl
@[simp] theorem exec_loopStart {s : State} {t} : exec (.loopStart t) s = execLoopStart t s := rfl
@[simp] theorem exec_lstride {s : State} {t} : exec (.lstride t) s = execLstride t s := rfl
@[simp] theorem exec_lbind {s : State} {t} : exec (.lbind t) s = execLbind t s := rfl
@[simp] theorem exec_waitcnt {s : State} {t} : exec (.waitcnt t) s = execWaitcnt t s := rfl
@[simp] theorem exec_waitcntComplete {s : State} {t} : exec (.waitcntComplete t) s = execWaitcntComplete t s := rfl
@[simp] theorem exec_bar {s : State} {t} : exec (.bar t) s = execBar t s := rfl
@[simp] theorem exec_cwait {s : State} {t} : exec (.cwait t) s = execCwait t s := rfl
@[simp] theorem exec_cwaitArrival {s : State} {t} : exec (.cwaitArrival t) s = execCwaitArrival t s := rfl
@[simp] theorem exec_flagor {s : State} {t} : exec (.flagor t) s = execFlagor t s := rfl
@[simp] theorem exec_stepFence {s : State} {t} : exec (.stepFence t) s = execStepFence t s := rfl
@[simp] theorem exec_ttgt {s : State} {t} : exec (.ttgt t) s = execTtgt t s := rfl
@[simp] theorem exec_putOp {s : State} {t} : exec (.putOp t) s = execPutOp t s := rfl
@[simp] theorem exec_getOp {s : State} {t} : exec (.getOp t) s = execGetOp t s := rfl
@[simp] theorem exec_fadd {s : State} {t} : exec (.fadd t) s = execFadd t s := rfl
@[simp] theorem exec_cswap {s : State} {t} : exec (.cswap t) s = execCswap t s := rfl
@[simp] theorem exec_forOr {s : State} {t} : exec (.forOr t) s = execForOr t s := rfl
@[simp] theorem exec_tdmaOpStart {s : State} {t} : exec (.tdmaOpStart t) s = execTdmaOpStart t s := rfl
@[simp] theorem exec_tdmaResponse {s : State} {t} {n} {q} {a} : exec (.tdmaResponse t n q a) s = execTdmaResponse t n q a s := rfl
@[simp] theorem exec_tdmaRetransmit {s : State} {t} {n} {q} : exec (.tdmaRetransmit t n q) s = execTdmaRetransmit t n q s := rfl
@[simp] theorem exec_segmentArrival {s : State} {t} {g} : exec (.segmentArrival t g) s = execSegmentArrival t g s := rfl
@[simp] theorem exec_segmentWriteVisible {s : State} {t} {ix} : exec (.segmentWriteVisible t ix) s = execSegmentWriteVisible t ix s := rfl
@[simp] theorem exec_mma {s : State} {t} : exec (.mma t) s = execMma t s := rfl
@[simp] theorem exec_mmaVeinStart {s : State} {t} : exec (.mmaVeinStart t) s = execMmaVeinStart t s := rfl
@[simp] theorem exec_mmaComplete {s : State} {t} : exec (.mmaComplete t) s = execMmaComplete t s := rfl
@[simp] theorem exec_mdrain {s : State} {t} : exec (.mdrain t) s = execMdrain t s := rfl
@[simp] theorem exec_drainStart {s : State} {t} : exec (.drainStart t) s = execDrainStart t s := rfl
@[simp] theorem exec_drainResume {s : State} {t} : exec (.drainResume t) s = execDrainResume t s := rfl
@[simp] theorem exec_drainEnd {s : State} {t} : exec (.drainEnd t) s = execDrainEnd t s := rfl
@[simp] theorem exec_rbload {s : State} {t} : exec (.rbload t) s = execRbload t s := rfl
@[simp] theorem exec_rbloadComplete {s : State} {t} : exec (.rbloadComplete t) s = execRbloadComplete t s := rfl
@[simp] theorem exec_rbshift {s : State} {t} : exec (.rbshift t) s = execRbshift t s := rfl
@[simp] theorem exec_rbshiftComplete {s : State} {t} : exec (.rbshiftComplete t) s = execRbshiftComplete t s := rfl
@[simp] theorem exec_posld {s : State} {t} : exec (.posld t) s = execPosld t s := rfl
@[simp] theorem exec_posgen {s : State} {t} : exec (.posgen t) s = execPosgen t s := rfl
@[simp] theorem exec_mxset {s : State} {t} : exec (.mxset t) s = execMxset t s := rfl
@[simp] theorem exec_mfence {s : State} {t} : exec (.mfence t) s = execMfence t s := rfl
@[simp] theorem exec_vfa {s : State} {t} : exec (.vfa t) s = execVfa t s := rfl
@[simp] theorem exec_via {s : State} {t} : exec (.via t) s = execVia t s := rfl
@[simp] theorem exec_vcmp {s : State} {t} : exec (.vcmp t) s = execVcmp t s := rfl
@[simp] theorem exec_vsel {s : State} {t} : exec (.vsel t) s = execVsel t s := rfl
@[simp] theorem exec_vkop {s : State} {t} : exec (.vkop t) s = execVkop t s := rfl
@[simp] theorem exec_vcvt {s : State} {t} : exec (.vcvt t) s = execVcvt t s := rfl
@[simp] theorem exec_vtr {s : State} {t} : exec (.vtr t) s = execVtr t s := rfl
@[simp] theorem exec_vred {s : State} {t} : exec (.vred t) s = execVred t s := rfl
@[simp] theorem exec_vscan {s : State} {t} : exec (.vscan t) s = execVscan t s := rfl
@[simp] theorem exec_vxscan {s : State} {t} : exec (.vxscan t) s = execVxscan t s := rfl
@[simp] theorem exec_vxscanPrefixArrival {s : State} {t} : exec (.vxscanPrefixArrival t) s = execVxscanPrefixArrival t s := rfl
@[simp] theorem exec_vcomb {s : State} {t} : exec (.vcomb t) s = execVcomb t s := rfl
@[simp] theorem exec_vld {s : State} {t} : exec (.vld t) s = execVld t s := rfl
@[simp] theorem exec_vst {s : State} {t} : exec (.vst t) s = execVst t s := rfl
@[simp] theorem exec_vdqpop {s : State} {t} : exec (.vdqpop t) s = execVdqpop t s := rfl
@[simp] theorem exec_vdqpopRowArrival {s : State} {t} : exec (.vdqpopRowArrival t) s = execVdqpopRowArrival t s := rfl
@[simp] theorem exec_viota {s : State} {t} : exec (.viota t) s = execViota t s := rfl
@[simp] theorem exec_vrot {s : State} {t} : exec (.vrot t) s = execVrot t s := rfl
@[simp] theorem exec_vxeInsnStart {s : State} {t} : exec (.vxeInsnStart t) s = execVxeInsnStart t s := rfl
@[simp] theorem exec_vxeInsnComplete {s : State} {t} {n} : exec (.vxeInsnComplete t n) s = execVxeInsnComplete t n s := rfl
@[simp] theorem exec_spmMopqWrite {s : State} {t} {off} {bs} : exec (.spmMopqWrite t off bs) s = execSpmMopqWrite t off bs s := rfl
@[simp] theorem exec_mopFill {s : State} {t} : exec (.mopFill t) s = execMopFill t s := rfl
@[simp] theorem exec_mopCopy {s : State} {t} : exec (.mopCopy t) s = execMopCopy t s := rfl
@[simp] theorem exec_mopEnd {s : State} {t} : exec (.mopEnd t) s = execMopEnd t s := rfl
@[simp] theorem exec_pwrUp {s : State} {t} {q} : exec (.pwrUp t q) s = execPwrUp t q s := rfl
@[simp] theorem exec_pwrRetain {s : State} {t} {q} : exec (.pwrRetain t q) s = execPwrRetain t q s := rfl
@[simp] theorem exec_pwrDown {s : State} {t} {q} : exec (.pwrDown t q) s = execPwrDown t q s := rfl
@[simp] theorem exec_quarterOn {s : State} {t} {q} : exec (.quarterOn t q) s = execQuarterOn t q s := rfl
@[simp] theorem exec_spmScrubTick {s : State} {t} : exec (.spmScrubTick t) s = execSpmScrubTick t s := rfl
@[simp] theorem exec_liveRowRepair {s : State} {t} : exec (.liveRowRepair t) s = execLiveRowRepair t s := rfl
@[simp] theorem exec_snWopen {s : State} {k} : exec (.snWopen k) s = execSnWopen k s := rfl
@[simp] theorem exec_snCloseNow {s : State} {k} : exec (.snCloseNow k) s = execSnCloseNow k s := rfl
@[simp] theorem exec_snCloseQuiesce {s : State} {k} : exec (.snCloseQuiesce k) s = execSnCloseQuiesce k s := rfl
@[simp] theorem exec_snWquery {s : State} {k} : exec (.snWquery k) s = execSnWquery k s := rfl
@[simp] theorem exec_snCcntSet {s : State} {k} : exec (.snCcntSet k) s = execSnCcntSet k s := rfl
@[simp] theorem exec_sxeStrided {s : State} {k} : exec (.sxeStrided k) s = execSxeStrided k s := rfl
@[simp] theorem exec_sxeTranspose {s : State} {k} : exec (.sxeTranspose k) s = execSxeTranspose k s := rfl
@[simp] theorem exec_sxeCommandEnd {s : State} {k} : exec (.sxeCommandEnd k) s = execSxeCommandEnd k s := rfl
@[simp] theorem exec_snFence {s : State} {k} : exec (.snFence k) s = execSnFence k s := rfl
@[simp] theorem exec_snBadOpcode {s : State} {k} : exec (.snBadOpcode k) s = execSnBadOpcode k s := rfl
@[simp] theorem exec_snSelfRefresh {s : State} {k} : exec (.snSelfRefresh k) s = execSnSelfRefresh k s := rfl
@[simp] theorem exec_snOff {s : State} {k} {fw} : exec (.snOff k fw) s = execSnOff k fw s := rfl
@[simp] theorem exec_snWake {s : State} {k} : exec (.snWake k) s = execSnWake k s := rfl
@[simp] theorem exec_stackReadRelease {s : State} {k} {j} : exec (.stackReadRelease k j) s = execStackReadRelease k j s := rfl
@[simp] theorem exec_stackReadLate {s : State} {k} : exec (.stackReadLate k) s = execStackReadLate k s := rfl
@[simp] theorem exec_snPatrolScrub {s : State} {k} : exec (.snPatrolScrub k) s = execSnPatrolScrub k s := rfl
@[simp] theorem exec_snChunkRepair {s : State} {k} {ppr} : exec (.snChunkRepair k ppr) s = execSnChunkRepair k ppr s := rfl
@[simp] theorem exec_snRecalibration {s : State} {k} {failed} {ecc} : exec (.snRecalibration k failed ecc) s = execSnRecalibration k failed ecc s := rfl
@[simp] theorem exec_snTemperatureChange {s : State} {k} {temp} : exec (.snTemperatureChange k temp) s = execSnTemperatureChange k temp s := rfl
@[simp] theorem exec_routerHeadArrival {s : State} {n} {fc} {hs} : exec (.routerHeadArrival n fc hs) s = execRouterHeadArrival n fc hs s := rfl
@[simp] theorem exec_scheduledFlitArrival {s : State} {n} {fc} {inPort} {inCh} {dev} : exec (.scheduledFlitArrival n fc inPort inCh dev) s = execScheduledFlitArrival n fc inPort inCh dev s := rfl
@[simp] theorem exec_ctlRegRd {s : State} {t} {tag} {off} {n} : exec (.ctlRegRd t tag off n) s = execCtlRegRd t tag off n s := rfl
@[simp] theorem exec_ctlRegWr {s : State} {t} {tag} {off} {vs} : exec (.ctlRegWr t tag off vs) s = execCtlRegWr t tag off vs s := rfl
@[simp] theorem exec_ctlRegRsp {s : State} {n} {errs} : exec (.ctlRegRsp n errs) s = execCtlRegRsp n errs s := rfl
@[simp] theorem exec_ctlMsg {s : State} {n} {errs} : exec (.ctlMsg n errs) s = execCtlMsg n errs s := rfl
@[simp] theorem exec_ctlMbx {s : State} {g} : exec (.ctlMbx g) s = execCtlMbx g s := rfl
@[simp] theorem exec_ctlHeartbeat {s : State} {n} {errs} : exec (.ctlHeartbeat n errs) s = execCtlHeartbeat n errs s := rfl
@[simp] theorem exec_heartbeatSend {s : State} {n} : exec (.heartbeatSend n) s = execHeartbeatSend n s := rfl
@[simp] theorem exec_syncArrival {s : State} {n} {ch} {c} : exec (.syncArrival n ch c) s = execSyncArrival n ch c s := rfl
@[simp] theorem exec_syncDelivery {s : State} {n} {ch} : exec (.syncDelivery n ch) s = execSyncDelivery n ch s := rfl
@[simp] theorem exec_wingbeatSend {s : State} {p} : exec (.wingbeatSend p) s = execWingbeatSend p s := rfl
@[simp] theorem exec_wingbeatArrival {s : State} {n} : exec (.wingbeatArrival n) s = execWingbeatArrival n s := rfl
@[simp] theorem exec_wingbeatRelease {s : State} {p} : exec (.wingbeatRelease p) s = execWingbeatRelease p s := rfl
@[simp] theorem exec_xchgStreamStart {s : State} {n} {ix} {j} {late} : exec (.xchgStreamStart n ix j late) s = execXchgStreamStart n ix j late s := rfl
@[simp] theorem exec_exchangeReport {s : State} {n} : exec (.exchangeReport n) s = execExchangeReport n s := rfl
@[simp] theorem exec_stepCombine {s : State} {p} : exec (.stepCombine p) s = execStepCombine p s := rfl
@[simp] theorem exec_resumeWingbeat {s : State} {p} : exec (.resumeWingbeat p) s = execResumeWingbeat p s := rfl
@[simp] theorem exec_wingbeatWatchdog {s : State} {p} {silent} : exec (.wingbeatWatchdog p silent) s = execWingbeatWatchdog p silent s := rfl
@[simp] theorem exec_probeTimeout {s : State} {n} : exec (.probeTimeout n) s = execProbeTimeout n s := rfl
@[simp] theorem exec_qpCtailWrite {s : State} {f} {q} {v} {tee} : exec (.qpCtailWrite f q v tee) s = execQpCtailWrite f q v tee s := rfl
@[simp] theorem exec_qpSheadWrite {s : State} {f} {q} {v} {tee} : exec (.qpSheadWrite f q v tee) s = execQpSheadWrite f q v tee s := rfl
@[simp] theorem exec_qpEnable {s : State} {f} {q} {tee} : exec (.qpEnable f q tee) s = execQpEnable f q tee s := rfl
@[simp] theorem exec_qpDisable {s : State} {f} {q} {tee} : exec (.qpDisable f q tee) s = execQpDisable f q tee s := rfl
@[simp] theorem exec_qpRunClear {s : State} {f} {q} {tee} : exec (.qpRunClear f q tee) s = execQpRunClear f q tee s := rfl
@[simp] theorem exec_commandFetched {s : State} {f} {q} {ok} {e} : exec (.commandFetched f q ok e) s = execCommandFetched f q ok e s := rfl
@[simp] theorem exec_irqCoalesceTimeout {s : State} {f} {q} : exec (.irqCoalesceTimeout f q) s = execIrqCoalesceTimeout f q s := rfl
@[simp] theorem exec_runStep {s : State} {f} {q} {tag} : exec (.runStep f q tag) s = execRunStep f q tag s := rfl
@[simp] theorem exec_doorbell {s : State} {f} {q} {tag} : exec (.doorbell f q tag) s = execDoorbell f q tag s := rfl
@[simp] theorem exec_queryCounter {s : State} {f} {q} {tag} : exec (.queryCounter f q tag) s = execQueryCounter f q tag s := rfl
@[simp] theorem exec_queryCounterTimeout {s : State} {f} {q} {tag} : exec (.queryCounterTimeout f q tag) s = execQueryCounterTimeout f q tag s := rfl
@[simp] theorem exec_hostNop {s : State} {f} {q} {tag} : exec (.hostNop f q tag) s = execHostNop f q tag s := rfl
@[simp] theorem exec_loadImage {s : State} {f} {q} {tag} {room} {img} : exec (.loadImage f q tag room img) s = execLoadImage f q tag room img s := rfl
@[simp] theorem exec_halt {s : State} {f} {q} {tag} : exec (.halt f q tag) s = execHalt f q tag s := rfl
@[simp] theorem exec_resetPartition {s : State} {f} {q} {tag} : exec (.resetPartition f q tag) s = execResetPartition f q tag s := rfl
@[simp] theorem exec_dmaWrite {s : State} {f} {q} {tag} {bs} : exec (.dmaWrite f q tag bs) s = execDmaWrite f q tag bs s := rfl
@[simp] theorem exec_dmaRead {s : State} {f} {q} {tag} : exec (.dmaRead f q tag) s = execDmaRead f q tag s := rfl
@[simp] theorem exec_apertureMap {s : State} {f} {q} {tag} : exec (.apertureMap f q tag) s = execApertureMap f q tag s := rfl
@[simp] theorem exec_apertureUnmap {s : State} {f} {q} {tag} : exec (.apertureUnmap f q tag) s = execApertureUnmap f q tag s := rfl
@[simp] theorem exec_apertureUnmapComplete {s : State} {f} {q} {tag} : exec (.apertureUnmapComplete f q tag) s = execApertureUnmapComplete f q tag s := rfl
@[simp] theorem exec_windowOpen {s : State} {f} {q} {tag} : exec (.windowOpen f q tag) s = execWindowOpen f q tag s := rfl
@[simp] theorem exec_windowClose {s : State} {f} {q} {tag} : exec (.windowClose f q tag) s = execWindowClose f q tag s := rfl
@[simp] theorem exec_asyncEvent {s : State} {f} {q} {tag} : exec (.asyncEvent f q tag) s = execAsyncEvent f q tag s := rfl
@[simp] theorem exec_setTwin {s : State} {f} {q} {tag} {lat} : exec (.setTwin f q tag lat) s = execSetTwin f q tag lat s := rfl
@[simp] theorem exec_setPowerCap {s : State} {f} {q} {tag} : exec (.setPowerCap f q tag) s = execSetPowerCap f q tag s := rfl
@[simp] theorem exec_setPortRole {s : State} {f} {q} {tag} : exec (.setPortRole f q tag) s = execSetPortRole f q tag s := rfl
@[simp] theorem exec_policy {s : State} {f} {q} {tag} {pkt} : exec (.policy f q tag pkt) s = execPolicy f q tag pkt s := rfl
@[simp] theorem exec_apertureWrite {s : State} {f} {off} {bs} {tee} : exec (.apertureWrite f off bs tee) s = execApertureWrite f off bs tee s := rfl
@[simp] theorem exec_apertureRead {s : State} {f} {off} {len} {tee} : exec (.apertureRead f off len tee) s = execApertureRead f off len tee s := rfl
@[simp] theorem exec_fnAptFenceRead {s : State} {f} {tee} : exec (.fnAptFenceRead f tee) s = execFnAptFenceRead f tee s := rfl
@[simp] theorem exec_bar2Write {s : State} {f} {tee} : exec (.bar2Write f tee) s = execBar2Write f tee s := rfl
@[simp] theorem exec_tdispMessage {s : State} {f} {m} : exec (.tdispMessage f m) s = execTdispMessage f m s := rfl
@[simp] theorem exec_mbaInGo {s : State} {f} {tee} : exec (.mbaInGo f tee) s = execMbaInGo f tee s := rfl
@[simp] theorem exec_mailboxTake {s : State} {m} : exec (.mailboxTake m) s = execMailboxTake m s := rfl
@[simp] theorem exec_mailboxDone {s : State} {m} : exec (.mailboxDone m) s = execMailboxDone m s := rfl
@[simp] theorem exec_mbaOutGo {s : State} {f} {msg} : exec (.mbaOutGo f msg) s = execMbaOutGo f msg s := rfl
@[simp] theorem exec_mbaOutAck {s : State} {f} {tee} : exec (.mbaOutAck f tee) s = execMbaOutAck f tee s := rfl
@[simp] theorem exec_mbxTimeoutExpiry {s : State} {m} : exec (.mbxTimeoutExpiry m) s = execMbxTimeoutExpiry m s := rfl
@[simp] theorem exec_mbbLockRead {s : State} {k} {m} {c} {q} : exec (.mbbLockRead k m c q) s = execMbbLockRead k m c q s := rfl
@[simp] theorem exec_mbbLockRelease {s : State} {k} {m} {c} {q} : exec (.mbbLockRelease k m c q) s = execMbbLockRelease k m c q s := rfl
@[simp] theorem exec_mbbGo {s : State} {k} {m} {c} {q} : exec (.mbbGo k m c q) s = execMbbGo k m c q s := rfl
@[simp] theorem exec_mbbLockExpiry {s : State} {k} {m} : exec (.mbbLockExpiry k m) s = execMbbLockExpiry k m s := rfl
@[simp] theorem exec_mbbResultAnswered {s : State} {k} {m} : exec (.mbbResultAnswered k m) s = execMbbResultAnswered k m s := rfl
@[simp] theorem exec_mbaPing {s : State} {f} : exec (.mbaPing f) s = execMbaPing f s := rfl
@[simp] theorem exec_mbaBbRead {s : State} {f} : exec (.mbaBbRead f) s = execMbaBbRead f s := rfl
@[simp] theorem exec_mbaHostMark {s : State} {f} : exec (.mbaHostMark f) s = execMbaHostMark f s := rfl
@[simp] theorem exec_mbbPing {s : State} {k} {m} : exec (.mbbPing k m) s = execMbbPing k m s := rfl
@[simp] theorem exec_mbbHaltSelf {s : State} {k} {m} : exec (.mbbHaltSelf k m) s = execMbbHaltSelf k m s := rfl
@[simp] theorem exec_ethFrameRx {s : State} {q} {port} {f} : exec (.ethFrameRx q port f) s = execEthFrameRx q port f s := rfl
@[simp] theorem exec_tkBind {s : State} {q} {p} : exec (.tkBind q p) s = execTkBind q p s := rfl
@[simp] theorem exec_tkUnbind {s : State} {q} {p} : exec (.tkUnbind q p) s = execTkUnbind q p s := rfl
@[simp] theorem exec_tkUnbindComplete {s : State} {q} {p} : exec (.tkUnbindComplete q p) s = execTkUnbindComplete q p s := rfl
@[simp] theorem exec_connOpen {s : State} {q} {p} : exec (.connOpen q p) s = execConnOpen q p s := rfl
@[simp] theorem exec_connClose {s : State} {q} {p} : exec (.connClose q p) s = execConnClose q p s := rfl
@[simp] theorem exec_connQuery {s : State} {q} {p} : exec (.connQuery q p) s = execConnQuery q p s := rfl
@[simp] theorem exec_wrWrite {s : State} {q} {p} : exec (.wrWrite q p) s = execWrWrite q p s := rfl
@[simp] theorem exec_wrRead {s : State} {q} {p} : exec (.wrRead q p) s = execWrRead q p s := rfl
@[simp] theorem exec_wrFadd {s : State} {q} {p} : exec (.wrFadd q p) s = execWrFadd q p s := rfl
@[simp] theorem exec_wrCswap {s : State} {q} {p} : exec (.wrCswap q p) s = execWrCswap q p s := rfl
@[simp] theorem exec_wrFor {s : State} {q} {p} : exec (.wrFor q p) s = execWrFor q p s := rfl
@[simp] theorem exec_wrCompletion {s : State} {q} {ix} : exec (.wrCompletion q ix) s = execWrCompletion q ix s := rfl
@[simp] theorem exec_pdOnpanelRetransmit {s : State} {d} {n} {q} : exec (.pdOnpanelRetransmit d n q) s = execPdOnpanelRetransmit d n q s := rfl
@[simp] theorem exec_roceAckTimeout {s : State} {q} {c} : exec (.roceAckTimeout q c) s = execRoceAckTimeout q c s := rfl
@[simp] theorem exec_uetRtoExpiry {s : State} {q} {c} {psn} : exec (.uetRtoExpiry q c psn) s = execUetRtoExpiry q c psn s := rfl
@[simp] theorem exec_cnpRateIncrease {s : State} {q} {c} : exec (.cnpRateIncrease q c) s = execCnpRateIncrease q c s := rfl
@[simp] theorem exec_ethPortUp {s : State} {q} {port} {ok} : exec (.ethPortUp q port ok) s = execEthPortUp q port ok s := rfl
@[simp] theorem exec_ethPortDown {s : State} {q} {port} : exec (.ethPortDown q port) s = execEthPortDown q port s := rfl
@[simp] theorem exec_qRetrain {s : State} {q} {quad} : exec (.qRetrain q quad) s = execQRetrain q quad s := rfl
@[simp] theorem exec_groupCreate {s : State} {q} {p} {d} : exec (.groupCreate q p d) s = execGroupCreate q p d s := rfl
@[simp] theorem exec_groupShrink {s : State} {q} {p} : exec (.groupShrink q p) s = execGroupShrink q p s := rfl
@[simp] theorem exec_shrinkDigestsComplete {s : State} {q} {g} : exec (.shrinkDigestsComplete q g) s = execShrinkDigestsComplete q g s := rfl
@[simp] theorem exec_shrinkTimeout {s : State} {q} {g} : exec (.shrinkTimeout q g) s = execShrinkTimeout q g s := rfl
@[simp] theorem exec_groupDissolve {s : State} {q} {p} : exec (.groupDissolve q p) s = execGroupDissolve q p s := rfl
@[simp] theorem exec_allReduce {s : State} {q} {p} : exec (.allReduce q p) s = execAllReduce q p s := rfl
@[simp] theorem exec_reduceScatter {s : State} {q} {p} : exec (.reduceScatter q p) s = execReduceScatter q p s := rfl
@[simp] theorem exec_allGather {s : State} {q} {p} : exec (.allGather q p) s = execAllGather q p s := rfl
@[simp] theorem exec_broadcast {s : State} {q} {p} : exec (.broadcast q p) s = execBroadcast q p s := rfl
@[simp] theorem exec_collBarrier {s : State} {q} {p} : exec (.collBarrier q p) s = execCollBarrier q p s := rfl
@[simp] theorem exec_collComplete {s : State} {q} {ix} : exec (.collComplete q ix) s = execCollComplete q ix s := rfl
@[simp] theorem exec_ckptStream {s : State} {q} {p} : exec (.ckptStream q p) s = execCkptStream q p s := rfl
@[simp] theorem exec_restore {s : State} {q} {p} : exec (.restore q p) s = execRestore q p s := rfl
@[simp] theorem exec_digest {s : State} {q} {p} : exec (.digest q p) s = execDigest q p s := rfl
@[simp] theorem exec_epOpen {s : State} {q} {p} : exec (.epOpen q p) s = execEpOpen q p s := rfl
@[simp] theorem exec_epRequestArrival {s : State} {q} {c} : exec (.epRequestArrival q c) s = execEpRequestArrival q c s := rfl
@[simp] theorem exec_respond {s : State} {q} {p} : exec (.respond q p) s = execRespond q p s := rfl
@[simp] theorem exec_epFree {s : State} {q} {p} : exec (.epFree q p) s = execEpFree q p s := rfl
@[simp] theorem exec_epClose {s : State} {q} {p} : exec (.epClose q p) s = execEpClose q p s := rfl
@[simp] theorem exec_keepaliveSend {s : State} {q} {g} {r} : exec (.keepaliveSend q g r) s = execKeepaliveSend q g r s := rfl
@[simp] theorem exec_partnerLivenessTimeout {s : State} {q} {g} {r} : exec (.partnerLivenessTimeout q g r) s = execPartnerLivenessTimeout q g r s := rfl
@[simp] theorem exec_partnerPauseTimeout {s : State} {q} {g} {r} : exec (.partnerPauseTimeout q g r) s = execPartnerPauseTimeout q g r s := rfl
@[simp] theorem exec_abortReceived {s : State} {q} {g} {epoch} {lost} : exec (.abortReceived q g epoch lost) s = execAbortReceived q g epoch lost s := rfl
@[simp] theorem exec_stragglerTimeout {s : State} {q} {ix} : exec (.stragglerTimeout q ix) s = execStragglerTimeout q ix s := rfl
@[simp] theorem exec_ecRecordRewrite {s : State} {p} : exec (.ecRecordRewrite p) s = execEcRecordRewrite p s := rfl
@[simp] theorem exec_heartbeatTimeout {s : State} {n} : exec (.heartbeatTimeout n) s = execHeartbeatTimeout n s := rfl
@[simp] theorem exec_spareWake {s : State} {site} {ok} {cause} {lost} : exec (.spareWake site ok cause lost) s = execSpareWake site ok cause lost s := rfl
@[simp] theorem exec_siteEfuseTrip {s : State} {key} : exec (.siteEfuseTrip key) s = execSiteEfuseTrip key s := rfl
@[simp] theorem exec_sectorEfuseTrip {s : State} {k} : exec (.sectorEfuseTrip k) s = execSectorEfuseTrip k s := rfl
@[simp] theorem exec_phaseFailure {s : State} {key} {rail} {phase} : exec (.phaseFailure key rail phase) s = execPhaseFailure key rail phase s := rfl
@[simp] theorem exec_inrushRequest {s : State} {k} {cell} {cls} : exec (.inrushRequest k cell cls) s = execInrushRequest k cell cls s := rfl
@[simp] theorem exec_inrushGrant {s : State} {k} {ix} : exec (.inrushGrant k ix) s = execInrushGrant k ix s := rfl
@[simp] theorem exec_inrushWaitExpiry {s : State} {k} : exec (.inrushWaitExpiry k) s = execInrushWaitExpiry k s := rfl
@[simp] theorem exec_rampEnd {s : State} {k} {cell} : exec (.rampEnd k cell) s = execRampEnd k cell s := rfl
@[simp] theorem exec_sectorOvercurrent {s : State} {k} {ix} : exec (.sectorOvercurrent k ix) s = execSectorOvercurrent k ix s := rfl
@[simp] theorem exec_budgetDivide {s : State} {draw} {demand} {reads} : exec (.budgetDivide draw demand reads) s = execBudgetDivide draw demand reads s := rfl
@[simp] theorem exec_budgetLoanLapse {s : State} {k} : exec (.budgetLoanLapse k) s = execBudgetLoanLapse k s := rfl
@[simp] theorem exec_inputPowerSample {s : State} {p} {vin} : exec (.inputPowerSample p vin) s = execInputPowerSample p vin s := rfl
@[simp] theorem exec_regionSleep {s : State} {d} : exec (.regionSleep d) s = execRegionSleep d s := rfl
@[simp] theorem exec_regionAon {s : State} {d} : exec (.regionAon d) s = execRegionAon d s := rfl
@[simp] theorem exec_regionWake {s : State} {d} : exec (.regionWake d) s = execRegionWake d s := rfl
@[simp] theorem exec_ref10Loss {s : State} : exec (.ref10Loss) s = execRef10Loss s := rfl
@[simp] theorem exec_tbmFrefWrite {s : State} {ext} {present} : exec (.tbmFrefWrite ext present) s = execTbmFrefWrite ext present s := rfl
@[simp] theorem exec_fabricPllLockLoss {s : State} {n} : exec (.fabricPllLockLoss n) s = execFabricPllLockLoss n s := rfl
@[simp] theorem exec_vlogicDroop {s : State} {d} {t} {periods} {ended} : exec (.vlogicDroop d t periods ended) s = execVlogicDroop d t periods ended s := rfl
@[simp] theorem exec_eyespotReport {s : State} {n} {e} {code} {stretched} : exec (.eyespotReport n e code stretched) s = execEyespotReport n e code stretched s := rfl
@[simp] theorem exec_tbPulseSend {s : State} : exec (.tbPulseSend) s = execTbPulseSend s := rfl
@[simp] theorem exec_tbPulseArrival {s : State} {n} {drift} : exec (.tbPulseArrival n drift) s = execTbPulseArrival n drift s := rfl
@[simp] theorem exec_tbPulseMissing {s : State} {n} : exec (.tbPulseMissing n) s = execTbPulseMissing n s := rfl
@[simp] theorem exec_ppsEdge {s : State} {off} {adj} : exec (.ppsEdge off adj) s = execPpsEdge off adj s := rfl
@[simp] theorem exec_tbLoRead {s : State} {n} : exec (.tbLoRead n) s = execTbLoRead n s := rfl
@[simp] theorem exec_tbmPpsStampLoRead {s : State} : exec (.tbmPpsStampLoRead) s = execTbmPpsStampLoRead s := rfl
@[simp] theorem exec_rtcSecWrite {s : State} {v} : exec (.rtcSecWrite v) s = execRtcSecWrite v s := rfl
@[simp] theorem exec_thermalBudgetUpdate {s : State} : exec (.thermalBudgetUpdate) s = execThermalBudgetUpdate s := rfl
@[simp] theorem exec_coolantFlowRead {s : State} {r} : exec (.coolantFlowRead r) s = execCoolantFlowRead r s := rfl
@[simp] theorem exec_coolantTempRead {s : State} {tin} {tout} : exec (.coolantTempRead tin tout) s = execCoolantTempRead tin tout s := rfl
@[simp] theorem exec_flowFailNLow {s : State} : exec (.flowFailNLow) s = execFlowFailNLow s := rfl
@[simp] theorem exec_flowStopForcedHalt {s : State} {p} : exec (.flowStopForcedHalt p) s = execFlowStopForcedHalt p s := rfl
@[simp] theorem exec_flowStopEnd {s : State} {pin} : exec (.flowStopEnd pin) s = execFlowStopEnd pin s := rfl
@[simp] theorem exec_hotspotUpdate {s : State} {n} {rs} : exec (.hotspotUpdate n rs) s = execHotspotUpdate n rs s := rfl
@[simp] theorem exec_throttleRecoveryStep {s : State} {n} : exec (.throttleRecoveryStep n) s = execThrottleRecoveryStep n s := rfl
@[simp] theorem exec_hardTrip {s : State} {at_} : exec (.hardTrip at_) s = execHardTrip at_ s := rfl
@[simp] theorem exec_spdmRequest {s : State} {v} {req} : exec (.spdmRequest v req) s = execSpdmRequest v req s := rfl
@[simp] theorem exec_pqEndorse {s : State} {v} {n} {nonce} : exec (.pqEndorse v n nonce) s = execPqEndorse v n nonce s := rfl
@[simp] theorem exec_kemGet {s : State} {f} {n} : exec (.kemGet f n) s = execKemGet f n s := rfl
@[simp] theorem exec_ownerBind {s : State} {f} {n} {id} {ct} : exec (.ownerBind f n id ct) s = execOwnerBind f n id ct s := rfl
@[simp] theorem exec_nkSet {s : State} {v} {n} {p} {ix} {key} {macOk} {wrapOk} : exec (.nkSet v n p ix key macOk wrapOk) s = execNkSet v n p ix key macOk wrapOk s := rfl
@[simp] theorem exec_nkClear {s : State} {v} {n} {p} {ix} {macOk} : exec (.nkClear v n p ix macOk) s = execNkClear v n p ix macOk s := rfl
@[simp] theorem exec_ownerRelease {s : State} {v} {n} {p} {macOk} : exec (.ownerRelease v n p macOk) s = execOwnerRelease v n p macOk s := rfl
@[simp] theorem exec_kpStatus {s : State} {v} {n} {p} : exec (.kpStatus v n p) s = execKpStatus v n p s := rfl
@[simp] theorem exec_cakSet {s : State} {v} {n} {key} : exec (.cakSet v n key) s = execCakSet v n key s := rfl
@[simp] theorem exec_bindRoles {s : State} : exec (.bindRoles) s = execBindRoles s := rfl
@[simp] theorem exec_rotateRoles {s : State} : exec (.rotateRoles) s = execRotateRoles s := rfl
@[simp] theorem exec_layoutPkt {s : State} : exec (.layoutPkt) s = execLayoutPkt s := rfl
@[simp] theorem exec_debugUnlock {s : State} : exec (.debugUnlock) s = execDebugUnlock s := rfl
@[simp] theorem exec_fwPolicy {s : State} : exec (.fwPolicy) s = execFwPolicy s := rfl
@[simp] theorem exec_fuseWrite {s : State} : exec (.fuseWrite) s = execFuseWrite s := rfl
@[simp] theorem exec_recordClear {s : State} : exec (.recordClear) s = execRecordClear s := rfl
@[simp] theorem exec_keyHierarchy {s : State} : exec (.keyHierarchy) s = execKeyHierarchy s := rfl
@[simp] theorem exec_rwqWrite {s : State} : exec (.rwqWrite) s = execRwqWrite s := rfl
@[simp] theorem exec_polCounterLoRead {s : State} : exec (.polCounterLoRead) s = execPolCounterLoRead s := rfl
@[simp] theorem exec_scoreKick {s : State} : exec (.scoreKick) s = execScoreKick s := rfl
@[simp] theorem exec_scoreWatchdogExpiry {s : State} : exec (.scoreWatchdogExpiry) s = execScoreWatchdogExpiry s := rfl
@[simp] theorem exec_fwUnrecoverableError {s : State} : exec (.fwUnrecoverableError) s = execFwUnrecoverableError s := rfl
@[simp] theorem exec_scoreMismatch {s : State} : exec (.scoreMismatch) s = execScoreMismatch s := rfl
@[simp] theorem exec_shedLevelEval {s : State} {c0} {c1} {c2} {c3} : exec (.shedLevelEval c0 c1 c2 c3) s = execShedLevelEval c0 c1 c2 c3 s := rfl
@[simp] theorem exec_telemetryWrite {s : State} : exec (.telemetryWrite) s = execTelemetryWrite s := rfl
@[simp] theorem exec_mctpSetEndpointId {s : State} {eid} : exec (.mctpSetEndpointId eid) s = execMctpSetEndpointId eid s := rfl
@[simp] theorem exec_vdmRegRead {s : State} {off} {n} : exec (.vdmRegRead off n) s = execVdmRegRead off n s := rfl
@[simp] theorem exec_vdmRegWrite {s : State} {t} {v} : exec (.vdmRegWrite t v) s = execVdmRegWrite t v s := rfl
@[simp] theorem exec_vdmBbInfo {s : State} : exec (.vdmBbInfo) s = execVdmBbInfo s := rfl
@[simp] theorem exec_vdmBbRead {s : State} {copy} {first} {n} : exec (.vdmBbRead copy first n) s = execVdmBbRead copy first n s := rfl
@[simp] theorem exec_vdmCocoon {s : State} : exec (.vdmCocoon) s = execVdmCocoon s := rfl
@[simp] theorem exec_vdmWarmReset {s : State} : exec (.vdmWarmReset) s = execVdmWarmReset s := rfl
@[simp] theorem exec_vdmPolicyChunk {s : State} {off} {bs} {last} : exec (.vdmPolicyChunk off bs last) s = execVdmPolicyChunk off bs last s := rfl
@[simp] theorem exec_pldmFwData {s : State} {off} {bs} : exec (.pldmFwData off bs) s = execPldmFwData off bs s := rfl
@[simp] theorem exec_pldmVerifyComplete {s : State} {sigOk} {svn} {signer} {opSig} : exec (.pldmVerifyComplete sigOk svn signer opSig) s = execPldmVerifyComplete sigOk svn signer opSig s := rfl
@[simp] theorem exec_pldmActivateFirmware {s : State} {selfContained} : exec (.pldmActivateFirmware selfContained) s = execPldmActivateFirmware selfContained s := rfl
@[simp] theorem exec_bbRecordAppend {s : State} : exec (.bbRecordAppend) s = execBbRecordAppend s := rfl
@[simp] theorem exec_repairReport {s : State} : exec (.repairReport) s = execRepairReport s := rfl
@[simp] theorem exec_serviceSpiRead {s : State} {east} {low} {off} {n} : exec (.serviceSpiRead east low off n) s = execServiceSpiRead east low off n s := rfl
@[simp] theorem exec_cellWopen {s : State} {p} : exec (.cellWopen p) s = execCellWopen p s := rfl
@[simp] theorem exec_cellCloseNow {s : State} {p} : exec (.cellCloseNow p) s = execCellCloseNow p s := rfl
@[simp] theorem exec_cellCloseQuiesce {s : State} {p} : exec (.cellCloseQuiesce p) s = execCellCloseQuiesce p s := rfl
@[simp] theorem exec_cellCloseEnded {s : State} {p} : exec (.cellCloseEnded p) s = execCellCloseEnded p s := rfl
@[simp] theorem exec_cellWquery {s : State} {p} : exec (.cellWquery p) s = execCellWquery p s := rfl
@[simp] theorem exec_registerWrite {s : State} {p} {off} {v} : exec (.registerWrite p off v) s = execRegisterWrite p off v s := rfl
@[simp] theorem exec_fwRestarted {s : State} : exec (.fwRestarted) s = execFwRestarted s := rfl
@[simp] theorem exec_proboscisAccess {s : State} {a} : exec (.proboscisAccess a) s = execProboscisAccess a s := rfl
@[simp] theorem exec_scpmOverClears {s : State} {k} {ix} : exec (.scpmOverClears k ix) s = execScpmOverClears k ix s := rfl
@[simp] theorem exec_selfRefreshExit {s : State} {k} : exec (.selfRefreshExit k) s = execSelfRefreshExit k s := rfl

end Sys2Proof.Machine
end

