-- ==== Sys2Proof/Laws/Table.lean ====
section
/-! SUPPORT. Laws of sparse tables: a read after a write, and that every operation keeps the canonical form. -/

namespace Sys2Proof.Machine

variable {α : Type} {d : α}

@[simp] theorem Table.get_nil (i : Nat) : Table.get d [] i = d := rfl

theorem Table.sortedFrom_mono {lo lo' : Nat} (h : lo' ≤ lo) : ∀ {t : Table α}, Table.sortedFrom lo t = true → Table.sortedFrom lo' t = true
  | [], _ => rfl
  | (k, v) :: t, hs => by
    simp only [Table.sortedFrom, Bool.and_eq_true, decide_eq_true_eq] at hs ⊢
    exact ⟨by omega, hs.2⟩

/-- A key below every listed one reads as unlisted. -/
theorem Table.get_below {i lo : Nat} (h : i < lo) : ∀ {t : Table α}, Table.sortedFrom lo t = true → Table.get d t i = d
  | [], _ => rfl
  | (k, v) :: t, hs => by
    simp only [Table.sortedFrom, Bool.and_eq_true, decide_eq_true_eq] at hs
    have hk : k ≠ i := by omega
    simp only [Table.get, hk, if_false]
    exact Table.get_below (by omega) hs.2

variable [DecidableEq α]

/-- A read of the key just written, where the value is not the unlisted one. -/
theorem Table.get_put_val {v : α} (hv : v ≠ d) (i : Nat) : ∀ t : Table α, Table.get d (Table.put d t i v) i = v
  | [] => by simp [Table.put, hv, Table.get]
  | (k, w) :: t => by
    unfold Table.put
    split
    · simp [Table.get]
    · split
      · simp [Table.get]
      · have : k ≠ i := fun h => by simp_all
        simp only [Table.get, this, if_false]
        exact Table.get_put_val hv i t

/-- A read of the key just written, in a table whose keys rise. -/
theorem Table.get_put_sorted {v : α} (i : Nat) : ∀ {lo : Nat} {t : Table α}, Table.sortedFrom lo t = true → Table.get d (Table.put d t i v) i = v
  | _, [], _ => by
    unfold Table.put
    split
    · simp_all [Table.get]
    · simp [Table.get]
  | lo, (k, w) :: t, hs => by
    simp only [Table.sortedFrom, Bool.and_eq_true, decide_eq_true_eq] at hs
    unfold Table.put
    split
    · split
      · have hk : k ≠ i := by omega
        have := Table.get_below (d := d) (i := i) (by omega) hs.2
        simp_all [Table.get]
      · simp [Table.get]
    · split
      · split
        · have := Table.get_below (d := d) (i := i) (lo := k + 1) (by omega) hs.2
          simp_all
        · simp [Table.get]
      · have hk : k ≠ i := by omega
        simp only [Table.get, hk, if_false]
        exact Table.get_put_sorted i hs.2

/-- A write leaves every other key. -/
theorem Table.get_put_ne {v : α} {i j : Nat} (h : i ≠ j) : ∀ t : Table α, Table.get d (Table.put d t i v) j = Table.get d t j
  | [] => by
    unfold Table.put
    split <;> simp [Table.get, h]
  | (k, w) :: t => by
    unfold Table.put
    split
    · split <;> simp [Table.get, h]
    · split
      · next hik =>
        subst hik
        split <;> simp [Table.get, h]
      · simp only [Table.get]
        split
        · rfl
        · exact Table.get_put_ne h t

theorem Table.wf_iff {t : Table α} : Table.wf d t = true ↔ Table.sortedFrom 0 t = true ∧ ∀ kv ∈ t, kv.2 ≠ d := by
  simp [Table.wf]

/-- A read of the key just written, in a canonical table. -/
theorem Table.get_put_same {t : Table α} (h : Table.wf d t = true) (i : Nat) (v : α) : Table.get d (Table.put d t i v) i = v :=
  Table.get_put_sorted i (Table.wf_iff.1 h).1

theorem Table.put_sortedFrom {v : α} {i : Nat} : ∀ {lo : Nat} {t : Table α}, lo ≤ i → Table.sortedFrom lo t = true →
    Table.sortedFrom lo (Table.put d t i v) = true
  | lo, [], hi, _ => by
    unfold Table.put
    split <;> simp [Table.sortedFrom, hi]
  | lo, (k, w) :: t, hi, hs => by
    have h0 := hs
    simp only [Table.sortedFrom, Bool.and_eq_true, decide_eq_true_eq] at hs
    unfold Table.put
    split
    · split
      · exact h0
      · simp only [Table.sortedFrom, Bool.and_eq_true, decide_eq_true_eq]
        exact ⟨hi, by omega, hs.2⟩
    · split
      · next hik =>
        subst hik
        split
        · exact Table.sortedFrom_mono (by omega) hs.2
        · simp only [Table.sortedFrom, Bool.and_eq_true, decide_eq_true_eq]
          exact ⟨hi, hs.2⟩
      · simp only [Table.sortedFrom, Bool.and_eq_true, decide_eq_true_eq]
        exact ⟨hs.1, Table.put_sortedFrom (by omega) hs.2⟩

theorem Table.put_vals {v : α} {i : Nat} : ∀ {t : Table α}, (∀ kv ∈ t, kv.2 ≠ d) → ∀ kv ∈ Table.put d t i v, kv.2 ≠ d
  | [], _ => by
    unfold Table.put
    split <;> simp_all
  | (k, w) :: t, h => by
    have ht : ∀ kv ∈ t, kv.2 ≠ d := fun kv hk => h kv (List.mem_cons_of_mem _ hk)
    have hh : w ≠ d := h (k, w) (List.mem_cons_self)
    have ih := Table.put_vals (v := v) (i := i) ht
    unfold Table.put
    split
    · split
      · exact h
      · intro kv hkv
        rcases List.mem_cons.1 hkv with rfl | hkv
        · assumption
        · exact h kv hkv
    · split
      · split
        · exact ht
        · intro kv hkv
          rcases List.mem_cons.1 hkv with rfl | hkv
          · assumption
          · exact ht kv hkv
      · intro kv hkv
        rcases List.mem_cons.1 hkv with rfl | hkv
        · exact hh
        · exact ih kv hkv

/-- A write keeps the canonical form. -/
theorem Table.put_wf {t : Table α} (h : Table.wf d t = true) (i : Nat) (v : α) : Table.wf d (Table.put d t i v) = true :=
  Table.wf_iff.2 ⟨Table.put_sortedFrom (Nat.zero_le _) (Table.wf_iff.1 h).1, Table.put_vals (Table.wf_iff.1 h).2⟩

/-- A change keeps the canonical form. -/
theorem Table.upd_wf {t : Table α} (h : Table.wf d t = true) (i : Nat) (f : α → α) : Table.wf d (Table.upd d t i f) = true :=
  Table.put_wf h _ _

theorem Table.get_upd_same {t : Table α} (h : Table.wf d t = true) (i : Nat) (f : α → α) :
    Table.get d (Table.upd d t i f) i = f (Table.get d t i) := Table.get_put_same h _ _

theorem Table.get_upd_ne (t : Table α) {i j : Nat} (h : i ≠ j) (f : α → α) : Table.get d (Table.upd d t i f) j = Table.get d t j :=
  Table.get_put_ne h t

@[simp] theorem Table.nil_wf : Table.wf d [] = true := rfl

theorem Table.foldl_put_wf {β : Type} (f : β → Nat) (g : β → Table α → α) :
    ∀ (l : List β) (t : Table α), Table.wf d t = true → Table.wf d (l.foldl (fun a b => Table.put d a (f b) (g b a)) t) = true
  | [], _, h => h
  | _ :: l, _, h => Table.foldl_put_wf f g l _ (Table.put_wf h _ _)

/-- A change of every listed value gives a canonical table. -/
theorem Table.mapListed_wf (t : Table α) (f : Nat → α → α) : Table.wf d (Table.mapListed d t f) = true :=
  Table.foldl_put_wf (fun kv => kv.1) (fun kv _ => f kv.1 kv.2) t [] Table.nil_wf

/-- A run of writes keeps the canonical form. -/
theorem Table.putList_wf : ∀ (vs : List α) (t : Table α) (i : Nat), Table.wf d t = true → Table.wf d (Table.putList d t i vs) = true
  | [], _, _, h => h
  | _ :: vs, _, i, h => Table.putList_wf vs _ (i + 1) (Table.put_wf h _ _)

omit [DecidableEq α] in
theorem Table.filterMap_sortedFrom {f : Nat × α → Option (Nat × α)} (hf : ∀ kv r, f kv = some r → r.1 = kv.1) :
    ∀ {lo : Nat} {t : Table α}, Table.sortedFrom lo t = true → Table.sortedFrom lo (t.filterMap f) = true
  | _, [], _ => rfl
  | lo, (k, w) :: t, hs => by
    simp only [Table.sortedFrom, Bool.and_eq_true, decide_eq_true_eq] at hs
    have ih := Table.filterMap_sortedFrom hf hs.2
    rw [List.filterMap_cons]
    split
    · exact Table.sortedFrom_mono (by omega) ih
    · next r hr =>
      have := hf _ _ hr
      obtain ⟨a, _⟩ := r
      simp only at this
      subst this
      simp only [Table.sortedFrom, Bool.and_eq_true, decide_eq_true_eq]
      exact ⟨hs.1, ih⟩

/-- Entries dropped or changed in place, never to the unlisted value, leave a canonical table. -/
theorem Table.filterMap_wf {f : Nat × α → Option (Nat × α)} (hf : ∀ kv r, f kv = some r → r.1 = kv.1 ∧ (kv.2 ≠ d → r.2 ≠ d)) {t : Table α}
    (h : Table.wf d t = true) : Table.wf d (t.filterMap f) = true := by
  have h' := Table.wf_iff.1 h
  refine Table.wf_iff.2 ⟨Table.filterMap_sortedFrom (fun kv r hr => (hf kv r hr).1) h'.1, fun r hr => ?_⟩
  obtain ⟨kv, hkv, hr⟩ := List.mem_filterMap.1 hr
  exact (hf kv r hr).2 (h'.2 kv hkv)

/-- Entries dropped leave a canonical table. -/
theorem Table.filter_wf (p : Nat × α → Bool) {t : Table α} (h : Table.wf d t = true) : Table.wf d (t.filter p) = true := by
  have : t.filter p = t.filterMap (fun kv => if p kv then some kv else none) := by
    induction t with
    | nil => rfl
    | cons a t ih =>
      have hw := Table.wf_iff.1 h
      have : Table.wf d t = true := Table.wf_iff.2 ⟨by
        obtain ⟨k, w⟩ := a
        simp only [Table.sortedFrom, Bool.and_eq_true] at hw
        exact Table.sortedFrom_mono (Nat.zero_le _) hw.1.2, fun kv hk => hw.2 kv (List.mem_cons_of_mem _ hk)⟩
      cases hp : p a <;> simp [hp, ih this]
  rw [this]
  refine Table.filterMap_wf (fun kv r hr => ?_) h
  split at hr
  · cases hr; exact ⟨rfl, id⟩
  · cases hr

theorem Table.put_below {b : α} {i : Nat} : ∀ {t : Table α}, Table.sortedFrom (i + 1) t = true →
    Table.put d t i b = if b = d then t else (i, b) :: t
  | [], _ => rfl
  | (k, w) :: t, hs => by
    simp only [Table.sortedFrom, Bool.and_eq_true, decide_eq_true_eq] at hs
    simp [Table.put, show i < k by omega]

theorem Table.put_put_sorted {a b : α} (i : Nat) : ∀ {lo : Nat} {t : Table α}, Table.sortedFrom lo t = true →
    Table.put d (Table.put d t i a) i b = Table.put d t i b
  | _, [], _ => by
    by_cases ha : a = d <;> by_cases hb : b = d <;> simp [Table.put, ha, hb]
  | lo, (k, w) :: t, hs => by
    simp only [Table.sortedFrom, Bool.and_eq_true, decide_eq_true_eq] at hs
    have ih := Table.put_put_sorted (a := a) (b := b) i hs.2
    rcases Nat.lt_trichotomy i k with h | h | h
    · by_cases ha : a = d <;> simp [Table.put, h, ha]
    · subst h
      by_cases ha : a = d <;> simp [Table.put, ha, Table.put_below hs.2]
    · have h1 : (i < k) = False := by simp; omega
      have h3 : (i = k) = False := by simp; omega
      simp only [Table.put, h1, h3, if_false, ih]

/-- The later of two writes of one key counts. -/
theorem Table.put_put {t : Table α} (h : Table.wf d t = true) (i : Nat) (a b : α) : Table.put d (Table.put d t i a) i b = Table.put d t i b :=
  Table.put_put_sorted i (Table.wf_iff.1 h).1

theorem Table.put_get_sorted (i : Nat) : ∀ {lo : Nat} {t : Table α}, Table.sortedFrom lo t = true → (∀ kv ∈ t, kv.2 ≠ d) →
    Table.put d t i (Table.get d t i) = t
  | _, [], _, _ => by simp [Table.put, Table.get]
  | lo, (k, w) :: t, hs, hv => by
    simp only [Table.sortedFrom, Bool.and_eq_true, decide_eq_true_eq] at hs
    have ih := Table.put_get_sorted i hs.2 (fun kv h => hv kv (List.mem_cons_of_mem _ h))
    have hw : w ≠ d := hv (k, w) List.mem_cons_self
    rcases Nat.lt_trichotomy i k with h | h | h
    · have h3 : k ≠ i := by omega
      have := Table.get_below (d := d) (show i < k + 1 by omega) hs.2
      simp [Table.put, Table.get, h, h3, this]
    · subst h
      simp [Table.put, Table.get, hw]
    · have h1 : (i < k) = False := by simp; omega
      have h3 : (i = k) = False := by simp; omega
      have h4 : (k = i) = False := by simp; omega
      simp only [Table.put, Table.get, h1, h3, h4, if_false, ih]

/-- Writing back what a key holds changes nothing. -/
theorem Table.put_get {t : Table α} (h : Table.wf d t = true) (i : Nat) : Table.put d t i (Table.get d t i) = t :=
  Table.put_get_sorted i (Table.wf_iff.1 h).1 (Table.wf_iff.1 h).2

end Sys2Proof.Machine
end

