-- ==== Sys2Proof/Laws/State.lean ====
section
/-! SUPPORT. Every primitive update of the state, field by field; registers read after a write. -/

namespace Sys2Proof.Machine

variable {s : State}

@[simp] theorem State.setTile_pending {t : Nat} {x : Tile} : (s.setTile t x).pending = s.pending := rfl
@[simp] theorem State.setTile_now {t : Nat} {x : Tile} : (s.setTile t x).now = s.now := rfl
@[simp] theorem State.setTile_freeCtr {t : Nat} {x : Tile} : (s.setTile t x).freeCtr = s.freeCtr := rfl
@[simp] theorem State.setTile_out {t : Nat} {x : Tile} : (s.setTile t x).out = s.out := rfl
@[simp] theorem State.setTile_snodes {t : Nat} {x : Tile} : (s.setTile t x).snodes = s.snodes := rfl
@[simp] theorem State.setTile_nodes {t : Nat} {x : Tile} : (s.setTile t x).nodes = s.nodes := rfl
@[simp] theorem State.setTile_ctlq {t : Nat} {x : Tile} : (s.setTile t x).ctlq = s.ctlq := rfl
@[simp] theorem State.setTile_hub {t : Nat} {x : Tile} : (s.setTile t x).hub = s.hub := rfl
@[simp] theorem State.setTile_fns {t : Nat} {x : Tile} : (s.setTile t x).fns = s.fns := rfl
@[simp] theorem State.setTile_ports {t : Nat} {x : Tile} : (s.setTile t x).ports = s.ports := rfl
@[simp] theorem State.setTile_regs {t : Nat} {x : Tile} : (s.setTile t x).regs = s.regs := rfl
@[simp] theorem State.setTile_parts {t : Nat} {x : Tile} : (s.setTile t x).parts = s.parts := rfl

@[simp] theorem State.updTile_pending {t : Nat} {f : Tile → Tile} : (s.updTile t f).pending = s.pending := rfl
@[simp] theorem State.updTile_now {t : Nat} {f : Tile → Tile} : (s.updTile t f).now = s.now := rfl
@[simp] theorem State.updTile_freeCtr {t : Nat} {f : Tile → Tile} : (s.updTile t f).freeCtr = s.freeCtr := rfl
@[simp] theorem State.updTile_out {t : Nat} {f : Tile → Tile} : (s.updTile t f).out = s.out := rfl
@[simp] theorem State.updTile_snodes {t : Nat} {f : Tile → Tile} : (s.updTile t f).snodes = s.snodes := rfl
@[simp] theorem State.updTile_nodes {t : Nat} {f : Tile → Tile} : (s.updTile t f).nodes = s.nodes := rfl
@[simp] theorem State.updTile_ctlq {t : Nat} {f : Tile → Tile} : (s.updTile t f).ctlq = s.ctlq := rfl
@[simp] theorem State.updTile_hub {t : Nat} {f : Tile → Tile} : (s.updTile t f).hub = s.hub := rfl
@[simp] theorem State.updTile_fns {t : Nat} {f : Tile → Tile} : (s.updTile t f).fns = s.fns := rfl
@[simp] theorem State.updTile_ports {t : Nat} {f : Tile → Tile} : (s.updTile t f).ports = s.ports := rfl
@[simp] theorem State.updTile_regs {t : Nat} {f : Tile → Tile} : (s.updTile t f).regs = s.regs := rfl
@[simp] theorem State.updTile_parts {t : Nat} {f : Tile → Tile} : (s.updTile t f).parts = s.parts := rfl

@[simp] theorem State.updNode_pending {n : Nat} {f : Node → Node} : (s.updNode n f).pending = s.pending := rfl
@[simp] theorem State.updNode_now {n : Nat} {f : Node → Node} : (s.updNode n f).now = s.now := rfl
@[simp] theorem State.updNode_freeCtr {n : Nat} {f : Node → Node} : (s.updNode n f).freeCtr = s.freeCtr := rfl
@[simp] theorem State.updNode_out {n : Nat} {f : Node → Node} : (s.updNode n f).out = s.out := rfl
@[simp] theorem State.updNode_tiles {n : Nat} {f : Node → Node} : (s.updNode n f).tiles = s.tiles := rfl
@[simp] theorem State.updNode_snodes {n : Nat} {f : Node → Node} : (s.updNode n f).snodes = s.snodes := rfl
@[simp] theorem State.updNode_ctlq {n : Nat} {f : Node → Node} : (s.updNode n f).ctlq = s.ctlq := rfl
@[simp] theorem State.updNode_hub {n : Nat} {f : Node → Node} : (s.updNode n f).hub = s.hub := rfl
@[simp] theorem State.updNode_fns {n : Nat} {f : Node → Node} : (s.updNode n f).fns = s.fns := rfl
@[simp] theorem State.updNode_ports {n : Nat} {f : Node → Node} : (s.updNode n f).ports = s.ports := rfl
@[simp] theorem State.updNode_regs {n : Nat} {f : Node → Node} : (s.updNode n f).regs = s.regs := rfl
@[simp] theorem State.updNode_parts {n : Nat} {f : Node → Node} : (s.updNode n f).parts = s.parts := rfl

@[simp] theorem State.setStack_pending {k : Nat} {x : Stack} : (s.setStack k x).pending = s.pending := rfl
@[simp] theorem State.setStack_now {k : Nat} {x : Stack} : (s.setStack k x).now = s.now := rfl
@[simp] theorem State.setStack_freeCtr {k : Nat} {x : Stack} : (s.setStack k x).freeCtr = s.freeCtr := rfl
@[simp] theorem State.setStack_out {k : Nat} {x : Stack} : (s.setStack k x).out = s.out := rfl
@[simp] theorem State.setStack_tiles {k : Nat} {x : Stack} : (s.setStack k x).tiles = s.tiles := rfl
@[simp] theorem State.setStack_nodes {k : Nat} {x : Stack} : (s.setStack k x).nodes = s.nodes := rfl
@[simp] theorem State.setStack_ctlq {k : Nat} {x : Stack} : (s.setStack k x).ctlq = s.ctlq := rfl
@[simp] theorem State.setStack_hub {k : Nat} {x : Stack} : (s.setStack k x).hub = s.hub := rfl
@[simp] theorem State.setStack_fns {k : Nat} {x : Stack} : (s.setStack k x).fns = s.fns := rfl
@[simp] theorem State.setStack_ports {k : Nat} {x : Stack} : (s.setStack k x).ports = s.ports := rfl
@[simp] theorem State.setStack_regs {k : Nat} {x : Stack} : (s.setStack k x).regs = s.regs := rfl
@[simp] theorem State.setStack_parts {k : Nat} {x : Stack} : (s.setStack k x).parts = s.parts := rfl

@[simp] theorem State.updStack_pending {k : Nat} {f : Stack → Stack} : (s.updStack k f).pending = s.pending := rfl
@[simp] theorem State.updStack_now {k : Nat} {f : Stack → Stack} : (s.updStack k f).now = s.now := rfl
@[simp] theorem State.updStack_freeCtr {k : Nat} {f : Stack → Stack} : (s.updStack k f).freeCtr = s.freeCtr := rfl
@[simp] theorem State.updStack_out {k : Nat} {f : Stack → Stack} : (s.updStack k f).out = s.out := rfl
@[simp] theorem State.updStack_tiles {k : Nat} {f : Stack → Stack} : (s.updStack k f).tiles = s.tiles := rfl
@[simp] theorem State.updStack_nodes {k : Nat} {f : Stack → Stack} : (s.updStack k f).nodes = s.nodes := rfl
@[simp] theorem State.updStack_ctlq {k : Nat} {f : Stack → Stack} : (s.updStack k f).ctlq = s.ctlq := rfl
@[simp] theorem State.updStack_hub {k : Nat} {f : Stack → Stack} : (s.updStack k f).hub = s.hub := rfl
@[simp] theorem State.updStack_fns {k : Nat} {f : Stack → Stack} : (s.updStack k f).fns = s.fns := rfl
@[simp] theorem State.updStack_ports {k : Nat} {f : Stack → Stack} : (s.updStack k f).ports = s.ports := rfl
@[simp] theorem State.updStack_regs {k : Nat} {f : Stack → Stack} : (s.updStack k f).regs = s.regs := rfl
@[simp] theorem State.updStack_parts {k : Nat} {f : Stack → Stack} : (s.updStack k f).parts = s.parts := rfl

@[simp] theorem State.updHub_pending {f : Hub → Hub} : (s.updHub f).pending = s.pending := rfl
@[simp] theorem State.updHub_now {f : Hub → Hub} : (s.updHub f).now = s.now := rfl
@[simp] theorem State.updHub_freeCtr {f : Hub → Hub} : (s.updHub f).freeCtr = s.freeCtr := rfl
@[simp] theorem State.updHub_out {f : Hub → Hub} : (s.updHub f).out = s.out := rfl
@[simp] theorem State.updHub_tiles {f : Hub → Hub} : (s.updHub f).tiles = s.tiles := rfl
@[simp] theorem State.updHub_snodes {f : Hub → Hub} : (s.updHub f).snodes = s.snodes := rfl
@[simp] theorem State.updHub_nodes {f : Hub → Hub} : (s.updHub f).nodes = s.nodes := rfl
@[simp] theorem State.updHub_ctlq {f : Hub → Hub} : (s.updHub f).ctlq = s.ctlq := rfl
@[simp] theorem State.updHub_fns {f : Hub → Hub} : (s.updHub f).fns = s.fns := rfl
@[simp] theorem State.updHub_ports {f : Hub → Hub} : (s.updHub f).ports = s.ports := rfl
@[simp] theorem State.updHub_regs {f : Hub → Hub} : (s.updHub f).regs = s.regs := rfl
@[simp] theorem State.updHub_parts {f : Hub → Hub} : (s.updHub f).parts = s.parts := rfl

@[simp] theorem State.updFn_pending {f : Nat} {g : Fn → Fn} : (s.updFn f g).pending = s.pending := rfl
@[simp] theorem State.updFn_now {f : Nat} {g : Fn → Fn} : (s.updFn f g).now = s.now := rfl
@[simp] theorem State.updFn_freeCtr {f : Nat} {g : Fn → Fn} : (s.updFn f g).freeCtr = s.freeCtr := rfl
@[simp] theorem State.updFn_out {f : Nat} {g : Fn → Fn} : (s.updFn f g).out = s.out := rfl
@[simp] theorem State.updFn_tiles {f : Nat} {g : Fn → Fn} : (s.updFn f g).tiles = s.tiles := rfl
@[simp] theorem State.updFn_snodes {f : Nat} {g : Fn → Fn} : (s.updFn f g).snodes = s.snodes := rfl
@[simp] theorem State.updFn_nodes {f : Nat} {g : Fn → Fn} : (s.updFn f g).nodes = s.nodes := rfl
@[simp] theorem State.updFn_ctlq {f : Nat} {g : Fn → Fn} : (s.updFn f g).ctlq = s.ctlq := rfl
@[simp] theorem State.updFn_hub {f : Nat} {g : Fn → Fn} : (s.updFn f g).hub = s.hub := rfl
@[simp] theorem State.updFn_ports {f : Nat} {g : Fn → Fn} : (s.updFn f g).ports = s.ports := rfl
@[simp] theorem State.updFn_regs {f : Nat} {g : Fn → Fn} : (s.updFn f g).regs = s.regs := rfl
@[simp] theorem State.updFn_parts {f : Nat} {g : Fn → Fn} : (s.updFn f g).parts = s.parts := rfl

@[simp] theorem State.updPort_pending {p : Nat} {g : Port → Port} : (s.updPort p g).pending = s.pending := rfl
@[simp] theorem State.updPort_now {p : Nat} {g : Port → Port} : (s.updPort p g).now = s.now := rfl
@[simp] theorem State.updPort_freeCtr {p : Nat} {g : Port → Port} : (s.updPort p g).freeCtr = s.freeCtr := rfl
@[simp] theorem State.updPort_out {p : Nat} {g : Port → Port} : (s.updPort p g).out = s.out := rfl
@[simp] theorem State.updPort_tiles {p : Nat} {g : Port → Port} : (s.updPort p g).tiles = s.tiles := rfl
@[simp] theorem State.updPort_snodes {p : Nat} {g : Port → Port} : (s.updPort p g).snodes = s.snodes := rfl
@[simp] theorem State.updPort_nodes {p : Nat} {g : Port → Port} : (s.updPort p g).nodes = s.nodes := rfl
@[simp] theorem State.updPort_ctlq {p : Nat} {g : Port → Port} : (s.updPort p g).ctlq = s.ctlq := rfl
@[simp] theorem State.updPort_hub {p : Nat} {g : Port → Port} : (s.updPort p g).hub = s.hub := rfl
@[simp] theorem State.updPort_fns {p : Nat} {g : Port → Port} : (s.updPort p g).fns = s.fns := rfl
@[simp] theorem State.updPort_regs {p : Nat} {g : Port → Port} : (s.updPort p g).regs = s.regs := rfl
@[simp] theorem State.updPort_parts {p : Nat} {g : Port → Port} : (s.updPort p g).parts = s.parts := rfl

@[simp] theorem State.updPart_pending {p : Nat} {g : Part → Part} : (s.updPart p g).pending = s.pending := rfl
@[simp] theorem State.updPart_now {p : Nat} {g : Part → Part} : (s.updPart p g).now = s.now := rfl
@[simp] theorem State.updPart_freeCtr {p : Nat} {g : Part → Part} : (s.updPart p g).freeCtr = s.freeCtr := rfl
@[simp] theorem State.updPart_out {p : Nat} {g : Part → Part} : (s.updPart p g).out = s.out := rfl
@[simp] theorem State.updPart_tiles {p : Nat} {g : Part → Part} : (s.updPart p g).tiles = s.tiles := rfl
@[simp] theorem State.updPart_snodes {p : Nat} {g : Part → Part} : (s.updPart p g).snodes = s.snodes := rfl
@[simp] theorem State.updPart_nodes {p : Nat} {g : Part → Part} : (s.updPart p g).nodes = s.nodes := rfl
@[simp] theorem State.updPart_ctlq {p : Nat} {g : Part → Part} : (s.updPart p g).ctlq = s.ctlq := rfl
@[simp] theorem State.updPart_hub {p : Nat} {g : Part → Part} : (s.updPart p g).hub = s.hub := rfl
@[simp] theorem State.updPart_fns {p : Nat} {g : Part → Part} : (s.updPart p g).fns = s.fns := rfl
@[simp] theorem State.updPart_ports {p : Nat} {g : Part → Part} : (s.updPart p g).ports = s.ports := rfl
@[simp] theorem State.updPart_regs {p : Nat} {g : Part → Part} : (s.updPart p g).regs = s.regs := rfl

@[simp] theorem State.setReg_pending {p off : Nat} {v : W32} : (s.setReg p off v).pending = s.pending := rfl
@[simp] theorem State.setReg_now {p off : Nat} {v : W32} : (s.setReg p off v).now = s.now := rfl
@[simp] theorem State.setReg_freeCtr {p off : Nat} {v : W32} : (s.setReg p off v).freeCtr = s.freeCtr := rfl
@[simp] theorem State.setReg_out {p off : Nat} {v : W32} : (s.setReg p off v).out = s.out := rfl
@[simp] theorem State.setReg_tiles {p off : Nat} {v : W32} : (s.setReg p off v).tiles = s.tiles := rfl
@[simp] theorem State.setReg_snodes {p off : Nat} {v : W32} : (s.setReg p off v).snodes = s.snodes := rfl
@[simp] theorem State.setReg_nodes {p off : Nat} {v : W32} : (s.setReg p off v).nodes = s.nodes := rfl
@[simp] theorem State.setReg_ctlq {p off : Nat} {v : W32} : (s.setReg p off v).ctlq = s.ctlq := rfl
@[simp] theorem State.setReg_hub {p off : Nat} {v : W32} : (s.setReg p off v).hub = s.hub := rfl
@[simp] theorem State.setReg_fns {p off : Nat} {v : W32} : (s.setReg p off v).fns = s.fns := rfl
@[simp] theorem State.setReg_ports {p off : Nat} {v : W32} : (s.setReg p off v).ports = s.ports := rfl
@[simp] theorem State.setReg_parts {p off : Nat} {v : W32} : (s.setReg p off v).parts = s.parts := rfl

@[simp] theorem State.wr_pending {p v : Nat} {f : Fd} : (s.wr p f v).pending = s.pending := rfl
@[simp] theorem State.wr_now {p v : Nat} {f : Fd} : (s.wr p f v).now = s.now := rfl
@[simp] theorem State.wr_freeCtr {p v : Nat} {f : Fd} : (s.wr p f v).freeCtr = s.freeCtr := rfl
@[simp] theorem State.wr_out {p v : Nat} {f : Fd} : (s.wr p f v).out = s.out := rfl
@[simp] theorem State.wr_tiles {p v : Nat} {f : Fd} : (s.wr p f v).tiles = s.tiles := rfl
@[simp] theorem State.wr_snodes {p v : Nat} {f : Fd} : (s.wr p f v).snodes = s.snodes := rfl
@[simp] theorem State.wr_nodes {p v : Nat} {f : Fd} : (s.wr p f v).nodes = s.nodes := rfl
@[simp] theorem State.wr_ctlq {p v : Nat} {f : Fd} : (s.wr p f v).ctlq = s.ctlq := rfl
@[simp] theorem State.wr_hub {p v : Nat} {f : Fd} : (s.wr p f v).hub = s.hub := rfl
@[simp] theorem State.wr_fns {p v : Nat} {f : Fd} : (s.wr p f v).fns = s.fns := rfl
@[simp] theorem State.wr_ports {p v : Nat} {f : Fd} : (s.wr p f v).ports = s.ports := rfl
@[simp] theorem State.wr_parts {p v : Nat} {f : Fd} : (s.wr p f v).parts = s.parts := rfl

@[simp] theorem State.hwr_pending {v : Nat} {f : Fd} : (s.hwr f v).pending = s.pending := rfl
@[simp] theorem State.hwr_now {v : Nat} {f : Fd} : (s.hwr f v).now = s.now := rfl
@[simp] theorem State.hwr_freeCtr {v : Nat} {f : Fd} : (s.hwr f v).freeCtr = s.freeCtr := rfl
@[simp] theorem State.hwr_out {v : Nat} {f : Fd} : (s.hwr f v).out = s.out := rfl
@[simp] theorem State.hwr_tiles {v : Nat} {f : Fd} : (s.hwr f v).tiles = s.tiles := rfl
@[simp] theorem State.hwr_snodes {v : Nat} {f : Fd} : (s.hwr f v).snodes = s.snodes := rfl
@[simp] theorem State.hwr_nodes {v : Nat} {f : Fd} : (s.hwr f v).nodes = s.nodes := rfl
@[simp] theorem State.hwr_ctlq {v : Nat} {f : Fd} : (s.hwr f v).ctlq = s.ctlq := rfl
@[simp] theorem State.hwr_hub {v : Nat} {f : Fd} : (s.hwr f v).hub = s.hub := rfl
@[simp] theorem State.hwr_fns {v : Nat} {f : Fd} : (s.hwr f v).fns = s.fns := rfl
@[simp] theorem State.hwr_ports {v : Nat} {f : Fd} : (s.hwr f v).ports = s.ports := rfl
@[simp] theorem State.hwr_parts {v : Nat} {f : Fd} : (s.hwr f v).parts = s.parts := rfl

@[simp] theorem State.inc_pending {p : Nat} {f : Fd} : (s.inc p f).pending = s.pending := rfl
@[simp] theorem State.inc_now {p : Nat} {f : Fd} : (s.inc p f).now = s.now := rfl
@[simp] theorem State.inc_freeCtr {p : Nat} {f : Fd} : (s.inc p f).freeCtr = s.freeCtr := rfl
@[simp] theorem State.inc_out {p : Nat} {f : Fd} : (s.inc p f).out = s.out := rfl
@[simp] theorem State.inc_tiles {p : Nat} {f : Fd} : (s.inc p f).tiles = s.tiles := rfl
@[simp] theorem State.inc_snodes {p : Nat} {f : Fd} : (s.inc p f).snodes = s.snodes := rfl
@[simp] theorem State.inc_nodes {p : Nat} {f : Fd} : (s.inc p f).nodes = s.nodes := rfl
@[simp] theorem State.inc_ctlq {p : Nat} {f : Fd} : (s.inc p f).ctlq = s.ctlq := rfl
@[simp] theorem State.inc_hub {p : Nat} {f : Fd} : (s.inc p f).hub = s.hub := rfl
@[simp] theorem State.inc_fns {p : Nat} {f : Fd} : (s.inc p f).fns = s.fns := rfl
@[simp] theorem State.inc_ports {p : Nat} {f : Fd} : (s.inc p f).ports = s.ports := rfl
@[simp] theorem State.inc_parts {p : Nat} {f : Fd} : (s.inc p f).parts = s.parts := rfl

@[simp] theorem State.dec_pending {p : Nat} {f : Fd} : (s.dec p f).pending = s.pending := rfl
@[simp] theorem State.dec_now {p : Nat} {f : Fd} : (s.dec p f).now = s.now := rfl
@[simp] theorem State.dec_freeCtr {p : Nat} {f : Fd} : (s.dec p f).freeCtr = s.freeCtr := rfl
@[simp] theorem State.dec_out {p : Nat} {f : Fd} : (s.dec p f).out = s.out := rfl
@[simp] theorem State.dec_tiles {p : Nat} {f : Fd} : (s.dec p f).tiles = s.tiles := rfl
@[simp] theorem State.dec_snodes {p : Nat} {f : Fd} : (s.dec p f).snodes = s.snodes := rfl
@[simp] theorem State.dec_nodes {p : Nat} {f : Fd} : (s.dec p f).nodes = s.nodes := rfl
@[simp] theorem State.dec_ctlq {p : Nat} {f : Fd} : (s.dec p f).ctlq = s.ctlq := rfl
@[simp] theorem State.dec_hub {p : Nat} {f : Fd} : (s.dec p f).hub = s.hub := rfl
@[simp] theorem State.dec_fns {p : Nat} {f : Fd} : (s.dec p f).fns = s.fns := rfl
@[simp] theorem State.dec_ports {p : Nat} {f : Fd} : (s.dec p f).ports = s.ports := rfl
@[simp] theorem State.dec_parts {p : Nat} {f : Fd} : (s.dec p f).parts = s.parts := rfl

@[simp] theorem State.clearPlace_pending {p : Nat} : (s.clearPlace p).pending = s.pending := rfl
@[simp] theorem State.clearPlace_now {p : Nat} : (s.clearPlace p).now = s.now := rfl
@[simp] theorem State.clearPlace_freeCtr {p : Nat} : (s.clearPlace p).freeCtr = s.freeCtr := rfl
@[simp] theorem State.clearPlace_out {p : Nat} : (s.clearPlace p).out = s.out := rfl
@[simp] theorem State.clearPlace_tiles {p : Nat} : (s.clearPlace p).tiles = s.tiles := rfl
@[simp] theorem State.clearPlace_snodes {p : Nat} : (s.clearPlace p).snodes = s.snodes := rfl
@[simp] theorem State.clearPlace_nodes {p : Nat} : (s.clearPlace p).nodes = s.nodes := rfl
@[simp] theorem State.clearPlace_ctlq {p : Nat} : (s.clearPlace p).ctlq = s.ctlq := rfl
@[simp] theorem State.clearPlace_hub {p : Nat} : (s.clearPlace p).hub = s.hub := rfl
@[simp] theorem State.clearPlace_fns {p : Nat} : (s.clearPlace p).fns = s.fns := rfl
@[simp] theorem State.clearPlace_ports {p : Nat} : (s.clearPlace p).ports = s.ports := rfl
@[simp] theorem State.clearPlace_parts {p : Nat} : (s.clearPlace p).parts = s.parts := rfl

@[simp] theorem State.emit_pending {o : Out} : (s.emit o).pending = s.pending := rfl
@[simp] theorem State.emit_now {o : Out} : (s.emit o).now = s.now := rfl
@[simp] theorem State.emit_freeCtr {o : Out} : (s.emit o).freeCtr = s.freeCtr := rfl
@[simp] theorem State.emit_tiles {o : Out} : (s.emit o).tiles = s.tiles := rfl
@[simp] theorem State.emit_snodes {o : Out} : (s.emit o).snodes = s.snodes := rfl
@[simp] theorem State.emit_nodes {o : Out} : (s.emit o).nodes = s.nodes := rfl
@[simp] theorem State.emit_ctlq {o : Out} : (s.emit o).ctlq = s.ctlq := rfl
@[simp] theorem State.emit_hub {o : Out} : (s.emit o).hub = s.hub := rfl
@[simp] theorem State.emit_fns {o : Out} : (s.emit o).fns = s.fns := rfl
@[simp] theorem State.emit_ports {o : Out} : (s.emit o).ports = s.ports := rfl
@[simp] theorem State.emit_regs {o : Out} : (s.emit o).regs = s.regs := rfl
@[simp] theorem State.emit_parts {o : Out} : (s.emit o).parts = s.parts := rfl

@[simp] theorem State.report_pending {n : Nat} {m : CtlMsg} : (s.report n m).pending = s.pending := rfl
@[simp] theorem State.report_now {n : Nat} {m : CtlMsg} : (s.report n m).now = s.now := rfl
@[simp] theorem State.report_freeCtr {n : Nat} {m : CtlMsg} : (s.report n m).freeCtr = s.freeCtr := rfl
@[simp] theorem State.report_out {n : Nat} {m : CtlMsg} : (s.report n m).out = s.out := rfl
@[simp] theorem State.report_tiles {n : Nat} {m : CtlMsg} : (s.report n m).tiles = s.tiles := rfl
@[simp] theorem State.report_snodes {n : Nat} {m : CtlMsg} : (s.report n m).snodes = s.snodes := rfl
@[simp] theorem State.report_nodes {n : Nat} {m : CtlMsg} : (s.report n m).nodes = s.nodes := rfl
@[simp] theorem State.report_hub {n : Nat} {m : CtlMsg} : (s.report n m).hub = s.hub := rfl
@[simp] theorem State.report_fns {n : Nat} {m : CtlMsg} : (s.report n m).fns = s.fns := rfl
@[simp] theorem State.report_ports {n : Nat} {m : CtlMsg} : (s.report n m).ports = s.ports := rfl
@[simp] theorem State.report_regs {n : Nat} {m : CtlMsg} : (s.report n m).regs = s.regs := rfl
@[simp] theorem State.report_parts {n : Nat} {m : CtlMsg} : (s.report n m).parts = s.parts := rfl

@[simp] theorem State.drawn_pending : (s.drawn).pending = s.pending := rfl
@[simp] theorem State.drawn_now : (s.drawn).now = s.now := rfl
@[simp] theorem State.drawn_out : (s.drawn).out = s.out := rfl
@[simp] theorem State.drawn_tiles : (s.drawn).tiles = s.tiles := rfl
@[simp] theorem State.drawn_snodes : (s.drawn).snodes = s.snodes := rfl
@[simp] theorem State.drawn_nodes : (s.drawn).nodes = s.nodes := rfl
@[simp] theorem State.drawn_ctlq : (s.drawn).ctlq = s.ctlq := rfl
@[simp] theorem State.drawn_hub : (s.drawn).hub = s.hub := rfl
@[simp] theorem State.drawn_fns : (s.drawn).fns = s.fns := rfl
@[simp] theorem State.drawn_ports : (s.drawn).ports = s.ports := rfl
@[simp] theorem State.drawn_regs : (s.drawn).regs = s.regs := rfl
@[simp] theorem State.drawn_parts : (s.drawn).parts = s.parts := rfl

@[simp] theorem State.till_pending {t : Nat} : (s.till t).pending = s.pending := rfl
@[simp] theorem State.till_freeCtr {t : Nat} : (s.till t).freeCtr = s.freeCtr := rfl
@[simp] theorem State.till_out {t : Nat} : (s.till t).out = s.out := rfl
@[simp] theorem State.till_tiles {t : Nat} : (s.till t).tiles = s.tiles := rfl
@[simp] theorem State.till_snodes {t : Nat} : (s.till t).snodes = s.snodes := rfl
@[simp] theorem State.till_nodes {t : Nat} : (s.till t).nodes = s.nodes := rfl
@[simp] theorem State.till_ctlq {t : Nat} : (s.till t).ctlq = s.ctlq := rfl
@[simp] theorem State.till_hub {t : Nat} : (s.till t).hub = s.hub := rfl
@[simp] theorem State.till_fns {t : Nat} : (s.till t).fns = s.fns := rfl
@[simp] theorem State.till_ports {t : Nat} : (s.till t).ports = s.ports := rfl
@[simp] theorem State.till_regs {t : Nat} : (s.till t).regs = s.regs := rfl
@[simp] theorem State.till_parts {t : Nat} : (s.till t).parts = s.parts := rfl

@[simp] theorem State.sat_pending {p : Nat} {f : Fd} : (s.sat p f).pending = s.pending := by unfold State.sat; split <;> rfl
@[simp] theorem State.sat_now {p : Nat} {f : Fd} : (s.sat p f).now = s.now := by unfold State.sat; split <;> rfl
@[simp] theorem State.sat_freeCtr {p : Nat} {f : Fd} : (s.sat p f).freeCtr = s.freeCtr := by unfold State.sat; split <;> rfl
@[simp] theorem State.sat_out {p : Nat} {f : Fd} : (s.sat p f).out = s.out := by unfold State.sat; split <;> rfl
@[simp] theorem State.sat_tiles {p : Nat} {f : Fd} : (s.sat p f).tiles = s.tiles := by unfold State.sat; split <;> rfl
@[simp] theorem State.sat_snodes {p : Nat} {f : Fd} : (s.sat p f).snodes = s.snodes := by unfold State.sat; split <;> rfl
@[simp] theorem State.sat_nodes {p : Nat} {f : Fd} : (s.sat p f).nodes = s.nodes := by unfold State.sat; split <;> rfl
@[simp] theorem State.sat_ctlq {p : Nat} {f : Fd} : (s.sat p f).ctlq = s.ctlq := by unfold State.sat; split <;> rfl
@[simp] theorem State.sat_hub {p : Nat} {f : Fd} : (s.sat p f).hub = s.hub := by unfold State.sat; split <;> rfl
@[simp] theorem State.sat_fns {p : Nat} {f : Fd} : (s.sat p f).fns = s.fns := by unfold State.sat; split <;> rfl
@[simp] theorem State.sat_ports {p : Nat} {f : Fd} : (s.sat p f).ports = s.ports := by unfold State.sat; split <;> rfl
@[simp] theorem State.sat_parts {p : Nat} {f : Fd} : (s.sat p f).parts = s.parts := by unfold State.sat; split <;> rfl

@[simp] theorem State.updHub_hub {f : Hub → Hub} : (s.updHub f).hub = f s.hub := rfl
@[simp] theorem State.emit_out {o : Out} : (s.emit o).out = s.out ++ [o] := rfl
@[simp] theorem State.report_ctlq {n : Nat} {m : CtlMsg} : (s.report n m).ctlq = s.ctlq ++ [⟨n, .msg m⟩] := rfl
@[simp] theorem State.drawn_freeCtr : s.drawn.freeCtr = s.freeCtr + 64 := rfl
@[simp] theorem State.till_now {t : Nat} : (s.till t).now = max s.now t := rfl

/-! ### What each accessor reads after an update of another part -/

theorem State.tile_congr {s s' : State} (h : s'.tiles = s.tiles) (i : Nat) : s'.tile i = s.tile i := by unfold State.tile; rw [h]
theorem State.node_congr {s s' : State} (h : s'.nodes = s.nodes) (i : Nat) : s'.node i = s.node i := by unfold State.node; rw [h]
theorem State.stack_congr {s s' : State} (h : s'.snodes = s.snodes) (i : Nat) : s'.stack i = s.stack i := by unfold State.stack; rw [h]
theorem State.fn_congr {s s' : State} (h : s'.fns = s.fns) (i : Nat) : s'.fn i = s.fn i := by unfold State.fn; rw [h]
theorem State.port_congr {s s' : State} (h : s'.ports = s.ports) (i : Nat) : s'.port i = s.port i := by unfold State.port; rw [h]
theorem State.part_congr {s s' : State} (h : s'.parts = s.parts) (i : Nat) : s'.part i = s.part i := by unfold State.part; rw [h]
theorem State.reg_congr {s s' : State} (h : s'.regs = s.regs) (p o : Nat) : s'.reg p o = s.reg p o := by unfold State.reg; rw [h]
theorem State.rd_congr {s s' : State} (h : s'.regs = s.regs) (p : Nat) (f : Fd) : s'.rd p f = s.rd p f := by unfold State.rd; rw [State.reg_congr h]
theorem State.hrd_congr {s s' : State} (h : s'.regs = s.regs) (f : Fd) : s'.hrd f = s.hrd f := State.rd_congr h _ _

@[simp] theorem State.setTile_node {t : Nat} {x : Tile} {i : Nat} : (s.setTile t x).node i = s.node i := rfl
@[simp] theorem State.setTile_stack {t : Nat} {x : Tile} {i : Nat} : (s.setTile t x).stack i = s.stack i := rfl
@[simp] theorem State.setTile_fn {t : Nat} {x : Tile} {i : Nat} : (s.setTile t x).fn i = s.fn i := rfl
@[simp] theorem State.setTile_port {t : Nat} {x : Tile} {i : Nat} : (s.setTile t x).port i = s.port i := rfl
@[simp] theorem State.setTile_part {t : Nat} {x : Tile} {i : Nat} : (s.setTile t x).part i = s.part i := rfl
@[simp] theorem State.setTile_rd {t : Nat} {x : Tile} {i : Nat} {d : Fd} : (s.setTile t x).rd i d = s.rd i d := rfl
@[simp] theorem State.setTile_hrd {t : Nat} {x : Tile} {d : Fd} : (s.setTile t x).hrd d = s.hrd d := rfl
@[simp] theorem State.setTile_reg {t : Nat} {x : Tile} {i j : Nat} : (s.setTile t x).reg i j = s.reg i j := rfl
@[simp] theorem State.updTile_node {t : Nat} {f : Tile → Tile} {i : Nat} : (s.updTile t f).node i = s.node i := rfl
@[simp] theorem State.updTile_stack {t : Nat} {f : Tile → Tile} {i : Nat} : (s.updTile t f).stack i = s.stack i := rfl
@[simp] theorem State.updTile_fn {t : Nat} {f : Tile → Tile} {i : Nat} : (s.updTile t f).fn i = s.fn i := rfl
@[simp] theorem State.updTile_port {t : Nat} {f : Tile → Tile} {i : Nat} : (s.updTile t f).port i = s.port i := rfl
@[simp] theorem State.updTile_part {t : Nat} {f : Tile → Tile} {i : Nat} : (s.updTile t f).part i = s.part i := rfl
@[simp] theorem State.updTile_rd {t : Nat} {f : Tile → Tile} {i : Nat} {d : Fd} : (s.updTile t f).rd i d = s.rd i d := rfl
@[simp] theorem State.updTile_hrd {t : Nat} {f : Tile → Tile} {d : Fd} : (s.updTile t f).hrd d = s.hrd d := rfl
@[simp] theorem State.updTile_reg {t : Nat} {f : Tile → Tile} {i j : Nat} : (s.updTile t f).reg i j = s.reg i j := rfl
@[simp] theorem State.updNode_tile {n : Nat} {f : Node → Node} {i : Nat} : (s.updNode n f).tile i = s.tile i := rfl
@[simp] theorem State.updNode_stack {n : Nat} {f : Node → Node} {i : Nat} : (s.updNode n f).stack i = s.stack i := rfl
@[simp] theorem State.updNode_fn {n : Nat} {f : Node → Node} {i : Nat} : (s.updNode n f).fn i = s.fn i := rfl
@[simp] theorem State.updNode_port {n : Nat} {f : Node → Node} {i : Nat} : (s.updNode n f).port i = s.port i := rfl
@[simp] theorem State.updNode_part {n : Nat} {f : Node → Node} {i : Nat} : (s.updNode n f).part i = s.part i := rfl
@[simp] theorem State.updNode_rd {n : Nat} {f : Node → Node} {i : Nat} {d : Fd} : (s.updNode n f).rd i d = s.rd i d := rfl
@[simp] theorem State.updNode_hrd {n : Nat} {f : Node → Node} {d : Fd} : (s.updNode n f).hrd d = s.hrd d := rfl
@[simp] theorem State.updNode_reg {n : Nat} {f : Node → Node} {i j : Nat} : (s.updNode n f).reg i j = s.reg i j := rfl
@[simp] theorem State.setStack_tile {k : Nat} {x : Stack} {i : Nat} : (s.setStack k x).tile i = s.tile i := rfl
@[simp] theorem State.setStack_node {k : Nat} {x : Stack} {i : Nat} : (s.setStack k x).node i = s.node i := rfl
@[simp] theorem State.setStack_fn {k : Nat} {x : Stack} {i : Nat} : (s.setStack k x).fn i = s.fn i := rfl
@[simp] theorem State.setStack_port {k : Nat} {x : Stack} {i : Nat} : (s.setStack k x).port i = s.port i := rfl
@[simp] theorem State.setStack_part {k : Nat} {x : Stack} {i : Nat} : (s.setStack k x).part i = s.part i := rfl
@[simp] theorem State.setStack_rd {k : Nat} {x : Stack} {i : Nat} {d : Fd} : (s.setStack k x).rd i d = s.rd i d := rfl
@[simp] theorem State.setStack_hrd {k : Nat} {x : Stack} {d : Fd} : (s.setStack k x).hrd d = s.hrd d := rfl
@[simp] theorem State.setStack_reg {k : Nat} {x : Stack} {i j : Nat} : (s.setStack k x).reg i j = s.reg i j := rfl
@[simp] theorem State.updStack_tile {k : Nat} {f : Stack → Stack} {i : Nat} : (s.updStack k f).tile i = s.tile i := rfl
@[simp] theorem State.updStack_node {k : Nat} {f : Stack → Stack} {i : Nat} : (s.updStack k f).node i = s.node i := rfl
@[simp] theorem State.updStack_fn {k : Nat} {f : Stack → Stack} {i : Nat} : (s.updStack k f).fn i = s.fn i := rfl
@[simp] theorem State.updStack_port {k : Nat} {f : Stack → Stack} {i : Nat} : (s.updStack k f).port i = s.port i := rfl
@[simp] theorem State.updStack_part {k : Nat} {f : Stack → Stack} {i : Nat} : (s.updStack k f).part i = s.part i := rfl
@[simp] theorem State.updStack_rd {k : Nat} {f : Stack → Stack} {i : Nat} {d : Fd} : (s.updStack k f).rd i d = s.rd i d := rfl
@[simp] theorem State.updStack_hrd {k : Nat} {f : Stack → Stack} {d : Fd} : (s.updStack k f).hrd d = s.hrd d := rfl
@[simp] theorem State.updStack_reg {k : Nat} {f : Stack → Stack} {i j : Nat} : (s.updStack k f).reg i j = s.reg i j := rfl
@[simp] theorem State.updHub_tile {f : Hub → Hub} {i : Nat} : (s.updHub f).tile i = s.tile i := rfl
@[simp] theorem State.updHub_node {f : Hub → Hub} {i : Nat} : (s.updHub f).node i = s.node i := rfl
@[simp] theorem State.updHub_stack {f : Hub → Hub} {i : Nat} : (s.updHub f).stack i = s.stack i := rfl
@[simp] theorem State.updHub_fn {f : Hub → Hub} {i : Nat} : (s.updHub f).fn i = s.fn i := rfl
@[simp] theorem State.updHub_port {f : Hub → Hub} {i : Nat} : (s.updHub f).port i = s.port i := rfl
@[simp] theorem State.updHub_part {f : Hub → Hub} {i : Nat} : (s.updHub f).part i = s.part i := rfl
@[simp] theorem State.updHub_rd {f : Hub → Hub} {i : Nat} {d : Fd} : (s.updHub f).rd i d = s.rd i d := rfl
@[simp] theorem State.updHub_hrd {f : Hub → Hub} {d : Fd} : (s.updHub f).hrd d = s.hrd d := rfl
@[simp] theorem State.updHub_reg {f : Hub → Hub} {i j : Nat} : (s.updHub f).reg i j = s.reg i j := rfl
@[simp] theorem State.updFn_tile {f : Nat} {g : Fn → Fn} {i : Nat} : (s.updFn f g).tile i = s.tile i := rfl
@[simp] theorem State.updFn_node {f : Nat} {g : Fn → Fn} {i : Nat} : (s.updFn f g).node i = s.node i := rfl
@[simp] theorem State.updFn_stack {f : Nat} {g : Fn → Fn} {i : Nat} : (s.updFn f g).stack i = s.stack i := rfl
@[simp] theorem State.updFn_port {f : Nat} {g : Fn → Fn} {i : Nat} : (s.updFn f g).port i = s.port i := rfl
@[simp] theorem State.updFn_part {f : Nat} {g : Fn → Fn} {i : Nat} : (s.updFn f g).part i = s.part i := rfl
@[simp] theorem State.updFn_rd {f : Nat} {g : Fn → Fn} {i : Nat} {d : Fd} : (s.updFn f g).rd i d = s.rd i d := rfl
@[simp] theorem State.updFn_hrd {f : Nat} {g : Fn → Fn} {d : Fd} : (s.updFn f g).hrd d = s.hrd d := rfl
@[simp] theorem State.updFn_reg {f : Nat} {g : Fn → Fn} {i j : Nat} : (s.updFn f g).reg i j = s.reg i j := rfl
@[simp] theorem State.updPort_tile {p : Nat} {g : Port → Port} {i : Nat} : (s.updPort p g).tile i = s.tile i := rfl
@[simp] theorem State.updPort_node {p : Nat} {g : Port → Port} {i : Nat} : (s.updPort p g).node i = s.node i := rfl
@[simp] theorem State.updPort_stack {p : Nat} {g : Port → Port} {i : Nat} : (s.updPort p g).stack i = s.stack i := rfl
@[simp] theorem State.updPort_fn {p : Nat} {g : Port → Port} {i : Nat} : (s.updPort p g).fn i = s.fn i := rfl
@[simp] theorem State.updPort_part {p : Nat} {g : Port → Port} {i : Nat} : (s.updPort p g).part i = s.part i := rfl
@[simp] theorem State.updPort_rd {p : Nat} {g : Port → Port} {i : Nat} {d : Fd} : (s.updPort p g).rd i d = s.rd i d := rfl
@[simp] theorem State.updPort_hrd {p : Nat} {g : Port → Port} {d : Fd} : (s.updPort p g).hrd d = s.hrd d := rfl
@[simp] theorem State.updPort_reg {p : Nat} {g : Port → Port} {i j : Nat} : (s.updPort p g).reg i j = s.reg i j := rfl
@[simp] theorem State.updPart_tile {p : Nat} {g : Part → Part} {i : Nat} : (s.updPart p g).tile i = s.tile i := rfl
@[simp] theorem State.updPart_node {p : Nat} {g : Part → Part} {i : Nat} : (s.updPart p g).node i = s.node i := rfl
@[simp] theorem State.updPart_stack {p : Nat} {g : Part → Part} {i : Nat} : (s.updPart p g).stack i = s.stack i := rfl
@[simp] theorem State.updPart_fn {p : Nat} {g : Part → Part} {i : Nat} : (s.updPart p g).fn i = s.fn i := rfl
@[simp] theorem State.updPart_port {p : Nat} {g : Part → Part} {i : Nat} : (s.updPart p g).port i = s.port i := rfl
@[simp] theorem State.updPart_rd {p : Nat} {g : Part → Part} {i : Nat} {d : Fd} : (s.updPart p g).rd i d = s.rd i d := rfl
@[simp] theorem State.updPart_hrd {p : Nat} {g : Part → Part} {d : Fd} : (s.updPart p g).hrd d = s.hrd d := rfl
@[simp] theorem State.updPart_reg {p : Nat} {g : Part → Part} {i j : Nat} : (s.updPart p g).reg i j = s.reg i j := rfl
@[simp] theorem State.setReg_tile {p off : Nat} {v : W32} {i : Nat} : (s.setReg p off v).tile i = s.tile i := rfl
@[simp] theorem State.setReg_node {p off : Nat} {v : W32} {i : Nat} : (s.setReg p off v).node i = s.node i := rfl
@[simp] theorem State.setReg_stack {p off : Nat} {v : W32} {i : Nat} : (s.setReg p off v).stack i = s.stack i := rfl
@[simp] theorem State.setReg_fn {p off : Nat} {v : W32} {i : Nat} : (s.setReg p off v).fn i = s.fn i := rfl
@[simp] theorem State.setReg_port {p off : Nat} {v : W32} {i : Nat} : (s.setReg p off v).port i = s.port i := rfl
@[simp] theorem State.setReg_part {p off : Nat} {v : W32} {i : Nat} : (s.setReg p off v).part i = s.part i := rfl
@[simp] theorem State.wr_tile {p v : Nat} {f : Fd} {i : Nat} : (s.wr p f v).tile i = s.tile i := rfl
@[simp] theorem State.wr_node {p v : Nat} {f : Fd} {i : Nat} : (s.wr p f v).node i = s.node i := rfl
@[simp] theorem State.wr_stack {p v : Nat} {f : Fd} {i : Nat} : (s.wr p f v).stack i = s.stack i := rfl
@[simp] theorem State.wr_fn {p v : Nat} {f : Fd} {i : Nat} : (s.wr p f v).fn i = s.fn i := rfl
@[simp] theorem State.wr_port {p v : Nat} {f : Fd} {i : Nat} : (s.wr p f v).port i = s.port i := rfl
@[simp] theorem State.wr_part {p v : Nat} {f : Fd} {i : Nat} : (s.wr p f v).part i = s.part i := rfl
@[simp] theorem State.hwr_tile {v : Nat} {f : Fd} {i : Nat} : (s.hwr f v).tile i = s.tile i := rfl
@[simp] theorem State.hwr_node {v : Nat} {f : Fd} {i : Nat} : (s.hwr f v).node i = s.node i := rfl
@[simp] theorem State.hwr_stack {v : Nat} {f : Fd} {i : Nat} : (s.hwr f v).stack i = s.stack i := rfl
@[simp] theorem State.hwr_fn {v : Nat} {f : Fd} {i : Nat} : (s.hwr f v).fn i = s.fn i := rfl
@[simp] theorem State.hwr_port {v : Nat} {f : Fd} {i : Nat} : (s.hwr f v).port i = s.port i := rfl
@[simp] theorem State.hwr_part {v : Nat} {f : Fd} {i : Nat} : (s.hwr f v).part i = s.part i := rfl
@[simp] theorem State.inc_tile {p : Nat} {f : Fd} {i : Nat} : (s.inc p f).tile i = s.tile i := rfl
@[simp] theorem State.inc_node {p : Nat} {f : Fd} {i : Nat} : (s.inc p f).node i = s.node i := rfl
@[simp] theorem State.inc_stack {p : Nat} {f : Fd} {i : Nat} : (s.inc p f).stack i = s.stack i := rfl
@[simp] theorem State.inc_fn {p : Nat} {f : Fd} {i : Nat} : (s.inc p f).fn i = s.fn i := rfl
@[simp] theorem State.inc_port {p : Nat} {f : Fd} {i : Nat} : (s.inc p f).port i = s.port i := rfl
@[simp] theorem State.inc_part {p : Nat} {f : Fd} {i : Nat} : (s.inc p f).part i = s.part i := rfl
@[simp] theorem State.dec_tile {p : Nat} {f : Fd} {i : Nat} : (s.dec p f).tile i = s.tile i := rfl
@[simp] theorem State.dec_node {p : Nat} {f : Fd} {i : Nat} : (s.dec p f).node i = s.node i := rfl
@[simp] theorem State.dec_stack {p : Nat} {f : Fd} {i : Nat} : (s.dec p f).stack i = s.stack i := rfl
@[simp] theorem State.dec_fn {p : Nat} {f : Fd} {i : Nat} : (s.dec p f).fn i = s.fn i := rfl
@[simp] theorem State.dec_port {p : Nat} {f : Fd} {i : Nat} : (s.dec p f).port i = s.port i := rfl
@[simp] theorem State.dec_part {p : Nat} {f : Fd} {i : Nat} : (s.dec p f).part i = s.part i := rfl
@[simp] theorem State.clearPlace_tile {p : Nat} {i : Nat} : (s.clearPlace p).tile i = s.tile i := rfl
@[simp] theorem State.clearPlace_node {p : Nat} {i : Nat} : (s.clearPlace p).node i = s.node i := rfl
@[simp] theorem State.clearPlace_stack {p : Nat} {i : Nat} : (s.clearPlace p).stack i = s.stack i := rfl
@[simp] theorem State.clearPlace_fn {p : Nat} {i : Nat} : (s.clearPlace p).fn i = s.fn i := rfl
@[simp] theorem State.clearPlace_port {p : Nat} {i : Nat} : (s.clearPlace p).port i = s.port i := rfl
@[simp] theorem State.clearPlace_part {p : Nat} {i : Nat} : (s.clearPlace p).part i = s.part i := rfl
@[simp] theorem State.emit_tile {o : Out} {i : Nat} : (s.emit o).tile i = s.tile i := rfl
@[simp] theorem State.emit_node {o : Out} {i : Nat} : (s.emit o).node i = s.node i := rfl
@[simp] theorem State.emit_stack {o : Out} {i : Nat} : (s.emit o).stack i = s.stack i := rfl
@[simp] theorem State.emit_fn {o : Out} {i : Nat} : (s.emit o).fn i = s.fn i := rfl
@[simp] theorem State.emit_port {o : Out} {i : Nat} : (s.emit o).port i = s.port i := rfl
@[simp] theorem State.emit_part {o : Out} {i : Nat} : (s.emit o).part i = s.part i := rfl
@[simp] theorem State.emit_rd {o : Out} {i : Nat} {d : Fd} : (s.emit o).rd i d = s.rd i d := rfl
@[simp] theorem State.emit_hrd {o : Out} {d : Fd} : (s.emit o).hrd d = s.hrd d := rfl
@[simp] theorem State.emit_reg {o : Out} {i j : Nat} : (s.emit o).reg i j = s.reg i j := rfl
@[simp] theorem State.report_tile {n : Nat} {m : CtlMsg} {i : Nat} : (s.report n m).tile i = s.tile i := rfl
@[simp] theorem State.report_node {n : Nat} {m : CtlMsg} {i : Nat} : (s.report n m).node i = s.node i := rfl
@[simp] theorem State.report_stack {n : Nat} {m : CtlMsg} {i : Nat} : (s.report n m).stack i = s.stack i := rfl
@[simp] theorem State.report_fn {n : Nat} {m : CtlMsg} {i : Nat} : (s.report n m).fn i = s.fn i := rfl
@[simp] theorem State.report_port {n : Nat} {m : CtlMsg} {i : Nat} : (s.report n m).port i = s.port i := rfl
@[simp] theorem State.report_part {n : Nat} {m : CtlMsg} {i : Nat} : (s.report n m).part i = s.part i := rfl
@[simp] theorem State.report_rd {n : Nat} {m : CtlMsg} {i : Nat} {d : Fd} : (s.report n m).rd i d = s.rd i d := rfl
@[simp] theorem State.report_hrd {n : Nat} {m : CtlMsg} {d : Fd} : (s.report n m).hrd d = s.hrd d := rfl
@[simp] theorem State.report_reg {n : Nat} {m : CtlMsg} {i j : Nat} : (s.report n m).reg i j = s.reg i j := rfl
@[simp] theorem State.drawn_tile {i : Nat} : (s.drawn).tile i = s.tile i := rfl
@[simp] theorem State.drawn_node {i : Nat} : (s.drawn).node i = s.node i := rfl
@[simp] theorem State.drawn_stack {i : Nat} : (s.drawn).stack i = s.stack i := rfl
@[simp] theorem State.drawn_fn {i : Nat} : (s.drawn).fn i = s.fn i := rfl
@[simp] theorem State.drawn_port {i : Nat} : (s.drawn).port i = s.port i := rfl
@[simp] theorem State.drawn_part {i : Nat} : (s.drawn).part i = s.part i := rfl
@[simp] theorem State.drawn_rd {i : Nat} {d : Fd} : (s.drawn).rd i d = s.rd i d := rfl
@[simp] theorem State.drawn_hrd {d : Fd} : (s.drawn).hrd d = s.hrd d := rfl
@[simp] theorem State.drawn_reg {i j : Nat} : (s.drawn).reg i j = s.reg i j := rfl
@[simp] theorem State.till_tile {t : Nat} {i : Nat} : (s.till t).tile i = s.tile i := rfl
@[simp] theorem State.till_node {t : Nat} {i : Nat} : (s.till t).node i = s.node i := rfl
@[simp] theorem State.till_stack {t : Nat} {i : Nat} : (s.till t).stack i = s.stack i := rfl
@[simp] theorem State.till_fn {t : Nat} {i : Nat} : (s.till t).fn i = s.fn i := rfl
@[simp] theorem State.till_port {t : Nat} {i : Nat} : (s.till t).port i = s.port i := rfl
@[simp] theorem State.till_part {t : Nat} {i : Nat} : (s.till t).part i = s.part i := rfl
@[simp] theorem State.till_rd {t : Nat} {i : Nat} {d : Fd} : (s.till t).rd i d = s.rd i d := rfl
@[simp] theorem State.till_hrd {t : Nat} {d : Fd} : (s.till t).hrd d = s.hrd d := rfl
@[simp] theorem State.till_reg {t : Nat} {i j : Nat} : (s.till t).reg i j = s.reg i j := rfl

theorem State.tile_setTile_same {t : Nat} {x : Tile} (h : Table.wf {} s.tiles = true) : (s.setTile t x).tile t = x := Table.get_put_same h _ _
theorem State.tile_setTile_ne {t u : Nat} {x : Tile} (h : t ≠ u) : (s.setTile t x).tile u = s.tile u := Table.get_put_ne h _
theorem State.tile_updTile_same {t : Nat} {f : Tile → Tile} (h : Table.wf {} s.tiles = true) : (s.updTile t f).tile t = f (s.tile t) :=
  Table.get_put_same h _ _
theorem State.tile_updTile_ne {t u : Nat} {f : Tile → Tile} (h : t ≠ u) : (s.updTile t f).tile u = s.tile u := Table.get_put_ne h _
theorem State.node_updNode_same {n : Nat} {f : Node → Node} (h : Table.wf {} s.nodes = true) : (s.updNode n f).node n = f (s.node n) :=
  Table.get_put_same h _ _
theorem State.node_updNode_ne {n m : Nat} {f : Node → Node} (h : n ≠ m) : (s.updNode n f).node m = s.node m := Table.get_put_ne h _
theorem State.fn_updFn_same {n : Nat} {f : Fn → Fn} (h : Table.wf {} s.fns = true) : (s.updFn n f).fn n = f (s.fn n) := Table.get_put_same h _ _
theorem State.fn_updFn_ne {n m : Nat} {f : Fn → Fn} (h : n ≠ m) : (s.updFn n f).fn m = s.fn m := Table.get_put_ne h _
theorem State.port_updPort_same {n : Nat} {f : Port → Port} (h : Table.wf {} s.ports = true) : (s.updPort n f).port n = f (s.port n) :=
  Table.get_put_same h _ _
theorem State.port_updPort_ne {n m : Nat} {f : Port → Port} (h : n ≠ m) : (s.updPort n f).port m = s.port m := Table.get_put_ne h _
theorem State.part_updPart_same {n : Nat} {f : Part → Part} (h : Table.wf {} s.parts = true) : (s.updPart n f).part n = f (s.part n) :=
  Table.get_put_same h _ _
theorem State.part_updPart_ne {n m : Nat} {f : Part → Part} (h : n ≠ m) : (s.updPart n f).part m = s.part m := Table.get_put_ne h _
theorem State.stack_updStack_same {n : Nat} {f : Stack → Stack} (h : Table.wf {} s.snodes = true) : (s.updStack n f).stack n = f (s.stack n) :=
  Table.get_put_same h _ _
theorem State.stack_updStack_ne {n m : Nat} {f : Stack → Stack} (h : n ≠ m) : (s.updStack n f).stack m = s.stack m := Table.get_put_ne h _

theorem State.setTile_setTile {t : Nat} {x y : Tile} (h : Table.wf {} s.tiles = true) : (s.setTile t x).setTile t y = s.setTile t y := by
  unfold State.setTile; simp only [Table.put_put h]
theorem State.setTile_tile {t : Nat} (h : Table.wf {} s.tiles = true) : s.setTile t (s.tile t) = s := by
  unfold State.setTile State.tile; rw [Table.put_get h]
theorem State.setTile_tiles_wf {t : Nat} {x : Tile} (h : Table.wf {} s.tiles = true) : Table.wf {} (s.setTile t x).tiles = true := Table.put_wf h _ _
theorem State.setStack_setStack {k : Nat} {x y : Stack} (h : Table.wf {} s.snodes = true) : (s.setStack k x).setStack k y = s.setStack k y := by
  unfold State.setStack; simp only [Table.put_put h]
theorem State.setStack_stack {k : Nat} (h : Table.wf {} s.snodes = true) : s.setStack k (s.stack k) = s := by
  unfold State.setStack State.stack; rw [Table.put_get h]
theorem State.stack_setStack_same {k : Nat} {x : Stack} (h : Table.wf {} s.snodes = true) : (s.setStack k x).stack k = x := Table.get_put_same h _ _

/-! ### Registers -/

theorem State.reg_setReg_same {p o : Nat} {v : W32} (h : Table.wf 0 s.regs = true) : (s.setReg p o v).reg p o = v := by
  unfold State.reg State.setReg
  rw [Table.get_put_same h]
  rw [BitVec.xor_assoc, BitVec.xor_self, BitVec.xor_zero]

theorem State.reg_setReg_ne {p o p' o' : Nat} {v : W32} (h : p * 2 ^ 24 + o ≠ p' * 2 ^ 24 + o') : (s.setReg p o v).reg p' o' = s.reg p' o' := by
  unfold State.reg State.setReg
  rw [Table.get_put_ne h]

end Sys2Proof.Machine
end

