-- ==== Sys2Proof/Laws/Host.lean ====
section
/-! SUPPORT. What hub firmware does with a command whose turn it is. -/

namespace Sys2Proof.Machine

variable {s : State} {f q opc : Nat} {tag : W16} {c : HostCmd}

/-- A command of no partition runs its own act. -/
theorem State.fwRun_of_turn (h : Turn f q tag opc c s) (act : HostCmd → State) : s.fwRun f q tag opc false act = act c := by
  unfold State.fwRun
  simp [h.cmd, h.slot]

/-- A command of a formed partition runs its own act. -/
theorem State.fwRun_of_partTurn (h : PartTurn f q tag opc c s) (act : HostCmd → State) : s.fwRun f q tag opc true act = act c := by
  unfold State.fwRun
  simp [h.cmd, h.part]

end Sys2Proof.Machine
end

