-- ==== Sys2Proof/Laws/Issue.lean ====
section
/-! SUPPORT. What issue does where an instruction issues. -/

namespace Sys2Proof.Machine

/-- An instruction that issues is what its own act makes of it. -/
theorem State.issueAs_of_issues {k : InsnKind} {t : Nat} {w w' : Insn} {act : Insn → Nat → State → State} {s : State} (h : Issues k t w w' s) :
    State.issueAs k t act s = act w' (s.tile t).seq.pc s := by
  unfold State.issueAs
  obtain ⟨h1, h2, h3, h4, h5, h6, h7, h8⟩ := h
  subst h2
  dsimp only
  rw [h3]
  simp only [h1, h4, h5, h6, h7, h8]
  simp

/-- A tile whose sequencer does not run is left as it is. -/
theorem State.issueAs_of_idle {k : InsnKind} {t : Nat} {act : Insn → Nat → State → State} {s : State} (h : (s.tile t).seq.st ≠ .run) :
    State.issueAs k t act s = s := by
  unfold State.issueAs
  simp [h]

/-- A word read with an uncorrectable error raises IFETCH_POISON. -/
theorem State.issueAs_of_bad {k : InsnKind} {t : Nat} {act : Insn → Nat → State → State} {s : State} (h : (s.tile t).seq.st = .run)
    (hb : (List.range 4).any (fun i => (s.tile t).seq.imemBad.contains (4 * (s.tile t).seq.pc + i)) = true) :
    State.issueAs k t act s =
      s.raise t exIfetch (fld ((s.tile t).seq.imem.get 0 (s.tile t).seq.pc) 127 125) (s.tile t).seq.pc := by
  unfold State.issueAs
  dsimp only
  rw [hb]
  simp [h]

end Sys2Proof.Machine
end

