-- ==== Sys2Proof/Laws/Keeps.lean ====
section
/-! SUPPORT. What every primitive update keeps. -/

namespace Sys2Proof.Machine

variable {a s : State}

theorem Keeps.refl (s : State) : Keeps s s := ⟨rfl, Nat.le_refl _, Nat.le_refl _, List.prefix_rfl, id, List.prefix_rfl, List.prefix_rfl⟩

theorem Keeps.trans {r : State} (h : Keeps a r) (g : Keeps r s) : Keeps a s :=
  ⟨g.pending.trans h.pending, h.now.trans g.now, h.freeCtr.trans g.freeCtr, h.out.trans g.out, fun c => g.canon (h.canon c), h.permHub.trans g.permHub,
    h.permEast.trans g.permEast⟩

/-- A step in which only tables changed, each canonically. -/
theorem Keeps.tables {t : State} (h : Keeps a s) (hp : t.pending = s.pending) (hn : s.now ≤ t.now) (hf : s.freeCtr ≤ t.freeCtr) (ho : s.out <+: t.out)
    (hh : t.hub.bbx = s.hub.bbx) (hc : Canon s → Canon t) : Keeps a t :=
  h.trans ⟨hp, hn, hf, ho, hc, by rw [hh], by rw [hh]⟩

theorem State.setTile_keeps (h : Keeps a s) {t : Nat} {x : Tile} : Keeps a (s.setTile t x) :=
  h.tables rfl (Nat.le_refl _) (Nat.le_refl _) List.prefix_rfl rfl fun ⟨c1, c2, c3⟩ => ⟨c1, Table.put_wf c2 _ _, c3⟩
theorem State.updTile_keeps (h : Keeps a s) {t : Nat} {f : Tile → Tile} : Keeps a (s.updTile t f) := State.setTile_keeps h
theorem State.updNode_keeps (h : Keeps a s) {n : Nat} {f : Node → Node} : Keeps a (s.updNode n f) :=
  h.tables rfl (Nat.le_refl _) (Nat.le_refl _) List.prefix_rfl rfl fun ⟨c1, c2, c3, c4, c5⟩ => ⟨c1, c2, c3, Table.upd_wf c4 _ _, c5⟩
theorem State.setStack_keeps (h : Keeps a s) {k : Nat} {x : Stack} : Keeps a (s.setStack k x) :=
  h.tables rfl (Nat.le_refl _) (Nat.le_refl _) List.prefix_rfl rfl fun ⟨c1, c2, c3, c4⟩ => ⟨c1, c2, Table.put_wf c3 _ _, c4⟩
theorem State.updStack_keeps (h : Keeps a s) {k : Nat} {f : Stack → Stack} : Keeps a (s.updStack k f) := State.setStack_keeps h
theorem State.updFn_keeps (h : Keeps a s) {n : Nat} {f : Fn → Fn} : Keeps a (s.updFn n f) :=
  h.tables rfl (Nat.le_refl _) (Nat.le_refl _) List.prefix_rfl rfl fun ⟨c1, c2, c3, c4, c5, c6⟩ => ⟨c1, c2, c3, c4, Table.upd_wf c5 _ _, c6⟩
theorem State.updPort_keeps (h : Keeps a s) {n : Nat} {f : Port → Port} : Keeps a (s.updPort n f) :=
  h.tables rfl (Nat.le_refl _) (Nat.le_refl _) List.prefix_rfl rfl fun ⟨c1, c2, c3, c4, c5, c6, c7⟩ => ⟨c1, c2, c3, c4, c5, Table.upd_wf c6 _ _, c7⟩
theorem State.updPart_keeps (h : Keeps a s) {n : Nat} {f : Part → Part} : Keeps a (s.updPart n f) :=
  h.tables rfl (Nat.le_refl _) (Nat.le_refl _) List.prefix_rfl rfl fun ⟨c1, c2, c3, c4, c5, c6, c7⟩ => ⟨c1, c2, c3, c4, c5, c6, Table.upd_wf c7 _ _⟩
theorem State.emit_keeps (h : Keeps a s) {o : Out} : Keeps a (s.emit o) :=
  h.tables rfl (Nat.le_refl _) (Nat.le_refl _) (List.prefix_append _ _) rfl id
theorem State.report_keeps (h : Keeps a s) {n : Nat} {m : CtlMsg} : Keeps a (s.report n m) :=
  h.tables rfl (Nat.le_refl _) (Nat.le_refl _) List.prefix_rfl rfl id
theorem State.ctlq_keeps (h : Keeps a s) {l : List CtlPkt} : Keeps a { s with ctlq := l } :=
  h.tables rfl (Nat.le_refl _) (Nat.le_refl _) List.prefix_rfl rfl id
theorem State.drawn_keeps (h : Keeps a s) : Keeps a s.drawn :=
  h.tables rfl (Nat.le_refl _) (Nat.le_add_right _ _) List.prefix_rfl rfl id
theorem State.till_keeps (h : Keeps a s) {t : Nat} : Keeps a (s.till t) :=
  h.tables rfl (Nat.le_max_left _ _) (Nat.le_refl _) List.prefix_rfl rfl id
theorem State.regs_keeps (h : Keeps a s) {r : Table W32} (hr : Table.wf 0 s.regs = true → Table.wf 0 r = true) : Keeps a { s with regs := r } :=
  h.tables rfl (Nat.le_refl _) (Nat.le_refl _) List.prefix_rfl rfl fun ⟨c1, c2⟩ => ⟨hr c1, c2⟩
theorem State.setReg_keeps (h : Keeps a s) {p o : Nat} {v : W32} : Keeps a (s.setReg p o v) := State.regs_keeps h fun c => Table.put_wf c _ _
theorem State.wr_keeps (h : Keeps a s) {p v : Nat} {f : Fd} : Keeps a (s.wr p f v) := State.setReg_keeps h
theorem State.hwr_keeps (h : Keeps a s) {v : Nat} {f : Fd} : Keeps a (s.hwr f v) := State.setReg_keeps h
theorem State.inc_keeps (h : Keeps a s) {p : Nat} {f : Fd} : Keeps a (s.inc p f) := State.setReg_keeps h
theorem State.dec_keeps (h : Keeps a s) {p : Nat} {f : Fd} : Keeps a (s.dec p f) := State.setReg_keeps h
theorem State.sat_keeps (h : Keeps a s) {p : Nat} {f : Fd} : Keeps a (s.sat p f) := by
  unfold State.sat
  split
  · exact State.wr_keeps h
  · exact h
theorem State.clearPlace_keeps (h : Keeps a s) {p : Nat} : Keeps a (s.clearPlace p) := State.regs_keeps h fun c => Table.filter_wf _ c

/-- A change of the hub that leaves the permanent records. -/
theorem State.updHub_keeps (h : Keeps a s) {f : Hub → Hub} (h1 : s.hub.bbx.hub.perm <+: (f s.hub).bbx.hub.perm)
    (h2 : s.hub.bbx.east.perm <+: (f s.hub).bbx.east.perm) : Keeps a (s.updHub f) :=
  h.trans ⟨rfl, Nat.le_refl _, Nat.le_refl _, List.prefix_rfl, id, h1, h2⟩
theorem State.hubctl_keeps (h : Keeps a s) {g : Hub} {l : List CtlPkt} (h1 : s.hub.bbx.hub.perm <+: g.bbx.hub.perm)
    (h2 : s.hub.bbx.east.perm <+: g.bbx.east.perm) : Keeps a { s with ctlq := l, hub := g } :=
  h.trans ⟨rfl, Nat.le_refl _, Nat.le_refl _, List.prefix_rfl, id, h1, h2⟩
theorem State.hub_keeps (h : Keeps a s) {g : Hub} (h1 : s.hub.bbx.hub.perm <+: g.bbx.hub.perm)
    (h2 : s.hub.bbx.east.perm <+: g.bbx.east.perm) : Keeps a { s with hub := g } :=
  h.trans ⟨rfl, Nat.le_refl _, Nat.le_refl _, List.prefix_rfl, id, h1, h2⟩
theorem State.nodes_keeps (h : Keeps a s) {f : Nat → Node → Node} : Keeps a { s with nodes := Table.mapListed {} s.nodes f } :=
  h.tables rfl (Nat.le_refl _) (Nat.le_refl _) List.prefix_rfl rfl fun ⟨c1, c2, c3, _, c5⟩ => ⟨c1, c2, c3, Table.mapListed_wf _ _, c5⟩

/-- The next state of a meaning keeps what the state it names keeps. -/
theorem next_keeps {x r : State} (he : (Host.Outcome.next x : Result) = .next r) (h : Keeps a x) : Keeps a r := by
  injection he with he
  rw [← he]
  exact h

/-- A choice of two steps that each keep. -/
theorem ite_keeps {c : Prop} [Decidable c] {x y : State} (h1 : Keeps a x) (h2 : Keeps a y) : Keeps a (if c then x else y) := by
  split
  · exact h1
  · exact h2
theorem ite_keeps_fst {c : Prop} [Decidable c] {β : Type} {x y : State × β} (h1 : Keeps a x.1) (h2 : Keeps a y.1) : Keeps a (if c then x else y).1 := by
  split
  · exact h1
  · exact h2

/-- A fold of steps that each keep. -/
theorem foldl_keeps {β : Type} {f : State → β → State} (hf : ∀ s x, Keeps a s → Keeps a (f s x)) :
    ∀ (l : List β) (s : State), Keeps a s → Keeps a (l.foldl f s)
  | [], _, h => h
  | x :: l, s, h => foldl_keeps hf l (f s x) (hf s x h)

/-- A fold that carries something beside the state. -/
theorem foldl_keeps_fst {β γ : Type} {f : State × γ → β → State × γ} (hf : ∀ p x, Keeps a p.1 → Keeps a (f p x).1) :
    ∀ (l : List β) (p : State × γ), Keeps a p.1 → Keeps a (l.foldl f p).1
  | [], _, h => h
  | x :: l, p, h => foldl_keeps_fst hf l (f p x) (hf p x h)

/-- Staging a record touches neither copy of the MRAM. -/
theorem Bbx.stage_hub {b : Bbx} {r : BbRec} : (b.stage r).1.hub = b.hub := by
  unfold Bbx.stage
  repeat' split
  all_goals rfl
theorem Bbx.stage_east {b : Bbx} {r : BbRec} : (b.stage r).1.east = b.east := by
  unfold Bbx.stage
  repeat' split
  all_goals rfl
theorem Mram.record_perm {m : Mram} {r : BbRec} {p : Bool} {o : Option Nat} : m.perm <+: (m.record r p o).perm := by
  unfold Mram.record
  repeat' split
  all_goals first | exact List.prefix_rfl | exact List.prefix_append _ _

end Sys2Proof.Machine
end

