-- ==== Sys2Proof/Laws/KeepsTile.lean ====
section
/-! SUPPORT. What the operations and commands of tiles, the array, the vector engine and the scratchpad keep. -/

set_option linter.all false
set_option maxRecDepth 8000

namespace Sys2Proof.Machine

/-! ### TileOps -/

theorem State.raise_keeps {a0 s : State} (h : Keeps a0 s) {t : Nat} {code : BitVec 4} {unit pc : Nat} : Keeps a0 (State.raise s t code unit pc) := by
  unfold State.raise
  try dsimp only
  with_reducible repeat' first
      | assumption | apply State.setTile_keeps | apply State.report_keeps | apply State.drawn_keeps | refine ite_keeps ?_ ?_

theorem State.bankFault_keeps {a0 s : State} (h : Keeps a0 s) {t : Nat} {f : Nat × Nat} {unit pc : Nat} : Keeps a0 (State.bankFault s t f unit pc) := by
  unfold State.bankFault
  try dsimp only
  with_reducible repeat' first
      | assumption | apply State.updTile_keeps | apply State.raise_keeps | (intro _; try dsimp only)

theorem State.tileWrite_keeps {a0 s : State} (h : Keeps a0 s) {t unit pc off : Nat} {bs : List Byte} {poison : Bool} : Keeps a0 (State.tileWrite s t unit pc off bs poison) := by
  unfold State.tileWrite
  try dsimp only
  with_reducible repeat' first
      | assumption | apply State.updTile_keeps | apply State.bankFault_keeps | (intro _; try dsimp only) | split

theorem State.closeResults_keeps {a0 s : State} (h : Keeps a0 s) {t : Nat} : ∀ x, Keeps a0 (State.closeResults s t x)
  | [] => by
    unfold State.closeResults
    try dsimp only
    with_reducible repeat' first
      | assumption | apply State.tileWrite_keeps | apply State.closeResults_keeps | refine ite_keeps ?_ ?_ | split
  | y :: l => by
    unfold State.closeResults
    try dsimp only
    with_reducible repeat' first
      | assumption | apply State.tileWrite_keeps | apply State.closeResults_keeps | refine ite_keeps ?_ ?_ | split

theorem State.settleTile_keeps {a0 s : State} (h : Keeps a0 s) {t : Nat} : Keeps a0 (State.settleTile s t) := by
  unfold State.settleTile
  try dsimp only
  with_reducible repeat' first
      | assumption | apply State.setTile_keeps | apply State.closeResults_keeps | apply State.settle_keeps

theorem State.tileBump_keeps {a0 s : State} (h : Keeps a0 s) {t c k : Nat} : Keeps a0 (State.tileBump s t c k) := by
  unfold State.tileBump
  try dsimp only
  with_reducible repeat' first
      | assumption | apply State.updTile_keeps | apply State.settleTile_keeps | (intro _; try dsimp only)

theorem State.advance_keeps {a0 s : State} (h : Keeps a0 s) {t pc : Nat} : Keeps a0 (State.advance s t pc) := by
  unfold State.advance
  try dsimp only
  with_reducible repeat' first
      | assumption | apply State.setTile_keeps | apply State.raise_keeps | refine ite_keeps ?_ ?_

theorem State.holdAt_keeps {a0 s : State} (h : Keeps a0 s) {t pc : Nat} {h : HoldOp} : Keeps a0 (State.holdAt s t pc h) := by
  unfold State.holdAt
  try dsimp only
  with_reducible repeat' first
      | assumption | apply State.updTile_keeps | (intro _; try dsimp only)

theorem State.issueAs_keeps {a0 s : State} (h : Keeps a0 s) {k : InsnKind} {t : Nat} {act : Insn → Nat → State → State} (hact : ∀ x0 x1 x2, Keeps a0 x2 → Keeps a0 (act x0 x1 x2)) : Keeps a0 (State.issueAs k t act s) := by
  unfold State.issueAs
  try dsimp only
  with_reducible repeat' first
      | assumption | apply hact | apply State.raise_keeps | apply State.advance_keeps | apply State.holdAt_keeps | refine ite_keeps ?_ ?_
      | (intro _; try dsimp only) | split

theorem State.arrive_keeps {a0 s : State} (h : Keeps a0 s) {t ch : Nat} {a : Arrival} : Keeps a0 (State.arrive s t ch a) := by
  unfold State.arrive
  try dsimp only
  with_reducible repeat' first
      | assumption | apply State.updTile_keeps | (intro _; try dsimp only)

theorem State.syncAdd_keeps {a0 s : State} (h : Keeps a0 s) {n ch : Nat} {l : List (Member × Arrival)} : Keeps a0 (State.syncAdd s n ch l) := by
  unfold State.syncAdd
  try dsimp only
  with_reducible repeat' first
      | assumption | apply State.updNode_keeps | (intro _; try dsimp only)

theorem State.syncClear_keeps {a0 s : State} (h : Keeps a0 s) {n ch : Nat} : Keeps a0 (State.syncClear s n ch) := by
  unfold State.syncClear
  try dsimp only
  with_reducible repeat' first
      | assumption | apply State.updNode_keeps | (intro _; try dsimp only)

theorem State.recall_keeps {a0 s : State} (h : Keeps a0 s) {n ch t : Nat} : Keeps a0 (State.recall s n ch t) := by
  unfold State.recall
  try dsimp only
  with_reducible repeat' first
      | assumption | apply State.updNode_keeps | apply State.syncAdd_keeps | apply State.syncClear_keeps | refine foldl_keeps ?_ _ _ ?_
      | refine foldl_keeps_fst ?_ _ _ ?_ | refine ite_keeps ?_ ?_ | (intro _; try dsimp only)

theorem State.clearArrivals_keeps {a0 s : State} (h : Keeps a0 s) {t : Nat} : Keeps a0 (State.clearArrivals s t) := by
  unfold State.clearArrivals
  try dsimp only
  with_reducible repeat' first
      | assumption | exact List.prefix_rfl | apply State.recall_keeps | refine foldl_keeps ?_ _ _ ?_ | refine foldl_keeps_fst ?_ _ _ ?_
      | refine ite_keeps ?_ ?_ | refine ite_keeps_fst ?_ ?_ | (intro _; try dsimp only) | split | dsimp only
      | (simp only [Bbx.stage_hub, Bbx.stage_east]; exact List.prefix_rfl) | exact Mram.record_perm | apply State.ctlq_keeps
      | apply State.hubctl_keeps | apply State.hub_keeps | apply State.nodes_keeps

theorem State.tileReset_keeps {a0 s : State} (h : Keeps a0 s) {t : Nat} : Keeps a0 (State.tileReset s t) := by
  unfold State.tileReset
  try dsimp only
  with_reducible repeat' first
      | assumption | apply State.updTile_keeps | apply State.clearArrivals_keeps

/-! ### MxaRun -/

theorem State.mxaHead_keeps {a0 s : State} (h : Keeps a0 s) {t : Nat} : ∀ x, Keeps a0 (State.mxaHead s t x)
  | 0 => by
    unfold State.mxaHead
    try dsimp only
    with_reducible repeat' first
      | assumption | apply State.setTile_keeps | apply State.mxaHead_keeps | apply State.raise_keeps | apply State.bankFault_keeps
      | refine ite_keeps ?_ ?_ | (intro _; try dsimp only) | split
  | n + 1 => by
    unfold State.mxaHead
    try dsimp only
    with_reducible repeat' first
      | assumption | apply State.setTile_keeps | apply State.mxaHead_keeps | apply State.raise_keeps | apply State.bankFault_keeps
      | refine ite_keeps ?_ ?_ | (intro _; try dsimp only) | split

theorem State.mxaSettle_keeps {a0 s : State} (h : Keeps a0 s) {t : Nat} : Keeps a0 (State.mxaSettle s t) := by
  unfold State.mxaSettle
  try dsimp only
  with_reducible repeat' first
      | assumption | apply State.mxaHead_keeps

theorem State.guardRanges_keeps {a0 s : State} (h : Keeps a0 s) {t unit pc : Nat} {rs : List (Nat × Nat)} {f : State → State} (hf : ∀ x0, Keeps a0 x0 → Keeps a0 (f x0)) : Keeps a0 (State.guardRanges s t unit pc rs f) := by
  unfold State.guardRanges
  try dsimp only
  with_reducible repeat' first
      | assumption | apply hf | apply State.bankFault_keeps | split

/-! ### StackOps -/

theorem State.issueSeg_keeps {a0 s : State} (h : Keeps a0 s) {n : Nat} {src : Src} {tgt : Tgt} {g : Segment} {why : IssWhy} : Keeps a0 (State.issueSeg s n src tgt g why) := by
  unfold State.issueSeg
  try dsimp only
  with_reducible repeat' first
      | assumption | apply State.updNode_keeps | apply State.emit_keeps | apply State.answer_keeps | refine ite_keeps ?_ ?_
      | (intro _; try dsimp only)

theorem State.issPump_keeps {a0 s : State} (h : Keeps a0 s) {n : Nat} : Keeps a0 (State.issPump s n) := by
  unfold State.issPump
  try dsimp only
  with_reducible repeat' first
      | assumption | apply State.updNode_keeps | apply State.issueSeg_keeps | refine foldl_keeps ?_ _ _ ?_ | (intro _; try dsimp only)

theorem State.sendResult_keeps {a0 s : State} (h : Keeps a0 s) {k : Nat} {pga : Pga} {tag : W16} {bs : List Byte} : Keeps a0 (State.sendResult s k pga tag bs) := by
  unfold State.sendResult
  try dsimp only
  with_reducible repeat' first
      | assumption | apply State.updStack_keeps | apply State.issueSeg_keeps | refine ite_keeps ?_ ?_ | (intro _; try dsimp only) | split

theorem State.snCloseResults_keeps {a0 s : State} (h : Keeps a0 s) {k : Nat} : ∀ x, Keeps a0 (State.snCloseResults s k x)
  | [] => by
    unfold State.snCloseResults
    try dsimp only
    with_reducible repeat' first
      | assumption | apply State.sendResult_keeps | apply State.snCloseResults_keeps | refine ite_keeps ?_ ?_ | split
  | y :: l => by
    unfold State.snCloseResults
    try dsimp only
    with_reducible repeat' first
      | assumption | apply State.sendResult_keeps | apply State.snCloseResults_keeps | refine ite_keeps ?_ ?_ | split

theorem State.settleStack_keeps {a0 s : State} (h : Keeps a0 s) {k : Nat} : Keeps a0 (State.settleStack s k) := by
  unfold State.settleStack
  try dsimp only
  with_reducible repeat' first
      | assumption | apply State.setStack_keeps | apply State.snCloseResults_keeps | apply State.settle_keeps

/-! ### TdmaOps -/

theorem State.stepArrive_keeps {a0 s : State} (h : Keeps a0 s) {t : Nat} : Keeps a0 (State.stepArrive s t) := by
  unfold State.stepArrive
  try dsimp only
  with_reducible repeat' first
      | assumption | apply State.setTile_keeps | apply step_keeps

theorem doTtgt_keeps {a0 s : State} (h : Keeps a0 s) {t : Nat} {w : Insn} {pc : Nat} : Keeps a0 (doTtgt t w pc s) := by
  unfold doTtgt
  try dsimp only
  with_reducible repeat' first
      | assumption | apply State.updTile_keeps | apply State.advance_keeps | (intro _; try dsimp only)

theorem doRemote_keeps {a0 s : State} (h : Keeps a0 s) {op : SegOp} {t : Nat} {w : Insn} {pc : Nat} : Keeps a0 (doRemote op t w pc s) := by
  unfold doRemote
  try dsimp only
  with_reducible repeat' first
      | assumption | apply State.updTile_keeps | apply State.advance_keeps | (intro _; try dsimp only)

theorem State.pumpOne_keeps {a0 s : State} (h : Keeps a0 s) {t i : Nat} : ∀ x, Keeps a0 (State.pumpOne s t i x)
  | 0 => by
    unfold State.pumpOne
    try dsimp only
    with_reducible repeat' first
      | assumption | apply State.setTile_keeps | apply State.pumpOne_keeps | apply State.emit_keeps | refine ite_keeps ?_ ?_ | split
  | n + 1 => by
    unfold State.pumpOne
    try dsimp only
    with_reducible repeat' first
      | assumption | apply State.setTile_keeps | apply State.pumpOne_keeps | apply State.emit_keeps | refine ite_keeps ?_ ?_ | split

theorem State.pump_keeps {a0 s : State} (h : Keeps a0 s) {t : Nat} : Keeps a0 (State.pump s t) := by
  unfold State.pump
  try dsimp only
  with_reducible repeat' first
      | assumption | apply State.pumpOne_keeps | refine foldl_keeps ?_ _ _ ?_ | refine foldl_keeps_fst ?_ _ _ ?_ | (intro _; try dsimp only)

theorem State.countSource_keeps {a0 s : State} (h : Keeps a0 s) {t : Nat} {o : TdmaOp} {k : Nat} : Keeps a0 (State.countSource s t o k) := by
  unfold State.countSource
  try dsimp only
  with_reducible repeat' first
      | assumption | apply State.tileBump_keeps | refine ite_keeps ?_ ?_

theorem State.startOp_keeps {a0 s : State} (h : Keeps a0 s) {t : Nat} {o : TdmaOp} : Keeps a0 (State.startOp s t o) := by
  unfold State.startOp
  try dsimp only
  with_reducible repeat' first
      | assumption | apply State.setTile_keeps | apply State.updTile_keeps | apply State.bankFault_keeps | apply State.pump_keeps
      | apply State.countSource_keeps | refine ite_keeps ?_ ?_ | split

theorem State.land_keeps {a0 s : State} (h : Keeps a0 s) {t : Nat} {o : TdmaOp} {g : TdmaSeg} {a : Answer} : Keeps a0 (State.land s t o g a) := by
  unfold State.land
  try dsimp only
  with_reducible repeat' first
      | assumption | apply State.tileWrite_keeps | refine ite_keeps ?_ ?_ | split

theorem State.tdmaAnswer_keeps {a0 s : State} (h : Keeps a0 s) {t n : Nat} {q : W16} {a : Answer} : Keeps a0 (State.tdmaAnswer s t n q a) := by
  unfold State.tdmaAnswer
  try dsimp only
  with_reducible repeat' first
      | assumption | apply State.updTile_keeps | apply State.pump_keeps | apply State.countSource_keeps | apply State.land_keeps
      | refine ite_keeps ?_ ?_ | (intro _; try dsimp only) | split

theorem State.tdmaRetransmit_keeps {a0 s : State} (h : Keeps a0 s) {t n : Nat} {q : W16} : Keeps a0 (State.tdmaRetransmit s t n q) := by
  unfold State.tdmaRetransmit
  try dsimp only
  with_reducible repeat' first
      | assumption | apply State.setTile_keeps | apply State.updTile_keeps | apply State.emit_keeps | apply State.till_keeps | apply State.pump_keeps
      | refine ite_keeps ?_ ?_ | (intro _; try dsimp only) | split

theorem doQueued_keeps {a0 s : State} (h : Keeps a0 s) {t : Nat} {w : Insn} {pc : Nat} : Keeps a0 (doQueued t w pc s) := by
  unfold doQueued
  try dsimp only
  with_reducible repeat' first
      | assumption | apply State.updTile_keeps | apply State.advance_keeps | apply State.mxaSettle_keeps | apply doTtgt_keeps | apply doRemote_keeps
      | refine ite_keeps ?_ ?_ | (intro _; try dsimp only) | split

/-! ### SyncOps -/

theorem State.syncFromTile_keeps {a0 s : State} (h : Keeps a0 s) {n ch t : Nat} : Keeps a0 (State.syncFromTile s n ch t) := by
  unfold State.syncFromTile
  try dsimp only
  with_reducible repeat' first
      | assumption | apply State.updTile_keeps | apply State.syncAdd_keeps | refine ite_keeps ?_ ?_ | (intro _; try dsimp only) | split

theorem State.syncFromEdge_keeps {a0 s : State} (h : Keeps a0 s) {n ch e : Nat} : Keeps a0 (State.syncFromEdge s n ch e) := by
  unfold State.syncFromEdge
  try dsimp only
  with_reducible repeat' first
      | assumption | apply State.updNode_keeps | apply State.syncAdd_keeps | apply State.syncClear_keeps | refine ite_keeps ?_ ?_
      | (intro _; try dsimp only) | split

theorem State.mismatchAt_keeps {a0 s : State} (h : Keeps a0 s) {t ch : Nat} : Keeps a0 (State.mismatchAt s t ch) := by
  unfold State.mismatchAt
  try dsimp only
  with_reducible repeat' first
      | assumption | apply State.setTile_keeps | apply State.raise_keeps | refine ite_keeps ?_ ?_ | split

theorem State.deliverScan_keeps {a0 s : State} (h : Keeps a0 s) {t ch : Nat} {dv : Deliv} : Keeps a0 (State.deliverScan s t ch dv) := by
  unfold State.deliverScan
  try dsimp only
  with_reducible repeat' first
      | assumption | apply State.setTile_keeps | refine ite_keeps ?_ ?_ | split

theorem State.deliverTo_keeps {a0 s : State} (h : Keeps a0 s) {t ch : Nat} {fault : Bool} {or_ : Nat} {dv : Deliv} : Keeps a0 (State.deliverTo s t ch fault or_ dv) := by
  unfold State.deliverTo
  try dsimp only
  with_reducible repeat' first
      | assumption | apply State.updTile_keeps | apply State.raise_keeps | apply State.tileWrite_keeps | apply State.advance_keeps
      | apply State.deliverScan_keeps | refine ite_keeps ?_ ?_ | (intro _; try dsimp only) | split

theorem State.syncDeliver_keeps {a0 s : State} (h : Keeps a0 s) {ch : Nat} {l : List (Member × Arrival)} : Keeps a0 (State.syncDeliver s ch l) := by
  unfold State.syncDeliver
  try dsimp only
  with_reducible repeat' first
      | assumption | apply State.mismatchAt_keeps | apply State.deliverTo_keeps | refine foldl_keeps ?_ _ _ ?_ | refine foldl_keeps_fst ?_ _ _ ?_
      | refine ite_keeps ?_ ?_ | (intro _; try dsimp only) | split

/-! ### HubOps -/

theorem State.updFab_keeps {a0 s : State} (h : Keeps a0 s) {n : Nat} {f : Fab → Fab} : Keeps a0 (State.updFab s n f) := by
  unfold State.updFab
  try dsimp only
  with_reducible repeat' first
      | assumption | apply State.updNode_keeps | (intro _; try dsimp only)

theorem State.ringPorts_keeps {a0 s : State} (h : Keeps a0 s) {key : Nat} : Keeps a0 (State.ringPorts s key) := by
  unfold State.ringPorts
  try dsimp only
  with_reducible repeat' first
      | assumption | apply State.updNode_keeps | refine foldl_keeps ?_ _ _ ?_ | refine foldl_keeps_fst ?_ _ _ ?_ | refine ite_keeps ?_ ?_
      | (intro _; try dsimp only) | split

theorem State.setRegion_keeps {a0 s : State} (h : Keeps a0 s) {k v : Nat} : Keeps a0 (State.setRegion s k v) := by
  unfold State.setRegion
  try dsimp only
  with_reducible repeat' first
      | assumption | exact List.prefix_rfl | apply State.updHub_keeps | apply State.ringPorts_keeps | refine ite_keeps ?_ ?_
      | (intro _; try dsimp only) | dsimp only

theorem State.setPower_keeps {a0 s : State} (h : Keeps a0 s) {n v : Nat} : Keeps a0 (State.setPower s n v) := by
  unfold State.setPower
  try dsimp only
  with_reducible repeat' first
      | assumption | apply State.setRegion_keeps | split

theorem State.bb_keeps {a0 s : State} (h : Keeps a0 s) {src code sev site part cause : Nat} {vals : List Byte} : Keeps a0 (State.bb s src code sev site part cause vals) := by
  unfold State.bb
  try dsimp only
  with_reducible repeat' first
      | assumption | exact List.prefix_rfl | apply State.sat_keeps | apply State.updHub_keeps | refine ite_keeps ?_ ?_ | (intro _; try dsimp only)
      | dsimp only | (simp only [Bbx.stage_hub, Bbx.stage_east]; exact List.prefix_rfl)

theorem State.measure_keeps {a0 s : State} (h : Keeps a0 s) {i p : Nat} {bs : List Byte} : Keeps a0 (State.measure s i p bs) := by
  unfold State.measure
  try dsimp only
  with_reducible repeat' first
      | assumption | exact List.prefix_rfl | apply State.updHub_keeps | (intro _; try dsimp only) | dsimp only

theorem State.measurePart_keeps {a0 s : State} (h : Keeps a0 s) {p : Nat} : Keeps a0 (State.measurePart s p) := by
  unfold State.measurePart
  try dsimp only
  with_reducible repeat' first
      | assumption | apply State.measure_keeps | (intro _; try dsimp only) | split

theorem State.mbbFree_keeps {a0 s : State} (h : Keeps a0 s) {k m : Nat} : Keeps a0 (State.mbbFree s k m) := by
  unfold State.mbbFree
  try dsimp only
  with_reducible repeat' first
      | assumption | exact List.prefix_rfl | apply State.hwr_keeps | apply State.updHub_keeps | (intro _; try dsimp only) | dsimp only

theorem State.mbbFreeOf_keeps {a0 s : State} (h : Keeps a0 s) {c : W16} : Keeps a0 (State.mbbFreeOf s c) := by
  unfold State.mbbFreeOf
  try dsimp only
  with_reducible repeat' first
      | assumption | apply State.mbbFree_keeps | refine foldl_keeps ?_ _ _ ?_ | refine ite_keeps ?_ ?_ | (intro _; try dsimp only)

theorem State.seqReset_keeps {a0 s : State} (h : Keeps a0 s) {t : Nat} : Keeps a0 (State.seqReset s t) := by
  unfold State.seqReset
  try dsimp only
  with_reducible repeat' first
      | assumption | apply State.tileReset_keeps | apply State.mbbFreeOf_keeps

/-! ### HostOps -/

theorem State.msix_keeps {a0 s : State} (h : Keeps a0 s) {f vec : Nat} : Keeps a0 (State.msix s f vec) := by
  unfold State.msix
  try dsimp only
  with_reducible repeat' first
      | assumption | apply State.emit_keeps | apply State.setReg_keeps | refine ite_keeps ?_ ?_

theorem State.hostOut_keeps {a0 s : State} (h : Keeps a0 s) {f addr : Nat} {bs : List Byte} : Keeps a0 (State.hostOut s f addr bs) := by
  unfold State.hostOut
  try dsimp only
  with_reducible repeat' first
      | assumption | apply State.emit_keeps | refine foldl_keeps ?_ _ _ ?_ | refine foldl_keeps_fst ?_ _ _ ?_ | (intro _; try dsimp only)

theorem State.sendReply_keeps {a0 s : State} (h : Keeps a0 s) {f q : Nat} {tag code : W16} {final event : Bool} {opc : Nat} {vf1 : Bool} {data : List Byte} : Keeps a0 (State.sendReply s f q tag code final event opc vf1 data) := by
  unfold State.sendReply
  try dsimp only
  with_reducible repeat' first
      | assumption | apply State.updFn_keeps | apply State.emit_keeps | apply State.msix_keeps | apply State.event_keeps | refine ite_keeps ?_ ?_
      | (intro _; try dsimp only)

theorem State.updCmd_keeps {a0 s : State} (h : Keeps a0 s) {c : HostCmd} {g : HostCmd → HostCmd} : Keeps a0 (State.updCmd s c g) := by
  unfold State.updCmd
  try dsimp only
  with_reducible repeat' first
      | assumption | exact List.prefix_rfl | apply State.updHub_keeps | refine ite_keeps ?_ ?_ | (intro _; try dsimp only) | dsimp only

theorem State.endCmd_keeps {a0 s : State} (h : Keeps a0 s) {c : HostCmd} {code : W16} {data : List Byte} : Keeps a0 (State.endCmd s c code data) := by
  unfold State.endCmd
  try dsimp only
  with_reducible repeat' first
      | assumption | exact List.prefix_rfl | apply State.dec_keeps | apply State.updHub_keeps | apply State.sendReply_keeps | refine ite_keeps ?_ ?_
      | (intro _; try dsimp only) | dsimp only

theorem State.hostWaits_keeps {a0 s : State} (h : Keeps a0 s) {p : Nat} : Keeps a0 (State.hostWaits s p) := by
  unfold State.hostWaits
  try dsimp only
  with_reducible repeat' first
      | assumption | apply State.updPart_keeps | apply State.endCmd_keeps | refine foldl_keeps ?_ _ _ ?_ | refine ite_keeps ?_ ?_
      | (intro _; try dsimp only) | split

theorem State.tilePoll_keeps {a0 s : State} (h : Keeps a0 s) {t : Nat} : Keeps a0 (State.tilePoll s t) := by
  unfold State.tilePoll
  try dsimp only
  with_reducible repeat' first
      | assumption | apply State.hostWaits_keeps

theorem State.stackPoll_keeps {a0 s : State} (h : Keeps a0 s) {k : Nat} : Keeps a0 (State.stackPoll s k) := by
  unfold State.stackPoll
  try dsimp only
  with_reducible repeat' first
      | assumption | apply State.hostWaits_keeps

theorem State.conflict_keeps {a0 s : State} (h : Keeps a0 s) {t ch : Nat} : Keeps a0 (State.conflict s t ch) := by
  unfold State.conflict
  try dsimp only
  with_reducible repeat' first
      | assumption | apply State.updPart_keeps | apply State.endCmd_keeps | refine foldl_keeps ?_ _ _ ?_ | (intro _; try dsimp only) | split

theorem State.eventTo_keeps {a0 s : State} (h : Keeps a0 s) {e : Event} {f : Nat} : Keeps a0 (State.eventTo s e f) := by
  unfold State.eventTo
  try dsimp only
  with_reducible repeat' first
      | assumption | exact List.prefix_rfl | apply State.updFn_keeps | apply State.wr_keeps | apply State.dec_keeps | apply State.updHub_keeps
      | apply State.sendReply_keeps | refine ite_keeps ?_ ?_ | (intro _; try dsimp only) | split | dsimp only

theorem State.event_keeps {a0 s : State} (h : Keeps a0 s) {kind detail p : Nat} {vf : Bool} : Keeps a0 (State.event s kind detail p vf) := by
  unfold State.event
  try dsimp only
  with_reducible repeat' first
      | assumption | apply State.eventTo_keeps | refine foldl_keeps ?_ _ _ ?_ | refine foldl_keeps_fst ?_ _ _ ?_ | refine ite_keeps ?_ ?_
      | (intro _; try dsimp only)

theorem State.outWake_keeps {a0 s : State} (h : Keeps a0 s) {f : Nat} : Keeps a0 (State.outWake s f) := by
  unfold State.outWake
  try dsimp only
  with_reducible repeat' first
      | assumption | apply State.emit_keeps | apply State.msix_keeps | refine ite_keeps ?_ ?_

theorem State.mbaSend_keeps {a0 s : State} (h : Keeps a0 s) {f : Nat} {msg : List W32} : Keeps a0 (State.mbaSend s f msg) := by
  unfold State.mbaSend
  try dsimp only
  with_reducible repeat' first
      | assumption | apply State.updFn_keeps | apply State.wr_keeps | apply State.inc_keeps | apply State.outWake_keeps | refine foldl_keeps ?_ _ _ ?_
      | refine ite_keeps ?_ ?_ | (intro _; try dsimp only)

theorem State.mbaOut_keeps {a0 s : State} (h : Keeps a0 s) {f : Nat} {msg : List W32} : Keeps a0 (State.mbaOut s f msg) := by
  unfold State.mbaOut
  try dsimp only
  with_reducible repeat' first
      | assumption | apply State.updFn_keeps | apply State.mbaSend_keeps | refine ite_keeps ?_ ?_ | (intro _; try dsimp only)

theorem State.mbaNext_keeps {a0 s : State} (h : Keeps a0 s) {f : Nat} : Keeps a0 (State.mbaNext s f) := by
  unfold State.mbaNext
  try dsimp only
  with_reducible repeat' first
      | assumption | apply State.updFn_keeps | apply State.mbaSend_keeps | (intro _; try dsimp only) | split

theorem State.mbaPfs_keeps {a0 s : State} (h : Keeps a0 s) {code arg : Nat} : Keeps a0 (State.mbaPfs s code arg) := by
  unfold State.mbaPfs
  try dsimp only
  with_reducible repeat' first
      | assumption | apply State.mbaOut_keeps | refine foldl_keeps ?_ _ _ ?_ | refine foldl_keeps_fst ?_ _ _ ?_ | (intro _; try dsimp only)

/-! ### SeqInsn -/

theorem doJmp_keeps {a0 s : State} (h : Keeps a0 s) {t : Nat} {w : Insn} {pc : Nat} : Keeps a0 (doJmp t w pc s) := by
  unfold doJmp
  try dsimp only
  with_reducible repeat' first
      | assumption | apply State.setTile_keeps | apply State.raise_keeps | refine ite_keeps ?_ ?_ | (intro _; try dsimp only)

theorem doPset_keeps {a0 s : State} (h : Keeps a0 s) {t : Nat} {w : Insn} {pc : Nat} : Keeps a0 (doPset t w pc s) := by
  unfold doPset
  try dsimp only
  with_reducible repeat' first
      | assumption | apply State.updTile_keeps | apply State.advance_keeps | (intro _; try dsimp only)

theorem doIload_keeps {a0 s : State} (h : Keeps a0 s) {t : Nat} {w : Insn} {pc : Nat} : Keeps a0 (doIload t w pc s) := by
  unfold doIload
  try dsimp only
  with_reducible repeat' first
      | assumption | apply State.raise_keeps | apply State.bankFault_keeps | apply State.holdAt_keeps | refine ite_keeps ?_ ?_
      | (intro _; try dsimp only) | split

theorem State.windowResult_keeps {a0 s : State} (h : Keeps a0 s) {t pc i raddr : Nat} {status : BitVec 8} : Keeps a0 (State.windowResult s t pc i raddr status) := by
  unfold State.windowResult
  try dsimp only
  with_reducible repeat' first
      | assumption | apply State.tileWrite_keeps

theorem State.advanceOk_keeps {a0 s : State} (h : Keeps a0 s) {t pc : Nat} : Keeps a0 (State.advanceOk s t pc) := by
  unfold State.advanceOk
  try dsimp only
  with_reducible repeat' first
      | assumption | apply State.advance_keeps | refine ite_keeps ?_ ?_

theorem State.commitOpen_keeps {a0 s : State} (h : Keeps a0 s) {t pc : Nat} {r : WopenReq} : Keeps a0 (State.commitOpen s t pc r) := by
  unfold State.commitOpen
  try dsimp only
  with_reducible repeat' first
      | assumption | apply State.updTile_keeps | apply State.windowResult_keeps | apply State.advanceOk_keeps | (intro _; try dsimp only) | split

theorem doWopen_keeps {a0 s : State} (h : Keeps a0 s) {t : Nat} {w : Insn} {pc : Nat} : Keeps a0 (doWopen t w pc s) := by
  unfold doWopen
  try dsimp only
  with_reducible repeat' first
      | assumption | apply State.holdAt_keeps | apply State.windowResult_keeps | apply State.advanceOk_keeps | apply State.commitOpen_keeps
      | refine ite_keeps ?_ ?_

theorem State.closeEnds_keeps {a0 s : State} (h : Keeps a0 s) {t pc i raddr dcnt : Nat} {status : BitVec 8} : Keeps a0 (State.closeEnds s t pc i raddr dcnt status) := by
  unfold State.closeEnds
  try dsimp only
  with_reducible repeat' first
      | assumption | apply State.tileBump_keeps | apply State.tilePoll_keeps | apply State.windowResult_keeps

theorem doCloseNow_keeps {a0 s : State} (h : Keeps a0 s) {t : Nat} {w : Insn} {pc : Nat} : Keeps a0 (doCloseNow t w pc s) := by
  unfold doCloseNow
  try dsimp only
  with_reducible repeat' first
      | assumption | apply State.setTile_keeps | apply State.settleTile_keeps | apply State.tilePoll_keeps | apply State.advanceOk_keeps
      | apply State.closeEnds_keeps | refine ite_keeps ?_ ?_

theorem doCloseQuiesce_keeps {a0 s : State} (h : Keeps a0 s) {t : Nat} {w : Insn} {pc : Nat} : Keeps a0 (doCloseQuiesce t w pc s) := by
  unfold doCloseQuiesce
  try dsimp only
  with_reducible repeat' first
      | assumption | apply State.setTile_keeps | apply State.settleTile_keeps | apply State.tilePoll_keeps | apply State.advanceOk_keeps
      | apply State.closeEnds_keeps | refine ite_keeps ?_ ?_

theorem doWquery_keeps {a0 s : State} (h : Keeps a0 s) {t : Nat} {w : Insn} {pc : Nat} : Keeps a0 (doWquery t w pc s) := by
  unfold doWquery
  try dsimp only
  with_reducible repeat' first
      | assumption | apply State.windowResult_keeps | apply State.advanceOk_keeps

theorem doCcntSet_keeps {a0 s : State} (h : Keeps a0 s) {t : Nat} {w : Insn} {pc : Nat} : Keeps a0 (doCcntSet t w pc s) := by
  unfold doCcntSet
  try dsimp only
  with_reducible repeat' first
      | assumption | apply State.updTile_keeps | apply State.settleTile_keeps | apply State.tilePoll_keeps | apply State.advanceOk_keeps
      | (intro _; try dsimp only)

theorem doCcntGet_keeps {a0 s : State} (h : Keeps a0 s) {t : Nat} {w : Insn} {pc : Nat} : Keeps a0 (doCcntGet t w pc s) := by
  unfold doCcntGet
  try dsimp only
  with_reducible repeat' first
      | assumption | apply State.tileWrite_keeps | apply State.advanceOk_keeps

theorem doLoop_keeps {a0 s : State} (h : Keeps a0 s) {t : Nat} {w : Insn} {pc : Nat} : Keeps a0 (doLoop t w pc s) := by
  unfold doLoop
  try dsimp only
  with_reducible repeat' first
      | assumption | apply State.setTile_keeps | apply State.raise_keeps | refine ite_keeps ?_ ?_ | (intro _; try dsimp only)

theorem doLstride_keeps {a0 s : State} (h : Keeps a0 s) {t : Nat} {w : Insn} {pc : Nat} : Keeps a0 (doLstride t w pc s) := by
  unfold doLstride
  try dsimp only
  with_reducible repeat' first
      | assumption | apply State.updTile_keeps | apply State.advance_keeps | (intro _; try dsimp only)

theorem doLbind_keeps {a0 s : State} (h : Keeps a0 s) {t : Nat} {w : Insn} {pc : Nat} : Keeps a0 (doLbind t w pc s) := by
  unfold doLbind
  try dsimp only
  with_reducible repeat' first
      | assumption | apply State.updTile_keeps | apply State.advance_keeps | (intro _; try dsimp only)

theorem State.tryWait_keeps {a0 s : State} (h : Keeps a0 s) {t pc c v : Nat} : Keeps a0 (State.tryWait s t pc c v) := by
  unfold State.tryWait
  try dsimp only
  with_reducible repeat' first
      | assumption | apply State.raise_keeps | apply State.advance_keeps | apply State.holdAt_keeps | refine ite_keeps ?_ ?_

theorem doWaitcnt_keeps {a0 s : State} (h : Keeps a0 s) {t : Nat} {w : Insn} {pc : Nat} : Keeps a0 (doWaitcnt t w pc s) := by
  unfold doWaitcnt
  try dsimp only
  with_reducible repeat' first
      | assumption | apply State.tryWait_keeps

theorem doBar_keeps {a0 s : State} (h : Keeps a0 s) {t : Nat} {w : Insn} {pc : Nat} : Keeps a0 (doBar t w pc s) := by
  unfold doBar
  try dsimp only
  with_reducible repeat' first
      | assumption | apply State.raise_keeps | apply State.holdAt_keeps | apply State.arrive_keeps | apply State.conflict_keeps
      | refine ite_keeps ?_ ?_ | split

theorem State.tryCwait_keeps {a0 s : State} (h : Keeps a0 s) {t pc ch c v : Nat} : Keeps a0 (State.tryCwait s t pc ch c v) := by
  unfold State.tryCwait
  try dsimp only
  with_reducible repeat' first
      | assumption | apply State.holdAt_keeps | apply State.arrive_keeps | refine ite_keeps ?_ ?_

theorem doCwait_keeps {a0 s : State} (h : Keeps a0 s) {t : Nat} {w : Insn} {pc : Nat} : Keeps a0 (doCwait t w pc s) := by
  unfold doCwait
  try dsimp only
  with_reducible repeat' first
      | assumption | apply State.raise_keeps | apply State.conflict_keeps | apply State.tryCwait_keeps | refine ite_keeps ?_ ?_ | split

theorem doFlagor_keeps {a0 s : State} (h : Keeps a0 s) {t : Nat} {w : Insn} {pc : Nat} : Keeps a0 (doFlagor t w pc s) := by
  unfold doFlagor
  try dsimp only
  with_reducible repeat' first
      | assumption | apply State.raise_keeps | apply State.holdAt_keeps | apply State.arrive_keeps | apply State.conflict_keeps
      | refine ite_keeps ?_ ?_ | split

theorem execNop_keeps {a0 s : State} (h : Keeps a0 s) {t : TileNo} {r_ : State} (he : execNop t s = .next r_) : Keeps a0 r_ := by
  unfold execNop at he
  try dsimp only at he
  refine next_keeps he ?_
  clear he
  with_reducible repeat' first
      | assumption | apply State.advance_keeps | apply State.issueAs_keeps | (intro _; try dsimp only)

theorem execJmp_keeps {a0 s : State} (h : Keeps a0 s) {t : TileNo} {r_ : State} (he : execJmp t s = .next r_) : Keeps a0 r_ := by
  unfold execJmp at he
  try dsimp only at he
  refine next_keeps he ?_
  clear he
  with_reducible repeat' first
      | assumption | exact List.prefix_rfl | apply State.issueAs_keeps | apply doJmp_keeps | refine foldl_keeps ?_ _ _ ?_ | refine ite_keeps ?_ ?_
      | refine ite_keeps_fst ?_ ?_ | (intro _; try dsimp only) | split | dsimp only
      | (simp only [Bbx.stage_hub, Bbx.stage_east]; exact List.prefix_rfl) | exact Mram.record_perm | apply State.ctlq_keeps
      | apply State.hubctl_keeps | apply State.hub_keeps | apply State.nodes_keeps

theorem execPset_keeps {a0 s : State} (h : Keeps a0 s) {t : TileNo} {r_ : State} (he : execPset t s = .next r_) : Keeps a0 r_ := by
  unfold execPset at he
  try dsimp only at he
  refine next_keeps he ?_
  clear he
  with_reducible repeat' first
      | assumption | exact List.prefix_rfl | apply State.issueAs_keeps | apply doPset_keeps | refine foldl_keeps ?_ _ _ ?_ | refine ite_keeps ?_ ?_
      | refine ite_keeps_fst ?_ ?_ | (intro _; try dsimp only) | split | dsimp only
      | (simp only [Bbx.stage_hub, Bbx.stage_east]; exact List.prefix_rfl) | exact Mram.record_perm | apply State.ctlq_keeps
      | apply State.hubctl_keeps | apply State.hub_keeps | apply State.nodes_keeps

theorem execFence_keeps {a0 s : State} (h : Keeps a0 s) {t : TileNo} {r_ : State} (he : execFence t s = .next r_) : Keeps a0 r_ := by
  unfold execFence at he
  try dsimp only at he
  refine next_keeps he ?_
  clear he
  with_reducible repeat' first
      | assumption | apply State.holdAt_keeps | apply State.issueAs_keeps | (intro _; try dsimp only)

theorem execIload_keeps {a0 s : State} (h : Keeps a0 s) {t : TileNo} {r_ : State} (he : execIload t s = .next r_) : Keeps a0 r_ := by
  unfold execIload at he
  try dsimp only at he
  refine next_keeps he ?_
  clear he
  with_reducible repeat' first
      | assumption | exact List.prefix_rfl | apply State.issueAs_keeps | apply doIload_keeps | refine foldl_keeps ?_ _ _ ?_ | refine ite_keeps ?_ ?_
      | refine ite_keeps_fst ?_ ?_ | (intro _; try dsimp only) | split | dsimp only
      | (simp only [Bbx.stage_hub, Bbx.stage_east]; exact List.prefix_rfl) | exact Mram.record_perm | apply State.ctlq_keeps
      | apply State.hubctl_keeps | apply State.hub_keeps | apply State.nodes_keeps

theorem execEndProg_keeps {a0 s : State} (h : Keeps a0 s) {t : TileNo} {r_ : State} (he : execEndProg t s = .next r_) : Keeps a0 r_ := by
  unfold execEndProg at he
  try dsimp only at he
  refine next_keeps he ?_
  clear he
  with_reducible repeat' first
      | assumption | apply State.holdAt_keeps | apply State.issueAs_keeps | (intro _; try dsimp only)

theorem execWopen_keeps {a0 s : State} (h : Keeps a0 s) {t : TileNo} {r_ : State} (he : execWopen t s = .next r_) : Keeps a0 r_ := by
  unfold execWopen at he
  try dsimp only at he
  refine next_keeps he ?_
  clear he
  with_reducible repeat' first
      | assumption | exact List.prefix_rfl | apply State.issueAs_keeps | apply doWopen_keeps | refine foldl_keeps ?_ _ _ ?_ | refine ite_keeps ?_ ?_
      | refine ite_keeps_fst ?_ ?_ | (intro _; try dsimp only) | split | dsimp only
      | (simp only [Bbx.stage_hub, Bbx.stage_east]; exact List.prefix_rfl) | exact Mram.record_perm | apply State.ctlq_keeps
      | apply State.hubctl_keeps | apply State.hub_keeps | apply State.nodes_keeps

theorem execCloseNow_keeps {a0 s : State} (h : Keeps a0 s) {t : TileNo} {r_ : State} (he : execCloseNow t s = .next r_) : Keeps a0 r_ := by
  unfold execCloseNow at he
  try dsimp only at he
  refine next_keeps he ?_
  clear he
  with_reducible repeat' first
      | assumption | exact List.prefix_rfl | apply State.issueAs_keeps | apply doCloseNow_keeps | refine foldl_keeps ?_ _ _ ?_
      | refine ite_keeps ?_ ?_ | refine ite_keeps_fst ?_ ?_ | (intro _; try dsimp only) | split | dsimp only
      | (simp only [Bbx.stage_hub, Bbx.stage_east]; exact List.prefix_rfl) | exact Mram.record_perm | apply State.ctlq_keeps
      | apply State.hubctl_keeps | apply State.hub_keeps | apply State.nodes_keeps

theorem execCloseQuiesce_keeps {a0 s : State} (h : Keeps a0 s) {t : TileNo} {r_ : State} (he : execCloseQuiesce t s = .next r_) : Keeps a0 r_ := by
  unfold execCloseQuiesce at he
  try dsimp only at he
  refine next_keeps he ?_
  clear he
  with_reducible repeat' first
      | assumption | exact List.prefix_rfl | apply State.issueAs_keeps | apply doCloseQuiesce_keeps | refine foldl_keeps ?_ _ _ ?_
      | refine ite_keeps ?_ ?_ | refine ite_keeps_fst ?_ ?_ | (intro _; try dsimp only) | split | dsimp only
      | (simp only [Bbx.stage_hub, Bbx.stage_east]; exact List.prefix_rfl) | exact Mram.record_perm | apply State.ctlq_keeps
      | apply State.hubctl_keeps | apply State.hub_keeps | apply State.nodes_keeps

theorem execWquery_keeps {a0 s : State} (h : Keeps a0 s) {t : TileNo} {r_ : State} (he : execWquery t s = .next r_) : Keeps a0 r_ := by
  unfold execWquery at he
  try dsimp only at he
  refine next_keeps he ?_
  clear he
  with_reducible repeat' first
      | assumption | exact List.prefix_rfl | apply State.issueAs_keeps | apply doWquery_keeps | refine foldl_keeps ?_ _ _ ?_ | refine ite_keeps ?_ ?_
      | refine ite_keeps_fst ?_ ?_ | (intro _; try dsimp only) | split | dsimp only
      | (simp only [Bbx.stage_hub, Bbx.stage_east]; exact List.prefix_rfl) | exact Mram.record_perm | apply State.ctlq_keeps
      | apply State.hubctl_keeps | apply State.hub_keeps | apply State.nodes_keeps

theorem execCcntSet_keeps {a0 s : State} (h : Keeps a0 s) {t : TileNo} {r_ : State} (he : execCcntSet t s = .next r_) : Keeps a0 r_ := by
  unfold execCcntSet at he
  try dsimp only at he
  refine next_keeps he ?_
  clear he
  with_reducible repeat' first
      | assumption | exact List.prefix_rfl | apply State.issueAs_keeps | apply doCcntSet_keeps | refine foldl_keeps ?_ _ _ ?_ | refine ite_keeps ?_ ?_
      | refine ite_keeps_fst ?_ ?_ | (intro _; try dsimp only) | split | dsimp only
      | (simp only [Bbx.stage_hub, Bbx.stage_east]; exact List.prefix_rfl) | exact Mram.record_perm | apply State.ctlq_keeps
      | apply State.hubctl_keeps | apply State.hub_keeps | apply State.nodes_keeps

theorem execCcntGet_keeps {a0 s : State} (h : Keeps a0 s) {t : TileNo} {r_ : State} (he : execCcntGet t s = .next r_) : Keeps a0 r_ := by
  unfold execCcntGet at he
  try dsimp only at he
  refine next_keeps he ?_
  clear he
  with_reducible repeat' first
      | assumption | exact List.prefix_rfl | apply State.issueAs_keeps | apply doCcntGet_keeps | refine foldl_keeps ?_ _ _ ?_ | refine ite_keeps ?_ ?_
      | refine ite_keeps_fst ?_ ?_ | (intro _; try dsimp only) | split | dsimp only
      | (simp only [Bbx.stage_hub, Bbx.stage_east]; exact List.prefix_rfl) | exact Mram.record_perm | apply State.ctlq_keeps
      | apply State.hubctl_keeps | apply State.hub_keeps | apply State.nodes_keeps

theorem execLoopStart_keeps {a0 s : State} (h : Keeps a0 s) {t : TileNo} {r_ : State} (he : execLoopStart t s = .next r_) : Keeps a0 r_ := by
  unfold execLoopStart at he
  try dsimp only at he
  refine next_keeps he ?_
  clear he
  with_reducible repeat' first
      | assumption | exact List.prefix_rfl | apply State.issueAs_keeps | apply doLoop_keeps | refine foldl_keeps ?_ _ _ ?_ | refine ite_keeps ?_ ?_
      | refine ite_keeps_fst ?_ ?_ | (intro _; try dsimp only) | split | dsimp only
      | (simp only [Bbx.stage_hub, Bbx.stage_east]; exact List.prefix_rfl) | exact Mram.record_perm | apply State.ctlq_keeps
      | apply State.hubctl_keeps | apply State.hub_keeps | apply State.nodes_keeps

theorem execLstride_keeps {a0 s : State} (h : Keeps a0 s) {t : TileNo} {r_ : State} (he : execLstride t s = .next r_) : Keeps a0 r_ := by
  unfold execLstride at he
  try dsimp only at he
  refine next_keeps he ?_
  clear he
  with_reducible repeat' first
      | assumption | exact List.prefix_rfl | apply State.issueAs_keeps | apply doLstride_keeps | refine foldl_keeps ?_ _ _ ?_ | refine ite_keeps ?_ ?_
      | refine ite_keeps_fst ?_ ?_ | (intro _; try dsimp only) | split | dsimp only
      | (simp only [Bbx.stage_hub, Bbx.stage_east]; exact List.prefix_rfl) | exact Mram.record_perm | apply State.ctlq_keeps
      | apply State.hubctl_keeps | apply State.hub_keeps | apply State.nodes_keeps

theorem execLbind_keeps {a0 s : State} (h : Keeps a0 s) {t : TileNo} {r_ : State} (he : execLbind t s = .next r_) : Keeps a0 r_ := by
  unfold execLbind at he
  try dsimp only at he
  refine next_keeps he ?_
  clear he
  with_reducible repeat' first
      | assumption | exact List.prefix_rfl | apply State.issueAs_keeps | apply doLbind_keeps | refine foldl_keeps ?_ _ _ ?_ | refine ite_keeps ?_ ?_
      | refine ite_keeps_fst ?_ ?_ | (intro _; try dsimp only) | split | dsimp only
      | (simp only [Bbx.stage_hub, Bbx.stage_east]; exact List.prefix_rfl) | exact Mram.record_perm | apply State.ctlq_keeps
      | apply State.hubctl_keeps | apply State.hub_keeps | apply State.nodes_keeps

theorem execWaitcnt_keeps {a0 s : State} (h : Keeps a0 s) {t : TileNo} {r_ : State} (he : execWaitcnt t s = .next r_) : Keeps a0 r_ := by
  unfold execWaitcnt at he
  try dsimp only at he
  refine next_keeps he ?_
  clear he
  with_reducible repeat' first
      | assumption | exact List.prefix_rfl | apply State.issueAs_keeps | apply doWaitcnt_keeps | refine foldl_keeps ?_ _ _ ?_ | refine ite_keeps ?_ ?_
      | refine ite_keeps_fst ?_ ?_ | (intro _; try dsimp only) | split | dsimp only
      | (simp only [Bbx.stage_hub, Bbx.stage_east]; exact List.prefix_rfl) | exact Mram.record_perm | apply State.ctlq_keeps
      | apply State.hubctl_keeps | apply State.hub_keeps | apply State.nodes_keeps

theorem execBar_keeps {a0 s : State} (h : Keeps a0 s) {t : TileNo} {r_ : State} (he : execBar t s = .next r_) : Keeps a0 r_ := by
  unfold execBar at he
  try dsimp only at he
  refine next_keeps he ?_
  clear he
  with_reducible repeat' first
      | assumption | exact List.prefix_rfl | apply State.issueAs_keeps | apply doBar_keeps | refine foldl_keeps ?_ _ _ ?_ | refine ite_keeps ?_ ?_
      | refine ite_keeps_fst ?_ ?_ | (intro _; try dsimp only) | split | dsimp only
      | (simp only [Bbx.stage_hub, Bbx.stage_east]; exact List.prefix_rfl) | exact Mram.record_perm | apply State.ctlq_keeps
      | apply State.hubctl_keeps | apply State.hub_keeps | apply State.nodes_keeps

theorem execCwait_keeps {a0 s : State} (h : Keeps a0 s) {t : TileNo} {r_ : State} (he : execCwait t s = .next r_) : Keeps a0 r_ := by
  unfold execCwait at he
  try dsimp only at he
  refine next_keeps he ?_
  clear he
  with_reducible repeat' first
      | assumption | exact List.prefix_rfl | apply State.issueAs_keeps | apply doCwait_keeps | refine foldl_keeps ?_ _ _ ?_ | refine ite_keeps ?_ ?_
      | refine ite_keeps_fst ?_ ?_ | (intro _; try dsimp only) | split | dsimp only
      | (simp only [Bbx.stage_hub, Bbx.stage_east]; exact List.prefix_rfl) | exact Mram.record_perm | apply State.ctlq_keeps
      | apply State.hubctl_keeps | apply State.hub_keeps | apply State.nodes_keeps

theorem execFlagor_keeps {a0 s : State} (h : Keeps a0 s) {t : TileNo} {r_ : State} (he : execFlagor t s = .next r_) : Keeps a0 r_ := by
  unfold execFlagor at he
  try dsimp only at he
  refine next_keeps he ?_
  clear he
  with_reducible repeat' first
      | assumption | exact List.prefix_rfl | apply State.issueAs_keeps | apply doFlagor_keeps | refine foldl_keeps ?_ _ _ ?_ | refine ite_keeps ?_ ?_
      | refine ite_keeps_fst ?_ ?_ | (intro _; try dsimp only) | split | dsimp only
      | (simp only [Bbx.stage_hub, Bbx.stage_east]; exact List.prefix_rfl) | exact Mram.record_perm | apply State.ctlq_keeps
      | apply State.hubctl_keeps | apply State.hub_keeps | apply State.nodes_keeps

theorem execStepFence_keeps {a0 s : State} (h : Keeps a0 s) {t : TileNo} {r_ : State} (he : execStepFence t s = .next r_) : Keeps a0 r_ := by
  unfold execStepFence at he
  try dsimp only at he
  refine next_keeps he ?_
  clear he
  with_reducible repeat' first
      | assumption | apply State.holdAt_keeps | apply State.issueAs_keeps | apply step_keeps | (intro _; try dsimp only)

theorem execFenceComplete_keeps {a0 s : State} (h : Keeps a0 s) {t : TileNo} {r_ : State} (he : execFenceComplete t s = .next r_) : Keeps a0 r_ := by
  unfold execFenceComplete at he
  try dsimp only at he
  refine next_keeps he ?_
  clear he
  with_reducible repeat' first
      | assumption | apply State.raise_keeps | apply State.advance_keeps | apply State.stepArrive_keeps | apply step_keeps | refine ite_keeps ?_ ?_
      | split

theorem execIloadComplete_keeps {a0 s : State} (h : Keeps a0 s) {t : TileNo} {r_ : State} (he : execIloadComplete t s = .next r_) : Keeps a0 r_ := by
  unfold execIloadComplete at he
  try dsimp only at he
  refine next_keeps he ?_
  clear he
  with_reducible repeat' first
      | assumption | apply State.setTile_keeps | apply State.bankFault_keeps | apply State.advance_keeps | split

theorem State.endComplete_keeps {a0 s : State} (h : Keeps a0 s) {t : Nat} : Keeps a0 (State.endComplete s t) := by
  unfold State.endComplete
  try dsimp only
  with_reducible repeat' first
      | assumption | apply State.setTile_keeps | apply State.raise_keeps | refine ite_keeps ?_ ?_ | split

theorem execWopenHoldRelease_keeps {a0 s : State} (h : Keeps a0 s) {t : TileNo} {r_ : State} (he : execWopenHoldRelease t s = .next r_) : Keeps a0 r_ := by
  unfold execWopenHoldRelease at he
  try dsimp only at he
  refine next_keeps he ?_
  clear he
  with_reducible repeat' first
      | assumption | apply State.till_keeps | apply State.commitOpen_keeps | split

theorem execWaitcntComplete_keeps {a0 s : State} (h : Keeps a0 s) {t : TileNo} {r_ : State} (he : execWaitcntComplete t s = .next r_) : Keeps a0 r_ := by
  unfold execWaitcntComplete at he
  try dsimp only at he
  refine next_keeps he ?_
  clear he
  with_reducible repeat' first
      | assumption | apply State.tryWait_keeps | split

theorem execCwaitArrival_keeps {a0 s : State} (h : Keeps a0 s) {t : TileNo} {r_ : State} (he : execCwaitArrival t s = .next r_) : Keeps a0 r_ := by
  unfold execCwaitArrival at he
  try dsimp only at he
  refine next_keeps he ?_
  clear he
  with_reducible repeat' first
      | assumption | apply State.tryCwait_keeps | split

theorem execTileCmdqWrite_keeps {a0 s : State} (h : Keeps a0 s) {t : TileNo} {v : W32} {r_ : State} (he : execTileCmdqWrite t v s = .next r_) : Keeps a0 r_ := by
  unfold execTileCmdqWrite at he
  try dsimp only at he
  refine next_keeps he ?_
  clear he
  with_reducible repeat' first
      | assumption | apply State.updTile_keeps | (intro _; try dsimp only)

theorem execSeqEnableSet_keeps {a0 s : State} (h : Keeps a0 s) {t : TileNo} {r_ : State} (he : execSeqEnableSet t s = .next r_) : Keeps a0 r_ := by
  unfold execSeqEnableSet at he
  try dsimp only at he
  refine next_keeps he ?_
  clear he
  with_reducible repeat' first
      | assumption | apply State.updTile_keeps | (intro _; try dsimp only)

theorem execSeqEnableClear_keeps {a0 s : State} (h : Keeps a0 s) {t : TileNo} {r_ : State} (he : execSeqEnableClear t s = .next r_) : Keeps a0 r_ := by
  unfold execSeqEnableClear at he
  try dsimp only at he
  refine next_keeps he ?_
  clear he
  with_reducible repeat' first
      | assumption | apply State.updTile_keeps | (intro _; try dsimp only)

theorem execSeqReset_keeps {a0 s : State} (h : Keeps a0 s) {t : TileNo} {r_ : State} (he : execSeqReset t s = .next r_) : Keeps a0 r_ := by
  unfold execSeqReset at he
  try dsimp only at he
  refine next_keeps he ?_
  clear he
  with_reducible repeat' first
      | assumption | apply State.seqReset_keeps

theorem execSeqTakeEntry_keeps {a0 s : State} (h : Keeps a0 s) {t : TileNo} {r_ : State} (he : execSeqTakeEntry t s = .next r_) : Keeps a0 r_ := by
  unfold execSeqTakeEntry at he
  try dsimp only at he
  refine next_keeps he ?_
  clear he
  with_reducible repeat' first
      | assumption | apply State.updTile_keeps | (intro _; try dsimp only) | split

theorem execIssueHoldRelease_keeps {a0 s : State} (h : Keeps a0 s) {t : TileNo} {r_ : State} (he : execIssueHoldRelease t s = .next r_) : Keeps a0 r_ := by
  unfold execIssueHoldRelease at he
  try dsimp only at he
  refine next_keeps he ?_
  clear he
  with_reducible repeat' first
      | assumption | exact List.prefix_rfl | apply State.setTile_keeps | apply State.issueAs_keeps | apply doQueued_keeps | apply doBar_keeps
      | apply doCwait_keeps | apply doFlagor_keeps | refine foldl_keeps ?_ _ _ ?_ | refine foldl_keeps_fst ?_ _ _ ?_ | refine ite_keeps ?_ ?_
      | refine ite_keeps_fst ?_ ?_ | (intro _; try dsimp only) | split | dsimp only
      | (simp only [Bbx.stage_hub, Bbx.stage_east]; exact List.prefix_rfl) | exact Mram.record_perm | apply State.ctlq_keeps
      | apply State.hubctl_keeps | apply State.hub_keeps | apply State.nodes_keeps

/-! ### MxaInsn -/

theorem execMma_keeps {a0 s : State} (h : Keeps a0 s) {t : TileNo} {r_ : State} (he : execMma t s = .next r_) : Keeps a0 r_ := by
  unfold execMma at he
  try dsimp only at he
  refine next_keeps he ?_
  clear he
  with_reducible repeat' first
      | assumption | exact List.prefix_rfl | apply State.issueAs_keeps | apply doQueued_keeps | refine foldl_keeps ?_ _ _ ?_ | refine ite_keeps ?_ ?_
      | refine ite_keeps_fst ?_ ?_ | (intro _; try dsimp only) | split | dsimp only
      | (simp only [Bbx.stage_hub, Bbx.stage_east]; exact List.prefix_rfl) | exact Mram.record_perm | apply State.ctlq_keeps
      | apply State.hubctl_keeps | apply State.hub_keeps | apply State.nodes_keeps

theorem execMdrain_keeps {a0 s : State} (h : Keeps a0 s) {t : TileNo} {r_ : State} (he : execMdrain t s = .next r_) : Keeps a0 r_ := by
  unfold execMdrain at he
  try dsimp only at he
  refine next_keeps he ?_
  clear he
  with_reducible repeat' first
      | assumption | exact List.prefix_rfl | apply State.issueAs_keeps | apply doQueued_keeps | refine foldl_keeps ?_ _ _ ?_ | refine ite_keeps ?_ ?_
      | refine ite_keeps_fst ?_ ?_ | (intro _; try dsimp only) | split | dsimp only
      | (simp only [Bbx.stage_hub, Bbx.stage_east]; exact List.prefix_rfl) | exact Mram.record_perm | apply State.ctlq_keeps
      | apply State.hubctl_keeps | apply State.hub_keeps | apply State.nodes_keeps

theorem execRbload_keeps {a0 s : State} (h : Keeps a0 s) {t : TileNo} {r_ : State} (he : execRbload t s = .next r_) : Keeps a0 r_ := by
  unfold execRbload at he
  try dsimp only at he
  refine next_keeps he ?_
  clear he
  with_reducible repeat' first
      | assumption | exact List.prefix_rfl | apply State.issueAs_keeps | apply doQueued_keeps | refine foldl_keeps ?_ _ _ ?_ | refine ite_keeps ?_ ?_
      | refine ite_keeps_fst ?_ ?_ | (intro _; try dsimp only) | split | dsimp only
      | (simp only [Bbx.stage_hub, Bbx.stage_east]; exact List.prefix_rfl) | exact Mram.record_perm | apply State.ctlq_keeps
      | apply State.hubctl_keeps | apply State.hub_keeps | apply State.nodes_keeps

theorem execRbshift_keeps {a0 s : State} (h : Keeps a0 s) {t : TileNo} {r_ : State} (he : execRbshift t s = .next r_) : Keeps a0 r_ := by
  unfold execRbshift at he
  try dsimp only at he
  refine next_keeps he ?_
  clear he
  with_reducible repeat' first
      | assumption | exact List.prefix_rfl | apply State.issueAs_keeps | apply doQueued_keeps | refine foldl_keeps ?_ _ _ ?_ | refine ite_keeps ?_ ?_
      | refine ite_keeps_fst ?_ ?_ | (intro _; try dsimp only) | split | dsimp only
      | (simp only [Bbx.stage_hub, Bbx.stage_east]; exact List.prefix_rfl) | exact Mram.record_perm | apply State.ctlq_keeps
      | apply State.hubctl_keeps | apply State.hub_keeps | apply State.nodes_keeps

theorem execPosld_keeps {a0 s : State} (h : Keeps a0 s) {t : TileNo} {r_ : State} (he : execPosld t s = .next r_) : Keeps a0 r_ := by
  unfold execPosld at he
  try dsimp only at he
  refine next_keeps he ?_
  clear he
  with_reducible repeat' first
      | assumption | exact List.prefix_rfl | apply State.issueAs_keeps | apply doQueued_keeps | refine foldl_keeps ?_ _ _ ?_ | refine ite_keeps ?_ ?_
      | refine ite_keeps_fst ?_ ?_ | (intro _; try dsimp only) | split | dsimp only
      | (simp only [Bbx.stage_hub, Bbx.stage_east]; exact List.prefix_rfl) | exact Mram.record_perm | apply State.ctlq_keeps
      | apply State.hubctl_keeps | apply State.hub_keeps | apply State.nodes_keeps

theorem execPosgen_keeps {a0 s : State} (h : Keeps a0 s) {t : TileNo} {r_ : State} (he : execPosgen t s = .next r_) : Keeps a0 r_ := by
  unfold execPosgen at he
  try dsimp only at he
  refine next_keeps he ?_
  clear he
  with_reducible repeat' first
      | assumption | exact List.prefix_rfl | apply State.issueAs_keeps | apply doQueued_keeps | refine foldl_keeps ?_ _ _ ?_ | refine ite_keeps ?_ ?_
      | refine ite_keeps_fst ?_ ?_ | (intro _; try dsimp only) | split | dsimp only
      | (simp only [Bbx.stage_hub, Bbx.stage_east]; exact List.prefix_rfl) | exact Mram.record_perm | apply State.ctlq_keeps
      | apply State.hubctl_keeps | apply State.hub_keeps | apply State.nodes_keeps

theorem execMxset_keeps {a0 s : State} (h : Keeps a0 s) {t : TileNo} {r_ : State} (he : execMxset t s = .next r_) : Keeps a0 r_ := by
  unfold execMxset at he
  try dsimp only at he
  refine next_keeps he ?_
  clear he
  with_reducible repeat' first
      | assumption | exact List.prefix_rfl | apply State.issueAs_keeps | apply doQueued_keeps | refine foldl_keeps ?_ _ _ ?_ | refine ite_keeps ?_ ?_
      | refine ite_keeps_fst ?_ ?_ | (intro _; try dsimp only) | split | dsimp only
      | (simp only [Bbx.stage_hub, Bbx.stage_east]; exact List.prefix_rfl) | exact Mram.record_perm | apply State.ctlq_keeps
      | apply State.hubctl_keeps | apply State.hub_keeps | apply State.nodes_keeps

theorem execMfence_keeps {a0 s : State} (h : Keeps a0 s) {t : TileNo} {r_ : State} (he : execMfence t s = .next r_) : Keeps a0 r_ := by
  unfold execMfence at he
  try dsimp only at he
  refine next_keeps he ?_
  clear he
  with_reducible repeat' first
      | assumption | exact List.prefix_rfl | apply State.issueAs_keeps | apply doQueued_keeps | refine foldl_keeps ?_ _ _ ?_ | refine ite_keeps ?_ ?_
      | refine ite_keeps_fst ?_ ?_ | (intro _; try dsimp only) | split | dsimp only
      | (simp only [Bbx.stage_hub, Bbx.stage_east]; exact List.prefix_rfl) | exact Mram.record_perm | apply State.ctlq_keeps
      | apply State.hubctl_keeps | apply State.hub_keeps | apply State.nodes_keeps

theorem State.mmaStart_keeps {a0 s : State} (h : Keeps a0 s) {t : Nat} {i : QInsn} {fa fw : Fmt} {md : Mode} : Keeps a0 (State.mmaStart s t i fa fw md) := by
  unfold State.mmaStart
  try dsimp only
  with_reducible repeat' first
      | assumption | apply State.setTile_keeps | apply State.mxaSettle_keeps | apply State.guardRanges_keeps | (intro _; try dsimp only)

theorem execMmaVeinStart_keeps {a0 s : State} (h : Keeps a0 s) {t : TileNo} {r_ : State} (he : execMmaVeinStart t s = .next r_) : Keeps a0 r_ := by
  unfold execMmaVeinStart at he
  try dsimp only at he
  refine next_keeps he ?_
  clear he
  with_reducible repeat' first
      | assumption | apply State.mmaStart_keeps | refine ite_keeps ?_ ?_ | split

theorem execMmaComplete_keeps {a0 s : State} (h : Keeps a0 s) {t : TileNo} {r_ : State} (he : execMmaComplete t s = .next r_) : Keeps a0 r_ := by
  unfold execMmaComplete at he
  try dsimp only at he
  refine next_keeps he ?_
  clear he
  with_reducible repeat' first
      | assumption | apply State.updTile_keeps | refine ite_keeps ?_ ?_ | (intro _; try dsimp only) | split

theorem State.drainBegin_keeps {a0 s : State} (h : Keeps a0 s) {t : Nat} {i : QInsn} : Keeps a0 (State.drainBegin s t i) := by
  unfold State.drainBegin
  try dsimp only
  with_reducible repeat' first
      | assumption | apply State.setTile_keeps | apply State.updTile_keeps | apply State.bankFault_keeps | apply State.mxaSettle_keeps
      | refine ite_keeps ?_ ?_ | (intro _; try dsimp only) | split

theorem execDrainStart_keeps {a0 s : State} (h : Keeps a0 s) {t : TileNo} {r_ : State} (he : execDrainStart t s = .next r_) : Keeps a0 r_ := by
  unfold execDrainStart at he
  try dsimp only at he
  refine next_keeps he ?_
  clear he
  with_reducible repeat' first
      | assumption | apply State.drainBegin_keeps | refine ite_keeps ?_ ?_ | split

theorem execDrainResume_keeps {a0 s : State} (h : Keeps a0 s) {t : TileNo} {r_ : State} (he : execDrainResume t s = .next r_) : Keeps a0 r_ := by
  unfold execDrainResume at he
  try dsimp only at he
  refine next_keeps he ?_
  clear he
  with_reducible repeat' first
      | assumption | apply State.updTile_keeps | (intro _; try dsimp only)

theorem execDrainEnd_keeps {a0 s : State} (h : Keeps a0 s) {t : TileNo} {r_ : State} (he : execDrainEnd t s = .next r_) : Keeps a0 r_ := by
  unfold execDrainEnd at he
  try dsimp only at he
  refine next_keeps he ?_
  clear he
  with_reducible repeat' first
      | assumption | apply State.setTile_keeps | apply State.mxaSettle_keeps | (intro _; try dsimp only) | split

theorem execRbloadComplete_keeps {a0 s : State} (h : Keeps a0 s) {t : TileNo} {r_ : State} (he : execRbloadComplete t s = .next r_) : Keeps a0 r_ := by
  unfold execRbloadComplete at he
  try dsimp only at he
  refine next_keeps he ?_
  clear he
  with_reducible repeat' first
      | assumption | apply State.setTile_keeps | apply State.mxaSettle_keeps | apply State.guardRanges_keeps | refine ite_keeps ?_ ?_
      | (intro _; try dsimp only) | split

theorem execRbshiftComplete_keeps {a0 s : State} (h : Keeps a0 s) {t : TileNo} {r_ : State} (he : execRbshiftComplete t s = .next r_) : Keeps a0 r_ := by
  unfold execRbshiftComplete at he
  try dsimp only at he
  refine next_keeps he ?_
  clear he
  with_reducible repeat' first
      | assumption | apply State.setTile_keeps | apply State.mxaSettle_keeps | apply State.guardRanges_keeps | refine ite_keeps ?_ ?_
      | (intro _; try dsimp only) | split

/-! ### VxeInsn -/

theorem execVfa_keeps {a0 s : State} (h : Keeps a0 s) {t : TileNo} {r_ : State} (he : execVfa t s = .next r_) : Keeps a0 r_ := by
  unfold execVfa at he
  try dsimp only at he
  refine next_keeps he ?_
  clear he
  with_reducible repeat' first
      | assumption | exact List.prefix_rfl | apply State.issueAs_keeps | apply doQueued_keeps | refine foldl_keeps ?_ _ _ ?_ | refine ite_keeps ?_ ?_
      | refine ite_keeps_fst ?_ ?_ | (intro _; try dsimp only) | split | dsimp only
      | (simp only [Bbx.stage_hub, Bbx.stage_east]; exact List.prefix_rfl) | exact Mram.record_perm | apply State.ctlq_keeps
      | apply State.hubctl_keeps | apply State.hub_keeps | apply State.nodes_keeps

theorem execVia_keeps {a0 s : State} (h : Keeps a0 s) {t : TileNo} {r_ : State} (he : execVia t s = .next r_) : Keeps a0 r_ := by
  unfold execVia at he
  try dsimp only at he
  refine next_keeps he ?_
  clear he
  with_reducible repeat' first
      | assumption | exact List.prefix_rfl | apply State.issueAs_keeps | apply doQueued_keeps | refine foldl_keeps ?_ _ _ ?_ | refine ite_keeps ?_ ?_
      | refine ite_keeps_fst ?_ ?_ | (intro _; try dsimp only) | split | dsimp only
      | (simp only [Bbx.stage_hub, Bbx.stage_east]; exact List.prefix_rfl) | exact Mram.record_perm | apply State.ctlq_keeps
      | apply State.hubctl_keeps | apply State.hub_keeps | apply State.nodes_keeps

theorem execVcmp_keeps {a0 s : State} (h : Keeps a0 s) {t : TileNo} {r_ : State} (he : execVcmp t s = .next r_) : Keeps a0 r_ := by
  unfold execVcmp at he
  try dsimp only at he
  refine next_keeps he ?_
  clear he
  with_reducible repeat' first
      | assumption | exact List.prefix_rfl | apply State.issueAs_keeps | apply doQueued_keeps | refine foldl_keeps ?_ _ _ ?_ | refine ite_keeps ?_ ?_
      | refine ite_keeps_fst ?_ ?_ | (intro _; try dsimp only) | split | dsimp only
      | (simp only [Bbx.stage_hub, Bbx.stage_east]; exact List.prefix_rfl) | exact Mram.record_perm | apply State.ctlq_keeps
      | apply State.hubctl_keeps | apply State.hub_keeps | apply State.nodes_keeps

theorem execVsel_keeps {a0 s : State} (h : Keeps a0 s) {t : TileNo} {r_ : State} (he : execVsel t s = .next r_) : Keeps a0 r_ := by
  unfold execVsel at he
  try dsimp only at he
  refine next_keeps he ?_
  clear he
  with_reducible repeat' first
      | assumption | exact List.prefix_rfl | apply State.issueAs_keeps | apply doQueued_keeps | refine foldl_keeps ?_ _ _ ?_ | refine ite_keeps ?_ ?_
      | refine ite_keeps_fst ?_ ?_ | (intro _; try dsimp only) | split | dsimp only
      | (simp only [Bbx.stage_hub, Bbx.stage_east]; exact List.prefix_rfl) | exact Mram.record_perm | apply State.ctlq_keeps
      | apply State.hubctl_keeps | apply State.hub_keeps | apply State.nodes_keeps

theorem execVkop_keeps {a0 s : State} (h : Keeps a0 s) {t : TileNo} {r_ : State} (he : execVkop t s = .next r_) : Keeps a0 r_ := by
  unfold execVkop at he
  try dsimp only at he
  refine next_keeps he ?_
  clear he
  with_reducible repeat' first
      | assumption | exact List.prefix_rfl | apply State.issueAs_keeps | apply doQueued_keeps | refine foldl_keeps ?_ _ _ ?_ | refine ite_keeps ?_ ?_
      | refine ite_keeps_fst ?_ ?_ | (intro _; try dsimp only) | split | dsimp only
      | (simp only [Bbx.stage_hub, Bbx.stage_east]; exact List.prefix_rfl) | exact Mram.record_perm | apply State.ctlq_keeps
      | apply State.hubctl_keeps | apply State.hub_keeps | apply State.nodes_keeps

theorem execVcvt_keeps {a0 s : State} (h : Keeps a0 s) {t : TileNo} {r_ : State} (he : execVcvt t s = .next r_) : Keeps a0 r_ := by
  unfold execVcvt at he
  try dsimp only at he
  refine next_keeps he ?_
  clear he
  with_reducible repeat' first
      | assumption | exact List.prefix_rfl | apply State.issueAs_keeps | apply doQueued_keeps | refine foldl_keeps ?_ _ _ ?_ | refine ite_keeps ?_ ?_
      | refine ite_keeps_fst ?_ ?_ | (intro _; try dsimp only) | split | dsimp only
      | (simp only [Bbx.stage_hub, Bbx.stage_east]; exact List.prefix_rfl) | exact Mram.record_perm | apply State.ctlq_keeps
      | apply State.hubctl_keeps | apply State.hub_keeps | apply State.nodes_keeps

theorem execVtr_keeps {a0 s : State} (h : Keeps a0 s) {t : TileNo} {r_ : State} (he : execVtr t s = .next r_) : Keeps a0 r_ := by
  unfold execVtr at he
  try dsimp only at he
  refine next_keeps he ?_
  clear he
  with_reducible repeat' first
      | assumption | exact List.prefix_rfl | apply State.issueAs_keeps | apply doQueued_keeps | refine foldl_keeps ?_ _ _ ?_ | refine ite_keeps ?_ ?_
      | refine ite_keeps_fst ?_ ?_ | (intro _; try dsimp only) | split | dsimp only
      | (simp only [Bbx.stage_hub, Bbx.stage_east]; exact List.prefix_rfl) | exact Mram.record_perm | apply State.ctlq_keeps
      | apply State.hubctl_keeps | apply State.hub_keeps | apply State.nodes_keeps

theorem execVred_keeps {a0 s : State} (h : Keeps a0 s) {t : TileNo} {r_ : State} (he : execVred t s = .next r_) : Keeps a0 r_ := by
  unfold execVred at he
  try dsimp only at he
  refine next_keeps he ?_
  clear he
  with_reducible repeat' first
      | assumption | exact List.prefix_rfl | apply State.issueAs_keeps | apply doQueued_keeps | refine foldl_keeps ?_ _ _ ?_ | refine ite_keeps ?_ ?_
      | refine ite_keeps_fst ?_ ?_ | (intro _; try dsimp only) | split | dsimp only
      | (simp only [Bbx.stage_hub, Bbx.stage_east]; exact List.prefix_rfl) | exact Mram.record_perm | apply State.ctlq_keeps
      | apply State.hubctl_keeps | apply State.hub_keeps | apply State.nodes_keeps

theorem execVscan_keeps {a0 s : State} (h : Keeps a0 s) {t : TileNo} {r_ : State} (he : execVscan t s = .next r_) : Keeps a0 r_ := by
  unfold execVscan at he
  try dsimp only at he
  refine next_keeps he ?_
  clear he
  with_reducible repeat' first
      | assumption | exact List.prefix_rfl | apply State.issueAs_keeps | apply doQueued_keeps | refine foldl_keeps ?_ _ _ ?_ | refine ite_keeps ?_ ?_
      | refine ite_keeps_fst ?_ ?_ | (intro _; try dsimp only) | split | dsimp only
      | (simp only [Bbx.stage_hub, Bbx.stage_east]; exact List.prefix_rfl) | exact Mram.record_perm | apply State.ctlq_keeps
      | apply State.hubctl_keeps | apply State.hub_keeps | apply State.nodes_keeps

theorem execVxscan_keeps {a0 s : State} (h : Keeps a0 s) {t : TileNo} {r_ : State} (he : execVxscan t s = .next r_) : Keeps a0 r_ := by
  unfold execVxscan at he
  try dsimp only at he
  refine next_keeps he ?_
  clear he
  with_reducible repeat' first
      | assumption | exact List.prefix_rfl | apply State.issueAs_keeps | apply doQueued_keeps | refine foldl_keeps ?_ _ _ ?_ | refine ite_keeps ?_ ?_
      | refine ite_keeps_fst ?_ ?_ | (intro _; try dsimp only) | split | dsimp only
      | (simp only [Bbx.stage_hub, Bbx.stage_east]; exact List.prefix_rfl) | exact Mram.record_perm | apply State.ctlq_keeps
      | apply State.hubctl_keeps | apply State.hub_keeps | apply State.nodes_keeps

theorem execVcomb_keeps {a0 s : State} (h : Keeps a0 s) {t : TileNo} {r_ : State} (he : execVcomb t s = .next r_) : Keeps a0 r_ := by
  unfold execVcomb at he
  try dsimp only at he
  refine next_keeps he ?_
  clear he
  with_reducible repeat' first
      | assumption | exact List.prefix_rfl | apply State.issueAs_keeps | apply doQueued_keeps | refine foldl_keeps ?_ _ _ ?_ | refine ite_keeps ?_ ?_
      | refine ite_keeps_fst ?_ ?_ | (intro _; try dsimp only) | split | dsimp only
      | (simp only [Bbx.stage_hub, Bbx.stage_east]; exact List.prefix_rfl) | exact Mram.record_perm | apply State.ctlq_keeps
      | apply State.hubctl_keeps | apply State.hub_keeps | apply State.nodes_keeps

theorem execVld_keeps {a0 s : State} (h : Keeps a0 s) {t : TileNo} {r_ : State} (he : execVld t s = .next r_) : Keeps a0 r_ := by
  unfold execVld at he
  try dsimp only at he
  refine next_keeps he ?_
  clear he
  with_reducible repeat' first
      | assumption | exact List.prefix_rfl | apply State.issueAs_keeps | apply doQueued_keeps | refine foldl_keeps ?_ _ _ ?_ | refine ite_keeps ?_ ?_
      | refine ite_keeps_fst ?_ ?_ | (intro _; try dsimp only) | split | dsimp only
      | (simp only [Bbx.stage_hub, Bbx.stage_east]; exact List.prefix_rfl) | exact Mram.record_perm | apply State.ctlq_keeps
      | apply State.hubctl_keeps | apply State.hub_keeps | apply State.nodes_keeps

theorem execVst_keeps {a0 s : State} (h : Keeps a0 s) {t : TileNo} {r_ : State} (he : execVst t s = .next r_) : Keeps a0 r_ := by
  unfold execVst at he
  try dsimp only at he
  refine next_keeps he ?_
  clear he
  with_reducible repeat' first
      | assumption | exact List.prefix_rfl | apply State.issueAs_keeps | apply doQueued_keeps | refine foldl_keeps ?_ _ _ ?_ | refine ite_keeps ?_ ?_
      | refine ite_keeps_fst ?_ ?_ | (intro _; try dsimp only) | split | dsimp only
      | (simp only [Bbx.stage_hub, Bbx.stage_east]; exact List.prefix_rfl) | exact Mram.record_perm | apply State.ctlq_keeps
      | apply State.hubctl_keeps | apply State.hub_keeps | apply State.nodes_keeps

theorem execVdqpop_keeps {a0 s : State} (h : Keeps a0 s) {t : TileNo} {r_ : State} (he : execVdqpop t s = .next r_) : Keeps a0 r_ := by
  unfold execVdqpop at he
  try dsimp only at he
  refine next_keeps he ?_
  clear he
  with_reducible repeat' first
      | assumption | exact List.prefix_rfl | apply State.issueAs_keeps | apply doQueued_keeps | refine foldl_keeps ?_ _ _ ?_ | refine ite_keeps ?_ ?_
      | refine ite_keeps_fst ?_ ?_ | (intro _; try dsimp only) | split | dsimp only
      | (simp only [Bbx.stage_hub, Bbx.stage_east]; exact List.prefix_rfl) | exact Mram.record_perm | apply State.ctlq_keeps
      | apply State.hubctl_keeps | apply State.hub_keeps | apply State.nodes_keeps

theorem execViota_keeps {a0 s : State} (h : Keeps a0 s) {t : TileNo} {r_ : State} (he : execViota t s = .next r_) : Keeps a0 r_ := by
  unfold execViota at he
  try dsimp only at he
  refine next_keeps he ?_
  clear he
  with_reducible repeat' first
      | assumption | exact List.prefix_rfl | apply State.issueAs_keeps | apply doQueued_keeps | refine foldl_keeps ?_ _ _ ?_ | refine ite_keeps ?_ ?_
      | refine ite_keeps_fst ?_ ?_ | (intro _; try dsimp only) | split | dsimp only
      | (simp only [Bbx.stage_hub, Bbx.stage_east]; exact List.prefix_rfl) | exact Mram.record_perm | apply State.ctlq_keeps
      | apply State.hubctl_keeps | apply State.hub_keeps | apply State.nodes_keeps

theorem execVrot_keeps {a0 s : State} (h : Keeps a0 s) {t : TileNo} {r_ : State} (he : execVrot t s = .next r_) : Keeps a0 r_ := by
  unfold execVrot at he
  try dsimp only at he
  refine next_keeps he ?_
  clear he
  with_reducible repeat' first
      | assumption | exact List.prefix_rfl | apply State.issueAs_keeps | apply doQueued_keeps | refine foldl_keeps ?_ _ _ ?_ | refine ite_keeps ?_ ?_
      | refine ite_keeps_fst ?_ ?_ | (intro _; try dsimp only) | split | dsimp only
      | (simp only [Bbx.stage_hub, Bbx.stage_east]; exact List.prefix_rfl) | exact Mram.record_perm | apply State.ctlq_keeps
      | apply State.hubctl_keeps | apply State.hub_keeps | apply State.nodes_keeps

theorem State.vxeRefused_keeps {a0 s : State} (h : Keeps a0 s) {t : Nat} {v : Vxe} {i : QInsn} {rs : List (Nat × Nat)} {f : Nat × Nat} : Keeps a0 (State.vxeRefused s t v i rs f) := by
  unfold State.vxeRefused
  try dsimp only
  with_reducible repeat' first
      | assumption | apply State.updTile_keeps | apply State.bankFault_keeps | (intro _; try dsimp only)

theorem State.vxscanStart_keeps {a0 s : State} (h : Keeps a0 s) {t : Nat} {i : QInsn} : Keeps a0 (State.vxscanStart s t i) := by
  unfold State.vxscanStart
  try dsimp only
  with_reducible repeat' first
      | assumption | apply State.updTile_keeps | apply State.raise_keeps | apply State.arrive_keeps | apply State.conflict_keeps
      | refine foldl_keeps ?_ _ _ ?_ | refine foldl_keeps_fst ?_ _ _ ?_ | refine ite_keeps ?_ ?_ | (intro _; try dsimp only) | split

theorem State.vxeStart_keeps {a0 s : State} (h : Keeps a0 s) {t : Nat} {i : QInsn} {k : InsnKind} : Keeps a0 (State.vxeStart s t i k) := by
  unfold State.vxeStart
  try dsimp only
  with_reducible repeat' first
      | assumption | apply State.setTile_keeps | apply State.raise_keeps | apply State.vxeRefused_keeps | apply State.vxscanStart_keeps
      | refine ite_keeps ?_ ?_ | (intro _; try dsimp only) | split

theorem execVxeInsnStart_keeps {a0 s : State} (h : Keeps a0 s) {t : TileNo} {r_ : State} (he : execVxeInsnStart t s = .next r_) : Keeps a0 r_ := by
  unfold execVxeInsnStart at he
  try dsimp only at he
  refine next_keeps he ?_
  clear he
  with_reducible repeat' first
      | assumption | apply State.vxeStart_keeps | split

theorem execVxeInsnComplete_keeps {a0 s : State} (h : Keeps a0 s) {t : TileNo} {n : Nat} {r_ : State} (he : execVxeInsnComplete t n s = .next r_) : Keeps a0 r_ := by
  unfold execVxeInsnComplete at he
  try dsimp only at he
  refine next_keeps he ?_
  clear he
  with_reducible repeat' first
      | assumption | apply State.updTile_keeps | (intro _; try dsimp only) | split

theorem execVdqpopRowArrival_keeps {a0 s : State} (h : Keeps a0 s) {t : TileNo} {r_ : State} (he : execVdqpopRowArrival t s = .next r_) : Keeps a0 r_ := by
  unfold execVdqpopRowArrival at he
  try dsimp only at he
  refine next_keeps he ?_
  clear he
  with_reducible repeat' first
      | assumption | apply State.updTile_keeps | (intro _; try dsimp only) | split

theorem execVxscanPrefixArrival_keeps {a0 s : State} (h : Keeps a0 s) {t : TileNo} {r_ : State} (he : execVxscanPrefixArrival t s = .next r_) : Keeps a0 r_ := by
  unfold execVxscanPrefixArrival at he
  try dsimp only at he
  refine next_keeps he ?_
  clear he
  with_reducible repeat' first
      | assumption | apply State.setTile_keeps | apply State.raise_keeps | refine foldl_keeps ?_ _ _ ?_ | refine ite_keeps ?_ ?_
      | (intro _; try dsimp only) | split

/-! ### TdmaInsn -/

theorem execTtgt_keeps {a0 s : State} (h : Keeps a0 s) {t : TileNo} {r_ : State} (he : execTtgt t s = .next r_) : Keeps a0 r_ := by
  unfold execTtgt at he
  try dsimp only at he
  refine next_keeps he ?_
  clear he
  with_reducible repeat' first
      | assumption | exact List.prefix_rfl | apply State.issueAs_keeps | apply doTtgt_keeps | refine foldl_keeps ?_ _ _ ?_ | refine ite_keeps ?_ ?_
      | refine ite_keeps_fst ?_ ?_ | (intro _; try dsimp only) | split | dsimp only
      | (simp only [Bbx.stage_hub, Bbx.stage_east]; exact List.prefix_rfl) | exact Mram.record_perm | apply State.ctlq_keeps
      | apply State.hubctl_keeps | apply State.hub_keeps | apply State.nodes_keeps

theorem execPutOp_keeps {a0 s : State} (h : Keeps a0 s) {t : TileNo} {r_ : State} (he : execPutOp t s = .next r_) : Keeps a0 r_ := by
  unfold execPutOp at he
  try dsimp only at he
  refine next_keeps he ?_
  clear he
  with_reducible repeat' first
      | assumption | exact List.prefix_rfl | apply State.issueAs_keeps | apply doRemote_keeps | refine foldl_keeps ?_ _ _ ?_ | refine ite_keeps ?_ ?_
      | refine ite_keeps_fst ?_ ?_ | (intro _; try dsimp only) | split | dsimp only
      | (simp only [Bbx.stage_hub, Bbx.stage_east]; exact List.prefix_rfl) | exact Mram.record_perm | apply State.ctlq_keeps
      | apply State.hubctl_keeps | apply State.hub_keeps | apply State.nodes_keeps

theorem execGetOp_keeps {a0 s : State} (h : Keeps a0 s) {t : TileNo} {r_ : State} (he : execGetOp t s = .next r_) : Keeps a0 r_ := by
  unfold execGetOp at he
  try dsimp only at he
  refine next_keeps he ?_
  clear he
  with_reducible repeat' first
      | assumption | exact List.prefix_rfl | apply State.issueAs_keeps | apply doRemote_keeps | refine foldl_keeps ?_ _ _ ?_ | refine ite_keeps ?_ ?_
      | refine ite_keeps_fst ?_ ?_ | (intro _; try dsimp only) | split | dsimp only
      | (simp only [Bbx.stage_hub, Bbx.stage_east]; exact List.prefix_rfl) | exact Mram.record_perm | apply State.ctlq_keeps
      | apply State.hubctl_keeps | apply State.hub_keeps | apply State.nodes_keeps

theorem execFadd_keeps {a0 s : State} (h : Keeps a0 s) {t : TileNo} {r_ : State} (he : execFadd t s = .next r_) : Keeps a0 r_ := by
  unfold execFadd at he
  try dsimp only at he
  refine next_keeps he ?_
  clear he
  with_reducible repeat' first
      | assumption | exact List.prefix_rfl | apply State.issueAs_keeps | apply doRemote_keeps | refine foldl_keeps ?_ _ _ ?_ | refine ite_keeps ?_ ?_
      | refine ite_keeps_fst ?_ ?_ | (intro _; try dsimp only) | split | dsimp only
      | (simp only [Bbx.stage_hub, Bbx.stage_east]; exact List.prefix_rfl) | exact Mram.record_perm | apply State.ctlq_keeps
      | apply State.hubctl_keeps | apply State.hub_keeps | apply State.nodes_keeps

theorem execCswap_keeps {a0 s : State} (h : Keeps a0 s) {t : TileNo} {r_ : State} (he : execCswap t s = .next r_) : Keeps a0 r_ := by
  unfold execCswap at he
  try dsimp only at he
  refine next_keeps he ?_
  clear he
  with_reducible repeat' first
      | assumption | exact List.prefix_rfl | apply State.issueAs_keeps | apply doRemote_keeps | refine foldl_keeps ?_ _ _ ?_ | refine ite_keeps ?_ ?_
      | refine ite_keeps_fst ?_ ?_ | (intro _; try dsimp only) | split | dsimp only
      | (simp only [Bbx.stage_hub, Bbx.stage_east]; exact List.prefix_rfl) | exact Mram.record_perm | apply State.ctlq_keeps
      | apply State.hubctl_keeps | apply State.hub_keeps | apply State.nodes_keeps

theorem execForOr_keeps {a0 s : State} (h : Keeps a0 s) {t : TileNo} {r_ : State} (he : execForOr t s = .next r_) : Keeps a0 r_ := by
  unfold execForOr at he
  try dsimp only at he
  refine next_keeps he ?_
  clear he
  with_reducible repeat' first
      | assumption | exact List.prefix_rfl | apply State.issueAs_keeps | apply doRemote_keeps | refine foldl_keeps ?_ _ _ ?_ | refine ite_keeps ?_ ?_
      | refine ite_keeps_fst ?_ ?_ | (intro _; try dsimp only) | split | dsimp only
      | (simp only [Bbx.stage_hub, Bbx.stage_east]; exact List.prefix_rfl) | exact Mram.record_perm | apply State.ctlq_keeps
      | apply State.hubctl_keeps | apply State.hub_keeps | apply State.nodes_keeps

theorem execTdmaOpStart_keeps {a0 s : State} (h : Keeps a0 s) {t : TileNo} {r_ : State} (he : execTdmaOpStart t s = .next r_) : Keeps a0 r_ := by
  unfold execTdmaOpStart at he
  try dsimp only at he
  refine next_keeps he ?_
  clear he
  with_reducible repeat' first
      | assumption | apply State.setTile_keeps | apply State.startOp_keeps | refine ite_keeps ?_ ?_ | split

/-! ### InrushOps -/

theorem State.noteScpm_keeps {a0 s : State} (h : Keeps a0 s) {k : Nat} : Keeps a0 (State.noteScpm s k) := by
  unfold State.noteScpm
  try dsimp only
  with_reducible repeat' first
      | assumption | apply State.hwr_keeps

theorem State.grantHeads_keeps {a0 s : State} (h : Keeps a0 s) {k : Nat} : ∀ x, Keeps a0 (State.grantHeads s k x)
  | 0 => by
    unfold State.grantHeads
    try dsimp only
    with_reducible repeat' first
      | assumption | exact List.prefix_rfl | apply State.grantHeads_keeps | apply State.emit_keeps | apply State.inc_keeps | apply State.updHub_keeps
      | apply State.noteScpm_keeps | refine ite_keeps ?_ ?_ | (intro _; try dsimp only) | split | dsimp only
  | n + 1 => by
    unfold State.grantHeads
    try dsimp only
    with_reducible repeat' first
      | assumption | exact List.prefix_rfl | apply State.grantHeads_keeps | apply State.emit_keeps | apply State.inc_keeps | apply State.updHub_keeps
      | apply State.noteScpm_keeps | refine ite_keeps ?_ ?_ | (intro _; try dsimp only) | split | dsimp only

theorem State.inrushAsk_keeps {a0 s : State} (h : Keeps a0 s) {k : Nat} {cell : W16} {cls : InrushClass} {unit : Nat} : Keeps a0 (State.inrushAsk s k cell cls unit) := by
  unfold State.inrushAsk
  try dsimp only
  with_reducible repeat' first
      | assumption | exact List.prefix_rfl | apply State.updHub_keeps | apply State.noteScpm_keeps | apply State.grantHeads_keeps
      | refine ite_keeps ?_ ?_ | (intro _; try dsimp only) | dsimp only

theorem State.dropInrush_keeps {a0 s : State} (h : Keeps a0 s) {k : Nat} {gone : W16 → Bool} : Keeps a0 (State.dropInrush s k gone) := by
  unfold State.dropInrush
  try dsimp only
  with_reducible repeat' first
      | assumption | exact List.prefix_rfl | apply State.updHub_keeps | apply State.noteScpm_keeps | (intro _; try dsimp only) | dsimp only

/-! ### SpmInsn -/

theorem execSpmMopqWrite_keeps {a0 s : State} (h : Keeps a0 s) {t : TileNo} {off : Nat} {bs : List Byte} {r_ : State} (he : execSpmMopqWrite t off bs s = .next r_) : Keeps a0 r_ := by
  unfold execSpmMopqWrite at he
  try dsimp only at he
  refine next_keeps he ?_
  clear he
  with_reducible repeat' first
      | assumption | apply State.updTile_keeps | (intro _; try dsimp only)

theorem execMopFill_keeps {a0 s : State} (h : Keeps a0 s) {t : TileNo} {r_ : State} (he : execMopFill t s = .next r_) : Keeps a0 r_ := by
  unfold execMopFill at he
  try dsimp only at he
  refine next_keeps he ?_
  clear he
  with_reducible repeat' first
      | assumption | apply State.updTile_keeps | (intro _; try dsimp only)

theorem execMopCopy_keeps {a0 s : State} (h : Keeps a0 s) {t : TileNo} {r_ : State} (he : execMopCopy t s = .next r_) : Keeps a0 r_ := by
  unfold execMopCopy at he
  try dsimp only at he
  refine next_keeps he ?_
  clear he
  with_reducible repeat' first
      | assumption | apply State.updTile_keeps | (intro _; try dsimp only)

theorem execMopEnd_keeps {a0 s : State} (h : Keeps a0 s) {t : TileNo} {r_ : State} (he : execMopEnd t s = .next r_) : Keeps a0 r_ := by
  unfold execMopEnd at he
  try dsimp only at he
  refine next_keeps he ?_
  clear he
  with_reducible repeat' first
      | assumption | apply State.setTile_keeps | apply State.tileBump_keeps | apply State.tilePoll_keeps | refine ite_keeps ?_ ?_ | split

theorem State.tilePower_keeps {a0 s : State} (h : Keeps a0 s) {t q op : Nat} : Keeps a0 (State.tilePower s t q op) := by
  unfold State.tilePower
  try dsimp only
  with_reducible repeat' first
      | assumption | apply State.updTile_keeps | apply State.inrushAsk_keeps | refine ite_keeps ?_ ?_ | (intro _; try dsimp only)

theorem execPwrUp_keeps {a0 s : State} (h : Keeps a0 s) {t : TileNo} {q : Fin 4} {r_ : State} (he : execPwrUp t q s = .next r_) : Keeps a0 r_ := by
  unfold execPwrUp at he
  try dsimp only at he
  refine next_keeps he ?_
  clear he
  with_reducible repeat' first
      | assumption | apply State.tilePower_keeps

theorem execPwrRetain_keeps {a0 s : State} (h : Keeps a0 s) {t : TileNo} {q : Fin 4} {r_ : State} (he : execPwrRetain t q s = .next r_) : Keeps a0 r_ := by
  unfold execPwrRetain at he
  try dsimp only at he
  refine next_keeps he ?_
  clear he
  with_reducible repeat' first
      | assumption | apply State.tilePower_keeps

theorem execPwrDown_keeps {a0 s : State} (h : Keeps a0 s) {t : TileNo} {q : Fin 4} {r_ : State} (he : execPwrDown t q s = .next r_) : Keeps a0 r_ := by
  unfold execPwrDown at he
  try dsimp only at he
  refine next_keeps he ?_
  clear he
  with_reducible repeat' first
      | assumption | apply State.tilePower_keeps

theorem execQuarterOn_keeps {a0 s : State} (h : Keeps a0 s) {t : TileNo} {q : Fin 4} {r_ : State} (he : execQuarterOn t q s = .next r_) : Keeps a0 r_ := by
  unfold execQuarterOn at he
  try dsimp only at he
  refine next_keeps he ?_
  clear he
  with_reducible repeat' first
      | assumption | apply State.updTile_keeps | refine ite_keeps ?_ ?_ | (intro _; try dsimp only)

theorem execSpmScrubTick_keeps {a0 s : State} (h : Keeps a0 s) {t : TileNo} {r_ : State} (he : execSpmScrubTick t s = .next r_) : Keeps a0 r_ := by
  unfold execSpmScrubTick at he
  try dsimp only at he
  refine next_keeps he ?_
  clear he
  with_reducible repeat' first
      | assumption | apply State.updTile_keeps | refine ite_keeps ?_ ?_ | (intro _; try dsimp only)

theorem execLiveRowRepair_keeps {a0 s : State} (h : Keeps a0 s) {t : TileNo} {r_ : State} (he : execLiveRowRepair t s = .next r_) : Keeps a0 r_ := by
  unfold execLiveRowRepair at he
  try dsimp only at he
  refine next_keeps he ?_
  clear he
  with_reducible repeat' first
      | assumption | apply State.setTile_keeps | apply State.report_keeps | refine ite_keeps ?_ ?_ | split

end Sys2Proof.Machine
end

