-- ==== Sys2Proof/Laws/KeepsPanel.lean ====
section
/-! SUPPORT. What the operations and commands of the network, the stacks, the scheduler and of faults keep. -/

set_option linter.all false
set_option maxRecDepth 8000

namespace Sys2Proof.Machine

/-! ### FabInsn -/

theorem State.ctlCross_keeps {a0 s : State} (h : Keeps a0 s) {n : Nat} {x : Nat × Nat} {fails : Nat} : Keeps a0 (State.ctlCross s n x fails) := by
  unfold State.ctlCross
  try dsimp only
  with_reducible repeat' first
      | assumption | exact List.prefix_rfl | apply State.updNode_keeps | apply State.updHub_keeps | apply State.ringPorts_keeps
      | refine ite_keeps ?_ ?_ | (intro _; try dsimp only) | split | dsimp only

theorem State.ctlGo_keeps {a0 s : State} (h : Keeps a0 s) {n : Nat} {errs : List (Fin 13 × Fin 4)} : ∀ x, Keeps a0 (State.ctlGo s n errs x).1
  | [] => by
    unfold State.ctlGo
    try dsimp only
    with_reducible repeat' first
      | assumption | exact List.prefix_rfl | apply State.ctlGo_keeps | apply State.ctlCross_keeps | refine foldl_keeps ?_ _ _ ?_
      | refine foldl_keeps_fst ?_ _ _ ?_ | refine ite_keeps ?_ ?_ | refine ite_keeps_fst ?_ ?_ | (intro _; try dsimp only) | split | dsimp only
      | (simp only [Bbx.stage_hub, Bbx.stage_east]; exact List.prefix_rfl) | exact Mram.record_perm | apply State.ctlq_keeps
      | apply State.hubctl_keeps | apply State.hub_keeps | apply State.nodes_keeps
  | y :: l => by
    unfold State.ctlGo
    try dsimp only
    with_reducible repeat' first
      | assumption | exact List.prefix_rfl | apply State.ctlGo_keeps | apply State.ctlCross_keeps | refine foldl_keeps ?_ _ _ ?_
      | refine foldl_keeps_fst ?_ _ _ ?_ | refine ite_keeps ?_ ?_ | refine ite_keeps_fst ?_ ?_ | (intro _; try dsimp only) | split | dsimp only
      | (simp only [Bbx.stage_hub, Bbx.stage_east]; exact List.prefix_rfl) | exact Mram.record_perm | apply State.ctlq_keeps
      | apply State.hubctl_keeps | apply State.hub_keeps | apply State.nodes_keeps

theorem State.ctlTravel_keeps {a0 s : State} (h : Keeps a0 s) {n : Nat} {errs : List (Fin 13 × Fin 4)} : Keeps a0 (State.ctlTravel s n errs).1 := by
  unfold State.ctlTravel
  try dsimp only
  with_reducible repeat' first
      | assumption | apply State.ctlGo_keeps | refine ite_keeps ?_ ?_ | refine ite_keeps_fst ?_ ?_ | (intro _; try dsimp only) | split

theorem State.ctlArrive_keeps {a0 s : State} (h : Keeps a0 s) {n : Nat} {errs : List (Fin 13 × Fin 4)} {kind : CtlPkt → Bool} {act : State → CtlPkt → State} (hact : ∀ x0 x1, Keeps a0 x0 → Keeps a0 (act x0 x1)) : Keeps a0 (State.ctlArrive s n errs kind act) := by
  unfold State.ctlArrive
  try dsimp only
  with_reducible repeat' first
      | assumption | apply hact | apply State.ctlTravel_keeps | refine ite_keeps ?_ ?_ | split | apply State.ctlq_keeps | apply State.hubctl_keeps
      | apply State.hub_keeps | apply State.nodes_keeps

theorem execCtlRegRsp_keeps {a0 s : State} (h : Keeps a0 s) {n : NodeNo} {errs : List (Fin 13 × Fin 4)} {r_ : State} (he : execCtlRegRsp n errs s = .next r_) : Keeps a0 r_ := by
  unfold execCtlRegRsp at he
  try dsimp only at he
  refine next_keeps he ?_
  clear he
  with_reducible repeat' first
      | assumption | exact List.prefix_rfl | apply State.ctlArrive_keeps | (intro _; try dsimp only) | split | apply State.ctlq_keeps
      | apply State.hubctl_keeps | apply State.hub_keeps | apply State.nodes_keeps

theorem execHeartbeatSend_keeps {a0 s : State} (h : Keeps a0 s) {n : NodeNo} {r_ : State} (he : execHeartbeatSend n s = .next r_) : Keeps a0 r_ := by
  unfold execHeartbeatSend at he
  try dsimp only at he
  refine next_keeps he ?_
  clear he
  with_reducible repeat' first
      | assumption | apply State.ctlq_keeps | apply State.hubctl_keeps | apply State.hub_keeps | apply State.nodes_keeps

theorem execCtlHeartbeat_keeps {a0 s : State} (h : Keeps a0 s) {n : NodeNo} {errs : List (Fin 13 × Fin 4)} {r_ : State} (he : execCtlHeartbeat n errs s = .next r_) : Keeps a0 r_ := by
  unfold execCtlHeartbeat at he
  try dsimp only at he
  refine next_keeps he ?_
  clear he
  with_reducible repeat' first
      | assumption | exact List.prefix_rfl | apply State.ctlArrive_keeps | (intro _; try dsimp only) | apply State.ctlq_keeps
      | apply State.hubctl_keeps | apply State.hub_keeps | apply State.nodes_keeps

theorem execSyncArrival_keeps {a0 s : State} (h : Keeps a0 s) {n : NodeNo} {ch : Fin 17} {c : SyncChild} {r_ : State} (he : execSyncArrival n ch c s = .next r_) : Keeps a0 r_ := by
  unfold execSyncArrival at he
  try dsimp only at he
  refine next_keeps he ?_
  clear he
  with_reducible repeat' first
      | assumption | apply State.syncFromTile_keeps | apply State.syncFromEdge_keeps | split

theorem execSyncDelivery_keeps {a0 s : State} (h : Keeps a0 s) {n : NodeNo} {ch : Fin 16} {r_ : State} (he : execSyncDelivery n ch s = .next r_) : Keeps a0 r_ := by
  unfold execSyncDelivery at he
  try dsimp only at he
  refine next_keeps he ?_
  clear he
  with_reducible repeat' first
      | assumption | apply State.syncClear_keeps | apply State.syncDeliver_keeps | refine ite_keeps ?_ ?_

/-! ### RouteOps -/

theorem State.rerouteOf_keeps {a0 s : State} (h : Keeps a0 s) {l : List Nat} : Keeps a0 (State.rerouteOf s l) := by
  unfold State.rerouteOf
  try dsimp only
  with_reducible repeat' first
      | assumption | apply State.updNode_keeps | refine foldl_keeps ?_ _ _ ?_ | (intro _; try dsimp only)

theorem State.reroute_keeps {a0 s : State} (h : Keeps a0 s)  : Keeps a0 (State.reroute s) := by
  unfold State.reroute
  try dsimp only
  with_reducible repeat' first
      | assumption | exact List.prefix_rfl | apply State.updHub_keeps | apply State.rerouteOf_keeps | (intro _; try dsimp only) | dsimp only

theorem State.rerouteLate_keeps {a0 s : State} (h : Keeps a0 s)  : Keeps a0 (State.rerouteLate s) := by
  unfold State.rerouteLate
  try dsimp only
  with_reducible repeat' first
      | assumption | apply State.reroute_keeps | refine ite_keeps ?_ ?_

theorem State.markEnd_keeps {a0 s : State} (h : Keeps a0 s) {n e : Nat} : Keeps a0 (State.markEnd s n e) := by
  unfold State.markEnd
  try dsimp only
  with_reducible repeat' first
      | assumption | apply State.updFab_keeps | (intro _; try dsimp only)

theorem State.cutSite_keeps {a0 s : State} (h : Keeps a0 s) {p : Nat} : Keeps a0 (State.cutSite s p) := by
  unfold State.cutSite
  try dsimp only
  with_reducible repeat' first
      | assumption | apply State.markEnd_keeps | refine foldl_keeps ?_ _ _ ?_ | refine ite_keeps ?_ ?_ | (intro _; try dsimp only) | split

/-! ### PanelOps -/

theorem State.editAnat_keeps {a0 s : State} (h : Keeps a0 s) {f : Anat → Anat} : Keeps a0 (State.editAnat s f) := by
  unfold State.editAnat
  try dsimp only
  with_reducible repeat' first
      | assumption | exact List.prefix_rfl | apply State.updHub_keeps | (intro _; try dsimp only) | dsimp only

theorem State.raiseReason_keeps {a0 s : State} (h : Keeps a0 s) {n : Nat} : Keeps a0 (State.raiseReason s n) := by
  unfold State.raiseReason
  try dsimp only
  with_reducible repeat' first
      | assumption | apply State.emit_keeps | apply State.hwr_keeps | apply State.bb_keeps | apply State.event_keeps | apply State.mbaPfs_keeps
      | refine ite_keeps ?_ ?_

theorem State.stopped_keeps {a0 s : State} (h : Keeps a0 s) {p why : Nat} : Keeps a0 (State.stopped s p why) := by
  unfold State.stopped
  try dsimp only
  with_reducible repeat' first
      | assumption | apply State.endCmd_keeps | apply State.event_keeps | refine foldl_keeps ?_ _ _ ?_ | refine ite_keeps ?_ ?_
      | (intro _; try dsimp only)

theorem State.haltNow_keeps {a0 s : State} (h : Keeps a0 s) {p why : Nat} : Keeps a0 (State.haltNow s p why) := by
  unfold State.haltNow
  try dsimp only
  with_reducible repeat' first
      | assumption | apply State.updPart_keeps | apply State.rerouteLate_keeps | apply State.stopped_keeps | (intro _; try dsimp only)

theorem State.haltRequest_keeps {a0 s : State} (h : Keeps a0 s) {p why : Nat} : Keeps a0 (State.haltRequest s p why) := by
  unfold State.haltRequest
  try dsimp only
  with_reducible repeat' first
      | assumption | exact List.prefix_rfl | apply State.updPart_keeps | apply State.updHub_keeps | apply State.rollback_keeps
      | refine ite_keeps ?_ ?_ | (intro _; try dsimp only) | split | dsimp only

theorem State.markDown_keeps {a0 s : State} (h : Keeps a0 s) {n : Nat} {down : Bool} : Keeps a0 (State.markDown s n down) := by
  unfold State.markDown
  try dsimp only
  with_reducible repeat' first
      | assumption | refine ite_keeps ?_ ?_ | (intro _; try dsimp only) | apply State.ctlq_keeps | apply State.hubctl_keeps | apply State.hub_keeps
      | apply State.nodes_keeps

theorem State.stackDegraded_keeps {a0 s : State} (h : Keeps a0 s) {k : Nat} : Keeps a0 (State.stackDegraded s k) := by
  unfold State.stackDegraded
  try dsimp only
  with_reducible repeat' first
      | assumption | exact List.prefix_rfl | apply State.updPart_keeps | apply State.bb_keeps | apply State.event_keeps | apply State.editAnat_keeps
      | apply State.raiseReason_keeps | apply State.haltRequest_keeps | apply State.markDown_keeps | refine ite_keeps ?_ ?_
      | (intro _; try dsimp only)

theorem State.abortCmds_keeps {a0 s : State} (h : Keeps a0 s) {p : Nat} {keep : HostCmd → Bool} : Keeps a0 (State.abortCmds s p keep) := by
  unfold State.abortCmds
  try dsimp only
  with_reducible repeat' first
      | assumption | apply State.updPart_keeps | apply State.endCmd_keeps | refine foldl_keeps ?_ _ _ ?_ | refine ite_keeps ?_ ?_
      | (intro _; try dsimp only)

/-! ### StackInsn -/

theorem State.snWinResult_keeps {a0 s : State} (h : Keeps a0 s) {k : Nat} {c : BitVec 512} {i : Nat} {status : BitVec 8} : Keeps a0 (State.snWinResult s k c i status) := by
  unfold State.snWinResult
  try dsimp only
  with_reducible repeat' first
      | assumption | apply State.sendResult_keeps

theorem State.snRun_keeps {a0 s : State} (h : Keeps a0 s) {k op : Nat} {f : BitVec 512 → State → State} (hf : ∀ x0 x1, Keeps a0 x1 → Keeps a0 (f x0 x1)) : Keeps a0 (State.snRun s k op f) := by
  unfold State.snRun
  try dsimp only
  with_reducible repeat' first
      | assumption | apply hf | apply State.updStack_keeps | refine ite_keeps ?_ ?_ | (intro _; try dsimp only) | split

theorem State.snWopen_keeps {a0 s : State} (h : Keeps a0 s) {k : Nat} {c : BitVec 512} : Keeps a0 (State.snWopen s k c) := by
  unfold State.snWopen
  try dsimp only
  with_reducible repeat' first
      | assumption | apply State.setStack_keeps | apply State.till_keeps | apply State.snWinResult_keeps | refine ite_keeps ?_ ?_

theorem execSnWopen_keeps {a0 s : State} (h : Keeps a0 s) {k : StackNo} {r_ : State} (he : execSnWopen k s = .next r_) : Keeps a0 r_ := by
  unfold execSnWopen at he
  try dsimp only at he
  refine next_keeps he ?_
  clear he
  with_reducible repeat' first
      | assumption | apply State.snRun_keeps | apply State.snWopen_keeps | (intro _; try dsimp only)

theorem State.snCloseEnds_keeps {a0 s : State} (h : Keeps a0 s) {k : Nat} {c : BitVec 512} {i dcnt : Nat} {status : BitVec 8} : Keeps a0 (State.snCloseEnds s k c i dcnt status) := by
  unfold State.snCloseEnds
  try dsimp only
  with_reducible repeat' first
      | assumption | apply State.updStack_keeps | apply State.settleStack_keeps | apply State.stackPoll_keeps | apply State.snWinResult_keeps
      | (intro _; try dsimp only)

theorem execSnCloseNow_keeps {a0 s : State} (h : Keeps a0 s) {k : StackNo} {r_ : State} (he : execSnCloseNow k s = .next r_) : Keeps a0 r_ := by
  unfold execSnCloseNow at he
  try dsimp only at he
  refine next_keeps he ?_
  clear he
  with_reducible repeat' first
      | assumption | apply State.setStack_keeps | apply State.settleStack_keeps | apply State.stackPoll_keeps | apply State.snRun_keeps
      | apply State.snCloseEnds_keeps | refine ite_keeps ?_ ?_ | (intro _; try dsimp only)

theorem execSnCloseQuiesce_keeps {a0 s : State} (h : Keeps a0 s) {k : StackNo} {r_ : State} (he : execSnCloseQuiesce k s = .next r_) : Keeps a0 r_ := by
  unfold execSnCloseQuiesce at he
  try dsimp only at he
  refine next_keeps he ?_
  clear he
  with_reducible repeat' first
      | assumption | apply State.setStack_keeps | apply State.settleStack_keeps | apply State.stackPoll_keeps | apply State.snRun_keeps
      | apply State.snCloseEnds_keeps | refine ite_keeps ?_ ?_ | (intro _; try dsimp only)

theorem execSnWquery_keeps {a0 s : State} (h : Keeps a0 s) {k : StackNo} {r_ : State} (he : execSnWquery k s = .next r_) : Keeps a0 r_ := by
  unfold execSnWquery at he
  try dsimp only at he
  refine next_keeps he ?_
  clear he
  with_reducible repeat' first
      | assumption | apply State.snWinResult_keeps | apply State.snRun_keeps | (intro _; try dsimp only)

theorem execSnCcntSet_keeps {a0 s : State} (h : Keeps a0 s) {k : StackNo} {r_ : State} (he : execSnCcntSet k s = .next r_) : Keeps a0 r_ := by
  unfold execSnCcntSet at he
  try dsimp only at he
  refine next_keeps he ?_
  clear he
  with_reducible repeat' first
      | assumption | apply State.updStack_keeps | apply State.sendResult_keeps | apply State.settleStack_keeps | apply State.stackPoll_keeps
      | apply State.snRun_keeps | (intro _; try dsimp only)

theorem State.failAccepted_keeps {a0 s : State} (h : Keeps a0 s) {k c : Nat} : Keeps a0 (State.failAccepted s k c) := by
  unfold State.failAccepted
  try dsimp only
  with_reducible repeat' first
      | assumption | apply State.updNode_keeps | apply State.setStack_keeps | apply State.emit_keeps | apply State.settleStack_keeps
      | apply State.stackPoll_keeps | apply State.answer_keeps | refine foldl_keeps ?_ _ _ ?_ | refine foldl_keeps_fst ?_ _ _ ?_
      | refine ite_keeps ?_ ?_ | (intro _; try dsimp only)

theorem State.retireChannel_keeps {a0 s : State} (h : Keeps a0 s) {k c why : Nat} : Keeps a0 (State.retireChannel s k c why) := by
  unfold State.retireChannel
  try dsimp only
  with_reducible repeat' first
      | assumption | apply State.updStack_keeps | apply State.stackDegraded_keeps | apply State.failAccepted_keeps | refine ite_keeps ?_ ?_
      | (intro _; try dsimp only)

theorem State.checkLimits_keeps {a0 s : State} (h : Keeps a0 s) {k : Nat} : Keeps a0 (State.checkLimits s k) := by
  unfold State.checkLimits
  try dsimp only
  with_reducible repeat' first
      | assumption | apply State.retireChannel_keeps | refine foldl_keeps ?_ _ _ ?_ | refine ite_keeps ?_ ?_ | (intro _; try dsimp only)

theorem State.checkRead_keeps {a0 s : State} (h : Keeps a0 s) {k : Nat} {x : Stack} : Keeps a0 (State.checkRead s k x) := by
  unfold State.checkRead
  try dsimp only
  with_reducible repeat' first
      | assumption | apply State.checkLimits_keeps | refine ite_keeps ?_ ?_

theorem State.sxePump_keeps {a0 s : State} (h : Keeps a0 s) {k : Nat} : ∀ x, Keeps a0 (State.sxePump s k x)
  | 0 => by
    unfold State.sxePump
    try dsimp only
    with_reducible repeat' first
      | assumption | apply State.setStack_keeps | apply State.sxePump_keeps | apply State.drawn_keeps | apply State.issueSeg_keeps
      | apply State.checkRead_keeps | refine ite_keeps ?_ ?_ | split
  | n + 1 => by
    unfold State.sxePump
    try dsimp only
    with_reducible repeat' first
      | assumption | apply State.setStack_keeps | apply State.sxePump_keeps | apply State.drawn_keeps | apply State.issueSeg_keeps
      | apply State.checkRead_keeps | refine ite_keeps ?_ ?_ | split

theorem State.sxeGo_keeps {a0 s : State} (h : Keeps a0 s) {k : Nat} : Keeps a0 (State.sxeGo s k) := by
  unfold State.sxeGo
  try dsimp only
  with_reducible repeat' first
      | assumption | apply State.sxePump_keeps | split

theorem State.sxeStart_keeps {a0 s : State} (h : Keeps a0 s) {k : Nat} {c : BitVec 512} {ok : Bool} : Keeps a0 (State.sxeStart s k c ok) := by
  unfold State.sxeStart
  try dsimp only
  with_reducible repeat' first
      | assumption | apply State.setStack_keeps | apply State.sendResult_keeps | apply State.sxeGo_keeps | refine ite_keeps ?_ ?_

theorem State.sxeCommand_keeps {a0 s : State} (h : Keeps a0 s) {k op : Nat} {ok : BitVec 512 → Bool} : Keeps a0 (State.sxeCommand s k op ok) := by
  unfold State.sxeCommand
  try dsimp only
  with_reducible repeat' first
      | assumption | apply State.setStack_keeps | apply State.updStack_keeps | apply State.snRun_keeps | apply State.sxeStart_keeps
      | refine ite_keeps ?_ ?_ | (intro _; try dsimp only) | split

theorem execSxeStrided_keeps {a0 s : State} (h : Keeps a0 s) {k : StackNo} {r_ : State} (he : execSxeStrided k s = .next r_) : Keeps a0 r_ := by
  unfold execSxeStrided at he
  try dsimp only at he
  refine next_keeps he ?_
  clear he
  with_reducible repeat' first
      | assumption | apply State.sxeCommand_keeps

theorem execSxeTranspose_keeps {a0 s : State} (h : Keeps a0 s) {k : StackNo} {r_ : State} (he : execSxeTranspose k s = .next r_) : Keeps a0 r_ := by
  unfold execSxeTranspose at he
  try dsimp only at he
  refine next_keeps he ?_
  clear he
  with_reducible repeat' first
      | assumption | apply State.sxeCommand_keeps

theorem execSxeCommandEnd_keeps {a0 s : State} (h : Keeps a0 s) {k : StackNo} {r_ : State} (he : execSxeCommandEnd k s = .next r_) : Keeps a0 r_ := by
  unfold execSxeCommandEnd at he
  try dsimp only at he
  refine next_keeps he ?_
  clear he
  with_reducible repeat' first
      | assumption | apply State.updStack_keeps | apply State.sendResult_keeps | refine ite_keeps ?_ ?_ | (intro _; try dsimp only) | split

theorem execSnFence_keeps {a0 s : State} (h : Keeps a0 s) {k : StackNo} {r_ : State} (he : execSnFence k s = .next r_) : Keeps a0 r_ := by
  unfold execSnFence at he
  try dsimp only at he
  refine next_keeps he ?_
  clear he
  with_reducible repeat' first
      | assumption | apply State.sendResult_keeps | apply State.snRun_keeps | refine ite_keeps ?_ ?_ | (intro _; try dsimp only)

theorem execSnBadOpcode_keeps {a0 s : State} (h : Keeps a0 s) {k : StackNo} {r_ : State} (he : execSnBadOpcode k s = .next r_) : Keeps a0 r_ := by
  unfold execSnBadOpcode at he
  try dsimp only at he
  refine next_keeps he ?_
  clear he
  with_reducible repeat' first
      | assumption | apply State.updStack_keeps | apply State.sendResult_keeps | refine ite_keeps ?_ ?_ | (intro _; try dsimp only) | split

theorem State.stackPower_keeps {a0 s : State} (h : Keeps a0 s) {k op : Nat} {fw : Bool} {own : Nat} : Keeps a0 (State.stackPower s k op fw own) := by
  unfold State.stackPower
  try dsimp only
  with_reducible repeat' first
      | assumption | apply State.updStack_keeps | apply State.inrushAsk_keeps | refine ite_keeps ?_ ?_ | (intro _; try dsimp only)

theorem execSnSelfRefresh_keeps {a0 s : State} (h : Keeps a0 s) {k : StackNo} {r_ : State} (he : execSnSelfRefresh k s = .next r_) : Keeps a0 r_ := by
  unfold execSnSelfRefresh at he
  try dsimp only at he
  refine next_keeps he ?_
  clear he
  with_reducible repeat' first
      | assumption | apply State.stackPower_keeps

theorem execSnOff_keeps {a0 s : State} (h : Keeps a0 s) {k : StackNo} {fw : Bool} {r_ : State} (he : execSnOff k fw s = .next r_) : Keeps a0 r_ := by
  unfold execSnOff at he
  try dsimp only at he
  refine next_keeps he ?_
  clear he
  with_reducible repeat' first
      | assumption | apply State.stackPower_keeps

theorem execSnWake_keeps {a0 s : State} (h : Keeps a0 s) {k : StackNo} {r_ : State} (he : execSnWake k s = .next r_) : Keeps a0 r_ := by
  unfold execSnWake at he
  try dsimp only at he
  refine next_keeps he ?_
  clear he
  with_reducible repeat' first
      | assumption | apply State.stackPower_keeps

theorem execSelfRefreshExit_keeps {a0 s : State} (h : Keeps a0 s) {k : StackNo} {r_ : State} (he : execSelfRefreshExit k s = .next r_) : Keeps a0 r_ := by
  unfold execSelfRefreshExit at he
  try dsimp only at he
  refine next_keeps he ?_
  clear he
  with_reducible repeat' first
      | assumption | apply State.updStack_keeps | refine ite_keeps ?_ ?_ | (intro _; try dsimp only)

theorem execStackReadLate_keeps {a0 s : State} (h : Keeps a0 s) {k : StackNo} {r_ : State} (he : execStackReadLate k s = .next r_) : Keeps a0 r_ := by
  unfold execStackReadLate at he
  try dsimp only at he
  refine next_keeps he ?_
  clear he
  with_reducible repeat' first
      | assumption | apply State.updStack_keeps | (intro _; try dsimp only)

theorem execSnPatrolScrub_keeps {a0 s : State} (h : Keeps a0 s) {k : StackNo} {r_ : State} (he : execSnPatrolScrub k s = .next r_) : Keeps a0 r_ := by
  unfold execSnPatrolScrub at he
  try dsimp only at he
  refine next_keeps he ?_
  clear he
  with_reducible repeat' first
      | assumption | apply State.setStack_keeps | apply State.checkRead_keeps | refine ite_keeps ?_ ?_

theorem execSnChunkRepair_keeps {a0 s : State} (h : Keeps a0 s) {k : StackNo} {ppr : Bool} {r_ : State} (he : execSnChunkRepair k ppr s = .next r_) : Keeps a0 r_ := by
  unfold execSnChunkRepair at he
  try dsimp only at he
  refine next_keeps he ?_
  clear he
  with_reducible repeat' first
      | assumption | apply State.setStack_keeps | apply State.report_keeps | apply State.retireChannel_keeps | apply State.remap_keeps
      | refine ite_keeps ?_ ?_ | split

theorem execSnRecalibration_keeps {a0 s : State} (h : Keeps a0 s) {k : StackNo} {failed : List (Fin 32)} {ecc : W32} {r_ : State} (he : execSnRecalibration k failed ecc s = .next r_) : Keeps a0 r_ := by
  unfold execSnRecalibration at he
  try dsimp only at he
  refine next_keeps he ?_
  clear he
  with_reducible repeat' first
      | assumption | apply State.setStack_keeps | apply State.updStack_keeps | apply State.retireChannel_keeps | refine foldl_keeps ?_ _ _ ?_
      | refine ite_keeps ?_ ?_ | (intro _; try dsimp only)

theorem State.trainStack_keeps {a0 s : State} (h : Keeps a0 s) {k : Nat} : Keeps a0 (State.trainStack s k) := by
  unfold State.trainStack
  try dsimp only
  with_reducible repeat' first
      | assumption | apply State.updStack_keeps | apply State.remap_keeps | apply step_keeps | (intro _; try dsimp only)

/-! ### SchedOps -/

theorem State.mapTiles_keeps {a0 s : State} (h : Keeps a0 s) {l : List Nat} {f : Nat → Tile → Tile} : Keeps a0 (State.mapTiles s l f) := by
  unfold State.mapTiles
  try dsimp only
  with_reducible repeat' first
      | assumption | apply State.updTile_keeps | refine foldl_keeps ?_ _ _ ?_ | (intro _; try dsimp only)

theorem State.mapNodes_keeps {a0 s : State} (h : Keeps a0 s) {l : List Nat} {f : Node → Node} : Keeps a0 (State.mapNodes s l f) := by
  unfold State.mapNodes
  try dsimp only
  with_reducible repeat' first
      | assumption | apply State.updNode_keeps | refine foldl_keeps ?_ _ _ ?_ | (intro _; try dsimp only)

theorem State.mapStacks_keeps {a0 s : State} (h : Keeps a0 s) {l : List Nat} {f : Stack → Stack} : Keeps a0 (State.mapStacks s l f) := by
  unfold State.mapStacks
  try dsimp only
  with_reducible repeat' first
      | assumption | apply State.updStack_keeps | refine foldl_keeps ?_ _ _ ?_ | (intro _; try dsimp only)

theorem State.openRegs_keeps {a0 s : State} (h : Keeps a0 s) {p : Nat} : Keeps a0 (State.openRegs s p) := by
  unfold State.openRegs
  try dsimp only
  with_reducible repeat' first
      | assumption | exact List.prefix_rfl | apply State.updPort_keeps | apply State.updPart_keeps | apply State.updHub_keeps
      | apply State.mapTiles_keeps | apply State.mapNodes_keeps | apply State.mapStacks_keeps | refine foldl_keeps ?_ _ _ ?_
      | refine foldl_keeps_fst ?_ _ _ ?_ | (intro _; try dsimp only) | dsimp only

theorem State.snCloseLost_keeps {a0 s : State} (h : Keeps a0 s) {k : Nat} : Keeps a0 (State.snCloseLost s k) := by
  unfold State.snCloseLost
  try dsimp only
  with_reducible repeat' first
      | assumption | apply State.sendResult_keeps | refine foldl_keeps ?_ _ _ ?_ | refine foldl_keeps_fst ?_ _ _ ?_ | (intro _; try dsimp only)
      | split

theorem State.snAbandon_keeps {a0 s : State} (h : Keeps a0 s) {k : Nat} : Keeps a0 (State.snAbandon s k) := by
  unfold State.snAbandon
  try dsimp only
  with_reducible repeat' first
      | assumption | apply State.updNode_keeps | apply State.setStack_keeps | apply State.sendResult_keeps | apply State.snCloseLost_keeps
      | (intro _; try dsimp only) | split

theorem State.partCloseWindows_keeps {a0 s : State} (h : Keeps a0 s) {p : Nat} : Keeps a0 (State.partCloseWindows s p) := by
  unfold State.partCloseWindows
  try dsimp only
  with_reducible repeat' first
      | assumption | apply State.mapTiles_keeps | apply State.mapStacks_keeps | (intro _; try dsimp only)

theorem State.partCloseAll_keeps {a0 s : State} (h : Keeps a0 s) {p : Nat} {re : Bool} : Keeps a0 (State.partCloseAll s p re) := by
  unfold State.partCloseAll
  try dsimp only
  with_reducible repeat' first
      | assumption | exact List.prefix_rfl | apply State.updPort_keeps | apply State.updPart_keeps | apply State.hwr_keeps | apply State.updHub_keeps
      | apply State.mapTiles_keeps | apply State.mapNodes_keeps | apply State.mapStacks_keeps | apply State.snAbandon_keeps
      | apply State.partCloseWindows_keeps | refine foldl_keeps ?_ _ _ ?_ | refine foldl_keeps_fst ?_ _ _ ?_ | (intro _; try dsimp only) | dsimp only

theorem State.mbbFreeTiles_keeps {a0 s : State} (h : Keeps a0 s) {p : Nat} : Keeps a0 (State.mbbFreeTiles s p) := by
  unfold State.mbbFreeTiles
  try dsimp only
  with_reducible repeat' first
      | assumption | apply State.mbbFree_keeps | refine foldl_keeps ?_ _ _ ?_ | refine ite_keeps ?_ ?_ | (intro _; try dsimp only)

theorem State.partTileReset_keeps {a0 s : State} (h : Keeps a0 s) {p : Nat} : Keeps a0 (State.partTileReset s p) := by
  unfold State.partTileReset
  try dsimp only
  with_reducible repeat' first
      | assumption | apply State.mapTiles_keeps | apply State.mapNodes_keeps | apply State.mbbFreeTiles_keeps | (intro _; try dsimp only)

theorem State.unbindKeys_keeps {a0 s : State} (h : Keeps a0 s) {p : Nat} : Keeps a0 (State.unbindKeys s p) := by
  unfold State.unbindKeys
  try dsimp only
  with_reducible repeat' first
      | assumption | apply State.updNode_keeps | apply State.updPort_keeps | apply State.wr_keeps | refine foldl_keeps ?_ _ _ ?_
      | refine foldl_keeps_fst ?_ _ _ ?_ | refine ite_keeps ?_ ?_ | (intro _; try dsimp only)

theorem State.connsError_keeps {a0 s : State} (h : Keeps a0 s) {p : Nat} : Keeps a0 (State.connsError s p) := by
  unfold State.connsError
  try dsimp only
  with_reducible repeat' first
      | assumption | apply State.updPort_keeps | apply State.wr_keeps | refine foldl_keeps ?_ _ _ ?_ | refine foldl_keeps_fst ?_ _ _ ?_
      | refine ite_keeps ?_ ?_ | (intro _; try dsimp only)

theorem State.railsReport_keeps {a0 s : State} (h : Keeps a0 s) {p : Nat} {self : Bool} : Keeps a0 (State.railsReport s p self) := by
  unfold State.railsReport
  try dsimp only
  with_reducible repeat' first
      | assumption | apply State.wr_keeps | refine foldl_keeps ?_ _ _ ?_ | refine foldl_keeps_fst ?_ _ _ ?_ | refine ite_keeps ?_ ?_
      | (intro _; try dsimp only)

theorem State.enterCode_keeps {a0 s : State} (h : Keeps a0 s) {p r : Nat} {start : Bool} : Keeps a0 (State.enterCode s p r start) := by
  unfold State.enterCode
  try dsimp only
  with_reducible repeat' first
      | assumption | apply State.mapTiles_keeps | refine ite_keeps ?_ ?_ | (intro _; try dsimp only)

theorem State.openScheduled_keeps {a0 s : State} (h : Keeps a0 s) {p : Nat} : Keeps a0 (State.openScheduled s p) := by
  unfold State.openScheduled
  try dsimp only
  with_reducible repeat' first
      | assumption | apply State.updStack_keeps | apply State.till_keeps | apply State.mapTiles_keeps | apply State.mapStacks_keeps
      | refine foldl_keeps ?_ _ _ ?_ | refine ite_keeps ?_ ?_ | (intro _; try dsimp only)

theorem State.restore_keeps {a0 s : State} (h : Keeps a0 s) {p : Nat} {molt : Bool} : Keeps a0 (State.restore s p molt) := by
  unfold State.restore
  try dsimp only
  with_reducible repeat' first
      | assumption | apply State.updPart_keeps | apply State.mapTiles_keeps | apply State.partCloseWindows_keeps | apply State.partCloseAll_keeps
      | apply State.partTileReset_keeps | apply State.enterCode_keeps | apply State.openScheduled_keeps | refine ite_keeps ?_ ?_
      | (intro _; try dsimp only) | split

theorem State.setSch_keeps {a0 s : State} (h : Keeps a0 s) {p : Nat} {st : SchState} : Keeps a0 (State.setSch s p st) := by
  unfold State.setSch
  try dsimp only
  with_reducible repeat' first
      | assumption | apply State.updPart_keeps | (intro _; try dsimp only)

theorem State.rollback_keeps {a0 s : State} (h : Keeps a0 s) {p : Nat} : Keeps a0 (State.rollback s p) := by
  unfold State.rollback
  try dsimp only
  with_reducible repeat' first
      | assumption | apply State.updPart_keeps | apply State.haltNow_keeps | apply State.railsReport_keeps | apply State.restore_keeps
      | apply State.setSch_keeps | refine ite_keeps ?_ ?_ | (intro _; try dsimp only)

theorem State.clearStep_keeps {a0 s : State} (h : Keeps a0 s) {p : Nat} : Keeps a0 (State.clearStep s p) := by
  unfold State.clearStep
  try dsimp only
  with_reducible repeat' first
      | assumption | apply State.mapTiles_keeps | apply State.mapNodes_keeps | (intro _; try dsimp only)

theorem State.sendWb_keeps {a0 s : State} (h : Keeps a0 s) {p : Nat} {wb : Wingbeat} : Keeps a0 (State.sendWb s p wb) := by
  unfold State.sendWb
  try dsimp only
  with_reducible repeat' first
      | assumption | apply State.updPart_keeps | apply State.emit_keeps | (intro _; try dsimp only)

theorem State.sendFirst_keeps {a0 s : State} (h : Keeps a0 s) {p : Nat} {resume : Bool} : Keeps a0 (State.sendFirst s p resume) := by
  unfold State.sendFirst
  try dsimp only
  with_reducible repeat' first
      | assumption | apply State.clearStep_keeps | apply State.sendWb_keeps | refine ite_keeps ?_ ?_

/-! ### Packet -/

theorem State.issueCell_keeps {a0 s : State} (h : Keeps a0 s) {n : Nat} {src : Src} {members : List Tgt} {g : Segment} {why : IssWhy} : Keeps a0 (State.issueCell s n src members g why) := by
  unfold State.issueCell
  try dsimp only
  with_reducible repeat' first
      | assumption | apply State.issueSeg_keeps | refine foldl_keeps ?_ _ _ ?_ | refine foldl_keeps_fst ?_ _ _ ?_ | (intro _; try dsimp only)

/-! ### Loader -/

theorem State.writeRoutes_keeps {a0 s : State} (h : Keeps a0 s) {p : Nat} : Keeps a0 (State.writeRoutes s p) := by
  unfold State.writeRoutes
  try dsimp only
  with_reducible repeat' first
      | assumption | apply State.updFab_keeps | apply State.mapNodes_keeps | refine foldl_keeps ?_ _ _ ?_ | refine foldl_keeps_fst ?_ _ _ ?_
      | (intro _; try dsimp only) | split

theorem State.writeData_keeps {a0 s : State} (h : Keeps a0 s) {p : Nat} : Keeps a0 (State.writeData s p) := by
  unfold State.writeData
  try dsimp only
  with_reducible repeat' first
      | assumption | apply State.updStack_keeps | apply State.mapTiles_keeps | refine foldl_keeps ?_ _ _ ?_ | refine foldl_keeps_fst ?_ _ _ ?_
      | (intro _; try dsimp only)

theorem State.writeTileXd_keeps {a0 s : State} (h : Keeps a0 s) {p t : Nat} : Keeps a0 (State.writeTileXd s p t) := by
  unfold State.writeTileXd
  try dsimp only
  with_reducible repeat' first
      | assumption | apply State.updTile_keeps | refine foldl_keeps ?_ _ _ ?_ | refine foldl_keeps_fst ?_ _ _ ?_ | (intro _; try dsimp only)

theorem State.writeStackXd_keeps {a0 s : State} (h : Keeps a0 s) {p k rank : Nat} : Keeps a0 (State.writeStackXd s p k rank) := by
  unfold State.writeStackXd
  try dsimp only
  with_reducible repeat' first
      | assumption | apply State.updStack_keeps | refine foldl_keeps ?_ _ _ ?_ | refine foldl_keeps_fst ?_ _ _ ?_ | (intro _; try dsimp only)

theorem State.writeExchange_keeps {a0 s : State} (h : Keeps a0 s) {p : Nat} : Keeps a0 (State.writeExchange s p) := by
  unfold State.writeExchange
  try dsimp only
  with_reducible repeat' first
      | assumption | apply State.mapNodes_keeps | apply State.writeTileXd_keeps | apply State.writeStackXd_keeps | refine foldl_keeps ?_ _ _ ?_
      | refine foldl_keeps_fst ?_ _ _ ?_ | (intro _; try dsimp only)

theorem State.setChannel_keeps {a0 s : State} (h : Keeps a0 s) {ch dom : Nat} {members : List (Nat × Nat)} {all : List Nat} : Keeps a0 (State.setChannel s ch dom members all) := by
  unfold State.setChannel
  try dsimp only
  with_reducible repeat' first
      | assumption | apply State.updNode_keeps | refine foldl_keeps ?_ _ _ ?_ | refine foldl_keeps_fst ?_ _ _ ?_ | refine ite_keeps ?_ ?_
      | (intro _; try dsimp only) | split

theorem State.stepChannel_keeps {a0 s : State} (h : Keeps a0 s) {p : Nat} : Keeps a0 (State.stepChannel s p) := by
  unfold State.stepChannel
  try dsimp only
  with_reducible repeat' first
      | assumption | apply State.setChannel_keeps | refine ite_keeps ?_ ?_ | (intro _; try dsimp only)

theorem State.writeSync_keeps {a0 s : State} (h : Keeps a0 s) {p : Nat} : Keeps a0 (State.writeSync s p) := by
  unfold State.writeSync
  try dsimp only
  with_reducible repeat' first
      | assumption | apply State.mapNodes_keeps | apply State.setChannel_keeps | apply State.stepChannel_keeps | refine foldl_keeps ?_ _ _ ?_
      | refine foldl_keeps_fst ?_ _ _ ?_ | (intro _; try dsimp only)

theorem State.twinLead_keeps {a0 s : State} (h : Keeps a0 s) {p : Nat} : Keeps a0 (State.twinLead s p) := by
  unfold State.twinLead
  try dsimp only
  with_reducible repeat' first
      | assumption | apply State.updNode_keeps | apply State.updPart_keeps | refine ite_keeps ?_ ?_ | (intro _; try dsimp only)

theorem State.resync_keeps {a0 s : State} (h : Keeps a0 s) {p : Nat} : Keeps a0 (State.resync s p) := by
  unfold State.resync
  try dsimp only
  with_reducible repeat' first
      | assumption | apply State.updNode_keeps | apply State.updPart_keeps | apply State.mapNodes_keeps | apply State.writeSync_keeps
      | apply State.twinLead_keeps | (intro _; try dsimp only)

theorem State.powerWindows_keeps {a0 s : State} (h : Keeps a0 s) {p : Nat} : Keeps a0 (State.powerWindows s p) := by
  unfold State.powerWindows
  try dsimp only
  with_reducible repeat' first
      | assumption | apply State.mapTiles_keeps | (intro _; try dsimp only)

theorem State.endImage_keeps {a0 s : State} (h : Keeps a0 s) {p : Nat} : Keeps a0 (State.endImage s p) := by
  unfold State.endImage
  try dsimp only
  with_reducible repeat' first
      | assumption | apply State.mapTiles_keeps | (intro _; try dsimp only)

theorem State.loadImage_keeps {a0 s : State} (h : Keeps a0 s) {p : Nat} {z : Zsi} : Keeps a0 (State.loadImage s p z) := by
  unfold State.loadImage
  try dsimp only
  with_reducible repeat' first
      | assumption | exact List.prefix_rfl | apply State.updPart_keeps | apply State.updHub_keeps | apply State.measure_keeps
      | apply State.mapTiles_keeps | apply State.mapNodes_keeps | apply State.mbbFreeTiles_keeps | apply State.enterCode_keeps
      | apply State.openScheduled_keeps | apply State.writeRoutes_keeps | apply State.writeData_keeps | apply State.writeExchange_keeps
      | apply State.resync_keeps | apply State.powerWindows_keeps | (intro _; try dsimp only) | dsimp only

/-! ### RepairOps -/

theorem State.mramAppend_keeps {a s : State} (h : Keeps a s) {f : Mram → Mram} (hf : ∀ m, m.perm <+: (f m).perm) : Keeps a (s.mramAppend f) := by
  unfold State.mramAppend
  refine State.updHub_keeps h ?_ ?_ <;> (dsimp only; split)
  · exact hf _
  · exact List.prefix_rfl
  · exact hf _
  · exact List.prefix_rfl

theorem State.loadRemaps_keeps {a0 s : State} (h : Keeps a0 s) {n : Nat} : Keeps a0 (State.loadRemaps s n) := by
  unfold State.loadRemaps
  try dsimp only
  with_reducible repeat' first
      | assumption | apply State.updTile_keeps | apply State.updNode_keeps | refine foldl_keeps ?_ _ _ ?_ | (intro _; try dsimp only) | split

theorem State.settleRemaps_keeps {a0 s old : State} (h : Keeps a0 s) {n : Nat} : Keeps a0 (State.settleRemaps s old n) := by
  unfold State.settleRemaps
  split
  · exact h
  · refine ite_keeps (State.loadRemaps_keeps (State.updNode_keeps ?_)) ?_
    · exact foldl_keeps (fun _ _ h => State.updTile_keeps h) _ _ h
    · exact foldl_keeps (fun _ _ h => ite_keeps h (State.updTile_keeps h)) _ _ h

/-! ### ClockOps -/

theorem State.updDpm_keeps {a0 s : State} (h : Keeps a0 s) {n : Nat} {f : Dpm → Dpm} : Keeps a0 (State.updDpm s n f) := by
  unfold State.updDpm
  try dsimp only
  with_reducible repeat' first
      | assumption | exact List.prefix_rfl | apply State.updHub_keeps | (intro _; try dsimp only) | dsimp only

theorem State.setClocks_keeps {a0 s : State} (h : Keeps a0 s) {n : Nat} : Keeps a0 (State.setClocks s n) := by
  unfold State.setClocks
  try dsimp only
  with_reducible repeat' first
      | assumption | apply State.wr_keeps | refine foldl_keeps ?_ _ _ ?_ | refine ite_keeps ?_ ?_ | (intro _; try dsimp only)

theorem State.freshRegs_keeps {a0 s : State} (h : Keeps a0 s) {n : Nat} : Keeps a0 (State.freshRegs s n) := by
  unfold State.freshRegs
  try dsimp only
  with_reducible repeat' first
      | assumption | exact List.prefix_rfl | apply State.wr_keeps | apply State.clearPlace_keeps | apply State.updHub_keeps
      | (intro _; try dsimp only) | dsimp only

/-! ### FaultOps -/

theorem State.softAppend_keeps {a0 s : State} (h : Keeps a0 s) {r : BitVec 64} : Keeps a0 (State.softAppend s r) := by
  unfold State.softAppend
  try dsimp only
  with_reducible repeat' first
      | assumption | exact List.prefix_rfl | apply State.inc_keeps | apply State.updHub_keeps | apply State.raiseReason_keeps
      | refine foldl_keeps ?_ _ _ ?_ | refine foldl_keeps_fst ?_ _ _ ?_ | refine ite_keeps ?_ ?_ | refine ite_keeps_fst ?_ ?_
      | (intro _; try dsimp only) | split | dsimp only | (simp only [Bbx.stage_hub, Bbx.stage_east]; exact List.prefix_rfl) | exact Mram.record_perm
      | apply State.ctlq_keeps | apply State.hubctl_keeps | apply State.hub_keeps | apply State.nodes_keeps

theorem State.checkSpares_keeps {a0 s : State} (h : Keeps a0 s)  : Keeps a0 (State.checkSpares s) := by
  unfold State.checkSpares
  try dsimp only
  with_reducible repeat' first
      | assumption | apply State.raiseReason_keeps | refine ite_keeps ?_ ?_

theorem State.dieOff_keeps {a0 s : State} (h : Keeps a0 s) {n : Nat} : Keeps a0 (State.dieOff s n) := by
  unfold State.dieOff
  try dsimp only
  with_reducible repeat' first
      | assumption | apply State.updTile_keeps | apply State.updNode_keeps | apply State.updStack_keeps | apply State.setPower_keeps
      | refine foldl_keeps ?_ _ _ ?_ | refine foldl_keeps_fst ?_ _ _ ?_ | refine ite_keeps ?_ ?_ | (intro _; try dsimp only)

theorem State.noteInvalid_keeps {a0 s : State} (h : Keeps a0 s) {p n : Nat} : Keeps a0 (State.noteInvalid s p n) := by
  unfold State.noteInvalid
  try dsimp only
  with_reducible repeat' first
      | assumption | apply State.hwr_keeps

theorem State.enterProgram_keeps {a0 s : State} (h : Keeps a0 s) {p : Nat} : Keeps a0 (State.enterProgram s p) := by
  unfold State.enterProgram
  try dsimp only
  with_reducible repeat' first
      | assumption | apply State.writeRoutes_keeps | apply State.writeExchange_keeps | apply State.powerWindows_keeps

theorem State.shrink_keeps {a0 s : State} (h : Keeps a0 s) {n p : Nat} : Keeps a0 (State.shrink s n p) := by
  unfold State.shrink
  try dsimp only
  with_reducible repeat' first
      | assumption | exact List.prefix_rfl | apply State.updPart_keeps | apply State.hwr_keeps | apply State.bb_keeps | apply State.event_keeps
      | apply State.reroute_keeps | apply State.rerouteLate_keeps | apply State.editAnat_keeps | apply State.raiseReason_keeps
      | apply State.haltNow_keeps | apply State.markDown_keeps | apply State.restore_keeps | apply State.setSch_keeps | apply State.rollback_keeps
      | apply State.resync_keeps | apply State.softAppend_keeps | apply State.noteInvalid_keeps | apply State.enterProgram_keeps
      | (intro _; try dsimp only) | split

theorem State.unmapPart_keeps {a0 s : State} (h : Keeps a0 s) {p : Nat} : Keeps a0 (State.unmapPart s p) := by
  unfold State.unmapPart
  try dsimp only
  with_reducible repeat' first
      | assumption | apply State.updFn_keeps | refine foldl_keeps ?_ _ _ ?_ | refine ite_keeps ?_ ?_ | (intro _; try dsimp only)

theorem State.moltStart_keeps {a0 s : State} (h : Keeps a0 s) {n p : Nat} : Keeps a0 (State.moltStart s n p) := by
  unfold State.moltStart
  try dsimp only
  with_reducible repeat' first
      | assumption | exact List.prefix_rfl | apply State.updPart_keeps | apply State.hwr_keeps | apply State.updHub_keeps | apply State.reroute_keeps
      | apply State.markDown_keeps | apply State.abortCmds_keeps | apply State.unbindKeys_keeps | apply State.railsReport_keeps
      | apply State.rollback_keeps | apply State.dieOff_keeps | apply State.unmapPart_keeps | refine ite_keeps ?_ ?_ | (intro _; try dsimp only)
      | split | dsimp only

theorem State.portLost_keeps {a0 s : State} (h : Keeps a0 s) {q : Nat} : Keeps a0 (State.portLost s q) := by
  unfold State.portLost
  try dsimp only
  with_reducible repeat' first
      | assumption | apply State.updPort_keeps | apply State.raiseReason_keeps | refine ite_keeps ?_ ?_ | (intro _; try dsimp only)

theorem State.strand_keeps {a0 s : State} (h : Keeps a0 s) {k own : Nat} : Keeps a0 (State.strand s k own) := by
  unfold State.strand
  try dsimp only
  with_reducible repeat' first
      | assumption | apply State.haltNow_keeps | refine foldl_keeps ?_ _ _ ?_ | (intro _; try dsimp only)

theorem State.declareLost_keeps {a0 s : State} (h : Keeps a0 s) {n cause : Nat} : Keeps a0 (State.declareLost s n cause) := by
  unfold State.declareLost
  try dsimp only
  with_reducible repeat' first
      | assumption | exact List.prefix_rfl | apply State.updStack_keeps | apply State.hwr_keeps | apply State.inc_keeps | apply State.updHub_keeps
      | apply State.reroute_keeps | apply State.editAnat_keeps | apply State.stackDegraded_keeps | apply State.dieOff_keeps | apply State.shrink_keeps
      | apply State.moltStart_keeps | apply State.portLost_keeps | apply State.strand_keeps | refine ite_keeps ?_ ?_ | (intro _; try dsimp only)
      | split | dsimp only

theorem State.freshDie_keeps {a0 s : State} (h : Keeps a0 s) {n p : Nat} : Keeps a0 (State.freshDie s n p) := by
  unfold State.freshDie
  try dsimp only
  with_reducible repeat' first
      | assumption | apply State.updTile_keeps | apply State.updNode_keeps | apply State.setPower_keeps | apply State.mapNodes_keeps
      | apply State.loadRemaps_keeps | apply State.setClocks_keeps | apply State.freshRegs_keeps | refine foldl_keeps ?_ _ _ ?_
      | refine foldl_keeps_fst ?_ _ _ ?_ | (intro _; try dsimp only)

theorem State.substitute_keeps {a0 s : State} (h : Keeps a0 s) {n site p : Nat} : Keeps a0 (State.substitute s n site p) := by
  unfold State.substitute
  try dsimp only
  with_reducible repeat' first
      | assumption | exact List.prefix_rfl | apply State.updHub_keeps | apply State.reroute_keeps | apply State.editAnat_keeps
      | apply State.markDown_keeps | apply State.softAppend_keeps | apply State.enterProgram_keeps | apply State.freshDie_keeps
      | (intro _; try dsimp only) | dsimp only

theorem State.moltEnd_keeps {a0 s : State} (h : Keeps a0 s) {p : Nat} {resumed : Bool} : Keeps a0 (State.moltEnd s p resumed) := by
  unfold State.moltEnd
  try dsimp only
  with_reducible repeat' first
      | assumption | exact List.prefix_rfl | apply State.hwr_keeps | apply State.inc_keeps | apply State.updHub_keeps | apply State.bb_keeps
      | apply State.event_keeps | refine foldl_keeps ?_ _ _ ?_ | refine foldl_keeps_fst ?_ _ _ ?_ | refine ite_keeps ?_ ?_ | (intro _; try dsimp only)
      | dsimp only

theorem State.moltReady_keeps {a0 s : State} (h : Keeps a0 s) {p : Nat} : Keeps a0 (State.moltReady s p) := by
  unfold State.moltReady
  try dsimp only
  with_reducible repeat' first
      | assumption | apply State.partCloseAll_keeps | apply State.restore_keeps | apply State.rollback_keeps | apply State.resync_keeps
      | apply State.moltEnd_keeps | refine ite_keeps ?_ ?_ | (intro _; try dsimp only) | split

theorem State.cocoon_keeps {a0 s : State} (h : Keeps a0 s) {code : Nat} {service hubBad : Bool} : Keeps a0 (State.cocoon s code service hubBad) := by
  unfold State.cocoon
  try dsimp only
  with_reducible repeat' first
      | assumption | exact List.prefix_rfl | apply State.updStack_keeps | apply State.updPort_keeps | apply State.emit_keeps | apply State.wr_keeps
      | apply State.hwr_keeps | apply State.updHub_keeps | apply State.bb_keeps | apply State.endCmd_keeps | apply State.raiseReason_keeps
      | apply State.haltNow_keeps | apply State.dieOff_keeps | refine foldl_keeps ?_ _ _ ?_ | refine foldl_keeps_fst ?_ _ _ ?_
      | refine ite_keeps ?_ ?_ | (intro _; try dsimp only) | dsimp only

/-! ### WbsOps -/

theorem State.tillTb_keeps {a0 s : State} (h : Keeps a0 s) {t : Nat} : Keeps a0 (State.tillTb s t) := by
  unfold State.tillTb
  try dsimp only
  with_reducible repeat' first
      | assumption | apply State.till_keeps | split

theorem State.sendNext_keeps {a0 s : State} (h : Keeps a0 s) {ps : List Nat} : Keeps a0 (State.sendNext s ps) := by
  unfold State.sendNext
  try dsimp only
  with_reducible repeat' first
      | assumption | apply State.updPart_keeps | apply State.railsReport_keeps | apply State.sendWb_keeps | apply State.tillTb_keeps
      | refine foldl_keeps ?_ _ _ ?_ | refine foldl_keeps_fst ?_ _ _ ?_ | refine ite_keeps ?_ ?_ | (intro _; try dsimp only)

theorem State.leaveStep_keeps {a0 s : State} (h : Keeps a0 s) {t : Nat} : Keeps a0 (State.leaveStep s t) := by
  unfold State.leaveStep
  try dsimp only
  with_reducible repeat' first
      | assumption | apply State.advance_keeps | apply step_keeps | split

theorem State.releaseFlags_keeps {a0 s : State} (h : Keeps a0 s) {p v : Nat} {flags : Byte} {closing : Bool} : Keeps a0 (State.releaseFlags s p v flags closing) := by
  unfold State.releaseFlags
  try dsimp only
  with_reducible repeat' first
      | assumption | apply State.mapTiles_keeps | refine ite_keeps ?_ ?_ | (intro _; try dsimp only)

theorem State.takeCkpt_keeps {a0 s : State} (h : Keeps a0 s) {p r w : Nat} {loops : Table Nat} : Keeps a0 (State.takeCkpt s p r w loops) := by
  unfold State.takeCkpt
  try dsimp only
  with_reducible repeat' first
      | assumption | apply State.updPart_keeps | (intro _; try dsimp only) | split

theorem State.clearPhase_keeps {a0 s : State} (h : Keeps a0 s) {p : Nat} : Keeps a0 (State.clearPhase s p) := by
  unfold State.clearPhase
  try dsimp only
  with_reducible repeat' first
      | assumption | apply State.mapNodes_keeps | apply State.mapStacks_keeps | (intro _; try dsimp only)

theorem State.noteBeat_keeps {a0 s : State} (h : Keeps a0 s) {p r t : Nat} : Keeps a0 (State.noteBeat s p r t) := by
  unfold State.noteBeat
  try dsimp only
  with_reducible repeat' first
      | assumption | apply State.updPart_keeps | (intro _; try dsimp only)

theorem State.releaseWb_keeps {a0 s : State} (h : Keeps a0 s) {p : Nat} {wb : Wingbeat} : Keeps a0 (State.releaseWb s p wb) := by
  unfold State.releaseWb
  try dsimp only
  with_reducible repeat' first
      | assumption | apply State.updPart_keeps | apply State.mapTiles_keeps | apply State.railsReport_keeps | apply State.tillTb_keeps
      | apply State.leaveStep_keeps | apply State.releaseFlags_keeps | apply State.takeCkpt_keeps | apply State.clearPhase_keeps
      | apply State.noteBeat_keeps | refine foldl_keeps ?_ _ _ ?_ | refine foldl_keeps_fst ?_ _ _ ?_ | refine ite_keeps ?_ ?_
      | (intro _; try dsimp only)

theorem State.haltAtCombine_keeps {a0 s : State} (h : Keeps a0 s) {p c : Nat} : Keeps a0 (State.haltAtCombine s p c) := by
  unfold State.haltAtCombine
  try dsimp only
  with_reducible repeat' first
      | assumption | apply State.updPart_keeps | apply State.haltNow_keeps | refine ite_keeps ?_ ?_ | (intro _; try dsimp only)

theorem State.twinCleared_keeps {a0 s : State} (h : Keeps a0 s)  : Keeps a0 (State.twinCleared s) := by
  unfold State.twinCleared
  try dsimp only
  with_reducible repeat' first
      | assumption | exact List.prefix_rfl | apply State.updHub_keeps | apply State.raiseReason_keeps | refine ite_keeps ?_ ?_
      | (intro _; try dsimp only) | dsimp only

theorem State.commitStep_keeps {a0 s : State} (h : Keeps a0 s) {p c word : Nat} : Keeps a0 (State.commitStep s p c word) := by
  unfold State.commitStep
  try dsimp only
  with_reducible repeat' first
      | assumption | apply State.updPart_keeps | apply State.mapTiles_keeps | apply State.haltAtCombine_keeps | apply State.twinCleared_keeps
      | refine ite_keeps ?_ ?_ | (intro _; try dsimp only)

theorem State.failReplay_keeps {a0 s : State} (h : Keeps a0 s) {ps : List Nat} {c : Nat} : Keeps a0 (State.failReplay s ps c) := by
  unfold State.failReplay
  try dsimp only
  with_reducible repeat' first
      | assumption | apply State.updPart_keeps | apply State.rollback_keeps | apply State.haltAtCombine_keeps | refine foldl_keeps ?_ _ _ ?_
      | refine foldl_keeps_fst ?_ _ _ ?_ | refine ite_keeps ?_ ?_ | (intro _; try dsimp only)

theorem State.twinMismatch_keeps {a0 s : State} (h : Keeps a0 s) {ps : List Nat} : Keeps a0 (State.twinMismatch s ps) := by
  unfold State.twinMismatch
  try dsimp only
  with_reducible repeat' first
      | assumption | apply State.updPart_keeps | apply State.bb_keeps | apply State.raiseReason_keeps | apply State.haltNow_keeps
      | apply State.rollback_keeps | refine foldl_keeps ?_ _ _ ?_ | refine foldl_keeps_fst ?_ _ _ ?_ | refine ite_keeps ?_ ?_
      | (intro _; try dsimp only)

theorem State.combine_keeps {a0 s : State} (h : Keeps a0 s) {ps : List Nat} : Keeps a0 (State.combine s ps) := by
  unfold State.combine
  try dsimp only
  with_reducible repeat' first
      | assumption | exact List.prefix_rfl | apply State.updPart_keeps | apply State.updHub_keeps | apply State.haltNow_keeps
      | apply State.rollback_keeps | apply State.clearStep_keeps | apply State.commitStep_keeps | apply State.failReplay_keeps
      | apply State.twinMismatch_keeps | refine foldl_keeps ?_ _ _ ?_ | refine foldl_keeps_fst ?_ _ _ ?_ | refine ite_keeps ?_ ?_
      | (intro _; try dsimp only) | split | dsimp only

theorem State.schedPacket_keeps {a0 s : State} (h : Keeps a0 s) {n : Nat} {src : W16} {tag : W16} {d : BitVec 256} {g : Option Tgt × Nat × Nat × Nat} {data : List Byte} {poison : Bool} : Keeps a0 (State.schedPacket s n src tag d g data poison) := by
  unfold State.schedPacket
  try dsimp only
  with_reducible repeat' first
      | assumption | apply State.emit_keeps

theorem State.descRead_keeps {a0 s : State} (h : Keeps a0 s) {t o : Nat} : Keeps a0 (State.descRead s t o) := by
  unfold State.descRead
  try dsimp only
  with_reducible repeat' first
      | assumption | apply State.updTile_keeps | apply State.bankFault_keeps | (intro _; try dsimp only) | split

theorem State.streamGuard_keeps {a0 s : State} (h : Keeps a0 s) {t : Nat} {d : BitVec 256} {gs : List (Option Tgt × Nat × Nat × Nat)} : Keeps a0 (State.streamGuard s t d gs) := by
  unfold State.streamGuard
  try dsimp only
  with_reducible repeat' first
      | assumption | apply State.bankFault_keeps | (intro _; try dsimp only) | split

theorem State.tileStream_keeps {a0 s : State} (h : Keeps a0 s) {t : Nat} {d : BitVec 256} {late : List Nat} {replay : Bool} : Keeps a0 (State.tileStream s t d late replay) := by
  unfold State.tileStream
  try dsimp only
  with_reducible repeat' first
      | assumption | apply State.setTile_keeps | apply State.updTile_keeps | apply State.updNode_keeps | apply State.tileBump_keeps
      | apply State.schedPacket_keeps | apply State.streamGuard_keeps | refine foldl_keeps ?_ _ _ ?_ | refine foldl_keeps_fst ?_ _ _ ?_
      | refine ite_keeps ?_ ?_ | (intro _; try dsimp only)

theorem State.stackStream_keeps {a0 s : State} (h : Keeps a0 s) {k j : Nat} {d : BitVec 256} {late : List Nat} : Keeps a0 (State.stackStream s k j d late) := by
  unfold State.stackStream
  try dsimp only
  with_reducible repeat' first
      | assumption | apply State.setStack_keeps | apply State.updStack_keeps | apply State.schedPacket_keeps | refine foldl_keeps ?_ _ _ ?_
      | refine foldl_keeps_fst ?_ _ _ ?_ | refine ite_keeps ?_ ?_ | (intro _; try dsimp only)

/-! ### SchedInsn -/

theorem execEndComplete_keeps {a0 s : State} (h : Keeps a0 s) {t : TileNo} {r_ : State} (he : execEndComplete t s = .next r_) : Keeps a0 r_ := by
  unfold execEndComplete at he
  try dsimp only at he
  refine next_keeps he ?_
  clear he
  with_reducible repeat' first
      | assumption | apply State.updPart_keeps | apply State.endComplete_keeps | apply State.stopped_keeps | apply State.endImage_keeps
      | refine ite_keeps ?_ ?_ | (intro _; try dsimp only)

theorem State.endNowait_keeps {a0 s : State} (h : Keeps a0 s) {ps : List Nat} : Keeps a0 (State.endNowait s ps) := by
  unfold State.endNowait
  try dsimp only
  with_reducible repeat' first
      | assumption | apply State.endCmd_keeps | refine foldl_keeps ?_ _ _ ?_ | (intro _; try dsimp only)

theorem execWingbeatSend_keeps {a0 s : State} (h : Keeps a0 s) {p : PartNo} {r_ : State} (he : execWingbeatSend p s = .next r_) : Keeps a0 r_ := by
  unfold execWingbeatSend at he
  try dsimp only at he
  refine next_keeps he ?_
  clear he
  with_reducible repeat' first
      | assumption | apply State.sendFirst_keeps | apply State.sendNext_keeps | apply State.endNowait_keeps | refine foldl_keeps ?_ _ _ ?_
      | refine ite_keeps ?_ ?_ | (intro _; try dsimp only)

theorem execWingbeatArrival_keeps {a0 s : State} (h : Keeps a0 s) {n : NodeNo} {r_ : State} (he : execWingbeatArrival n s = .next r_) : Keeps a0 r_ := by
  unfold execWingbeatArrival at he
  try dsimp only at he
  refine next_keeps he ?_
  clear he
  with_reducible repeat' first
      | assumption | apply State.updNode_keeps | apply State.updStack_keeps | apply State.mapTiles_keeps | refine ite_keeps ?_ ?_
      | (intro _; try dsimp only) | split

theorem execWingbeatRelease_keeps {a0 s : State} (h : Keeps a0 s) {p : PartNo} {r_ : State} (he : execWingbeatRelease p s = .next r_) : Keeps a0 r_ := by
  unfold execWingbeatRelease at he
  try dsimp only at he
  refine next_keeps he ?_
  clear he
  with_reducible repeat' first
      | assumption | apply State.releaseWb_keeps | split

theorem execXchgStreamStart_keeps {a0 s : State} (h : Keeps a0 s) {n : NodeNo} {i : Fin 16} {j : Nat} {late : List Nat} {r_ : State} (he : execXchgStreamStart n i j late s = .next r_) : Keeps a0 r_ := by
  unfold execXchgStreamStart at he
  try dsimp only at he
  refine next_keeps he ?_
  clear he
  with_reducible repeat' first
      | assumption | apply State.tilePoll_keeps | apply State.tillTb_keeps | apply State.descRead_keeps | apply State.tileStream_keeps
      | apply State.stackStream_keeps | refine ite_keeps ?_ ?_ | split

theorem execStackReadRelease_keeps {a0 s : State} (h : Keeps a0 s) {k : StackNo} {j : Nat} {r_ : State} (he : execStackReadRelease k j s = .next r_) : Keeps a0 r_ := by
  unfold execStackReadRelease at he
  try dsimp only at he
  refine next_keeps he ?_
  clear he
  with_reducible repeat' first
      | assumption | apply State.setStack_keeps | apply State.drawn_keeps | apply State.checkRead_keeps | apply State.tillTb_keeps
      | refine ite_keeps ?_ ?_ | split

theorem execExchangeReport_keeps {a0 s : State} (h : Keeps a0 s) {n : NodeNo} {r_ : State} (he : execExchangeReport n s = .next r_) : Keeps a0 r_ := by
  unfold execExchangeReport at he
  try dsimp only at he
  refine next_keeps he ?_
  clear he
  with_reducible repeat' first
      | assumption | apply State.updNode_keeps | apply State.updStack_keeps | apply State.syncAdd_keeps | apply State.mapTiles_keeps
      | apply State.tillTb_keeps | apply step_keeps | refine ite_keeps ?_ ?_ | (intro _; try dsimp only)

theorem execStepCombine_keeps {a0 s : State} (h : Keeps a0 s) {p : PartNo} {r_ : State} (he : execStepCombine p s = .next r_) : Keeps a0 r_ := by
  unfold execStepCombine at he
  try dsimp only at he
  refine next_keeps he ?_
  clear he
  with_reducible repeat' first
      | assumption | apply State.combine_keeps | refine ite_keeps ?_ ?_ | (intro _; try dsimp only)

theorem execResumeWingbeat_keeps {a0 s : State} (h : Keeps a0 s) {p : PartNo} {r_ : State} (he : execResumeWingbeat p s = .next r_) : Keeps a0 r_ := by
  unfold execResumeWingbeat at he
  try dsimp only at he
  refine next_keeps he ?_
  clear he
  with_reducible repeat' first
      | assumption | apply State.updPart_keeps | apply State.haltNow_keeps | apply State.rollback_keeps | apply State.sendFirst_keeps
      | apply State.moltEnd_keeps | apply State.endNowait_keeps | refine foldl_keeps ?_ _ _ ?_ | refine ite_keeps ?_ ?_ | (intro _; try dsimp only)

theorem execWingbeatWatchdog_keeps {a0 s : State} (h : Keeps a0 s) {p : PartNo} {silent : List NodeNo} {r_ : State} (he : execWingbeatWatchdog p silent s = .next r_) : Keeps a0 r_ := by
  unfold execWingbeatWatchdog at he
  try dsimp only at he
  refine next_keeps he ?_
  clear he
  with_reducible repeat' first
      | assumption | exact List.prefix_rfl | apply State.inc_keeps | apply State.updHub_keeps | apply State.stopped_keeps | apply State.haltNow_keeps
      | apply State.tillTb_keeps | apply step_keeps | refine foldl_keeps ?_ _ _ ?_ | refine ite_keeps ?_ ?_ | (intro _; try dsimp only) | dsimp only

/-! ### FaultInsn -/

theorem State.loseEdgeless_keeps {a0 s : State} (h : Keeps a0 s) {ns : List Nat} : Keeps a0 (State.loseEdgeless s ns) := by
  unfold State.loseEdgeless
  try dsimp only
  with_reducible repeat' first
      | assumption | apply State.declareLost_keeps | refine foldl_keeps ?_ _ _ ?_ | refine ite_keeps ?_ ?_ | (intro _; try dsimp only)

theorem State.linkFailed_keeps {a0 s : State} (h : Keeps a0 s) {n e : Nat} : Keeps a0 (State.linkFailed s n e) := by
  unfold State.linkFailed
  try dsimp only
  with_reducible repeat' first
      | assumption | apply State.reroute_keeps | apply State.markEnd_keeps | apply State.declareLost_keeps | apply State.loseEdgeless_keeps
      | refine foldl_keeps ?_ _ _ ?_ | refine foldl_keeps_fst ?_ _ _ ?_ | refine ite_keeps ?_ ?_ | (intro _; try dsimp only) | split

theorem State.linkUe_keeps {a0 s : State} (h : Keeps a0 s) {n e : Nat} : Keeps a0 (State.linkUe s n e) := by
  unfold State.linkUe
  try dsimp only
  with_reducible repeat' first
      | assumption | apply State.updFab_keeps | apply State.linkFailed_keeps | refine ite_keeps ?_ ?_ | (intro _; try dsimp only)

theorem State.hopHead_keeps {a0 s : State} (h : Keeps a0 s) {n fc : Nat} {h : PktHead} {r : Nat × Nat × Bool} : Keeps a0 (State.hopHead s n fc h r) := by
  unfold State.hopHead
  try dsimp only
  with_reducible repeat' first
      | assumption | apply State.emit_keeps | apply State.updFab_keeps | refine ite_keeps ?_ ?_ | (intro _; try dsimp only)

theorem State.meetHead_keeps {a0 s : State} (h : Keeps a0 s) {n : Nat} {h : PktHead} : Keeps a0 (State.meetHead s n h).1 := by
  unfold State.meetHead
  try dsimp only
  with_reducible repeat' first
      | assumption | apply State.emit_keeps | apply State.updFab_keeps | apply State.linkUe_keeps | apply State.answer_keeps
      | refine foldl_keeps ?_ _ _ ?_ | refine foldl_keeps_fst ?_ _ _ ?_ | refine ite_keeps ?_ ?_ | refine ite_keeps_fst ?_ ?_
      | (intro _; try dsimp only) | split

theorem State.headIn_keeps {a0 s : State} (h : Keeps a0 s) {n fc : Nat} {h : PktHead} : Keeps a0 (State.headIn s n fc h) := by
  unfold State.headIn
  try dsimp only
  with_reducible repeat' first
      | assumption | apply State.hopHead_keeps | apply State.meetHead_keeps | refine ite_keeps ?_ ?_ | split

theorem State.headInject_keeps {a0 s : State} (h : Keeps a0 s) {n fc : Nat} {h : PktHead} : Keeps a0 (State.headInject s n fc h) := by
  unfold State.headInject
  try dsimp only
  with_reducible repeat' first
      | assumption | apply State.updFab_keeps | apply State.hopHead_keeps | apply State.meetHead_keeps | refine ite_keeps ?_ ?_
      | (intro _; try dsimp only) | split

theorem execRouterHeadArrival_keeps {a0 s : State} (h : Keeps a0 s) {n : NodeNo} {fc : Nat} {hs : List PktHead} {r_ : State} (he : execRouterHeadArrival n fc hs s = .next r_) : Keeps a0 r_ := by
  unfold execRouterHeadArrival at he
  try dsimp only at he
  refine next_keeps he ?_
  clear he
  with_reducible repeat' first
      | assumption | apply State.updFab_keeps | apply State.headIn_keeps | apply State.headInject_keeps | refine foldl_keeps ?_ _ _ ?_
      | (intro _; try dsimp only)

theorem execScheduledFlitArrival_keeps {a0 s : State} (h : Keeps a0 s) {n : NodeNo} {fc : Nat} {inPort inCh : Nat} {dev : BitVec 24} {r_ : State} (he : execScheduledFlitArrival n fc inPort inCh dev s = .next r_) : Keeps a0 r_ := by
  unfold execScheduledFlitArrival at he
  try dsimp only at he
  refine next_keeps he ?_
  clear he
  with_reducible repeat' first
      | assumption | apply State.emit_keeps | apply State.updFab_keeps | apply State.linkUe_keeps | refine foldl_keeps ?_ _ _ ?_
      | refine foldl_keeps_fst ?_ _ _ ?_ | refine ite_keeps ?_ ?_ | (intro _; try dsimp only) | split

theorem State.onMsg_keeps {a0 s : State} (h : Keeps a0 s) {n : Nat} {m : CtlMsg} : Keeps a0 (State.onMsg s n m) := by
  unfold State.onMsg
  try dsimp only
  with_reducible repeat' first
      | assumption | exact List.prefix_rfl | apply State.rollback_keeps | apply State.declareLost_keeps | refine foldl_keeps ?_ _ _ ?_
      | refine foldl_keeps_fst ?_ _ _ ?_ | refine ite_keeps ?_ ?_ | (intro _; try dsimp only) | split | apply State.ctlq_keeps
      | apply State.hubctl_keeps | apply State.hub_keeps | apply State.nodes_keeps

theorem execCtlMsg_keeps {a0 s : State} (h : Keeps a0 s) {n : NodeNo} {errs : List (Fin 13 × Fin 4)} {r_ : State} (he : execCtlMsg n errs s = .next r_) : Keeps a0 r_ := by
  unfold execCtlMsg at he
  try dsimp only at he
  refine next_keeps he ?_
  clear he
  with_reducible repeat' first
      | assumption | apply State.ctlArrive_keeps | apply State.onMsg_keeps | (intro _; try dsimp only) | split

theorem execHeartbeatTimeout_keeps {a0 s : State} (h : Keeps a0 s) {n : NodeNo} {r_ : State} (he : execHeartbeatTimeout n s = .next r_) : Keeps a0 r_ := by
  unfold execHeartbeatTimeout at he
  try dsimp only at he
  refine next_keeps he ?_
  clear he
  with_reducible repeat' first
      | assumption | apply State.till_keeps | apply State.declareLost_keeps | refine ite_keeps ?_ ?_

theorem execProbeTimeout_keeps {a0 s : State} (h : Keeps a0 s) {n : NodeNo} {r_ : State} (he : execProbeTimeout n s = .next r_) : Keeps a0 r_ := by
  unfold execProbeTimeout at he
  try dsimp only at he
  refine next_keeps he ?_
  clear he
  with_reducible repeat' first
      | assumption | exact List.prefix_rfl | apply State.till_keeps | apply State.updHub_keeps | apply State.declareLost_keeps
      | (intro _; try dsimp only) | split | dsimp only

theorem State.wakeFailed_keeps {a0 s : State} (h : Keeps a0 s) {site n p cause : Nat} : Keeps a0 (State.wakeFailed s site n p cause) := by
  unfold State.wakeFailed
  try dsimp only
  with_reducible repeat' first
      | assumption | exact List.prefix_rfl | apply State.hwr_keeps | apply State.updHub_keeps | apply State.editAnat_keeps
      | apply State.softAppend_keeps | apply State.checkSpares_keeps | apply State.shrink_keeps | apply State.moltReady_keeps | refine ite_keeps ?_ ?_
      | (intro _; try dsimp only) | dsimp only

end Sys2Proof.Machine
end

