-- ==== Sys2Proof/Laws/KeepsHost.lean ====
section
/-! SUPPORT. What registers, segments, mailboxes and the commands of the host keep. -/

set_option linter.all false
set_option maxRecDepth 8000

namespace Sys2Proof.Machine

/-! ### RegRead -/

theorem State.latch_keeps {a0 s : State} (h : Keeps a0 s) {t : Tgt} {off k : Nat} : Keeps a0 (State.latch s t off k) := by
  unfold State.latch
  try dsimp only
  with_reducible repeat' first
      | assumption | apply State.wr_keeps | apply State.hwr_keeps | refine ite_keeps ?_ ?_ | (intro _; try dsimp only) | split

/-! ### RegWrite -/

theorem State.writeWord_keeps {a0 s : State} (h : Keeps a0 s) {p off : Nat} {v : W32} : Keeps a0 (State.writeWord s p off v) := by
  unfold State.writeWord
  try dsimp only
  with_reducible repeat' first
      | assumption | apply State.setReg_keeps | split

theorem State.writeNode_keeps {a0 s : State} (h : Keeps a0 s) {n off : Nat} {v : W32} : Keeps a0 (State.writeNode s n off v) := by
  unfold State.writeNode
  try dsimp only
  with_reducible repeat' first
      | assumption | apply State.updTile_keeps | apply State.updNode_keeps | apply State.updStack_keeps | apply State.updPart_keeps
      | apply State.setReg_keeps | apply State.writeWord_keeps | apply State.writePlain_keeps | refine ite_keeps ?_ ?_ | (intro _; try dsimp only)
      | split

theorem State.writeMsix_keeps {a0 s : State} (h : Keeps a0 s) {f off : Nat} {v : W32} : Keeps a0 (State.writeMsix s f off v) := by
  unfold State.writeMsix
  try dsimp only
  with_reducible repeat' first
      | assumption | apply State.emit_keeps | apply State.setReg_keeps | apply State.msix_keeps | refine ite_keeps ?_ ?_

theorem State.writeFn_keeps {a0 s : State} (h : Keeps a0 s) {f off : Nat} {v : W32} : Keeps a0 (State.writeFn s f off v) := by
  unfold State.writeFn
  try dsimp only
  with_reducible repeat' first
      | assumption | apply State.wr_keeps | apply State.writeWord_keeps | apply State.writeMsix_keeps | refine ite_keeps ?_ ?_

theorem State.writeCfg_keeps {a0 s : State} (h : Keeps a0 s) {f off : Nat} {v : W32} : Keeps a0 (State.writeCfg s f off v) := by
  unfold State.writeCfg
  try dsimp only
  with_reducible repeat' first
      | assumption | apply State.updFn_keeps | refine ite_keeps ?_ ?_ | (intro _; try dsimp only)

theorem State.setMember_keeps {a0 s : State} (h : Keeps a0 s) {p k : Nat} {v : W32} : Keeps a0 (State.setMember s p k v) := by
  unfold State.setMember
  try dsimp only
  with_reducible repeat' first
      | assumption | apply State.updPart_keeps | refine foldl_keeps ?_ _ _ ?_ | refine foldl_keeps_fst ?_ _ _ ?_ | refine ite_keeps ?_ ?_
      | (intro _; try dsimp only)

theorem State.writePlain_keeps {a0 s : State} (h : Keeps a0 s) {p : RegPlace} {off : Nat} {v : W32} : Keeps a0 (State.writePlain s p off v) := by
  unfold State.writePlain
  try dsimp only
  with_reducible repeat' first
      | assumption | apply State.updTile_keeps | apply State.writeNode_keeps | apply State.writeFn_keeps | apply State.writeCfg_keeps
      | apply State.setMember_keeps | refine ite_keeps ?_ ?_ | (intro _; try dsimp only) | split

theorem State.writeTileReg_keeps {a0 s : State} (h : Keeps a0 s) {t off : Nat} {v : W32} : Keeps a0 (State.writeTileReg s t off v) := by
  unfold State.writeTileReg
  try dsimp only
  with_reducible repeat' first
      | assumption | apply State.updTile_keeps | apply State.seqReset_keeps | apply State.writePlain_keeps | refine ite_keeps ?_ ?_
      | (intro _; try dsimp only)

theorem State.writeSpm_keeps {a0 s : State} (h : Keeps a0 s) {t off : Nat} {bs : List Byte} : Keeps a0 (State.writeSpm s t off bs) := by
  unfold State.writeSpm
  try dsimp only
  with_reducible repeat' first
      | assumption | apply State.updTile_keeps | apply State.tilePower_keeps | apply State.writePlain_keeps | refine foldl_keeps ?_ _ _ ?_
      | refine ite_keeps ?_ ?_ | (intro _; try dsimp only)

theorem State.writeStackReg_keeps {a0 s : State} (h : Keeps a0 s) {k off : Nat} {v : W32} {fw : Bool} : Keeps a0 (State.writeStackReg s k off v fw) := by
  unfold State.writeStackReg
  try dsimp only
  with_reducible repeat' first
      | assumption | apply State.updStack_keeps | apply State.stackPower_keeps | apply State.writePlain_keeps | refine ite_keeps ?_ ?_
      | (intro _; try dsimp only)

theorem State.writeNodeReg_keeps {a0 s : State} (h : Keeps a0 s) {n off : Nat} {v : W32} : Keeps a0 (State.writeNodeReg s n off v) := by
  unfold State.writeNodeReg
  try dsimp only
  with_reducible repeat' first
      | assumption | apply State.writeNode_keeps | apply State.writeStackReg_keeps | refine ite_keeps ?_ ?_

theorem State.ctlWrite_keeps {a0 s : State} (h : Keeps a0 s) {t : CtlTgt} {off : Nat} {vs : List W32} : Keeps a0 (State.ctlWrite s t off vs) := by
  unfold State.ctlWrite
  try dsimp only
  with_reducible repeat' first
      | assumption | apply State.updNode_keeps | apply State.writeTileReg_keeps | apply State.writeSpm_keeps | apply State.writeNodeReg_keeps
      | refine foldl_keeps ?_ _ _ ?_ | refine foldl_keeps_fst ?_ _ _ ?_ | refine ite_keeps ?_ ?_ | (intro _; try dsimp only) | split

/-! ### MbxOps -/

theorem State.writeSlot_keeps {a0 s : State} (h : Keeps a0 s) {f slot tag : Nat} {bs : List Byte} : Keeps a0 (State.writeSlot s f slot tag bs) := by
  unfold State.writeSlot
  try dsimp only
  with_reducible repeat' first
      | assumption | exact List.prefix_rfl | apply State.updHub_keeps | (intro _; try dsimp only) | dsimp only

theorem State.mbaIrq_keeps {a0 s : State} (h : Keeps a0 s) {f : Nat} : Keeps a0 (State.mbaIrq s f) := by
  unfold State.mbaIrq
  try dsimp only
  with_reducible repeat' first
      | assumption | apply State.msix_keeps | refine ite_keeps ?_ ?_

theorem State.mbaGo_keeps {a0 s : State} (h : Keeps a0 s) {f : Nat} : Keeps a0 (State.mbaGo s f) := by
  unfold State.mbaGo
  try dsimp only
  with_reducible repeat' first
      | assumption | apply State.updFn_keeps | apply State.wr_keeps | apply State.inc_keeps | refine ite_keeps ?_ ?_ | (intro _; try dsimp only)

theorem State.mbaTake_keeps {a0 s : State} (h : Keeps a0 s) {f : Nat} : Keeps a0 (State.mbaTake s f) := by
  unfold State.mbaTake
  try dsimp only
  with_reducible repeat' first
      | assumption | apply State.wr_keeps | refine ite_keeps ?_ ?_ | split

theorem State.mbaDone_keeps {a0 s : State} (h : Keeps a0 s) {f : Nat} {result : Nat} : Keeps a0 (State.mbaDone s f result) := by
  unfold State.mbaDone
  try dsimp only
  with_reducible repeat' first
      | assumption | apply State.updFn_keeps | apply State.wr_keeps | apply State.mbaIrq_keeps | refine ite_keeps ?_ ?_ | (intro _; try dsimp only)

theorem State.mbaExpire_keeps {a0 s : State} (h : Keeps a0 s) {f : Nat} : Keeps a0 (State.mbaExpire s f) := by
  unfold State.mbaExpire
  try dsimp only
  with_reducible repeat' first
      | assumption | apply State.updFn_keeps | apply State.till_keeps | apply State.wr_keeps | apply State.mbaIrq_keeps | refine ite_keeps ?_ ?_
      | (intro _; try dsimp only) | split

theorem State.outExpire_keeps {a0 s : State} (h : Keeps a0 s) {f : Nat} : Keeps a0 (State.outExpire s f) := by
  unfold State.outExpire
  try dsimp only
  with_reducible repeat' first
      | assumption | apply State.updFn_keeps | apply State.till_keeps | apply State.wr_keeps | apply State.mbaNext_keeps | refine ite_keeps ?_ ?_
      | (intro _; try dsimp only)

theorem State.outAck_keeps {a0 s : State} (h : Keeps a0 s) {f : Nat} : Keeps a0 (State.outAck s f) := by
  unfold State.outAck
  try dsimp only
  with_reducible repeat' first
      | assumption | apply State.updFn_keeps | apply State.wr_keeps | apply State.mbaNext_keeps | refine ite_keeps ?_ ?_ | (intro _; try dsimp only)

theorem State.mbaBbRead_keeps {a0 s : State} (h : Keeps a0 s) {f : Nat} {d : List W32} : Keeps a0 (State.mbaBbRead s f d).1 := by
  unfold State.mbaBbRead
  try dsimp only
  with_reducible repeat' first
      | assumption | apply State.writeSlot_keeps | refine ite_keeps ?_ ?_ | refine ite_keeps_fst ?_ ?_ | split

theorem State.mbaHostMark_keeps {a0 s : State} (h : Keeps a0 s) {f : Nat} {d : List W32} : Keeps a0 (State.mbaHostMark s f d).1 := by
  unfold State.mbaHostMark
  try dsimp only
  with_reducible repeat' first
      | assumption | exact List.prefix_rfl | apply State.updHub_keeps | apply State.bb_keeps | refine ite_keeps ?_ ?_ | refine ite_keeps_fst ?_ ?_
      | (intro _; try dsimp only) | split | dsimp only

theorem State.mbaAct_keeps {a0 s : State} (h : Keeps a0 s) {f : Nat} : Keeps a0 (State.mbaAct s f).1 := by
  unfold State.mbaAct
  try dsimp only
  with_reducible repeat' first
      | assumption | apply State.mbaBbRead_keeps | apply State.mbaHostMark_keeps | refine ite_keeps_fst ?_ ?_ | split

theorem State.mbbLock_keeps {a0 s : State} (h : Keeps a0 s) {k m : Nat} {c : W16} : Keeps a0 (State.mbbLock s k m c).1 := by
  unfold State.mbbLock
  try dsimp only
  with_reducible repeat' first
      | assumption | exact List.prefix_rfl | apply State.hwr_keeps | apply State.updHub_keeps | refine ite_keeps ?_ ?_ | refine ite_keeps_fst ?_ ?_
      | (intro _; try dsimp only) | dsimp only

theorem State.hubPut_keeps {a0 s : State} (h : Keeps a0 s) {p : Nat} {pga : Pga} {tag : W16} {bs : List Byte} {why : IssWhy} : Keeps a0 (State.hubPut s p pga tag bs why).1 := by
  unfold State.hubPut
  try dsimp only
  with_reducible repeat' first
      | assumption | apply State.issueSeg_keeps | refine ite_keeps_fst ?_ ?_ | split

theorem State.mbbEnd_keeps {a0 s : State} (h : Keeps a0 s) {k m status result : Nat} : Keeps a0 (State.mbbEnd s k m status result) := by
  unfold State.mbbEnd
  try dsimp only
  with_reducible repeat' first
      | assumption | exact List.prefix_rfl | apply State.hwr_keeps | apply State.updHub_keeps | apply State.mbbFree_keeps | apply State.hubPut_keeps
      | refine ite_keeps ?_ ?_ | (intro _; try dsimp only) | dsimp only

theorem State.mbbGo_keeps {a0 s : State} (h : Keeps a0 s) {k m : Nat} : Keeps a0 (State.mbbGo s k m) := by
  unfold State.mbbGo
  try dsimp only
  with_reducible repeat' first
      | assumption | exact List.prefix_rfl | apply State.hwr_keeps | apply State.inc_keeps | apply State.updHub_keeps | apply State.mbbEnd_keeps
      | refine ite_keeps ?_ ?_ | (intro _; try dsimp only) | dsimp only

theorem State.mbbWord_keeps {a0 s : State} (h : Keeps a0 s) {k off : Nat} {v : W32} {c : W16} : Keeps a0 (State.mbbWord s k off v c) := by
  unfold State.mbbWord
  try dsimp only
  with_reducible repeat' first
      | assumption | apply State.hwr_keeps | apply State.mbbFree_keeps | apply State.mbbGo_keeps | refine ite_keeps ?_ ?_

theorem State.mbbWords_keeps {a0 s : State} (h : Keeps a0 s) {k off : Nat} {vs : List W32} {c : W16} : Keeps a0 (State.mbbWords s k off vs c) := by
  unfold State.mbbWords
  try dsimp only
  with_reducible repeat' first
      | assumption | apply State.mbbWord_keeps | refine foldl_keeps ?_ _ _ ?_ | refine foldl_keeps_fst ?_ _ _ ?_ | (intro _; try dsimp only)

theorem State.mbbTake_keeps {a0 s : State} (h : Keeps a0 s) {k m : Nat} : Keeps a0 (State.mbbTake s k m) := by
  unfold State.mbbTake
  try dsimp only
  with_reducible repeat' first
      | assumption | apply State.hwr_keeps | refine ite_keeps ?_ ?_

theorem State.mbbFinish_keeps {a0 s : State} (h : Keeps a0 s) {k m : Nat} : Keeps a0 (State.mbbFinish s k m) := by
  unfold State.mbbFinish
  try dsimp only
  with_reducible repeat' first
      | assumption | apply State.haltRequest_keeps | apply State.mbbEnd_keeps | split

/-! ### SegOps -/

theorem State.updSegWin_keeps {a0 s : State} (h : Keeps a0 s) {t : Tgt} {off i : Nat} {f : Window → Window} : Keeps a0 (State.updSegWin s t off i f) := by
  unfold State.updSegWin
  try dsimp only
  with_reducible repeat' first
      | assumption | exact List.prefix_rfl | apply State.updTile_keeps | apply State.updNode_keeps | apply State.updStack_keeps
      | apply State.updPort_keeps | apply State.updHub_keeps | refine ite_keeps ?_ ?_ | (intro _; try dsimp only) | split | dsimp only

theorem State.regPut_keeps {a0 s : State} (h : Keeps a0 s) {t : Tgt} {g : Segment} : Keeps a0 (State.regPut s t g) := by
  unfold State.regPut
  try dsimp only
  with_reducible repeat' first
      | assumption | exact List.prefix_rfl | apply State.updTile_keeps | apply State.updStack_keeps | apply State.updPort_keeps
      | apply State.updHub_keeps | apply State.writeSpm_keeps | apply State.writeStackReg_keeps | apply State.mbbWords_keeps
      | refine foldl_keeps ?_ _ _ ?_ | refine foldl_keeps_fst ?_ _ _ ?_ | refine ite_keeps ?_ ?_ | (intro _; try dsimp only) | split | dsimp only

theorem State.hubGet_keeps {a0 s : State} (h : Keeps a0 s) {c : W16} {off : Nat} : ∀ x, Keeps a0 (State.hubGet s c off x).1
  | 0 => by
    unfold State.hubGet
    try dsimp only
    with_reducible repeat' first
      | assumption | exact List.prefix_rfl | apply State.hubGet_keeps | apply State.latch_keeps | apply State.mbbLock_keeps
      | refine foldl_keeps ?_ _ _ ?_ | refine foldl_keeps_fst ?_ _ _ ?_ | refine ite_keeps ?_ ?_ | refine ite_keeps_fst ?_ ?_
      | (intro _; try dsimp only) | split | dsimp only | (simp only [Bbx.stage_hub, Bbx.stage_east]; exact List.prefix_rfl) | exact Mram.record_perm
      | apply State.ctlq_keeps | apply State.hubctl_keeps | apply State.hub_keeps | apply State.nodes_keeps
  | n + 1 => by
    unfold State.hubGet
    try dsimp only
    with_reducible repeat' first
      | assumption | exact List.prefix_rfl | apply State.hubGet_keeps | apply State.latch_keeps | apply State.mbbLock_keeps
      | refine foldl_keeps ?_ _ _ ?_ | refine foldl_keeps_fst ?_ _ _ ?_ | refine ite_keeps ?_ ?_ | refine ite_keeps_fst ?_ ?_
      | (intro _; try dsimp only) | split | dsimp only | (simp only [Bbx.stage_hub, Bbx.stage_east]; exact List.prefix_rfl) | exact Mram.record_perm
      | apply State.ctlq_keeps | apply State.hubctl_keeps | apply State.hub_keeps | apply State.nodes_keeps

theorem State.regGet_keeps {a0 s : State} (h : Keeps a0 s) {t : Tgt} {g : Segment} : Keeps a0 (State.regGet s t g).1 := by
  unfold State.regGet
  try dsimp only
  with_reducible repeat' first
      | assumption | apply State.latch_keeps | apply State.hubGet_keeps | refine ite_keeps_fst ?_ ?_ | (intro _; try dsimp only) | split

theorem State.serveGet_keeps {a0 s : State} (h : Keeps a0 s) {t : Tgt} {g : Segment} : Keeps a0 (State.serveGet s t g).1 := by
  unfold State.serveGet
  try dsimp only
  with_reducible repeat' first
      | assumption | apply State.updTile_keeps | apply State.setStack_keeps | apply State.drawn_keeps | apply State.checkRead_keeps
      | apply State.regGet_keeps | refine ite_keeps_fst ?_ ?_ | (intro _; try dsimp only) | split

theorem State.serveAtomic_keeps {a0 s : State} (h : Keeps a0 s) {t : Tgt} {g : Segment} : Keeps a0 (State.serveAtomic s t g).1 := by
  unfold State.serveAtomic
  try dsimp only
  with_reducible repeat' first
      | assumption | apply State.updTile_keeps | apply State.setStack_keeps | apply State.drawn_keeps | apply State.checkRead_keeps
      | refine ite_keeps ?_ ?_ | refine ite_keeps_fst ?_ ?_ | (intro _; try dsimp only) | split

theorem State.servePut_keeps {a0 s : State} (h : Keeps a0 s) {t : Tgt} {g : Segment} : Keeps a0 (State.servePut s t g) := by
  unfold State.servePut
  try dsimp only
  with_reducible repeat' first
      | assumption | apply State.updTile_keeps | apply State.updStack_keeps | apply State.drawn_keeps | apply State.checkRead_keeps
      | apply State.regPut_keeps | (intro _; try dsimp only) | split

theorem State.serve_keeps {a0 s : State} (h : Keeps a0 s) {t : Tgt} {g : Segment} : Keeps a0 (State.serve s t g).1 := by
  unfold State.serve
  try dsimp only
  with_reducible repeat' first
      | assumption | apply State.serveGet_keeps | apply State.serveAtomic_keeps | apply State.servePut_keeps | refine ite_keeps_fst ?_ ?_ | split

theorem State.updUnit_keeps {a0 s : State} (h : Keeps a0 s) {t : Tgt} {f : WinUnit → WinUnit} : Keeps a0 (State.updUnit s t f) := by
  unfold State.updUnit
  try dsimp only
  with_reducible repeat' first
      | assumption | apply State.updTile_keeps | apply State.updStack_keeps | (intro _; try dsimp only) | split

theorem State.settleUnit_keeps {a0 s : State} (h : Keeps a0 s) {t : Tgt} : Keeps a0 (State.settleUnit s t) := by
  unfold State.settleUnit
  try dsimp only
  with_reducible repeat' first
      | assumption | apply State.settleTile_keeps | apply State.settleStack_keeps | split

theorem State.answer_keeps {a0 s : State} (h : Keeps a0 s) {g : Segment} {a : Answer} : Keeps a0 (State.answer s g a) := by
  unfold State.answer
  try dsimp only
  with_reducible repeat' first
      | assumption | apply State.emit_keeps

theorem State.answerDup_keeps {a0 s : State} (h : Keeps a0 s) {t : Tgt} {g : Segment} : Keeps a0 (State.answerDup s t g) := by
  unfold State.answerDup
  try dsimp only
  with_reducible repeat' first
      | assumption | apply State.updFab_keeps | apply State.serveGet_keeps | apply State.answer_keeps | (intro _; try dsimp only) | split

theorem State.acceptSeg_keeps {a0 s : State} (h : Keeps a0 s) {t : Tgt} {g : Segment} : Keeps a0 (State.acceptSeg s t g) := by
  unfold State.acceptSeg
  try dsimp only
  with_reducible repeat' first
      | assumption | apply State.serve_keeps | apply State.updUnit_keeps | apply State.answer_keeps | refine ite_keeps ?_ ?_
      | (intro _; try dsimp only)

theorem State.rejectSeg_keeps {a0 s : State} (h : Keeps a0 s) {t : Tgt} {g : Segment} : Keeps a0 (State.rejectSeg s t g) := by
  unfold State.rejectSeg
  try dsimp only
  with_reducible repeat' first
      | assumption | apply State.updSegWin_keeps | refine ite_keeps ?_ ?_ | (intro _; try dsimp only)

theorem State.landSeg_keeps {a0 s : State} (h : Keeps a0 s) {t : Tgt} {g : Segment} : Keeps a0 (State.landSeg s t g) := by
  unfold State.landSeg
  try dsimp only
  with_reducible repeat' first
      | assumption | apply State.answer_keeps | apply State.acceptSeg_keeps | apply State.rejectSeg_keeps | split

theorem State.arriveSeg_keeps {a0 s : State} (h : Keeps a0 s) {t : Tgt} {g : Segment} : Keeps a0 (State.arriveSeg s t g) := by
  unfold State.arriveSeg
  try dsimp only
  with_reducible repeat' first
      | assumption | apply State.updNode_keeps | apply State.updStack_keeps | apply State.updFab_keeps | apply State.updUnit_keeps
      | apply State.answerDup_keeps | apply State.acceptSeg_keeps | apply State.rejectSeg_keeps | apply State.landSeg_keeps
      | refine foldl_keeps ?_ _ _ ?_ | refine foldl_keeps_fst ?_ _ _ ?_ | refine ite_keeps ?_ ?_ | (intro _; try dsimp only) | split

theorem State.answerHeld_keeps {a0 s : State} (h : Keeps a0 s) {t : Tgt} {g : Segment} {l : List Segment} : Keeps a0 (State.answerHeld s t g l) := by
  unfold State.answerHeld
  try dsimp only
  with_reducible repeat' first
      | assumption | apply State.answerDup_keeps | refine foldl_keeps ?_ _ _ ?_ | refine ite_keeps ?_ ?_ | (intro _; try dsimp only)

theorem State.segVisible_keeps {a0 s : State} (h : Keeps a0 s) {t : Tgt} {i : Nat} : Keeps a0 (State.segVisible s t i) := by
  unfold State.segVisible
  try dsimp only
  with_reducible repeat' first
      | assumption | apply State.serve_keeps | apply State.updUnit_keeps | apply State.settleUnit_keeps | apply State.answer_keeps
      | apply State.answerHeld_keeps | refine ite_keeps ?_ ?_ | (intro _; try dsimp only) | split

/-! ### CmdOps -/

theorem State.aptRefuse_keeps {a0 s : State} (h : Keeps a0 s) {d : HostCmd} : Keeps a0 (State.aptRefuse s d) := by
  unfold State.aptRefuse
  try dsimp only
  with_reducible repeat' first
      | assumption | apply State.updFn_keeps | refine ite_keeps ?_ ?_ | (intro _; try dsimp only)

theorem State.takeCmd_keeps {a0 s : State} (h : Keeps a0 s) {f q : Nat} {e : BitVec 512} : Keeps a0 (State.takeCmd s f q e) := by
  unfold State.takeCmd
  try dsimp only
  with_reducible repeat' first
      | assumption | exact List.prefix_rfl | apply State.updFn_keeps | apply State.wr_keeps | apply State.inc_keeps | apply State.updHub_keeps
      | apply State.sendReply_keeps | apply State.aptRefuse_keeps | refine ite_keeps ?_ ?_ | (intro _; try dsimp only) | split | dsimp only

theorem State.begin_keeps {a0 s : State} (h : Keeps a0 s) {c : HostCmd} {g : HostCmd → HostCmd} : Keeps a0 (State.begin s c g) := by
  unfold State.begin
  try dsimp only
  with_reducible repeat' first
      | assumption | apply State.dec_keeps | apply State.updCmd_keeps | refine ite_keeps ?_ ?_ | (intro _; try dsimp only)

theorem State.beginHw_keeps {a0 s : State} (h : Keeps a0 s) {c : HostCmd} {g : HostCmd → HostCmd} : Keeps a0 (State.beginHw s c g) := by
  unfold State.beginHw
  try dsimp only
  with_reducible repeat' first
      | assumption | apply State.sendReply_keeps | apply State.begin_keeps | refine ite_keeps ?_ ?_

theorem State.moveNext_keeps {a0 s : State} (h : Keeps a0 s) {c : HostCmd} : Keeps a0 (State.moveNext s c) := by
  unfold State.moveNext
  try dsimp only
  with_reducible repeat' first
      | assumption | apply State.issueSeg_keeps | apply State.endCmd_keeps | refine ite_keeps ?_ ?_ | split

theorem State.moveAnswer_keeps {a0 s : State} (h : Keeps a0 s) {f q tag pos len : Nat} {a : Answer} : Keeps a0 (State.moveAnswer s f q tag pos len a) := by
  unfold State.moveAnswer
  try dsimp only
  with_reducible repeat' first
      | assumption | apply State.hostOut_keeps | apply State.updCmd_keeps | apply State.endCmd_keeps | apply State.moveNext_keeps
      | refine ite_keeps ?_ ?_ | (intro _; try dsimp only) | split

theorem State.aptFail_keeps {a0 s : State} (h : Keeps a0 s) {f apt off : Nat} {write : Bool} {code : BitVec 4} : Keeps a0 (State.aptFail s f apt off write code) := by
  unfold State.aptFail
  try dsimp only
  with_reducible repeat' first
      | assumption | apply State.wr_keeps | apply State.sat_keeps | refine ite_keeps ?_ ?_

theorem State.aptFences_keeps {a0 s : State} (h : Keeps a0 s) {f : Nat} : Keeps a0 (State.aptFences s f) := by
  unfold State.aptFences
  try dsimp only
  with_reducible repeat' first
      | assumption | apply State.updFn_keeps | apply State.emit_keeps | refine foldl_keeps ?_ _ _ ?_ | (intro _; try dsimp only)

theorem State.aptEnd_keeps {a0 s : State} (h : Keeps a0 s) {f : Nat} {a : AptAcc} : Keeps a0 (State.aptEnd s f a) := by
  unfold State.aptEnd
  try dsimp only
  with_reducible repeat' first
      | assumption | apply State.updFn_keeps | apply State.emit_keeps | apply State.aptFail_keeps | apply State.aptFences_keeps
      | refine ite_keeps ?_ ?_ | (intro _; try dsimp only) | split

theorem State.aptAccess_keeps {a0 s : State} (h : Keeps a0 s) {f off len : Nat} {write : Bool} {bs : List Byte} : Keeps a0 (State.aptAccess s f off len write bs) := by
  unfold State.aptAccess
  try dsimp only
  with_reducible repeat' first
      | assumption | apply State.updFn_keeps | apply State.issueSeg_keeps | apply State.aptEnd_keeps | refine foldl_keeps ?_ _ _ ?_
      | refine foldl_keeps_fst ?_ _ _ ?_ | refine ite_keeps ?_ ?_ | (intro _; try dsimp only) | split

theorem State.aptAnswer_keeps {a0 s : State} (h : Keeps a0 s) {f id pos : Nat} {a : Answer} : Keeps a0 (State.aptAnswer s f id pos a) := by
  unfold State.aptAnswer
  try dsimp only
  with_reducible repeat' first
      | assumption | apply State.updFn_keeps | apply State.aptEnd_keeps | refine ite_keeps ?_ ?_ | (intro _; try dsimp only) | split

theorem State.hostCloses_keeps {a0 s : State} (h : Keeps a0 s)  : Keeps a0 (State.hostCloses s) := by
  unfold State.hostCloses
  try dsimp only
  with_reducible repeat' first
      | assumption | apply State.endCmd_keeps | refine foldl_keeps ?_ _ _ ?_ | refine ite_keeps ?_ ?_ | (intro _; try dsimp only) | split

theorem State.hostPoll_keeps {a0 s : State} (h : Keeps a0 s) {p : Nat} : Keeps a0 (State.hostPoll s p) := by
  unfold State.hostPoll
  try dsimp only
  with_reducible repeat' first
      | assumption | apply State.hostWaits_keeps | apply State.hostCloses_keeps

theorem State.dropGroups_keeps {a0 s : State} (h : Keeps a0 s) {p : Nat} : Keeps a0 (State.dropGroups s p) := by
  unfold State.dropGroups
  try dsimp only
  with_reducible repeat' first
      | assumption | apply State.updPort_keeps | apply State.wr_keeps | refine foldl_keeps ?_ _ _ ?_ | refine foldl_keeps_fst ?_ _ _ ?_
      | refine ite_keeps ?_ ?_ | (intro _; try dsimp only)

theorem State.untwin_keeps {a0 s : State} (h : Keeps a0 s) {p : Nat} : Keeps a0 (State.untwin s p) := by
  unfold State.untwin
  try dsimp only
  with_reducible repeat' first
      | assumption | apply State.updNode_keeps | apply State.updPart_keeps | refine foldl_keeps ?_ _ _ ?_ | refine foldl_keeps_fst ?_ _ _ ?_
      | (intro _; try dsimp only) | split

theorem State.resetPart_keeps {a0 s : State} (h : Keeps a0 s) {p : Nat} {keep : HostCmd → Bool} : Keeps a0 (State.resetPart s p keep) := by
  unfold State.resetPart
  try dsimp only
  with_reducible repeat' first
      | assumption | exact List.prefix_rfl | apply State.updPart_keeps | apply State.updHub_keeps | apply State.abortCmds_keeps
      | apply State.partCloseAll_keeps | apply State.partTileReset_keeps | apply State.unbindKeys_keeps | apply State.connsError_keeps
      | apply State.endImage_keeps | apply State.unmapPart_keeps | (intro _; try dsimp only) | dsimp only

/-! ### HostInsn -/

theorem execQpCtailWrite_keeps {a0 s : State} (h : Keeps a0 s) {f : Fin 50} {q : Fin 8} {v : W32} {tee : Bool} {r_ : State} (he : execQpCtailWrite f q v tee s = .next r_) : Keeps a0 r_ := by
  unfold execQpCtailWrite at he
  try dsimp only at he
  refine next_keeps he ?_
  clear he
  with_reducible repeat' first
      | assumption | apply State.updFn_keeps | apply State.wr_keeps | refine ite_keeps ?_ ?_ | (intro _; try dsimp only)

theorem execQpSheadWrite_keeps {a0 s : State} (h : Keeps a0 s) {f : Fin 50} {q : Fin 8} {v : W32} {tee : Bool} {r_ : State} (he : execQpSheadWrite f q v tee s = .next r_) : Keeps a0 r_ := by
  unfold execQpSheadWrite at he
  try dsimp only at he
  refine next_keeps he ?_
  clear he
  with_reducible repeat' first
      | assumption | apply State.wr_keeps | refine ite_keeps ?_ ?_

theorem execQpEnable_keeps {a0 s : State} (h : Keeps a0 s) {f : Fin 50} {q : Fin 8} {tee : Bool} {r_ : State} (he : execQpEnable f q tee s = .next r_) : Keeps a0 r_ := by
  unfold execQpEnable at he
  try dsimp only at he
  refine next_keeps he ?_
  clear he
  with_reducible repeat' first
      | assumption | apply State.updFn_keeps | apply State.wr_keeps | refine ite_keeps ?_ ?_ | (intro _; try dsimp only)

theorem State.qpDisable_keeps {a0 s : State} (h : Keeps a0 s) {f q : Nat} : Keeps a0 (State.qpDisable s f q) := by
  unfold State.qpDisable
  try dsimp only
  with_reducible repeat' first
      | assumption | exact List.prefix_rfl | apply State.updFn_keeps | apply State.wr_keeps | apply State.updHub_keeps | refine ite_keeps ?_ ?_
      | (intro _; try dsimp only) | dsimp only

theorem execQpDisable_keeps {a0 s : State} (h : Keeps a0 s) {f : Fin 50} {q : Fin 8} {tee : Bool} {r_ : State} (he : execQpDisable f q tee s = .next r_) : Keeps a0 r_ := by
  unfold execQpDisable at he
  try dsimp only at he
  refine next_keeps he ?_
  clear he
  with_reducible repeat' first
      | assumption | apply State.qpDisable_keeps | refine ite_keeps ?_ ?_

theorem execQpRunClear_keeps {a0 s : State} (h : Keeps a0 s) {f : Fin 50} {q : Fin 8} {tee : Bool} {r_ : State} (he : execQpRunClear f q tee s = .next r_) : Keeps a0 r_ := by
  unfold execQpRunClear at he
  try dsimp only at he
  refine next_keeps he ?_
  clear he
  with_reducible repeat' first
      | assumption | apply State.wr_keeps | refine ite_keeps ?_ ?_

theorem execCommandFetched_keeps {a0 s : State} (h : Keeps a0 s) {f : Fin 50} {q : Fin 8} {ok : Bool} {e : BitVec 512} {r_ : State} (he : execCommandFetched f q ok e s = .next r_) : Keeps a0 r_ := by
  unfold execCommandFetched at he
  try dsimp only at he
  refine next_keeps he ?_
  clear he
  with_reducible repeat' first
      | assumption | apply State.updFn_keeps | apply State.wr_keeps | apply State.takeCmd_keeps | refine ite_keeps ?_ ?_ | (intro _; try dsimp only)

theorem execIrqCoalesceTimeout_keeps {a0 s : State} (h : Keeps a0 s) {f : Fin 50} {q : Fin 8} {r_ : State} (he : execIrqCoalesceTimeout f q s = .next r_) : Keeps a0 r_ := by
  unfold execIrqCoalesceTimeout at he
  try dsimp only at he
  refine next_keeps he ?_
  clear he
  with_reducible repeat' first
      | assumption | apply State.updFn_keeps | apply State.msix_keeps | refine ite_keeps ?_ ?_ | (intro _; try dsimp only)

theorem State.runStep_keeps {a0 s : State} (h : Keeps a0 s) {c : HostCmd} : Keeps a0 (State.runStep s c) := by
  unfold State.runStep
  try dsimp only
  with_reducible repeat' first
      | assumption | apply State.updPart_keeps | apply State.endCmd_keeps | apply State.railsReport_keeps | apply State.openScheduled_keeps
      | apply State.restore_keeps | apply State.setSch_keeps | apply State.rollback_keeps | apply State.beginHw_keeps | refine ite_keeps ?_ ?_
      | (intro _; try dsimp only) | split

theorem execRunStep_keeps {a0 s : State} (h : Keeps a0 s) {f : Fin 50} {q : Fin 8} {tag : W16} {r_ : State} (he : execRunStep f q tag s = .next r_) : Keeps a0 r_ := by
  unfold execRunStep at he
  try dsimp only at he
  refine next_keeps he ?_
  clear he
  with_reducible repeat' first
      | assumption | apply State.runStep_keeps | split

theorem execDoorbell_keeps {a0 s : State} (h : Keeps a0 s) {f : Fin 50} {q : Fin 8} {tag : W16} {r_ : State} (he : execDoorbell f q tag s = .next r_) : Keeps a0 r_ := by
  unfold execDoorbell at he
  try dsimp only at he
  refine next_keeps he ?_
  clear he
  with_reducible repeat' first
      | assumption | apply State.endCmd_keeps | apply State.beginHw_keeps | apply State.moveNext_keeps | refine ite_keeps ?_ ?_
      | (intro _; try dsimp only) | split

theorem State.armWait_keeps {a0 s : State} (h : Keeps a0 s) {c : HostCmd} : Keeps a0 (State.armWait s c) := by
  unfold State.armWait
  try dsimp only
  with_reducible repeat' first
      | assumption | apply State.updPart_keeps | apply State.endCmd_keeps | apply State.hostWaits_keeps | apply State.beginHw_keeps
      | refine ite_keeps ?_ ?_ | (intro _; try dsimp only) | split

theorem execQueryCounter_keeps {a0 s : State} (h : Keeps a0 s) {f : Fin 50} {q : Fin 8} {tag : W16} {r_ : State} (he : execQueryCounter f q tag s = .next r_) : Keeps a0 r_ := by
  unfold execQueryCounter at he
  try dsimp only at he
  refine next_keeps he ?_
  clear he
  with_reducible repeat' first
      | assumption | apply State.sat_keeps | apply State.endCmd_keeps | apply State.armWait_keeps | refine ite_keeps ?_ ?_ | split

theorem execQueryCounterTimeout_keeps {a0 s : State} (h : Keeps a0 s) {f : Fin 50} {q : Fin 8} {tag : W16} {r_ : State} (he : execQueryCounterTimeout f q tag s = .next r_) : Keeps a0 r_ := by
  unfold execQueryCounterTimeout at he
  try dsimp only at he
  refine next_keeps he ?_
  clear he
  with_reducible repeat' first
      | assumption | apply State.updPart_keeps | apply State.till_keeps | apply State.endCmd_keeps | apply State.hostWaits_keeps
      | refine ite_keeps ?_ ?_ | (intro _; try dsimp only) | split

theorem State.fwRun_keeps {a0 s : State} (h : Keeps a0 s) {f q : Nat} {tag : W16} {opc : Nat} {needPart : Bool} {act : HostCmd → State} (hact : ∀ x0, Keeps a0 (act x0)) : Keeps a0 (State.fwRun s f q tag opc needPart act) := by
  unfold State.fwRun
  try dsimp only
  with_reducible repeat' first
      | assumption | apply hact | apply State.endCmd_keeps | refine ite_keeps ?_ ?_ | split

theorem execHostNop_keeps {a0 s : State} (h : Keeps a0 s) {f : Fin 50} {q : Fin 8} {tag : W16} {r_ : State} (he : execHostNop f q tag s = .next r_) : Keeps a0 r_ := by
  unfold execHostNop at he
  try dsimp only at he
  refine next_keeps he ?_
  clear he
  with_reducible repeat' first
      | assumption | apply State.endCmd_keeps | apply State.fwRun_keeps | (intro _; try dsimp only)

theorem State.loadFail_keeps {a0 s : State} (h : Keeps a0 s) {c : HostCmd} {e : LoadErr} : Keeps a0 (State.loadFail s c e) := by
  unfold State.loadFail
  try dsimp only
  with_reducible repeat' first
      | assumption | apply State.updPart_keeps | apply State.endCmd_keeps | (intro _; try dsimp only)

theorem execLoadImage_keeps {a0 s : State} (h : Keeps a0 s) {f : Fin 50} {q : Fin 8} {tag : W16} {room : Bool} {img : Option (List Byte)} {r_ : State} (he : execLoadImage f q tag room img s = .next r_) : Keeps a0 r_ := by
  unfold execLoadImage at he
  try dsimp only at he
  refine next_keeps he ?_
  clear he
  with_reducible repeat' first
      | assumption | apply State.endCmd_keeps | apply State.loadImage_keeps | apply State.fwRun_keeps | apply State.loadFail_keeps
      | refine ite_keeps ?_ ?_ | (intro _; try dsimp only) | split

theorem execHalt_keeps {a0 s : State} (h : Keeps a0 s) {f : Fin 50} {q : Fin 8} {tag : W16} {r_ : State} (he : execHalt f q tag s = .next r_) : Keeps a0 r_ := by
  unfold execHalt at he
  try dsimp only at he
  refine next_keeps he ?_
  clear he
  with_reducible repeat' first
      | assumption | apply State.endCmd_keeps | apply State.haltRequest_keeps | apply State.rollback_keeps | apply State.begin_keeps
      | apply State.fwRun_keeps | (intro _; try dsimp only) | split

theorem execResetPartition_keeps {a0 s : State} (h : Keeps a0 s) {f : Fin 50} {q : Fin 8} {tag : W16} {r_ : State} (he : execResetPartition f q tag s = .next r_) : Keeps a0 r_ := by
  unfold execResetPartition at he
  try dsimp only at he
  refine next_keeps he ?_
  clear he
  with_reducible repeat' first
      | assumption | apply State.endCmd_keeps | apply State.resetPart_keeps | apply State.fwRun_keeps | (intro _; try dsimp only)

theorem execDmaWrite_keeps {a0 s : State} (h : Keeps a0 s) {f : Fin 50} {q : Fin 8} {tag : W16} {bs : Option (List Byte)} {r_ : State} (he : execDmaWrite f q tag bs s = .next r_) : Keeps a0 r_ := by
  unfold execDmaWrite at he
  try dsimp only at he
  repeat' first
    | (with_reducible refine next_keeps he ?_; clear he)
    | split at he
    | cases he
  with_reducible repeat' first
      | assumption | apply State.endCmd_keeps | apply State.begin_keeps | apply State.moveNext_keeps | apply State.fwRun_keeps
      | refine ite_keeps ?_ ?_ | (intro _; try dsimp only) | split

theorem execDmaRead_keeps {a0 s : State} (h : Keeps a0 s) {f : Fin 50} {q : Fin 8} {tag : W16} {r_ : State} (he : execDmaRead f q tag s = .next r_) : Keeps a0 r_ := by
  unfold execDmaRead at he
  try dsimp only at he
  refine next_keeps he ?_
  clear he
  with_reducible repeat' first
      | assumption | apply State.endCmd_keeps | apply State.begin_keeps | apply State.moveNext_keeps | apply State.fwRun_keeps
      | refine ite_keeps ?_ ?_ | (intro _; try dsimp only)

theorem State.aptDone_keeps {a0 s : State} (h : Keeps a0 s) {c : HostCmd} : Keeps a0 (State.aptDone s c) := by
  unfold State.aptDone
  try dsimp only
  with_reducible repeat' first
      | assumption | apply State.endCmd_keeps | refine ite_keeps ?_ ?_ | (intro _; try dsimp only)

theorem State.remap_keeps {a0 s : State} (h : Keeps a0 s) {c : HostCmd} {m : Aperture} : Keeps a0 (State.remap s c m) := by
  unfold State.remap
  try dsimp only
  with_reducible repeat' first
      | assumption | apply State.updFn_keeps | apply State.begin_keeps | apply State.aptDone_keeps | refine ite_keeps ?_ ?_
      | (intro _; try dsimp only)

theorem execApertureMap_keeps {a0 s : State} (h : Keeps a0 s) {f : Fin 50} {q : Fin 8} {tag : W16} {r_ : State} (he : execApertureMap f q tag s = .next r_) : Keeps a0 r_ := by
  unfold execApertureMap at he
  try dsimp only at he
  refine next_keeps he ?_
  clear he
  with_reducible repeat' first
      | assumption | apply State.endCmd_keeps | apply State.fwRun_keeps | apply State.remap_keeps | refine ite_keeps ?_ ?_ | (intro _; try dsimp only)

theorem execApertureUnmap_keeps {a0 s : State} (h : Keeps a0 s) {f : Fin 50} {q : Fin 8} {tag : W16} {r_ : State} (he : execApertureUnmap f q tag s = .next r_) : Keeps a0 r_ := by
  unfold execApertureUnmap at he
  try dsimp only at he
  refine next_keeps he ?_
  clear he
  with_reducible repeat' first
      | assumption | apply State.endCmd_keeps | apply State.fwRun_keeps | apply State.remap_keeps | refine ite_keeps ?_ ?_ | (intro _; try dsimp only)

theorem execApertureUnmapComplete_keeps {a0 s : State} (h : Keeps a0 s) {f : Fin 50} {q : Fin 8} {tag : W16} {r_ : State} (he : execApertureUnmapComplete f q tag s = .next r_) : Keeps a0 r_ := by
  unfold execApertureUnmapComplete at he
  try dsimp only at he
  refine next_keeps he ?_
  clear he
  with_reducible repeat' first
      | assumption | apply State.aptDone_keeps | refine ite_keeps ?_ ?_ | split

theorem execWindowOpen_keeps {a0 s : State} (h : Keeps a0 s) {f : Fin 50} {q : Fin 8} {tag : W16} {r_ : State} (he : execWindowOpen f q tag s = .next r_) : Keeps a0 r_ := by
  unfold execWindowOpen at he
  try dsimp only at he
  refine next_keeps he ?_
  clear he
  with_reducible repeat' first
      | assumption | apply State.till_keeps | apply State.endCmd_keeps | apply State.updUnit_keeps | apply State.fwRun_keeps | refine ite_keeps ?_ ?_
      | (intro _; try dsimp only) | split

theorem execWindowClose_keeps {a0 s : State} (h : Keeps a0 s) {f : Fin 50} {q : Fin 8} {tag : W16} {r_ : State} (he : execWindowClose f q tag s = .next r_) : Keeps a0 r_ := by
  unfold execWindowClose at he
  try dsimp only at he
  refine next_keeps he ?_
  clear he
  with_reducible repeat' first
      | assumption | apply State.endCmd_keeps | apply State.updUnit_keeps | apply State.settleUnit_keeps | apply State.begin_keeps
      | apply State.hostPoll_keeps | apply State.fwRun_keeps | refine ite_keeps ?_ ?_ | (intro _; try dsimp only) | split

theorem execAsyncEvent_keeps {a0 s : State} (h : Keeps a0 s) {f : Fin 50} {q : Fin 8} {tag : W16} {r_ : State} (he : execAsyncEvent f q tag s = .next r_) : Keeps a0 r_ := by
  unfold execAsyncEvent at he
  try dsimp only at he
  refine next_keeps he ?_
  clear he
  with_reducible repeat' first
      | assumption | apply State.updFn_keeps | apply State.wr_keeps | apply State.endCmd_keeps | apply State.eventTo_keeps | apply State.begin_keeps
      | apply State.fwRun_keeps | refine ite_keeps ?_ ?_ | (intro _; try dsimp only) | split

theorem execSetTwin_keeps {a0 s : State} (h : Keeps a0 s) {f : Fin 50} {q : Fin 8} {tag : W16} {lat : Fin 257} {r_ : State} (he : execSetTwin f q tag lat s = .next r_) : Keeps a0 r_ := by
  unfold execSetTwin at he
  try dsimp only at he
  refine next_keeps he ?_
  clear he
  with_reducible repeat' first
      | assumption | apply State.updNode_keeps | apply State.updPart_keeps | apply State.hwr_keeps | apply State.endCmd_keeps
      | apply State.untwin_keeps | apply State.fwRun_keeps | refine ite_keeps ?_ ?_ | (intro _; try dsimp only)

theorem execSetPortRole_keeps {a0 s : State} (h : Keeps a0 s) {f : Fin 50} {q : Fin 8} {tag : W16} {r_ : State} (he : execSetPortRole f q tag s = .next r_) : Keeps a0 r_ := by
  unfold execSetPortRole at he
  try dsimp only at he
  refine next_keeps he ?_
  clear he
  with_reducible repeat' first
      | assumption | exact List.prefix_rfl | apply State.updHub_keeps | apply State.endCmd_keeps | apply State.fwRun_keeps | refine ite_keeps ?_ ?_
      | (intro _; try dsimp only) | dsimp only

theorem execApertureWrite_keeps {a0 s : State} (h : Keeps a0 s) {f : Fin 50} {off : Nat} {bs : List Byte} {tee : Bool} {r_ : State} (he : execApertureWrite f off bs tee s = .next r_) : Keeps a0 r_ := by
  unfold execApertureWrite at he
  try dsimp only at he
  repeat' first
    | (with_reducible refine next_keeps he ?_; clear he)
    | split at he
    | cases he
  with_reducible repeat' first
      | assumption | apply State.aptAccess_keeps | refine ite_keeps ?_ ?_

theorem execApertureRead_keeps {a0 s : State} (h : Keeps a0 s) {f : Fin 50} {off len : Nat} {tee : Bool} {r_ : State} (he : execApertureRead f off len tee s = .next r_) : Keeps a0 r_ := by
  unfold execApertureRead at he
  try dsimp only at he
  repeat' first
    | (with_reducible refine next_keeps he ?_; clear he)
    | split at he
    | cases he
  with_reducible repeat' first
      | assumption | apply State.emit_keeps | apply State.aptAccess_keeps | refine ite_keeps ?_ ?_

theorem execFnAptFenceRead_keeps {a0 s : State} (h : Keeps a0 s) {f : Fin 50} {tee : Bool} {r_ : State} (he : execFnAptFenceRead f tee s = .next r_) : Keeps a0 r_ := by
  unfold execFnAptFenceRead at he
  try dsimp only at he
  refine next_keeps he ?_
  clear he
  with_reducible repeat' first
      | assumption | apply State.updFn_keeps | apply State.emit_keeps | apply State.aptFences_keeps | refine ite_keeps ?_ ?_
      | (intro _; try dsimp only)

theorem execBar2Write_keeps {a0 s : State} (h : Keeps a0 s) {f : Fin 50} {tee : Bool} {r_ : State} (he : execBar2Write f tee s = .next r_) : Keeps a0 r_ := by
  unfold execBar2Write at he
  try dsimp only at he
  refine next_keeps he ?_
  clear he
  with_reducible repeat' first
      | assumption | apply State.inc_keeps | refine ite_keeps ?_ ?_

theorem execTdispMessage_keeps {a0 s : State} (h : Keeps a0 s) {f : Fin 50} {m : TdispMsg} {r_ : State} (he : execTdispMessage f m s = .next r_) : Keeps a0 r_ := by
  unfold execTdispMessage at he
  try dsimp only at he
  refine next_keeps he ?_
  clear he
  with_reducible repeat' first
      | assumption | apply State.updFn_keeps | refine ite_keeps ?_ ?_ | (intro _; try dsimp only) | split

theorem State.resetFnRegs_keeps {a s : State} (h : Keeps a s) {f lo hi : Nat} : Keeps a (s.resetFnRegs f lo hi) := State.regs_keeps h fun c => Table.filter_wf _ c

theorem State.dropHeld_keeps {a0 s : State} (h : Keeps a0 s) {f : Nat} : Keeps a0 (State.dropHeld s f) := by
  unfold State.dropHeld
  try dsimp only
  with_reducible repeat' first
      | assumption | exact List.prefix_rfl | apply State.dec_keeps | apply State.updHub_keeps | refine foldl_keeps ?_ _ _ ?_
      | (intro _; try dsimp only) | dsimp only

theorem State.fnReset1_keeps {a0 s : State} (h : Keeps a0 s) {f : Nat} : Keeps a0 (State.fnReset1 s f) := by
  unfold State.fnReset1
  try dsimp only
  with_reducible repeat' first
      | assumption | apply State.updFn_keeps | apply State.wr_keeps | apply State.mbaNext_keeps | apply State.qpDisable_keeps
      | apply State.resetFnRegs_keeps | apply State.dropHeld_keeps | refine foldl_keeps ?_ _ _ ?_ | refine ite_keeps ?_ ?_ | (intro _; try dsimp only)

theorem State.pfReset_keeps {a0 s : State} (h : Keeps a0 s) {b : Nat} : Keeps a0 (State.pfReset s b) := by
  unfold State.pfReset
  try dsimp only
  with_reducible repeat' first
      | assumption | apply State.updFn_keeps | apply State.fnReset1_keeps | refine foldl_keeps ?_ _ _ ?_ | (intro _; try dsimp only)

theorem State.portReset_keeps {a0 s : State} (h : Keeps a0 s) {b : Nat} : Keeps a0 (State.portReset s b) := by
  unfold State.portReset
  try dsimp only
  with_reducible repeat' first
      | assumption | apply State.bb_keeps | apply State.pfReset_keeps

theorem execVfFunctionLevelReset_keeps {a0 s : State} (h : Keeps a0 s) {b : Fin 2} {v : Fin 24} {r_ : State} (he : execVfFunctionLevelReset b v s = .next r_) : Keeps a0 r_ := by
  unfold execVfFunctionLevelReset at he
  try dsimp only at he
  refine next_keeps he ?_
  clear he
  with_reducible repeat' first
      | assumption | apply State.fnReset1_keeps

theorem execPfFunctionLevelReset_keeps {a0 s : State} (h : Keeps a0 s) {b : Fin 2} {r_ : State} (he : execPfFunctionLevelReset b s = .next r_) : Keeps a0 r_ := by
  unfold execPfFunctionLevelReset at he
  try dsimp only at he
  refine next_keeps he ?_
  clear he
  with_reducible repeat' first
      | assumption | apply State.pfReset_keeps

theorem execHotResetOrLinkDown_keeps {a0 s : State} (h : Keeps a0 s) {b : Fin 2} {down : Bool} {r_ : State} (he : execHotResetOrLinkDown b down s = .next r_) : Keeps a0 r_ := by
  unfold execHotResetOrLinkDown at he
  try dsimp only at he
  refine next_keeps he ?_
  clear he
  with_reducible repeat' first
      | assumption | apply State.updPort_keeps | apply State.portReset_keeps | refine ite_keeps ?_ ?_ | (intro _; try dsimp only)

theorem execPerstNAssert_keeps {a0 s : State} (h : Keeps a0 s) {b : Fin 2} {r_ : State} (he : execPerstNAssert b s = .next r_) : Keeps a0 r_ := by
  unfold execPerstNAssert at he
  try dsimp only at he
  refine next_keeps he ?_
  clear he
  with_reducible repeat' first
      | assumption | apply State.updPort_keeps | apply State.portReset_keeps | (intro _; try dsimp only)

theorem execPcieLinkUp_keeps {a0 s : State} (h : Keeps a0 s) {b : Fin 2} {lanes : Fin 17} {rate : Fin 4} {r_ : State} (he : execPcieLinkUp b lanes rate s = .next r_) : Keeps a0 r_ := by
  unfold execPcieLinkUp at he
  try dsimp only at he
  refine next_keeps he ?_
  clear he
  with_reducible repeat' first
      | assumption | apply State.updPort_keeps | apply State.raiseReason_keeps | refine ite_keeps ?_ ?_ | (intro _; try dsimp only) | split

theorem State.bmeClear_keeps {a0 s : State} (h : Keeps a0 s) {f : Nat} : Keeps a0 (State.bmeClear s f) := by
  unfold State.bmeClear
  try dsimp only
  with_reducible repeat' first
      | assumption | apply State.updFn_keeps | apply State.endCmd_keeps | refine foldl_keeps ?_ _ _ ?_ | (intro _; try dsimp only)

theorem execBusMasterEnableCleared_keeps {a0 s : State} (h : Keeps a0 s) {f : Fin 50} {r_ : State} (he : execBusMasterEnableCleared f s = .next r_) : Keeps a0 r_ := by
  unfold execBusMasterEnableCleared at he
  try dsimp only at he
  refine next_keeps he ?_
  clear he
  with_reducible repeat' first
      | assumption | apply State.bmeClear_keeps

end Sys2Proof.Machine
end

