-- ==== Sys2Proof/Laws/KeepsPort.lean ====
section
/-! SUPPORT. What the operations and commands of the port dies keep. -/

set_option linter.all false
set_option maxRecDepth 8000

namespace Sys2Proof.Machine

/-! ### PortOps -/

theorem State.applyMode_keeps {a0 s : State} (h : Keeps a0 s) {q quad : Nat} : Keeps a0 (State.applyMode s q quad) := by
  unfold State.applyMode
  try dsimp only
  with_reducible repeat' first
      | assumption | apply State.updPort_keeps | (intro _; try dsimp only)

theorem State.setPort_keeps {a0 s : State} (h : Keeps a0 s) {q p st : Nat} : Keeps a0 (State.setPort s q p st) := by
  unfold State.setPort
  try dsimp only
  with_reducible repeat' first
      | assumption | apply State.wr_keeps | apply State.sat_keeps | refine ite_keeps ?_ ?_

theorem State.updConn_keeps {a0 s : State} (h : Keeps a0 s) {q c : Nat} {f : Conn → Conn} : Keeps a0 (State.updConn s q c f) := by
  unfold State.updConn
  try dsimp only
  with_reducible repeat' first
      | assumption | apply State.updPort_keeps | (intro _; try dsimp only)

theorem State.sendOn_keeps {a0 s : State} (h : Keeps a0 s) {q c psn : Nat} {b : PktBody} : Keeps a0 (State.sendOn s q c psn b).1 := by
  unfold State.sendOn
  try dsimp only
  with_reducible repeat' first
      | assumption | apply State.updPort_keeps | apply State.emit_keeps | apply State.wr_keeps | apply State.updConn_keeps | refine ite_keeps ?_ ?_
      | refine ite_keeps_fst ?_ ?_ | (intro _; try dsimp only) | split

theorem State.sendOnce_keeps {a0 s : State} (h : Keeps a0 s) {q c psn : Nat} {b : PktBody} : Keeps a0 (State.sendOnce s q c psn b) := by
  unfold State.sendOnce
  try dsimp only
  with_reducible repeat' first
      | assumption | apply State.sendOn_keeps

theorem State.sendPkt_keeps {a0 s : State} (h : Keeps a0 s) {q c : Nat} {b : PktBody} : Keeps a0 (State.sendPkt s q c b) := by
  unfold State.sendPkt
  try dsimp only
  with_reducible repeat' first
      | assumption | apply State.updConn_keeps | apply State.sendOn_keeps | refine ite_keeps ?_ ?_ | (intro _; try dsimp only)

theorem State.resend_keeps {a0 s : State} (h : Keeps a0 s) {q c : Nat} {which : TxPkt → Bool} : Keeps a0 (State.resend s q c which) := by
  unfold State.resend
  try dsimp only
  with_reducible repeat' first
      | assumption | apply State.sat_keeps | apply State.updConn_keeps | apply State.sendOn_keeps | refine foldl_keeps ?_ _ _ ?_
      | refine foldl_keeps_fst ?_ _ _ ?_ | refine ite_keeps ?_ ?_ | (intro _; try dsimp only)

theorem State.updWr_keeps {a0 s : State} (h : Keeps a0 s) {q i : Nat} {f : WorkReq → WorkReq} : Keeps a0 (State.updWr s q i f) := by
  unfold State.updWr
  try dsimp only
  with_reducible repeat' first
      | assumption | apply State.updPort_keeps | refine ite_keeps ?_ ?_ | (intro _; try dsimp only)

theorem State.wrEnd_keeps {a0 s : State} (h : Keeps a0 s) {q i st : Nat} {code : BitVec 4} : Keeps a0 (State.wrEnd s q i st code) := by
  unfold State.wrEnd
  try dsimp only
  with_reducible repeat' first
      | assumption | apply State.updWr_keeps | refine ite_keeps ?_ ?_ | (intro _; try dsimp only)

theorem State.flushConn_keeps {a0 s : State} (h : Keeps a0 s) {q c first : Nat} : Keeps a0 (State.flushConn s q c first) := by
  unfold State.flushConn
  try dsimp only
  with_reducible repeat' first
      | assumption | apply State.updPort_keeps | apply State.sat_keeps | apply State.wrEnd_keeps | refine foldl_keeps ?_ _ _ ?_
      | refine foldl_keeps_fst ?_ _ _ ?_ | refine ite_keeps ?_ ?_ | (intro _; try dsimp only)

theorem State.connError_keeps {a0 s : State} (h : Keeps a0 s) {q c why : Nat} {code : BitVec 4} : Keeps a0 (State.connError s q c why code) := by
  unfold State.connError
  try dsimp only
  with_reducible repeat' first
      | assumption | apply State.wr_keeps | apply State.updConn_keeps | apply State.flushConn_keeps | refine ite_keeps ?_ ?_
      | (intro _; try dsimp only)

theorem State.locGet_keeps {a0 s : State} (h : Keeps a0 s) {q p : Nat} {tag : W16} {a len : Nat} {why : Nat → IssWhy} : Keeps a0 (State.locGet s q p tag a len why).1 := by
  unfold State.locGet
  try dsimp only
  with_reducible repeat' first
      | assumption | apply State.issueSeg_keeps | refine foldl_keeps ?_ _ _ ?_ | refine foldl_keeps_fst ?_ _ _ ?_ | refine ite_keeps_fst ?_ ?_
      | (intro _; try dsimp only) | split

theorem State.locPut_keeps {a0 s : State} (h : Keeps a0 s) {q p : Nat} {tag : W16} {a : Nat} {bs : List Byte} {why : Nat → IssWhy} : Keeps a0 (State.locPut s q p tag a bs why).1 := by
  unfold State.locPut
  try dsimp only
  with_reducible repeat' first
      | assumption | apply State.issueSeg_keeps | refine foldl_keeps ?_ _ _ ?_ | refine foldl_keeps_fst ?_ _ _ ?_ | refine ite_keeps_fst ?_ ?_
      | (intro _; try dsimp only) | split

theorem State.wrKeyDone_keeps {a0 s : State} (h : Keeps a0 s) {q : Nat} {r : WorkReq} : Keeps a0 (State.wrKeyDone s q r) := by
  unfold State.wrKeyDone
  try dsimp only
  with_reducible repeat' first
      | assumption | apply State.dec_keeps | apply State.updWr_keeps | refine ite_keeps ?_ ?_ | (intro _; try dsimp only)

theorem State.wrSend_keeps {a0 s : State} (h : Keeps a0 s) {q : Nat} {r : WorkReq} : Keeps a0 (State.wrSend s q r) := by
  unfold State.wrSend
  try dsimp only
  with_reducible repeat' first
      | assumption | apply State.sendPkt_keeps | apply State.updWr_keeps | apply State.wrKeyDone_keeps | refine foldl_keeps ?_ _ _ ?_
      | refine foldl_keeps_fst ?_ _ _ ?_ | refine ite_keeps ?_ ?_ | (intro _; try dsimp only)

theorem State.wrPumpList_keeps {a0 s : State} (h : Keeps a0 s) {q c : Nat} : ∀ x, Keeps a0 (State.wrPumpList s q c x)
  | [] => by
    unfold State.wrPumpList
    try dsimp only
    with_reducible repeat' first
      | assumption | apply State.wrSend_keeps | apply State.wrPumpList_keeps | refine ite_keeps ?_ ?_
  | y :: l => by
    unfold State.wrPumpList
    try dsimp only
    with_reducible repeat' first
      | assumption | apply State.wrSend_keeps | apply State.wrPumpList_keeps | refine ite_keeps ?_ ?_

theorem State.wrPump_keeps {a0 s : State} (h : Keeps a0 s) {q c : Nat} : Keeps a0 (State.wrPump s q c) := by
  unfold State.wrPump
  try dsimp only
  with_reducible repeat' first
      | assumption | apply State.wrPumpList_keeps | refine ite_keeps ?_ ?_ | (intro _; try dsimp only)

theorem State.wrTake_keeps {a0 s : State} (h : Keeps a0 s) {q p : Nat} {w : BitVec 512} {clx : Option Nat} : Keeps a0 (State.wrTake s q p w clx) := by
  unfold State.wrTake
  try dsimp only
  with_reducible repeat' first
      | assumption | exact List.prefix_rfl | apply State.updPort_keeps | apply State.wr_keeps | apply State.inc_keeps | apply State.sat_keeps
      | apply State.updWr_keeps | apply State.wrEnd_keeps | apply State.locGet_keeps | apply State.wrPump_keeps | refine foldl_keeps ?_ _ _ ?_
      | refine foldl_keeps_fst ?_ _ _ ?_ | refine ite_keeps ?_ ?_ | refine ite_keeps_fst ?_ ?_ | (intro _; try dsimp only) | split | dsimp only
      | (simp only [Bbx.stage_hub, Bbx.stage_east]; exact List.prefix_rfl) | exact Mram.record_perm | apply State.ctlq_keeps
      | apply State.hubctl_keeps | apply State.hub_keeps | apply State.nodes_keeps

theorem State.wrAnswer_keeps {a0 s : State} (h : Keeps a0 s) {q i pos : Nat} {g : Segment} {a : Answer} : Keeps a0 (State.wrAnswer s q i pos g a) := by
  unfold State.wrAnswer
  try dsimp only
  with_reducible repeat' first
      | assumption | apply State.updWr_keeps | apply State.wrEnd_keeps | apply State.wrPump_keeps | refine ite_keeps ?_ ?_ | (intro _; try dsimp only)
      | split

theorem State.acked_keeps {a0 s : State} (h : Keeps a0 s) {q c : Nat} {psns : List Nat} : Keeps a0 (State.acked s q c psns) := by
  unfold State.acked
  try dsimp only
  with_reducible repeat' first
      | assumption | apply State.updConn_keeps | apply State.updWr_keeps | apply State.wrEnd_keeps | refine foldl_keeps ?_ _ _ ?_
      | refine foldl_keeps_fst ?_ _ _ ?_ | refine ite_keeps ?_ ?_ | (intro _; try dsimp only) | split

theorem State.readBack_keeps {a0 s : State} (h : Keeps a0 s) {q c psn pos : Nat} {bs : List Byte} : Keeps a0 (State.readBack s q c psn pos bs) := by
  unfold State.readBack
  try dsimp only
  with_reducible repeat' first
      | assumption | apply State.wr_keeps | apply State.updConn_keeps | apply State.updWr_keeps | apply State.wrEnd_keeps | apply State.locPut_keeps
      | refine ite_keeps ?_ ?_ | (intro _; try dsimp only) | split

theorem State.oldBack_keeps {a0 s : State} (h : Keeps a0 s) {q c psn : Nat} {old : W64} : Keeps a0 (State.oldBack s q c psn old) := by
  unfold State.oldBack
  try dsimp only
  with_reducible repeat' first
      | assumption | apply State.wr_keeps | apply State.updConn_keeps | apply State.updWr_keeps | apply State.locPut_keeps | (intro _; try dsimp only)
      | split

/-! ### ClxOps -/

theorem State.portPut_keeps {a0 s : State} (h : Keeps a0 s) {q p a : Nat} {tag : W16} {bs : List Byte} {why : IssWhy} : Keeps a0 (State.portPut s q p a tag bs why) := by
  unfold State.portPut
  try dsimp only
  with_reducible repeat' first
      | assumption | apply State.issueSeg_keeps | split

theorem State.clxRecord_keeps {a0 s : State} (h : Keeps a0 s) {q p : Nat} {c : BitVec 512} {st : Nat} {flags : Byte} {code : BitVec 4} {repl : Bool} {hi : Nat} : Keeps a0 (State.clxRecord s q p c st flags code repl hi) := by
  unfold State.clxRecord
  try dsimp only
  with_reducible repeat' first
      | assumption | apply State.portPut_keeps

theorem State.updClx_keeps {a0 s : State} (h : Keeps a0 s) {q i : Nat} {f : Clx → Clx} : Keeps a0 (State.updClx s q i f) := by
  unfold State.updClx
  try dsimp only
  with_reducible repeat' first
      | assumption | apply State.updPort_keeps | refine ite_keeps ?_ ?_ | (intro _; try dsimp only)

theorem State.updGroup_keeps {a0 s : State} (h : Keeps a0 s) {q g : Nat} {f : Group → Group} : Keeps a0 (State.updGroup s q g f) := by
  unfold State.updGroup
  try dsimp only
  with_reducible repeat' first
      | assumption | apply State.updPort_keeps | (intro _; try dsimp only)

theorem State.clxStart_keeps {a0 s : State} (h : Keeps a0 s) {q p : Nat} {c : BitVec 512} {f : Clx → Clx} : Keeps a0 (State.clxStart s q p c f).1 := by
  unfold State.clxStart
  try dsimp only
  with_reducible repeat' first
      | assumption | apply State.updPort_keeps | apply State.inc_keeps | refine foldl_keeps ?_ _ _ ?_ | refine foldl_keeps_fst ?_ _ _ ?_
      | refine ite_keeps_fst ?_ ?_ | (intro _; try dsimp only)

theorem State.clxDrop_keeps {a0 s : State} (h : Keeps a0 s) {q : Nat} {x : Clx} : Keeps a0 (State.clxDrop s q x) := by
  unfold State.clxDrop
  try dsimp only
  with_reducible repeat' first
      | assumption | apply State.updPort_keeps | apply State.dec_keeps | refine foldl_keeps ?_ _ _ ?_ | refine foldl_keeps_fst ?_ _ _ ?_
      | (intro _; try dsimp only)

theorem State.clxEnd_keeps {a0 s : State} (h : Keeps a0 s) {q : Nat} {x : Clx} {st : Nat} {code : BitVec 4} {hi : Nat} : Keeps a0 (State.clxEnd s q x st code hi) := by
  unfold State.clxEnd
  try dsimp only
  with_reducible repeat' first
      | assumption | apply State.clxRecord_keeps | apply State.clxDrop_keeps

theorem State.collEnd_keeps {a0 s : State} (h : Keeps a0 s) {q i st : Nat} {code : BitVec 4} : Keeps a0 (State.collEnd s q i st code) := by
  unfold State.collEnd
  try dsimp only
  with_reducible repeat' first
      | assumption | apply State.updClx_keeps | refine ite_keeps ?_ ?_ | (intro _; try dsimp only)

theorem State.sendRank_keeps {a0 s : State} (h : Keeps a0 s) {q g r : Nat} {b : PktBody} {once : Bool} : Keeps a0 (State.sendRank s q g r b once) := by
  unfold State.sendRank
  try dsimp only
  with_reducible repeat' first
      | assumption | apply State.sendOnce_keeps | apply State.sendPkt_keeps | apply State.updGroup_keeps | refine ite_keeps ?_ ?_
      | (intro _; try dsimp only) | split

theorem State.collRead_keeps {a0 s : State} (h : Keeps a0 s) {q i : Nat} : Keeps a0 (State.collRead s q i) := by
  unfold State.collRead
  try dsimp only
  with_reducible repeat' first
      | assumption | apply State.locGet_keeps | apply State.updClx_keeps | refine foldl_keeps ?_ _ _ ?_ | refine foldl_keeps_fst ?_ _ _ ?_
      | (intro _; try dsimp only) | split

theorem State.collLand_keeps {a0 s : State} (h : Keeps a0 s) {q : Nat} {x : Clx} : Keeps a0 (State.collLand s q x) := by
  unfold State.collLand
  try dsimp only
  with_reducible repeat' first
      | assumption | apply State.land_keeps | apply State.locPut_keeps | apply State.updClx_keeps | apply State.collEnd_keeps
      | refine foldl_keeps ?_ _ _ ?_ | refine foldl_keeps_fst ?_ _ _ ?_ | refine ite_keeps ?_ ?_ | (intro _; try dsimp only)

theorem State.collPump_keeps {a0 s : State} (h : Keeps a0 s) {q i : Nat} : ∀ x, Keeps a0 (State.collPump s q i x)
  | 0 => by
    unfold State.collPump
    try dsimp only
    with_reducible repeat' first
      | assumption | apply State.updClx_keeps | apply State.collPump_keeps | apply State.sendRank_keeps | apply State.collLand_keeps
      | refine ite_keeps ?_ ?_ | (intro _; try dsimp only) | split
  | n + 1 => by
    unfold State.collPump
    try dsimp only
    with_reducible repeat' first
      | assumption | apply State.updClx_keeps | apply State.collPump_keeps | apply State.sendRank_keeps | apply State.collLand_keeps
      | refine ite_keeps ?_ ?_ | (intro _; try dsimp only) | split

theorem State.collGo_keeps {a0 s : State} (h : Keeps a0 s) {q : Nat} {x : Clx} : Keeps a0 (State.collGo s q x) := by
  unfold State.collGo
  try dsimp only
  with_reducible repeat' first
      | assumption | apply State.updClx_keeps | apply State.updGroup_keeps | apply State.collPump_keeps | refine foldl_keeps ?_ _ _ ?_
      | refine foldl_keeps_fst ?_ _ _ ?_ | refine ite_keeps ?_ ?_ | (intro _; try dsimp only)

theorem State.freeBytes_keeps {a0 s : State} (h : Keeps a0 s) {t : Tgt} {off n : Nat} : Keeps a0 (State.freeBytes s t off n) := by
  unfold State.freeBytes
  try dsimp only
  with_reducible repeat' first
      | assumption | apply State.updTile_keeps | apply State.updStack_keeps | apply State.drawn_keeps | (intro _; try dsimp only) | split

theorem State.freeDst_keeps {a0 s : State} (h : Keeps a0 s) {q i : Nat} : Keeps a0 (State.freeDst s q i) := by
  unfold State.freeDst
  try dsimp only
  with_reducible repeat' first
      | assumption | apply State.freeBytes_keeps | refine foldl_keeps ?_ _ _ ?_ | refine foldl_keeps_fst ?_ _ _ ?_ | (intro _; try dsimp only) | split

theorem State.collBegin_keeps {a0 s : State} (h : Keeps a0 s) {q i : Nat} : Keeps a0 (State.collBegin s q i) := by
  unfold State.collBegin
  try dsimp only
  with_reducible repeat' first
      | assumption | apply State.collRead_keeps | apply State.collGo_keeps | apply State.freeDst_keeps | refine ite_keeps ?_ ?_ | split

theorem State.collPacket_keeps {a0 s : State} (h : Keeps a0 s) {q g r : Nat} {id : W32} {parts : List (Nat × List Byte)} : Keeps a0 (State.collPacket s q g r id parts) := by
  unfold State.collPacket
  try dsimp only
  with_reducible repeat' first
      | assumption | apply State.updClx_keeps | apply State.updGroup_keeps | apply State.collPump_keeps | refine ite_keeps ?_ ?_
      | (intro _; try dsimp only) | split

theorem State.holdGroup_keeps {a0 s : State} (h : Keeps a0 s) {q g : Nat} : Keeps a0 (State.holdGroup s q g) := by
  unfold State.holdGroup
  try dsimp only
  with_reducible repeat' first
      | assumption | apply State.updNode_keeps | apply State.updPort_keeps | apply State.wr_keeps | apply State.clxStart_keeps
      | refine foldl_keeps ?_ _ _ ?_ | refine foldl_keeps_fst ?_ _ _ ?_ | refine ite_keeps ?_ ?_ | (intro _; try dsimp only) | split

theorem State.groupAbort_keeps {a0 s : State} (h : Keeps a0 s) {q g r : Nat} : Keeps a0 (State.groupAbort s q g r) := by
  unfold State.groupAbort
  try dsimp only
  with_reducible repeat' first
      | assumption | apply State.wr_keeps | apply State.inc_keeps | apply State.updGroup_keeps | apply State.sendRank_keeps
      | apply State.holdGroup_keeps | refine foldl_keeps ?_ _ _ ?_ | refine ite_keeps ?_ ?_ | (intro _; try dsimp only)

theorem State.heardFrom_keeps {a0 s : State} (h : Keeps a0 s) {q g r : Nat} : Keeps a0 (State.heardFrom s q g r) := by
  unfold State.heardFrom
  try dsimp only
  with_reducible repeat' first
      | assumption | apply State.updGroup_keeps | (intro _; try dsimp only)

theorem State.keepalive_keeps {a0 s : State} (h : Keeps a0 s) {q g r : Nat} {st : PeerState} : Keeps a0 (State.keepalive s q g r st) := by
  unfold State.keepalive
  try dsimp only
  with_reducible repeat' first
      | assumption | apply State.updGroup_keeps | apply State.collPump_keeps | apply State.groupAbort_keeps | refine foldl_keeps ?_ _ _ ?_
      | refine ite_keeps ?_ ?_ | (intro _; try dsimp only) | split

theorem State.shrinkSend_keeps {a0 s : State} (h : Keeps a0 s) {q g from_ : Nat} {ds : List (Nat × W64)} : Keeps a0 (State.shrinkSend s q g from_ ds) := by
  unfold State.shrinkSend
  try dsimp only
  with_reducible repeat' first
      | assumption | apply State.shrink_keeps | apply State.sendRank_keeps | refine foldl_keeps ?_ _ _ ?_ | refine ite_keeps ?_ ?_
      | (intro _; try dsimp only) | split

theorem State.digestIn_keeps {a0 s : State} (h : Keeps a0 s) {q g r : Nat} {ds : List (Nat × W64)} : Keeps a0 (State.digestIn s q g r ds) := by
  unfold State.digestIn
  try dsimp only
  with_reducible repeat' first
      | assumption | apply State.shrink_keeps | apply State.updGroup_keeps | apply State.shrinkSend_keeps | (intro _; try dsimp only) | split

theorem State.groupFree_keeps {a0 s : State} (h : Keeps a0 s) {q g : Nat} : Keeps a0 (State.groupFree s q g) := by
  unfold State.groupFree
  try dsimp only
  with_reducible repeat' first
      | assumption | apply State.updPort_keeps | apply State.wr_keeps | apply State.collEnd_keeps | refine foldl_keeps ?_ _ _ ?_
      | (intro _; try dsimp only)

theorem State.shrinkGo_keeps {a0 s : State} (h : Keeps a0 s) {q : Nat} {x : Clx} : Keeps a0 (State.shrinkGo s q x) := by
  unfold State.shrinkGo
  try dsimp only
  with_reducible repeat' first
      | assumption | apply State.shrink_keeps | apply State.updClx_keeps | apply State.updGroup_keeps | apply State.clxEnd_keeps
      | apply State.shrinkSend_keeps | apply State.groupFree_keeps | refine ite_keeps ?_ ?_ | (intro _; try dsimp only)

theorem State.shrinkFail_keeps {a0 s : State} (h : Keeps a0 s) {q g : Nat} {h : Shrink} : Keeps a0 (State.shrinkFail s q g h) := by
  unfold State.shrinkFail
  try dsimp only
  with_reducible repeat' first
      | assumption | apply State.wr_keeps | apply State.shrink_keeps | apply State.updGroup_keeps | apply State.clxEnd_keeps
      | (intro _; try dsimp only) | split

theorem State.shrinkAdopt_keeps {a0 s : State} (h : Keeps a0 s) {q g : Nat} {h : Shrink} : Keeps a0 (State.shrinkAdopt s q g h) := by
  unfold State.shrinkAdopt
  try dsimp only
  with_reducible repeat' first
      | assumption | apply State.wr_keeps | apply State.shrink_keeps | apply State.updClx_keeps | apply State.updGroup_keeps
      | apply State.clxEnd_keeps | apply State.collBegin_keeps | apply State.heardFrom_keeps | refine foldl_keeps ?_ _ _ ?_
      | refine foldl_keeps_fst ?_ _ _ ?_ | (intro _; try dsimp only) | split

theorem State.streamNext_keeps {a0 s : State} (h : Keeps a0 s) {q i : Nat} : Keeps a0 (State.streamNext s q i) := by
  unfold State.streamNext
  try dsimp only
  with_reducible repeat' first
      | assumption | apply State.wrTake_keeps | apply State.updClx_keeps | apply State.clxEnd_keeps | refine ite_keeps ?_ ?_
      | (intro _; try dsimp only) | split

theorem State.restoreNext_keeps {a0 s : State} (h : Keeps a0 s) {q i : Nat} : Keeps a0 (State.restoreNext s q i) := by
  unfold State.restoreNext
  try dsimp only
  with_reducible repeat' first
      | assumption | apply State.wrTake_keeps | apply State.updClx_keeps | apply State.clxEnd_keeps | refine foldl_keeps ?_ _ _ ?_
      | refine ite_keeps ?_ ?_ | (intro _; try dsimp only) | split

theorem State.updEp_keeps {a0 s : State} (h : Keeps a0 s) {q e : Nat} {f : Endpoint → Endpoint} : Keeps a0 (State.updEp s q e f) := by
  unfold State.updEp
  try dsimp only
  with_reducible repeat' first
      | assumption | apply State.updPort_keeps | (intro _; try dsimp only)

theorem State.sendHeader_keeps {a0 s : State} (h : Keeps a0 s) {q c : Nat} {rkey : W32} {roff : Nat} {h : List Byte} : Keeps a0 (State.sendHeader s q c rkey roff h) := by
  unfold State.sendHeader
  try dsimp only
  with_reducible repeat' first
      | assumption | apply State.sendPkt_keeps | refine ite_keeps ?_ ?_

theorem State.epRequest_keeps {a0 s : State} (h : Keeps a0 s) {q c e : Nat} {m : List Byte} : Keeps a0 (State.epRequest s q c e m) := by
  unfold State.epRequest
  try dsimp only
  with_reducible repeat' first
      | assumption | apply State.inc_keeps | apply State.locPut_keeps | apply State.updEp_keeps | apply State.sendHeader_keeps
      | refine ite_keeps ?_ ?_ | (intro _; try dsimp only) | split

theorem State.epDescriptor_keeps {a0 s : State} (h : Keeps a0 s) {q e i : Nat} {t : EpSlot} : Keeps a0 (State.epDescriptor s q e i t) := by
  unfold State.epDescriptor
  try dsimp only
  with_reducible repeat' first
      | assumption | apply State.dec_keeps | apply State.portPut_keeps

theorem State.slotAnswer_keeps {a0 s : State} (h : Keeps a0 s) {q e i : Nat} {a : Answer} : Keeps a0 (State.slotAnswer s q e i a) := by
  unfold State.slotAnswer
  try dsimp only
  with_reducible repeat' first
      | assumption | apply State.dec_keeps | apply State.sat_keeps | apply State.connError_keeps | apply State.updEp_keeps
      | apply State.epDescriptor_keeps | refine ite_keeps ?_ ?_ | (intro _; try dsimp only) | split

theorem State.epFree_keeps {a0 s : State} (h : Keeps a0 s) {q e i : Nat} : Keeps a0 (State.epFree s q e i) := by
  unfold State.epFree
  try dsimp only
  with_reducible repeat' first
      | assumption | apply State.updEp_keeps | (intro _; try dsimp only)

theorem State.respondHeader_keeps {a0 s : State} (h : Keeps a0 s) {q : Nat} {x : Clx} {t : EpSlot} : Keeps a0 (State.respondHeader s q x t) := by
  unfold State.respondHeader
  try dsimp only
  with_reducible repeat' first
      | assumption | apply State.updPort_keeps | apply State.sat_keeps | apply State.wrPump_keeps | apply State.updClx_keeps
      | (intro _; try dsimp only)

theorem State.wrGone_keeps {a0 s : State} (h : Keeps a0 s) {q : Nat} {r : WorkReq} : Keeps a0 (State.wrGone s q r) := by
  unfold State.wrGone
  try dsimp only
  with_reducible repeat' first
      | assumption | apply State.updPort_keeps | apply State.dec_keeps | apply State.wrKeyDone_keeps | (intro _; try dsimp only)

theorem State.respondStep_keeps {a0 s : State} (h : Keeps a0 s) {q : Nat} {x : Clx} {r : WorkReq} : Keeps a0 (State.respondStep s q x r) := by
  unfold State.respondStep
  try dsimp only
  with_reducible repeat' first
      | assumption | apply State.clxEnd_keeps | apply State.epFree_keeps | apply State.respondHeader_keeps | apply State.wrGone_keeps
      | refine ite_keeps ?_ ?_ | (intro _; try dsimp only) | split

theorem State.restoreStep_keeps {a0 s : State} (h : Keeps a0 s) {q : Nat} {x : Clx} {r : WorkReq} : Keeps a0 (State.restoreStep s q x r) := by
  unfold State.restoreStep
  try dsimp only
  with_reducible repeat' first
      | assumption | apply State.wrTake_keeps | apply State.updClx_keeps | apply State.clxEnd_keeps | apply State.restoreNext_keeps
      | apply State.wrGone_keeps | refine ite_keeps ?_ ?_ | (intro _; try dsimp only) | split

theorem State.clxWr_keeps {a0 s : State} (h : Keeps a0 s) {q : Nat} {r : WorkReq} : Keeps a0 (State.clxWr s q r) := by
  unfold State.clxWr
  try dsimp only
  with_reducible repeat' first
      | assumption | apply State.updClx_keeps | apply State.clxEnd_keeps | apply State.streamNext_keeps | apply State.wrGone_keeps
      | apply State.respondStep_keeps | apply State.restoreStep_keeps | refine ite_keeps ?_ ?_ | (intro _; try dsimp only) | split

theorem State.portPoll_keeps {a0 s : State} (h : Keeps a0 s) {q : Nat} : Keeps a0 (State.portPoll s q) := by
  unfold State.portPoll
  try dsimp only
  with_reducible repeat' first
      | assumption | apply State.clxWr_keeps | refine foldl_keeps ?_ _ _ ?_ | (intro _; try dsimp only)

theorem State.clxAnswer_keeps {a0 s : State} (h : Keeps a0 s) {q i pos : Nat} {g : Segment} {a : Answer} : Keeps a0 (State.clxAnswer s q i pos g a) := by
  unfold State.clxAnswer
  try dsimp only
  with_reducible repeat' first
      | assumption | apply State.wr_keeps | apply State.land_keeps | apply State.updClx_keeps | apply State.clxEnd_keeps | apply State.collEnd_keeps
      | apply State.collGo_keeps | apply State.shrinkGo_keeps | refine ite_keeps ?_ ?_ | (intro _; try dsimp only) | split

/-! ### TimeOps -/

theorem State.servo_keeps {a0 s : State} (h : Keeps a0 s) {off adj : Int} : Keeps a0 (State.servo s off adj) := by
  unfold State.servo
  try dsimp only
  with_reducible repeat' first
      | assumption | exact List.prefix_rfl | apply State.hwr_keeps | apply State.updHub_keeps | refine ite_keeps ?_ ?_ | (intro _; try dsimp only)
      | dsimp only

/-! ### PeerOps -/

theorem State.reqGone_keeps {a0 s : State} (h : Keeps a0 s) {q : Nat} {r : EthReq} : Keeps a0 (State.reqGone s q r) := by
  unfold State.reqGone
  try dsimp only
  with_reducible repeat' first
      | assumption | apply State.updPort_keeps | apply State.dec_keeps | (intro _; try dsimp only)

theorem State.reqReply_keeps {a0 s : State} (h : Keeps a0 s) {q : Nat} {r : EthReq} {old : W64} : Keeps a0 (State.reqReply s q r old) := by
  unfold State.reqReply
  try dsimp only
  with_reducible repeat' first
      | assumption | apply State.updConn_keeps | apply State.sendOnce_keeps | refine foldl_keeps ?_ _ _ ?_ | refine foldl_keeps_fst ?_ _ _ ?_
      | refine ite_keeps ?_ ?_ | (intro _; try dsimp only) | split

theorem State.keyAnswer_keeps {a0 s : State} (h : Keeps a0 s) {q id pos : Nat} {a : Answer} : Keeps a0 (State.keyAnswer s q id pos a) := by
  unfold State.keyAnswer
  try dsimp only
  with_reducible repeat' first
      | assumption | apply State.updPort_keeps | apply State.sat_keeps | apply State.sendOnce_keeps | apply State.connError_keeps
      | apply State.reqGone_keeps | apply State.reqReply_keeps | refine ite_keeps ?_ ?_ | (intro _; try dsimp only) | split

theorem State.reqSegs_keeps {a0 s : State} (h : Keeps a0 s) {q p : Nat} {r : PeerReq} {why : Nat → IssWhy} : Keeps a0 (State.reqSegs s q p r why).1 := by
  unfold State.reqSegs
  refine ite_keeps_fst (State.locPut_keeps h) (ite_keeps_fst (State.locGet_keeps h) ?_)
  generalize decodePga _ _ _ = d
  cases d with
  | none => exact h
  | some d =>
    cases d with
    | direct t off => exact State.issueSeg_keeps h
    | striped b => exact h

theorem State.reqIssue_keeps {a0 s : State} (h : Keeps a0 s) {q c psn : Nat} {r : PeerReq} : Keeps a0 (State.reqIssue s q c psn r) := by
  unfold State.reqIssue
  try dsimp only
  with_reducible repeat' first
      | assumption | apply State.updPort_keeps | apply State.inc_keeps | apply State.reqGone_keeps | apply State.reqReply_keeps
      | apply State.reqSegs_keeps | refine ite_keeps ?_ ?_ | (intro _; try dsimp only)

theorem State.psnTake_keeps {a0 s : State} (h : Keeps a0 s) {q c psn : Nat} {b : PktBody} : Keeps a0 (State.psnTake s q c psn b) := by
  unfold State.psnTake
  try dsimp only
  with_reducible repeat' first
      | assumption | apply State.updConn_keeps | refine ite_keeps ?_ ?_ | (intro _; try dsimp only)

theorem State.rxLimit_keeps {a0 s : State} (h : Keeps a0 s) {q c len : Nat} : Keeps a0 (State.rxLimit s q c len).1 := by
  unfold State.rxLimit
  try dsimp only
  with_reducible repeat' first
      | assumption | apply State.updConn_keeps | refine ite_keeps ?_ ?_ | refine ite_keeps_fst ?_ ?_ | (intro _; try dsimp only)

theorem State.sendAck_keeps {a0 s : State} (h : Keeps a0 s) {q c psn : Nat} : Keeps a0 (State.sendAck s q c psn) := by
  unfold State.sendAck
  try dsimp only
  with_reducible repeat' first
      | assumption | apply State.sendOnce_keeps

theorem State.answerAgain_keeps {a0 s : State} (h : Keeps a0 s) {q c psn : Nat} {b : PktBody} : Keeps a0 (State.answerAgain s q c psn b) := by
  unfold State.answerAgain
  try dsimp only
  with_reducible repeat' first
      | assumption | apply State.sat_keeps | apply State.sendOnce_keeps | apply State.reqIssue_keeps | apply State.sendAck_keeps
      | refine ite_keeps ?_ ?_ | (intro _; try dsimp only) | split

theorem State.reqRx_keeps {a0 s : State} (h : Keeps a0 s) {q port c len psn : Nat} {b : PktBody} : Keeps a0 (State.reqRx s q port c len psn b) := by
  unfold State.reqRx
  try dsimp only
  with_reducible repeat' first
      | assumption | apply State.updPort_keeps | apply State.sat_keeps | apply State.sendOnce_keeps | apply State.connError_keeps
      | apply State.reqIssue_keeps | apply State.psnTake_keeps | apply State.rxLimit_keeps | apply State.sendAck_keeps | apply State.answerAgain_keeps
      | refine ite_keeps ?_ ?_ | (intro _; try dsimp only) | split

theorem State.groupRx_keeps {a0 s : State} (h : Keeps a0 s) {q c psn g : Nat} {epoch : W32} {b : PktBody} : Keeps a0 (State.groupRx s q c psn g epoch b) := by
  unfold State.groupRx
  try dsimp only
  with_reducible repeat' first
      | assumption | apply State.sat_keeps | apply State.sendOnce_keeps | apply State.collPacket_keeps | apply State.groupAbort_keeps
      | apply State.digestIn_keeps | apply State.psnTake_keeps | apply State.sendAck_keeps | apply State.answerAgain_keeps | refine ite_keeps ?_ ?_
      | (intro _; try dsimp only) | split

theorem State.cnpRx_keeps {a0 s : State} (h : Keeps a0 s) {q c : Nat} : Keeps a0 (State.cnpRx s q c) := by
  unfold State.cnpRx
  try dsimp only
  with_reducible repeat' first
      | assumption | apply State.updConn_keeps | refine ite_keeps ?_ ?_ | (intro _; try dsimp only) | split

theorem State.ecnRx_keeps {a0 s : State} (h : Keeps a0 s) {q c : Nat} {ecn : Bool} : Keeps a0 (State.ecnRx s q c ecn) := by
  unfold State.ecnRx
  try dsimp only
  with_reducible repeat' first
      | assumption | apply State.updConn_keeps | apply State.sendOnce_keeps | refine ite_keeps ?_ ?_ | (intro _; try dsimp only) | split

theorem State.retryAll_keeps {a0 s : State} (h : Keeps a0 s) {q c : Nat} : Keeps a0 (State.retryAll s q c) := by
  unfold State.retryAll
  try dsimp only
  with_reducible repeat' first
      | assumption | apply State.updConn_keeps | apply State.resend_keeps | apply State.connError_keeps | refine ite_keeps ?_ ?_
      | (intro _; try dsimp only)

theorem State.bodyRx_keeps {a0 s : State} (h : Keeps a0 s) {q port c len psn : Nat} {b : PktBody} : Keeps a0 (State.bodyRx s q port c len psn b) := by
  unfold State.bodyRx
  try dsimp only
  with_reducible repeat' first
      | assumption | apply State.resend_keeps | apply State.connError_keeps | apply State.acked_keeps | apply State.readBack_keeps
      | apply State.oldBack_keeps | apply State.keepalive_keeps | apply State.reqRx_keeps | apply State.groupRx_keeps | apply State.cnpRx_keeps
      | apply State.retryAll_keeps | refine ite_keeps ?_ ?_ | (intro _; try dsimp only) | split

theorem State.packetRx_keeps {a0 s : State} (h : Keeps a0 s) {q port : Nat} {src : BitVec 128} {c len : Nat} {hdr : BitVec 96} {psn : Nat} {ecn : Bool} {b : PktBody} : Keeps a0 (State.packetRx s q port src c len hdr psn ecn b) := by
  unfold State.packetRx
  try dsimp only
  with_reducible repeat' first
      | assumption | apply State.wr_keeps | apply State.sat_keeps | apply State.updConn_keeps | apply State.heardFrom_keeps | apply State.ecnRx_keeps
      | apply State.bodyRx_keeps | refine foldl_keeps ?_ _ _ ?_ | refine foldl_keeps_fst ?_ _ _ ?_ | refine ite_keeps ?_ ?_
      | (intro _; try dsimp only) | split

theorem State.fecCount_keeps {a0 s : State} (h : Keeps a0 s) {n port c : Nat} : Keeps a0 (State.fecCount s n port c) := by
  unfold State.fecCount
  try dsimp only
  with_reducible repeat' first
      | assumption | apply State.wr_keeps

/-- MACsec drops a frame or takes its packet number. -/
theorem State.macsecRx_keeps {a0 s r : State} (h : Keeps a0 s) {q port : Nat} {f : Frame} (he : s.macsecRx q port f = some r) : Keeps a0 r := by
  unfold State.macsecRx at he
  dsimp only at he
  repeat' split at he
  all_goals cases he
  · exact h
  · exact State.updPort_keeps h

theorem State.frameRx_keeps {a0 s : State} (h : Keeps a0 s) {q port : Nat} {f : Frame} : Keeps a0 (State.frameRx s q port f) := by
  unfold State.frameRx
  refine ite_keeps h ?_
  have h0 := State.fecCount_keeps h (n := 265 + q) (port := port) (c := f.corrected)
  dsimp only
  with_reducible refine ite_keeps (State.sat_keeps (State.sat_keeps h0)) (ite_keeps (State.sat_keeps h0) ?_)
  split
  · with_reducible exact State.sat_keeps h0
  · next s1 he =>
    have h1 := State.macsecRx_keeps h0 he
    with_reducible refine ite_keeps (State.sat_keeps h1) ?_
    generalize f.kind = kd
    cases kd
    case neighbour => exact State.emit_keeps h1
    case echo => exact State.emit_keeps h1
    case ptp => exact ite_keeps (State.servo_keeps (State.emit_keeps h1)) (State.emit_keeps h1)
    case unauth => exact State.sat_keeps h1
    case uetReplay => exact State.sat_keeps h1
    case packet => exact State.portPoll_keeps (State.packetRx_keeps h1)
    all_goals exact h1

/-! ### PortInsn -/

theorem State.updBlk_keeps {a0 s : State} (h : Keeps a0 s) {q p : Nat} {f : PortBlk → PortBlk} : Keeps a0 (State.updBlk s q p f) := by
  unfold State.updBlk
  try dsimp only
  with_reducible repeat' first
      | assumption | apply State.updPort_keeps | (intro _; try dsimp only)

theorem State.portResult_keeps {a0 s : State} (h : Keeps a0 s) {q p : Nat} {c : BitVec 512} {st value : Nat} : Keeps a0 (State.portResult s q p c st value) := by
  unfold State.portResult
  try dsimp only
  with_reducible repeat' first
      | assumption | apply State.portPut_keeps

theorem State.portRun_keeps {a0 s : State} (h : Keeps a0 s) {q p op : Nat} {f : BitVec 512 → State → State} (hf : ∀ x0 x1, Keeps a0 x1 → Keeps a0 (f x0 x1)) : Keeps a0 (State.portRun s q p op f) := by
  unfold State.portRun
  try dsimp only
  with_reducible repeat' first
      | assumption | apply hf | apply State.updBlk_keeps | apply State.portResult_keeps | refine ite_keeps ?_ ?_ | (intro _; try dsimp only) | split

theorem State.tkBind_keeps {a0 s : State} (h : Keeps a0 s) {q p : Nat} {c : BitVec 512} : Keeps a0 (State.tkBind s q p c) := by
  unfold State.tkBind
  try dsimp only
  with_reducible repeat' first
      | assumption | apply State.wr_keeps | apply State.portResult_keeps | refine ite_keeps ?_ ?_ | split

theorem execTkBind_keeps {a0 s : State} (h : Keeps a0 s) {q : Fin 4} {p : PartNo} {r_ : State} (he : execTkBind q p s = .next r_) : Keeps a0 r_ := by
  unfold execTkBind at he
  try dsimp only at he
  refine next_keeps he ?_
  clear he
  with_reducible repeat' first
      | assumption | apply State.portRun_keeps | apply State.tkBind_keeps | (intro _; try dsimp only)

theorem execTkUnbind_keeps {a0 s : State} (h : Keeps a0 s) {q : Fin 4} {p : PartNo} {r_ : State} (he : execTkUnbind q p s = .next r_) : Keeps a0 r_ := by
  unfold execTkUnbind at he
  try dsimp only at he
  refine next_keeps he ?_
  clear he
  with_reducible repeat' first
      | assumption | apply State.updBlk_keeps | apply State.portResult_keeps | apply State.portRun_keeps | refine ite_keeps ?_ ?_
      | (intro _; try dsimp only)

theorem execTkUnbindComplete_keeps {a0 s : State} (h : Keeps a0 s) {q : Fin 4} {p : PartNo} {r_ : State} (he : execTkUnbindComplete q p s = .next r_) : Keeps a0 r_ := by
  unfold execTkUnbindComplete at he
  try dsimp only at he
  refine next_keeps he ?_
  clear he
  with_reducible repeat' first
      | assumption | apply State.wr_keeps | apply State.updBlk_keeps | apply State.portResult_keeps | refine ite_keeps ?_ ?_
      | (intro _; try dsimp only) | split

theorem State.connEntry_keeps {a0 s : State} (h : Keeps a0 s) {q p i : Nat} {c : BitVec 512} : Keeps a0 (State.connEntry s q p i c) := by
  unfold State.connEntry
  try dsimp only
  with_reducible repeat' first
      | assumption | apply State.wr_keeps | apply State.updConn_keeps | refine ite_keeps ?_ ?_ | (intro _; try dsimp only)

theorem State.connOpenCmd_keeps {a0 s : State} (h : Keeps a0 s) {q p : Nat} {c : BitVec 512} : Keeps a0 (State.connOpenCmd s q p c) := by
  unfold State.connOpenCmd
  try dsimp only
  with_reducible repeat' first
      | assumption | apply State.portResult_keeps | apply State.connEntry_keeps | refine ite_keeps ?_ ?_ | (intro _; try dsimp only)

theorem execConnOpen_keeps {a0 s : State} (h : Keeps a0 s) {q : Fin 4} {p : PartNo} {r_ : State} (he : execConnOpen q p s = .next r_) : Keeps a0 r_ := by
  unfold execConnOpen at he
  try dsimp only at he
  refine next_keeps he ?_
  clear he
  with_reducible repeat' first
      | assumption | apply State.portRun_keeps | apply State.connOpenCmd_keeps | (intro _; try dsimp only)

theorem State.connShut_keeps {a0 s : State} (h : Keeps a0 s) {q i : Nat} : Keeps a0 (State.connShut s q i) := by
  unfold State.connShut
  try dsimp only
  with_reducible repeat' first
      | assumption | apply State.updPort_keeps | apply State.wr_keeps | apply State.flushConn_keeps | apply State.portPoll_keeps
      | (intro _; try dsimp only)

theorem execConnClose_keeps {a0 s : State} (h : Keeps a0 s) {q : Fin 4} {p : PartNo} {r_ : State} (he : execConnClose q p s = .next r_) : Keeps a0 r_ := by
  unfold execConnClose at he
  try dsimp only at he
  refine next_keeps he ?_
  clear he
  with_reducible repeat' first
      | assumption | apply State.portResult_keeps | apply State.portRun_keeps | apply State.connShut_keeps | refine ite_keeps ?_ ?_
      | (intro _; try dsimp only)

theorem execConnQuery_keeps {a0 s : State} (h : Keeps a0 s) {q : Fin 4} {p : PartNo} {r_ : State} (he : execConnQuery q p s = .next r_) : Keeps a0 r_ := by
  unfold execConnQuery at he
  try dsimp only at he
  refine next_keeps he ?_
  clear he
  with_reducible repeat' first
      | assumption | apply State.portResult_keeps | apply State.portRun_keeps | refine ite_keeps ?_ ?_ | (intro _; try dsimp only)

theorem State.wrNext_keeps {a0 s : State} (h : Keeps a0 s) {q p op : Nat} : Keeps a0 (State.wrNext s q p op) := by
  unfold State.wrNext
  try dsimp only
  with_reducible repeat' first
      | assumption | apply State.wrTake_keeps | apply State.updBlk_keeps | refine ite_keeps ?_ ?_ | (intro _; try dsimp only) | split

theorem execWrWrite_keeps {a0 s : State} (h : Keeps a0 s) {q : Fin 4} {p : PartNo} {r_ : State} (he : execWrWrite q p s = .next r_) : Keeps a0 r_ := by
  unfold execWrWrite at he
  try dsimp only at he
  refine next_keeps he ?_
  clear he
  with_reducible repeat' first
      | assumption | apply State.wrNext_keeps

theorem execWrRead_keeps {a0 s : State} (h : Keeps a0 s) {q : Fin 4} {p : PartNo} {r_ : State} (he : execWrRead q p s = .next r_) : Keeps a0 r_ := by
  unfold execWrRead at he
  try dsimp only at he
  refine next_keeps he ?_
  clear he
  with_reducible repeat' first
      | assumption | apply State.wrNext_keeps

theorem execWrFadd_keeps {a0 s : State} (h : Keeps a0 s) {q : Fin 4} {p : PartNo} {r_ : State} (he : execWrFadd q p s = .next r_) : Keeps a0 r_ := by
  unfold execWrFadd at he
  try dsimp only at he
  refine next_keeps he ?_
  clear he
  with_reducible repeat' first
      | assumption | apply State.wrNext_keeps

theorem execWrCswap_keeps {a0 s : State} (h : Keeps a0 s) {q : Fin 4} {p : PartNo} {r_ : State} (he : execWrCswap q p s = .next r_) : Keeps a0 r_ := by
  unfold execWrCswap at he
  try dsimp only at he
  refine next_keeps he ?_
  clear he
  with_reducible repeat' first
      | assumption | apply State.wrNext_keeps

theorem execWrFor_keeps {a0 s : State} (h : Keeps a0 s) {q : Fin 4} {p : PartNo} {r_ : State} (he : execWrFor q p s = .next r_) : Keeps a0 r_ := by
  unfold execWrFor at he
  try dsimp only at he
  refine next_keeps he ?_
  clear he
  with_reducible repeat' first
      | assumption | apply State.wrNext_keeps

theorem execWrCompletion_keeps {a0 s : State} (h : Keeps a0 s) {q : Fin 4} {i : Nat} {r_ : State} (he : execWrCompletion q i s = .next r_) : Keeps a0 r_ := by
  unfold execWrCompletion at he
  try dsimp only at he
  refine next_keeps he ?_
  clear he
  with_reducible repeat' first
      | assumption | apply State.wrPump_keeps | apply State.portPut_keeps | apply State.wrGone_keeps | refine ite_keeps ?_ ?_
      | (intro _; try dsimp only) | split

theorem execEthFrameRx_keeps {a0 s : State} (h : Keeps a0 s) {q : Fin 4} {port : Fin 8} {f : Frame} {r_ : State} (he : execEthFrameRx q port f s = .next r_) : Keeps a0 r_ := by
  unfold execEthFrameRx at he
  try dsimp only at he
  refine next_keeps he ?_
  clear he
  with_reducible repeat' first
      | assumption | apply State.frameRx_keeps | refine ite_keeps ?_ ?_

theorem execRoceAckTimeout_keeps {a0 s : State} (h : Keeps a0 s) {q : Fin 4} {c : Fin 4096} {r_ : State} (he : execRoceAckTimeout q c s = .next r_) : Keeps a0 r_ := by
  unfold execRoceAckTimeout at he
  try dsimp only at he
  refine next_keeps he ?_
  clear he
  with_reducible repeat' first
      | assumption | apply State.till_keeps | apply State.portPoll_keeps | apply State.retryAll_keeps | refine ite_keeps ?_ ?_ | split

theorem execUetRtoExpiry_keeps {a0 s : State} (h : Keeps a0 s) {q : Fin 4} {c : Fin 4096} {psn : Nat} {r_ : State} (he : execUetRtoExpiry q c psn s = .next r_) : Keeps a0 r_ := by
  unfold execUetRtoExpiry at he
  try dsimp only at he
  refine next_keeps he ?_
  clear he
  with_reducible repeat' first
      | assumption | apply State.till_keeps | apply State.resend_keeps | apply State.connError_keeps | apply State.portPoll_keeps
      | refine ite_keeps ?_ ?_ | (intro _; try dsimp only) | split

theorem execCnpRateIncrease_keeps {a0 s : State} (h : Keeps a0 s) {q : Fin 4} {c : Fin 4096} {r_ : State} (he : execCnpRateIncrease q c s = .next r_) : Keeps a0 r_ := by
  unfold execCnpRateIncrease at he
  try dsimp only at he
  refine next_keeps he ?_
  clear he
  with_reducible repeat' first
      | assumption | apply State.till_keeps | apply State.updConn_keeps | refine ite_keeps ?_ ?_ | (intro _; try dsimp only)

theorem execEthPortUp_keeps {a0 s : State} (h : Keeps a0 s) {q : Fin 4} {port : Fin 8} {ok : Bool} {r_ : State} (he : execEthPortUp q port ok s = .next r_) : Keeps a0 r_ := by
  unfold execEthPortUp at he
  try dsimp only at he
  refine next_keeps he ?_
  clear he
  with_reducible repeat' first
      | assumption | apply State.raiseReason_keeps | apply State.setPort_keeps | refine ite_keeps ?_ ?_ | (intro _; try dsimp only)

theorem State.portDown_keeps {a0 s : State} (h : Keeps a0 s) {q port st : Nat} : Keeps a0 (State.portDown s q port st) := by
  unfold State.portDown
  try dsimp only
  with_reducible repeat' first
      | assumption | apply State.wr_keeps | apply State.setPort_keeps | apply State.resend_keeps | refine foldl_keeps ?_ _ _ ?_
      | refine foldl_keeps_fst ?_ _ _ ?_ | refine ite_keeps ?_ ?_ | (intro _; try dsimp only)

theorem execEthPortDown_keeps {a0 s : State} (h : Keeps a0 s) {q : Fin 4} {port : Fin 8} {r_ : State} (he : execEthPortDown q port s = .next r_) : Keeps a0 r_ := by
  unfold execEthPortDown at he
  try dsimp only at he
  refine next_keeps he ?_
  clear he
  with_reducible repeat' first
      | assumption | apply State.portDown_keeps | refine ite_keeps ?_ ?_

theorem State.retrain_keeps {a0 s : State} (h : Keeps a0 s) {q quad : Nat} : Keeps a0 (State.retrain s q quad) := by
  unfold State.retrain
  try dsimp only
  with_reducible repeat' first
      | assumption | apply State.applyMode_keeps | apply State.portDown_keeps | refine foldl_keeps ?_ _ _ ?_ | refine foldl_keeps_fst ?_ _ _ ?_
      | refine ite_keeps ?_ ?_ | (intro _; try dsimp only)

theorem execQRetrain_keeps {a0 s : State} (h : Keeps a0 s) {q quad : Fin 4} {r_ : State} (he : execQRetrain q quad s = .next r_) : Keeps a0 r_ := by
  unfold execQRetrain at he
  try dsimp only at he
  refine next_keeps he ?_
  clear he
  with_reducible repeat' first
      | assumption | apply State.retrain_keeps | refine ite_keeps ?_ ?_

/-! ### SegInsn -/

theorem execSegmentArrival_keeps {a0 s : State} (h : Keeps a0 s) {t : Tgt} {g : Segment} {r_ : State} (he : execSegmentArrival t g s = .next r_) : Keeps a0 r_ := by
  unfold execSegmentArrival at he
  try dsimp only at he
  repeat' first
    | (with_reducible refine next_keeps he ?_; clear he)
    | split at he
    | cases he
  with_reducible repeat' first
      | assumption | apply State.arriveSeg_keeps | refine ite_keeps ?_ ?_

theorem execSegmentWriteVisible_keeps {a0 s : State} (h : Keeps a0 s) {t : Tgt} {i : Nat} {r_ : State} (he : execSegmentWriteVisible t i s = .next r_) : Keeps a0 r_ := by
  unfold execSegmentWriteVisible at he
  try dsimp only at he
  refine next_keeps he ?_
  clear he
  with_reducible repeat' first
      | assumption | apply State.segVisible_keeps | apply State.hostPoll_keeps

theorem execCloseComplete_keeps {a0 s : State} (h : Keeps a0 s) {t : Tgt} {r_ : State} (he : execCloseComplete t s = .next r_) : Keeps a0 r_ := by
  unfold execCloseComplete at he
  try dsimp only at he
  refine next_keeps he ?_
  clear he
  with_reducible repeat' first
      | assumption | apply State.settleUnit_keeps | apply State.hostPoll_keeps

theorem State.cellTimeout_keeps {a0 s : State} (h : Keeps a0 s) {w : Window} : Keeps a0 (State.cellTimeout s w) := by
  unfold State.cellTimeout
  try dsimp only
  with_reducible repeat' first
      | assumption | exact List.prefix_rfl | apply State.updHub_keeps | refine ite_keeps ?_ ?_ | (intro _; try dsimp only) | split | dsimp only

theorem execQuiesceTimeout_keeps {a0 s : State} (h : Keeps a0 s) {t : Tgt} {i : Nat} {r_ : State} (he : execQuiesceTimeout t i s = .next r_) : Keeps a0 r_ := by
  unfold execQuiesceTimeout at he
  try dsimp only at he
  refine next_keeps he ?_
  clear he
  with_reducible repeat' first
      | assumption | apply State.till_keeps | apply State.updUnit_keeps | apply State.settleUnit_keeps | apply State.hostPoll_keeps
      | apply State.cellTimeout_keeps | refine ite_keeps ?_ ?_ | (intro _; try dsimp only)

theorem execCtlRegRd_keeps {a0 s : State} (h : Keeps a0 s) {t : CtlTgt} {tag : Byte} {off n : Nat} {r_ : State} (he : execCtlRegRd t tag off n s = .next r_) : Keeps a0 r_ := by
  unfold execCtlRegRd at he
  try dsimp only at he
  repeat' first
    | (with_reducible refine next_keeps he ?_; clear he)
    | split at he
    | cases he
  with_reducible repeat' first
      | assumption | apply State.latch_keeps | refine ite_keeps ?_ ?_ | apply State.ctlq_keeps | apply State.hubctl_keeps | apply State.hub_keeps
      | apply State.nodes_keeps

theorem execCtlRegWr_keeps {a0 s : State} (h : Keeps a0 s) {t : CtlTgt} {tag : Byte} {off : Nat} {vs : List W32} {r_ : State} (he : execCtlRegWr t tag off vs s = .next r_) : Keeps a0 r_ := by
  unfold execCtlRegWr at he
  try dsimp only at he
  repeat' first
    | (with_reducible refine next_keeps he ?_; clear he)
    | split at he
    | cases he
  with_reducible repeat' first
      | assumption | apply State.ctlWrite_keeps | refine ite_keeps ?_ ?_ | apply State.ctlq_keeps | apply State.hubctl_keeps | apply State.hub_keeps
      | apply State.nodes_keeps

theorem execCtlMbx_keeps {a0 s : State} (h : Keeps a0 s) {g : Segment} {r_ : State} (he : execCtlMbx g s = .next r_) : Keeps a0 r_ := by
  unfold execCtlMbx at he
  try dsimp only at he
  repeat' first
    | (with_reducible refine next_keeps he ?_; clear he)
    | split at he
    | cases he
  with_reducible repeat' first
      | assumption | apply State.answer_keeps | apply State.acceptSeg_keeps | apply State.rejectSeg_keeps | refine ite_keeps ?_ ?_ | split

theorem execRegisterWrite_keeps {a0 s : State} (h : Keeps a0 s) {p : RegPlace} {off : Nat} {v : W32} {r_ : State} (he : execRegisterWrite p off v s = .next r_) : Keeps a0 r_ := by
  unfold execRegisterWrite at he
  try dsimp only at he
  refine next_keeps he ?_
  clear he
  with_reducible repeat' first
      | assumption | apply State.writePlain_keeps | apply State.bmeClear_keeps | apply State.retrain_keeps | refine ite_keeps ?_ ?_ | split

/-! ### MbxInsn -/

theorem execMbaInGo_keeps {a0 s : State} (h : Keeps a0 s) {f : Fin 50} {tee : Bool} {r_ : State} (he : execMbaInGo f tee s = .next r_) : Keeps a0 r_ := by
  unfold execMbaInGo at he
  try dsimp only at he
  refine next_keeps he ?_
  clear he
  with_reducible repeat' first
      | assumption | apply State.mbaGo_keeps | refine ite_keeps ?_ ?_

theorem execMailboxTake_keeps {a0 s : State} (h : Keeps a0 s) {m : MboxRef} {r_ : State} (he : execMailboxTake m s = .next r_) : Keeps a0 r_ := by
  unfold execMailboxTake at he
  try dsimp only at he
  refine next_keeps he ?_
  clear he
  with_reducible repeat' first
      | assumption | apply State.mbaTake_keeps | apply State.mbbTake_keeps | refine ite_keeps ?_ ?_ | split

theorem execMailboxDone_keeps {a0 s : State} (h : Keeps a0 s) {m : MboxRef} {r_ : State} (he : execMailboxDone m s = .next r_) : Keeps a0 r_ := by
  unfold execMailboxDone at he
  try dsimp only at he
  refine next_keeps he ?_
  clear he
  with_reducible repeat' first
      | assumption | apply State.mbaDone_keeps | apply State.mbaAct_keeps | apply State.mbbFinish_keeps | refine ite_keeps ?_ ?_ | split

theorem execMbaOutGo_keeps {a0 s : State} (h : Keeps a0 s) {f : Fin 50} {msg : List W32} {r_ : State} (he : execMbaOutGo f msg s = .next r_) : Keeps a0 r_ := by
  unfold execMbaOutGo at he
  try dsimp only at he
  refine next_keeps he ?_
  clear he
  with_reducible repeat' first
      | assumption | apply State.mbaOut_keeps | refine ite_keeps ?_ ?_

theorem execMbaOutAck_keeps {a0 s : State} (h : Keeps a0 s) {f : Fin 50} {tee : Bool} {r_ : State} (he : execMbaOutAck f tee s = .next r_) : Keeps a0 r_ := by
  unfold execMbaOutAck at he
  try dsimp only at he
  refine next_keeps he ?_
  clear he
  with_reducible repeat' first
      | assumption | apply State.outAck_keeps | refine ite_keeps ?_ ?_

theorem execMbxTimeoutExpiry_keeps {a0 s : State} (h : Keeps a0 s) {m : MboxRef} {r_ : State} (he : execMbxTimeoutExpiry m s = .next r_) : Keeps a0 r_ := by
  unfold execMbxTimeoutExpiry at he
  try dsimp only at he
  refine next_keeps he ?_
  clear he
  with_reducible repeat' first
      | assumption | apply State.till_keeps | apply State.mbaExpire_keeps | apply State.outExpire_keeps | apply State.mbbEnd_keeps
      | refine ite_keeps ?_ ?_ | split

theorem execMbbLockRead_keeps {a0 s : State} (h : Keeps a0 s) {k : StackNo} {m : Fin 4} {c q : W16} {r_ : State} (he : execMbbLockRead k m c q s = .next r_) : Keeps a0 r_ := by
  unfold execMbbLockRead at he
  try dsimp only at he
  refine next_keeps he ?_
  clear he
  with_reducible repeat' first
      | assumption | apply State.emit_keeps | apply State.mbbLock_keeps | apply State.answer_keeps

theorem execMbbLockRelease_keeps {a0 s : State} (h : Keeps a0 s) {k : StackNo} {m : Fin 4} {c q : W16} {r_ : State} (he : execMbbLockRelease k m c q s = .next r_) : Keeps a0 r_ := by
  unfold execMbbLockRelease at he
  try dsimp only at he
  refine next_keeps he ?_
  clear he
  with_reducible repeat' first
      | assumption | apply State.emit_keeps | apply State.mbbWord_keeps | apply State.answer_keeps

theorem execMbbGo_keeps {a0 s : State} (h : Keeps a0 s) {k : StackNo} {m : Fin 4} {c q : W16} {r_ : State} (he : execMbbGo k m c q s = .next r_) : Keeps a0 r_ := by
  unfold execMbbGo at he
  try dsimp only at he
  refine next_keeps he ?_
  clear he
  with_reducible repeat' first
      | assumption | apply State.emit_keeps | apply State.mbbGo_keeps | apply State.answer_keeps | split

theorem execMbbLockExpiry_keeps {a0 s : State} (h : Keeps a0 s) {k : StackNo} {m : Fin 4} {r_ : State} (he : execMbbLockExpiry k m s = .next r_) : Keeps a0 r_ := by
  unfold execMbbLockExpiry at he
  try dsimp only at he
  refine next_keeps he ?_
  clear he
  with_reducible repeat' first
      | assumption | apply State.till_keeps | apply State.bb_keeps | apply State.mbbFree_keeps | refine ite_keeps ?_ ?_

theorem State.mbbAnswered_keeps {a0 s : State} (h : Keeps a0 s) {i : Nat} : Keeps a0 (State.mbbAnswered s i) := by
  unfold State.mbbAnswered
  try dsimp only
  with_reducible repeat' first
      | assumption | apply State.mbbFree_keeps | refine ite_keeps ?_ ?_

theorem execMbbResultAnswered_keeps {a0 s : State} (h : Keeps a0 s) {k : StackNo} {m : Fin 4} {r_ : State} (he : execMbbResultAnswered k m s = .next r_) : Keeps a0 r_ := by
  unfold execMbbResultAnswered at he
  try dsimp only at he
  refine next_keeps he ?_
  clear he
  with_reducible repeat' first
      | assumption | apply State.updNode_keeps | apply State.mbbAnswered_keeps | (intro _; try dsimp only)

theorem State.mbaFinish_keeps {a0 s : State} (h : Keeps a0 s) {f code : Nat} : Keeps a0 (State.mbaFinish s f code) := by
  unfold State.mbaFinish
  try dsimp only
  with_reducible repeat' first
      | assumption | apply State.mbaDone_keeps | apply State.mbaAct_keeps | refine ite_keeps ?_ ?_

theorem execMbaPing_keeps {a0 s : State} (h : Keeps a0 s) {f : Fin 50} {r_ : State} (he : execMbaPing f s = .next r_) : Keeps a0 r_ := by
  unfold execMbaPing at he
  try dsimp only at he
  refine next_keeps he ?_
  clear he
  with_reducible repeat' first
      | assumption | apply State.mbaFinish_keeps

theorem execMbaBbRead_keeps {a0 s : State} (h : Keeps a0 s) {f : Fin 50} {r_ : State} (he : execMbaBbRead f s = .next r_) : Keeps a0 r_ := by
  unfold execMbaBbRead at he
  try dsimp only at he
  refine next_keeps he ?_
  clear he
  with_reducible repeat' first
      | assumption | apply State.mbaFinish_keeps

theorem execMbaHostMark_keeps {a0 s : State} (h : Keeps a0 s) {f : Fin 50} {r_ : State} (he : execMbaHostMark f s = .next r_) : Keeps a0 r_ := by
  unfold execMbaHostMark at he
  try dsimp only at he
  refine next_keeps he ?_
  clear he
  with_reducible repeat' first
      | assumption | apply State.mbaFinish_keeps

theorem execMbbPing_keeps {a0 s : State} (h : Keeps a0 s) {k : StackNo} {m : Fin 4} {r_ : State} (he : execMbbPing k m s = .next r_) : Keeps a0 r_ := by
  unfold execMbbPing at he
  try dsimp only at he
  refine next_keeps he ?_
  clear he
  with_reducible repeat' first
      | assumption | apply State.mbbFinish_keeps | refine ite_keeps ?_ ?_

theorem execMbbHaltSelf_keeps {a0 s : State} (h : Keeps a0 s) {k : StackNo} {m : Fin 4} {r_ : State} (he : execMbbHaltSelf k m s = .next r_) : Keeps a0 r_ := by
  unfold execMbbHaltSelf at he
  try dsimp only at he
  refine next_keeps he ?_
  clear he
  with_reducible repeat' first
      | assumption | apply State.mbbFinish_keeps | refine ite_keeps ?_ ?_

/-! ### CellInsn -/

theorem State.cellPop_keeps {a0 s : State} (h : Keeps a0 s) {p : Nat} : Keeps a0 (State.cellPop s p) := by
  unfold State.cellPop
  try dsimp only
  with_reducible repeat' first
      | assumption | exact List.prefix_rfl | apply State.updHub_keeps | (intro _; try dsimp only) | dsimp only

theorem State.cellResult_keeps {a0 s : State} (h : Keeps a0 s) {p : Nat} {c : BitVec 512} {tag : W16} {st : Nat} {status : BitVec 8} : Keeps a0 (State.cellResult s p c tag st status) := by
  unfold State.cellResult
  try dsimp only
  with_reducible repeat' first
      | assumption | apply State.hubPut_keeps

theorem execCellWopen_keeps {a0 s : State} (h : Keeps a0 s) {p : PartNo} {r_ : State} (he : execCellWopen p s = .next r_) : Keeps a0 r_ := by
  unfold execCellWopen at he
  try dsimp only at he
  refine next_keeps he ?_
  clear he
  with_reducible repeat' first
      | assumption | apply State.till_keeps | apply State.updUnit_keeps | apply State.cellPop_keeps | apply State.cellResult_keeps
      | refine foldl_keeps ?_ _ _ ?_ | refine foldl_keeps_fst ?_ _ _ ?_ | refine ite_keeps ?_ ?_ | (intro _; try dsimp only) | split

theorem State.cellClose_keeps {a0 s : State} (h : Keeps a0 s) {p : Nat} {c : BitVec 512} {l : List Tgt} {act : Nat → WinUnit → WinUnit} : Keeps a0 (State.cellClose s p c l act) := by
  unfold State.cellClose
  try dsimp only
  with_reducible repeat' first
      | assumption | exact List.prefix_rfl | apply State.updHub_keeps | apply State.updUnit_keeps | apply State.settleUnit_keeps
      | apply State.hostPoll_keeps | refine foldl_keeps ?_ _ _ ?_ | refine foldl_keeps_fst ?_ _ _ ?_ | refine ite_keeps ?_ ?_
      | (intro _; try dsimp only) | dsimp only

theorem State.cellEndsNow_keeps {a0 s : State} (h : Keeps a0 s) {p : Nat} {c : BitVec 512} {l : List Tgt} {status : BitVec 8} : Keeps a0 (State.cellEndsNow s p c l status) := by
  unfold State.cellEndsNow
  try dsimp only
  with_reducible repeat' first
      | assumption | apply State.updUnit_keeps | apply State.settleUnit_keeps | apply State.hostPoll_keeps | apply State.cellResult_keeps
      | refine foldl_keeps ?_ _ _ ?_ | (intro _; try dsimp only)

theorem execCellCloseNow_keeps {a0 s : State} (h : Keeps a0 s) {p : PartNo} {r_ : State} (he : execCellCloseNow p s = .next r_) : Keeps a0 r_ := by
  unfold execCellCloseNow at he
  try dsimp only at he
  refine next_keeps he ?_
  clear he
  with_reducible repeat' first
      | assumption | apply State.cellPop_keeps | apply State.cellResult_keeps | apply State.cellClose_keeps | apply State.cellEndsNow_keeps
      | refine ite_keeps ?_ ?_ | (intro _; try dsimp only) | split

theorem execCellCloseQuiesce_keeps {a0 s : State} (h : Keeps a0 s) {p : PartNo} {r_ : State} (he : execCellCloseQuiesce p s = .next r_) : Keeps a0 r_ := by
  unfold execCellCloseQuiesce at he
  try dsimp only at he
  refine next_keeps he ?_
  clear he
  with_reducible repeat' first
      | assumption | apply State.cellPop_keeps | apply State.cellResult_keeps | apply State.cellClose_keeps | apply State.cellEndsNow_keeps
      | refine ite_keeps ?_ ?_ | (intro _; try dsimp only) | split

theorem execCellCloseEnded_keeps {a0 s : State} (h : Keeps a0 s) {p : PartNo} {r_ : State} (he : execCellCloseEnded p s = .next r_) : Keeps a0 r_ := by
  unfold execCellCloseEnded at he
  try dsimp only at he
  refine next_keeps he ?_
  clear he
  with_reducible repeat' first
      | assumption | exact List.prefix_rfl | apply State.updHub_keeps | apply State.updUnit_keeps | apply State.settleUnit_keeps
      | apply State.hostPoll_keeps | apply State.cellResult_keeps | refine foldl_keeps ?_ _ _ ?_ | (intro _; try dsimp only) | split | dsimp only

theorem execCellWquery_keeps {a0 s : State} (h : Keeps a0 s) {p : PartNo} {r_ : State} (he : execCellWquery p s = .next r_) : Keeps a0 r_ := by
  unfold execCellWquery at he
  try dsimp only at he
  refine next_keeps he ?_
  clear he
  with_reducible repeat' first
      | assumption | apply State.cellPop_keeps | apply State.cellResult_keeps | refine ite_keeps ?_ ?_ | split

/-! ### IssInsn -/

theorem State.sxeAnswer_keeps {a0 s : State} (h : Keeps a0 s) {k len : Nat} {a : Answer} : Keeps a0 (State.sxeAnswer s k len a) := by
  unfold State.sxeAnswer
  try dsimp only
  with_reducible repeat' first
      | assumption | apply State.updStack_keeps | refine ite_keeps ?_ ?_ | (intro _; try dsimp only)

theorem State.issDone_keeps {a0 s : State} (h : Keeps a0 s) {n : Nat} {g : IssSeg} {a : Answer} : Keeps a0 (State.issDone s n g a) := by
  unfold State.issDone
  try dsimp only
  with_reducible repeat' first
      | assumption | apply State.updStack_keeps | apply State.wr_keeps | apply State.sat_keeps | apply State.moveAnswer_keeps
      | apply State.aptAnswer_keeps | apply State.wrAnswer_keeps | apply State.slotAnswer_keeps | apply State.portPoll_keeps
      | apply State.clxAnswer_keeps | apply State.keyAnswer_keeps | apply State.mbbAnswered_keeps | apply State.sxeAnswer_keeps
      | refine ite_keeps ?_ ?_ | (intro _; try dsimp only) | split

theorem State.sxeWake_keeps {a0 s : State} (h : Keeps a0 s) {n : Nat} : Keeps a0 (State.sxeWake s n) := by
  unfold State.sxeWake
  try dsimp only
  with_reducible repeat' first
      | assumption | apply State.sxeGo_keeps | refine ite_keeps ?_ ?_

theorem State.issAnswer_keeps {a0 s : State} (h : Keeps a0 s) {n nd : Nat} {q : W16} {a : Answer} : Keeps a0 (State.issAnswer s n nd q a) := by
  unfold State.issAnswer
  try dsimp only
  with_reducible repeat' first
      | assumption | apply State.updNode_keeps | apply State.issPump_keeps | apply State.issDone_keeps | apply State.sxeWake_keeps
      | (intro _; try dsimp only) | split

theorem State.issRetransmit_keeps {a0 s : State} (h : Keeps a0 s) {n nd : Nat} {q : W16} : Keeps a0 (State.issRetransmit s n nd q) := by
  unfold State.issRetransmit
  try dsimp only
  with_reducible repeat' first
      | assumption | apply State.updNode_keeps | apply State.emit_keeps | apply State.till_keeps | apply State.issAnswer_keeps
      | refine ite_keeps ?_ ?_ | (intro _; try dsimp only) | split

theorem execTdmaResponse_keeps {a0 s : State} (h : Keeps a0 s) {t : CtlTgt} {n : NodeNo} {q : W16} {a : Answer} {r_ : State} (he : execTdmaResponse t n q a s = .next r_) : Keeps a0 r_ := by
  unfold execTdmaResponse at he
  try dsimp only at he
  refine next_keeps he ?_
  clear he
  with_reducible repeat' first
      | assumption | apply State.tdmaAnswer_keeps | apply State.hostPoll_keeps | apply State.issAnswer_keeps | split

theorem execTdmaRetransmit_keeps {a0 s : State} (h : Keeps a0 s) {t : CtlTgt} {n : NodeNo} {q : W16} {r_ : State} (he : execTdmaRetransmit t n q s = .next r_) : Keeps a0 r_ := by
  unfold execTdmaRetransmit at he
  try dsimp only at he
  refine next_keeps he ?_
  clear he
  with_reducible repeat' first
      | assumption | apply State.tdmaRetransmit_keeps | apply State.issRetransmit_keeps | split

theorem execPdOnpanelRetransmit_keeps {a0 s : State} (h : Keeps a0 s) {d : Fin 4} {n : NodeNo} {q : W16} {r_ : State} (he : execPdOnpanelRetransmit d n q s = .next r_) : Keeps a0 r_ := by
  unfold execPdOnpanelRetransmit at he
  try dsimp only at he
  refine next_keeps he ?_
  clear he
  with_reducible repeat' first
      | assumption | apply State.issRetransmit_keeps

/-! ### FleetInsn -/

theorem State.clxRun_keeps {a0 s : State} (h : Keeps a0 s) {q p : Nat} {ok : BitVec 512 → Bool} {f : BitVec 512 → State → State} (hf : ∀ x0 x1, Keeps a0 x1 → Keeps a0 (f x0 x1)) : Keeps a0 (State.clxRun s q p ok f) := by
  unfold State.clxRun
  try dsimp only
  with_reducible repeat' first
      | assumption | apply hf | apply State.clxRecord_keeps | apply State.updBlk_keeps | refine ite_keeps ?_ ?_ | (intro _; try dsimp only) | split

theorem State.groupMake_keeps {a0 s : State} (h : Keeps a0 s) {q p g : Nat} {d : GroupDesc} : Keeps a0 (State.groupMake s q p g d) := by
  unfold State.groupMake
  try dsimp only
  with_reducible repeat' first
      | assumption | apply State.wr_keeps | apply State.updGroup_keeps | apply State.heardFrom_keeps | refine foldl_keeps ?_ _ _ ?_
      | (intro _; try dsimp only)

theorem execGroupCreate_keeps {a0 s : State} (h : Keeps a0 s) {q : Fin 4} {p : PartNo} {d : GroupDesc} {r_ : State} (he : execGroupCreate q p d s = .next r_) : Keeps a0 r_ := by
  unfold execGroupCreate at he
  try dsimp only at he
  refine next_keeps he ?_
  clear he
  with_reducible repeat' first
      | assumption | apply State.clxRecord_keeps | apply State.clxRun_keeps | apply State.groupMake_keeps | refine ite_keeps ?_ ?_
      | (intro _; try dsimp only)

theorem State.shrinkBegin_keeps {a0 s : State} (h : Keeps a0 s) {q p : Nat} {c : BitVec 512} : Keeps a0 (State.shrinkBegin s q p c) := by
  unfold State.shrinkBegin
  try dsimp only
  with_reducible repeat' first
      | assumption | apply State.wr_keeps | apply State.locGet_keeps | apply State.clxRecord_keeps | apply State.updClx_keeps
      | apply State.clxStart_keeps | apply State.holdGroup_keeps | refine ite_keeps ?_ ?_ | (intro _; try dsimp only)

theorem execGroupShrink_keeps {a0 s : State} (h : Keeps a0 s) {q : Fin 4} {p : PartNo} {r_ : State} (he : execGroupShrink q p s = .next r_) : Keeps a0 r_ := by
  unfold execGroupShrink at he
  try dsimp only at he
  refine next_keeps he ?_
  clear he
  with_reducible repeat' first
      | assumption | apply State.clxRun_keeps | apply State.shrinkBegin_keeps | (intro _; try dsimp only)

theorem execShrinkDigestsComplete_keeps {a0 s : State} (h : Keeps a0 s) {q : Fin 4} {g : Fin 64} {r_ : State} (he : execShrinkDigestsComplete q g s = .next r_) : Keeps a0 r_ := by
  unfold execShrinkDigestsComplete at he
  try dsimp only at he
  refine next_keeps he ?_
  clear he
  with_reducible repeat' first
      | assumption | apply State.shrink_keeps | apply State.shrinkFail_keeps | apply State.shrinkAdopt_keeps | refine ite_keeps ?_ ?_ | split

theorem execShrinkTimeout_keeps {a0 s : State} (h : Keeps a0 s) {q : Fin 4} {g : Fin 64} {r_ : State} (he : execShrinkTimeout q g s = .next r_) : Keeps a0 r_ := by
  unfold execShrinkTimeout at he
  try dsimp only at he
  refine next_keeps he ?_
  clear he
  with_reducible repeat' first
      | assumption | apply State.till_keeps | apply State.shrink_keeps | apply State.shrinkFail_keeps | refine ite_keeps ?_ ?_ | split

theorem execGroupDissolve_keeps {a0 s : State} (h : Keeps a0 s) {q : Fin 4} {p : PartNo} {r_ : State} (he : execGroupDissolve q p s = .next r_) : Keeps a0 r_ := by
  unfold execGroupDissolve at he
  try dsimp only at he
  refine next_keeps he ?_
  clear he
  with_reducible repeat' first
      | assumption | apply State.clxRecord_keeps | apply State.groupFree_keeps | apply State.clxRun_keeps | refine ite_keeps ?_ ?_
      | (intro _; try dsimp only)

theorem State.collAdopt_keeps {a0 s : State} (h : Keeps a0 s) {q : Nat} {x : Clx} {c : BitVec 512} : Keeps a0 (State.collAdopt s q x c) := by
  unfold State.collAdopt
  try dsimp only
  with_reducible repeat' first
      | assumption | apply State.inc_keeps | apply State.land_keeps | apply State.updClx_keeps | apply State.collLand_keeps
      | apply State.collPump_keeps | apply State.collBegin_keeps | refine foldl_keeps ?_ _ _ ?_ | refine foldl_keeps_fst ?_ _ _ ?_
      | refine ite_keeps ?_ ?_ | (intro _; try dsimp only) | split

theorem State.collRun_keeps {a0 s : State} (h : Keeps a0 s) {q p : Nat} {c : BitVec 512} : Keeps a0 (State.collRun s q p c) := by
  unfold State.collRun
  try dsimp only
  with_reducible repeat' first
      | assumption | apply State.inc_keeps | apply State.clxRecord_keeps | apply State.clxStart_keeps | apply State.collBegin_keeps
      | apply State.collAdopt_keeps | refine ite_keeps ?_ ?_ | (intro _; try dsimp only) | split

theorem State.collRow_keeps {a0 s : State} (h : Keeps a0 s) {q p k : Nat} : Keeps a0 (State.collRow s q p k) := by
  unfold State.collRow
  try dsimp only
  with_reducible repeat' first
      | assumption | apply State.clxRun_keeps | apply State.collRun_keeps | (intro _; try dsimp only)

theorem execAllReduce_keeps {a0 s : State} (h : Keeps a0 s) {q : Fin 4} {p : PartNo} {r_ : State} (he : execAllReduce q p s = .next r_) : Keeps a0 r_ := by
  unfold execAllReduce at he
  try dsimp only at he
  refine next_keeps he ?_
  clear he
  with_reducible repeat' first
      | assumption | apply State.collRow_keeps

theorem execReduceScatter_keeps {a0 s : State} (h : Keeps a0 s) {q : Fin 4} {p : PartNo} {r_ : State} (he : execReduceScatter q p s = .next r_) : Keeps a0 r_ := by
  unfold execReduceScatter at he
  try dsimp only at he
  refine next_keeps he ?_
  clear he
  with_reducible repeat' first
      | assumption | apply State.collRow_keeps

theorem execAllGather_keeps {a0 s : State} (h : Keeps a0 s) {q : Fin 4} {p : PartNo} {r_ : State} (he : execAllGather q p s = .next r_) : Keeps a0 r_ := by
  unfold execAllGather at he
  try dsimp only at he
  refine next_keeps he ?_
  clear he
  with_reducible repeat' first
      | assumption | apply State.collRow_keeps

theorem execBroadcast_keeps {a0 s : State} (h : Keeps a0 s) {q : Fin 4} {p : PartNo} {r_ : State} (he : execBroadcast q p s = .next r_) : Keeps a0 r_ := by
  unfold execBroadcast at he
  try dsimp only at he
  refine next_keeps he ?_
  clear he
  with_reducible repeat' first
      | assumption | apply State.collRow_keeps

theorem execCollBarrier_keeps {a0 s : State} (h : Keeps a0 s) {q : Fin 4} {p : PartNo} {r_ : State} (he : execCollBarrier q p s = .next r_) : Keeps a0 r_ := by
  unfold execCollBarrier at he
  try dsimp only at he
  refine next_keeps he ?_
  clear he
  with_reducible repeat' first
      | assumption | apply State.collRow_keeps

theorem execCollComplete_keeps {a0 s : State} (h : Keeps a0 s) {q : Fin 4} {i : Nat} {r_ : State} (he : execCollComplete q i s = .next r_) : Keeps a0 r_ := by
  unfold execCollComplete at he
  try dsimp only at he
  refine next_keeps he ?_
  clear he
  with_reducible repeat' first
      | assumption | apply State.inc_keeps | apply State.clxRecord_keeps | apply State.clxDrop_keeps | refine ite_keeps ?_ ?_ | split

theorem execStragglerTimeout_keeps {a0 s : State} (h : Keeps a0 s) {q : Fin 4} {i : Nat} {r_ : State} (he : execStragglerTimeout q i s = .next r_) : Keeps a0 r_ := by
  unfold execStragglerTimeout at he
  try dsimp only at he
  refine next_keeps he ?_
  clear he
  with_reducible repeat' first
      | assumption | apply State.till_keeps | apply State.event_keeps | apply State.updClx_keeps | refine ite_keeps ?_ ?_ | (intro _; try dsimp only)
      | split

theorem execKeepaliveSend_keeps {a0 s : State} (h : Keeps a0 s) {q : Fin 4} {g : Fin 64} {r : Fin 4096} {r_ : State} (he : execKeepaliveSend q g r s = .next r_) : Keeps a0 r_ := by
  unfold execKeepaliveSend at he
  try dsimp only at he
  refine next_keeps he ?_
  clear he
  with_reducible repeat' first
      | assumption | apply State.till_keeps | apply State.wr_keeps | apply State.sendRank_keeps | apply State.keepalive_keeps | refine ite_keeps ?_ ?_

theorem execPartnerLivenessTimeout_keeps {a0 s : State} (h : Keeps a0 s) {q : Fin 4} {g : Fin 64} {r : Fin 4096} {r_ : State} (he : execPartnerLivenessTimeout q g r s = .next r_) : Keeps a0 r_ := by
  unfold execPartnerLivenessTimeout at he
  try dsimp only at he
  refine next_keeps he ?_
  clear he
  with_reducible repeat' first
      | assumption | apply State.till_keeps | apply State.groupAbort_keeps | refine ite_keeps ?_ ?_ | split

theorem execPartnerPauseTimeout_keeps {a0 s : State} (h : Keeps a0 s) {q : Fin 4} {g : Fin 64} {r : Fin 4096} {r_ : State} (he : execPartnerPauseTimeout q g r s = .next r_) : Keeps a0 r_ := by
  unfold execPartnerPauseTimeout at he
  try dsimp only at he
  refine next_keeps he ?_
  clear he
  with_reducible repeat' first
      | assumption | apply State.till_keeps | apply State.groupAbort_keeps | refine ite_keeps ?_ ?_

theorem execAbortReceived_keeps {a0 s : State} (h : Keeps a0 s) {q : Fin 4} {g : Fin 64} {epoch : W32} {lost : Fin 4096} {r_ : State} (he : execAbortReceived q g epoch lost s = .next r_) : Keeps a0 r_ := by
  unfold execAbortReceived at he
  try dsimp only at he
  refine next_keeps he ?_
  clear he
  with_reducible repeat' first
      | assumption | apply State.groupAbort_keeps | refine ite_keeps ?_ ?_

theorem execCkptStream_keeps {a0 s : State} (h : Keeps a0 s) {q : Fin 4} {p : PartNo} {r_ : State} (he : execCkptStream q p s = .next r_) : Keeps a0 r_ := by
  unfold execCkptStream at he
  try dsimp only at he
  refine next_keeps he ?_
  clear he
  with_reducible repeat' first
      | assumption | apply State.clxRecord_keeps | apply State.clxStart_keeps | apply State.streamNext_keeps | apply State.portPoll_keeps
      | apply State.clxRun_keeps | refine ite_keeps ?_ ?_ | (intro _; try dsimp only)

theorem execRestore_keeps {a0 s : State} (h : Keeps a0 s) {q : Fin 4} {p : PartNo} {r_ : State} (he : execRestore q p s = .next r_) : Keeps a0 r_ := by
  unfold execRestore at he
  try dsimp only at he
  refine next_keeps he ?_
  clear he
  with_reducible repeat' first
      | assumption | apply State.clxRecord_keeps | apply State.clxStart_keeps | apply State.restoreNext_keeps | apply State.portPoll_keeps
      | apply State.clxRun_keeps | refine ite_keeps ?_ ?_ | (intro _; try dsimp only)

theorem execDigest_keeps {a0 s : State} (h : Keeps a0 s) {q : Fin 4} {p : PartNo} {r_ : State} (he : execDigest q p s = .next r_) : Keeps a0 r_ := by
  unfold execDigest at he
  try dsimp only at he
  refine next_keeps he ?_
  clear he
  with_reducible repeat' first
      | assumption | apply State.locGet_keeps | apply State.clxRecord_keeps | apply State.updClx_keeps | apply State.clxStart_keeps
      | apply State.clxRun_keeps | refine ite_keeps ?_ ?_ | (intro _; try dsimp only)

theorem execEpOpen_keeps {a0 s : State} (h : Keeps a0 s) {q : Fin 4} {p : PartNo} {r_ : State} (he : execEpOpen q p s = .next r_) : Keeps a0 r_ := by
  unfold execEpOpen at he
  try dsimp only at he
  refine next_keeps he ?_
  clear he
  with_reducible repeat' first
      | assumption | apply State.clxRecord_keeps | apply State.updEp_keeps | apply State.clxRun_keeps | refine ite_keeps ?_ ?_
      | (intro _; try dsimp only)

theorem execEpRequestArrival_keeps {a0 s : State} (h : Keeps a0 s) {q : Fin 4} {c : Fin 4096} {r_ : State} (he : execEpRequestArrival q c s = .next r_) : Keeps a0 r_ := by
  unfold execEpRequestArrival at he
  try dsimp only at he
  refine next_keeps he ?_
  clear he
  with_reducible repeat' first
      | assumption | apply State.updPort_keeps | apply State.epRequest_keeps | refine ite_keeps ?_ ?_ | (intro _; try dsimp only) | split

theorem State.respond_keeps {a0 s : State} (h : Keeps a0 s) {q p : Nat} {c : BitVec 512} : Keeps a0 (State.respond s q p c) := by
  unfold State.respond
  try dsimp only
  with_reducible repeat' first
      | assumption | apply State.wrTake_keeps | apply State.clxRecord_keeps | apply State.clxStart_keeps | apply State.epFree_keeps
      | apply State.respondHeader_keeps | refine ite_keeps ?_ ?_ | (intro _; try dsimp only) | split

theorem execRespond_keeps {a0 s : State} (h : Keeps a0 s) {q : Fin 4} {p : PartNo} {r_ : State} (he : execRespond q p s = .next r_) : Keeps a0 r_ := by
  unfold execRespond at he
  try dsimp only at he
  refine next_keeps he ?_
  clear he
  with_reducible repeat' first
      | assumption | apply State.portPoll_keeps | apply State.clxRun_keeps | apply State.respond_keeps | (intro _; try dsimp only)

theorem execEpFree_keeps {a0 s : State} (h : Keeps a0 s) {q : Fin 4} {p : PartNo} {r_ : State} (he : execEpFree q p s = .next r_) : Keeps a0 r_ := by
  unfold execEpFree at he
  try dsimp only at he
  refine next_keeps he ?_
  clear he
  with_reducible repeat' first
      | assumption | apply State.clxRecord_keeps | apply State.epFree_keeps | apply State.clxRun_keeps | (intro _; try dsimp only) | split

theorem execEpClose_keeps {a0 s : State} (h : Keeps a0 s) {q : Fin 4} {p : PartNo} {r_ : State} (he : execEpClose q p s = .next r_) : Keeps a0 r_ := by
  unfold execEpClose at he
  try dsimp only at he
  refine next_keeps he ?_
  clear he
  with_reducible repeat' first
      | assumption | apply State.clxRecord_keeps | apply State.updEp_keeps | apply State.sendHeader_keeps | apply State.clxRun_keeps
      | refine foldl_keeps ?_ _ _ ?_ | refine ite_keeps ?_ ?_ | (intro _; try dsimp only) | split

theorem State.ecRewrite_keeps {a0 s : State} (h : Keeps a0 s) {p : Nat} : Keeps a0 (State.ecRewrite s p) := by
  unfold State.ecRewrite
  try dsimp only
  with_reducible repeat' first
      | assumption | apply State.hwr_keeps | refine ite_keeps ?_ ?_ | (intro _; try dsimp only) | split

theorem execEcRecordRewrite_keeps {a0 s : State} (h : Keeps a0 s) {p : PartNo} {r_ : State} (he : execEcRecordRewrite p s = .next r_) : Keeps a0 r_ := by
  unfold execEcRecordRewrite at he
  try dsimp only at he
  refine next_keeps he ?_
  clear he
  with_reducible repeat' first
      | assumption | apply State.ecRewrite_keeps | refine ite_keeps ?_ ?_

end Sys2Proof.Machine
end

