-- ==== Sys2Proof/Laws/KeepsHub.lean ====
section
/-! SUPPORT. What power, boot, time, thermal, security and management keep. -/

set_option linter.all false
set_option maxRecDepth 8000

namespace Sys2Proof.Machine

/-! ### FormOps -/

theorem State.drawKey_keeps {a0 s : State} (h : Keeps a0 s)  : Keeps a0 (State.drawKey s).1 := by
  unfold State.drawKey
  try dsimp only
  with_reducible repeat' first
      | assumption | exact List.prefix_rfl | apply State.updHub_keeps | refine ite_keeps_fst ?_ ?_ | (intro _; try dsimp only) | dsimp only

theorem State.mapSecs_keeps {a0 s : State} (h : Keeps a0 s) {ks : List Nat} {p : Nat} : Keeps a0 (State.mapSecs s ks p) := by
  unfold State.mapSecs
  try dsimp only
  with_reducible repeat' first
      | assumption | exact List.prefix_rfl | apply State.editAnat_keeps | refine foldl_keeps ?_ _ _ ?_ | (intro _; try dsimp only)

theorem State.exposeFn_keeps {a0 s : State} (h : Keeps a0 s) {e : LayoutEntry} : Keeps a0 (State.exposeFn s e) := by
  unfold State.exposeFn
  try dsimp only
  with_reducible repeat' first
      | assumption | apply State.wr_keeps | refine ite_keeps ?_ ?_

theorem State.formPart_keeps {a0 s : State} (h : Keeps a0 s) {e : LayoutEntry} : Keeps a0 (State.formPart s e) := by
  unfold State.formPart
  try dsimp only
  with_reducible repeat' first
      | assumption | exact List.prefix_rfl | apply State.updPort_keeps | apply State.updPart_keeps | apply State.hwr_keeps | apply State.updHub_keeps
      | apply State.bb_keeps | apply State.measure_keeps | apply State.event_keeps | apply State.mapTiles_keeps | apply State.mapNodes_keeps
      | apply State.mapStacks_keeps | apply State.openRegs_keeps | apply State.resync_keeps | apply State.ecRewrite_keeps | apply State.drawKey_keeps
      | apply State.mapSecs_keeps | apply State.exposeFn_keeps | refine foldl_keeps ?_ _ _ ?_ | refine foldl_keeps_fst ?_ _ _ ?_
      | refine ite_keeps ?_ ?_ | refine ite_keeps_fst ?_ ?_ | (intro _; try dsimp only) | split | dsimp only
      | (simp only [Bbx.stage_hub, Bbx.stage_east]; exact List.prefix_rfl) | exact Mram.record_perm | apply State.ctlq_keeps
      | apply State.hubctl_keeps | apply State.hub_keeps | apply State.nodes_keeps

theorem State.dropOwner_keeps {a0 s : State} (h : Keeps a0 s) {p : Nat} : Keeps a0 (State.dropOwner s p) := by
  unfold State.dropOwner
  try dsimp only
  with_reducible repeat' first
      | assumption | exact List.prefix_rfl | apply State.hwr_keeps | apply State.updHub_keeps | apply State.measurePart_keeps
      | (intro _; try dsimp only) | dsimp only

theorem State.dissolvePart_keeps {a0 s : State} (h : Keeps a0 s) {p : Nat} : Keeps a0 (State.dissolvePart s p) := by
  unfold State.dissolvePart
  try dsimp only
  with_reducible repeat' first
      | assumption | exact List.prefix_rfl | apply State.updPort_keeps | apply State.updPart_keeps | apply State.wr_keeps | apply State.hwr_keeps
      | apply State.updHub_keeps | apply State.measure_keeps | apply State.rerouteLate_keeps | apply State.abortCmds_keeps
      | apply State.mapTiles_keeps | apply State.mapNodes_keeps | apply State.mapStacks_keeps | apply State.partCloseAll_keeps
      | apply State.unbindKeys_keeps | apply State.connsError_keeps | apply State.unmapPart_keeps | apply State.dropGroups_keeps
      | apply State.untwin_keeps | apply State.mapSecs_keeps | apply State.dropOwner_keeps | refine foldl_keeps ?_ _ _ ?_
      | refine foldl_keeps_fst ?_ _ _ ?_ | refine ite_keeps ?_ ?_ | (intro _; try dsimp only) | dsimp only

/-! ### BbxOps -/

theorem State.setMramOk_keeps {a0 s : State} (h : Keeps a0 s)  : Keeps a0 (State.setMramOk s) := by
  unfold State.setMramOk
  try dsimp only
  with_reducible repeat' first
      | assumption | apply State.hwr_keeps

theorem State.noteRecord_keeps {a0 s : State} (h : Keeps a0 s) {r : BbRec} {perm tooMany : Bool} : Keeps a0 (State.noteRecord s r perm tooMany) := by
  unfold State.noteRecord
  try dsimp only
  with_reducible repeat' first
      | assumption | apply State.hwr_keeps | apply State.inc_keeps | refine ite_keeps ?_ ?_ | split

theorem State.bbxWrite_keeps {a0 s : State} (h : Keeps a0 s)  : Keeps a0 (State.bbxWrite s) := by
  unfold State.bbxWrite
  try dsimp only
  with_reducible repeat' first
      | assumption | exact List.prefix_rfl | apply State.updHub_keeps | apply State.raiseReason_keeps | apply State.noteRecord_keeps
      | refine ite_keeps ?_ ?_ | (intro _; try dsimp only) | split | dsimp only | exact Mram.record_perm

theorem State.bbxFlush_keeps {a0 s : State} (h : Keeps a0 s)  : ∀ x, Keeps a0 (State.bbxFlush s x)
  | 0 => by
    unfold State.bbxFlush
    try dsimp only
    with_reducible repeat' first
      | assumption | apply State.bbxWrite_keeps | apply State.bbxFlush_keeps | refine ite_keeps ?_ ?_
  | n + 1 => by
    unfold State.bbxFlush
    try dsimp only
    with_reducible repeat' first
      | assumption | apply State.bbxWrite_keeps | apply State.bbxFlush_keeps | refine ite_keeps ?_ ?_

theorem State.powerLoss_keeps {a0 s : State} (h : Keeps a0 s)  : Keeps a0 (State.powerLoss s) := by
  unfold State.powerLoss
  try dsimp only
  with_reducible repeat' first
      | assumption | exact List.prefix_rfl | apply State.updHub_keeps | apply State.bb_keeps | apply State.bbxFlush_keeps | (intro _; try dsimp only)
      | dsimp only

theorem execBbRecordAppend_keeps {a0 s : State} (h : Keeps a0 s)  {r_ : State} (he : execBbRecordAppend s = .next r_) : Keeps a0 r_ := by
  unfold execBbRecordAppend at he
  try dsimp only at he
  refine next_keeps he ?_
  clear he
  with_reducible repeat' first
      | assumption | apply State.bbxWrite_keeps

/-! ### PowerOps -/

theorem State.ecAll_keeps {a0 s : State} (h : Keeps a0 s)  : Keeps a0 (State.ecAll s) := by
  unfold State.ecAll
  try dsimp only
  with_reducible repeat' first
      | assumption | apply State.ecRewrite_keeps | refine foldl_keeps ?_ _ _ ?_ | refine ite_keeps ?_ ?_ | (intro _; try dsimp only)

theorem State.noteDerate_keeps {a0 s : State} (h : Keeps a0 s) {tell : Bool} : Keeps a0 (State.noteDerate s tell) := by
  unfold State.noteDerate
  try dsimp only
  with_reducible repeat' first
      | assumption | apply State.hwr_keeps | apply State.event_keeps | apply State.ecAll_keeps | refine ite_keeps ?_ ?_

theorem State.setLimit_keeps {a0 s : State} (h : Keeps a0 s) {v : Nat} {tell : Bool} : Keeps a0 (State.setLimit s v tell) := by
  unfold State.setLimit
  try dsimp only
  with_reducible repeat' first
      | assumption | apply State.hwr_keeps | apply State.noteDerate_keeps | refine ite_keeps ?_ ?_

theorem State.setBudget_keeps {a0 s : State} (h : Keeps a0 s) {n : Nat} : Keeps a0 (State.setBudget s n) := by
  unfold State.setBudget
  try dsimp only
  with_reducible repeat' first
      | assumption | apply State.wr_keeps | refine ite_keeps ?_ ?_

theorem State.endLoans_keeps {a0 s : State} (h : Keeps a0 s) {k : Nat} {gone : Loan → Bool} : Keeps a0 (State.endLoans s k gone) := by
  unfold State.endLoans
  try dsimp only
  with_reducible repeat' first
      | assumption | exact List.prefix_rfl | apply State.updHub_keeps | apply State.setBudget_keeps | refine foldl_keeps ?_ _ _ ?_
      | (intro _; try dsimp only) | dsimp only

theorem State.cutSector_keeps {a0 s : State} (h : Keeps a0 s) {num den k : Nat} : Keeps a0 (State.cutSector s num den k) := by
  unfold State.cutSector
  try dsimp only
  with_reducible repeat' first
      | assumption | apply State.emit_keeps | apply State.wr_keeps | apply State.updDpm_keeps | apply State.endLoans_keeps
      | refine foldl_keeps ?_ _ _ ?_ | (intro _; try dsimp only)

theorem State.regionOff_keeps {a0 s : State} (h : Keeps a0 s) {key : Nat} : Keeps a0 (State.regionOff s key) := by
  unfold State.regionOff
  try dsimp only
  with_reducible repeat' first
      | assumption | exact List.prefix_rfl | apply State.updHub_keeps | apply State.setRegion_keeps | apply State.dropInrush_keeps
      | apply State.reroute_keeps | apply State.cutSite_keeps | apply State.editAnat_keeps | apply State.checkSpares_keeps | apply State.dieOff_keeps
      | apply State.strand_keeps | apply State.declareLost_keeps | apply State.cocoon_keeps | refine ite_keeps ?_ ?_ | (intro _; try dsimp only)
      | split | dsimp only

theorem State.sectorOff_keeps {a0 s : State} (h : Keeps a0 s) {k : Nat} : Keeps a0 (State.sectorOff s k) := by
  unfold State.sectorOff
  try dsimp only
  with_reducible repeat' first
      | assumption | exact List.prefix_rfl | apply State.updStack_keeps | apply State.hwr_keeps | apply State.updHub_keeps
      | apply State.setRegion_keeps | apply State.event_keeps | apply State.reroute_keeps | apply State.cutSite_keeps | apply State.editAnat_keeps
      | apply State.raiseReason_keeps | apply State.haltNow_keeps | apply State.markDown_keeps | apply State.rollback_keeps
      | apply State.checkSpares_keeps | apply State.dieOff_keeps | apply State.strand_keeps | refine foldl_keeps ?_ _ _ ?_
      | refine foldl_keeps_fst ?_ _ _ ?_ | refine ite_keeps ?_ ?_ | (intro _; try dsimp only) | split | dsimp only

/-! ### ResetOps -/

theorem State.keepRegs_keeps {a s : State} (h : Keeps a s) {keep : Nat → Nat → W32} : Keeps a (s.keepRegs keep) := by
  refine State.regs_keeps h fun c => Table.filterMap_wf ?_ c
  intro kv r hr
  dsimp only at hr
  split at hr
  · cases hr
  · next hv =>
    cases hr
    exact ⟨rfl, fun _ => hv⟩

/-- Power off leaves the registers that are kept and a new hub. -/
theorem off_keeps {a s : State} (h : Keeps a s) {g : Hub} (h1 : s.hub.bbx.hub.perm <+: g.bbx.hub.perm) (h2 : s.hub.bbx.east.perm <+: g.bbx.east.perm) :
    Keeps a { State.reset with pending := s.pending, now := s.now, freeCtr := s.freeCtr, out := s.out, regs := s.regs, hub := g } :=
  h.trans ⟨rfl, Nat.le_refl _, Nat.le_refl _, List.prefix_rfl, fun c => ⟨c.1, rfl, rfl, rfl, rfl, rfl, rfl⟩, h1, h2⟩

/-- A warm reset's new tables. -/
theorem tables_keeps {a s : State} (h : Keeps a s) {g : Hub} {ft : Nat → Tile → Tile} {fs : Nat → Stack → Stack} {fn : Nat → Node → Node} {ff : Nat → Fn → Fn}
    {fp : Nat → Port → Port} (h1 : s.hub.bbx.hub.perm <+: g.bbx.hub.perm) (h2 : s.hub.bbx.east.perm <+: g.bbx.east.perm) :
    Keeps a { s with tiles := Table.mapListed {} s.tiles ft, snodes := Table.mapListed {} s.snodes fs, nodes := Table.mapListed {} s.nodes fn,
                     ctlq := [], hub := g, parts := [], fns := Table.mapListed {} s.fns ff, ports := Table.mapListed {} s.ports fp } :=
  h.trans ⟨rfl, Nat.le_refl _, Nat.le_refl _, List.prefix_rfl, fun c => ⟨c.1, Table.mapListed_wf _ _, Table.mapListed_wf _ _, Table.mapListed_wf _ _,
    Table.mapListed_wf _ _, Table.mapListed_wf _ _, rfl⟩, h1, h2⟩

theorem State.cold_keeps {a s : State} (h : Keeps a s) {stby : Bool} : Keeps a (s.cold stby) := by
  unfold State.cold
  cases stby
  · refine State.keepRegs_keeps (off_keeps h ?_ ?_) <;> exact List.prefix_rfl
  · refine State.setMramOk_keeps (State.keepRegs_keeps (off_keeps h ?_ ?_)) <;> exact List.prefix_rfl

theorem State.startFw_keeps {a0 s : State} (h : Keeps a0 s)  : Keeps a0 (State.startFw s) := by
  unfold State.startFw
  try dsimp only
  with_reducible repeat' first
      | assumption | exact List.prefix_rfl | apply State.hwr_keeps | apply State.updHub_keeps | apply State.bb_keeps | refine ite_keeps ?_ ?_
      | (intro _; try dsimp only) | dsimp only

theorem State.warmStop_keeps {a0 s : State} (h : Keeps a0 s)  : Keeps a0 (State.warmStop s) := by
  unfold State.warmStop
  try dsimp only
  with_reducible repeat' first
      | assumption | apply State.endCmd_keeps | apply State.haltNow_keeps | apply State.qpDisable_keeps | refine foldl_keeps ?_ _ _ ?_
      | refine ite_keeps ?_ ?_ | (intro _; try dsimp only)

theorem State.warm_keeps {a s : State} (h : Keeps a s) : Keeps a s.warm := by
  unfold State.warm
  refine ite_keeps h ?_
  have h1 : Keeps a s.warmStop := State.warmStop_keeps h
  generalize s.warmStop = w at h1 ⊢
  refine State.startFw_keeps (State.hwr_keeps (State.hwr_keeps (State.hwr_keeps (State.hwr_keeps (State.keepRegs_keeps ?_)))))
  refine tables_keeps h1 ?_ ?_ <;> exact List.prefix_rfl

/-! ### PowerInsn -/

theorem execMainPowerGood_keeps {a0 s : State} (h : Keeps a0 s) {f48 f12 e w : Bool} {vin : W16} {r_ : State} (he : execMainPowerGood f48 f12 e w vin s = .next r_) : Keeps a0 r_ := by
  unfold execMainPowerGood at he
  try dsimp only at he
  refine next_keeps he ?_
  clear he
  with_reducible repeat' first
      | assumption | exact List.prefix_rfl | apply State.updPort_keeps | apply State.drawn_keeps | apply State.wr_keeps | apply State.hwr_keeps
      | apply State.updHub_keeps | apply State.bb_keeps | apply State.setLimit_keeps | apply State.startFw_keeps | refine foldl_keeps ?_ _ _ ?_
      | refine foldl_keeps_fst ?_ _ _ ?_ | refine ite_keeps ?_ ?_ | (intro _; try dsimp only) | dsimp only

theorem execSecondFeedAppears_keeps {a0 s : State} (h : Keeps a0 s)  {r_ : State} (he : execSecondFeedAppears s = .next r_) : Keeps a0 r_ := by
  unfold execSecondFeedAppears at he
  try dsimp only at he
  refine next_keeps he ?_
  clear he
  with_reducible repeat' first
      | assumption | exact List.prefix_rfl | apply State.updHub_keeps | apply State.bb_keeps | refine ite_keeps ?_ ?_ | (intro _; try dsimp only)
      | dsimp only

theorem execBusbarPairLost_keeps {a0 s : State} (h : Keeps a0 s) {west : Bool} {r_ : State} (he : execBusbarPairLost west s = .next r_) : Keeps a0 r_ := by
  unfold execBusbarPairLost at he
  try dsimp only at he
  refine next_keeps he ?_
  clear he
  with_reducible repeat' first
      | assumption | apply State.hwr_keeps | apply State.bb_keeps | refine ite_keeps ?_ ?_

theorem State.zeroBudgets_keeps {a0 s : State} (h : Keeps a0 s)  : Keeps a0 (State.zeroBudgets s) := by
  unfold State.zeroBudgets
  try dsimp only
  with_reducible repeat' first
      | assumption | apply State.cutSector_keeps | refine foldl_keeps ?_ _ _ ?_ | (intro _; try dsimp only)

theorem State.feedLost_keeps {a0 s : State} (h : Keeps a0 s) {stby : Bool} : Keeps a0 (State.feedLost s stby) := by
  unfold State.feedLost
  try dsimp only
  with_reducible repeat' first
      | assumption | apply State.powerLoss_keeps | apply State.cold_keeps | apply State.zeroBudgets_keeps

theorem execFeedUndervoltage_keeps {a0 s : State} (h : Keeps a0 s)  {r_ : State} (he : execFeedUndervoltage s = .next r_) : Keeps a0 r_ := by
  unfold execFeedUndervoltage at he
  try dsimp only at he
  refine next_keeps he ?_
  clear he
  with_reducible repeat' first
      | assumption | apply State.cold_keeps | apply State.feedLost_keeps | refine ite_keeps ?_ ?_

theorem execStandbyPowerOn_keeps {a0 s : State} (h : Keeps a0 s) {hubOk eastOk : Bool} {r_ : State} (he : execStandbyPowerOn hubOk eastOk s = .next r_) : Keeps a0 r_ := by
  unfold execStandbyPowerOn at he
  try dsimp only at he
  refine next_keeps he ?_
  clear he
  with_reducible repeat' first
      | assumption | exact List.prefix_rfl | apply State.updHub_keeps | apply State.setMramOk_keeps | refine ite_keeps ?_ ?_
      | (intro _; try dsimp only) | dsimp only | apply State.ctlq_keeps | apply State.hubctl_keeps | apply State.hub_keeps | apply State.nodes_keeps

theorem execStandbyPowerLoss_keeps {a0 s : State} (h : Keeps a0 s)  {r_ : State} (he : execStandbyPowerLoss s = .next r_) : Keeps a0 r_ := by
  unfold execStandbyPowerLoss at he
  try dsimp only at he
  refine next_keeps he ?_
  clear he
  with_reducible repeat' first
      | assumption | apply State.powerLoss_keeps | apply State.cold_keeps | apply State.feedLost_keeps | refine ite_keeps ?_ ?_

theorem execWarmRstNLow_keeps {a0 s : State} (h : Keeps a0 s)  {r_ : State} (he : execWarmRstNLow s = .next r_) : Keeps a0 r_ := by
  unfold execWarmRstNLow at he
  try dsimp only at he
  refine next_keeps he ?_
  clear he
  with_reducible repeat' first
      | assumption | apply State.warm_keeps

theorem execColdRstNLow_keeps {a0 s : State} (h : Keeps a0 s)  {r_ : State} (he : execColdRstNLow s = .next r_) : Keeps a0 r_ := by
  unfold execColdRstNLow at he
  try dsimp only at he
  refine next_keeps he ?_
  clear he
  with_reducible repeat' first
      | assumption | apply State.cold_keeps | refine ite_keeps ?_ ?_

theorem execSetPowerCap_keeps {a0 s : State} (h : Keeps a0 s) {f : Fin 50} {q : Fin 8} {tag : W16} {r_ : State} (he : execSetPowerCap f q tag s = .next r_) : Keeps a0 r_ := by
  unfold execSetPowerCap at he
  try dsimp only at he
  refine next_keeps he ?_
  clear he
  with_reducible repeat' first
      | assumption | apply State.hwr_keeps | apply State.endCmd_keeps | apply State.fwRun_keeps | apply State.ecAll_keeps | apply State.setLimit_keeps
      | refine ite_keeps ?_ ?_ | (intro _; try dsimp only)

theorem execSiteEfuseTrip_keeps {a0 s : State} (h : Keeps a0 s) {key : Fin 293} {r_ : State} (he : execSiteEfuseTrip key s = .next r_) : Keeps a0 r_ := by
  unfold execSiteEfuseTrip at he
  try dsimp only at he
  refine next_keeps he ?_
  clear he
  with_reducible repeat' first
      | assumption | exact List.prefix_rfl | apply State.updHub_keeps | apply State.setRegion_keeps | apply State.bb_keeps | apply State.cutSite_keeps
      | apply State.softAppend_keeps | apply State.wakeFailed_keeps | apply State.regionOff_keeps | refine ite_keeps ?_ ?_ | (intro _; try dsimp only)
      | split | dsimp only

theorem execSectorEfuseTrip_keeps {a0 s : State} (h : Keeps a0 s) {k : StackNo} {r_ : State} (he : execSectorEfuseTrip k s = .next r_) : Keeps a0 r_ := by
  unfold execSectorEfuseTrip at he
  try dsimp only at he
  refine next_keeps he ?_
  clear he
  with_reducible repeat' first
      | assumption | exact List.prefix_rfl | apply State.hwr_keeps | apply State.updHub_keeps | apply State.setRegion_keeps | apply State.bb_keeps
      | apply State.dropInrush_keeps | apply State.cutSite_keeps | apply State.dieOff_keeps | apply State.sectorOff_keeps
      | refine foldl_keeps ?_ _ _ ?_ | refine ite_keeps ?_ ?_ | (intro _; try dsimp only) | split | dsimp only

theorem State.phaseAct_keeps {a0 s : State} (h : Keeps a0 s) {key : Nat} : Keeps a0 (State.phaseAct s key) := by
  unfold State.phaseAct
  try dsimp only
  with_reducible repeat' first
      | assumption | apply State.wr_keeps | apply State.raiseReason_keeps | apply State.setBudget_keeps | apply State.regionOff_keeps
      | refine foldl_keeps ?_ _ _ ?_ | refine ite_keeps ?_ ?_ | (intro _; try dsimp only) | split

theorem execPhaseFailure_keeps {a0 s : State} (h : Keeps a0 s) {key : Fin 293} {rail : Fin 8} {phase : Fin 16} {r_ : State} (he : execPhaseFailure key rail phase s = .next r_) : Keeps a0 r_ := by
  unfold execPhaseFailure at he
  try dsimp only at he
  refine next_keeps he ?_
  clear he
  with_reducible repeat' first
      | assumption | exact List.prefix_rfl | apply State.updHub_keeps | apply State.bb_keeps | apply State.mramAppend_keeps
      | apply State.phaseAct_keeps | refine ite_keeps ?_ ?_ | (intro _; try dsimp only) | dsimp only

theorem execInrushRequest_keeps {a0 s : State} (h : Keeps a0 s) {k : StackNo} {cell : W16} {cls : InrushClass} {r_ : State} (he : execInrushRequest k cell cls s = .next r_) : Keeps a0 r_ := by
  unfold execInrushRequest at he
  try dsimp only at he
  refine next_keeps he ?_
  clear he
  with_reducible repeat' first
      | assumption | apply State.inrushAsk_keeps

theorem execInrushGrant_keeps {a0 s : State} (h : Keeps a0 s) {k : StackNo} {i : BitVec 12} {r_ : State} (he : execInrushGrant k i s = .next r_) : Keeps a0 r_ := by
  unfold execInrushGrant at he
  try dsimp only at he
  refine next_keeps he ?_
  clear he
  with_reducible repeat' first
      | assumption | apply State.hwr_keeps | apply State.grantHeads_keeps

theorem execInrushWaitExpiry_keeps {a0 s : State} (h : Keeps a0 s) {k : StackNo} {r_ : State} (he : execInrushWaitExpiry k s = .next r_) : Keeps a0 r_ := by
  unfold execInrushWaitExpiry at he
  try dsimp only at he
  refine next_keeps he ?_
  clear he
  with_reducible repeat' first
      | assumption | exact List.prefix_rfl | apply State.till_keeps | apply State.inc_keeps | apply State.updHub_keeps | apply State.noteScpm_keeps
      | apply State.grantHeads_keeps | (intro _; try dsimp only) | split | dsimp only

theorem execRampEnd_keeps {a0 s : State} (h : Keeps a0 s) {k : StackNo} {cell : W16} {r_ : State} (he : execRampEnd k cell s = .next r_) : Keeps a0 r_ := by
  unfold execRampEnd at he
  try dsimp only at he
  refine next_keeps he ?_
  clear he
  with_reducible repeat' first
      | assumption | exact List.prefix_rfl | apply State.updHub_keeps | apply State.noteScpm_keeps | apply State.grantHeads_keeps
      | apply State.trainStack_keeps | refine ite_keeps ?_ ?_ | (intro _; try dsimp only) | split | dsimp only

theorem execSectorOvercurrent_keeps {a0 s : State} (h : Keeps a0 s) {k : StackNo} {i : BitVec 12} {r_ : State} (he : execSectorOvercurrent k i s = .next r_) : Keeps a0 r_ := by
  unfold execSectorOvercurrent at he
  try dsimp only at he
  refine next_keeps he ?_
  clear he
  with_reducible repeat' first
      | assumption | apply State.emit_keeps | apply State.drawn_keeps | apply State.wr_keeps | apply State.hwr_keeps | apply State.updDpm_keeps
      | apply State.endLoans_keeps | refine foldl_keeps ?_ _ _ ?_ | refine foldl_keeps_fst ?_ _ _ ?_ | refine ite_keeps ?_ ?_
      | (intro _; try dsimp only)

theorem execScpmOverClears_keeps {a0 s : State} (h : Keeps a0 s) {k : StackNo} {i : BitVec 12} {r_ : State} (he : execScpmOverClears k i s = .next r_) : Keeps a0 r_ := by
  unfold execScpmOverClears at he
  try dsimp only at he
  refine next_keeps he ?_
  clear he
  with_reducible repeat' first
      | assumption | apply State.wr_keeps | apply State.hwr_keeps | refine foldl_keeps ?_ _ _ ?_ | refine ite_keeps ?_ ?_ | (intro _; try dsimp only)

theorem State.noteRead_keeps {a0 s : State} (h : Keeps a0 s) {r : DieRead} : Keeps a0 (State.noteRead s r) := by
  unfold State.noteRead
  try dsimp only
  with_reducible repeat' first
      | assumption | apply State.wr_keeps | apply State.updDpm_keeps | apply State.setClocks_keeps | (intro _; try dsimp only)

theorem State.lend_keeps {a0 s : State} (h : Keeps a0 s) {k : Nat} : Keeps a0 (State.lend s k) := by
  unfold State.lend
  try dsimp only
  with_reducible repeat' first
      | assumption | exact List.prefix_rfl | apply State.updHub_keeps | refine foldl_keeps ?_ _ _ ?_ | refine foldl_keeps_fst ?_ _ _ ?_
      | refine ite_keeps ?_ ?_ | (intro _; try dsimp only) | dsimp only

theorem State.shareOut_keeps {a0 s : State} (h : Keeps a0 s) {reads : List DieRead} {k w : Nat} : Keeps a0 (State.shareOut s reads k w) := by
  unfold State.shareOut
  try dsimp only
  with_reducible repeat' first
      | assumption | exact List.prefix_rfl | apply State.emit_keeps | apply State.hwr_keeps | apply State.updHub_keeps | apply State.updDpm_keeps
      | apply State.setBudget_keeps | apply State.lend_keeps | refine foldl_keeps ?_ _ _ ?_ | refine ite_keeps ?_ ?_ | (intro _; try dsimp only)
      | split | dsimp only

theorem execBudgetDivide_keeps {a0 s : State} (h : Keeps a0 s) {draw : W16} {demand : List W16} {reads : List DieRead} {r_ : State} (he : execBudgetDivide draw demand reads s = .next r_) : Keeps a0 r_ := by
  unfold execBudgetDivide at he
  try dsimp only at he
  refine next_keeps he ?_
  clear he
  with_reducible repeat' first
      | assumption | apply State.hwr_keeps | apply State.noteRead_keeps | apply State.shareOut_keeps | refine foldl_keeps ?_ _ _ ?_
      | refine foldl_keeps_fst ?_ _ _ ?_ | refine ite_keeps ?_ ?_ | (intro _; try dsimp only)

theorem execBudgetLoanLapse_keeps {a0 s : State} (h : Keeps a0 s) {k : StackNo} {r_ : State} (he : execBudgetLoanLapse k s = .next r_) : Keeps a0 r_ := by
  unfold execBudgetLoanLapse at he
  try dsimp only at he
  refine next_keeps he ?_
  clear he
  with_reducible repeat' first
      | assumption | apply State.till_keeps | apply State.endLoans_keeps | refine foldl_keeps ?_ _ _ ?_ | (intro _; try dsimp only) | split

theorem execInputPowerSample_keeps {a0 s : State} (h : Keeps a0 s) {p vin : W16} {r_ : State} (he : execInputPowerSample p vin s = .next r_) : Keeps a0 r_ := by
  unfold execInputPowerSample at he
  try dsimp only at he
  refine next_keeps he ?_
  clear he
  with_reducible repeat' first
      | assumption | exact List.prefix_rfl | apply State.hwr_keeps | apply State.sat_keeps | apply State.updHub_keeps | apply State.cutSector_keeps
      | refine foldl_keeps ?_ _ _ ?_ | refine foldl_keeps_fst ?_ _ _ ?_ | refine ite_keeps ?_ ?_ | (intro _; try dsimp only) | dsimp only

theorem execRegionSleep_keeps {a0 s : State} (h : Keeps a0 s) {d : DieNo} {r_ : State} (he : execRegionSleep d s = .next r_) : Keeps a0 r_ := by
  unfold execRegionSleep at he
  try dsimp only at he
  refine next_keeps he ?_
  clear he
  with_reducible repeat' first
      | assumption | apply State.setPower_keeps | refine ite_keeps ?_ ?_ | (intro _; try dsimp only) | split

theorem execRegionAon_keeps {a0 s : State} (h : Keeps a0 s) {d : DieNo} {r_ : State} (he : execRegionAon d s = .next r_) : Keeps a0 r_ := by
  unfold execRegionAon at he
  try dsimp only at he
  refine next_keeps he ?_
  clear he
  with_reducible repeat' first
      | assumption | apply State.setPower_keeps | apply State.dieOff_keeps | refine ite_keeps ?_ ?_

theorem execRegionWake_keeps {a0 s : State} (h : Keeps a0 s) {d : DieNo} {r_ : State} (he : execRegionWake d s = .next r_) : Keeps a0 r_ := by
  unfold execRegionWake at he
  try dsimp only at he
  refine next_keeps he ?_
  clear he
  with_reducible repeat' first
      | assumption | apply State.setPower_keeps | apply State.setClocks_keeps | apply State.freshDie_keeps | refine ite_keeps ?_ ?_

/-! ### BootOps -/

theorem State.updBoot_keeps {a0 s : State} (h : Keeps a0 s) {f : Boot → Boot} : Keeps a0 (State.updBoot s f) := by
  unfold State.updBoot
  try dsimp only
  with_reducible repeat' first
      | assumption | exact List.prefix_rfl | apply State.updHub_keeps | (intro _; try dsimp only) | dsimp only

theorem State.bootDone_keeps {a0 s : State} (h : Keeps a0 s) {code : Nat} : Keeps a0 (State.bootDone s code) := by
  unfold State.bootDone
  try dsimp only
  with_reducible repeat' first
      | assumption | apply State.updBoot_keeps | (intro _; try dsimp only)

theorem State.bootFatal_keeps {a0 s : State} (h : Keeps a0 s) {site code : Nat} : Keeps a0 (State.bootFatal s site code) := by
  unfold State.bootFatal
  try dsimp only
  with_reducible repeat' first
      | assumption | apply State.hwr_keeps | apply State.cocoon_keeps | apply State.updBoot_keeps | (intro _; try dsimp only)

theorem State.bootGo_keeps {a0 s : State} (h : Keeps a0 s) {target : Nat} : Keeps a0 (State.bootGo s target) := by
  unfold State.bootGo
  try dsimp only
  with_reducible repeat' first
      | assumption | apply State.hwr_keeps | apply State.sat_keeps | apply State.updBoot_keeps | refine ite_keeps ?_ ?_ | (intro _; try dsimp only)

theorem State.bootCounts_keeps {a0 s : State} (h : Keeps a0 s)  : Keeps a0 (State.bootCounts s) := by
  unfold State.bootCounts
  try dsimp only
  with_reducible repeat' first
      | assumption | apply State.hwr_keeps | (intro _; try dsimp only)

theorem State.fuseChecks_keeps {a0 s : State} (h : Keeps a0 s)  : Keeps a0 (State.fuseChecks s) := by
  unfold State.fuseChecks
  try dsimp only
  with_reducible repeat' first
      | assumption | apply State.updBoot_keeps | refine foldl_keeps ?_ _ _ ?_ | refine foldl_keeps_fst ?_ _ _ ?_ | refine ite_keeps ?_ ?_
      | (intro _; try dsimp only)

theorem State.logBadCrc_keeps {a0 s : State} (h : Keeps a0 s) {copy : Nat} {l : List (BitVec 64)} : Keeps a0 (State.logBadCrc s copy l) := by
  unfold State.logBadCrc
  try dsimp only
  with_reducible repeat' first
      | assumption | apply State.bb_keeps | refine foldl_keeps ?_ _ _ ?_ | (intro _; try dsimp only)

theorem State.completeCopies_keeps {a s : State} (h : Keeps a s) {get : Mram → List (BitVec 64)} {set : Mram → List (BitVec 64) → Mram}
    (hs : ∀ m l, m.perm <+: (set m l).perm) : Keeps a (s.completeCopies get set) := by
  unfold State.completeCopies
  exact ite_keeps h (State.updHub_keeps h (hs _ _) (hs _ _))

theorem State.readMaps_keeps {a0 s : State} (h : Keeps a0 s)  : Keeps a0 (State.readMaps s) := by
  unfold State.readMaps
  try dsimp only
  with_reducible repeat' first
      | assumption | exact List.prefix_rfl | apply State.raiseReason_keeps | apply State.logBadCrc_keeps | apply State.completeCopies_keeps
      | refine ite_keeps ?_ ?_ | (intro _; try dsimp only)

theorem State.softChecks_keeps {a0 s : State} (h : Keeps a0 s)  : Keeps a0 (State.softChecks s) := by
  unfold State.softChecks
  try dsimp only
  with_reducible repeat' first
      | assumption | apply State.bb_keeps | apply State.updBoot_keeps | refine foldl_keeps ?_ _ _ ?_ | refine foldl_keeps_fst ?_ _ _ ?_
      | refine ite_keeps ?_ ?_ | (intro _; try dsimp only)

theorem State.buildMap_keeps {a0 s : State} (h : Keeps a0 s)  : Keeps a0 (State.buildMap s) := by
  unfold State.buildMap
  try dsimp only
  with_reducible repeat' first
      | assumption | exact List.prefix_rfl | apply State.editAnat_keeps | refine foldl_keeps ?_ _ _ ?_ | refine foldl_keeps_fst ?_ _ _ ?_
      | refine ite_keeps ?_ ?_ | (intro _; try dsimp only)

theorem State.checkLinks_keeps {a0 s : State} (h : Keeps a0 s)  : Keeps a0 (State.checkLinks s) := by
  unfold State.checkLinks
  try dsimp only
  with_reducible repeat' first
      | assumption | apply State.updFab_keeps | refine foldl_keeps ?_ _ _ ?_ | (intro _; try dsimp only)

theorem State.setLink_keeps {a0 s : State} (h : Keeps a0 s) {l : LinkTrain} : Keeps a0 (State.setLink s l) := by
  unfold State.setLink
  try dsimp only
  with_reducible repeat' first
      | assumption | apply State.updFab_keeps | refine foldl_keeps ?_ _ _ ?_ | refine foldl_keeps_fst ?_ _ _ ?_ | refine ite_keeps ?_ ?_
      | (intro _; try dsimp only) | split

theorem State.countLinks_keeps {a0 s : State} (h : Keeps a0 s)  : Keeps a0 (State.countLinks s) := by
  unfold State.countLinks
  try dsimp only
  with_reducible repeat' first
      | assumption | apply State.hwr_keeps | refine foldl_keeps ?_ _ _ ?_ | refine foldl_keeps_fst ?_ _ _ ?_ | (intro _; try dsimp only)

theorem State.setTables_keeps {a0 s : State} (h : Keeps a0 s) {t : RouterTables} : Keeps a0 (State.setTables s t) := by
  unfold State.setTables
  try dsimp only
  with_reducible repeat' first
      | assumption | apply State.updFab_keeps | refine foldl_keeps ?_ _ _ ?_ | refine foldl_keeps_fst ?_ _ _ ?_ | refine ite_keeps ?_ ?_
      | (intro _; try dsimp only)

theorem State.openBoot_keeps {a0 s : State} (h : Keeps a0 s) {dies snodes : List Nat} : Keeps a0 (State.openBoot s dies snodes) := by
  unfold State.openBoot
  try dsimp only
  with_reducible repeat' first
      | assumption | apply State.updTile_keeps | apply State.updStack_keeps | refine foldl_keeps ?_ _ _ ?_ | (intro _; try dsimp only)

theorem State.clearBoot_keeps {a0 s : State} (h : Keeps a0 s)  : Keeps a0 (State.clearBoot s) := by
  unfold State.clearBoot
  try dsimp only
  with_reducible repeat' first
      | assumption | apply State.mapTiles_keeps | apply State.mapNodes_keeps | apply State.mapStacks_keeps | (intro _; try dsimp only)

theorem State.landChunk_keeps {a0 s : State} (h : Keeps a0 s) {r c : Nat} {poison : Bool} : Keeps a0 (State.landChunk s r c poison) := by
  unfold State.landChunk
  try dsimp only
  with_reducible repeat' first
      | assumption | apply State.updTile_keeps | apply State.updNode_keeps | apply State.updStack_keeps | refine ite_keeps ?_ ?_
      | (intro _; try dsimp only) | split

theorem State.receiverBad_keeps {a0 s : State} (h : Keeps a0 s) {r cause : Nat} : Keeps a0 (State.receiverBad s r cause) := by
  unfold State.receiverBad
  try dsimp only
  with_reducible repeat' first
      | assumption | apply State.updStack_keeps | apply State.updBoot_keeps | refine ite_keeps ?_ ?_ | (intro _; try dsimp only)

/-! ### BootInsn -/

theorem execBootGo_keeps {a0 s : State} (h : Keeps a0 s) {target : Fin 8} {r_ : State} (he : execBootGo target s = .next r_) : Keeps a0 r_ := by
  unfold execBootGo at he
  try dsimp only at he
  refine next_keeps he ?_
  clear he
  with_reducible repeat' first
      | assumption | apply State.bootGo_keeps

theorem State.runClears_keeps {a0 s : State} (h : Keeps a0 s)  : Keeps a0 (State.runClears s) := by
  unfold State.runClears
  try dsimp only
  with_reducible repeat' first
      | assumption | exact List.prefix_rfl | apply State.updHub_keeps | apply State.bb_keeps | apply State.mramAppend_keeps
      | refine foldl_keeps ?_ _ _ ?_ | refine foldl_keeps_fst ?_ _ _ ?_ | refine ite_keeps ?_ ?_ | (intro _; try dsimp only) | dsimp only

theorem State.ringsUp_keeps {a0 s : State} (h : Keeps a0 s) {fast : Bool} : Keeps a0 (State.ringsUp s fast) := by
  unfold State.ringsUp
  try dsimp only
  with_reducible repeat' first
      | assumption | exact List.prefix_rfl | apply State.updNode_keeps | apply State.updHub_keeps | apply State.ringPorts_keeps
      | refine foldl_keeps ?_ _ _ ?_ | refine foldl_keeps_fst ?_ _ _ ?_ | (intro _; try dsimp only) | dsimp only

theorem execInstarSkeleton_keeps {a0 s : State} (h : Keeps a0 s) {dark : List StackNo} {silent : List (Fin 288)} {silentPorts : List (Fin 4)} {hubFault : Bool} {r_ : State} (he : execInstarSkeleton dark silent silentPorts hubFault s = .next r_) : Keeps a0 r_ := by
  unfold execInstarSkeleton at he
  try dsimp only at he
  refine next_keeps he ?_
  clear he
  with_reducible repeat' first
      | assumption | exact List.prefix_rfl | apply State.hwr_keeps | apply State.updHub_keeps | apply State.regionOff_keeps
      | apply State.updBoot_keeps | apply State.bootFatal_keeps | apply State.runClears_keeps | apply State.ringsUp_keeps
      | refine foldl_keeps ?_ _ _ ?_ | refine foldl_keeps_fst ?_ _ _ ?_ | refine ite_keeps ?_ ?_ | (intro _; try dsimp only) | dsimp only

theorem State.burnFuses_keeps {a0 s : State} (h : Keeps a0 s)  : Keeps a0 (State.burnFuses s) := by
  unfold State.burnFuses
  try dsimp only
  with_reducible repeat' first
      | assumption | exact List.prefix_rfl | apply State.hwr_keeps | apply State.updHub_keeps | (intro _; try dsimp only) | dsimp only

theorem State.phasesShown_keeps {a0 s : State} (h : Keeps a0 s)  : Keeps a0 (State.phasesShown s) := by
  unfold State.phasesShown
  try dsimp only
  with_reducible repeat' first
      | assumption | apply State.phaseAct_keeps | refine foldl_keeps ?_ _ _ ?_ | refine foldl_keeps_fst ?_ _ _ ?_ | refine ite_keeps ?_ ?_
      | (intro _; try dsimp only)

theorem execInstarIdentify_keeps {a0 s : State} (h : Keeps a0 s)  {r_ : State} (he : execInstarIdentify s = .next r_) : Keeps a0 r_ := by
  unfold execInstarIdentify at he
  try dsimp only at he
  refine next_keeps he ?_
  clear he
  with_reducible repeat' first
      | assumption | apply State.updStack_keeps | apply State.updPort_keeps | apply State.raiseReason_keeps | apply State.bootDone_keeps
      | apply State.bootFatal_keeps | apply State.bootCounts_keeps | apply State.fuseChecks_keeps | apply State.readMaps_keeps
      | apply State.softChecks_keeps | apply State.buildMap_keeps | apply State.ringsUp_keeps | apply State.burnFuses_keeps
      | apply State.phasesShown_keeps | refine foldl_keeps ?_ _ _ ?_ | refine foldl_keeps_fst ?_ _ _ ?_ | refine ite_keeps ?_ ?_
      | (intro _; try dsimp only)

theorem execInstarClocks_keeps {a0 s : State} (h : Keeps a0 s) {unlocked : List (Fin 288)} {fault : Bool} {r_ : State} (he : execInstarClocks unlocked fault s = .next r_) : Keeps a0 r_ := by
  unfold execInstarClocks at he
  try dsimp only at he
  refine next_keeps he ?_
  clear he
  with_reducible repeat' first
      | assumption | apply State.updPort_keeps | apply State.wr_keeps | apply State.setRegion_keeps | apply State.setClocks_keeps
      | apply State.updBoot_keeps | apply State.bootDone_keeps | apply State.bootFatal_keeps | apply State.bootCounts_keeps
      | apply State.ringsUp_keeps | refine foldl_keeps ?_ _ _ ?_ | refine foldl_keeps_fst ?_ _ _ ?_ | refine ite_keeps ?_ ?_
      | (intro _; try dsimp only)

theorem State.retireEdgeless_keeps {a0 s : State} (h : Keeps a0 s)  : Keeps a0 (State.retireEdgeless s) := by
  unfold State.retireEdgeless
  try dsimp only
  with_reducible repeat' first
      | assumption | apply State.updStack_keeps | refine foldl_keeps ?_ _ _ ?_ | refine ite_keeps ?_ ?_ | (intro _; try dsimp only)

theorem execStackTrainDone_keeps {a0 s : State} (h : Keeps a0 s) {k : StackNo} {ok : Bool} {step : BitVec 3} {code : Byte} {ms : W16} {bad : List (Fin 32)} {r_ : State} (he : execStackTrainDone k ok step code ms bad s = .next r_) : Keeps a0 r_ := by
  unfold execStackTrainDone at he
  try dsimp only at he
  refine next_keeps he ?_
  clear he
  with_reducible repeat' first
      | assumption | apply State.setStack_keeps | apply State.till_keeps | apply State.stackDegraded_keeps | apply step_keeps
      | refine foldl_keeps ?_ _ _ ?_ | refine foldl_keeps_fst ?_ _ _ ?_ | refine ite_keeps ?_ ?_ | (intro _; try dsimp only) | split

theorem execStackWipeComplete_keeps {a0 s : State} (h : Keeps a0 s) {k : StackNo} {r_ : State} (he : execStackWipeComplete k s = .next r_) : Keeps a0 r_ := by
  unfold execStackWipeComplete at he
  try dsimp only at he
  refine next_keeps he ?_
  clear he
  with_reducible repeat' first
      | assumption | apply State.updStack_keeps | apply step_keeps | refine ite_keeps ?_ ?_ | (intro _; try dsimp only)

theorem execInstarTrain_keeps {a0 s : State} (h : Keeps a0 s) {links : List LinkTrain} {tables : List RouterTables} {lanes : List (Nat × Nat × Nat)} {r_ : State} (he : execInstarTrain links tables lanes s = .next r_) : Keeps a0 r_ := by
  unfold execInstarTrain at he
  try dsimp only at he
  refine next_keeps he ?_
  clear he
  with_reducible repeat' first
      | assumption | apply State.updTile_keeps | apply State.wr_keeps | apply State.updFab_keeps | apply State.rerouteOf_keeps
      | apply State.trainStack_keeps | apply State.loadRemaps_keeps | apply State.applyMode_keeps | apply State.updBoot_keeps
      | apply State.bootCounts_keeps | apply State.checkLinks_keeps | apply State.setLink_keeps | apply State.countLinks_keeps
      | apply State.setTables_keeps | apply State.openBoot_keeps | apply State.retireEdgeless_keeps | refine foldl_keeps ?_ _ _ ?_
      | refine foldl_keeps_fst ?_ _ _ ?_ | refine ite_keeps ?_ ?_ | (intro _; try dsimp only)

theorem execInstarLoad_keeps {a0 s : State} (h : Keeps a0 s) {b : Option Bundle} {r_ : State} (he : execInstarLoad b s = .next r_) : Keeps a0 r_ := by
  unfold execInstarLoad at he
  try dsimp only at he
  refine next_keeps he ?_
  clear he
  with_reducible repeat' first
      | assumption | exact List.prefix_rfl | apply State.hwr_keeps | apply State.updHub_keeps | apply State.measure_keeps | apply State.updBoot_keeps
      | apply State.bootDone_keeps | refine ite_keeps ?_ ?_ | (intro _; try dsimp only) | split | dsimp only

theorem execBroadcastRoundEnd_keeps {a0 s : State} (h : Keeps a0 s) {lost : List (Receiver × Nat × Bool)} {r_ : State} (he : execBroadcastRoundEnd lost s = .next r_) : Keeps a0 r_ := by
  unfold execBroadcastRoundEnd at he
  try dsimp only at he
  refine next_keeps he ?_
  clear he
  with_reducible repeat' first
      | assumption | apply State.hwr_keeps | apply State.updBoot_keeps | apply State.bootDone_keeps | apply State.landChunk_keeps
      | refine foldl_keeps ?_ _ _ ?_ | refine foldl_keeps_fst ?_ _ _ ?_ | refine ite_keeps ?_ ?_ | (intro _; try dsimp only) | split

theorem execP2pLoadAttempt_keeps {a0 s : State} (h : Keeps a0 s) {r : Receiver} {lost : List Nat} {r_ : State} (he : execP2pLoadAttempt r lost s = .next r_) : Keeps a0 r_ := by
  unfold execP2pLoadAttempt at he
  try dsimp only at he
  refine next_keeps he ?_
  clear he
  with_reducible repeat' first
      | assumption | apply State.inc_keeps | apply State.updBoot_keeps | apply State.bootDone_keeps | apply State.bootCounts_keeps
      | apply State.landChunk_keeps | apply State.receiverBad_keeps | refine foldl_keeps ?_ _ _ ?_ | refine foldl_keeps_fst ?_ _ _ ?_
      | refine ite_keeps ?_ ?_ | (intro _; try dsimp only)

theorem State.katResult_keeps {a0 s : State} (h : Keeps a0 s) {r : Nat} {ok : Bool} : Keeps a0 (State.katResult s r ok) := by
  unfold State.katResult
  try dsimp only
  with_reducible repeat' first
      | assumption | apply State.updBoot_keeps | apply State.receiverBad_keeps | refine ite_keeps ?_ ?_ | (intro _; try dsimp only)

theorem State.katDone_keeps {a0 s : State} (h : Keeps a0 s)  : Keeps a0 (State.katDone s) := by
  unfold State.katDone
  try dsimp only
  with_reducible repeat' first
      | assumption | apply State.bootDone_keeps | apply State.bootCounts_keeps | refine ite_keeps ?_ ?_ | (intro _; try dsimp only)

theorem execInstarProve_keeps {a0 s : State} (h : Keeps a0 s) {results : List (Receiver × Bool)} {r_ : State} (he : execInstarProve results s = .next r_) : Keeps a0 r_ := by
  unfold execInstarProve at he
  try dsimp only at he
  refine next_keeps he ?_
  clear he
  with_reducible repeat' first
      | assumption | apply State.katResult_keeps | apply State.katDone_keeps | refine foldl_keeps ?_ _ _ ?_ | refine foldl_keeps_fst ?_ _ _ ?_
      | refine ite_keeps ?_ ?_ | (intro _; try dsimp only)

theorem execKatReportTimeout_keeps {a0 s : State} (h : Keeps a0 s) {r : Receiver} {r_ : State} (he : execKatReportTimeout r s = .next r_) : Keeps a0 r_ := by
  unfold execKatReportTimeout at he
  try dsimp only at he
  refine next_keeps he ?_
  clear he
  with_reducible repeat' first
      | assumption | apply State.katResult_keeps | apply State.katDone_keeps | refine ite_keeps ?_ ?_

theorem State.trainEdges_keeps {a0 s : State} (h : Keeps a0 s) {n : Nat} {lost : List (Fin 4 × BitVec 8)} : Keeps a0 (State.trainEdges s n lost) := by
  unfold State.trainEdges
  try dsimp only
  with_reducible repeat' first
      | assumption | apply State.updFab_keeps | refine foldl_keeps ?_ _ _ ?_ | refine foldl_keeps_fst ?_ _ _ ?_ | refine ite_keeps ?_ ?_
      | (intro _; try dsimp only)

theorem execSpareWake_keeps {a0 s : State} (h : Keeps a0 s) {site : Fin 288} {ok : Bool} {cause : Fin 8} {lost : List (Fin 4 × BitVec 8)} {r_ : State} (he : execSpareWake site ok cause lost s = .next r_) : Keeps a0 r_ := by
  unfold execSpareWake at he
  try dsimp only at he
  refine next_keeps he ?_
  clear he
  with_reducible repeat' first
      | assumption | exact List.prefix_rfl | apply State.updHub_keeps | apply State.setRegion_keeps | apply State.reroute_keeps
      | apply State.checkSpares_keeps | apply State.substitute_keeps | apply State.moltReady_keeps | apply State.wakeFailed_keeps
      | apply State.trainEdges_keeps | refine ite_keeps ?_ ?_ | (intro _; try dsimp only) | split | dsimp only

/-! ### ReconInsn -/

theorem State.settle_keeps {a0 s : State} (h : Keeps a0 s)  : Keeps a0 (State.settle s).1 := by
  unfold State.settle
  try dsimp only
  with_reducible repeat' first
      | assumption | apply State.updBoot_keeps | refine foldl_keeps ?_ _ _ ?_ | refine foldl_keeps_fst ?_ _ _ ?_ | refine ite_keeps ?_ ?_
      | refine ite_keeps_fst ?_ ?_ | (intro _; try dsimp only)

theorem State.passThree_keeps {a0 s : State} (h : Keeps a0 s)  : Keeps a0 (State.passThree s).1 := by
  unfold State.passThree
  try dsimp only
  with_reducible repeat' first
      | assumption | exact List.prefix_rfl | apply State.editAnat_keeps | refine foldl_keeps ?_ _ _ ?_ | refine foldl_keeps_fst ?_ _ _ ?_
      | refine ite_keeps ?_ ?_ | refine ite_keeps_fst ?_ ?_ | (intro _; try dsimp only) | split

theorem State.parkSpares_keeps {a0 s : State} (h : Keeps a0 s)  : Keeps a0 (State.parkSpares s) := by
  unfold State.parkSpares
  try dsimp only
  with_reducible repeat' first
      | assumption | apply State.setRegion_keeps | refine foldl_keeps ?_ _ _ ?_ | (intro _; try dsimp only)

theorem State.recomputeReasons_keeps {a0 s : State} (h : Keeps a0 s)  : Keeps a0 (State.recomputeReasons s) := by
  unfold State.recomputeReasons
  try dsimp only
  with_reducible repeat' first
      | assumption | apply State.hwr_keeps | apply State.raiseReason_keeps | refine foldl_keeps ?_ _ _ ?_ | (intro _; try dsimp only)

theorem State.measureBoot_keeps {a0 s : State} (h : Keeps a0 s)  : Keeps a0 (State.measureBoot s) := by
  unfold State.measureBoot
  try dsimp only
  with_reducible repeat' first
      | assumption | apply State.measure_keeps | (intro _; try dsimp only)

theorem State.unseal_keeps {a0 s : State} (h : Keeps a0 s) {storeOk : Bool} : Keeps a0 (State.unseal s storeOk) := by
  unfold State.unseal
  try dsimp only
  with_reducible repeat' first
      | assumption | exact List.prefix_rfl | apply State.hwr_keeps | apply State.updHub_keeps | apply State.bb_keeps | refine ite_keeps ?_ ?_
      | (intro _; try dsimp only) | dsimp only

theorem State.formLayout_keeps {a0 s : State} (h : Keeps a0 s)  : Keeps a0 (State.formLayout s) := by
  unfold State.formLayout
  try dsimp only
  with_reducible repeat' first
      | assumption | apply State.formPart_keeps | refine foldl_keeps ?_ _ _ ?_ | (intro _; try dsimp only)

theorem State.settleRecords_keeps {a0 s : State} (h : Keeps a0 s) {recs skipped : List (BitVec 64)} : Keeps a0 (State.settleRecords s recs skipped) := by
  unfold State.settleRecords
  try dsimp only
  with_reducible repeat' first
      | assumption | apply State.bb_keeps | apply State.softAppend_keeps | apply State.parkSpares_keeps | refine foldl_keeps ?_ _ _ ?_
      | (intro _; try dsimp only)

theorem State.toImago_keeps {a0 s old : State} (h : Keeps a0 s) {b : Bool} : Keeps a0 (State.toImago s old b) := by
  unfold State.toImago
  refine State.bootDone_keeps (State.recomputeReasons_keeps (State.hwr_keeps (State.hwr_keeps (State.bootCounts_keeps (State.formLayout_keeps
    (State.clearBoot_keeps (State.rerouteOf_keeps ?_)))))))
  exact foldl_keeps (fun _ _ h => State.settleRemaps_keeps h) _ _ (State.unseal_keeps h)

theorem execInstarReconcile_keeps {a0 s : State} (h : Keeps a0 s) {storeOk : Bool} {r_ : State} (he : execInstarReconcile storeOk s = .next r_) :
    Keeps a0 r_ := by
  unfold execInstarReconcile at he
  refine next_keeps he (ite_keeps h ?_)
  have h1 := State.settle_keeps h
  generalize s.settle = r at h1 ⊢
  have h2 := State.passThree_keeps h1
  dsimp only
  generalize r.1.passThree = p at h2 ⊢
  have h3 := State.measureBoot_keeps (State.settleRecords_keeps h2 (recs := r.2 ++ p.2) (skipped := r.2))
  refine ite_keeps (State.bootFatal_keeps h2) ?_
  generalize (p.1.settleRecords _ _).measureBoot = q at h3 ⊢
  exact ite_keeps (State.bootFatal_keeps h3) (State.toImago_keeps h3)

theorem execInstarComplete_keeps {a0 s : State} (h : Keeps a0 s)  {r_ : State} (he : execInstarComplete s = .next r_) : Keeps a0 r_ := by
  unfold execInstarComplete at he
  try dsimp only at he
  refine next_keeps he ?_
  clear he
  with_reducible repeat' first
      | assumption | apply State.hwr_keeps | apply State.bb_keeps | apply State.bootFatal_keeps | refine ite_keeps ?_ ?_

theorem execInstarTimeout_keeps {a0 s : State} (h : Keeps a0 s)  {r_ : State} (he : execInstarTimeout s = .next r_) : Keeps a0 r_ := by
  unfold execInstarTimeout at he
  try dsimp only at he
  refine next_keeps he ?_
  clear he
  with_reducible repeat' first
      | assumption | apply State.till_keeps | apply State.bootFatal_keeps | refine ite_keeps ?_ ?_

theorem State.cocoonAsked_keeps {a0 s : State} (h : Keeps a0 s)  : Keeps a0 (State.cocoonAsked s) := by
  unfold State.cocoonAsked
  try dsimp only
  with_reducible repeat' first
      | assumption | apply State.cocoon_keeps | refine ite_keeps ?_ ?_

theorem execBootCocoon_keeps {a0 s : State} (h : Keeps a0 s)  {r_ : State} (he : execBootCocoon s = .next r_) : Keeps a0 r_ := by
  unfold execBootCocoon at he
  try dsimp only at he
  refine next_keeps he ?_
  clear he
  with_reducible repeat' first
      | assumption | apply State.cocoonAsked_keeps

/-! ### TimeInsn -/

theorem State.dieFails_keeps {a0 s : State} (h : Keeps a0 s) {n cause sm : Nat} : Keeps a0 (State.dieFails s n cause sm) := by
  unfold State.dieFails
  try dsimp only
  with_reducible repeat' first
      | assumption | apply State.declareLost_keeps | apply State.updBoot_keeps | refine ite_keeps ?_ ?_ | (intro _; try dsimp only) | split

theorem execRef10Loss_keeps {a0 s : State} (h : Keeps a0 s)  {r_ : State} (he : execRef10Loss s = .next r_) : Keeps a0 r_ := by
  unfold execRef10Loss at he
  try dsimp only at he
  refine next_keeps he ?_
  clear he
  with_reducible repeat' first
      | assumption | apply State.hwr_keeps | apply State.bb_keeps | refine ite_keeps ?_ ?_

theorem execTbmFrefWrite_keeps {a0 s : State} (h : Keeps a0 s) {ext present : Bool} {r_ : State} (he : execTbmFrefWrite ext present s = .next r_) : Keeps a0 r_ := by
  unfold execTbmFrefWrite at he
  try dsimp only at he
  refine next_keeps he ?_
  clear he
  with_reducible repeat' first
      | assumption | apply State.hwr_keeps | apply State.bb_keeps | refine ite_keeps ?_ ?_

theorem execFabricPllLockLoss_keeps {a0 s : State} (h : Keeps a0 s) {n : NodeNo} {r_ : State} (he : execFabricPllLockLoss n s = .next r_) : Keeps a0 r_ := by
  unfold execFabricPllLockLoss at he
  try dsimp only at he
  refine next_keeps he ?_
  clear he
  with_reducible repeat' first
      | assumption | apply State.wr_keeps | apply State.hwr_keeps | apply State.cocoon_keeps | apply State.dieFails_keeps | refine ite_keeps ?_ ?_

theorem State.stretch_keeps {a0 s : State} (h : Keeps a0 s) {n t periods : Nat} {going : Bool} : Keeps a0 (State.stretch s n t periods going) := by
  unfold State.stretch
  try dsimp only
  with_reducible repeat' first
      | assumption | apply State.wr_keeps

theorem execVlogicDroop_keeps {a0 s : State} (h : Keeps a0 s) {d : DieNo} {t : Fin 17} {periods : W16} {ended : Bool} {r_ : State} (he : execVlogicDroop d t periods ended s = .next r_) : Keeps a0 r_ := by
  unfold execVlogicDroop at he
  try dsimp only at he
  refine next_keeps he ?_
  clear he
  with_reducible repeat' first
      | assumption | apply State.stretch_keeps | refine ite_keeps ?_ ?_

theorem State.trimStep_keeps {a0 s : State} (h : Keeps a0 s) {n : Nat} {warn : Bool} : Keeps a0 (State.trimStep s n warn) := by
  unfold State.trimStep
  try dsimp only
  with_reducible repeat' first
      | assumption | apply State.updDpm_keeps | refine ite_keeps ?_ ?_ | (intro _; try dsimp only) | split

theorem State.eyeStep_keeps {a0 s : State} (h : Keeps a0 s) {n t : Nat} {warn : Bool} : Keeps a0 (State.eyeStep s n t warn) := by
  unfold State.eyeStep
  try dsimp only
  with_reducible repeat' first
      | assumption | apply State.updDpm_keeps | refine ite_keeps ?_ ?_ | (intro _; try dsimp only)

theorem State.noteDrift_keeps {a0 s : State} (h : Keeps a0 s) {n t : Nat} : Keeps a0 (State.noteDrift s n t) := by
  unfold State.noteDrift
  try dsimp only
  with_reducible repeat' first
      | assumption | apply State.wr_keeps | apply State.bb_keeps | refine ite_keeps ?_ ?_

theorem State.critTimer_keeps {a0 s : State} (h : Keeps a0 s) {n t : Nat} {crit : Bool} : Keeps a0 (State.critTimer s n t crit) := by
  unfold State.critTimer
  try dsimp only
  with_reducible repeat' first
      | assumption | apply State.updDpm_keeps | apply State.dieFails_keeps | refine ite_keeps ?_ ?_ | (intro _; try dsimp only) | split

theorem execEyespotReport_keeps {a0 s : State} (h : Keeps a0 s) {n : NodeNo} {e : Fin 18} {code : BitVec 4} {stretched : W16} {r_ : State} (he : execEyespotReport n e code stretched s = .next r_) : Keeps a0 r_ := by
  unfold execEyespotReport at he
  try dsimp only at he
  refine next_keeps he ?_
  clear he
  with_reducible repeat' first
      | assumption | apply State.wr_keeps | apply State.inc_keeps | apply State.setClocks_keeps | apply State.dieFails_keeps
      | apply State.stretch_keeps | apply State.trimStep_keeps | apply State.eyeStep_keeps | apply State.noteDrift_keeps | apply State.critTimer_keeps
      | refine ite_keeps ?_ ?_

theorem execTbPulseSend_keeps {a0 s : State} (h : Keeps a0 s)  {r_ : State} (he : execTbPulseSend s = .next r_) : Keeps a0 r_ := by
  unfold execTbPulseSend at he
  try dsimp only at he
  refine next_keeps he ?_
  clear he
  with_reducible repeat' first
      | assumption | exact List.prefix_rfl | apply State.emit_keeps | apply State.till_keeps | apply State.updHub_keeps | refine ite_keeps ?_ ?_
      | (intro _; try dsimp only) | dsimp only

theorem State.copyLost_keeps {a0 s : State} (h : Keeps a0 s) {n : Nat} : Keeps a0 (State.copyLost s n) := by
  unfold State.copyLost
  try dsimp only
  with_reducible repeat' first
      | assumption | exact List.prefix_rfl | apply State.wr_keeps | apply State.updHub_keeps | apply State.dieFails_keeps | (intro _; try dsimp only)
      | dsimp only

theorem execTbPulseArrival_keeps {a0 s : State} (h : Keeps a0 s) {n : NodeNo} {drift : Int} {r_ : State} (he : execTbPulseArrival n drift s = .next r_) : Keeps a0 r_ := by
  unfold execTbPulseArrival at he
  try dsimp only at he
  refine next_keeps he ?_
  clear he
  with_reducible repeat' first
      | assumption | exact List.prefix_rfl | apply State.inc_keeps | apply State.updHub_keeps | apply State.copyLost_keeps | refine ite_keeps ?_ ?_
      | (intro _; try dsimp only) | dsimp only

theorem execTbPulseMissing_keeps {a0 s : State} (h : Keeps a0 s) {n : NodeNo} {r_ : State} (he : execTbPulseMissing n s = .next r_) : Keeps a0 r_ := by
  unfold execTbPulseMissing at he
  try dsimp only at he
  refine next_keeps he ?_
  clear he
  with_reducible repeat' first
      | assumption | apply State.inc_keeps | apply State.copyLost_keeps | refine ite_keeps ?_ ?_

theorem execPpsEdge_keeps {a0 s : State} (h : Keeps a0 s) {off adj : Int} {r_ : State} (he : execPpsEdge off adj s = .next r_) : Keeps a0 r_ := by
  unfold execPpsEdge at he
  try dsimp only at he
  refine next_keeps he ?_
  clear he
  with_reducible repeat' first
      | assumption | exact List.prefix_rfl | apply State.hwr_keeps | apply State.updHub_keeps | apply State.servo_keeps | refine ite_keeps ?_ ?_
      | (intro _; try dsimp only) | dsimp only

theorem State.pairRead_keeps {a0 s : State} (h : Keeps a0 s) {t : Tgt} {place off : Nat} : Keeps a0 (State.pairRead s t place off) := by
  unfold State.pairRead
  try dsimp only
  with_reducible repeat' first
      | assumption | apply State.emit_keeps | apply State.latch_keeps

theorem execTbLoRead_keeps {a0 s : State} (h : Keeps a0 s) {n : NodeNo} {r_ : State} (he : execTbLoRead n s = .next r_) : Keeps a0 r_ := by
  unfold execTbLoRead at he
  try dsimp only at he
  refine next_keeps he ?_
  clear he
  with_reducible repeat' first
      | assumption | apply State.pairRead_keeps | refine ite_keeps ?_ ?_

theorem execTbmPpsStampLoRead_keeps {a0 s : State} (h : Keeps a0 s)  {r_ : State} (he : execTbmPpsStampLoRead s = .next r_) : Keeps a0 r_ := by
  unfold execTbmPpsStampLoRead at he
  try dsimp only at he
  refine next_keeps he ?_
  clear he
  with_reducible repeat' first
      | assumption | apply State.pairRead_keeps | refine ite_keeps ?_ ?_

theorem execRtcSecWrite_keeps {a0 s : State} (h : Keeps a0 s) {v : W32} {r_ : State} (he : execRtcSecWrite v s = .next r_) : Keeps a0 r_ := by
  unfold execRtcSecWrite at he
  try dsimp only at he
  refine next_keeps he ?_
  clear he
  with_reducible repeat' first
      | assumption | exact List.prefix_rfl | apply State.hwr_keeps | apply State.updHub_keeps | refine ite_keeps ?_ ?_ | (intro _; try dsimp only)
      | dsimp only

/-! ### ThermInsn -/

theorem State.setHot_keeps {a0 s : State} (h : Keeps a0 s) {n h : Nat} {x : HotTimers} : Keeps a0 (State.setHot s n h x) := by
  unfold State.setHot
  try dsimp only
  with_reducible repeat' first
      | assumption | exact List.prefix_rfl | apply State.updHub_keeps | (intro _; try dsimp only) | dsimp only

theorem execThermalBudgetUpdate_keeps {a0 s : State} (h : Keeps a0 s)  {r_ : State} (he : execThermalBudgetUpdate s = .next r_) : Keeps a0 r_ := by
  unfold execThermalBudgetUpdate at he
  try dsimp only at he
  refine next_keeps he ?_
  clear he
  with_reducible repeat' first
      | assumption | apply State.hwr_keeps | apply State.setLimit_keeps | refine foldl_keeps ?_ _ _ ?_ | refine foldl_keeps_fst ?_ _ _ ?_
      | refine ite_keeps ?_ ?_ | (intro _; try dsimp only)

theorem State.flowStop_keeps {a0 s : State} (h : Keeps a0 s) {cause : Nat} : Keeps a0 (State.flowStop s cause) := by
  unfold State.flowStop
  try dsimp only
  with_reducible repeat' first
      | assumption | exact List.prefix_rfl | apply State.hwr_keeps | apply State.inc_keeps | apply State.updHub_keeps | apply State.bb_keeps
      | apply State.haltRequest_keeps | apply State.railsReport_keeps | apply State.rollback_keeps | apply State.setClocks_keeps
      | apply State.setLimit_keeps | apply State.cutSector_keeps | refine foldl_keeps ?_ _ _ ?_ | refine ite_keeps ?_ ?_ | (intro _; try dsimp only)
      | split | dsimp only

theorem execCoolantFlowRead_keeps {a0 s : State} (h : Keeps a0 s) {r : Option (W16 × W16 × W16)} {r_ : State} (he : execCoolantFlowRead r s = .next r_) : Keeps a0 r_ := by
  unfold execCoolantFlowRead at he
  try dsimp only at he
  refine next_keeps he ?_
  clear he
  with_reducible repeat' first
      | assumption | exact List.prefix_rfl | apply State.updHub_keeps | apply State.flowStop_keeps | refine ite_keeps ?_ ?_
      | (intro _; try dsimp only) | split | dsimp only

theorem execCoolantTempRead_keeps {a0 s : State} (h : Keeps a0 s) {tin tout : Option W16} {r_ : State} (he : execCoolantTempRead tin tout s = .next r_) : Keeps a0 r_ := by
  unfold execCoolantTempRead at he
  try dsimp only at he
  refine next_keeps he ?_
  clear he
  with_reducible repeat' first
      | assumption | exact List.prefix_rfl | apply State.hwr_keeps | apply State.updHub_keeps | refine ite_keeps ?_ ?_ | (intro _; try dsimp only)
      | split | dsimp only

theorem execFlowFailNLow_keeps {a0 s : State} (h : Keeps a0 s)  {r_ : State} (he : execFlowFailNLow s = .next r_) : Keeps a0 r_ := by
  unfold execFlowFailNLow at he
  try dsimp only at he
  refine next_keeps he ?_
  clear he
  with_reducible repeat' first
      | assumption | apply State.flowStop_keeps | refine ite_keeps ?_ ?_

theorem execFlowStopForcedHalt_keeps {a0 s : State} (h : Keeps a0 s) {p : PartNo} {r_ : State} (he : execFlowStopForcedHalt p s = .next r_) : Keeps a0 r_ := by
  unfold execFlowStopForcedHalt at he
  try dsimp only at he
  refine next_keeps he ?_
  clear he
  with_reducible repeat' first
      | assumption | apply State.updPart_keeps | apply State.till_keeps | apply State.hwr_keeps | apply State.stopped_keeps
      | apply State.haltNow_keeps | apply State.mapTiles_keeps | refine ite_keeps ?_ ?_ | (intro _; try dsimp only) | split

theorem execFlowStopEnd_keeps {a0 s : State} (h : Keeps a0 s) {pin : Bool} {r_ : State} (he : execFlowStopEnd pin s = .next r_) : Keeps a0 r_ := by
  unfold execFlowStopEnd at he
  try dsimp only at he
  refine next_keeps he ?_
  clear he
  with_reducible repeat' first
      | assumption | apply State.till_keeps | apply State.hwr_keeps | apply State.event_keeps | apply State.setClocks_keeps
      | apply State.setLimit_keeps | refine foldl_keeps ?_ _ _ ?_ | refine ite_keeps ?_ ?_ | (intro _; try dsimp only) | split

theorem State.noteHot_keeps {a0 s : State} (h : Keeps a0 s) {n h : Nat} {x : HotTimers} {r : HotRead} {aOk bOk : Bool} : Keeps a0 (State.noteHot s n h x r aOk bOk) := by
  unfold State.noteHot
  try dsimp only
  with_reducible repeat' first
      | assumption | apply State.wr_keeps | (intro _; try dsimp only) | split

theorem State.throttleTile_keeps {a0 s : State} (h : Keeps a0 s) {n t : Nat} : Keeps a0 (State.throttleTile s n t) := by
  unfold State.throttleTile
  try dsimp only
  with_reducible repeat' first
      | assumption | apply State.setHot_keeps

theorem State.hotUpdate_keeps {a0 s : State} (h : Keeps a0 s) {n : Nat} {r : HotRead} : Keeps a0 (State.hotUpdate s n r) := by
  unfold State.hotUpdate
  try dsimp only
  with_reducible repeat' first
      | assumption | apply State.wr_keeps | apply State.inc_keeps | apply State.raise_keeps | apply State.bb_keeps | apply State.setHot_keeps
      | apply State.noteHot_keeps | apply State.throttleTile_keeps | refine foldl_keeps ?_ _ _ ?_ | refine ite_keeps ?_ ?_ | (intro _; try dsimp only)

theorem State.noteHottest_keeps {a0 s : State} (h : Keeps a0 s)  : Keeps a0 (State.noteHottest s) := by
  unfold State.noteHottest
  try dsimp only
  with_reducible repeat' first
      | assumption | apply State.hwr_keeps | refine foldl_keeps ?_ _ _ ?_ | refine foldl_keeps_fst ?_ _ _ ?_ | refine ite_keeps ?_ ?_
      | (intro _; try dsimp only) | split

theorem execHotspotUpdate_keeps {a0 s : State} (h : Keeps a0 s) {n : NodeNo} {rs : List HotRead} {r_ : State} (he : execHotspotUpdate n rs s = .next r_) : Keeps a0 r_ := by
  unfold execHotspotUpdate at he
  try dsimp only at he
  refine next_keeps he ?_
  clear he
  with_reducible repeat' first
      | assumption | apply State.setClocks_keeps | apply State.hotUpdate_keeps | apply State.noteHottest_keeps | refine foldl_keeps ?_ _ _ ?_
      | refine ite_keeps ?_ ?_ | (intro _; try dsimp only)

theorem execThrottleRecoveryStep_keeps {a0 s : State} (h : Keeps a0 s) {n : NodeNo} {r_ : State} (he : execThrottleRecoveryStep n s = .next r_) : Keeps a0 r_ := by
  unfold execThrottleRecoveryStep at he
  try dsimp only at he
  refine next_keeps he ?_
  clear he
  with_reducible repeat' first
      | assumption | apply State.wr_keeps | apply State.setClocks_keeps | apply State.setHot_keeps | refine foldl_keeps ?_ _ _ ?_
      | refine ite_keeps ?_ ?_ | (intro _; try dsimp only)

theorem execSnTemperatureChange_keeps {a0 s : State} (h : Keeps a0 s) {k : StackNo} {temp : Byte} {r_ : State} (he : execSnTemperatureChange k temp s = .next r_) : Keeps a0 r_ := by
  unfold execSnTemperatureChange at he
  try dsimp only at he
  refine next_keeps he ?_
  clear he
  with_reducible repeat' first
      | assumption | apply State.setStack_keeps | apply State.report_keeps | apply State.event_keeps | apply State.haltRequest_keeps
      | refine ite_keeps ?_ ?_

/-- A trip's power-off, with the words that stay readable. -/
theorem trip_keeps {a s : State} (h : Keeps a s) {kept : Table W32} {f : Hub → Hub} {o1 o2 : Out}
    (h1 : ∀ x : Hub, x.bbx.hub.perm <+: (f x).bbx.hub.perm) (h2 : ∀ x : Hub, x.bbx.east.perm <+: (f x).bbx.east.perm) :
    Keeps a ((((({ s with regs := kept.foldl (fun (t : Table W32) (kv : Nat × W32) => t.put 0 kv.1 kv.2) s.regs } : State).updHub f).emit o1).emit o2)) := by
  refine State.emit_keeps (State.emit_keeps (State.updHub_keeps (State.regs_keeps h fun c => ?_) (h1 _) (h2 _)))
  exact Table.foldl_put_wf (fun kv : Nat × W32 => kv.1) (fun kv _ => kv.2) _ _ c

theorem execHardTrip_keeps {a0 s : State} (h : Keeps a0 s) {at_ : TripAt} {r_ : State} (he : execHardTrip at_ s = .next r_) : Keeps a0 r_ := by
  unfold execHardTrip at he
  refine next_keeps he ?_
  clear he
  refine ite_keeps h ?_
  refine trip_keeps (State.cold_keeps (State.powerLoss_keeps (State.hwr_keeps ?_))) (fun _ => List.prefix_rfl) (fun _ => List.prefix_rfl)
  cases at_ with
  | outlet => exact State.bb_keeps h
  | spot n k b =>
    dsimp only
    split
    · exact ite_keeps (State.bb_keeps (State.bb_keeps h)) (State.bb_keeps h)
    · exact State.bb_keeps h

/-! ### SecInsn -/

theorem State.updRot_keeps {a0 s : State} (h : Keeps a0 s) {f : Rot → Rot} : Keeps a0 (State.updRot s f) := by
  unfold State.updRot
  try dsimp only
  with_reducible repeat' first
      | assumption | exact List.prefix_rfl | apply State.updHub_keeps | (intro _; try dsimp only) | dsimp only

theorem State.setSessions_keeps {a0 s : State} (h : Keeps a0 s) {v : SpdmVia} {l : List Nat} : Keeps a0 (State.setSessions s v l) := by
  unfold State.setSessions
  try dsimp only
  with_reducible repeat' first
      | assumption | exact List.prefix_rfl | apply State.updFn_keeps | apply State.updRot_keeps | (intro _; try dsimp only) | split

theorem State.ideMessage_keeps {a0 s : State} (h : Keeps a0 s) {v : SpdmVia} {n stream : Nat} {op : IdeOp} : Keeps a0 (State.ideMessage s v n stream op).1 := by
  unfold State.ideMessage
  try dsimp only
  with_reducible repeat' first
      | assumption | apply State.updPort_keeps | refine ite_keeps ?_ ?_ | refine ite_keeps_fst ?_ ?_ | (intro _; try dsimp only) | split

theorem execSpdmRequest_keeps {a0 s : State} (h : Keeps a0 s) {v : SpdmVia} {req : SpdmReq} {r_ : State} (he : execSpdmRequest v req s = .next r_) : Keeps a0 r_ := by
  unfold execSpdmRequest at he
  try dsimp only at he
  refine next_keeps he ?_
  clear he
  with_reducible repeat' first
      | assumption | apply State.emit_keeps | apply State.answer_keeps | apply State.setSessions_keeps | apply State.ideMessage_keeps
      | refine ite_keeps ?_ ?_ | (intro _; try dsimp only) | split

theorem State.keyReq_keeps {a0 s : State} (h : Keeps a0 s) {v : SpdmVia} {n : Nat} {code : Nat} {ok : Bool} {act : State → State × List Byte} (hact : ∀ x0, Keeps a0 x0 → Keeps a0 (act x0).1) : Keeps a0 (State.keyReq s v n code ok act) := by
  unfold State.keyReq
  try dsimp only
  with_reducible repeat' first
      | assumption | apply hact | apply State.emit_keeps | refine ite_keeps ?_ ?_

theorem execPqEndorse_keeps {a0 s : State} (h : Keeps a0 s) {v : SpdmVia} {n : Fin 4} {nonce : BitVec 256} {r_ : State} (he : execPqEndorse v n nonce s = .next r_) : Keeps a0 r_ := by
  unfold execPqEndorse at he
  try dsimp only at he
  refine next_keeps he ?_
  clear he
  with_reducible repeat' first
      | assumption | apply State.keyReq_keeps | (intro _; try dsimp only)

theorem execKemGet_keeps {a0 s : State} (h : Keeps a0 s) {f : Fin 50} {n : Fin 4} {r_ : State} (he : execKemGet f n s = .next r_) : Keeps a0 r_ := by
  unfold execKemGet at he
  try dsimp only at he
  refine next_keeps he ?_
  clear he
  with_reducible repeat' first
      | assumption | exact List.prefix_rfl | apply State.drawKey_keeps | apply State.updRot_keeps | apply State.keyReq_keeps
      | (intro _; try dsimp only)

theorem execOwnerBind_keeps {a0 s : State} (h : Keeps a0 s) {f : Fin 50} {n : Fin 4} {id : BitVec 384} {ct : List Byte} {r_ : State} (he : execOwnerBind f n id ct s = .next r_) : Keeps a0 r_ := by
  unfold execOwnerBind at he
  try dsimp only at he
  refine next_keeps he ?_
  clear he
  with_reducible repeat' first
      | assumption | exact List.prefix_rfl | apply State.emit_keeps | apply State.drawn_keeps | apply State.hwr_keeps | apply State.measurePart_keeps
      | apply State.updRot_keeps | apply State.keyReq_keeps | refine ite_keeps ?_ ?_ | (intro _; try dsimp only)

theorem execNkSet_keeps {a0 s : State} (h : Keeps a0 s) {v : SpdmVia} {n : Fin 4} {p : PartNo} {i : Fin 16} {key : BitVec 256} {macOk wrapOk : Bool} {r_ : State} (he : execNkSet v n p i key macOk wrapOk s = .next r_) : Keeps a0 r_ := by
  unfold execNkSet at he
  try dsimp only at he
  refine next_keeps he ?_
  clear he
  with_reducible repeat' first
      | assumption | exact List.prefix_rfl | apply State.setReg_keeps | apply State.updRot_keeps | apply State.keyReq_keeps
      | (intro _; try dsimp only)

theorem execNkClear_keeps {a0 s : State} (h : Keeps a0 s) {v : SpdmVia} {n : Fin 4} {p : PartNo} {i : Fin 16} {macOk : Bool} {r_ : State} (he : execNkClear v n p i macOk s = .next r_) : Keeps a0 r_ := by
  unfold execNkClear at he
  try dsimp only at he
  refine next_keeps he ?_
  clear he
  with_reducible repeat' first
      | assumption | exact List.prefix_rfl | apply State.setReg_keeps | apply State.connError_keeps | apply State.updRot_keeps
      | apply State.keyReq_keeps | refine foldl_keeps ?_ _ _ ?_ | refine foldl_keeps_fst ?_ _ _ ?_ | (intro _; try dsimp only)

theorem State.scrub_keeps {a0 s : State} (h : Keeps a0 s) {p : Nat} : Keeps a0 (State.scrub s p) := by
  unfold State.scrub
  try dsimp only
  with_reducible repeat' first
      | assumption | apply State.mapTiles_keeps | apply State.mapStacks_keeps | apply State.drawKey_keeps | (intro _; try dsimp only)

theorem execOwnerRelease_keeps {a0 s : State} (h : Keeps a0 s) {v : SpdmVia} {n : Fin 4} {p : PartNo} {macOk : Bool} {r_ : State} (he : execOwnerRelease v n p macOk s = .next r_) : Keeps a0 r_ := by
  unfold execOwnerRelease at he
  try dsimp only at he
  refine next_keeps he ?_
  clear he
  with_reducible repeat' first
      | assumption | apply State.resetPart_keeps | apply State.dropOwner_keeps | apply State.keyReq_keeps | apply State.scrub_keeps
      | (intro _; try dsimp only)

theorem execKpStatus_keeps {a0 s : State} (h : Keeps a0 s) {v : SpdmVia} {n : Fin 4} {p : PartNo} {r_ : State} (he : execKpStatus v n p s = .next r_) : Keeps a0 r_ := by
  unfold execKpStatus at he
  try dsimp only at he
  refine next_keeps he ?_
  clear he
  with_reducible repeat' first
      | assumption | apply State.keyReq_keeps | (intro _; try dsimp only) | split

theorem execCakSet_keeps {a0 s : State} (h : Keeps a0 s) {v : SpdmVia} {n : Fin 4} {key : BitVec 256} {r_ : State} (he : execCakSet v n key s = .next r_) : Keeps a0 r_ := by
  unfold execCakSet at he
  try dsimp only at he
  refine next_keeps he ?_
  clear he
  with_reducible repeat' first
      | assumption | exact List.prefix_rfl | apply State.updRot_keeps | apply State.keyReq_keeps | (intro _; try dsimp only) | split

theorem State.applyLayout_keeps {a0 s : State} (h : Keeps a0 s) {es : List LayoutEntry} {addrs : List (BitVec 192)} {hash : BitVec 384} : Keeps a0 (State.applyLayout s es addrs hash) := by
  unfold State.applyLayout
  try dsimp only
  with_reducible repeat' first
      | assumption | exact List.prefix_rfl | apply State.hwr_keeps | apply State.formPart_keeps | apply State.dissolvePart_keeps
      | apply State.updRot_keeps | refine foldl_keeps ?_ _ _ ?_ | refine foldl_keeps_fst ?_ _ _ ?_ | refine ite_keeps ?_ ?_
      | (intro _; try dsimp only)

theorem State.policyEnd_keeps {a0 s : State} (h : Keeps a0 s) {j : PolicyJob} {reason : Nat} : Keeps a0 (State.policyEnd s j reason) := by
  unfold State.policyEnd
  try dsimp only
  with_reducible repeat' first
      | assumption | exact List.prefix_rfl | apply State.hwr_keeps | apply State.endCmd_keeps | apply State.updRot_keeps | refine ite_keeps ?_ ?_
      | (intro _; try dsimp only) | split

theorem State.policyPump_keeps {a0 s : State} (h : Keeps a0 s)  : ∀ x, Keeps a0 (State.policyPump s x)
  | 0 => by
    unfold State.policyPump
    try dsimp only
    with_reducible repeat' first
      | assumption | apply State.policyEnd_keeps | apply State.policyPump_keeps | split
  | n + 1 => by
    unfold State.policyPump
    try dsimp only
    with_reducible repeat' first
      | assumption | apply State.policyEnd_keeps | apply State.policyPump_keeps | split

theorem State.policyArrive_keeps {a0 s : State} (h : Keeps a0 s) {j : PolicyJob} : Keeps a0 (State.policyArrive s j) := by
  unfold State.policyArrive
  try dsimp only
  with_reducible repeat' first
      | assumption | exact List.prefix_rfl | apply State.updRot_keeps | apply State.policyPump_keeps | (intro _; try dsimp only)

theorem execPolicy_keeps {a0 s : State} (h : Keeps a0 s) {f : Fin 50} {q : Fin 8} {tag : W16} {pkt : Option PolicyPkt} {r_ : State} (he : execPolicy f q tag pkt s = .next r_) : Keeps a0 r_ := by
  unfold execPolicy at he
  try dsimp only at he
  refine next_keeps he ?_
  clear he
  with_reducible repeat' first
      | assumption | apply State.endCmd_keeps | apply State.begin_keeps | apply State.fwRun_keeps | apply State.policyArrive_keeps
      | refine ite_keeps ?_ ?_ | (intro _; try dsimp only) | split

theorem State.policyApply_keeps {a0 s : State} (h : Keeps a0 s) {kind : Nat} {act : State → PolicyPkt → State} (hact : ∀ x0 x1, Keeps a0 x0 → Keeps a0 (act x0 x1)) : Keeps a0 (State.policyApply s kind act) := by
  unfold State.policyApply
  try dsimp only
  with_reducible repeat' first
      | assumption | exact List.prefix_rfl | apply hact | apply State.hwr_keeps | apply State.bb_keeps | apply State.measure_keeps
      | apply State.updRot_keeps | apply State.policyEnd_keeps | apply State.policyPump_keeps | refine ite_keeps ?_ ?_ | (intro _; try dsimp only)
      | split

theorem State.setRoles_keeps {a0 s : State} (h : Keeps a0 s) {p : PolicyPkt} : Keeps a0 (State.setRoles s p) := by
  unfold State.setRoles
  try dsimp only
  with_reducible repeat' first
      | assumption | exact List.prefix_rfl | apply State.hwr_keeps | apply State.updRot_keeps | refine foldl_keeps ?_ _ _ ?_
      | refine foldl_keeps_fst ?_ _ _ ?_ | (intro _; try dsimp only) | split

theorem execBindRoles_keeps {a0 s : State} (h : Keeps a0 s)  {r_ : State} (he : execBindRoles s = .next r_) : Keeps a0 r_ := by
  unfold execBindRoles at he
  try dsimp only at he
  refine next_keeps he ?_
  clear he
  with_reducible repeat' first
      | assumption | apply State.policyApply_keeps | apply State.setRoles_keeps | (intro _; try dsimp only)

theorem execRotateRoles_keeps {a0 s : State} (h : Keeps a0 s)  {r_ : State} (he : execRotateRoles s = .next r_) : Keeps a0 r_ := by
  unfold execRotateRoles at he
  try dsimp only at he
  refine next_keeps he ?_
  clear he
  with_reducible repeat' first
      | assumption | apply State.policyApply_keeps | apply State.setRoles_keeps | (intro _; try dsimp only)

theorem execLayoutPkt_keeps {a0 s : State} (h : Keeps a0 s)  {r_ : State} (he : execLayoutPkt s = .next r_) : Keeps a0 r_ := by
  unfold execLayoutPkt at he
  try dsimp only at he
  refine next_keeps he ?_
  clear he
  with_reducible repeat' first
      | assumption | apply State.applyLayout_keeps | apply State.policyApply_keeps | (intro _; try dsimp only) | split

theorem State.eraseKeys_keeps {a0 s : State} (h : Keeps a0 s)  : Keeps a0 (State.eraseKeys s) := by
  unfold State.eraseKeys
  try dsimp only
  with_reducible repeat' first
      | assumption | exact List.prefix_rfl | apply State.hwr_keeps | apply State.connError_keeps | apply State.updRot_keeps
      | refine foldl_keeps ?_ _ _ ?_ | refine foldl_keeps_fst ?_ _ _ ?_ | (intro _; try dsimp only)

theorem State.debugFull_keeps {a0 s : State} (h : Keeps a0 s)  : Keeps a0 (State.debugFull s) := by
  unfold State.debugFull
  try dsimp only
  with_reducible repeat' first
      | assumption | exact List.prefix_rfl | apply State.hwr_keeps | apply State.mapStacks_keeps | apply State.drawKey_keeps
      | apply State.dissolvePart_keeps | apply State.updRot_keeps | apply State.eraseKeys_keeps | refine foldl_keeps ?_ _ _ ?_
      | refine foldl_keeps_fst ?_ _ _ ?_ | (intro _; try dsimp only)

theorem execDebugUnlock_keeps {a0 s : State} (h : Keeps a0 s)  {r_ : State} (he : execDebugUnlock s = .next r_) : Keeps a0 r_ := by
  unfold execDebugUnlock at he
  try dsimp only at he
  refine next_keeps he ?_
  clear he
  with_reducible repeat' first
      | assumption | apply State.hwr_keeps | apply State.policyApply_keeps | apply State.debugFull_keeps | refine ite_keeps ?_ ?_
      | (intro _; try dsimp only) | split

theorem execFwPolicy_keeps {a0 s : State} (h : Keeps a0 s)  {r_ : State} (he : execFwPolicy s = .next r_) : Keeps a0 r_ := by
  unfold execFwPolicy at he
  try dsimp only at he
  refine next_keeps he ?_
  clear he
  with_reducible repeat' first
      | assumption | apply State.hwr_keeps | apply State.policyApply_keeps | (intro _; try dsimp only) | split

theorem execFuseWrite_keeps {a0 s : State} (h : Keeps a0 s)  {r_ : State} (he : execFuseWrite s = .next r_) : Keeps a0 r_ := by
  unfold execFuseWrite at he
  try dsimp only at he
  refine next_keeps he ?_
  clear he
  with_reducible repeat' first
      | assumption | exact List.prefix_rfl | apply State.hwr_keeps | apply State.updRot_keeps | apply State.policyApply_keeps
      | (intro _; try dsimp only) | split

theorem execRecordClear_keeps {a0 s : State} (h : Keeps a0 s)  {r_ : State} (he : execRecordClear s = .next r_) : Keeps a0 r_ := by
  unfold execRecordClear at he
  try dsimp only at he
  refine next_keeps he ?_
  clear he
  with_reducible repeat' first
      | assumption | exact List.prefix_rfl | apply State.updRot_keeps | apply State.policyApply_keeps | (intro _; try dsimp only) | split

theorem execKeyHierarchy_keeps {a0 s : State} (h : Keeps a0 s)  {r_ : State} (he : execKeyHierarchy s = .next r_) : Keeps a0 r_ := by
  unfold execKeyHierarchy at he
  try dsimp only at he
  refine next_keeps he ?_
  clear he
  with_reducible repeat' first
      | assumption | exact List.prefix_rfl | apply State.inc_keeps | apply State.updRot_keeps | apply State.policyApply_keeps | refine ite_keeps ?_ ?_
      | (intro _; try dsimp only)

theorem execRwqWrite_keeps {a0 s : State} (h : Keeps a0 s)  {r_ : State} (he : execRwqWrite s = .next r_) : Keeps a0 r_ := by
  unfold execRwqWrite at he
  try dsimp only at he
  refine next_keeps he ?_
  clear he
  with_reducible repeat' first
      | assumption | apply State.hwr_keeps | apply State.policyApply_keeps | (intro _; try dsimp only) | split

theorem execPolCounterLoRead_keeps {a0 s : State} (h : Keeps a0 s)  {r_ : State} (he : execPolCounterLoRead s = .next r_) : Keeps a0 r_ := by
  unfold execPolCounterLoRead at he
  try dsimp only at he
  refine next_keeps he ?_
  clear he
  with_reducible repeat' first
      | assumption | apply State.pairRead_keeps | refine ite_keeps ?_ ?_

/-! ### MgmtInsn -/

theorem execScoreKick_keeps {a0 s : State} (h : Keeps a0 s)  {r_ : State} (he : execScoreKick s = .next r_) : Keeps a0 r_ := by
  unfold execScoreKick at he
  try dsimp only at he
  refine next_keeps he ?_
  clear he
  with_reducible repeat' first
      | assumption | exact List.prefix_rfl | apply State.updHub_keeps | refine ite_keeps ?_ ?_ | (intro _; try dsimp only) | dsimp only

theorem State.mbaDrop_keeps {a0 s : State} (h : Keeps a0 s) {f : Nat} : Keeps a0 (State.mbaDrop s f) := by
  unfold State.mbaDrop
  try dsimp only
  with_reducible repeat' first
      | assumption | apply State.updFn_keeps | apply State.wr_keeps | apply State.mbaIrq_keeps | refine ite_keeps ?_ ?_ | (intro _; try dsimp only)

theorem State.mbbDrop_keeps {a0 s : State} (h : Keeps a0 s) {k m : Nat} : Keeps a0 (State.mbbDrop s k m) := by
  unfold State.mbbDrop
  try dsimp only
  with_reducible repeat' first
      | assumption | apply State.mbbEnd_keeps | refine ite_keeps ?_ ?_

theorem State.fwRestart_keeps {a0 s : State} (h : Keeps a0 s)  : Keeps a0 (State.fwRestart s) := by
  unfold State.fwRestart
  try dsimp only
  with_reducible repeat' first
      | assumption | exact List.prefix_rfl | apply State.updFn_keeps | apply State.inc_keeps | apply State.updHub_keeps | apply State.bb_keeps
      | apply State.endCmd_keeps | apply State.cocoon_keeps | apply State.updRot_keeps | apply State.mbaDrop_keeps | apply State.mbbDrop_keeps
      | refine foldl_keeps ?_ _ _ ?_ | refine foldl_keeps_fst ?_ _ _ ?_ | refine ite_keeps ?_ ?_ | (intro _; try dsimp only) | dsimp only

theorem execScoreWatchdogExpiry_keeps {a0 s : State} (h : Keeps a0 s)  {r_ : State} (he : execScoreWatchdogExpiry s = .next r_) : Keeps a0 r_ := by
  unfold execScoreWatchdogExpiry at he
  try dsimp only at he
  refine next_keeps he ?_
  clear he
  with_reducible repeat' first
      | assumption | apply State.till_keeps | apply State.fwRestart_keeps | refine ite_keeps ?_ ?_

theorem execFwUnrecoverableError_keeps {a0 s : State} (h : Keeps a0 s)  {r_ : State} (he : execFwUnrecoverableError s = .next r_) : Keeps a0 r_ := by
  unfold execFwUnrecoverableError at he
  try dsimp only at he
  refine next_keeps he ?_
  clear he
  with_reducible repeat' first
      | assumption | apply State.fwRestart_keeps | refine ite_keeps ?_ ?_

theorem execFwRestarted_keeps {a0 s : State} (h : Keeps a0 s)  {r_ : State} (he : execFwRestarted s = .next r_) : Keeps a0 r_ := by
  unfold execFwRestarted at he
  try dsimp only at he
  refine next_keeps he ?_
  clear he
  with_reducible repeat' first
      | assumption | exact List.prefix_rfl | apply State.updHub_keeps | apply State.mbaPfs_keeps | refine foldl_keeps ?_ _ _ ?_
      | refine foldl_keeps_fst ?_ _ _ ?_ | refine ite_keeps ?_ ?_ | (intro _; try dsimp only) | dsimp only

theorem execScoreMismatch_keeps {a0 s : State} (h : Keeps a0 s)  {r_ : State} (he : execScoreMismatch s = .next r_) : Keeps a0 r_ := by
  unfold execScoreMismatch at he
  try dsimp only at he
  refine next_keeps he ?_
  clear he
  with_reducible repeat' first
      | assumption | exact List.prefix_rfl | apply State.inc_keeps | apply State.updHub_keeps | apply State.mismatchAt_keeps | apply State.bb_keeps
      | apply State.cocoon_keeps | refine ite_keeps ?_ ?_ | (intro _; try dsimp only) | split | dsimp only

theorem execShedLevelEval_keeps {a0 s : State} (h : Keeps a0 s) {c0 c1 c2 c3 : Fin 101} {r_ : State} (he : execShedLevelEval c0 c1 c2 c3 s = .next r_) : Keeps a0 r_ := by
  unfold execShedLevelEval at he
  try dsimp only at he
  refine next_keeps he ?_
  clear he
  with_reducible repeat' first
      | assumption | apply State.hwr_keeps | apply State.bb_keeps | apply State.mbaPfs_keeps | refine ite_keeps ?_ ?_

theorem execTelemetryWrite_keeps {a0 s : State} (h : Keeps a0 s)  {r_ : State} (he : execTelemetryWrite s = .next r_) : Keeps a0 r_ := by
  unfold execTelemetryWrite at he
  try dsimp only at he
  refine next_keeps he ?_
  clear he
  with_reducible repeat' first
      | assumption | exact List.prefix_rfl | apply State.till_keeps | apply State.hwr_keeps | apply State.updHub_keeps | refine ite_keeps ?_ ?_
      | (intro _; try dsimp only) | dsimp only

theorem execMctpSetEndpointId_keeps {a0 s : State} (h : Keeps a0 s) {eid : Byte} {r_ : State} (he : execMctpSetEndpointId eid s = .next r_) : Keeps a0 r_ := by
  unfold execMctpSetEndpointId at he
  try dsimp only at he
  refine next_keeps he ?_
  clear he
  with_reducible repeat' first
      | assumption | exact List.prefix_rfl | apply State.updHub_keeps | refine ite_keeps ?_ ?_ | (intro _; try dsimp only) | dsimp only

theorem State.vdm_keeps {a0 s : State} (h : Keeps a0 s) {code : Nat} {bs : List Byte} : Keeps a0 (State.vdm s code bs) := by
  unfold State.vdm
  try dsimp only
  with_reducible repeat' first
      | assumption | apply State.emit_keeps

theorem execVdmRegRead_keeps {a0 s : State} (h : Keeps a0 s) {off : BitVec 24} {n : Nat} {r_ : State} (he : execVdmRegRead off n s = .next r_) : Keeps a0 r_ := by
  unfold execVdmRegRead at he
  try dsimp only at he
  refine next_keeps he ?_
  clear he
  with_reducible repeat' first
      | assumption | apply State.latch_keeps | apply State.vdm_keeps | refine ite_keeps ?_ ?_ | (intro _; try dsimp only)

theorem execVdmRegWrite_keeps {a0 s : State} (h : Keeps a0 s) {t : VdmTarget} {v : W32} {r_ : State} (he : execVdmRegWrite t v s = .next r_) : Keeps a0 r_ := by
  unfold execVdmRegWrite at he
  try dsimp only at he
  refine next_keeps he ?_
  clear he
  with_reducible repeat' first
      | assumption | apply State.hwr_keeps | apply State.writeWord_keeps | apply State.vdm_keeps | refine ite_keeps ?_ ?_ | split

theorem execVdmBbInfo_keeps {a0 s : State} (h : Keeps a0 s)  {r_ : State} (he : execVdmBbInfo s = .next r_) : Keeps a0 r_ := by
  unfold execVdmBbInfo at he
  try dsimp only at he
  refine next_keeps he ?_
  clear he
  with_reducible repeat' first
      | assumption | apply State.vdm_keeps | refine ite_keeps ?_ ?_ | (intro _; try dsimp only)

theorem execVdmBbRead_keeps {a0 s : State} (h : Keeps a0 s) {copy : Byte} {first : W32} {n : Byte} {r_ : State} (he : execVdmBbRead copy first n s = .next r_) : Keeps a0 r_ := by
  unfold execVdmBbRead at he
  try dsimp only at he
  refine next_keeps he ?_
  clear he
  with_reducible repeat' first
      | assumption | apply State.vdm_keeps | refine ite_keeps ?_ ?_ | (intro _; try dsimp only)

theorem execVdmCocoon_keeps {a0 s : State} (h : Keeps a0 s)  {r_ : State} (he : execVdmCocoon s = .next r_) : Keeps a0 r_ := by
  unfold execVdmCocoon at he
  try dsimp only at he
  refine next_keeps he ?_
  clear he
  with_reducible repeat' first
      | assumption | apply State.cocoonAsked_keeps | apply State.vdm_keeps | refine ite_keeps ?_ ?_

theorem execVdmWarmReset_keeps {a0 s : State} (h : Keeps a0 s)  {r_ : State} (he : execVdmWarmReset s = .next r_) : Keeps a0 r_ := by
  unfold execVdmWarmReset at he
  try dsimp only at he
  refine next_keeps he ?_
  clear he
  with_reducible repeat' first
      | assumption | apply State.warm_keeps | apply State.vdm_keeps | refine ite_keeps ?_ ?_

theorem execVdmPolicyChunk_keeps {a0 s : State} (h : Keeps a0 s) {off : Nat} {bs : List Byte} {last : Option PolicyPkt} {r_ : State} (he : execVdmPolicyChunk off bs last s = .next r_) : Keeps a0 r_ := by
  unfold execVdmPolicyChunk at he
  try dsimp only at he
  refine next_keeps he ?_
  clear he
  with_reducible repeat' first
      | assumption | exact List.prefix_rfl | apply State.updRot_keeps | apply State.policyArrive_keeps | apply State.vdm_keeps
      | refine ite_keeps ?_ ?_ | (intro _; try dsimp only) | split

theorem State.updSlot_keeps {a0 s : State} (h : Keeps a0 s) {f : FwSlot → FwSlot} : Keeps a0 (State.updSlot s f) := by
  unfold State.updSlot
  try dsimp only
  with_reducible repeat' first
      | assumption | exact List.prefix_rfl | apply State.updHub_keeps | refine foldl_keeps ?_ _ _ ?_ | refine ite_keeps ?_ ?_
      | refine ite_keeps_fst ?_ ?_ | (intro _; try dsimp only) | split | dsimp only
      | (simp only [Bbx.stage_hub, Bbx.stage_east]; exact List.prefix_rfl) | exact Mram.record_perm | apply State.ctlq_keeps
      | apply State.hubctl_keeps | apply State.hub_keeps | apply State.nodes_keeps

theorem execPldmFwData_keeps {a0 s : State} (h : Keeps a0 s) {off : Nat} {bs : List Byte} {r_ : State} (he : execPldmFwData off bs s = .next r_) : Keeps a0 r_ := by
  unfold execPldmFwData at he
  try dsimp only at he
  refine next_keeps he ?_
  clear he
  with_reducible repeat' first
      | assumption | apply State.vdm_keeps | apply State.updSlot_keeps | refine ite_keeps ?_ ?_ | (intro _; try dsimp only)

theorem execPldmVerifyComplete_keeps {a0 s : State} (h : Keeps a0 s) {sigOk : Bool} {svn : W16} {signer : Fin 4} {opSig : Bool} {r_ : State} (he : execPldmVerifyComplete sigOk svn signer opSig s = .next r_) : Keeps a0 r_ := by
  unfold execPldmVerifyComplete at he
  try dsimp only at he
  refine next_keeps he ?_
  clear he
  with_reducible repeat' first
      | assumption | apply State.vdm_keeps | apply State.updSlot_keeps | refine ite_keeps ?_ ?_ | (intro _; try dsimp only)

theorem execPldmActivateFirmware_keeps {a0 s : State} (h : Keeps a0 s) {selfContained : Bool} {r_ : State} (he : execPldmActivateFirmware selfContained s = .next r_) : Keeps a0 r_ := by
  unfold execPldmActivateFirmware at he
  try dsimp only at he
  refine next_keeps he ?_
  clear he
  with_reducible repeat' first
      | assumption | apply State.vdm_keeps | refine ite_keeps ?_ ?_

theorem execRepairReport_keeps {a0 s : State} (h : Keeps a0 s)  {r_ : State} (he : execRepairReport s = .next r_) : Keeps a0 r_ := by
  unfold execRepairReport at he
  try dsimp only at he
  refine next_keeps he ?_
  clear he
  with_reducible repeat' first
      | assumption | exact List.prefix_rfl | apply State.updHub_keeps | apply State.bb_keeps | apply State.mramAppend_keeps | refine ite_keeps ?_ ?_
      | (intro _; try dsimp only) | split | dsimp only

theorem execServiceSpiRead_keeps {a0 s : State} (h : Keeps a0 s) {east low : Bool} {off : BitVec 26} {n : Fin 65} {r_ : State} (he : execServiceSpiRead east low off n s = .next r_) : Keeps a0 r_ := by
  unfold execServiceSpiRead at he
  try dsimp only at he
  refine next_keeps he ?_
  clear he
  with_reducible repeat' first
      | assumption | apply State.emit_keeps | apply State.drawn_keeps | refine ite_keeps ?_ ?_ | (intro _; try dsimp only)

theorem State.debugWrite_keeps {a0 s : State} (h : Keeps a0 s) {a : DebugAccess} : Keeps a0 (State.debugWrite s a) := by
  unfold State.debugWrite
  try dsimp only
  with_reducible repeat' first
      | assumption | exact List.prefix_rfl | apply State.updTile_keeps | apply State.updStack_keeps | apply State.updHub_keeps
      | refine ite_keeps ?_ ?_ | (intro _; try dsimp only) | split | dsimp only

theorem execProboscisAccess_keeps {a0 s : State} (h : Keeps a0 s) {a : DebugAccess} {r_ : State} (he : execProboscisAccess a s = .next r_) : Keeps a0 r_ := by
  unfold execProboscisAccess at he
  try dsimp only at he
  refine next_keeps he ?_
  clear he
  with_reducible repeat' first
      | assumption | apply State.emit_keeps | apply State.drawn_keeps | apply State.debugWrite_keeps | refine ite_keeps ?_ ?_

end Sys2Proof.Machine
end

