-- ==== Sys2Proof/Laws/Regs.lean ====
section
/-! SUPPORT. Register fields: a read after a write of the same field, of another field of the register, of another register. -/

namespace Sys2Proof.Machine

/-- A number split at a field. -/
theorem nat_split (w hi lo : Nat) (hlo : lo ≤ hi) :
    w = w / 2 ^ (hi + 1) * 2 ^ (hi + 1) + (w >>> lo % 2 ^ (hi + 1 - lo)) * 2 ^ lo + w % 2 ^ lo := by
  have e : 2 ^ (hi + 1) = 2 ^ lo * 2 ^ (hi + 1 - lo) := by rw [← pow_add]; congr 1; omega
  rw [Nat.shiftRight_eq_div_pow]
  have h1 := Nat.div_add_mod w (2 ^ lo)
  have h2 := Nat.div_add_mod (w / 2 ^ lo) (2 ^ (hi + 1 - lo))
  rw [Nat.div_div_eq_div_mul, ← e] at h2
  rw [e]
  rw [e] at h2
  have h3 := congrArg (fun x => 2 ^ lo * x) h2
  simp only [Nat.mul_add] at h3
  nlinarith [h1, h3]

/-- The number that setFld builds. -/
theorem setFld_toNat {n : Nat} (w : BitVec n) (hi lo v : Nat) (hlo : lo ≤ hi) (hn : hi < n) :
    (setFld w hi lo v).toNat = w.toNat / 2 ^ (hi + 1) * 2 ^ (hi + 1) + (v % 2 ^ (hi + 1 - lo)) * 2 ^ lo + w.toNat % 2 ^ lo := by
  have e : 2 ^ (hi + 1) = 2 ^ lo * 2 ^ (hi + 1 - lo) := by rw [← pow_add]; congr 1; omega
  have en : 2 ^ n = 2 ^ (hi + 1) * 2 ^ (n - (hi + 1)) := by rw [← pow_add]; congr 1; omega
  have hs := nat_split w.toNat hi lo hlo
  unfold setFld
  have hf : fld w hi lo = w.toNat >>> lo % 2 ^ (hi + 1 - lo) := rfl
  rw [hf, BitVec.toNat_ofNat]
  have hle : w.toNat - (w.toNat >>> lo % 2 ^ (hi + 1 - lo)) * 2 ^ lo = w.toNat / 2 ^ (hi + 1) * 2 ^ (hi + 1) + w.toNat % 2 ^ lo := by
    omega
  rw [hle]
  have hv : v % 2 ^ (hi + 1 - lo) + 1 ≤ 2 ^ (hi + 1 - lo) := Nat.mod_lt _ (by positivity)
  have hm : w.toNat % 2 ^ lo + 1 ≤ 2 ^ lo := Nat.mod_lt _ (by positivity)
  have hA : w.toNat / 2 ^ (hi + 1) + 1 ≤ 2 ^ (n - (hi + 1)) := by
    have hw := w.isLt
    rw [en] at hw
    exact Nat.div_lt_of_lt_mul hw
  have h1 : (v % 2 ^ (hi + 1 - lo)) * 2 ^ lo + w.toNat % 2 ^ lo + 1 ≤ 2 ^ (hi + 1) := by
    rw [e]
    calc _ ≤ (v % 2 ^ (hi + 1 - lo)) * 2 ^ lo + 2 ^ lo := by omega
      _ = (v % 2 ^ (hi + 1 - lo) + 1) * 2 ^ lo := by ring
      _ ≤ 2 ^ (hi + 1 - lo) * 2 ^ lo := Nat.mul_le_mul_right _ hv
      _ = _ := by ring
  have h2 : (w.toNat / 2 ^ (hi + 1) + 1) * 2 ^ (hi + 1) ≤ 2 ^ n := by
    rw [en, Nat.mul_comm]
    exact Nat.mul_le_mul_left _ hA
  rw [Nat.mod_eq_of_lt]
  · omega
  · have : (w.toNat / 2 ^ (hi + 1) + 1) * 2 ^ (hi + 1) = w.toNat / 2 ^ (hi + 1) * 2 ^ (hi + 1) + 2 ^ (hi + 1) := by ring
    omega

/-- A field just set reads as the value, modulo its width. -/
theorem fld_setFld_same {n : Nat} (w : BitVec n) {hi lo v : Nat} (hlo : lo ≤ hi) (hn : hi < n) :
    fld (setFld w hi lo v) hi lo = v % 2 ^ (hi + 1 - lo) := by
  unfold fld
  rw [setFld_toNat w hi lo v hlo hn, Nat.shiftRight_eq_div_pow]
  have e : 2 ^ (hi + 1) = 2 ^ lo * 2 ^ (hi + 1 - lo) := by rw [← pow_add]; congr 1; omega
  have hm : w.toNat % 2 ^ lo < 2 ^ lo := Nat.mod_lt _ (by positivity)
  have : w.toNat / 2 ^ (hi + 1) * 2 ^ (hi + 1) + v % 2 ^ (hi + 1 - lo) * 2 ^ lo + w.toNat % 2 ^ lo
      = 2 ^ lo * (w.toNat / 2 ^ (hi + 1) * 2 ^ (hi + 1 - lo) + v % 2 ^ (hi + 1 - lo)) + w.toNat % 2 ^ lo := by
    rw [e]; ring
  rw [this, Nat.mul_add_div (by positivity), Nat.div_eq_of_lt hm, Nat.add_zero]
  rw [Nat.add_comm, Nat.add_mul_mod_self_right, Nat.mod_mod]

/-- A field above the one set reads as before. -/
theorem fld_setFld_above {n : Nat} (w : BitVec n) {hi lo v hi' lo' : Nat} (hlo : lo ≤ hi) (hn : hi < n) (h : hi < lo') :
    fld (setFld w hi lo v) hi' lo' = fld w hi' lo' := by
  unfold fld
  rw [setFld_toNat w hi lo v hlo hn]
  congr 1
  rw [Nat.shiftRight_eq_div_pow, Nat.shiftRight_eq_div_pow]
  have e : 2 ^ lo' = 2 ^ (hi + 1) * 2 ^ (lo' - (hi + 1)) := by rw [← pow_add]; congr 1; omega
  have e2 : 2 ^ (hi + 1) = 2 ^ lo * 2 ^ (hi + 1 - lo) := by rw [← pow_add]; congr 1; omega
  rw [e, ← Nat.div_div_eq_div_mul, ← Nat.div_div_eq_div_mul]
  congr 1
  have hv : v % 2 ^ (hi + 1 - lo) + 1 ≤ 2 ^ (hi + 1 - lo) := Nat.mod_lt _ (by positivity)
  have hm : w.toNat % 2 ^ lo + 1 ≤ 2 ^ lo := Nat.mod_lt _ (by positivity)
  have h1 : (v % 2 ^ (hi + 1 - lo)) * 2 ^ lo + w.toNat % 2 ^ lo < 2 ^ (hi + 1) := by
    rw [e2]
    calc _ < (v % 2 ^ (hi + 1 - lo)) * 2 ^ lo + 2 ^ lo := by omega
      _ = (v % 2 ^ (hi + 1 - lo) + 1) * 2 ^ lo := by ring
      _ ≤ 2 ^ (hi + 1 - lo) * 2 ^ lo := Nat.mul_le_mul_right _ hv
      _ = _ := by ring
  rw [Nat.add_assoc, Nat.mul_comm (w.toNat / 2 ^ (hi + 1)), Nat.mul_add_div (by positivity), Nat.div_eq_of_lt h1, Nat.add_zero]

/-- A field below the one set reads as before. -/
theorem fld_setFld_below {n : Nat} (w : BitVec n) {hi lo v hi' lo' : Nat} (hlo : lo ≤ hi) (hn : hi < n) (h : hi' < lo) (hlo' : lo' ≤ hi') :
    fld (setFld w hi lo v) hi' lo' = fld w hi' lo' := by
  unfold fld
  rw [setFld_toNat w hi lo v hlo hn]
  have e : 2 ^ (hi + 1) = 2 ^ lo * 2 ^ (hi + 1 - lo) := by rw [← pow_add]; congr 1; omega
  have key : ∀ m : Nat, m >>> lo' % 2 ^ (hi' + 1 - lo') = (m % 2 ^ lo) >>> lo' % 2 ^ (hi' + 1 - lo') := by
    intro m
    have e1 : 2 ^ lo = 2 ^ lo' * 2 ^ (lo - lo') := by rw [← pow_add]; congr 1; omega
    have e2 : 2 ^ (lo - lo') = 2 ^ (hi' + 1 - lo') * 2 ^ (lo - (hi' + 1)) := by rw [← pow_add]; congr 1; omega
    rw [Nat.shiftRight_eq_div_pow, Nat.shiftRight_eq_div_pow, e1, Nat.mod_mul_right_div_self, e2, Nat.mod_mul_right_mod]
  rw [key, key w.toNat]
  congr 2
  have : w.toNat / 2 ^ (hi + 1) * 2 ^ (hi + 1) + v % 2 ^ (hi + 1 - lo) * 2 ^ lo + w.toNat % 2 ^ lo
      = 2 ^ lo * (w.toNat / 2 ^ (hi + 1) * 2 ^ (hi + 1 - lo) + v % 2 ^ (hi + 1 - lo)) + w.toNat % 2 ^ lo := by
    rw [e]; ring
  rw [this, Nat.mul_add_mod, Nat.mod_mod]

variable {s : State}

/-- Two fields that share no bit of any register. -/
def Fd.apart (f g : Fd) : Bool := decide (f.off ≠ g.off) || decide (f.hi < g.lo) || decide (g.hi < f.lo)

/-- A field that lies in its word. -/
def Fd.ok (f : Fd) : Bool := decide (f.lo ≤ f.hi) && decide (f.hi < 32) && decide (f.off < 2 ^ 24)

/-- A field just written reads as the value, modulo its width. -/
theorem State.rd_wr_same {p v : Nat} {f : Fd} (h : Table.wf 0 s.regs = true) (hf : f.ok = true) :
    (s.wr p f v).rd p f = v % 2 ^ (f.hi + 1 - f.lo) := by
  simp only [Fd.ok, Bool.and_eq_true, decide_eq_true_eq] at hf
  unfold State.rd State.wr
  rw [State.reg_setReg_same h, fld_setFld_same _ hf.1.1 hf.1.2]

/-- A write of one place leaves every field of another. -/
theorem State.rd_wr_place {p p' v : Nat} {f g : Fd} (hp : p ≠ p') (hf : f.ok = true) (hg : g.ok = true) :
    (s.wr p f v).rd p' g = s.rd p' g := by
  simp only [Fd.ok, Bool.and_eq_true, decide_eq_true_eq] at hf hg
  unfold State.rd State.wr
  rw [State.reg_setReg_ne]
  omega

/-- A write of one field leaves every field that shares no bit with it. -/
theorem State.rd_wr_apart {p v : Nat} {f g : Fd} (h : Table.wf 0 s.regs = true) (hf : f.ok = true) (hg : g.ok = true) (ha : f.apart g = true) :
    (s.wr p f v).rd p g = s.rd p g := by
  simp only [Fd.ok, Bool.and_eq_true, decide_eq_true_eq] at hf hg
  simp only [Fd.apart, Bool.or_eq_true, decide_eq_true_eq] at ha
  unfold State.rd State.wr
  by_cases ho : f.off = g.off
  · rw [← ho, State.reg_setReg_same h]
    rcases ha with (ha | ha) | ha
    · exact absurd ho ha
    · exact fld_setFld_above _ hf.1.1 hf.1.2 ha
    · exact fld_setFld_below _ hf.1.1 hf.1.2 ha hg.1.1
  · rw [State.reg_setReg_ne]
    omega

theorem State.hrd_hwr_same {v : Nat} {f : Fd} (h : Table.wf 0 s.regs = true) (hf : f.ok = true) :
    (s.hwr f v).hrd f = v % 2 ^ (f.hi + 1 - f.lo) := State.rd_wr_same h hf

theorem State.hrd_hwr_apart {v : Nat} {f g : Fd} (h : Table.wf 0 s.regs = true) (hf : f.ok = true) (hg : g.ok = true) (ha : f.apart g = true) :
    (s.hwr f v).hrd g = s.hrd g := State.rd_wr_apart h hf hg ha

/-- A register write keeps the register table canonical. -/
theorem State.setReg_wf {p o : Nat} {v : W32} (h : Table.wf 0 s.regs = true) : Table.wf 0 (s.setReg p o v).regs = true := Table.put_wf h _ _
theorem State.wr_wf {p v : Nat} {f : Fd} (h : Table.wf 0 s.regs = true) : Table.wf 0 (s.wr p f v).regs = true := Table.put_wf h _ _
theorem State.hwr_wf {v : Nat} {f : Fd} (h : Table.wf 0 s.regs = true) : Table.wf 0 (s.hwr f v).regs = true := Table.put_wf h _ _
theorem State.inc_wf {p : Nat} {f : Fd} (h : Table.wf 0 s.regs = true) : Table.wf 0 (s.inc p f).regs = true := Table.put_wf h _ _
theorem State.dec_wf {p : Nat} {f : Fd} (h : Table.wf 0 s.regs = true) : Table.wf 0 (s.dec p f).regs = true := Table.put_wf h _ _
theorem State.sat_wf {p : Nat} {f : Fd} (h : Table.wf 0 s.regs = true) : Table.wf 0 (s.sat p f).regs = true := by
  unfold State.sat
  split
  · exact State.wr_wf h
  · exact h
theorem State.clearPlace_wf {p : Nat} (h : Table.wf 0 s.regs = true) : Table.wf 0 (s.clearPlace p).regs = true := Table.filter_wf _ h

end Sys2Proof.Machine
end

