-- ==== Sys2Proof/Machine/BarRead.lean ====
section
/-! DEFINITION. What a function reads through BAR0 and BAR2 (R379, R380), and what sensors and cell counters read as (R86, R607): reads without
effect, so no command of the table makes them. Reads with an effect have rows of their own. -/

namespace Sys2Proof.Machine

/-- The partition that a virtual function belongs to, none where it has none; a physical function reads for the panel (R45, R378). -/
def State.readerPart (s : State) (f : Nat) : Option Nat :=
  if isPf f then none else if s.fnPartOf f < 24 then some (s.fnPartOf f) else some 31

/-! ### BAR0 -/

/-- A function register (R404); the partition fields show the partition as it is (assumption log 103). -/
def State.fnWord (s : State) (f off : Nat) : Nat :=
  let p := s.fnPartOf f
  let x := s.part p
  let fl := match (s.partTiles p).head? with
    | some t => (s.tile t).fl.last.toNat + (s.tile t).fl.run.toNat * 256
    | none => 0
  if off = 4 then (if p < 24 then x.sch.state.code + x.sch.why.toNat * 8 else 0)
  else if off = 8 then (if p < 24 then fl else 0)
  else if off = 0xC then (if p < 24 then x.sch.committed.toNat else 0)
  else if off = 0x10 then s.rd (fnPlace f) fnAptFails
  else (s.reg (fnPlace f) off).toNat

/-- A function has result slots: the physical ones, and a virtual one with a partition (R400). -/
def State.hasSlots (s : State) (f : Nat) : Bool := isPf f || decide (s.fnPartOf f < 24)

/-- The word at a BAR0 offset of function `f` (R379, R400, R404, R459). -/
def State.bar0Word (s : State) (f off : Nat) : Nat :=
  if off < 0x100 then s.fnWord f off
  else if 0x1000 ≤ off ∧ off < 0x1200 then (s.reg (fnPlace f) off).toNat
  else if 0x8000 ≤ off ∧ off < (if isPf f then 0x8400 else 0x8100) then (s.reg (fnPlace f) off).toNat
  else if 0xC000 ≤ off ∧ off < 0xC008 then (s.reg (fnPlace f) off).toNat
  else if 0x10000 ≤ off ∧ off < 0x11000 then (s.reg (fnPlace f) off).toNat
  else if 0x40000 ≤ off ∧ off < 0x40100 ∧ f = 0 then s.hubWord (off - 0x3E000)
  else if 0x100000 ≤ off ∧ off < 0x140000 ∧ s.hasSlots f then ofLE (s.hub.sram.getList 0 (s.slotArea f + (off - 0x100000)) 4)
  else 0

/-! ### BAR2 -/

/-- The ANAT block as partition `p`'s virtual function reads it (R45): its own L-dies, stacks and sites, but for the hub's generation. -/
def State.anatWordOf (s : State) (p off : Nat) : Nat :=
  let ks := s.partSecs p
  if off = 0 then s.anatInfo ks
  else if off = 4 then s.anatWord off
  else if 0x400 ≤ off ∧ off < 0x7C0 then (if ks.contains ((off - 0x400) / 4 / 10) then s.anatWord off else 0)
  else if 0x800 ≤ off ∧ off < 0x860 then (if ks.contains ((off - 0x800) / 4) then s.anatWord off else 0)
  else if 0xC00 ≤ off ∧ off < 0x1080 then (if ks.contains ((off - 0xC00) / 4 / 12) then s.anatWord off else 0)
  else 0

/-- A hub register as partition `p`'s virtual function reads it: the blocks that chapter 22 owns, the telemetry ring among them, read 0 (R603); of the
site map, the schedule blocks, the capacity records, FLT_PART, SEC_PART, the class B mailboxes and the cell-window queues it reads its own entries (R45,
R89, R352, R412, R449, R503, R595, assumption log 103). -/
def State.hubWordOf (s : State) (p off : Nat) : Nat :=
  let own := fun (b : Bool) => if b then s.hubWord off else 0
  if off < 0x10000 ∨ 0x80000 ≤ off ∧ off < 0xC0000 then 0
  else if 0x10000 ≤ off ∧ off < 0x12000 then s.anatWordOf p (off - 0x10000)
  else if 0x20000 ≤ off ∧ off < 0x28000 then own (decide ((off - 0x20000) / 0x100 = p))
  else if 0x28000 ≤ off ∧ off < 0x30000 then own (decide ((off - 0x28000) / 0x40 = p))
  else if 0x30000 ≤ off ∧ off < 0x31000 then own (decide (off = 0x30040 + 4 * p))
  else if 0x34100 ≤ off ∧ off < 0x34160 then own (decide (off = 0x34100 + 4 * p))
  else if 0x40000 ≤ off ∧ off < 0x50000 then own ((s.partSecs p).contains ((off - 0x40000) / 0x100))
  else if 0x50000 ≤ off ∧ off < 0x60000 then own (decide ((off - 0x50000) / 0x100 = p))
  else s.hubWord off

/-- The word at a BAR2 offset of function `f` (R380, R459, R603): the BOOT registers and the result slots read 0. -/
def State.bar2Word (s : State) (f off : Nat) : Nat :=
  if 0x2000 ≤ off ∧ off < 0x2100 ∨ 0x100000 ≤ off ∧ off < 0x780000 then 0
  else match s.readerPart f with
    | none => s.hubWord off
    | some p => s.hubWordOf p off

/-! ### Registers of the Ethernet port dies -/

/-- An Ethernet register of port die `q` as partition `p`'s virtual function sees it (R436, R457): of the keys, the connections and the group
entries its own, and 0 for the others. -/
def State.portWordOf (s : State) (p q off : Nat) : Nat :=
  let n := 265 + q
  let own := fun (o : Nat) => if o = p then s.nodeWord n off else 0
  if 0x200000 ≤ off ∧ off < 0x220000 then own (s.rd tkPlace (tkOwner ((off - 0x200000) / 32)))
  else if 0x300000 ≤ off ∧ off < 0x340000 then own (s.rd n (cnPart ((off - 0x300000) / 64)))
  else if 0x500000 ≤ off ∧ off < 0x501000 then own (s.rd n (grPart ((off - 0x500000) / 64)))
  else s.nodeWord n off

/-! ### BAR reads -/

/-- A read through BAR0 or BAR2 (R380, R382): none where the port answers Unsupported Request. -/
def State.barRead (s : State) (f : Nat) (bar2 : Bool) (off : Nat) (tee : Bool) : Option Nat :=
  if s.unserved f tee then none else some (if bar2 then s.bar2Word f off else s.bar0Word f off)

/-- Completion counter `c` of a cell of partition `p`, as reading it gives it: the sum over the members (R86). QUERY_COUNTER without WAIT
reads one member's (R393). -/
def State.cellCounter (s : State) (p : Nat) (cell : W16) (c : Nat) : Nat :=
  (s.members p cell).foldl (fun a t => a + ((s.unit t).ccnt c).val.toNat) 0

/-- A PLDM sensor's value (R607): a numeric sensor by its register, a state sensor by its field. Out-of-band management reads it on standby power
alone only where it is a state sensor (R605). -/
def State.pldmSensor (s : State) (id : Nat) : Option Nat :=
  if !s.hub.feed.stby || id < 0x40 && !s.hub.feed.mainGood then none
  else match id with
  | 1 => some (s.hrd pmgrPin1s)
  | 2 => some (s.hrd pmgrLimitW)
  | 3 => some (s.hrd thmTIn)
  | 4 => some (s.hrd thmTOut)
  | 5 => some (s.hrd thmFlow)
  | 6 => some (s.hrd thmHotV)
  | 7 => some ((s.hrd fwC2Pct + s.hrd fwC3Pct) / 2)
  | 0x40 => some (s.hrd fltRrReasons)
  | 0x41 => some (s.hrd bootInstar + 8 * s.hrd bootPhase)
  | 0x42 => some (s.hrd thmTripped)
  | _ => none

end Sys2Proof.Machine
end

