-- ==== Sys2Proof/Tests/Slice0.lean ====
section
/-! SUPPORT. Tests: ill-formed commands are refused, every statement's hypotheses can be met, and single commands give what the spec's
tables and examples say. -/

namespace Sys2Proof.Tests
open Sys2Proof Sys2Proof.Machine

-- One test at a time: each evaluates a whole small machine.
set_option Elab.async false

/-! ### Small states -/

/-- A panel with standby and main power from the 48 V feed, and hub firmware running. -/
def up : State := State.reset.updHub (fun h => { h with feed := { stby := true, mainGood := true, latched := 1 }, score := { fwUp := true } })

/-- `up` with power region `k` in state `v`. -/
def powered (k v : Nat) : State := up.updHub (fun h => { h with region := [(k, v)] })

/-- A command of function 0, pair 0, tag 1; its bytes as a number. -/
def cmdOf (opc part bytes : Nat) (fw : Bool) : HostCmd := ⟨0, 0, 1, opc, part, BitVec.ofNat 512 bytes, false, fw, false, 0, [], 0, 0, false⟩

/-- `up` with that one command accepted. -/
def taken (c : HostCmd) : State := up.updHub (fun h => { h with cmds := [c] })

/-- `s` with partition 3, of sector 23 and its stack. -/
def withPart (x : Part) (s : State) : State :=
  { s with
    parts := [(3, { x with formed := true, secs := 0x800000, snodes := 0x800000 })]
    hub := { s.hub with anat := { s.hub.anat with
      smap := (List.range 10).map (fun i => (230 + i, { psite := 276 + i + i / 5, valid := true, part := 3 })), stk := [(23, { psite := 281, part := 3 })] } } }

/-- A host command's bytes: no result slot, and `n` from byte 8 on. -/
def noSlot (n : Nat) : Nat := 0xFFFF * 2 ^ 48 + n * 2 ^ 64

/-- A command of partition 3 that waits for its turn. -/
def partCmd (opc n : Nat) (fw : Bool) (x : Part) : State := withPart x (taken (cmdOf opc 3 (noSlot n) fw))

/-- Function 49 may master the bus, its port's VFs are enabled, and its pair 7 is enabled with 4,096 entries and a status ring of 8,192. -/
def paired : State :=
  ((((up.wr (fnPlace 49) (qpEn 7) 1).wr (fnPlace 49) (qpCsz 7) 12).wr (fnPlace 49) (qpSsz 7) 13).updFn 49 (fun x => { x with busMaster := true, visible := [(7, 1)] })).updFn 25
    (fun x => { x with vfEnable := true })

/-- A scratchpad whose quarters are ON. -/
def allOn : Spm := { q0 := .on, q1 := .on, q2 := .on, q3 := .on }

/-- A tile instruction: unit, opcode, the rest of the word. -/
def ins (u o n : Nat) : Insn := BitVec.ofNat 128 (u * 2 ^ 125 + o * 2 ^ 120 + n)

/-- The last tile, with `w` as its next instruction, at index `pc`. -/
def tileAt (pc : Nat) (w : Insn) (x : Tile) : State :=
  up.updTile 3839 (fun _ => { x with spm := allOn, seq := { x.seq with st := .run, pc := pc, imem := [(pc, w)] } })

/-- `tileAt`'s instruction issues as the word `w'`. -/
theorem issues_of {k : InsnKind} {w w' : Insn} {s : State}
    (h : (s.tile 3839).seq.st = .run ∧ (s.tile 3839).seq.imem.get 0 (s.tile 3839).seq.pc = w
      ∧ (List.range 4).any (fun i => (s.tile 3839).seq.imemBad.contains (4 * (s.tile 3839).seq.pc + i)) = false ∧ insnKind w = some k ∧ (s.tile 3839).executes w = true
      ∧ adjustWord (s.tile 3839).loop k w = some w' ∧ insnLegal k w' = true ∧ (s.tile 3839).blocked k w' = none) : Issues k 3839 w w' s :=
  ⟨h.1, h.2.1, h.2.2.1, h.2.2.2.1, h.2.2.2.2.1, h.2.2.2.2.2.1, h.2.2.2.2.2.2.1, h.2.2.2.2.2.2.2⟩

/-! ### The hypotheses of the statements can be met -/

theorem test_premises_FeedsAndStandbyPower :
    Canon (State.reset.updHub (fun h => { h with feed := { stby := true } }))
    ∧ (State.reset.updHub (fun h => { h with feed := { stby := true } })).hub.feed = { stby := true, mainGood := false, tripped := false }
    ∧ Canon (up.hwr pmgrPairE 1) ∧ (up.hwr pmgrPairE 1).hub.feed.mainGood = true ∧ (up.hwr pmgrPairE 1).hub.feed.otherLogged = false
    ∧ (up.hwr pmgrPairE 1).hub.feed.latched = 1 ∧ (up.hwr pmgrPairE 1).hrd pmgrPairE ≠ 0 ∧ (up.hwr pmgrPairW 1).hrd pmgrPairW ≠ 0
    ∧ feedIn true 4400 = true ∧ feedIn false 1260 = true ∧ State.reset.hub.feed.stby = false ∧ up.hrd bootPhase ≠ 3 := by decide

theorem test_premises_RegionsPhasesAndInrush :
    Canon (powered 288 3) ∧ (powered 288 3).hub.region.get 0 288 ≠ 0 ∧ Table.wf 0 (powered 288 3).hub.region = true
    ∧ up.hrd (scpmEfuse 23) = 0 ∧ up.hrd bootImago = 0
    ∧ (powered 287 3).hub.region.get 0 287 ≠ 0 ∧ (powered 287 3).hub.phases.contains (287, 7, 15) = false := by decide

/-- L-die 239 on P-site 287, in a power state, outside every partition. -/
def dieIn (v : Nat) : State := (powered 287 v).updHub (fun h => { h with anat := { h.anat with smap := [(239, { psite := 287, valid := true })] } })

theorem test_premises_RegionsPhasesAndInrush_regions :
    Canon (dieIn 3) ∧ (dieIn 3).power 239 = 3 ∧ 24 ≤ (dieIn 3).partOfNode 239 ∧ (dieIn 2).power 239 = 2 ∧ 24 ≤ (dieIn 2).partOfNode 239
    ∧ ∀ i : Fin 16, ∀ q : Fin 4, ((dieIn 3).tile (16 * 239 + i.val)).spm.quarter q.val = .off := by decide

/-- Sector 23 with one waiting request, or one token, and a loan. -/
def scpmIn (wait : Bool) : State := up.updHub (fun h => { h with
  scpm := [(23, { queue := if wait then [⟨7, .quarter, 3, 300, 0, false⟩] else [], granted := [⟨7, .quarter, 3, 300, 0, false⟩], loans := [⟨0, 5, true, 9⟩] })] })

theorem test_premises_RegionsPhasesAndInrush_inrush :
    Canon (scpmIn true) ∧ Table.wf {} (scpmIn true).hub.scpm = true ∧ ((scpmIn true).hub.scpm.get {} 23).queue = [⟨7, .quarter, 3, 300, 0, false⟩]
    ∧ ((scpmIn false).hub.scpm.get {} 23).queue = [] ∧ ((scpmIn false).hub.scpm.get {} 23).granted.findIdx? (fun r => r.cell == 7) = some 0
    ∧ Canon (up.hwr (scpmI 23) 4095) ∧ ((up.hwr (scpmI 23) 4095).hub.scpm.get {} 23).queue = []
    ∧ 90 * (up.hwr (scpmI 23) 4095).hrd (scpmIlim 23) < (up.hwr (scpmI 23) 4095).hrd (scpmI 23) * 100
        + ((up.hwr (scpmI 23) 4095).hub.scpm.get {} 23).rsv + classMa .tileLogic := by decide

theorem test_premises_PowerBudgets :
    Canon (taken (cmdOf 0x1B 31 (0xFFFF * 2 ^ 48 + 15500 * 2 ^ 64) true))
    ∧ Turn 0 0 1 0x1B (cmdOf 0x1B 31 (0xFFFF * 2 ^ 48 + 15500 * 2 ^ 64) true) (taken (cmdOf 0x1B 31 (0xFFFF * 2 ^ 48 + 15500 * 2 ^ 64) true))
    ∧ cmdB (cmdOf 0x1B 31 (0xFFFF * 2 ^ 48 + 15500 * 2 ^ 64) true).cmd 8 12 = 15500
    ∧ up.hrd (scpmIlim 23) < (4095 : BitVec 12).toNat ∧ (up.hub.scpm.get {} 23).loans = [] ∧ (up.hwr (scpmOver 23) 1).hrd (scpmOver 23) = 1
    ∧ 2 ≤ (up.hwr bootInstar 2).hrd bootInstar ∧ ((scpmIn true).hub.scpm.get {} 23).loans = [⟨0, 5, true, 9⟩]
    ∧ up.hub.pinN < 999 ∧ up.hub.pinSum + 0 + (1000 - (up.hub.pinN + 1)) * 0 ≤ 1100 * up.hrd pmgrLimitW :=
  ⟨by decide, ⟨by decide +kernel, by decide +kernel⟩, by decide +kernel⟩

theorem test_premises_PowerBudgets_sector : up.activeIn 23 = [] := by decide

theorem test_premises_QueuePairRegisters :
    Canon paired ∧ paired.rd (fnPlace 49) (qpEn 7) ≠ 0 ∧ paired.mayFetch 49 7 = true ∧ paired.statusRoom 49 7 = true
    ∧ Canon (paired.wr (fnPlace 49) (qpEn 7) 0) ∧ (paired.wr (fnPlace 49) (qpEn 7) 0).rd (fnPlace 49) (qpEn 7) = 0
    ∧ (paired.wr (fnPlace 49) (qpEn 7) 0).qpOk 49 7 = true
    ∧ ((paired.wr (fnPlace 49) (qpEn 7) 0).wr (fnPlace 49) (qpCsz 7) 13).qpOk 49 7 = false
    ∧ ((paired.wr (fnPlace 49) (qpCoalUs 7) 1).updFn 49 (fun x => { x with coal := [(7, 1)] })).rd (fnPlace 49) (qpCoalUs 7) ≠ 0
    ∧ (((paired.wr (fnPlace 49) (qpCoalUs 7) 1).updFn 49 (fun x => { x with coal := [(7, 1)] })).fn 49).coal.get 0 7 ≠ 0
    ∧ paired.unserved 49 false = false ∧ (paired.updFn 49 (fun x => { x with tdisp := .run })).unserved 49 false = true := by decide

theorem test_premises_CommandIntake :
    Canon paired ∧ paired.rd (fnPlace 49) (qpFmt 7) = 0 ∧ paired.hrd bootPhase ≠ 3 ∧ paired.cmdCheck 49 7 (7 * 2 ^ 40) false = some scBadOpcode := by
  decide +kernel

theorem test_premises_CommandIntake2 : (up.wr (fnPlace 0) (qpFmt 7) 0).cmdCheck 0 7 (0x0F + 31 * 2 ^ 32 + 7 * 2 ^ 40 + 0xFFFF * 2 ^ 48) false = none := by
  decide +kernel

theorem test_premises_CommandEnds :
    (49 < 50 ∧ 7 < 8) ∧ (paired.wr (fnPlace 49) (qpEn 7) 0).rd (fnPlace 49) (qpEn 7) = 0 ∧ paired.rd (fnPlace 49) (qpEn 7) ≠ 0
    ∧ paired.masters 49 = true ∧ (cmdOf 0x0F 31 0 true).mute = false := by decide +kernel

/-- A schedule image of sector 23: one beat without an exchange, whose record is `beat`, and no code. SHAPE lies at byte 192, BEATS at 256. -/
def imageFile (magic beat : Nat) : List Byte :=
  let shape : List Byte := 23 :: List.replicate 23 0xFF
  let beats := bytesLE 16 beat
  let head := bytesLE 124 (magic + 1 * 2 ^ 32 + 128 * 2 ^ 48 + 2 * 2 ^ 64 + 1 * 2 ^ 96 + 128 * 2 ^ 256
    + (1 + 2 ^ 8 + 3 * 2 ^ 24 + 2 * 2 ^ 32) * 2 ^ 320 + 64 * 2 ^ 384 + 1 * 2 ^ 416)
  let entry := fun (ty off : Nat) (bs : List Byte) => bytesLE 32 (ty + 2 ^ 32 + off * 2 ^ 64 + bs.length * 2 ^ 128 + crc32 bs * 2 ^ 192)
  head ++ bytesLE 4 (crc32 head) ++ entry 1 192 shape ++ entry 2 256 beats ++ shape ++ List.replicate 40 0 ++ beats

/-- A last beat of 100 µs; one that is not the last; the magic number of R346. -/
def lastBeat : Nat := 2 ^ 12 + 100000 * 2 ^ 16
def openBeat : Nat := 100000 * 2 ^ 16
def zsiMagic : Nat := 0x3449535A

/-- Whether the loader takes a file in partition 3, and the failure it reports. -/
def takes (s : State) (f : List Byte) : Option LoadErr :=
  match s.placeImage 3 f with
  | .ok (z, zs) => s.loadFault 3 z zs
  | .error e => some e

theorem test_premises_PortCommands :
    Canon (partCmd 1 0 false { sch := { state := .ready } }) ∧ (partCmd 1 0 false { sch := { state := .ready } }).turn 0 0 1 1 = some (cmdOf 1 3 (noSlot 0) false)
    ∧ (partCmd 1 0 false { sch := { state := .ready } }).partBar (cmdOf 1 3 (noSlot 0) false) = none
    ∧ (partCmd 1 0 false { sch := { state := .ready } }).hrd thmFlowStop = 0 ∧ ((partCmd 1 0 false { sch := { state := .ready } }).part 3).sch.state = .ready
    ∧ ((partCmd 1 0 false { sch := { state := .halted, why := 1 } }).part 3).sch.why = 1
    ∧ (partCmd 1 0 false { sch := { state := .halted, why := 1 } }).partHot 3 = false
    ∧ (partCmd 1 0 false { sch := { state := .halted, why := 1 } }).turn 0 0 1 1 = some (cmdOf 1 3 (noSlot 0) false)
    ∧ ((partCmd 1 0 false { sch := { state := .halted, why := 1 } }).part 3).wbs.withheld = false
    ∧ ((partCmd 1 0 false { sch := { state := .halted, why := 1 } }).part 3).wbs.forced = false
    ∧ ((partCmd 1 0 false { sch := { state := .ready } }).part 3).holed = false ∧ (partCmd 1 0 false { sch := { state := .ready } }).pairAlike 3 = true := by decide +kernel

/-- A QUERY_COUNTER of partition 3 whose one member has arrived. -/
def waiting : State := (taken { cmdOf 3 3 0 false with begun := true }).updPart 3 (fun x => { x with
  waits := [⟨0, 0, 1, none, [.tile 3839], 0, 0, [.tile 3839]⟩] })

theorem test_premises_PortCommands2 :
    (partCmd 2 (32 * 2 ^ 80) false {}).turn 0 0 1 2 = some (cmdOf 2 3 (noSlot (32 * 2 ^ 80)) false) ∧ (cmdOf 2 3 (noSlot (32 * 2 ^ 80)) false).len = 32
    ∧ (partCmd 3 (3839 + 31 * 2 ^ 16) false {}).turn 0 0 1 3 = some (cmdOf 3 3 (noSlot (3839 + 31 * 2 ^ 16)) false)
    ∧ (partCmd 3 (3839 + 31 * 2 ^ 16) false {}).hostCell 3 3839 = some (.tile 3839) ∧ bit (cmdOf 3 3 (noSlot (3839 + 31 * 2 ^ 16)) false).cmd 88 = false
    ∧ cmdB (cmdOf 3 3 (noSlot (3839 + 31 * 2 ^ 16)) false).cmd 10 11 < (memShape (.tile 3839)).2.1
    ∧ bit (cmdOf 3 3 (noSlot (2 ^ 24)) false).cmd 88 = true
    ∧ (partCmd 3 (2 ^ 24) false {}).turn 0 0 1 3 = some (cmdOf 3 3 (noSlot (2 ^ 24)) false)
    ∧ (taken { cmdOf 3 3 0 false with begun := true }).begunCmd 0 0 1 = some { cmdOf 3 3 0 false with begun := true }
    ∧ (((taken { cmdOf 3 3 0 false with begun := true }).till 0).hostWaits 3).begunCmd 0 0 1 ≠ none
    ∧ (((waiting.till 0).hostWaits 3).begunCmd 0 0 1) = none ∧ waiting.begunCmd 0 0 1 = some { cmdOf 3 3 0 false with begun := true } := by decide +kernel

theorem test_premises_FirmwareCommands :
    Turn 0 0 1 0x0F (cmdOf 0x0F 31 (noSlot 0) true) (taken (cmdOf 0x0F 31 (noSlot 0) true))
    ∧ Turn 0 0 1 0x19 (cmdOf 0x19 31 (noSlot 0) true) (taken (cmdOf 0x19 31 (noSlot 0) true))
    ∧ Turn 0 0 1 0x1C (cmdOf 0x1C 31 (noSlot 1) true) (taken (cmdOf 0x1C 31 (noSlot 1) true))
    ∧ PartTurn 0 0 1 0x11 (cmdOf 0x11 3 (noSlot 0) true) (partCmd 0x11 0 true { sch := { state := .halted } })
    ∧ PartTurn 0 0 1 0x11 (cmdOf 0x11 3 (noSlot 0) true) (partCmd 0x11 0 true { sch := { state := .running } })
    ∧ PartTurn 0 0 1 0x12 (cmdOf 0x12 3 (noSlot 0) true) (partCmd 0x12 0 true {})
    ∧ PartTurn 0 0 1 0x13 (cmdOf 0x13 3 (noSlot 0) true) (partCmd 0x13 0 true {})
    ∧ PartTurn 0 0 1 0x14 (cmdOf 0x14 3 (noSlot (2 ^ 184)) true) (partCmd 0x14 (2 ^ 184) true {}) :=
  by and_intros <;> first | decide +kernel | constructor <;> decide +kernel

/-- A LOAD_IMAGE that waits, of a function that may master the bus. -/
def loading : State := (partCmd 0x10 0 true {}).updFn 0 (fun x => { x with busMaster := true })

theorem test_premises_LoadImage :
    Canon loading ∧ PartTurn 0 0 1 0x10 (cmdOf 0x10 3 (noSlot 0) true) loading ∧ loading.atRest 3 = true ∧ (loading.fn 0).busMaster = true := by
  and_intros <;> first | decide +kernel | constructor <;> decide +kernel

/-- Check 0x01 asks for the magic number, and 0x0B for a last beat (R323, R346, R351). -/
theorem test_loader_takes_and_refuses :
    takes loading (imageFile zsiMagic lastBeat) = none ∧ takes loading (imageFile 0 lastBeat) = some (1, 0, 0)
    ∧ takes loading (imageFile zsiMagic openBeat) = some (0x0B, 1, 0) := by decide +kernel

/-- APERTURE_MAP of aperture 15 over the whole 4 GiB of a stack; WINDOW_CLOSE and WINDOW_OPEN of window 63 of the last tile. -/
def mapCmd : Nat := 15 + (2 ^ 20 - 1) * 2 ^ 160 + (1 * 2 ^ 53 + 23 * 2 ^ 48) * 2 ^ 64

theorem test_premises_AperturesAndWindowsOfTheHost :
    PartTurn 0 0 1 0x15 (cmdOf 0x15 3 (noSlot mapCmd) true) (partCmd 0x15 mapCmd true {})
    ∧ decodePga (BitVec.ofNat 56 (cmdB (cmdOf 0x15 3 (noSlot mapCmd) true).cmd 16 23)) 1
        ((partCmd 0x15 mapCmd true {}).partStacks 3).length = some (.direct (.stack 23) 0)
    ∧ (partCmd 0x15 mapCmd true {}).destInPart 3 (.direct (.stack 23) 0) = true ∧ 4096 * cmdB (cmdOf 0x15 3 (noSlot mapCmd) true).cmd 28 32 ≤ aptSpan 0
    ∧ Turn 0 0 1 0x16 (cmdOf 0x16 3 (noSlot 15) true) (partCmd 0x16 15 true {})
    ∧ (taken { cmdOf 0x16 3 0 true with begun := true }).begunCmd 0 0 1 = some { cmdOf 0x16 3 0 true with begun := true }
    ∧ ((taken { cmdOf 0x16 3 0 true with begun := true }).fn 0).accs = [] ∧ (up.updFn 25 (fun x => { x with vfEnable := true })).unserved 49 false = false :=
  ⟨⟨by decide +kernel, by decide +kernel⟩, by decide +kernel, by decide +kernel, by decide +kernel, ⟨by decide +kernel, by decide +kernel⟩, by decide +kernel⟩

/-- Partition 3 with window 63 of its last tile open. -/
def openWin (opc n : Nat) : State := (partCmd opc n true {}).updTile 3839 (fun x => { x with w := { x.w with win := [(63, { gen := 1, st := .open, limit64 := 1 })] } })

theorem test_premises_HostWindowOpens :
    PartTurn 0 0 1 0x18 (cmdOf 0x18 3 (noSlot (3839 + 63 * 2 ^ 16)) true) (openWin 0x18 (3839 + 63 * 2 ^ 16))
    ∧ (openWin 0x18 (3839 + 63 * 2 ^ 16)).hostCell 3 3839 = some (.tile 3839) ∧ (((openWin 0x18 0).unit (.tile 3839)).window 63).st ≠ .closed
    ∧ PartTurn 0 0 1 0x17 (cmdOf 0x17 3 (noSlot (3839 + 63 * 2 ^ 16 + 2 ^ 24 + 255 * 2 ^ 40 + 64 * 2 ^ 128)) true)
        (partCmd 0x17 (3839 + 63 * 2 ^ 16 + 2 ^ 24 + 255 * 2 ^ 40 + 64 * 2 ^ 128) true {})
    ∧ cmdB (cmdOf 0x17 3 (noSlot (3839 + 63 * 2 ^ 16 + 2 ^ 24 + 255 * 2 ^ 40 + 64 * 2 ^ 128)) true).cmd 24 32 = 64
    ∧ ({ idx := 63, rights := 1, skind := 1, srcval := 0, cnt := 255, cmode := 0, base64 := 0, limit64 := 1, dest := .none } : WopenReq).rangeOk
        (memShape (.tile 3839)).2.2 (memShape (.tile 3839)).2.1 = true
    ∧ (((partCmd 0x17 0 true {}).unit (.tile 3839)).window 63).st = .closed :=
  ⟨⟨by decide +kernel, by decide +kernel⟩, by decide +kernel, by decide +kernel, ⟨by decide +kernel, by decide +kernel⟩, by decide +kernel⟩

/-- Partitions 0 and 23, at rest, of one sector each. -/
def twoParts : State := { taken (cmdOf 0x1A 31 (noSlot (0 + 23 * 2 ^ 8 + 2 ^ 16)) true) with
  parts := [(0, { formed := true, secs := 1, snodes := 1 }), (23, { formed := true, secs := 2, snodes := 2, root := 10 })] }

theorem test_premises_SetTwin :
    Turn 0 0 1 0x1A (cmdOf 0x1A 31 (noSlot (23 * 2 ^ 8 + 2 ^ 16)) true) twoParts ∧ Canon twoParts
    ∧ cmdB (cmdOf 0x1A 31 (noSlot (23 * 2 ^ 8 + 2 ^ 16)) true).cmd 9 10 = 23 ∧ cmdB (cmdOf 0x1A 31 (noSlot (23 * 2 ^ 8 + 2 ^ 16)) true).cmd 10 11 = 1
    ∧ twoParts.atRest 0 = true ∧ twoParts.atRest 23 = true ∧ twoParts.twinOk 0 23 = true ∧ (twoParts.part 23).formed = true :=
  ⟨⟨by decide +kernel, by decide +kernel⟩, by decide +kernel⟩

theorem test_premises_FunctionsLinksAndTdisp :
    up.mayTrain 0 = true ∧ (8 ∈ [16, 8, 4, 2, 1]) ∧ (∀ i < 16, up.laneGood 0 i = true) ∧ State.reset.mayTrain 0 = false ∧ up.linkWidth 0 0 = none ∧ up.hub.cmds = []
    ∧ (taken { cmdOf 0x14 3 0 true with begun := true }).hub.cmds = [{ cmdOf 0x14 3 0 true with begun := true }]
    ∧ ((up.updFn 1 (fun x => { x with tdisp := .locked })).updFn 0 (fun x => { x with vfEnable := true })).unserved 1 false = false
    ∧ ((up.updFn 49 (fun x => { x with tdisp := .locked, sessions := [3] })).fn 49).tdisp = .locked ∧ (up.fn 49).tdisp = .unlocked
    ∧ 3 ∈ ((up.updFn 49 (fun x => { x with tdisp := .locked, sessions := [3] })).fn 49).sessions ∧ 3 ∉ (up.fn 49).sessions := by decide +kernel

/-- Lanes 8 and 7 of PD-N bad: lanes 0 to 3 form the widest link of 16 offered; with lane 8 alone, lanes 0 to 7 do. -/
def badLanes (l : List Nat) : State := up.updHub (fun h => { h with fuses := { h.fuses with recs := l.map (fun i => BitVec.ofNat 64 (0x1F1 + 4 * 2 ^ 16 + i * 2 ^ 24)) } })

theorem test_link_widths : (badLanes [8]).linkWidth 0 16 = some 8 ∧ (badLanes [8, 7]).linkWidth 0 16 = some 4 ∧ up.linkWidth 0 7 = some 4 := by decide +kernel

/-! ### Mailboxes, windows and segments -/

/-- Message words of a class A mailbox whose code is `n`, with copy and count in word 2. -/
def mail (n : Nat) : List W32 := [BitVec.ofNat 32 n, 7, BitVec.ofNat 32 (1 + 65535 * 65536)] ++ List.replicate 13 0

/-- Function 25's inbound message of code `n`, pending or taken. -/
def mailed (n : Nat) (pend taken : Nat) : State :=
  ((up.wr (fnPlace 25) mbaInPend pend).wr (fnPlace 25) mbaInTaken taken).updFn 25 (fun x => { x with mbaIn := some ⟨mail n, 0⟩ })

/-- A record in the hub-side MRAM, with sequence number 7. -/
def recorded : State :=
  (mailed 2 0 1).updHub (fun h => { h with bbx := { h.bbx with hub := { h.bbx.hub with perm := [⟨7, 0, 0, 0, 0, 0x100, 2, []⟩] } } })

theorem test_premises_ClassAMailboxes :
    Canon up ∧ up.rd (fnPlace 49) mbaInPend = 0 ∧ up.rd (fnPlace 49) mbaInTaken = 0 ∧ up.rd (fnPlace 49) mbaInDone = 0
    ∧ up.rd (fnPlace 49) mbaInTimeout = 0 ∧ up.rd (fnPlace 49) mbaInRreset = 0 ∧ up.hub.score.fwUp = true
    ∧ ((mailed 1 1 0).fn 25).mbaIn = some ⟨mail 1, 0⟩ ∧ (mailed 1 1 0).rd (fnPlace 25) mbaInPend = 1 ∧ (mailed 1 1 0).now ≤ 0 + (mailed 1 1 0).mbaTmo 25
    ∧ Canon (mailed 1 0 1) ∧ (mailed 1 0 1).mbaCode 25 = some 1 ∧ recorded.mbaCode 25 = some 2 ∧ (recorded.fn 25).mbaIn = some ⟨mail 2, 0⟩
    ∧ fld ((mail 2).getD 2 0) 3 0 ≠ 0
    ∧ (recorded.bbCopy (bit ((mail 2).getD 2 0) 4)).run ((mail 2).getD 1 0).toNat (fld ((mail 2).getD 2 0) 3 0) = [⟨7, 0, 0, 0, 0, 0x100, 2, []⟩]
    ∧ (mailed 3 0 1).mbaCode 25 = some 3 ∧ (mailed 3 0 1).hub.score.markAt = none
    ∧ up.rd (fnPlace 0) mbaOutPend = 0 ∧ ((up.updFn 0 (fun x => { x with busMaster := true })).fn 0).busMaster = true
    ∧ (up.wr (fnPlace 0) mbaOutPend 1).rd (fnPlace 0) mbaOutPend ≠ 0 ∧ (up.fn 0).outq = []
    ∧ up.unserved 0 false = false ∧ up.unserved 49 true = true ∧ ((up.updFn 0 (fun x => { x with outq := [[]] })).fn 0).outq = [[]] := by decide +kernel

/-- Mailbox 3 of sector 23, held by cell 3839. -/
def held : State := (up.hwr (mbbHeld 23 3) 1).hwr (mbbOwner 23 3) 3839

/-- That mailbox with a taken message of code `n`. -/
def asked (n : Nat) : State :=
  (held.hwr (mbbTaken 23 3) 1).updHub (fun h => { h with mbb := [(95, { data := [BitVec.ofNat 32 n] })] })

theorem test_premises_ClassBMailboxes :
    Canon up ∧ up.hrd (mbbHeld 23 3) = 0 ∧ Canon held ∧ held.hrd (mbbHeld 23 3) = 1 ∧ held.hrd (mbbOwner 23 3) ≠ (0 : W16).toNat
    ∧ held.hrd (mbbOwner 23 3) = (3839 : W16).toNat ∧ held.hrd (mbbPend 23 3) = 0 ∧ held.hrd (mbbTaken 23 3) = 0 ∧ held.hub.score.fwUp = true
    ∧ held.mbbRefuse 23 3 0 = some rcNotPermitted ∧ (held.hwr (mbbPend 23 3) 1).mbbRefuse 23 3 3839 = some rcNoRight
    ∧ (held.hub.mbb.get {} (4 * 23 + 3)).sending = false
    ∧ ((held.updHub (fun h => { h with mbb := [(95, { sending := true })] })).hub.mbb.get {} (4 * 23 + 3)).sending = true
    ∧ (asked 1).mbbCode 23 3 = some 1 ∧ (asked 2).mbbCode 23 3 = some 2 := by decide +kernel

/-- A cell command of opcode `o` for L-die 239 and window 63, with counter 31, threshold 1 and a time-out of 65,535 µs. -/
def cellCmdB (o : Nat) : BitVec 512 :=
  BitVec.ofNat 512 (o + 63 * 2 ^ 96 + 2 * 2 ^ 104 + 1 * 2 ^ 107 + 0xFF * 2 ^ 125 + 1 * 2 ^ 167 + 31 * 2 ^ 200 + 1 * 2 ^ 208 + 65535 * 2 ^ 256 + 0x20EF * 2 ^ 272)

/-- Partition 3 with that command at the head of its queue and window 63 of every tile of L-die 239 as given. -/
def celled (o : Nat) (w : Window) : State :=
  let s := withPart {} up
  { s with
    hub := { s.hub with cellq := [(3, [cellCmdB o])] }
    tiles := if w = {} then [] else (List.range 16).map (fun i => (3824 + i, { w := { win := [(63, w)] } })) }

/-- The tiles of L-die 239. -/
def die239 : List Tgt := (List.range 16).map (fun i => .tile (3824 + i))

theorem test_premises_CellWindows_opens :
    (celled 1 {}).cellMembers 3 (cellCmdB 1) = some die239 ∧ (celled 1 {}).cellHead 3 1 = some (cellCmdB 1)
    ∧ (∀ t ∈ die239, ({ idx := fld (cellCmdB 1) 103 96, rights := BitVec.ofNat 3 (fld (cellCmdB 1) 106 104), skind := BitVec.ofNat 2 (fld (cellCmdB 1) 108 107)
                        srcval := BitVec.ofNat 16 (fld (cellCmdB 1) 124 109), cnt := BitVec.ofNat 8 (fld (cellCmdB 1) 132 125)
                        cmode := BitVec.ofNat 2 (fld (cellCmdB 1) 134 133), base64 := fld (cellCmdB 1) 166 135, limit64 := fld (cellCmdB 1) 198 167
                        dest := .none } : WopenReq).rangeOk (memShape t).2.2 (memShape t).2.1 = true)
    ∧ (celled 1 {}).sourceOk 3 1 0 = true ∧ (celled 1 {}).oneGen die239 (fld (cellCmdB 1) 103 96) = true
    ∧ (∀ t ∈ die239, (((celled 1 {}).unit t).window (fld (cellCmdB 1) 103 96)).st = .closed) := by decide +kernel

theorem test_premises_CellWindows_closes :
    (celled 2 {}).cellHead 3 2 = some (cellCmdB 2) ∧ cellCnt die239 (fld (cellCmdB 2) 205 200) = true
    ∧ (celled 2 {}).cellMembers 3 (cellCmdB 2) = some die239
    ∧ (celled 2 { st := .open }).cellMembers 3 (cellCmdB 2) = some die239 ∧ (celled 2 { st := .open }).cellHead 3 2 = some (cellCmdB 2)
    ∧ (((celled 2 { st := .open }).unit (.tile 3824)).window (fld (cellCmdB 2) 103 96)).st ≠ .closed
    ∧ (celled 3 { st := .open, cnt := 31 }).cellHead 3 3 = some (cellCmdB 3) ∧ fld (cellCmdB 3) 271 256 ≠ 0
    ∧ (celled 3 { st := .open, cnt := 31 }).cellMembers 3 (cellCmdB 3) = some die239
    ∧ (∀ t ∈ die239, (((celled 3 { st := .open, cnt := 31 }).unit t).window (fld (cellCmdB 3) 103 96)).st = .open
        ∧ (((celled 3 { st := .open, cnt := 31 }).unit t).window (fld (cellCmdB 3) 103 96)).cnt ≠ 0xFF)
    ∧ (celled 4 {}).cellHead 3 4 = some (cellCmdB 4) ∧ fld (cellCmdB 4) 7 0 = 4 ∧ (celled 4 {}).oneGen die239 (fld (cellCmdB 4) 103 96) = true
    ∧ (celled 4 {}).cellMembers 3 (cellCmdB 4) = some die239 ∧ (celled 2 {}).members 3 (cellOf (cellCmdB 2)) = die239
    ∧ (∀ t ∈ die239, (((celled 2 {}).unit t).window (fld (cellCmdB 2) 103 96)).pend = [])
    ∧ ((celled 2 {}).updHub (fun h => { h with cellRun := [⟨0, 3, cellCmdB 2, stOk, 0⟩] })).hub.cellRun = [⟨0, 3, cellCmdB 2, stOk, 0⟩] := by decide +kernel

/-- A PUT of one byte by the host of partition 3 to window 63 of the last tile, with generation `gen` and number `q`. -/
def put1 (gen : Nat) (q : W16) : Segment := 
  { src := .host 3, node := 0x3F00, seq := q, issue := 0, sched := false, op := .put, tag := BitVec.ofNat 16 (63 * 256 + gen), off := 0, len := 0, data := [0xAB]
    poison := false, opnd := 0, swap := 0 }

/-- Window 63 of the last tile open for the host's PUTs, at time `t`. -/
def openAt (t : Nat) : State :=
  { (withPart {} up).updTile 3839 (fun x => { x with w := { x.w with win := [(63, { gen := 1, st := .open, rights := 2, skind := 1, limit64 := 1 })] }, spm := allOn }) with now := t }

/-- That state after number 9 of the hub was met and accepted. -/
def met : State := (openAt 0).updNode 239 (fun x => { x with dup := [(0x3F00, { seen := true, h := 9, got := [0] })] })

theorem test_premises_SegmentsAtTheirTarget :
    segOk (.tile 3839) { put1 1 9 with data := [] } = false ∧ segOk (.tile 3839) (put1 1 9) = true ∧ Canon (openAt 1000000)
    ∧ (openAt 1000000).now ≤ (put1 1 9).issue + 1000000
    ∧ ((((openAt 1000000).node (tileDie 3839)).dup.get {} (put1 1 9).node.toNat).meet (put1 1 9).seq).2 = .fresh
    ∧ (openAt 1000000).segCheck (.tile 3839) (put1 1 9) = none ∧ (openAt 1000000).segFull (.tile 3839) (put1 1 9) = false
    ∧ (openAt 0).segCheck (.tile 3839) (put1 2 9) = some rcWinStale ∧ (openAt 0).segCheck (.tile 3839) { put1 1 9 with off := 64 } = some rcOutOfBounds
    ∧ (openAt 0).segCheck (.tile 3839) { put1 1 9 with tag := 0x4001 } = some rcTagFault
    ∧ Canon met ∧ ((((met).node (tileDie 3839)).dup.get {} (put1 1 9).node.toNat).meet (put1 1 9).seq).2 = .dup
    ∧ (met.tile 3839).w.waits (put1 1 9) = false ∧ (put1 1 9).issue + 1000000 < (openAt 1000001).now ∧ (put1 1 9).mates = 0 := by decide +kernel

/-- A copy for the last two tiles of a die goes to both, and is accepted where either takes it (R298). -/
theorem test_premises_SegmentsAtTheirTarget_copies :
    segOk (.tile 3839) { put1 1 9 with mates := 0xC000 } = true ∧ mateTgts (.tile 3839) { put1 1 9 with mates := 0xC000 } = [.tile 3838]
    ∧ (.tile 3839 :: mateTgts (.tile 3839) { put1 1 9 with mates := 0xC000 }).all (fun u => ((openAt 0).segCheck u { put1 1 9 with mates := 0xC000 }).isSome) = false := by
  decide +kernel

theorem test_premises_VisibilityClosesAndRegisters :
    Canon up ∧ Canon (openAt 0) ∧ (((openAt 0).updTile 3839 (fun x => { x with w := { x.w with win := [(63, { st := .quiescing })] } })).tile 3839).w.window 63
        = { st := .quiescing }
    ∧ (0xFFFC % 4 = 0 ∧ 1 ≤ (16 : Nat) ∧ 0xFFFC + 4 * 1 ≤ (ctlTgt (.tile 0)).size ∧ (ctlTgt (.die 268)).size < 0xFFFFFC + 4 * 2) ∧ up.unserved 0 false = false ∧ (2 % 4 ≠ 0) ∧ (List.replicate 16 (0 : W32)).length ≤ 16
    ∧ segOk .hub { put1 1 9 with off := 0x40008, data := [1, 2, 3, 4] } = true
    ∧ ((withPart {} up).updHub (fun h => { h with rwin := [(0x41700, [(0, { gen := 1, st := .open, rights := 2, skind := 1, limit64 := 4 })])] })).segCheck .hub
        { put1 1 9 with node := 3839, tag := 1, off := 0x417C0, data := [0, 0, 0, 0] } = none := by decide +kernel

/-- Stack node 263 with a segment to the last die outstanding, resent `n` times. -/
def sent (n : Nat) (d : Nat) : State :=
  (up.updNode d (fun x => { x with iss := { x.iss with out := [⟨239, .tile 3839, put1 1 9, n, .plain⟩] }
                                   fab := { x.fab with route := [(239, 0x80)] } }))

theorem test_premises_AnswersAndRetransmission :
    (sent 0 263).issFind 263 239 9 = some ⟨239, .tile 3839, put1 1 9, 0, .plain⟩ ∧ (sent 0 263).issFind 263 239 8 = none
    ∧ (sent 6 263).issFind 263 239 9 = some ⟨239, .tile 3839, put1 1 9, 6, .plain⟩
    ∧ bit (((sent 6 263).node 263).fab.route.get 0 239) 6 = false ∧ bit (((sent 6 263).node 263).fab.route.get 0 239) 7 = true
    ∧ (sent 6 268).issFind 268 239 9 = some ⟨239, .tile 3839, put1 1 9, 6, .plain⟩
    ∧ bit (((sent 6 268).node 268).fab.route.get 0 239) 6 = false ∧ bit (((sent 6 268).node 268).fab.route.get 0 239) 7 = true
    ∧ (sent 7 263).issFind 263 239 9 = some ⟨239, .tile 3839, put1 1 9, 7, .plain⟩ := by decide +kernel

/-! ### The sequencer and the looper -/

theorem test_premises_IssueOfAnInstruction_rows (n : TileNo) : issueRow (.jmp n) = some (n, .jmp) ∧ issueRow (.bar n) = some (n, .bar) := ⟨rfl, rfl⟩

theorem test_premises_IssueOfAnInstruction :
    (up.tile 3839).seq.st ≠ .run
    ∧ ((tileAt 2047 (ins 7 0 0) {}).tile 3839).seq.st = .run
    ∧ ((tileAt 2047 (ins 7 0 0) {}).tile 3839).seq.imem.get 0 ((tileAt 2047 (ins 7 0 0) {}).tile 3839).seq.pc = ins 7 0 0
    ∧ (∃ i, i < 4 ∧ 4 * 2047 + i ∈ ((tileAt 2047 (ins 0 1 5) { seq := { imemBad := [8191] } }).tile 3839).seq.imemBad)
    ∧ (∀ i, i < 4 → 4 * 2047 + i ∉ ((tileAt 2047 (ins 0 1 5) { seq := { imemBad := [8187] } }).tile 3839).seq.imemBad)
    ∧ insnKind (ins 7 0 0) = none ∧ insnKind (ins 0 0 0) = some .nop ∧ InsnKind.nop ≠ .jmp ∧ insnKind (ins 0 1 5) = some .jmp
    ∧ ((tileAt 2047 (ins 0 1 (5 + 2 ^ 115)) {}).tile 3839).executes (ins 0 1 (5 + 2 ^ 115)) = false ∧ insnLegal .jmp (ins 0 1 (5 + 2 ^ 115)) = true
    ∧ ((tileAt 2047 (ins 0 1 (2048 + 2 ^ 115)) {}).tile 3839).executes (ins 0 1 (2048 + 2 ^ 115)) = false ∧ insnLegal .jmp (ins 0 1 (2048 + 2 ^ 115)) = false
    ∧ adjustWord { bind := [(7, ⟨0, 15, 15⟩)] } .jmp (ins 0 1 (5 + 7 * 2 ^ 112)) = none
    ∧ ((tileAt 2047 (ins 0 1 5) {}).tile 3839).executes (ins 0 1 5) = true ∧ adjustWord {} .jmp (ins 0 1 2048) = some (ins 0 1 2048)
    ∧ insnLegal .jmp (ins 0 1 2048) = false ∧ insnKind (ins 1 8 0) = some .mfence ∧ insnLegal .mfence (ins 1 8 0) = true
    ∧ ({ mxa := { q := List.replicate 8 ⟨0, 0⟩ } } : Tile).blocked .mfence (ins 1 8 0) = some 1 := by decide

theorem test_premises_TileExceptions :
    Canon (tileAt 2047 0 {}) ∧ ((tileAt 2047 0 {}).tile 3839).seq.st ≠ .exc ∧ ((tileAt 2047 0 {}).tile 3839).abandonedRanges = []
    ∧ ((up.updTile 0 (fun x => { x with seq := { x.seq with st := .exc } })).tile 0).seq.st = .exc := by decide

/-- A looper whose level `L` is active over [first, last], at iteration `i` of `n`. -/
def looping (L n i first last : Nat) : Tile := { loop := { lev := [(L, ⟨true, n, i, first, last, 0⟩)] } }

theorem test_premises_LoopsAndJumps_issue :
    ({} : Tile).loop.endsAt 2046 = none ∧ ({} : Tile).loop.endsAt 2047 = none
    ∧ (looping 3 2 0 5 2047).loop.endsAt 2047 = some 3 ∧ ((looping 3 2 0 5 2047).loop.level 3).i + 1 < ((looping 3 2 0 5 2047).loop.level 3).n
    ∧ ((looping 3 2 0 5 2047).loop.level 3).first ≤ 2047
    ∧ (looping 0 1 0 5 2046).loop.endsAt 2046 = some 0 ∧ ((looping 0 1 0 5 2046).loop.level 0).n ≤ ((looping 0 1 0 5 2046).loop.level 0).i + 1
    ∧ ({ (looping 0 1 0 5 2046).loop with lev := (looping 0 1 0 5 2046).loop.lev.put {} 0 { (looping 0 1 0 5 2046).loop.level 0 with active := false } }
        : Looper).endsAt 2046 = none
    ∧ ((tileAt 7 0 { seq := { hold := .jmp } }).tile 3839).seq.hold = .jmp := by decide

/-- LOOP of level 3 over `b` instructions, `n` times; JMP to `t`. -/
def loopIns (n b : Nat) : Insn := ins 5 1 (3 * 2 ^ 110 + n * 2 ^ 64 + b)
def jmpIns (t : Nat) : Insn := ins 0 1 t

theorem test_premises_LoopsAndJumps_instructions :
    Issues .nop 3839 (ins 0 0 0) (ins 0 0 0) (tileAt 0 (ins 0 0 0) {})
    ∧ (Issues .loop 3839 (loopIns 2 2047) (loopIns 2 2047) (tileAt 0 (loopIns 2 2047) {})
      ∧ (({} : Tile).loop.level (fld (loopIns 2 2047) 111 110)).active = false ∧ 0 + fld (loopIns 2 2047) 10 0 ≤ 2047 ∧ fld (loopIns 2 2047) 87 64 ≠ 0)
    ∧ (Issues .loop 3839 (loopIns 0 2046) (loopIns 0 2046) (tileAt 0 (loopIns 0 2046) {}) ∧ fld (loopIns 0 2046) 87 64 = 0
      ∧ 0 + fld (loopIns 0 2046) 10 0 < 2047 ∧ ({} : Tile).loop.endsAt (0 + fld (loopIns 0 2046) 10 0) = none)
    ∧ (Issues .loop 3839 (loopIns 1 1) (loopIns 1 1) (tileAt 5 (loopIns 1 1) (looping 3 2 0 5 9)) ∧ ((looping 3 2 0 5 9).loop.level 3).active = true)
    ∧ (Issues .loop 3839 (loopIns 1 2047) (loopIns 1 2047) (tileAt 1 (loopIns 1 2047) {}) ∧ 2047 < 1 + fld (loopIns 1 2047) 10 0)
    ∧ (Issues .loop 3839 (loopIns 1 5) (loopIns 1 5) (tileAt 5 (loopIns 1 5) (looping 0 2 0 5 9)) ∧ ((looping 0 2 0 5 9).loop.level 0).last < 5 + fld (loopIns 1 5) 10 0)
    ∧ (Issues .jmp 3839 (jmpIns 9) (jmpIns 9) (tileAt 5 (jmpIns 9) (looping 0 2 0 5 9))
      ∧ ∀ L, L < 4 → ((looping 0 2 0 5 9).loop.level L).active = true → ((looping 0 2 0 5 9).loop.level L).first ≤ fld (jmpIns 9) 10 0
        ∧ fld (jmpIns 9) 10 0 ≤ ((looping 0 2 0 5 9).loop.level L).last ∧ ((looping 0 2 0 5 9).loop.level L).last ≠ 5)
    ∧ (Issues .jmp 3839 (jmpIns 4) (jmpIns 4) (tileAt 5 (jmpIns 4) (looping 0 2 0 5 9)) ∧ fld (jmpIns 4) 10 0 < ((looping 0 2 0 5 9).loop.level 0).first) := by
  and_intros <;> first | exact issues_of (by decide) | decide

/-- PSET of p7 by source `src`; LSTRIDE of generator 7, level 3; LBIND of binding 7. -/
def psetIns (src : Nat) : Insn := ins 0 2 (7 * 2 ^ 109 + src * 2 ^ 107)

theorem test_premises_PredicatesStridesAndBindings :
    Issues .pset 3839 (psetIns 0) (psetIns 0) (tileAt 0 (psetIns 0) {}) ∧ fld (psetIns 0) 108 107 = 0
    ∧ Issues .pset 3839 (psetIns 1) (psetIns 1) (tileAt 0 (psetIns 1) {}) ∧ fld (psetIns 1) 108 107 = 1
    ∧ Issues .pset 3839 (psetIns 2) (psetIns 2) (tileAt 0 (psetIns 2) {}) ∧ fld (psetIns 2) 108 107 = 2
    ∧ Issues .lstride 3839 (ins 5 2 (31 * 2 ^ 107)) (ins 5 2 (31 * 2 ^ 107)) (tileAt 0 (ins 5 2 (31 * 2 ^ 107)) {})
    ∧ Issues .lbind 3839 (ins 5 3 (7 * 2 ^ 109 + 0x7F7)) (ins 5 3 (7 * 2 ^ 109 + 0x7F7)) (tileAt 0 (ins 5 3 (7 * 2 ^ 109 + 0x7F7)) {}) := by
  and_intros <;> first | exact issues_of (by decide) | decide

/-- WOPEN of window 63 for the host with base 0 and limit `l`, its result at 64. -/
def wopenIns (l : Nat) : Insn := ins 0 6 (63 * 2 ^ 106 + 1 * 2 ^ 104 + 1 * 2 ^ 101 + 0xFF * 2 ^ 72 + 64 * 2 ^ 38 + l * 2 ^ 19)

/-- A tile whose window 63 is as given. -/
def windowed (w : Window) : Tile := { w := { win := [(63, w)] } }

/-- The WOPEN word asks what R203 reads from it. -/
theorem test_premises_TileWindowCommands_wopen :
    (Issues .wopen 3839 (wopenIns 1) (wopenIns 1) (tileAt 0 (wopenIns 1) {}) ∧ allOn.refused (fld (wopenIns 1) 61 38) 4 = none
      ∧ (({} : Tile).w.window (fld (wopenIns 1) 111 106)).st = .closed ∧ (wopenReq (wopenIns 1) 0).rangeOk 262144 32 = true
      ∧ up.sourceOk 31 (wopenReq (wopenIns 1) 0).skind (wopenReq (wopenIns 1) 0).srcval = true ∧ ({} : Tile).w.openDue 63 ≤ up.now)
    ∧ (Issues .wopen 3839 (wopenIns 1) (wopenIns 1) (tileAt 0 (wopenIns 1) (windowed { opened := true })) ∧ ((windowed { opened := true }).w.window 63).st = .closed
      ∧ up.now < (windowed { opened := true }).w.openDue 63)
    ∧ (Issues .wopen 3839 (wopenIns 1) (wopenIns 1) (tileAt 0 (wopenIns 1) (windowed { st := .quiescing })) ∧ ((windowed { st := .quiescing }).w.window 63).st ≠ .closed)
    ∧ (Issues .wopen 3839 (wopenIns 0) (wopenIns 0) (tileAt 0 (wopenIns 0) {}) ∧ (wopenReq (wopenIns 0) 0).rangeOk 262144 32 = false)
    ∧ ((tileAt 0 0 { seq := { hold := .wopen (wopenReq (wopenIns 1) 0) } }).tile 3839).seq.hold = .wopen (wopenReq (wopenIns 1) 0) := by
  and_intros <;> first | exact issues_of (by decide) | decide

/-- CLOSE_NOW and CLOSE_QUIESCE of window 63 with done counter 31; `u` the time-out in µs. -/
def closeIns : Insn := ins 0 7 (63 * 2 ^ 106 + 31 * 2 ^ 101)
def quiesceIns (u : Nat) : Insn := ins 0 8 (63 * 2 ^ 106 + 31 * 2 ^ 101 + u * 2 ^ 16)

theorem test_premises_TileWindowCommands_closes :
    (Issues .closeNow 3839 closeIns closeIns (tileAt 0 closeIns (windowed { st := .open })) ∧ ((windowed { st := .open }).w.window (fld closeIns 111 106)).st ≠ .closed)
    ∧ (Issues .closeNow 3839 closeIns closeIns (tileAt 0 closeIns {}) ∧ (({} : Tile).w.window (fld closeIns 111 106)).st = .closed)
    ∧ (Issues .closeQuiesce 3839 (quiesceIns 65535) (quiesceIns 65535) (tileAt 0 (quiesceIns 65535) (windowed { st := .open, cnt := 31 }))
      ∧ ((windowed { st := .open, cnt := 31 }).w.window (fld (quiesceIns 65535) 111 106)).cnt ≠ 0xFF ∧ fld (quiesceIns 65535) 31 16 ≠ 0)
    ∧ (Issues .closeQuiesce 3839 (quiesceIns 1) (quiesceIns 1) (tileAt 0 (quiesceIns 1) (windowed { st := .quiescing }))
      ∧ ((windowed { st := .quiescing }).w.window (fld (quiesceIns 1) 111 106)).st = .quiescing)
    ∧ (Issues .closeQuiesce 3839 (quiesceIns 0) (quiesceIns 0) (tileAt 0 (quiesceIns 0) (windowed { st := .open, cnt := 31 })) ∧ fld (quiesceIns 0) 31 16 = 0)
    ∧ (Issues .wquery 3839 (ins 0 9 (4 * 2 ^ 38)) (ins 0 9 (4 * 2 ^ 38)) (tileAt 0 (ins 0 9 (4 * 2 ^ 38)) {}) ∧ allOn.refused (fld (ins 0 9 (4 * 2 ^ 38)) 61 38) 4 = none)
    ∧ Issues .ccntSet 3839 (ins 0 10 (31 * 2 ^ 107)) (ins 0 10 (31 * 2 ^ 107)) (tileAt 0 (ins 0 10 (31 * 2 ^ 107)) {})
    ∧ (Issues .ccntGet 3839 (ins 0 11 0xFFFFF8) (ins 0 11 0xFFFFF8) (tileAt 0 (ins 0 11 0xFFFFF8) {}) ∧ allOn.refused (fld (ins 0 11 0xFFFFF8) 23 0) 8 = none) := by
  and_intros <;> first | exact issues_of (by decide) | decide

/-- ILOAD of one word from `src` to index `dst`; WAITCNT of counter 31 and 2^48 - 1. -/
def iloadIns (src dst : Nat) : Insn := ins 0 4 (src + dst * 2 ^ 24)
def waitIns : Insn := ins 4 1 (31 * 2 ^ 107 + 0xFFFFFFFF * 2 ^ 64 + 0xFFFF)

/-- A tile whose counter 31 is as given. -/
def counted (c : Ccnt) : Tile := { w := { cc := [(31, c)] } }

theorem test_premises_FencesWaitsAndLoads :
    Issues .fence 3839 (ins 0 3 (15 * 2 ^ 96)) (ins 0 3 (15 * 2 ^ 96)) (tileAt 0 (ins 0 3 (15 * 2 ^ 96)) {})
    ∧ (({} : Tile).fenceDone 15 = true ∧ (15 : Nat).testBit 2 = true ∧ (11 : Nat).testBit 2 = false ∧ ({ tdma := { err := { v := true } } } : Tile).fenceDone 15 = true)
    ∧ Issues .endp 3839 (ins 0 5 0) (ins 0 5 0) (tileAt 0 (ins 0 5 0) {})
    ∧ (({ seq := { hold := .endFence } } : Tile).fenceDone 15 = true ∧ (up.part 31).wbs.closing = false) ∧ Table.wf {} (looping 3 2 0 5 9).loop.lev = true
    ∧ Issues .step 3839 (ins 4 5 0) (ins 4 5 0) (tileAt 0 (ins 4 5 0) {}) ∧ ({ seq := { hold := .step false } } : Tile).fenceDone 11 = true
    ∧ (Issues .waitcnt 3839 waitIns waitIns (tileAt 0 waitIns (counted { err := true })) ∧ ((counted { err := true }).w.ccnt (fld waitIns 111 107)).err = true)
    ∧ (Issues .waitcnt 3839 waitIns waitIns (tileAt 0 waitIns (counted { val := 0xFFFFFFFFFFFF }))
      ∧ fld waitIns 95 64 + 2 ^ 32 * fld waitIns 15 0 ≤ ((counted { val := 0xFFFFFFFFFFFF }).w.ccnt (fld waitIns 111 107)).val.toNat)
    ∧ (Issues .waitcnt 3839 waitIns waitIns (tileAt 0 waitIns {}) ∧ (({} : Tile).w.ccnt (fld waitIns 111 107)).val.toNat < fld waitIns 95 64 + 2 ^ 32 * fld waitIns 15 0)
    ∧ (Issues .iload 3839 (iloadIns 0xFFFFF0 2047) (iloadIns 0xFFFFF0 2047) (tileAt 0 (iloadIns 0xFFFFF0 2047) {})
      ∧ allOn.refused (fld (iloadIns 0xFFFFF0 2047) 23 0) (16 * (fld (iloadIns 0xFFFFF0 2047) 45 35 + 1)) = none)
    ∧ ({ allOn with q3 := .off } : Spm).refused (fld (iloadIns 0xFFFFF0 2047) 23 0) (16 * (fld (iloadIns 0xFFFFF0 2047) 45 35 + 1)) = some (0xFFFFF0, 1)
    ∧ (({ seq := { hold := .iload 0xFFFFF0 2047 1 }, spm := allOn } : Tile).seq.hold = .iload 0xFFFFF0 2047 1 ∧ allOn.refused 0xFFFFF0 (16 * 1) = none
      ∧ ({ allOn with q3 := .off } : Spm).refused 0xFFFFF0 (16 * 1) = some (0xFFFFF0, 1))
    ∧ (({ counted { err := true } with seq := { hold := .waitcnt 31 1 } } : Tile).seq.hold = .waitcnt 31 1
      ∧ ((counted { err := true }).w.ccnt 31).err = true ∧ ((counted { val := 1 }).w.ccnt 31).err = false ∧ 1 ≤ ((counted { val := 1 }).w.ccnt 31).val.toNat)
    ∧ (Issues .iload 3839 (iloadIns 0 9) (iloadIns 0 9) (tileAt 0 (iloadIns 0 9) (looping 3 2 0 5 9)) ∧ ((looping 3 2 0 5 9).loop.level 3).active = true
      ∧ ((looping 3 2 0 5 9).loop.level 3).first < fld (iloadIns 0 9) 34 24 + (fld (iloadIns 0 9) 45 35 + 1)
      ∧ fld (iloadIns 0 9) 34 24 ≤ ((looping 3 2 0 5 9).loop.level 3).last) := by
  and_intros <;> first | exact issues_of (by decide) | decide

/-- Channel 15 of L-die 239 whose domain has the last tile. -/
def onCh (s : State) : State := s.updNode 239 (fun x => { x with sync := { x.sync with cfg := [(15, BitVec.ofNat 30 (2 ^ 24 + 2 ^ 23))] } })

/-- A QUERY_COUNTER that has armed channel 15 at the last tile. -/
def arming (s : State) : State := { s with parts := [(3, { secs := 0x800000, waits := [⟨0, 0, 1, some 15, [.tile 3839], 31, 0, []⟩] })] }

/-- BAR, FLAGOR and CWAIT on channel 15. -/
def barIns : Insn := ins 4 2 (15 * 2 ^ 108)
def flagorIns : Insn := ins 4 4 (15 * 2 ^ 108)
def cwaitIns : Insn := ins 4 3 (15 * 2 ^ 108 + 31 * 2 ^ 103 + 1)

theorem test_premises_BarriersOfATile :
    (Issues .bar 3839 barIns barIns (onCh (tileAt 0 barIns {})) ∧ (onCh (tileAt 0 barIns {})).onChannel 3839 (fld barIns 111 108) = true
      ∧ (onCh (tileAt 0 barIns {})).armed 3839 (fld barIns 111 108) = false ∧ (tileAt 0 barIns {}).onChannel 3839 (fld barIns 111 108) = false
      ∧ (arming (onCh (tileAt 0 barIns {}))).armed 3839 (fld barIns 111 108) = true)
    ∧ Issues .bar 3839 barIns barIns (arming (onCh (tileAt 0 barIns {}))) ∧ Issues .bar 3839 barIns barIns (tileAt 0 barIns {})
    ∧ (Issues .flagor 3839 flagorIns flagorIns (onCh (tileAt 0 flagorIns {})) ∧ (onCh (tileAt 0 flagorIns {})).onChannel 3839 (fld flagorIns 111 108) = true
      ∧ (onCh (tileAt 0 flagorIns {})).armed 3839 (fld flagorIns 111 108) = false ∧ (tileAt 0 flagorIns {}).onChannel 3839 (fld flagorIns 111 108) = false)
    ∧ (Issues .flagor 3839 flagorIns flagorIns (arming (onCh (tileAt 0 flagorIns {})))
      ∧ (arming (onCh (tileAt 0 flagorIns {}))).onChannel 3839 (fld flagorIns 111 108) = true
      ∧ (arming (onCh (tileAt 0 flagorIns {}))).armed 3839 (fld flagorIns 111 108) = true)
    ∧ Issues .flagor 3839 flagorIns flagorIns (tileAt 0 flagorIns {})
    ∧ (Issues .cwait 3839 cwaitIns cwaitIns (arming (onCh (tileAt 0 cwaitIns {})))
      ∧ (arming (onCh (tileAt 0 cwaitIns {}))).onChannel 3839 (fld cwaitIns 111 108) = true
      ∧ (arming (onCh (tileAt 0 cwaitIns {}))).armed 3839 (fld cwaitIns 111 108) = true)
    ∧ ({ counted { err := true } with seq := { hold := .cwait 15 31 1 false } } : Tile).seq.hold = .cwait 15 31 1 false
    ∧ (Issues .cwait 3839 cwaitIns cwaitIns (onCh (tileAt 0 cwaitIns (counted { err := true })))
      ∧ (onCh (tileAt 0 cwaitIns (counted { err := true }))).onChannel 3839 (fld cwaitIns 111 108) = true
      ∧ (onCh (tileAt 0 cwaitIns {})).armed 3839 (fld cwaitIns 111 108) = false ∧ ((counted { err := true }).w.ccnt (fld cwaitIns 107 103)).err = true)
    ∧ (Issues .cwait 3839 cwaitIns cwaitIns (onCh (tileAt 0 cwaitIns {})) ∧ (({} : Tile).w.ccnt (fld cwaitIns 107 103)).val.toNat < fld cwaitIns 95 64 + 2 ^ 32 * fld cwaitIns 15 0)
    ∧ (Issues .cwait 3839 cwaitIns cwaitIns (tileAt 0 cwaitIns {}) ∧ (tileAt 0 cwaitIns {}).onChannel 3839 (fld cwaitIns 111 108) = false)
    ∧ ((counted { val := 1 }).w.ccnt 31).val.toNat = 1 := by
  and_intros <;> first | exact issues_of (by decide) | decide

theorem test_premises_TheTileCommandQueue :
    (({ seq := { cmdq := List.replicate 15 0 } } : Tile).seq.cmdq.length < 16 ∧ 16 ≤ ({ seq := { cmdq := List.replicate 16 0 } } : Tile).seq.cmdq.length)
    ∧ (up.tile 3839).seq.st = .stopped ∧ ((up.updTile 3839 (fun x => { x with seq := { x.seq with st := .idle, cmdq := [2047] } })).tile 3839).seq.st = .idle
    ∧ ((up.updTile 3839 (fun x => { x with seq := { x.seq with st := .idle, cmdq := [2047] } })).tile 3839).seq.cmdq = 2047 :: []
    ∧ Canon (up.updTile 3839 (fun x => { x with seq := { x.seq with st := .idle, cmdq := [2047] } })) := by decide

/-! ### Remote operations, the matrix array, the vector engine, the scratchpad -/

/-- A word issues as it is on the last tile when it is legal. -/
theorem plain {k : InsnKind} {w : Insn} (h : insnKind w = some k ∧ (tileAt 0 w {}).tile 3839 = { spm := allOn, seq := { st := .run, imem := [(0, w)] } }
    ∧ ({} : Tile).executes w = true ∧ adjustWord {} k w = some w ∧ insnLegal k w = true ∧ ({} : Tile).blocked k w = none) : Issues k 3839 w w (tileAt 0 w {}) := by
  obtain ⟨h1, h2, h3, h4, h5, h6⟩ := h
  exact issues_of (by rw [h2]; exact ⟨rfl, by simp [Table.get], rfl, h1, h3, h4, h5, h6⟩)

theorem test_premises_RemoteOperations :
    Issues .ttgt 3839 (ins 3 1 (15 * 2 ^ 108)) (ins 3 1 (15 * 2 ^ 108)) (tileAt 0 (ins 3 1 (15 * 2 ^ 108)) {})
    ∧ Issues .put 3839 (ins 3 2 (16777216 * 2 ^ 64)) (ins 3 2 (16777216 * 2 ^ 64)) (tileAt 0 (ins 3 2 (16777216 * 2 ^ 64)) {})
    ∧ Issues .get 3839 (ins 3 3 0) (ins 3 3 0) (tileAt 0 (ins 3 3 0) {}) ∧ Issues .fadd 3839 (ins 3 4 0) (ins 3 4 0) (tileAt 0 (ins 3 4 0) {})
    ∧ Issues .cswap 3839 (ins 3 5 0xFFFFE8) (ins 3 5 0xFFFFE8) (tileAt 0 (ins 3 5 0xFFFFE8) {}) ∧ Issues .for_ 3839 (ins 3 6 0) (ins 3 6 0) (tileAt 0 (ins 3 6 0) {}) := by
  and_intros <;> exact plain (by decide)

/-- A PUT of `n` bytes at local address 0xFFFF00 to `b`. -/
def putOp (b : Pga) (n : Nat) : TdmaOp := ⟨.put, 2047, b, 0, 1, 0xFFFF00, n, 31, false, true⟩

theorem test_premises_RemoteOperations_start :
    ({ tdma := { q := [putOp 0 0] } } : Tile).tdma.q = putOp 0 0 :: [] ∧ 64 ≤ (List.replicate 64 (⟨putOp 0 0, [], [], 0⟩ : TdmaOut)).length
    ∧ (List.replicate 63 (⟨putOp 0 0, [], [], 0⟩ : TdmaOut)).length < 64 ∧ ({} : Tile).seq.st ≠ .exc
    ∧ ({} : Tile).spm.refused (putOp 0 256).local_.1 (putOp 0 256).local_.2 = some (0xFFFF00, 1)
    ∧ allOn.refused (putOp 0 256).local_.1 (putOp 0 256).local_.2 = none
    ∧ decodePga (putOp 0xE0000000000000 256).pga 256 0 = none ∧ decodePga (putOp 0 256).pga 256 1 = some (.direct (.tile 0) 0)
    ∧ (withPart {} up).destInPart 3 (.direct (.tile 0) 0) = false ∧ decodePga (putOp 0x1DFE0000000000 256).pga 256 1 = some (.direct (.tile 3839) 0)
    ∧ (withPart {} up).destInPart 3 (.direct (.tile 3839) 0) = true ∧ opAtomic (putOp 0 256).op = false ∧ (putOp 0 256).len ≠ 0 := by decide +kernel

/-- A segment of that operation sent to the last die, resent `n` times. -/
def flying (op : SegOp) (n : Nat) : Tile := { tdma := { out := [⟨{ putOp 0 256 with op := op }, [], [⟨239, 9, .tile 3839, 0, 0, 256, 0, n⟩], 63⟩] } }

/-- The last die's route to itself, as its table's byte. -/
def wayTo (e : BitVec 13) : State := (tileAt 0 0 (flying .put 0)).updNode 239 (fun x => { x with fab := { x.fab with route := [(239, e)] } })

theorem test_premises_RemoteAnswers :
    (flying .put 0).tdma.find 239 8 = none
    ∧ (flying .put 0).tdma.find 239 9 = some (0, ⟨putOp 0 256, [], [⟨239, 9, .tile 3839, 0, 0, 256, 0, 0⟩], 63⟩, ⟨239, 9, .tile 3839, 0, 0, 256, 0, 0⟩)
    ∧ ((flying .get 6).tdma.find 239 9).isSome = true ∧ ((flying .fadd 7).tdma.find 239 9).isSome = true ∧ (6 : Nat) < 7 ∧ (7 : Nat) ≤ 7
    ∧ (⟨rcOk, [], false, 0⟩ : Answer).code = rcOk ∧ rcPoisoned ≠ rcOk ∧ rcWinStale ≠ rcOk ∧ rcWinStale ≠ rcPoisoned ∧ opAtomic .fadd = true
    ∧ up.targetDown 3839 239 = true ∧ (wayTo 0xC0).targetDown 3839 239 = true ∧ (wayTo 0x9F).targetDown 3839 239 = false
    ∧ (putOp 0 0).scnten = true ∧ ({ putOp 0 0 with scnten := false }).scnten = false ∧ Table.wf {} (flying .put 0).w.cc = true
    ∧ Canon (up.updTile 3839 (fun _ => flying .put 0)) := by decide

/-- MMA of `k` FP32 elements into bank 1 with the initial value 0; MDRAIN of bank 1 as FP32 to the vector engine or the scratchpad. -/
def mmaIns (k : Nat) : Insn := ins 1 1 (2 ^ 103 + 1 * 2 ^ 101 + k * 2 ^ 48)
def drainIns (vxe : Nat) : Insn := ins 1 2 (2 ^ 104 + vxe * 2 ^ 103 + (1 - vxe) * 16 * 2 ^ 48)
def rbloadIns : Insn := ins 1 3 (64 * 2 ^ 70 + 1 * 2 ^ 77 + 1 * 2 ^ 48)
def rbshiftIns : Insn := ins 1 4 (8 * 2 ^ 104 + 1 * 2 ^ 103 + 128 * 2 ^ 64)

theorem test_premises_MatrixArrayQueue :
    Issues .mma 3839 (mmaIns 128) (mmaIns 128) (tileAt 0 (mmaIns 128) {}) ∧ Issues .mdrain 3839 (drainIns 1) (drainIns 1) (tileAt 0 (drainIns 1) {})
    ∧ Issues .rbload 3839 rbloadIns rbloadIns (tileAt 0 rbloadIns {}) ∧ Issues .rbshift 3839 rbshiftIns rbshiftIns (tileAt 0 rbshiftIns {})
    ∧ Issues .posld 3839 (ins 1 5 0xFFFF00) (ins 1 5 0xFFFF00) (tileAt 0 (ins 1 5 0xFFFF00) {}) ∧ Issues .posgen 3839 (ins 1 6 0) (ins 1 6 0) (tileAt 0 (ins 1 6 0) {})
    ∧ Issues .mxset 3839 (ins 1 7 16) (ins 1 7 16) (tileAt 0 (ins 1 7 16) {}) ∧ Issues .mfence 3839 (ins 1 8 0) (ins 1 8 0) (tileAt 0 (ins 1 8 0) {}) := by
  and_intros <;> exact plain (by decide)

/-- An MDRAIN of bank 1, whose accumulators are FP32, as INT32 is illegal; the other heads are not. -/
theorem test_premises_MatrixArrayQueue_heads :
    ({ bank1 := { ty := some false } } : Mxa).headIllegal (ins 1 2 (12 * 2 ^ 108 + 2 ^ 104 + 2 ^ 103)) = true ∧ insnKind (ins 1 2 (12 * 2 ^ 108 + 2 ^ 104 + 2 ^ 103)) = some .mdrain
    ∧ ({} : Mxa).headIllegal (ins 1 6 0) = false ∧ ({} : Mxa).headIllegal (ins 1 7 16) = false ∧ ({} : Mxa).headIllegal (ins 1 8 0) = false
    ∧ ({} : Mxa).headIllegal (ins 1 5 0xFFFF00) = false ∧ allOn.refused (fld (ins 1 5 0xFFFF00) 23 0) 256 = none
    ∧ insnKind (ins 1 6 0) = some .posgen ∧ insnKind (ins 1 7 16) = some .mxset ∧ insnKind (ins 1 8 0) = some .mfence ∧ insnKind (ins 1 5 0xFFFF00) = some .posld
    ∧ ({ drains := [⟨⟨drainIns 1, 0⟩, 0, [], false, []⟩] } : Mxa).drains ≠ [] := by decide

theorem test_premises_MatrixMultiply :
    insnKind (mmaIns 1) = some .mma ∧ mmaMode (mmaIns 1) = some (.fp32, .fp32, .f32) ∧ ({ q := [⟨mmaIns 1, 0⟩] } : Mxa).vxeDrainOn (bit (mmaIns 1) 103) = false
    ∧ allOn.refusedAny (mmaRanges (mmaIns 1) .fp32 .f32) = none ∧ ({} : Mxa).drains = []
    ∧ ([] : List MmaRun).any (fun p => p.bank == true) = false ∧ (({ bank1 := { st := .accum } } : Mxa).bank true).st = .accum
    ∧ Canon (tileAt 0 0 { mxa := { q := [⟨mmaIns 1, 0⟩], veins := [⟨true, 0, [], [], true⟩] } }) := by decide

/-- A bank of which one cell, row 0 and column 0, is LIVE. -/
def liveBank : Bank := { st := .ready, live := { cells := [(0, some 1)] } }

theorem test_premises_DrainsAndRowBuffers :
    insnKind (drainIns 0) = some .mdrain ∧ (({ bank1 := { st := .ready } } : Mxa).bank (bit (drainIns 0) 104)).st = .ready ∧ bit (drainIns 0) 103 = false
    ∧ Fmt.ofCode (fld (drainIns 0) 111 108) = some .fp32 ∧ allOn.refusedAny (liveBank.drainRanges (drainIns 0)) = none
    ∧ ({ allOn with q0 := .retain } : Spm).refusedAny (liveBank.drainRanges (drainIns 0)) = some (0, 1)
    ∧ ({ allOn with q0 := .retain } : Spm).refusedAny (({} : Bank).drainRanges (drainIns 0)) = none
    ∧ ({ allOn with q0 := .off } : Spm).refusedAny (rbloadRanges rbloadIns) = some (0, 1)
    ∧ ({ allOn with q0 := .off } : Spm).refusedAny [rbshiftTail rbshiftIns] = some (0, 1)
    ∧ insnKind (drainIns 1) = some .mdrain ∧ bit (drainIns 1) 103 = true ∧ ({} : Mxa).vxeDrainOn false = false ∧ ({} : Mxa).vxeDrainOn true = false
    ∧ [(⟨⟨drainIns 1, 0⟩, 63, [], false, []⟩ : DrainRun), ⟨⟨drainIns 1, 0⟩, 64, [], false, []⟩].find? (fun d => decide (64 ≤ d.row)) = some ⟨⟨drainIns 1, 0⟩, 64, [], false, []⟩
    ∧ ({ st := .draining } : Bank).st = .draining
    ∧ insnKind rbloadIns = some .rbload ∧ allOn.refusedAny (rbloadRanges rbloadIns) = none ∧ insnKind rbshiftIns = some .rbshift
    ∧ allOn.refusedAny [rbshiftTail rbshiftIns] = none := by decide +kernel

/-- Words of the vector instructions: VCVT FP32 to INT32, VXSCAN on channel 15, VLD and VST with stride 1. -/
def vcvtIns : Insn := ins 2 6 (12 * 2 ^ 28)
def vxscanIns : Insn := ins 2 10 (1 * 2 ^ 68 + 15 * 2 ^ 64)
def vldIns (a : Nat) : Insn := ins 2 12 (1 * 2 ^ 48 + a * 2 ^ 24)
def vstIns (a : Nat) : Insn := ins 2 13 (1 * 2 ^ 48 + a * 2 ^ 24)

theorem test_premises_VectorQueue :
    Issues .vfa 3839 (ins 2 1 0) (ins 2 1 0) (tileAt 0 (ins 2 1 0) {}) ∧ Issues .via 3839 (ins 2 2 (16 * 2 ^ 107)) (ins 2 2 (16 * 2 ^ 107)) (tileAt 0 (ins 2 2 (16 * 2 ^ 107)) {})
    ∧ Issues .vcmp 3839 (ins 2 3 0) (ins 2 3 0) (tileAt 0 (ins 2 3 0) {}) ∧ Issues .vsel 3839 (ins 2 4 0) (ins 2 4 0) (tileAt 0 (ins 2 4 0) {})
    ∧ Issues .vkop 3839 (ins 2 5 0) (ins 2 5 0) (tileAt 0 (ins 2 5 0) {}) ∧ Issues .vcvt 3839 vcvtIns vcvtIns (tileAt 0 vcvtIns {})
    ∧ Issues .vtr 3839 (ins 2 7 0) (ins 2 7 0) (tileAt 0 (ins 2 7 0) {}) ∧ Issues .vred 3839 (ins 2 8 0) (ins 2 8 0) (tileAt 0 (ins 2 8 0) {})
    ∧ Issues .vscan 3839 (ins 2 9 0) (ins 2 9 0) (tileAt 0 (ins 2 9 0) {}) ∧ Issues .vxscan 3839 vxscanIns vxscanIns (tileAt 0 vxscanIns {})
    ∧ Issues .vcomb 3839 (ins 2 11 0) (ins 2 11 0) (tileAt 0 (ins 2 11 0) {}) ∧ Issues .vld 3839 (vldIns 0) (vldIns 0) (tileAt 0 (vldIns 0) {})
    ∧ Issues .vst 3839 (vstIns 0) (vstIns 0) (tileAt 0 (vstIns 0) {}) ∧ Issues .vdqpop 3839 (ins 2 14 0) (ins 2 14 0) (tileAt 0 (ins 2 14 0) {})
    ∧ Issues .viota 3839 (ins 2 15 0) (ins 2 15 0) (tileAt 0 (ins 2 15 0) {}) ∧ Issues .vrot 3839 (ins 2 16 0) (ins 2 16 0) (tileAt 0 (ins 2 16 0) {}) := by
  and_intros <;> exact plain (by decide)

/-- A row in the drain queue. -/
def row0 : DqRow := ⟨List.replicate 64 0, 0, false⟩

theorem test_premises_VectorExecution :
    ({ q := [⟨ins 2 2 0, 0⟩] } : Vxe).wait = .none ∧ insnKind (ins 2 2 0) = some .via ∧ insnKind (vldIns 0) = some .vld ∧ insnKind (vstIns 0) = some .vst
    ∧ (({} : Vxe).memRanges (vldIns 0)).any (fun p => decide (spmTop < p.1 + 4)) = false ∧ allOn.refusedAny (({} : Vxe).memRanges (vldIns 0)) = none
    ∧ (({} : Vxe).memRanges (vstIns 0xFFFF00)).any (fun p => decide (spmTop < p.1 + 4)) = false ∧ allOn.refusedAny (({} : Vxe).memRanges (vstIns 0xFFFF00)) = none
    ∧ (({} : Vxe).memRanges (vldIns 0xFFFFFC)).any (fun p => decide (spmTop < p.1 + 4)) = true
    ∧ insnKind (ins 2 14 0) = some .vdqpop ∧ ({ dq := [row0] } : Vxe).dq = row0 :: []
    ∧ ({ drains := [⟨⟨drainIns 1, 0⟩, 63, [], false, []⟩] } : Mxa).vxeDrainComing = true ∧ ({} : Mxa).vxeDrainComing = false
    ∧ insnKind vxscanIns = some .vxscan ∧ (vxChannels vxscanIns).any (fun c => !up.onChannel 3839 c) = true ∧ vxChannels vxscanIns = [15]
    ∧ (onCh up).onChannel 3839 15 = true ∧ (onCh up).armed 3839 15 = false ∧ ({ wait := .row ⟨ins 2 14 0, 0⟩ } : Vxe).wait = .row ⟨ins 2 14 0, 0⟩
    ∧ ({ run := [⟨⟨ins 2 2 0, 0⟩, [], []⟩] } : Vxe).run[0]? = some ⟨⟨ins 2 2 0, 0⟩, [], []⟩ ∧ Table.wf 0 ({} : Vxe).v = true := by decide +kernel

theorem test_premises_VectorExecution_prefixes :
    ((vxChannels vxscanIns).map (fun c => Table.get Deliv.none [(15, .prefix_ 5 false 0)] c)).contains Deliv.none = false
    ∧ ((vxChannels vxscanIns).map (fun c => Table.get Deliv.none [(15, .prefix_ 5 false 0)] c)).contains Deliv.mismatch = false
    ∧ ((vxChannels vxscanIns).map (fun c => Table.get Deliv.none [(15, .mismatch)] c)).contains Deliv.mismatch = true := by decide

theorem test_premises_ScratchpadBytes :
    allOn.dev = [] ∧ Table.wf 0 allOn.data = true ∧ (({} : Vxe).vpoison = 0 ∧ ({} : Vxe).kpoison = 0)
    ∧ (∀ rg ∈ ({} : Vxe).memRanges (vstIns 0), 256 < rg.1 ∨ rg.1 + rg.2 ≤ 256) ∧ 63 ∈ ({} : Vxe).active (vstIns 0) ∧ 0 < fld (vstIns 0) 63 48
    ∧ mopBadDesc (BitVec.ofNat 128 (4 * 2 ^ 64 + 0xFFFFFC * 2 ^ 8)) = false ∧ fld (BitVec.ofNat 128 (4 * 2 ^ 64 + 0xFFFFFC * 2 ^ 8)) 1 0 = 0 ∧ allOn.allOn = true
    ∧ ({} : Bank).poison = false ∧ bit (drainIns 0) 103 = false ∧ Fmt.ofCode (fld (drainIns 0) 111 108) = some .fp32
    ∧ (∀ rg ∈ liveBank.drainRanges (drainIns 0), 4 < rg.1 ∨ rg.1 + rg.2 ≤ 4) := by decide +kernel

/-- Quarter `q` of the last tile waits for its token at the last sector. -/
def asking (q : Nat) : State := up.updHub (fun h => { h with scpm := [(23, { queue := [⟨0xEFF, .quarter, q, 8000, 0, false⟩] })] })

/-- FILL and COPY descriptors, the copy onto its own source. -/
def fillD : BitVec 128 := BitVec.ofNat 128 (4 * 2 ^ 64)
def copyD : BitVec 128 := BitVec.ofNat 128 (1 + 4 * 2 ^ 64)

theorem test_premises_ScratchpadCommands :
    (List.replicate 7 fillD).length < 8 ∧ 8 ≤ (List.replicate 8 fillD).length ∧ (List.replicate 16 (0 : Byte)).length = 16 ∧ (0x44 : Nat) ≠ 0x40
    ∧ fld fillD 1 0 = 0 ∧ fld copyD 1 0 = 1 ∧ mopBadDesc fillD = false ∧ ({ allOn with mopRun := true } : Spm).mopStop = none
    ∧ ({ allOn with mopRun := true, mopStop := some 4 } : Spm).mopStop = some 4 ∧ mopBadDesc copyD = true
    ∧ ({} : Spm).quarter 3 = .off ∧ bit ({ allOn with kept := 8 } : Spm).kept 3 = true ∧ bit allOn.kept 3 = false
    ∧ (asking 2).inrushOpen 23 0xEFF .quarter 3 = false ∧ (asking 3).inrushOpen 23 0xEFF .quarter 3 = true ∧ ({ spm := allOn } : Tile).pwrBusy 3 true = false ∧ ({} : Tile).pwrBusy 3 true = true
    ∧ ({ spm := { allOn with q3 := .retain } } : Tile).pwrBusy 3 false = false ∧ ({ spm := { allOn with q3 := .powering } } : Tile).pwrBusy 3 false = true
    ∧ ({ allOn with q3 := .powering } : Spm).quarter 3 = .powering ∧ ({ allOn with q3 := .retain, rising := 8 } : Spm).quarter 3 = .retain
    ∧ bit ({ allOn with q3 := .retain, rising := 8 } : Spm).rising 3 = true ∧ allOn.scrubInt ≠ 0
    ∧ ({ repairQ := [] } : Spm).nextSpare 15 = some 0
    ∧ ({ repairQ := [], rmap := (List.range 32).map (fun i => (480 + i, { valid := true })) } : Spm).nextSpare 15 = none := by decide +kernel

/-- Nothing but bounds is asked of a vector engine whose tables are canonical. -/
theorem test_premises_VectorResults :
    Table.wf 0 ({ v := [(64 * 31 + 63, 7)], k := [(7, 1)] } : Vxe).v = true ∧ Table.wf 0 ({ v := [(64 * 31 + 63, 7)], k := [(7, 1)] } : Vxe).k = true ∧ vKD (ins 2 3 (7 * 2 ^ 20)) ≠ 0
    ∧ vKD (ins 2 5 (7 * 2 ^ 20)) ≠ 0 ∧ vSub (ins 2 5 (7 * 2 ^ 20)) = 0 ∧ vKD (ins 2 3 0) = 0 := by decide

/-! ### Stacks -/

/-- A stack command of opcode `o` on window 255 and counter 63, opening for the host, with a time-out of `u` µs. -/
def snCmd (o u : Nat) : BitVec 512 :=
  BitVec.ofNat 512 (o + 255 * 2 ^ 96 + 2 * 2 ^ 104 + 1 * 2 ^ 107 + 0xFF * 2 ^ 125 + 2147483648 * 2 ^ 167 + 63 * 2 ^ 200 + u * 2 ^ 256)

/-- A stack with that command waiting and window 255 as given. -/
def snOf (o u : Nat) (w : Window) : Stack := { cmdq := [snCmd o u], pw := .active, w := { win := if w = {} then [] else [(255, w)] } }

/-- The last stack, as given. -/
def stacked (x : Stack) : State := up.updStack 23 (fun _ => x)

/-- A stack whose queue executed CLOSE_NOW number `o`, with close 0 of window 255 still at work. -/
def closing (o : Nat) : Stack := { snOf 2 0 { st := .closed, pend := [⟨0, false, 0, some 63, snDest (snCmd 2 0), 0⟩] } with closing := some o }

theorem test_premises_StackWindowCommands :
    Canon (stacked (snOf 1 0 {})) ∧ (stacked (snOf 1 0 {})).stack 23 = snOf 1 0 {} ∧ fld (snCmd 1 0) 7 0 = 1 ∧ ((snOf 1 0 {}).w.window (fld (snCmd 1 0) 103 96)).st = .closed
    ∧ ({ idx := 255, rights := 2, skind := 1, srcval := 0, cnt := 0xFF, cmode := 0, base64 := 0, limit64 := fld (snCmd 1 0) 198 167, dest := .none } : WopenReq).rangeOk stackTop64 64 = true
    ∧ up.sourceOk 31 1 0 = true ∧ ((snOf 1 0 { st := .open }).w.window (fld (snCmd 1 0) 103 96)).st ≠ .closed ∧ up.sourceOk 31 3 0 = false
    ∧ fld (snCmd 2 0) 7 0 = 2 ∧ ((snOf 2 0 {}).w.window (fld (snCmd 2 0) 103 96)).st = .closed ∧ ((snOf 2 0 { st := .open }).w.window (fld (snCmd 2 0) 103 96)).st ≠ .closed
    ∧ fld (snCmd 3 65535) 7 0 = 3 ∧ fld (snCmd 3 65535) 271 256 ≠ 0 ∧ fld (snCmd 3 0) 271 256 = 0
    ∧ ((snOf 3 0 { st := .quiescing }).w.window (fld (snCmd 3 0) 103 96)).st = .quiescing
    ∧ ((snOf 3 65535 { st := .open, cnt := 63 }).w.window (fld (snCmd 3 65535) 103 96)).cnt ≠ 0xFF
    ∧ ((snOf 3 0 { st := .open, cnt := 63 }).w.window (fld (snCmd 3 0) 103 96)).st = .open
    ∧ (snOf 1 0 {}).closeOpen = false ∧ (closing 0).closeOpen = true ∧ (closing 1).closeOpen = false
    ∧ fld (snCmd 4 0) 7 0 = 4 ∧ fld (snCmd 5 0) 7 0 = 5 ∧ fld (snCmd 0 0) 7 0 = 0 ∧ 8 < fld (snCmd 9 0) 7 0 := by decide +kernel

theorem test_premises_StackEngineCommands :
    fld (snCmd 6 0) 7 0 = 6 ∧ fld (snCmd 7 0) 7 0 = 7 ∧ fld (snCmd 8 0) 7 0 = 8 ∧ (snOf 6 0 {}).sxq = [] ∧ (snOf 6 0 {}).sxe = none ∧ (snOf 8 0 {}).w.win = []
    ∧ ({ sxe := some ⟨snCmd 6 0, 0, 0, 0, 0, [], 0, [], false⟩, cmdq := [snCmd 6 0] } : Stack).sxe.isSome = true
    ∧ (snOf 6 0 {}).closeOpen = false ∧ (∃ kv ∈ (closing 0).w.win, ∃ p ∈ kv.2.pend, p.queued = true)
    ∧ ({ sxq := [snCmd 6 0] } : Stack).sxq = snCmd 6 0 :: [] ∧ ({ sxq := [snCmd 7 0] } : Stack).sxe = none
    ∧ (stacked (snOf 6 0 {})).sxeDestOk 23 (BitVec.ofNat 512 (6 + 0xE0000000000000 * 2 ^ 264 + 1 * 2 ^ 136 + 1 * 2 ^ 160)) = false
    ∧ (withPart {} up).sxeDestOk 23 (BitVec.ofNat 512 (6 + 0x1DE00000000000 * 2 ^ 264 + 1 * 2 ^ 136 + 1 * 2 ^ 160)) = true ∧ ((withPart {} up).stack 23).pw ≠ .active
    ∧ fld (snCmd 6 0) 135 133 < 7 ∧ 0 < fld (BitVec.ofNat 512 (6 + 1 * 2 ^ 136)) 159 136 := by decide +kernel

theorem test_premises_StackPowerReadsAndRepair :
    Canon (stacked { pw := .active }) ∧ ({ pw := .active } : Stack).pwrBusy 0 = false ∧ ({} : Stack).pwrBusy 0 = true ∧ ({ pw := .selfRefresh, waking := true } : Stack).tooHot = false
    ∧ ({} : Stack).pw = .off ∧ ({} : Stack).waking = false
    ∧ ({ pw := .active } : Stack).scrubHrs ≠ 0 ∧ (4095 : Nat) < 4096 ∧ 4096 ≤ ({ spareUsed := 4096 } : Stack).spareUsed ∧ ({} : Stack).recal = []
    ∧ (({ recal := [(31, 1)] } : Stack).chan.get {} 31).state = 0 ∧ (95 : Byte).toNat ≤ 95 ∧ 95 < (96 : Byte).toNat ∧ (99 : Byte).toNat < 100 ∧ 105 ≤ (105 : Byte).toNat
    ∧ ({ pw := .init } : Stack).train.fail = false ∧ ({ pw := .init } : Stack).st ≠ 2 ∧ ({ train := { step := 6 } } : Stack).train.step.toNat = 6 ∧ ({ train := { step := 5 } } : Stack).train.step.toNat < 6
    ∧ (up.mramTable (·.stkRep)).filter (fun r => decide (fld r 4 0 = 23)) = [] ∧ 500 < (501 : W16).toNat ∧ (500 : W16).toNat ≤ 500 ∧ ({ pw := .init } : Stack).chan = []
    ∧ (up.updNode (stackNode 23) (fun x => { x with xbusy := true })).exchanging (stackNode 23) = true
    ∧ ({} : Stack).holeIn 0x1FFFFFFFF8 8 = false ∧ ({ chan := [(31, ⟨1, 2⟩)] } : Stack).holeIn (31 * 0x200 + 0x1F8) 8 = true
    ∧ ({ xe := { pidx := [(0, BitVec.ofNat 32 (2 ^ 31 + 1 * 2 ^ 20))] }, desc := [(0, 5)] } : Stack).xdesc 0 0 = some 5 := by decide +kernel

/-! ### The fabric, synchronisation, a running schedule, lost dies, time and heat -/

/-- The head of a packet of one flit from channel `ch` of port `p` to the last die, of type `ty` and age `age`, its flit received with error pattern `d`. -/
def head1 (ty age p ch : Nat) (d : BitVec 24) : PktHead :=
  ⟨BitVec.ofNat 256 (ty + age * 2 ^ 7 + 32 * 2 ^ 16 + 0x20EF * 2 ^ 32 + 239 * 2 ^ 48), p, ch, [d]⟩

/-- Node 268 routes L-die 239 by entry `e`, its east and south links are up, the east one without module 0, and the ring port links are on. -/
def routed (e : Nat) : State :=
  (up.updNode 268 (fun x => { x with fab := { x.fab with route := [(239, BitVec.ofNat 13 e)], link := [(1, { st := 3, absent := 1 }), (2, { st := 2 })] } })).updHub
    (fun h => { h with ringOn := true })

/-- A router whose phase 0 gives one flit of channel 0 of port 0 to an output from fc 5 on. -/
def slotted : Fab :=
  { runs := [⟨0, 0, 5⟩], phIdx := [(0, BitVec.ofNat 32 (2 ^ 31 + 1 * 2 ^ 15))], slot := [(0, BitVec.ofNat 80 (2 ^ 78 + 1 * 2 ^ 24))] }

/-- The lowest free channels of node 268 for a head of one flit: its east module 0 is absent, north and west are down. -/
theorem free_routed (e p : Nat) (he : e = 0x81 ∨ e = 0x83) (hp : p = 2 ∨ p = 4) :
    (routed e).freeList 268 0 (head1 1 0 p 0 0).hdr = [none, some 3, some 0, none, some 0] := by
  have hf : ((routed e).node 268).fab = { route := [(239, BitVec.ofNat 13 e)], link := [(1, { st := 3, absent := 1 }), (2, { st := 2 })] } := rfl
  have hl : (routed e).localChans 268 (head1 1 0 p 0 0).hdr = List.range 8 := rfl
  have hk : flitsOf (fld (head1 1 0 p 0 0).hdr 24 16) = 1 := by obtain rfl | rfl := hp <;> decide +kernel
  simp only [State.freeList, hf, hl, hk]
  obtain rfl | rfl := he <;> obtain rfl | rfl := hp <;> decide +kernel

theorem test_premises_RoutersAndTheControlNetwork_heads :
    Canon (routed 0x81) ∧ ((routed 0x81).node 268).fab.inject = [] ∧ (∀ d ∈ (head1 9 0 1 3 0).devs, decodeBurst d = .clean)
    ∧ ((routed 0x81).node 268).fab.present 268 1 23 = true ∧ ((routed 0x81).node 268).fab.present 268 1 2 = false
    ∧ fld (head1 0 0 1 3 0).hdr 3 0 = 0 ∧ 8 < fld (head1 9 0 1 3 0).hdr 3 0 ∧ fld (head1 1 0 1 3 0).hdr 3 0 = 1 ∧ fld (head1 8 0 1 3 0).hdr 3 0 = 8
    ∧ fld (head1 1 0 1 3 0).hdr 63 48 = 239 ∧ bit (((routed 0xC1).node 268).fab.route.get 0 239) 6 = true ∧ bit (((routed 0x1).node 268).fab.route.get 0 239) 7 = false
    ∧ bit (((routed 0x81).node 268).fab.route.get 0 239) 6 = false ∧ bit (((routed 0x81).node 268).fab.route.get 0 239) 7 = true
    ∧ (head1 1 0 4 0 0).inPort = 4 ∧ (head1 1 0 3 23 0).inPort < 4
    ∧ routeHead (((routed 0x81).node 268).fab.route.get 0 239) ((routed 0x81).freeList 268 0 (head1 1 0 2 0 0).hdr) = some (1, 3, false)
    ∧ routeHead (((routed 0x83).node 268).fab.route.get 0 239) ((routed 0x83).freeList 268 0 (head1 1 0 2 0 0).hdr) = some (1, 3, true)
    ∧ (((routed 0x81).freeList 268 0 (head1 1 0 4 0 0).hdr)[fld (((routed 0x81).node 268).fab.route.get 0 239) 2 0]?).join = some 3
    ∧ (((routed 0x83).freeList 268 0 (head1 1 0 4 0 0).hdr)[fld (((routed 0x83).node 268).fab.route.get 0 239) 2 0]?).join = none := by
  rw [free_routed 0x81 2 (by decide) (by decide), free_routed 0x83 2 (by decide) (by decide), free_routed 0x81 4 (by decide) (by decide),
    free_routed 0x83 4 (by decide) (by decide)]
  have hc : ∀ d ∈ (head1 9 0 1 3 0).devs, decodeBurst d = .clean := by
    intro d hd
    obtain rfl : d = 0 := by simpa [head1] using hd
    decide
  and_intros <;> first | exact hc | decide +kernel

theorem test_premises_RoutersAndTheControlNetwork_flits :
    decodeBurst 0 = .clean ∧ decodeBurst 0x101 = .poisoned ∧ decodeBurst 514 = .bad ∧ (head1 1 0 2 0 514).devs = [514]
    ∧ (({ ues := List.replicate 15 0 } : Link).ues.filter (fun u => decide (up.now < u + 1000000))).length < 16
    ∧ PktHead.rank (head1 1 64 2 0 0) < PktHead.rank (head1 1 63 1 0 0) ∧ PktHead.rank (head1 1 5 2 0 0) < PktHead.rank (head1 1 4 1 0 0)
    ∧ 64 ≤ fld (head1 1 64 2 0 0).hdr 13 7 ∧ fld (head1 1 63 1 0 0).hdr 13 7 < 64
    ∧ slotted.entryFor 4 0 0 = none ∧ slotted.entryFor 6 0 0 = none ∧ slotted.entryFor 5 0 0 = some (BitVec.ofNat 80 (2 ^ 78 + 1 * 2 ^ 24))
    ∧ slotted.present 268 4 7 = true ∧ slotted.present 268 0 0 = false := by decide +kernel

theorem test_premises_RoutersAndTheControlNetwork_packets :
    (routed 0).ctlWay 268 = some [(0, 0)] ∧ up.ctlWay 268 = none
    ∧ ({ up with ctlq := [⟨268, .heartbeat⟩] } : State).ctlq = ⟨268, .heartbeat⟩ :: [] ∧ CtlPkt.prio ⟨268, .msg (.spmRepair 3839 15 16383 false)⟩ = true
    ∧ (∀ c ∈ [(⟨268, .regRsp 0 0 []⟩ : CtlPkt)], c.src = 268 → c.prio = false)
    ∧ ({ up with ctlq := [⟨268, .regRsp 0 0 []⟩, ⟨268, .heartbeat⟩] } : State).ctlq = ⟨268, .regRsp 0 0 []⟩ :: ⟨268, .heartbeat⟩ :: []
    ∧ up.siteOf 268 = none ∧ (2 : Nat) < 3 := by decide +kernel

/-- Tile 15 of L-die 231 has arrived on channel 16, whose domain has it; stack node 263 is that die's child over edge 2, and is complete. -/
def arrived : State :=
  let s := (withPart { root := 231 } up).updTile 3711 (fun x => { x with arr := [(16, some ⟨.step, false, false, false, 0⟩)] })
  (s.updNode 231 (fun x => { x with sync := { x.sync with cfg := [(16, BitVec.ofNat 30 (2 ^ 24 + 2 ^ 23))] } })).updNode 263 (fun x => { x with
    sync := { x.sync with cfg := [(16, BitVec.ofNat 30 (2 ^ 24))], got := [(16, [(.node 263, ⟨.step, false, false, false, 0⟩)])] } })

theorem test_premises_SynchronisationNetwork :
    Canon arrived ∧ (arrived.tile (16 * 231 + 15)).arr.get none 16 = some ⟨.step, false, false, false, 0⟩ ∧ bit (arrived.chCfg 231 16) 24 = true
    ∧ bit (arrived.chCfg 231 16) (8 + 15) = true ∧ Table.wf [] (arrived.node 231).sync.got = true ∧ arrived.syncChild 231 16 2 = some 263
    ∧ arrived.syncFull 263 16 = true ∧ Table.wf [] (arrived.node 263).sync.got = true ∧ Table.wf 0 (arrived.node 231).sync.edges = true
    ∧ bit ((up.updNode 268 (fun x => { x with sync := { x.sync with cfg := [(15, BitVec.ofNat 30 (2 ^ 24 + 2 ^ 25))] } })).chCfg 268 15) 25 = true
    ∧ (up.updNode 268 (fun x => { x with sync := { x.sync with cfg := [(15, BitVec.ofNat 30 (2 ^ 24 + 2 ^ 25))] } })).syncFull 268 15 = true
    ∧ up.ranked [(.tile 0, ⟨.bar, false, false, false, 0⟩), (.tile 1, ⟨.flagor, false, false, false, 0⟩)]
        = (0, ⟨.bar, false, false, false, 0⟩) :: [(1, ⟨.flagor, false, false, false, 0⟩)] ∧ SyncSig.flagor ≠ .bar
    ∧ ((tileAt 0 0 { seq := { st := .hold, hold := .flagor 15 7 0xFFFFFC } }).tile 3839).spm.refused 0xFFFFFC 4 = none := by decide +kernel

/-- Partition 3, RUNNING from its first wingbeat, every tile as given. -/
def running (w : Wbs) (x : Tile) : State :=
  { withPart { sch := { state := .running }, wbs := w, root := 230 } up with tiles := if x = {} then [] else (List.range 160).map (fun i => (3680 + i, x)) }

/-- A tile that holds at STEP and has arrived. -/
def atStep : Tile := { seq := { st := .hold, hold := .step true } }

/-- A wingbeat of phase 5. -/
def beat5 (noX : Bool) : Wingbeat := ⟨5, 1, 1000, 0, false, false, false, noX⟩

/-- L-die 230 is the root of the step channel and has its own arrival. -/
def combined (n : Nat) : State := (running {} {}).updNode 230 (fun x => { x with
  sync := { x.sync with cfg := [(16, BitVec.ofNat 30 (2 ^ 24 + 2 ^ 25))], got := [(16, [(.node 230, ⟨.step, false, false, false, BitVec.ofNat 64 n⟩)])] } })

theorem test_premises_RunningASchedule_wingbeats :
    (running { started := true } atStep).pair 3 = [3] ∧ (running { started := true } atStep).firstReady 3 = true
    ∧ (running { cAt := some 0 } atStep).firstReady 3 = false ∧ (running { cAt := some 0 } atStep).nextReady 3 = true
    ∧ (running { wb := some (beat5 true) } {}).partOfNode 263 = 3 ∧ (beat5 true).noExchange = true ∧ (beat5 false).noExchange = false
    ∧ ((running { wb := some (beat5 false) } {}).part 3).wbs.wb = some (beat5 false) ∧ atStep.seq.hold = .step true := by decide +kernel

/-- The last tile of L-die 230, whose phase 0 has `m` descriptors from offset 0xFFFFE0 on, of which `j` are sent. -/
def listed (m j : Nat) (p : Spm) : Tile := { xe := { pidx := [(0, BitVec.ofNat 32 (2 ^ 31 + m * 2 ^ 20 + 0x7FFFF))], sent := j }, spm := p }

theorem test_premises_RunningASchedule_exchange :
    ((running {} {}).updNode 230 (fun x => { x with xbusy := true })).exchanging 230 = true
    ∧ (listed 1 0 allOn).xe.sent = 0 ∧ (listed 1 0 allOn).xdescOff 0 0 = some 0xFFFFE0 ∧ (listed 1 1 allOn).xdescOff 0 1 = none
    ∧ (listed 1 0 allOn).spm.refused 0xFFFFE0 32 = none ∧ (listed 1 0 { allOn with q3 := .off }).spm.refused 0xFFFFE0 32 = some (0xFFFFE0, 1)
    ∧ ({ xe := { pidx := [(0, BitVec.ofNat 32 (2 ^ 31 + 1 * 2 ^ 20))] } } : Stack).xdesc 0 0 = some 0
    ∧ (running {} {}).partOfNode 230 < 24 ∧ bit ((combined 0).chCfg 230 16) 24 = true ∧ ((combined 0).part 3).wbs.wb = none
    ∧ ((combined 0).part 3).sch.state = .running ∧ ((combined 0).part 3).wbs.started = false ∧ ((combined 0).node 230).xbusy = false
    ∧ (((running {} {}).node 230).sync.got.get [] 16).any (fun g => g.1 == Member.node 230) = false := by decide +kernel

theorem test_premises_RunningASchedule_combines :
    (combined 0).pair 3 = [3] ∧ (combined 0).combineFull 3 = true ∧ (combined 0).stepWord 3 < 256 ∧ ((combined 512).stepWord 3).testBit 9 = true
    ∧ ((combined 256).stepWord 3).testBit 9 = false ∧ ((combined 256).stepWord 3).testBit 8 = true
    ∧ (combined 8192).stepWord 3 < 2 ^ 14 ∧ 2 ^ 10 ≤ (combined 8192).stepWord 3 ∧ ((combined 8192).stepWord 3).testBit 9 = false ∧ ((combined 8192).stepWord 3).testBit 8 = false
    ∧ (∃ s : State, s.pair 3 = [3] ∧ (s.part 3).sch.state = .rollback ∧ (s.part 3).wbs.wb = none ∧ s.allAtStep 3 = true ∧ (s.part 3).wbs.haltReq = 0
        ∧ (s.hub.molt.get {} 3).ldies = []) := by
  and_intros
  all_goals first | decide +kernel | exact ⟨{ withPart { sch := { state := .rollback } } up with tiles := (List.range 160).map (fun i => (3680 + i, atStep)) }, by decide +kernel⟩

theorem test_premises_RunningASchedule_watchdog :
    (running {} { seq := { st := .idle } }).hub.tb.startAt = none ∧ ((running {} { seq := { st := .idle } }).part 3).wbs.cAt = none
    ∧ 3680 ∈ (running {} { seq := { st := .idle } }).liveTiles 3 ∧ ((running {} { seq := { st := .idle } }).tile 3680).seq.hold ≠ .step true
    ∧ ((running {} { seq := { st := .idle } }).tile 3680).seq.st = .idle
    ∧ (∀ t ∈ (running {} { seq := { st := .idle } }).liveTiles 3, ((running {} { seq := { st := .idle } }).tile t).seq.st ≠ .exc) := by decide +kernel

/-- L-die 239 lost in partition 3, and P-site 286 a spare that is ready. -/
def molting : State := (withPart {} up).updHub (fun h => { h with
  molt := [(3, { ldies := [(239, none)] })], anat := { h.anat with site := [(287, { state := 1 })] } })

theorem test_premises_LostDies :
    (powered 291 1).timed 268 = true ∧ (up.updHub (fun h => { h with probe := [(268, 6)] })).hub.probe.get 0 268 = 5 + 1
    ∧ (up.updHub (fun h => { h with lost := [268] })).hub.lost.contains 268 = true ∧ up.hub.lost.contains 264 = false
    ∧ molting.waitsSpare (287 / 12) = some 239 ∧ (molting.hub.anat.site.get {} 287).state = 1 ∧ Canon molting := by decide +kernel

/-- The last port die's fabric on; L-die 239 on. -/
def dieOn : State := (withPart {} up).updHub (fun h => { h with region := [(286, 3), (291, 3)] })

theorem test_premises_ReferencesEyespotsAndTheTimeBase :
    up.hub.feed.mainGood = true ∧ (up.hwr tbmFref 1).hrd tbmFref = 1 ∧ (up.hwr tbmFref 1).hrd tbmHoldover = 0 ∧ (up.hwr tbmFref 0).hrd tbmFref ≠ 1 ∧ up.hub.score.fwUp = true
    ∧ dieOn.power 268 = 3 ∧ dieOn.power 239 = 3 ∧ dieOn.rd 239 eyeWarnTh ≤ (15 : BitVec 4).toNat ∧ dieOn.rd 239 eyeCritTh ≤ (15 : BitVec 4).toNat
    ∧ (up.updHub (fun h => { h with tb := { startAt := some 0, pulse := [268] } })).hub.tb.pulse.contains 268 = true
    ∧ (up.updHub (fun h => { h with tb := { startAt := some 0, pulse := [268] } })).hub.tb.diff.get 0 268 = 0
    ∧ ((up.updHub (fun h => { h with tb := { pulse := [268] } })).node 268).xbusy = false ∧ Table.wf 0 up.hub.tb.diff = true ∧ 1 < (0 + -2 : Int).natAbs
    ∧ (up.wr 268 tbSynced 1).rd 268 tbSynced = 1 ∧ (up.hwr tbmDisc 0).hrd tbmDisc = 0 ∧ dieOn.power 239 ≠ 0 := by decide +kernel

theorem test_premises_CoolingAndHeat :
    Canon up ∧ up.hub.feed.mainGood = true ∧ up.hub.cool.seq ≠ some 0 ∧ (4 : W16).toNat % 4 = 0 ∧ 600 ≤ (600 : W16).toNat ∧ (6000 : W16).toNat ≤ 6000
    ∧ up.hub.cool.bad ≠ 9 ∧ up.hub.cool.failed = false ∧ up.hub.cool.sensor = false ∧ -1000 ≤ signedOf 16 (64536 : W16).toNat ∧ signedOf 16 (10000 : W16).toNat ≤ 10000
    ∧ (up.hwr thmFlowStop 1).hrd thmFlowStop = 1 ∧ (((running {} {}).hwr thmFlowStop 1).part 23).sch.state ≠ .running
    ∧ (((running {} {}).hwr thmFlowStop 1).part 3).sch.state = .running ∧ (((running {} {}).hwr thmFlowStop 1).hub.molt.get {} 3).ldies = []
    ∧ ((up.hwr thmFlowStop 1).updHub (fun h => { h with cool := { h.cool with backSince := some 0 } })).hub.cool.backSince = some 0
    ∧ dieOn.power 239 ≠ 0 ∧ up.power 268 = 0 ∧ dieOn.power 268 ≠ 0 := by decide +kernel

/-! ### Bring-up -/

/-- Instar `i` is under way. -/
def boots (i : Nat) (b : Boot) : State := (up.hwr bootPhase 1).updHub (fun h => { h with boot := { b with target := i } })

theorem test_premises_BringUpSequence :
    Canon up ∧ up.hub.feed.mainGood = true ∧ up.hrd thmFlowStop = 0 ∧ up.hrd bootImago = 0 ∧ up.hrd bootPhase = 0 ∧ (1 : Fin 8).val = up.hrd bootInstar + 1
    ∧ (7 : Fin 8).val = (up.hwr bootInstar 6).hrd bootInstar + 1 ∧ (up.hwr bootPhase 2).hrd bootPhase = 2 ∧ (2 : Fin 8).val ≠ up.hrd bootInstar + 1
    ∧ (boots 4 { work := true }).hrd bootPhase = 1 ∧ (boots 4 { work := true }).hub.boot.work = true ∧ (boots 4 { work := true }).stacksReady = true
    ∧ (boots 4 { work := true }).hub.boot.code = 0 ∧ (boots 1 { work := true, code := 8 }).hub.boot.code ≠ 0 ∧ (up.hwr bootTries 1).hrd bootTries < 2
    ∧ 2 ≤ (up.hwr bootTries 2).hrd bootTries ∧ up.hrd bootPhase ≠ 3 := by decide +kernel

theorem test_premises_BringUpInstars_first :
    (boots 1 {}).booting 1 = true ∧ (boots 1 {}).hub.score.fwUp = true ∧ (boots 1 {}).hub.rot.clears = [] ∧ (boots 1 {}).mramTable (·.phase) = []
    ∧ Table.wf 0 (boots 1 {}).hub.region = true ∧ (boots 1 {}).neverPowered 287 = false ∧ ((22 : StackNo).val ≠ 287 / 12)
    ∧ (boots 2 {}).booting 2 = true ∧ (boots 2 {}).burnFuses.hub.boot.silentPorts.contains 0 = false
    ∧ (boots 2 {}).burnFuses.idOk ((boots 2 {}).burnFuses.idRecord 288) 0x1F1 = true ∧ (boots 2 {}).burnFuses.hub.bbx.hub.readable = true
    ∧ (((boots 2 {}).updHub (fun h => { h with bbx := { h.bbx with hub := { h.bbx.hub with readable := false }, east := { h.bbx.east with readable := false } } })).burnFuses).hub.bbx.hub.readable = false
    ∧ (boots 3 {}).booting 3 = true ∧ (boots 3 {}).hub.boot.badPort.contains 3 = false ∧ (boots 4 {}).booting 4 = true := by decide +kernel

/-- Instar 5 with a bundle of 13 chunks at 0 in host memory, and function 0 the master of its bus or not. -/
def fetches (master : Bool) : State := ((boots 5 {}).hwr bootFwLen 0xD000).updFn 0 (fun x => { x with busMaster := master })

/-- A bundle of 13 chunks: the header, 8 chunks of tile firmware and 1 of stack firmware, all zeros, and a signature section of 3, whose two
digests are those that R468 and R579 ask for. -/
def digest (l : List Byte) : List Byte := bytesLE 48 (Config.sha384 l).toNat
def zbHead : List Byte := [0x5A, 0x42, 0x4E, 0x34, 1, 0, 13, 0, 1, 0, 8, 0, 9, 0, 1, 0, 10, 0, 3, 0] ++ List.replicate 12 0
def zbBody : List Byte := List.replicate 36864 0
def zbChunk0 : List Byte := zbHead ++ (digest zbBody ++ List.replicate 4016 0)
def zbSigHead : List Byte := [0x5A, 0x53, 0x47, 0x34, 1, 0, 0, 0, 1, 0, 0, 0, 0, 0, 0, 0]
def zbSigSec : List Byte := zbSigHead ++ (digest zbChunk0 ++ List.replicate 12224 0)
def bundle13 (sig : Bool) : Bundle := ⟨zbChunk0 ++ (zbBody ++ zbSigSec), sig⟩

theorem length_bytesLE (k v : Nat) : (bytesLE k v).length = k := by
  induction k generalizing v with
  | zero => rfl
  | succ k ih => simp [bytesLE, ih]

theorem length_digest (l : List Byte) : (digest l).length = 48 := length_bytesLE 48 _
theorem length_zbChunk0 : zbChunk0.length = 4096 := by
  simp only [zbChunk0, digest, List.length_append, length_bytesLE, List.length_replicate]
  rfl
theorem length_zbSigSec : zbSigSec.length = 12288 := by
  simp only [zbSigSec, digest, List.length_append, length_bytesLE, List.length_replicate]
  rfl
theorem length_zbBody : zbBody.length = 36864 := List.length_replicate

/-- A field of the header before ZB_DIGEST, and one of the signature section before its digest. -/
theorem zbWord_head (b : Bool) (a n : Nat) (h : a + n ≤ 32) : zbWord (bundle13 b) a n = ofLE ((zbHead.drop a).take n) := by
  have e : (bundle13 b).bytes = zbHead ++ ((digest zbBody ++ List.replicate 4016 0) ++ (zbBody ++ zbSigSec)) := List.append_assoc _ _ _
  have hl : zbHead.length = 32 := rfl
  rw [zbWord, e, List.drop_append_of_le_length (by omega), List.take_append_of_le_length (by rw [List.length_drop]; omega)]

theorem bundle13_sig (b : Bool) : zbSig (bundle13 b) = zbSigSec := by
  have e : (bundle13 b).bytes = (zbChunk0 ++ zbBody) ++ zbSigSec := (List.append_assoc _ _ _).symm
  have h1 : zbWord (bundle13 b) 16 2 = 10 := zbWord_head b 16 2 (by decide)
  have h2 : zbWord (bundle13 b) 18 2 = 3 := zbWord_head b 18 2 (by decide)
  rw [zbSig, zbSect, h1, h2, e, List.drop_left' (by rw [List.length_append, length_zbChunk0, length_zbBody]), List.take_of_length_le]
  exact Nat.le_of_eq length_zbSigSec

theorem zbSigWord_head (b : Bool) (a n : Nat) (h : a + n ≤ 16) : zbSigWord (bundle13 b) a n = ofLE ((zbSigHead.drop a).take n) := by
  have hl : zbSigHead.length = 16 := rfl
  rw [zbSigWord, bundle13_sig, zbSigSec, List.drop_append_of_le_length (by omega), List.take_append_of_le_length (by rw [List.length_drop]; omega)]

theorem bundle13_take (b : Bool) : (bundle13 b).bytes.take 4096 = zbChunk0 := List.take_left' length_zbChunk0

theorem test_premises_BringUpInstars_header (b : Bool) : bundleHeaderOk (bundle13 b) 13 = true ∧ bundleHeaderOk (bundle13 b) 14 = false := by
  have hl : (bundle13 b).bytes.length = 53248 := by
    rw [bundle13, List.length_append, List.length_append, length_zbChunk0, length_zbBody, length_zbSigSec]
  have hz : ((bundle13 b).bytes.take 4096).drop 80 = List.replicate 4016 0 := by
    rw [bundle13_take, zbChunk0, ← List.append_assoc]
    exact List.drop_left' (by rw [List.length_append, digest, length_bytesLE]; rfl)
  have ha : (List.replicate 4016 (0 : Byte)).all (· == 0) = true := List.all_eq_true.mpr fun x hx => by rw [List.eq_of_mem_replicate hx]; rfl
  constructor
  · simp (disch := decide) only [bundleHeaderOk, hl, hz, ha, zbWord_head b]
    decide +kernel
  · simp only [bundleHeaderOk, hl, show decide (53248 = 4096 * 14) = false from rfl, Bool.false_and]

theorem test_premises_BringUpInstars_digest (b : Bool) : zbDigestOk (bundle13 b) = true := by
  have h1 : zbWord (bundle13 b) 16 2 = 10 := zbWord_head b 16 2 (by decide)
  have h2 : zbWord (bundle13 b) 18 2 = 3 := zbWord_head b 18 2 (by decide)
  have hb : ((bundle13 b).bytes.take 40960).drop 4096 = zbBody := by
    have e : (bundle13 b).bytes = (zbChunk0 ++ zbBody) ++ zbSigSec := (List.append_assoc _ _ _).symm
    rw [e, List.take_left' (by rw [List.length_append, length_zbChunk0, length_zbBody]), List.drop_left' length_zbChunk0]
  have he : (bundle13 b).bytes.drop 53248 = [] := List.drop_of_length_le (Nat.le_of_eq (by
    rw [bundle13, List.length_append, List.length_append, length_zbChunk0, length_zbBody, length_zbSigSec]))
  have hc : zbCovered (bundle13 b) = zbBody := by
    simp only [zbCovered, h1, h2]
    rw [hb, he, List.append_nil]
  have hd : ((bundle13 b).bytes.drop 32).take 48 = digest zbBody := by
    have e : (bundle13 b).bytes = zbHead ++ (digest zbBody ++ (List.replicate 4016 0 ++ (zbBody ++ zbSigSec))) := by
      simp only [bundle13, zbChunk0, List.append_assoc]
    rw [e, List.drop_left' (show zbHead.length = 32 from rfl), List.take_left' (length_digest _)]
  exact decide_eq_true (by rw [zbWord, hd, hc, digest])

theorem test_premises_BringUpInstars_signature (b : Bool) :
    zbSigFormed (bundle13 b) = true ∧ zbSvn (bundle13 b) = 0 ∧ zbSigner (bundle13 b) = 1 ∧ zbOpSig (bundle13 b) = false ∧ (bundle13 false).sigOk = false := by
  have hd : (zbSigSec.drop 16).take 48 = digest zbChunk0 := by
    rw [zbSigSec, List.drop_left' (show zbSigHead.length = 16 from rfl), List.take_left' (length_digest _)]
  have hz : zbSigSec.drop 9510 = List.replicate 2778 0 := by
    have e : zbSigSec = (zbSigHead ++ (digest zbChunk0 ++ List.replicate 9446 0)) ++ List.replicate 2778 0 := by
      simp only [zbSigSec, List.append_assoc, List.replicate_append_replicate]
    rw [e, List.drop_left' (by simp only [digest, List.length_append, length_bytesLE, List.length_replicate]; rfl)]
  have ha : (List.replicate 2778 (0 : Byte)).all (· == 0) = true := List.all_eq_true.mpr fun x hx => by rw [List.eq_of_mem_replicate hx]; rfl
  have hw : zbSigWord (bundle13 b) 16 48 = ofLE (bytesLE 48 (Config.sha384 zbChunk0).toNat) := by rw [zbSigWord, bundle13_sig, hd, digest]
  refine ⟨?_, zbSigWord_head b 6 2 (by decide), zbSigWord_head b 8 1 (by decide), ?_, rfl⟩
  · simp only [zbSigFormed, zbSigner, bundle13_take, hw, decide_true, Bool.and_true]
    simp (disch := decide) only [bundle13_sig, length_zbSigSec, hz, ha, zbSigWord_head b]
    decide +kernel
  · rw [zbOpSig, zbSigWord_head b 9 1 (by decide)]
    decide

theorem test_premises_BringUpInstars_load :
    (fetches true).booting 5 = true ∧ (fetches true).hub.boot.miss = [] ∧ (fetches true).fwPlaceOk = true ∧ ((fetches true).fn 0).busMaster = true
    ∧ ((fetches false).fn 0).busMaster = false ∧ ((fetches true).hwr bootFwLen 0).fwPlaceOk = false ∧ (fetches true).hrd bootFwLen / 4096 = 13
    ∧ (fetches true).policyOk ((fetches true).hrd polMinSvnBundle) 0 1 false = true
    ∧ (fetches true).policyOk 1 0 1 false = false
    ∧ (boots 5 { miss := [(4919, 0)], round := 8 }).loading = true ∧ (boots 5 { miss := [(4919, 0)], round := 9 }).loading = true
    ∧ (4919, 0) ∈ (boots 5 { miss := [(4919, 0)], round := 9 }).hub.boot.miss ∧ (Receiver.stack 23).key = 4919
    ∧ (boots 6 {}).booting 6 = true ∧ (boots 6 { kat := [(4919, 1)] }).hub.boot.kat.get 0 4919 ≠ 0 ∧ (boots 6 {}).hub.boot.kat.get 0 4919 = 0
    ∧ ((boots 6 {}).updHub (fun h => { h with region := [(281, 3)] })).receivers.contains 4919 = true := by decide +kernel

/-- Instar 7 with one die mapped, its site powered. -/
def settles : State := (boots 7 {}).updHub (fun h => { h with region := [(276, 3)], anat := { h.anat with smap := [(230, { psite := 276, valid := true })], site := [(276, { role := 1, lslot := 0, ldie := 230 })] } })

/-- What instar 7 has settled, recorded and measured. -/
def settled (s : State) : State := (s.settle.1.passThree.1.settleRecords (s.settle.2 ++ s.settle.1.passThree.2) s.settle.2).measureBoot

theorem test_premises_BringUpInstars_reconcile :
    settles.booting 7 = true ∧ (boots 7 {}).settle.1.passThree.1.someDie = false ∧ settles.settle.1.passThree.1.someDie = true ∧ settles.settle.2 = []
    ∧ (settled settles).measureOk = true ∧ (settled (settles.hwr polMinSvnHub 1)).measureOk = false
    ∧ Table.wf [] settles.hub.rot.meas = true ∧ (boots 1 {}).hub.fuseOpen.contains 287 = false := by decide +kernel

/-! ### Port dies: keys, connections, work requests -/

/-- Port die 3 (west, Ethernet) with `c` at the head of partition 3's command queue. -/
def portCmd (c : BitVec 512) : State := (withPart {} up).updBlk 3 3 (fun b => { b with cmdq := [c] })

/-- TK_BIND of key 4,095 to 64 bytes of the last tile through window 63; TK_UNBIND of that key. -/
def bindCmd : BitVec 512 := BitVec.ofNat 512 (1 + 4095 * 2 ^ 96 + 0x1DFE0000000000 * 2 ^ 108 + 1 * 2 ^ 164 + 3 * 2 ^ 195 + (63 * 256 + 1) * 2 ^ 211)
def unbindCmd : BitVec 512 := BitVec.ofNat 512 (2 + 4095 * 2 ^ 96)

/-- Key 4,095 owned by partition 3, bound or not, and window 63 of the last tile open for it. -/
def keyed (bound : Nat) (c : BitVec 512) : State :=
  (((portCmd c).wr tkPlace (tkOwner 4095) 3).wr tkPlace (tkBound 4095) bound).updTile 3839 (fun x => { x with
    w := { x.w with win := [(63, { gen := 1, st := .open, rights := 3, skind := 2, srcval := 4095, limit64 := 1 })] } })

theorem test_premises_KeyAndConnectionCommands_keys :
    Canon (keyed 0 bindCmd) ∧ (keyed 0 bindCmd).isEth 3 = true ∧ ((keyed 0 bindCmd).blk 3 3).unbinding = none ∧ ((keyed 0 bindCmd).blk 3 3).cmdq = bindCmd :: []
    ∧ 5 < fld (BitVec.ofNat 512 6) 7 0 ∧ fld (BitVec.ofNat 512 0) 7 0 = 0 ∧ (∀ o ∈ [1, 2, 3, 4, 5], fld (BitVec.ofNat 512 (o + 2 ^ 15)) 7 0 = o ∧ pcReserved (BitVec.ofNat 512 (o + 2 ^ 15)) = false)
    ∧ pcReserved bindCmd = true ∧ fld bindCmd 7 0 = 1 ∧ fld bindCmd 163 108 % 64 = 0 ∧ fld bindCmd 194 164 ≠ 0 ∧ (portCmd bindCmd).rd tkPlace (tkOwner (fld bindCmd 107 96)) ≠ 3
    ∧ (keyed 1 bindCmd).rd tkPlace (tkOwner (fld bindCmd 107 96)) = 3 ∧ (keyed 1 bindCmd).rd tkPlace (tkBound (fld bindCmd 107 96)) = 1
    ∧ (keyed 0 bindCmd).rd tkPlace (tkBound (fld bindCmd 107 96)) = 0
    ∧ decodePga (BitVec.ofNat 56 (fld bindCmd 163 108)) (64 * fld bindCmd 194 164) ((keyed 0 bindCmd).partStacks 3).length = some (.direct (.tile 3839) 0) ∧ segReg (.tile 3839) = false
    ∧ (keyed 0 bindCmd).bindWindow 3 (.tile 3839) (BitVec.ofNat 16 (fld bindCmd 226 211)) (fld bindCmd 107 96) 0 (64 * fld bindCmd 194 164) (fld bindCmd 197 195) = true
    ∧ (portCmd bindCmd).bindWindow 3 (.tile 3839) (BitVec.ofNat 16 (fld bindCmd 226 211)) (fld bindCmd 107 96) 0 (64 * fld bindCmd 194 164) (fld bindCmd 197 195) = false := by decide +kernel

/-- CONN_OPEN of index 4,095 on port 7, RoCEv2 with an MTU of 4,096 bytes or UET; a close and a query of it. -/
def openCmd (uet : Nat) : BitVec 512 := BitVec.ofNat 512 (3 + 4095 * 2 ^ 96 + uet * 2 ^ 108 + 128 * 2 ^ 109 + 2 * 2 ^ 408)
def connCmd (o : Nat) : BitVec 512 := BitVec.ofNat 512 (o + 4095 * 2 ^ 96)

/-- Quad 3 of port die 3 in mode 8, so that port 7 is configured. -/
def quad8 (s : State) : State := (s.wr 268 (qmode 3) 8).applyMode 3 3

theorem test_premises_KeyAndConnectionCommands_connections :
    pcReserved unbindCmd = true ∧ fld unbindCmd 7 0 = 2 ∧ (keyed 1 unbindCmd).rd tkPlace (tkOwner (fld unbindCmd 107 96)) = 3 ∧ (keyed 1 unbindCmd).keyLive (fld unbindCmd 107 96) 3 = true
    ∧ (((keyed 1 0).updBlk 3 3 (fun b => { b with unbinding := some unbindCmd })).blk 3 3).unbinding = some unbindCmd ∧ (keyed 1 0).rd tkPlace (tkInfl (fld unbindCmd 107 96)) = 0
    ∧ (∀ u ∈ [0, 1], pcReserved (openCmd u) = true ∧ fld (openCmd u) 7 0 = 3 ∧ fld (openCmd u) 409 408 = 2
        ∧ bitsOf (BitVec.ofNat 8 (fld (openCmd u) 116 109)) 8 = [7] ∧ (quad8 (portCmd (openCmd u))).portOn 3 7 = true ∧ (portCmd (openCmd u)).rd 268 (cnState (fld (openCmd u) 107 96)) = 0)
    ∧ bit (openCmd 1) 108 = true ∧ bit (openCmd 0) 108 = false ∧ ((portCmd 0).wr 268 (cnState 4095) 2).rd 268 (cnState (fld (openCmd 0) 107 96)) ≠ 0
    ∧ ((portCmd 0).conn 3 4095).nonces.contains (BitVec.ofNat 64 (fld (openCmd 0) 255 192)) = false
    ∧ (((portCmd 0).updConn 3 4095 (fun y => { y with nonces := [0] })).conn 3 4095).nonces.contains (BitVec.ofNat 64 (fld (openCmd 0) 255 192)) = true
    ∧ (∀ o ∈ [4, 5], pcReserved (connCmd o) = true ∧ fld (connCmd o) 7 0 = o) ∧ (portCmd 0).rd 268 (cnPart 4095) ≠ 3 ∧ ((portCmd 0).wr 268 (cnPart 4095) 3).rd 268 (cnPart 4095) = 3 := by
  decide +kernel

/-- Port die 3's connection 4,095 OPEN over port 7, UET or RoCEv2, as given. -/
def conned (uet : Nat) (y : Conn) : State := ((((quad8 (withPart {} up)).wr 268 (cnState 4095) 2).wr 268 (cnUet 4095) uet).wr 268 (cnPorts 4095) 128).updConn 3 4095 (fun _ => y)

/-- A packet of number 5, tried `n` times. -/
def pkt5 (n : Nat) : TxPkt := ⟨5, 0, n, 7, .cnp⟩

theorem test_premises_WorkRequestsAndEthernetEvents_requests :
    (conned 0 {}).isEth 3 = true ∧ ((((conned 0 {}).updBlk 3 3 (fun b => { b with wrq := [BitVec.ofNat 512 (5 + 4095 * 2 ^ 12)] })).blk 3 3).wrq = BitVec.ofNat 512 (5 + 4095 * 2 ^ 12) :: [])
    ∧ wrOp (BitVec.ofNat 512 (5 + 4095 * 2 ^ 12)) = 5 ∧ wrConn (BitVec.ofNat 512 (5 + 4095 * 2 ^ 12)) = 4095 ∧ wrOp (BitVec.ofNat 512 0) = 0 ∧ 5 < wrOp (BitVec.ofNat 512 6)
    ∧ (conned 0 {}).moltPaused 3 = false ∧ ((conned 0 {}).hwr (fpMolting 3) 1).moltPaused 3 = true ∧ (conned 0 {}).rd 268 (cnWrOutst 4095) < 256
    ∧ 256 ≤ ((conned 0 {}).wr 268 (cnWrOutst 4095) 256).rd 268 (cnWrOutst 4095) ∧ ((conned 0 {}).port 3).wrs = [] ∧ (∀ r ∈ ((conned 0 {}).port 3).wrs, r.id ≠ ((conned 0 {}).port 3).next)
    ∧ (((conned 0 {}).updPort 3 (fun x => { x with wrs := [{ id := 0, part := 3, w := 1, fate := some (0, 0) }] })).port 3).wrs[0]? = some { id := 0, part := 3, w := 1, fate := some (0, 0) }
    ∧ ({ id := 0, part := 3, w := 1, fate := some (0, 0) } : WorkReq).clx = none
    ∧ (conned 1 {}).connUet 3 4095 = true := by decide +kernel

theorem test_premises_WorkRequestsAndEthernetEvents_connections :
    (conned 0 {}).portUp 3 7 = false ∧ ((conned 0 {}).wr 268 (ptState 7) 2).portUp 3 7 = true
    ∧ ((conned 0 { unacked := [pkt5 0] }).conn 3 4095).unacked = pkt5 0 :: [] ∧ (conned 0 {}).connUet 3 4095 = false ∧ (conned 0 {}).connOpen 3 4095 = true
    ∧ (conned 0 {}).connPaused 3 4095 = false ∧ (conned 0 { tries := 7, retry := 7 }).retryOut 3 4095 = true
    ∧ ((conned 1 { unacked := [pkt5 7], retry := 7 }).conn 3 4095).unacked.find? (fun t => t.psn == 5) = some (pkt5 7)
    ∧ ((conned 1 { unacked := [pkt5 7], retry := 7 }).conn 3 4095).retry.toNat ≤ (pkt5 7).tries ∧ (pkt5 6).tries < ((conned 1 { retry := 7 }).conn 3 4095).retry.toNat
    ∧ bitsOf (BitVec.ofNat 8 ((conned 0 {}).rd 268 (cnPorts 4095))) 8 = 7 :: [] ∧ ((conned 0 { rate := 1 }).conn 3 4095).rate ≠ 0
    ∧ (conned 0 {}).portOn 3 7 = true ∧ ((conned 0 {}).wr 268 (ptState 7) 1).rd 268 (ptState 7) = 1 ∧ ((conned 0 {}).wr 268 (ptState 7) 3).rd 268 (ptState 7) = 3
    ∧ 3 ∈ modeLanes ((conned 0 {}).portMode 3 7) 1 ∧ (((conned 0 {}).wr 268 (qBadlane 3) 8).rd 268 (qBadlane 3)).testBit 3 = true
    ∧ (∀ l ∈ modeLanes ((conned 0 {}).portMode 3 7) 1, ((conned 0 {}).rd 268 (qBadlane 3)).testBit l = false) := by decide +kernel

/-- Port 7 of port die 3, UP, with MACsec on or off, the echo answer on, and partition 3's address 1; `n` the next packet number of secure
channel 3's association 3. -/
def hearing (sec n : Nat) : State :=
  ((((((conned 0 {}).wr 268 (ptState 7) 2).wr 268 (ptMacsec 7) sec).wr 268 (ptEcho 7) 1).updHub (fun h => { h with
    rot := { h.rot with addrs := [BitVec.ofNat 192 (3 + 3 * 2 ^ 8 + 7 * 2 ^ 16 + 1 * 2 ^ 64)] } })).updPort 3 (fun x => { x with msRx := [(127, n)] }))

/-- A frame of `n` bytes for the port. -/
def frame (n : Nat) (sec : Option SecTag) (k : FrameKind) : Frame := ⟨n, 2, 23, sec, k⟩

/-- A packet to address `a` on connection 4,095. -/
def sealedTo (a : BitVec 128) : FrameKind := .packet a 2 4095 0 0 false .cnp

theorem test_premises_WorkRequestsAndEthernetEvents_frames :
    (hearing 0 1).isEth 3 = true ∧ (hearing 0 1).portUp 3 7 = true ∧ (frame 64 none .badFcs).kind = .badFcs ∧ (frame 64 none .noClass).kind ≠ .badFcs
    ∧ (frame 64 none .noClass).kind ≠ .badCodeword ∧ ((hearing 1 1).fecCount 268 7 2).macsecRx 3 7 (frame 64 none .noClass) = none
    ∧ ((hearing 0 1).fecCount 268 7 2).macsecRx 3 7 (frame 9216 none (sealedTo 1)) = some ((hearing 0 1).fecCount 268 7 2)
    ∧ ((hearing 0 1).fecCount 268 7 2).frameMine 3 7 (frame 9217 none (sealedTo 1)) = false ∧ ((hearing 0 1).fecCount 268 7 2).frameMine 3 7 (frame 9216 none (sealedTo 1)) = true
    ∧ ((hearing 0 1).fecCount 268 7 2).frameMine 3 7 (frame 64 none (sealedTo 0)) = false ∧ ((hearing 0 1).fecCount 268 7 2).frameMine 3 7 (frame 64 none (.neighbour 1)) = true
    ∧ ((hearing 0 1).fecCount 268 7 2).frameMine 3 7 (frame 64 none (.echo 1)) = true ∧ (hearing 1 1).rd 268 (ptMacsec 7) = 1 ∧ (hearing 0 1).rd 268 (ptMacsec 7) = 0
    ∧ (63 : Nat) + (hearing 1 128).rd 268 (ptMsReplay 7) < ((hearing 1 128).port 3).msRx.get 1 (16 * 7 + 4 * 3 + 3)
    ∧ ¬ (64 : Nat) + (hearing 1 128).rd 268 (ptMsReplay 7) < ((hearing 1 128).port 3).msRx.get 1 (16 * 7 + 4 * 3 + 3)
    ∧ ((hearing 1 1).macsecRx 3 7 (frame 64 (some ⟨3, 3, 64, true⟩) .noClass)).isSome = true := by decide +kernel
/-! ### Groups, collectives, streams, endpoints -/

/-- Port die 3 with `c` at the head of partition 3's collective queue; partition 3 owns every group and endpoint, and key 4,095, which covers 2^30 bytes with
both rights and is local. -/
def clxCmd (c : BitVec 512) : State :=
  let s := ((conned 0 {}).updBlk 3 3 (fun b => { b with clxq := [c] })).updHub (fun h => { h with rot := { h.rot with layout := [⟨3, 0, 0x800000, 0, 64, 0, 256, 0, 4096⟩] } })
  ((((((s.wr 268 (cnPart 4095) 3).wr tkPlace (tkOwner 4095) 3).wr tkPlace (tkBound 4095) 1).wr tkPlace (tkLocal 4095) 1).wr tkPlace (tkRights 4095) 3).wr tkPlace (tkLen64 4095) 0x1000000)

/-- Group 63 of partition 3 in state `st` at epoch 1, of 2 members of which this is rank 0. -/
def grouped (st : Nat) (s : State) : State :=
  (((((s.wr 268 (grState 63) st).wr 268 (grPart 63) 3).wr 268 (grN 63) 2).wr 268 (grRank 63) 0).wr 268 (grEpoch 63) 1).updGroup 3 63 (fun x => { x with conns := [(1, 4095)] })

/-- A collective-queue command of opcode `o` on group 63 with the local key 4,095 as source, and the rest. -/
def cx (o n : Nat) : BitVec 512 := BitVec.ofNat 512 (o + 63 * 2 ^ 8 + 4095 * 2 ^ 228 + n)

/-- The same without a group. -/
def cy (o n : Nat) : BitVec 512 := BitVec.ofNat 512 (o + 4095 * 2 ^ 228 + n)

/-- The group of two that connection 4,095 leads through. -/
def desc2 (rank : Nat) : GroupDesc := ⟨rank, 2, 1, 3, 2, [(1, 4095)]⟩

theorem test_premises_GroupsAndCollectives_groups :
    Canon (clxCmd (cx 1 0)) ∧ ((clxCmd (cx 1 0)).blk 3 3).clxq = cx 1 0 :: [] ∧ (clxCmd (cx 1 0)).isEth 3 = true
    ∧ ((clxCmd (cx 1 0)).port 3).clx.any (fun x => x.part == 3 && !x.held && !x.parked) = false ∧ cxIs 1 (cx 1 0) = true
    ∧ (clxCmd (cx 1 0)).clxHead 3 3 (cxIs 1) = some (cx 1 0) ∧ fld (cx 1 0) 7 0 = 1 ∧ cxReserved (cx 1 0) = true ∧ cxReserved (cx 1 (2 ^ 127)) = false
    ∧ (clxCmd (cx 1 (2 ^ 127))).clxHead 3 3 (cxIs 1) = some (cx 1 (2 ^ 127)) ∧ fld (cx 1 (2 ^ 127)) 7 0 = 1
    ∧ (clxCmd (cx 1 0)).groupOk 3 3 (cxGroup (cx 1 0)) (desc2 0) = true ∧ (clxCmd (cx 1 0)).groupOk 3 3 (cxGroup (cx 1 0)) (desc2 2) = false
    ∧ (grouped 3 (clxCmd (cx 2 (2 * 2 ^ 320)))).clxHead 3 3 (cxIs 2) = some (cx 2 (2 * 2 ^ 320)) ∧ fld (cx 2 (2 * 2 ^ 320)) 7 0 = 2 ∧ cxReserved (cx 2 (2 * 2 ^ 320)) = true
    ∧ (grouped 3 (clxCmd 0)).inGroup 3 3 (cxGroup (cx 2 0)) = true ∧ fld (cx 2 (1 * 2 ^ 320)) 351 320 ≤ (grouped 3 (clxCmd 0)).rd 268 (grEpoch (cxGroup (cx 2 0)))
    ∧ (grouped 3 (clxCmd 0)).rd 268 (grEpoch (cxGroup (cx 2 0))) < fld (cx 2 (2 * 2 ^ 320)) 351 320 ∧ (grouped 3 (clxCmd 0)).rd 268 (grState (cxGroup (cx 2 0))) = 3
    ∧ (grouped 3 (clxCmd 0)).localKey 3 (cxStk (cx 2 0)) (cxSpga (cx 2 0)) 512 1 = true
    ∧ (clxCmd (cx 3 0)).clxHead 3 3 (cxIs 3) = some (cx 3 0) ∧ fld (cx 3 0) 7 0 = 3 ∧ cxReserved (cx 3 0) = true ∧ (clxCmd 0).inGroup 3 3 (cxGroup (cx 3 0)) = false := by
  decide +kernel

/-- A collective that runs in group 63, as given. -/
def clxOf (fate : Option (Nat × BitVec 4)) (slow : Bool) : Clx := { id := 0, part := 3, cmd := cx 4 0, fate := fate, slow := slow }

/-- A shrink of the members 0 and 1 that has heard from those given. -/
def shrunk (l : List (Nat × W64)) : Shrink := ⟨0, 2, [0, 1], 5, l, 1000⟩

theorem test_premises_GroupsAndCollectives_collectives :
    (∀ k ∈ [0, 1, 2, 3, 4], (clxCmd (cx 4 (k * 2 ^ 120))).clxHead 3 3 (fun c => fld c 7 0 == 4 && (fld c 122 120 == k || decide (4 < fld c 122 120))) = some (cx 4 (k * 2 ^ 120))
        ∧ fld (cx 4 (k * 2 ^ 120)) 7 0 = 4 ∧ fld (cx 4 (k * 2 ^ 120)) 122 120 = k ∧ cxReserved (cx 4 (k * 2 ^ 120)) = true)
    ∧ (grouped 2 (clxCmd (cx 4 (4 * 2 ^ 120)))).collOk 3 3 (cx 4 (4 * 2 ^ 120)) = true ∧ (grouped 2 (clxCmd 0)).rd 268 (grState 63) = 2
    ∧ (grouped 3 (clxCmd 0)).collOk 3 3 (cx 4 0) = true ∧ fld (cx 4 0) 122 120 ≠ 4
    ∧ ((grouped 2 (clxCmd 0)).port 3).clx.find? (fun x => x.ofGroup (cxGroup (cx 4 0)) && x.parked && cxId x.cmd == cxId (cx 4 0) && x.part == 3) = none
    ∧ (((clxCmd 0).updGroup 3 63 (fun x => { x with shrink := some (shrunk [(0, 5), (1, 5)]) })).group 3 63).shrink = some (shrunk [(0, 5), (1, 5)])
    ∧ (shrunk [(0, 5), (1, 5)]).complete = true ∧ (shrunk [(0, 5), (1, 5)]).agree = true ∧ (shrunk [(0, 5), (1, 6)]).complete = true ∧ (shrunk [(0, 5), (1, 6)]).agree = false
    ∧ (shrunk [(0, 5)]).complete = false ∧ (((clxCmd 0).updPort 3 (fun x => { x with clx := [clxOf (some (0, 0)) false] })).port 3).clx[0]? = some (clxOf (some (0, 0)) false)
    ∧ (clxOf (some (0, 0)) false).parked = false ∧ (clxOf none true).ofGroup (cxGroup (clxOf none true).cmd) = true ∧ (clxOf none false).held = false
    ∧ ((clxCmd 0).wr 268 (grSlowMs 63) 1).rd 268 (grSlowMs 63) ≠ 0 := by decide +kernel

theorem test_premises_StreamsEndpointsAndPartners_streams :
    (clxCmd (cy 5 (1 * 2 ^ 416 + 4095 * 2 ^ 464))).clxHead 3 3 (cxIs 5) = some (cy 5 (1 * 2 ^ 416 + 4095 * 2 ^ 464)) ∧ fld (cy 5 (1 * 2 ^ 416 + 4095 * 2 ^ 464)) 7 0 = 5
    ∧ cxReserved (cy 5 (1 * 2 ^ 416 + 4095 * 2 ^ 464)) = true ∧ (clxCmd 0).localKey 3 4095 0 (cxRange (cy 5 (1 * 2 ^ 416))) 1 = true ∧ (clxCmd 0).streamConn 3 3 4095 = true
    ∧ cxConn (cy 5 (4095 * 2 ^ 464)) = 4095 ∧ (clxCmd 0).localKey 3 4095 0 (cxRange (cy 5 (262145 * 2 ^ 416))) 1 = false
    ∧ ((clxCmd (cy 6 0)).part 3).sch.state = .empty ∧ (clxCmd (cy 6 (4095 * 2 ^ 464 + 1 * 2 ^ 480))).clxHead 3 3 (cxIs 6) = some (cy 6 (4095 * 2 ^ 464 + 1 * 2 ^ 480))
    ∧ fld (cy 6 (4095 * 2 ^ 464 + 1 * 2 ^ 480)) 7 0 = 6 ∧ cxConns (cy 6 (4095 * 2 ^ 464 + 1 * 2 ^ 480)) = [4095] ∧ cxReserved (cy 6 (4095 * 2 ^ 464 + 1 * 2 ^ 480)) = true
    ∧ (clxCmd 0).localKey 3 4095 0 0 2 = true ∧ SchState.running ≠ .halted ∧ SchState.running ≠ .empty
    ∧ (clxCmd (cy 7 0)).clxHead 3 3 (cxIs 7) = some (cy 7 0) ∧ fld (cy 7 0) 7 0 = 7 ∧ cxReserved (cy 7 0) = true ∧ cxRange (cy 7 0) = 0 ∧ cxRange (cy 7 (1 * 2 ^ 416)) ≠ 0
    ∧ (clxCmd (cy 7 (1 * 2 ^ 416))).clxHead 3 3 (cxIs 7) = some (cy 7 (1 * 2 ^ 416)) ∧ cxReserved (cy 7 (1 * 2 ^ 416)) = true := by decide +kernel

/-- A request that endpoint 255 holds in slot 0. -/
def slot5 : EpSlot := { seq := 5, conn := 4095, rid := 0, rkey := 0, rmax := 0, roff := 0, len := 64, open_ := 0, desc := 0 }

/-- Endpoint 255 bound for partition 3, with that slot or none. -/
def bound (l : Table (Option EpSlot)) (s : State) : State := s.updEp 3 255 (fun _ => { bound := true, part := 3, key := 4095, szLog := 12, count := 1, slots := l })

/-- EP_OPEN of endpoint 255 over key 4,095 with one slot of 4 KiB; RESPOND and EP_FREE of slot 0, sequence number 5; EP_CLOSE. -/
def epCmd (o n : Nat) : BitVec 512 := BitVec.ofNat 512 (o + 255 * 2 ^ 308 + n)
def epOpenCmd : BitVec 512 := epCmd 8 (4095 * 2 ^ 320 + 12 * 2 ^ 332)
def epSlotCmd (o : Nat) : BitVec 512 := epCmd o (5 * 2 ^ 332)

theorem test_premises_StreamsEndpointsAndPartners_endpoints :
    (clxCmd epOpenCmd).clxHead 3 3 (cxIs 8) = some epOpenCmd ∧ fld epOpenCmd 7 0 = 8 ∧ cxReserved epOpenCmd = true ∧ (clxCmd epOpenCmd).ownsEp 3 (cxEp epOpenCmd) = true
    ∧ ((clxCmd epOpenCmd).ep 3 (cxEp epOpenCmd)).bound = false ∧ 12 ≤ fld epOpenCmd 335 332 ∧ (clxCmd epOpenCmd).keyLive (fld epOpenCmd 331 320) 3 = true
    ∧ ((clxCmd epOpenCmd).rd tkPlace (tkRights (fld epOpenCmd 331 320))).testBit 1 = true
    ∧ (fld epOpenCmd 347 336 + 1) * 2 ^ fld epOpenCmd 335 332 ≤ (clxCmd epOpenCmd).tkLen (fld epOpenCmd 331 320) ∧ (clxCmd epOpenCmd).epOf 3 (fld epOpenCmd 331 320) = none
    ∧ (∀ o ∈ [10, 11], (clxCmd (epSlotCmd o)).clxHead 3 3 (cxIs o) = some (epSlotCmd o) ∧ fld (epSlotCmd o) 7 0 = o ∧ cxReserved (epSlotCmd o) = true
        ∧ (bound [(0, some slot5)] (clxCmd (epSlotCmd o))).epHeld 3 3 (epSlotCmd o) = some slot5 ∧ (clxCmd (epSlotCmd o)).epHeld 3 3 (epSlotCmd o) = none)
    ∧ cxCount (epSlotCmd 10) = 0 ∧ ((clxCmd 0).wr 268 (cnState 4095) 3).connOpen 3 slot5.conn = false
    ∧ (clxCmd (epCmd 9 0)).clxHead 3 3 (cxIs 9) = some (epCmd 9 0) ∧ fld (epCmd 9 0) 7 0 = 9 ∧ cxReserved (epCmd 9 0) = true
    ∧ ((bound [] (clxCmd (epCmd 9 0))).ep 3 (cxEp (epCmd 9 0))).bound = true ∧ ((bound [] (clxCmd (epCmd 9 0))).ep 3 (cxEp (epCmd 9 0))).slots = []
    ∧ ((conned 0 { msgs := [(255, [1])] }).conn 3 4095).msgs = (255, [1]) :: [] ∧ ([1] : List Byte).length < 64 := by decide +kernel

theorem test_premises_StreamsEndpointsAndPartners_partners :
    (grouped 2 (clxCmd 0)).isPartner 3 63 1 = true ∧ ((grouped 2 (clxCmd 0)).updGroup 3 63 (fun x => { x with conns := [] })).rankConn 3 63 1 = none
    ∧ (grouped 2 (clxCmd 0)).rankConn 3 63 1 = some 4095 ∧ ((grouped 2 (clxCmd 0)).wr 268 (cnState 4095) 3).rd 268 (cnState 4095) = 3
    ∧ ((grouped 2 (clxCmd 0)).updGroup 3 63 (fun x => { x with peer := [(1, .paused)] })).peerState 3 63 1 = .paused
    ∧ (grouped 2 (clxCmd 0)).rd 268 (grState 63) ≠ 0 ∧ (grouped 2 (clxCmd 0)).rd 268 (grEpoch 63) = (1 : W32).toNat ∧ (grouped 2 (clxCmd 0)).rd 268 (grEpoch 63) ≠ (2 : W32).toNat
    ∧ (clxCmd 0).hub.score.fwUp = true ∧ ((clxCmd 0).part 3).formed = true := by decide +kernel

/-! ### The root of trust -/

/-- Function 49, bound to partition 3, whose DOE mailbox has session 3 open; partition 3 confidential or not, owned or not, with the encapsulation key that session 3 drew. -/
def trusted (conf : Nat) (bound kem : Bool) : State :=
  (((withPart {} up).wr (fnPlace 49) fnPart 3).hwr (spConf 3) conf).updFn 49 (fun x => { x with sessions := [3] }) |>.updHub (fun h => { h with
    rot := { h.rot with sessions := [1], owner := if !bound && !kem then [] else [(3, { bound := bound, kemOut := if kem then some (4 * 49 + 3) else none })] } })

theorem test_premises_AttestationAndTheKeyProtocol :
    Canon (trusted 1 true false) ∧ (trusted 1 true false).spdmUp = true ∧ Table.wf {} (trusted 1 true false).hub.rot.owner = true ∧ [(0x12 : Byte), 0x13].contains 0x13 = true
    ∧ (trusted 1 true false).viaSees (.doe 49) 3 = true ∧ (trusted 1 true false).viaSees .mctp 3 = false
    ∧ (trusted 1 true false).measured 3 3 = none ∧ ((trusted 1 true false).updRot (fun r => { r with meas := [(measKey 7 3, [1])] })).measured 7 3 = some ([1], 0)
    ∧ [Algo.other 0, .ecdsaP384].contains .ecdsaP384 = true ∧ [Algo.sha384].contains .sha384 = true ∧ [Algo.ecdhP384].contains .ecdhP384 = true
    ∧ [Algo.aes256Gcm].contains .aes256Gcm = true ∧ [Algo.mlDsa87].contains .ecdsaP384 = false ∧ lowestFree ((trusted 1 true false).sessionsOf (.doe 49)) (sessionMax (.doe 49)) = some 0
    ∧ lowestFree [0, 1, 2, 3] (sessionMax (.doe 49)) = none ∧ lowestFree [0, 1] (sessionMax .mctp) = none ∧ ((trusted 1 true false).sessionsOf (.doe 49)).contains 3 = true
    ∧ ((trusted 1 true false).sessionsOf .mctp).contains 1 = true
    ∧ (trusted 1 true false).nkAllowed (.doe 49) 3 true = true ∧ (trusted 1 true false).confPart 3 = true ∧ (trusted 1 true false).nkAllowed (.doe 49) 3 false = false
    ∧ (trusted 0 false false).nkAllowed (.doe 49) 3 false = true ∧ (trusted 0 false false).confPart 3 = false ∧ Table.wf 0 ((trusted 0 false false).hub.rot.owner.get {} 3).nk = true
    ∧ (trusted 0 false false).connsOf 1 3 = [] ∧ (trusted 0 false false).connsOf 3 3 = [] ∧ (trusted 1 true false).hrd polSealed ≠ 0 ∧ ((trusted 1 true false).hwr polSealed 0).hrd polSealed = 0
    ∧ (trusted 1 true false).confVf 49 = true ∧ ((trusted 1 true false).hub.rot.owner.get {} ((trusted 1 true false).fnPartOf 49)).bound = true
    ∧ ((trusted 1 false true).hub.rot.owner.get {} ((trusted 1 false true).fnPartOf 49)).bound = false
    ∧ ((trusted 1 false true).hub.rot.owner.get {} ((trusted 1 false true).fnPartOf 49)).kemOut = some (4 * (49 : Fin 50).val + (3 : Fin 4).val)
    ∧ ((trusted 1 false false).hub.rot.owner.get {} ((trusted 1 false false).fnPartOf 49)).kemOut ≠ some (4 * (49 : Fin 50).val + (3 : Fin 4).val) := by decide +kernel

/-- A policy packet of kind `k` with counter 1, for panel tag 0 and role set 0. -/
def packet (k n : Nat) (b : PolicyBody) (opOk cuOk : Bool) : PolicyPkt :=
  { hdr := bytesLE 4 0x344B505A ++ bytesLE 2 1 ++ bytesLE 2 k ++ bytesLE 8 0 ++ bytesLE 8 1 ++ bytesLE 4 n ++ bytesLE 100 0, len := n, body := b, hash := 0, opOk := opOk, cuOk := cuOk }

/-- That packet as a job of out-of-band management. -/
def job (k n : Nat) (b : PolicyBody) : PolicyJob := ⟨none, 128 + n + 9446, packet k n b true true⟩

/-- The panel in imago, with a role set bound, and that packet at the front. -/
def policed (j : PolicyJob) : State := ((up.hwr polRolesBound 1).hwr bootImago 1).updHub (fun h => { h with rot := { h.rot with pkts := [j] } })

theorem test_premises_PolicyPackets_reasons :
    Turn 0 0 1 0x1D (cmdOf 0x1D 31 (noSlot 0) true) (taken (cmdOf 0x1D 31 (noSlot 0) true))
    ∧ (((taken (cmdOf 0x1D 31 (noSlot 0) true)).fn 0).busMaster = false ∧ (((taken (cmdOf 0x1D 31 (noSlot 0) true)).updFn 0 (fun x => { x with busMaster := true })).fn 0).busMaster = true
    ∧ pktFormed (packet 4 10 .other true true) 9583 = false ∧ pktFormed (packet 4 10 .other true true) 9584 = true
    ∧ pktF (packet 4 10 .other true true) 8 4 ≠ (up.updHub (fun h => { h with rot := { h.rot with panelTag := 1 } })).hub.rot.panelTag.toNat
    ∧ pktF (packet 4 10 .other true true) 8 4 = up.hub.rot.panelTag.toNat
    ∧ pktF (packet 4 10 .other true true) 16 8 ≠ (up.updHub (fun h => { h with rot := { h.rot with counter := 1 } })).hub.rot.counter.toNat + 1
    ∧ pktF (packet 4 10 .other true true) 16 8 = up.hub.rot.counter.toNat + 1 ∧ pktKind (packet 4 10 .other true true) ≠ 1 ∧ up.hrd polRolesBound ≠ 1
    ∧ (up.hwr polRolesBound 1).hrd polRolesBound = 1 ∧ pktF (packet 4 10 .other true true) 32 48 = up.hub.rot.roleSet.toNat
    ∧ pktF (packet 4 10 .other true true) 80 48 = (packet 4 10 .other true true).hash.toNat ∧ (packet 4 10 .other false true).opOk = false ∧ (packet 4 10 .other true false).cuOk = false) :=
  ⟨⟨by decide +kernel, by decide +kernel⟩, by decide +kernel⟩

theorem test_premises_PolicyPackets_kinds :
    (up.updHub (fun h => { h with rot := { h.rot with pkts := [job 1 5378 (.roles (List.replicate 5378 0))] } })).policyReason (job 1 5378 (.roles (List.replicate 5378 0))) = none
    ∧ (policed (job 2 5378 (.roles (List.replicate 5378 0)))).policyReason (job 2 5378 (.roles (List.replicate 5378 0))) = none ∧ (policed (job 3 16 (.layout (List.replicate 16 0)))).policyReason (job 3 16 (.layout (List.replicate 16 0))) = none
    ∧ (policed (job 4 10 (.debug 2 0))).policyReason (job 4 10 (.debug 2 0)) = none ∧ (policed (job 5 6 (.fwPolicy 0 0 15 1))).policyReason (job 5 6 (.fwPolicy 0 0 15 1)) = none
    ∧ (policed (job 6 8 (.fuses [BitVec.ofNat 64 (287 + 1 * 2 ^ 16)]))).policyReason (job 6 8 (.fuses [BitVec.ofNat 64 (287 + 1 * 2 ^ 16)])) = none
    ∧ (policed (job 7 3 (.clear 31 0xFFFF))).policyReason (job 7 3 (.clear 31 0xFFFF)) = none ∧ (policed (job 8 1 (.keys 1))).policyReason (job 8 1 (.keys 1)) = none
    ∧ (policed (job 9 8 (.rwq polFwSigners.off polFwSigners.lo 15))).policyReason (job 9 8 (.rwq polFwSigners.off polFwSigners.lo 15)) = none
    ∧ (policed (job 9 8 (.rwq 0 0 15))).policyReason (job 9 8 (.rwq 0 0 15)) = some 8 ∧ pktKind (job 9 8 .other).pkt = 9 ∧ pktKind (job 9 8 .other).pkt ≠ 8
    ∧ (policed (job 2 0 .other)).hub.rot.pkts = job 2 0 .other :: [] ∧ (job 2 0 .other).frm = none ∧ up.hub.feed.mainGood = true := by decide +kernel

/-! ### Hub firmware, telemetry, updates, management -/

/-- A record of severity `sev`. -/
def rec (sev : BitVec 2) : BbRec := ⟨0, 0, 0, 0, 0, 0x100, sev, []⟩

/-- `up` with that record staged, and the two MRAMs readable or not. -/
def staged (ok : Bool) : State :=
  up.updHub (fun h => { h with bbx := { h.bbx with staged := [rec 2], hub := { h.bbx.hub with readable := ok }, east := { h.bbx.east with readable := ok } } })

theorem test_premises_HubFirmwareTelemetryAndUpdates :
    Canon up ∧ up.hub.score.fwUp = true ∧ (up.updHub (fun h => { h with score := { restarts := [0] } })).hub.score.fwUp = false
    ∧ (up.updHub (fun h => { h with score := { restarts := [0] } })).hub.score.restarts ≠ [] ∧ up.hub.feed.mainGood = true ∧ up.hub.score.mismatchAt = none
    ∧ (0 + 1000000000 ≤ (1000000000 : Nat)) ∧ up.now < 0 + 1000000000 ∧ up.hrd bootPhase ≠ 3 ∧ up.shedNext (0 + 0) = 0
    ∧ (up.hwr fwBacklog 768).hrd fwHwm ≤ (up.hwr fwBacklog 768).hrd fwBacklog ∧ (up.hwr fwBacklog 767).hrd fwBacklog < (up.hwr fwBacklog 767).hrd fwHwm
    ∧ ((up.hwr fwBacklog 384).hwr fwShed 2).hrd fwHwm ≤ 2 * ((up.hwr fwBacklog 384).hwr fwShed 2).hrd fwBacklog ∧ ((up.hwr fwBacklog 384).hwr fwShed 2).hrd fwShed = 2
    ∧ up.hrd fwShed = 0 ∧ (up.hwr fwShed 1).hrd fwShed = 1 ∧ up.updating = true ∧ up.hrd hubFwSlot = 0 ∧ slotBytes < slotBytes + 1 ∧ slotBytes - 1 + 1 ≤ slotBytes
    ∧ up.policyOk (up.hrd polMinSvnHub) 0 0 true = true
    ∧ ({ up with hub := { up.hub with inbox := [⟨263, .msg (.stackRepair 23 63 0 2)⟩] } } : State).hub.inbox = ⟨263, .msg (.stackRepair 23 63 0 2)⟩ :: []
    ∧ (staged true).hub.bbx.staged = rec 2 :: [] ∧ (staged false).hub.bbx.hub.readable = false ∧ (staged false).hub.bbx.east.readable = false
    ∧ (staged true).hub.bbx.hub.readable = true ∧ (staged true).hub.bbx.east.readable = true ∧ (staged true).hrd bbPermCount < permMax ∧ (rec 1).sev ≠ 2
    ∧ (staged true).hub.bbx.hub.wrap.length < wrapMax ∧ (staged true).hub.bbx.east.wrap.length < wrapMax := by decide +kernel

/-- Standby power alone. -/
def standby : State := State.reset.updHub (fun h => { h with feed := { stby := true } })

theorem test_premises_OutOfBandManagementAndDebugPins :
    Canon standby ∧ standby.hub.feed.stby = true ∧ standby.hub.feed.mainGood = false ∧ up.hub.feed.stby = true ∧ up.hub.feed.mainGood = true ∧ State.reset.hub.feed.stby = false
    ∧ 2 ^ 24 < (0xFFFFFC : BitVec 24).toNat + 4 * 2 ∧ (0xFFFFFC : BitVec 24).toNat + 4 * 1 ≤ 2 ^ 24 ∧ (0xFFFFFC : BitVec 24).toNat % 4 = 0 ∧ (2 : BitVec 24).toNat % 4 ≠ 0
    ∧ (∀ i < 16, standbyWord ((0x20C0 : BitVec 24).toNat + 4 * i) = true) ∧ standbyWord ((0x20C0 : BitVec 24).toNat + 4 * 0) = true ∧ standbyWord 0x2100 = false
    ∧ (1 : Byte).toNat ≤ 1 ∧ (16 : Byte).toNat ≤ 16 ∧ (16 : Byte) ≠ 0 ∧ (staged false).bbCopy true = { readable := false } ∧ (up.bbCopy false).readable = true
    ∧ up.hrd bootPhase ≠ 3 ∧ 1024 < (List.replicate 1025 (0 : Byte)).length ∧ (List.replicate 1024 (0 : Byte)).length ≤ 1024 ∧ 64512 + (List.replicate 1024 (0 : Byte)).length ≤ 65536
    ∧ 65536 < 64513 + (List.replicate 1024 (0 : Byte)).length ∧ (0x1000000 : Nat) ≤ 0x17FFFFF ∧ (0x17FFFFF : Nat) < 0x1800000
    ∧ up.hrd polDebug < debugLevel (.reg .hub 0) ∧ debugLevel (.memRead (.tile 0) 0 4) ≤ (up.hwr polDebug 2).hrd polDebug := by decide +kernel

/-! ### The machine -/

theorem test_premises_StepRunsTheFrontCommand :
    ({ up with pending := [.scoreKick] } : State).pending = .scoreKick :: [] ∧ up.pending = [] := ⟨rfl, rfl⟩

theorem test_premises_EveryStepKeepsThePanelWhole :
    (∃ t : State, Sys2Proof.Machine.step up = .next t) ∧ Instr.wellFormed .scoreKick = true
    ∧ (∀ c, ({ up with pending := [.scoreKick] } : State).pending.head? = some c → c.wellFormed = true ∧ ∀ f q tag bs, c ≠ .dmaWrite f q tag bs)
    ∧ (taken (cmdOf 0x13 31 (noSlot 0) true)).turn 0 0 1 0x13 = some (cmdOf 0x13 31 (noSlot 0) true) ∧ [(0 : Byte)].length ≠ (cmdOf 0x13 31 (noSlot 0) true).len := by
  refine ⟨⟨_, rfl⟩, rfl, ?_, by decide +kernel, by decide +kernel⟩
  intro c hc
  obtain rfl : Instr.scoreKick = c := by simpa using hc
  exact ⟨rfl, fun f q tag bs h => nomatch h⟩

theorem test_premises_IntegerMacStep :
    (-2 ^ 31 ≤ signedOf 32 (0x7FFFFFFE : W32).toNat + ([1] : List Int).sum ∧ signedOf 32 (0x7FFFFFFE : W32).toNat + ([1] : List Int).sum ≤ 2 ^ 31 - 1)
    ∧ 2 ^ 31 - 1 < signedOf 32 (0x7FFFFFFF : W32).toNat + ([1] : List Int).sum ∧ signedOf 32 (0x80000000 : W32).toNat + ([-1] : List Int).sum < -2 ^ 31 ∧ Mode.t2i.isInt = true := by
  decide

theorem test_premises_FirstAndLastOfALoopLevel :
    ((looping 3 1 0 5 9).loop.level 3).active = true ∧ ((looping 3 1 0 5 9).loop.level 3).i = 0 ∧ ({} : Tile).loop.level 3 = {}
    ∧ fld (BitVec.ofNat 128 (15 * 2 ^ 116)) 119 116 = 12 + (3 : Fin 4).val := by decide

/-- A waiting RUN_STEP of partition 3 that has begun. -/
def waits : HostCmd := { cmdOf 1 3 0 true with begun := true }

/-- It, in the state where partition 3 has halted for reason `why`. -/
def haltedFor (why : Nat) : State :=
  withPart { sch := { state := .halted, why := BitVec.ofNat 4 why } } (taken waits)

theorem test_premises_HowAWaitingRunStepEnds :
    Canon (haltedFor 2) ∧ (haltedFor 2).hub.cmds.filter (fun d => d.part == 3 && d.begun && (d.opc == 1 || d.opc == 0x11)) = [waits] ∧ waits.opc = 1 := by decide +kernel

/-! ### Ill-formed commands -/

theorem test_wf_instarTrain_lane : Instr.wellFormed (.instarTrain [] [] [(4, 0, 0)]) = false := by decide
theorem test_wf_instarTrain_tables : Instr.wellFormed (.instarTrain [] [⟨0, [(512, 0)], [], [], []⟩] []) = false := by decide
theorem test_wf_instarLoad : Instr.wellFormed (.instarLoad (some ⟨[0], true⟩)) = false := by decide
theorem test_wf_broadcastRoundEnd : Instr.wellFormed (.broadcastRoundEnd [(.tile 0 0, 1024, false)]) = false := by decide
theorem test_wf_p2pLoadAttempt : Instr.wellFormed (.p2pLoadAttempt (.stack 23) [2048]) = false := by decide
theorem test_wf_quiesceTimeout : Instr.wellFormed (.quiesceTimeout (.tile 3839) 64) = false := by decide
theorem test_wf_closeComplete : Instr.wellFormed (.closeComplete .hub) = false := by decide
theorem test_wf_tdmaResponse : Instr.wellFormed (.tdmaResponse (.tile 0) 0 0 ⟨0, List.replicate 257 0, false, 0⟩) = false := by decide +kernel
/-- A PUT across a 256-byte line. -/
theorem test_wf_segmentArrival : Instr.wellFormed (.segmentArrival (.tile 0) { put1 1 1 with off := 255, data := [1, 2] }) = false := by decide
/-- An atomic of 2 bytes. -/
theorem test_wf_segmentArrival_atomic : Instr.wellFormed (.segmentArrival (.tile 0) { put1 1 1 with op := .fadd, len := 2 }) = false := by decide
theorem test_wf_segmentWriteVisible : Instr.wellFormed (.segmentWriteVisible (.stack 24) 0) = false := by decide
theorem test_wf_vxeInsnComplete : Instr.wellFormed (.vxeInsnComplete 0 32) = false := by decide
theorem test_wf_spmMopqWrite : Instr.wellFormed (.spmMopqWrite 0 0x42 [0, 0, 0, 0]) = false := by decide
theorem test_wf_stackReadRelease : Instr.wellFormed (.stackReadRelease 0 65536) = false := by decide
/-- Channel 24 of an edge; a packet of 32 bytes of payload in two flits. -/
theorem test_wf_routerHeadArrival : Instr.wellFormed (.routerHeadArrival 0 0 [head1 1 0 1 24 0]) = false := by decide +kernel
theorem test_wf_routerHeadArrival_flits : Instr.wellFormed (.routerHeadArrival 0 0 [{ head1 1 0 1 23 0 with devs := [0, 0] }]) = false := by decide +kernel
/-- Channel 34 of a compute die's own sources, and channel 8 of a port die's. -/
theorem test_wf_scheduledFlitArrival :
    Instr.wellFormed (.scheduledFlitArrival 239 0 4 34 0) = false ∧ Instr.wellFormed (.scheduledFlitArrival 239 0 4 33 0) = true
      ∧ Instr.wellFormed (.scheduledFlitArrival 268 0 4 8 0) = false ∧ Instr.wellFormed (.scheduledFlitArrival 268 0 5 0 0) = false := by decide
theorem test_wf_ctlRegRd : Instr.wellFormed (.ctlRegRd (.tile 0) 0 0 17) = false := by decide
theorem test_wf_ctlRegWr : Instr.wellFormed (.ctlRegWr (.die 0) 0 2 [0]) = false := by decide
theorem test_wf_ctlMbx : Instr.wellFormed (.ctlMbx { put1 1 1 with off := 0x41800 }) = false := by decide
theorem test_wf_policy : Instr.wellFormed (.policy 0 0 0 (some ⟨[], 0, .other, 0, true, true⟩)) = false := by decide
theorem test_wf_apertureWrite : Instr.wellFormed (.apertureWrite 49 (16 * 2 ^ 30) [0] false) = false := by decide
theorem test_wf_apertureRead : Instr.wellFormed (.apertureRead 0 0 4097 false) = false := by decide
theorem test_wf_mbaOutGo : Instr.wellFormed (.mbaOutGo 0 []) = false := by decide
theorem test_wf_ethFrameRx : Instr.wellFormed (.ethFrameRx 1 0 (frame 63 none .badFcs)) = false := by decide
theorem test_wf_uetRtoExpiry : Instr.wellFormed (.uetRtoExpiry 1 0 (2 ^ 24)) = false := by decide
theorem test_wf_ownerBind : Instr.wellFormed (.ownerBind 49 3 0 [0]) = false := by decide
theorem test_wf_groupCreate : Instr.wellFormed (.groupCreate 1 0 (desc2 2)) = false := by decide
theorem test_wf_budgetDivide : Instr.wellFormed (.budgetDivide 0 (List.replicate 25 0) []) = false := by decide
theorem test_wf_vdmRegRead : Instr.wellFormed (.vdmRegRead 0 256) = false := by decide
theorem test_wf_vdmPolicyChunk : Instr.wellFormed (.vdmPolicyChunk (2 ^ 32) [] none) = false := by decide
theorem test_wf_pldmFwData : Instr.wellFormed (.pldmFwData (2 ^ 32) []) = false := by decide
theorem test_wf_registerWrite : Instr.wellFormed (.registerWrite (.cfg 0) 4096 0) = false := by decide
theorem test_wf_proboscisAccess : Instr.wellFormed (.proboscisAccess (.memRead (.tile 3840) 0 4)) = false := by decide
theorem test_wf_dmaWrite (bs : List Byte) (h : bs.length = 16777217) : Instr.wellFormed (.dmaWrite 0 0 0 (some bs)) = false := by
  simp only [Instr.wellFormed, Option.all_some, h]; decide
/-- What a packet, word or write of the row can hold is well formed. -/
theorem test_wf_good : Instr.wellFormed (.segmentArrival (.tile 3839) (put1 1 1)) = true ∧ Instr.wellFormed (.ctlRegRd (.die 268) 0 0xFFFFC0 16) = true
    ∧ Instr.wellFormed (.groupCreate 3 23 (desc2 1)) = true ∧ Instr.wellFormed (.apertureRead 49 (16 * 2 ^ 30 - 1) 4096 true) = true := by decide


/-! ### Worked examples of the specification -/

/-- After R49: a PUT of 1,000 bytes to offset 0x1C0 travels as segments of 64, 256, 256, 256 and 168 bytes. -/
theorem test_put_splits_at_256 :
    ((Dest.direct (.tile 0) 0x1C0).segments [] 1000).map (fun g => g.2.2.2) = [64, 256, 256, 256, 168] := by decide

/-- R57's table: offset 0x12_3440 of tile 5 of L137. -/
theorem test_address_of_a_scratchpad : decodePga 0x112A0000123440 4 0 = some (.direct (.tile 2197) 0x123440) := by decide

/-- R57's table: the space-2 byte 0x3_5010 of stacks 4, 5 and 9 is offset 0x1_1010 of stack 9 … -/
theorem test_striped_byte : decodePga 0x40000000035010 1 3 = some (.striped 0x35010) ∧ stripe [4, 5, 9] 0x35010 = (9, 0x11010) := by decide

/-- … whose space-1 address is 0x29_0000_0001_1010. -/
theorem test_striped_byte_translated : pgaOf (.stack 9) 0x11010 = 0x29000000011010 := by decide

/-- R58: after 254 events the generation is again that of 254 steps of 2 modulo 255, plus 1; after 0 it is 1. -/
theorem test_generation_skips_zero : nextGen 0xFF = 1 ∧ nextGen 0x2A = 0x2B := by decide

/-- After R103: two MAC steps of MXFP4 products over a bias of 2^24. -/
theorem test_mac_step_rounds_once :
    macStep 0x4B800000 [.val (.fin false 1 0), .val (.fin false 1 0)] = (0x4B800001, 0)
      ∧ macStep 0x4B800001 [.val (.fin false 12 0), .val (.fin true 1 (-1))] = (0x4B800007, Flags.inexact) := by decide +kernel

/-- After R111: six elements of one MXFP4 block whose largest magnitude is 14.5. -/
theorem test_mxfp4_block :
    Fmt.block .mxfp4 ([Num.fin false 29 (-1), .fin false 13 0, .fin false 11 (-2), .fin true 5 0, .fin false 3 (-2), .fin true 13421773 (-26)].map (·, Rnd.rne))
      = ⟨0x80, [7, 7, 3, 12, 1, 8], [0x54, 0x10, 0x10, 0x10, 0x18, 0x18], 0⟩ := by decide +kernel

/-- After R175: EXP2(0.75) is 0x3FD7_44FD and inexact; EXP2(−3.0) is 0.125, exactly. -/
theorem test_exp2 : vtrExp2 0x3F400000 = (0x3FD744FD, Flags.inexact) ∧ vtrExp2 0xC0400000 = (0x3E000000, 0) := by decide +kernel

/-- The lanes of the ADD scan's example: 2^24, then five ones. -/
def addLanes (l : Nat) : Option ScanEl := if l = 0 then some ⟨0x4B800000, 0, false, 0, false⟩ else if l < 6 then some ⟨0x3F800000, 0, false, 0, false⟩ else none

/-- After R180: the fixed-order ADD scan over six lanes. -/
theorem test_scan_order :
    (List.range 6).map (fun l => (scanPrefix 0 false addLanes (l + 1) 7 (none, 0)).map (·.a))
      = [some 0x4B800000, some 0x4B800000, some 0x4B800000, some 0x4B800001, some 0x4B800002, some 0x4B800002] := by decide +kernel

/-- After R180: a reduction of the same lanes is 2^24 + 4. -/
theorem test_reduction_order : (scanTree 0 false addLanes 0 6).map (·.a) = some 0x4B800002 := by decide +kernel

/-- The lanes of the AFFINE example; a segment starts at lane 2. -/
def affineLanes (l : Nat) : Option ScanEl :=
  if l < 2 then some ⟨0x3F000000, 0x40000000, false, 0, false⟩ else if l = 2 then some ⟨0x40000000, 0xBF800000, true, 0, false⟩
  else if l = 3 then some ⟨0x3E800000, 0x41000000, false, 0, false⟩ else none

/-- After R180: lane 3 of the segmented AFFINE scan holds (0.5, 7.75), and a carry is blocked. -/
theorem test_affine_segments :
    (scanPrefix 6 true affineLanes 4 7 (none, 0)).map (fun e => (e.a, e.b, e.f)) = some (0x3F000000, 0x40F80000, true) := by decide +kernel

/-- After R233: byte 5 of a half-row, at position 8, flipped to 0x10 (its check symbols deviate by α^4, α^12 and α^20 in the syndromes). -/
theorem test_one_symbol_corrected :
    gfPowMul 8 0x10 = 0xCD ∧ gfPowMul 16 0x10 = 0xB4 ∧ gfMul 0xCD 0xCD = 0x8F ∧ gfMul 0x10 0xB4 = 0x8F ∧ errPos 0x10 0xCD 35 = some 8 := by decide

/-- After R248: offset 0x1_1010 of a stack is of channel 8, pseudo-channel 16, chunk 4. -/
theorem test_stack_fields : snChannel 0x11010 = 8 ∧ snQ 0x11010 = 16 ∧ snChunkOf 0x11010 = 4 := by decide

end Sys2Proof.Tests
end

/-! PROOFS. The family of the scope chapter: what one step runs (O55), what every step keeps and which commands stop (O57). -/

namespace Sys2Proof.Machine

variable {s t : State}

/-! ### One step -/

/-- On an empty queue a nanosecond passes. -/
theorem step_of_empty (h : s.pending = []) : step s = .next s.tick := by
  unfold step
  rw [h]

/-- The command at the front of the queue runs on the state with the queue's rest. -/
theorem step_of_front {c : Instr} {l : List Instr} (h : s.pending = c :: l) : step s = exec c { s with pending := l } := by
  unfold step
  rw [h]

/-- Settles O55: the two equations of `step`. -/
theorem stepRunsTheFrontCommand : Obligations.StepRunsTheFrontCommand :=
  fun _ => ⟨fun _ _ => step_of_front, step_of_empty⟩

/-! ### What every step keeps -/

/-- A nanosecond that passes keeps the panel whole. -/
theorem State.tick_keeps : Keeps s s.tick :=
  (Keeps.refl s).tables rfl (Nat.le_add_right _ _) (Nat.le_refl _) List.prefix_rfl rfl id

/-- Every command keeps the panel whole: each row by the lemma of its own meaning. -/
theorem exec_keeps (c : Instr) (h : exec c s = .next t) : Keeps s t := by
  cases c with
  | mainPowerGood => exact execMainPowerGood_keeps (.refl s) h
  | secondFeedAppears => exact execSecondFeedAppears_keeps (.refl s) h
  | busbarPairLost => exact execBusbarPairLost_keeps (.refl s) h
  | feedUndervoltage => exact execFeedUndervoltage_keeps (.refl s) h
  | standbyPowerOn => exact execStandbyPowerOn_keeps (.refl s) h
  | standbyPowerLoss => exact execStandbyPowerLoss_keeps (.refl s) h
  | warmRstNLow => exact execWarmRstNLow_keeps (.refl s) h
  | coldRstNLow => exact execColdRstNLow_keeps (.refl s) h
  | perstNAssert => exact execPerstNAssert_keeps (.refl s) h
  | pcieLinkUp => exact execPcieLinkUp_keeps (.refl s) h
  | hotResetOrLinkDown => exact execHotResetOrLinkDown_keeps (.refl s) h
  | vfFunctionLevelReset => exact execVfFunctionLevelReset_keeps (.refl s) h
  | pfFunctionLevelReset => exact execPfFunctionLevelReset_keeps (.refl s) h
  | busMasterEnableCleared => exact execBusMasterEnableCleared_keeps (.refl s) h
  | bootGo => exact execBootGo_keeps (.refl s) h
  | instarSkeleton => exact execInstarSkeleton_keeps (.refl s) h
  | instarIdentify => exact execInstarIdentify_keeps (.refl s) h
  | instarClocks => exact execInstarClocks_keeps (.refl s) h
  | instarTrain => exact execInstarTrain_keeps (.refl s) h
  | stackTrainDone => exact execStackTrainDone_keeps (.refl s) h
  | instarLoad => exact execInstarLoad_keeps (.refl s) h
  | broadcastRoundEnd => exact execBroadcastRoundEnd_keeps (.refl s) h
  | p2pLoadAttempt => exact execP2pLoadAttempt_keeps (.refl s) h
  | instarProve => exact execInstarProve_keeps (.refl s) h
  | katReportTimeout => exact execKatReportTimeout_keeps (.refl s) h
  | instarReconcile => exact execInstarReconcile_keeps (.refl s) h
  | instarComplete => exact execInstarComplete_keeps (.refl s) h
  | instarTimeout => exact execInstarTimeout_keeps (.refl s) h
  | bootCocoon => exact execBootCocoon_keeps (.refl s) h
  | stackWipeComplete => exact execStackWipeComplete_keeps (.refl s) h
  | tileCmdqWrite => exact execTileCmdqWrite_keeps (.refl s) h
  | seqEnableSet => exact execSeqEnableSet_keeps (.refl s) h
  | seqEnableClear => exact execSeqEnableClear_keeps (.refl s) h
  | seqReset => exact execSeqReset_keeps (.refl s) h
  | seqTakeEntry => exact execSeqTakeEntry_keeps (.refl s) h
  | issueHoldRelease => exact execIssueHoldRelease_keeps (.refl s) h
  | nop => exact execNop_keeps (.refl s) h
  | jmp => exact execJmp_keeps (.refl s) h
  | pset => exact execPset_keeps (.refl s) h
  | fence => exact execFence_keeps (.refl s) h
  | fenceComplete => exact execFenceComplete_keeps (.refl s) h
  | iload => exact execIload_keeps (.refl s) h
  | iloadComplete => exact execIloadComplete_keeps (.refl s) h
  | endProg => exact execEndProg_keeps (.refl s) h
  | endComplete => exact execEndComplete_keeps (.refl s) h
  | wopen => exact execWopen_keeps (.refl s) h
  | wopenHoldRelease => exact execWopenHoldRelease_keeps (.refl s) h
  | closeNow => exact execCloseNow_keeps (.refl s) h
  | closeQuiesce => exact execCloseQuiesce_keeps (.refl s) h
  | quiesceTimeout => exact execQuiesceTimeout_keeps (.refl s) h
  | closeComplete => exact execCloseComplete_keeps (.refl s) h
  | wquery => exact execWquery_keeps (.refl s) h
  | ccntSet => exact execCcntSet_keeps (.refl s) h
  | ccntGet => exact execCcntGet_keeps (.refl s) h
  | loopStart => exact execLoopStart_keeps (.refl s) h
  | lstride => exact execLstride_keeps (.refl s) h
  | lbind => exact execLbind_keeps (.refl s) h
  | waitcnt => exact execWaitcnt_keeps (.refl s) h
  | waitcntComplete => exact execWaitcntComplete_keeps (.refl s) h
  | bar => exact execBar_keeps (.refl s) h
  | cwait => exact execCwait_keeps (.refl s) h
  | cwaitArrival => exact execCwaitArrival_keeps (.refl s) h
  | flagor => exact execFlagor_keeps (.refl s) h
  | stepFence => exact execStepFence_keeps (.refl s) h
  | ttgt => exact execTtgt_keeps (.refl s) h
  | putOp => exact execPutOp_keeps (.refl s) h
  | getOp => exact execGetOp_keeps (.refl s) h
  | fadd => exact execFadd_keeps (.refl s) h
  | cswap => exact execCswap_keeps (.refl s) h
  | forOr => exact execForOr_keeps (.refl s) h
  | tdmaOpStart => exact execTdmaOpStart_keeps (.refl s) h
  | tdmaResponse => exact execTdmaResponse_keeps (.refl s) h
  | tdmaRetransmit => exact execTdmaRetransmit_keeps (.refl s) h
  | segmentArrival => exact execSegmentArrival_keeps (.refl s) h
  | segmentWriteVisible => exact execSegmentWriteVisible_keeps (.refl s) h
  | mma => exact execMma_keeps (.refl s) h
  | mmaVeinStart => exact execMmaVeinStart_keeps (.refl s) h
  | mmaComplete => exact execMmaComplete_keeps (.refl s) h
  | mdrain => exact execMdrain_keeps (.refl s) h
  | drainStart => exact execDrainStart_keeps (.refl s) h
  | drainResume => exact execDrainResume_keeps (.refl s) h
  | drainEnd => exact execDrainEnd_keeps (.refl s) h
  | rbload => exact execRbload_keeps (.refl s) h
  | rbloadComplete => exact execRbloadComplete_keeps (.refl s) h
  | rbshift => exact execRbshift_keeps (.refl s) h
  | rbshiftComplete => exact execRbshiftComplete_keeps (.refl s) h
  | posld => exact execPosld_keeps (.refl s) h
  | posgen => exact execPosgen_keeps (.refl s) h
  | mxset => exact execMxset_keeps (.refl s) h
  | mfence => exact execMfence_keeps (.refl s) h
  | vfa => exact execVfa_keeps (.refl s) h
  | via => exact execVia_keeps (.refl s) h
  | vcmp => exact execVcmp_keeps (.refl s) h
  | vsel => exact execVsel_keeps (.refl s) h
  | vkop => exact execVkop_keeps (.refl s) h
  | vcvt => exact execVcvt_keeps (.refl s) h
  | vtr => exact execVtr_keeps (.refl s) h
  | vred => exact execVred_keeps (.refl s) h
  | vscan => exact execVscan_keeps (.refl s) h
  | vxscan => exact execVxscan_keeps (.refl s) h
  | vxscanPrefixArrival => exact execVxscanPrefixArrival_keeps (.refl s) h
  | vcomb => exact execVcomb_keeps (.refl s) h
  | vld => exact execVld_keeps (.refl s) h
  | vst => exact execVst_keeps (.refl s) h
  | vdqpop => exact execVdqpop_keeps (.refl s) h
  | vdqpopRowArrival => exact execVdqpopRowArrival_keeps (.refl s) h
  | viota => exact execViota_keeps (.refl s) h
  | vrot => exact execVrot_keeps (.refl s) h
  | vxeInsnStart => exact execVxeInsnStart_keeps (.refl s) h
  | vxeInsnComplete => exact execVxeInsnComplete_keeps (.refl s) h
  | spmMopqWrite => exact execSpmMopqWrite_keeps (.refl s) h
  | mopFill => exact execMopFill_keeps (.refl s) h
  | mopCopy => exact execMopCopy_keeps (.refl s) h
  | mopEnd => exact execMopEnd_keeps (.refl s) h
  | pwrUp => exact execPwrUp_keeps (.refl s) h
  | pwrRetain => exact execPwrRetain_keeps (.refl s) h
  | pwrDown => exact execPwrDown_keeps (.refl s) h
  | quarterOn => exact execQuarterOn_keeps (.refl s) h
  | spmScrubTick => exact execSpmScrubTick_keeps (.refl s) h
  | liveRowRepair => exact execLiveRowRepair_keeps (.refl s) h
  | snWopen => exact execSnWopen_keeps (.refl s) h
  | snCloseNow => exact execSnCloseNow_keeps (.refl s) h
  | snCloseQuiesce => exact execSnCloseQuiesce_keeps (.refl s) h
  | snWquery => exact execSnWquery_keeps (.refl s) h
  | snCcntSet => exact execSnCcntSet_keeps (.refl s) h
  | sxeStrided => exact execSxeStrided_keeps (.refl s) h
  | sxeTranspose => exact execSxeTranspose_keeps (.refl s) h
  | sxeCommandEnd => exact execSxeCommandEnd_keeps (.refl s) h
  | snFence => exact execSnFence_keeps (.refl s) h
  | snBadOpcode => exact execSnBadOpcode_keeps (.refl s) h
  | snSelfRefresh => exact execSnSelfRefresh_keeps (.refl s) h
  | snOff => exact execSnOff_keeps (.refl s) h
  | snWake => exact execSnWake_keeps (.refl s) h
  | stackReadRelease => exact execStackReadRelease_keeps (.refl s) h
  | stackReadLate => exact execStackReadLate_keeps (.refl s) h
  | snPatrolScrub => exact execSnPatrolScrub_keeps (.refl s) h
  | snChunkRepair => exact execSnChunkRepair_keeps (.refl s) h
  | snRecalibration => exact execSnRecalibration_keeps (.refl s) h
  | snTemperatureChange => exact execSnTemperatureChange_keeps (.refl s) h
  | routerHeadArrival => exact execRouterHeadArrival_keeps (.refl s) h
  | scheduledFlitArrival => exact execScheduledFlitArrival_keeps (.refl s) h
  | ctlRegRd => exact execCtlRegRd_keeps (.refl s) h
  | ctlRegWr => exact execCtlRegWr_keeps (.refl s) h
  | ctlRegRsp => exact execCtlRegRsp_keeps (.refl s) h
  | ctlMsg => exact execCtlMsg_keeps (.refl s) h
  | ctlMbx => exact execCtlMbx_keeps (.refl s) h
  | ctlHeartbeat => exact execCtlHeartbeat_keeps (.refl s) h
  | heartbeatSend => exact execHeartbeatSend_keeps (.refl s) h
  | syncArrival => exact execSyncArrival_keeps (.refl s) h
  | syncDelivery => exact execSyncDelivery_keeps (.refl s) h
  | wingbeatSend => exact execWingbeatSend_keeps (.refl s) h
  | wingbeatArrival => exact execWingbeatArrival_keeps (.refl s) h
  | wingbeatRelease => exact execWingbeatRelease_keeps (.refl s) h
  | xchgStreamStart => exact execXchgStreamStart_keeps (.refl s) h
  | exchangeReport => exact execExchangeReport_keeps (.refl s) h
  | stepCombine => exact execStepCombine_keeps (.refl s) h
  | resumeWingbeat => exact execResumeWingbeat_keeps (.refl s) h
  | wingbeatWatchdog => exact execWingbeatWatchdog_keeps (.refl s) h
  | probeTimeout => exact execProbeTimeout_keeps (.refl s) h
  | qpCtailWrite => exact execQpCtailWrite_keeps (.refl s) h
  | qpSheadWrite => exact execQpSheadWrite_keeps (.refl s) h
  | qpEnable => exact execQpEnable_keeps (.refl s) h
  | qpDisable => exact execQpDisable_keeps (.refl s) h
  | qpRunClear => exact execQpRunClear_keeps (.refl s) h
  | commandFetched => exact execCommandFetched_keeps (.refl s) h
  | irqCoalesceTimeout => exact execIrqCoalesceTimeout_keeps (.refl s) h
  | runStep => exact execRunStep_keeps (.refl s) h
  | doorbell => exact execDoorbell_keeps (.refl s) h
  | queryCounter => exact execQueryCounter_keeps (.refl s) h
  | queryCounterTimeout => exact execQueryCounterTimeout_keeps (.refl s) h
  | hostNop => exact execHostNop_keeps (.refl s) h
  | loadImage => exact execLoadImage_keeps (.refl s) h
  | halt => exact execHalt_keeps (.refl s) h
  | resetPartition => exact execResetPartition_keeps (.refl s) h
  | dmaWrite => exact execDmaWrite_keeps (.refl s) h
  | dmaRead => exact execDmaRead_keeps (.refl s) h
  | apertureMap => exact execApertureMap_keeps (.refl s) h
  | apertureUnmap => exact execApertureUnmap_keeps (.refl s) h
  | apertureUnmapComplete => exact execApertureUnmapComplete_keeps (.refl s) h
  | windowOpen => exact execWindowOpen_keeps (.refl s) h
  | windowClose => exact execWindowClose_keeps (.refl s) h
  | asyncEvent => exact execAsyncEvent_keeps (.refl s) h
  | setTwin => exact execSetTwin_keeps (.refl s) h
  | setPowerCap => exact execSetPowerCap_keeps (.refl s) h
  | setPortRole => exact execSetPortRole_keeps (.refl s) h
  | policy => exact execPolicy_keeps (.refl s) h
  | apertureWrite => exact execApertureWrite_keeps (.refl s) h
  | apertureRead => exact execApertureRead_keeps (.refl s) h
  | fnAptFenceRead => exact execFnAptFenceRead_keeps (.refl s) h
  | bar2Write => exact execBar2Write_keeps (.refl s) h
  | tdispMessage => exact execTdispMessage_keeps (.refl s) h
  | mbaInGo => exact execMbaInGo_keeps (.refl s) h
  | mailboxTake => exact execMailboxTake_keeps (.refl s) h
  | mailboxDone => exact execMailboxDone_keeps (.refl s) h
  | mbaOutGo => exact execMbaOutGo_keeps (.refl s) h
  | mbaOutAck => exact execMbaOutAck_keeps (.refl s) h
  | mbxTimeoutExpiry => exact execMbxTimeoutExpiry_keeps (.refl s) h
  | mbbLockRead => exact execMbbLockRead_keeps (.refl s) h
  | mbbLockRelease => exact execMbbLockRelease_keeps (.refl s) h
  | mbbGo => exact execMbbGo_keeps (.refl s) h
  | mbbLockExpiry => exact execMbbLockExpiry_keeps (.refl s) h
  | mbbResultAnswered => exact execMbbResultAnswered_keeps (.refl s) h
  | mbaPing => exact execMbaPing_keeps (.refl s) h
  | mbaBbRead => exact execMbaBbRead_keeps (.refl s) h
  | mbaHostMark => exact execMbaHostMark_keeps (.refl s) h
  | mbbPing => exact execMbbPing_keeps (.refl s) h
  | mbbHaltSelf => exact execMbbHaltSelf_keeps (.refl s) h
  | ethFrameRx => exact execEthFrameRx_keeps (.refl s) h
  | tkBind => exact execTkBind_keeps (.refl s) h
  | tkUnbind => exact execTkUnbind_keeps (.refl s) h
  | tkUnbindComplete => exact execTkUnbindComplete_keeps (.refl s) h
  | connOpen => exact execConnOpen_keeps (.refl s) h
  | connClose => exact execConnClose_keeps (.refl s) h
  | connQuery => exact execConnQuery_keeps (.refl s) h
  | wrWrite => exact execWrWrite_keeps (.refl s) h
  | wrRead => exact execWrRead_keeps (.refl s) h
  | wrFadd => exact execWrFadd_keeps (.refl s) h
  | wrCswap => exact execWrCswap_keeps (.refl s) h
  | wrFor => exact execWrFor_keeps (.refl s) h
  | wrCompletion => exact execWrCompletion_keeps (.refl s) h
  | pdOnpanelRetransmit => exact execPdOnpanelRetransmit_keeps (.refl s) h
  | roceAckTimeout => exact execRoceAckTimeout_keeps (.refl s) h
  | uetRtoExpiry => exact execUetRtoExpiry_keeps (.refl s) h
  | cnpRateIncrease => exact execCnpRateIncrease_keeps (.refl s) h
  | ethPortUp => exact execEthPortUp_keeps (.refl s) h
  | ethPortDown => exact execEthPortDown_keeps (.refl s) h
  | qRetrain => exact execQRetrain_keeps (.refl s) h
  | groupCreate => exact execGroupCreate_keeps (.refl s) h
  | groupShrink => exact execGroupShrink_keeps (.refl s) h
  | shrinkDigestsComplete => exact execShrinkDigestsComplete_keeps (.refl s) h
  | shrinkTimeout => exact execShrinkTimeout_keeps (.refl s) h
  | groupDissolve => exact execGroupDissolve_keeps (.refl s) h
  | allReduce => exact execAllReduce_keeps (.refl s) h
  | reduceScatter => exact execReduceScatter_keeps (.refl s) h
  | allGather => exact execAllGather_keeps (.refl s) h
  | broadcast => exact execBroadcast_keeps (.refl s) h
  | collBarrier => exact execCollBarrier_keeps (.refl s) h
  | collComplete => exact execCollComplete_keeps (.refl s) h
  | ckptStream => exact execCkptStream_keeps (.refl s) h
  | restore => exact execRestore_keeps (.refl s) h
  | digest => exact execDigest_keeps (.refl s) h
  | epOpen => exact execEpOpen_keeps (.refl s) h
  | epRequestArrival => exact execEpRequestArrival_keeps (.refl s) h
  | respond => exact execRespond_keeps (.refl s) h
  | epFree => exact execEpFree_keeps (.refl s) h
  | epClose => exact execEpClose_keeps (.refl s) h
  | keepaliveSend => exact execKeepaliveSend_keeps (.refl s) h
  | partnerLivenessTimeout => exact execPartnerLivenessTimeout_keeps (.refl s) h
  | partnerPauseTimeout => exact execPartnerPauseTimeout_keeps (.refl s) h
  | abortReceived => exact execAbortReceived_keeps (.refl s) h
  | stragglerTimeout => exact execStragglerTimeout_keeps (.refl s) h
  | ecRecordRewrite => exact execEcRecordRewrite_keeps (.refl s) h
  | heartbeatTimeout => exact execHeartbeatTimeout_keeps (.refl s) h
  | spareWake => exact execSpareWake_keeps (.refl s) h
  | siteEfuseTrip => exact execSiteEfuseTrip_keeps (.refl s) h
  | sectorEfuseTrip => exact execSectorEfuseTrip_keeps (.refl s) h
  | phaseFailure => exact execPhaseFailure_keeps (.refl s) h
  | inrushRequest => exact execInrushRequest_keeps (.refl s) h
  | inrushGrant => exact execInrushGrant_keeps (.refl s) h
  | inrushWaitExpiry => exact execInrushWaitExpiry_keeps (.refl s) h
  | rampEnd => exact execRampEnd_keeps (.refl s) h
  | sectorOvercurrent => exact execSectorOvercurrent_keeps (.refl s) h
  | budgetDivide => exact execBudgetDivide_keeps (.refl s) h
  | budgetLoanLapse => exact execBudgetLoanLapse_keeps (.refl s) h
  | inputPowerSample => exact execInputPowerSample_keeps (.refl s) h
  | regionSleep => exact execRegionSleep_keeps (.refl s) h
  | regionAon => exact execRegionAon_keeps (.refl s) h
  | regionWake => exact execRegionWake_keeps (.refl s) h
  | ref10Loss => exact execRef10Loss_keeps (.refl s) h
  | tbmFrefWrite => exact execTbmFrefWrite_keeps (.refl s) h
  | fabricPllLockLoss => exact execFabricPllLockLoss_keeps (.refl s) h
  | vlogicDroop => exact execVlogicDroop_keeps (.refl s) h
  | eyespotReport => exact execEyespotReport_keeps (.refl s) h
  | tbPulseSend => exact execTbPulseSend_keeps (.refl s) h
  | tbPulseArrival => exact execTbPulseArrival_keeps (.refl s) h
  | tbPulseMissing => exact execTbPulseMissing_keeps (.refl s) h
  | ppsEdge => exact execPpsEdge_keeps (.refl s) h
  | tbLoRead => exact execTbLoRead_keeps (.refl s) h
  | tbmPpsStampLoRead => exact execTbmPpsStampLoRead_keeps (.refl s) h
  | rtcSecWrite => exact execRtcSecWrite_keeps (.refl s) h
  | thermalBudgetUpdate => exact execThermalBudgetUpdate_keeps (.refl s) h
  | coolantFlowRead => exact execCoolantFlowRead_keeps (.refl s) h
  | coolantTempRead => exact execCoolantTempRead_keeps (.refl s) h
  | flowFailNLow => exact execFlowFailNLow_keeps (.refl s) h
  | flowStopForcedHalt => exact execFlowStopForcedHalt_keeps (.refl s) h
  | flowStopEnd => exact execFlowStopEnd_keeps (.refl s) h
  | hotspotUpdate => exact execHotspotUpdate_keeps (.refl s) h
  | throttleRecoveryStep => exact execThrottleRecoveryStep_keeps (.refl s) h
  | hardTrip => exact execHardTrip_keeps (.refl s) h
  | spdmRequest => exact execSpdmRequest_keeps (.refl s) h
  | pqEndorse => exact execPqEndorse_keeps (.refl s) h
  | kemGet => exact execKemGet_keeps (.refl s) h
  | ownerBind => exact execOwnerBind_keeps (.refl s) h
  | nkSet => exact execNkSet_keeps (.refl s) h
  | nkClear => exact execNkClear_keeps (.refl s) h
  | ownerRelease => exact execOwnerRelease_keeps (.refl s) h
  | kpStatus => exact execKpStatus_keeps (.refl s) h
  | cakSet => exact execCakSet_keeps (.refl s) h
  | bindRoles => exact execBindRoles_keeps (.refl s) h
  | rotateRoles => exact execRotateRoles_keeps (.refl s) h
  | layoutPkt => exact execLayoutPkt_keeps (.refl s) h
  | debugUnlock => exact execDebugUnlock_keeps (.refl s) h
  | fwPolicy => exact execFwPolicy_keeps (.refl s) h
  | fuseWrite => exact execFuseWrite_keeps (.refl s) h
  | recordClear => exact execRecordClear_keeps (.refl s) h
  | keyHierarchy => exact execKeyHierarchy_keeps (.refl s) h
  | rwqWrite => exact execRwqWrite_keeps (.refl s) h
  | polCounterLoRead => exact execPolCounterLoRead_keeps (.refl s) h
  | scoreKick => exact execScoreKick_keeps (.refl s) h
  | scoreWatchdogExpiry => exact execScoreWatchdogExpiry_keeps (.refl s) h
  | fwUnrecoverableError => exact execFwUnrecoverableError_keeps (.refl s) h
  | scoreMismatch => exact execScoreMismatch_keeps (.refl s) h
  | shedLevelEval => exact execShedLevelEval_keeps (.refl s) h
  | telemetryWrite => exact execTelemetryWrite_keeps (.refl s) h
  | mctpSetEndpointId => exact execMctpSetEndpointId_keeps (.refl s) h
  | vdmRegRead => exact execVdmRegRead_keeps (.refl s) h
  | vdmRegWrite => exact execVdmRegWrite_keeps (.refl s) h
  | vdmBbInfo => exact execVdmBbInfo_keeps (.refl s) h
  | vdmBbRead => exact execVdmBbRead_keeps (.refl s) h
  | vdmCocoon => exact execVdmCocoon_keeps (.refl s) h
  | vdmWarmReset => exact execVdmWarmReset_keeps (.refl s) h
  | vdmPolicyChunk => exact execVdmPolicyChunk_keeps (.refl s) h
  | pldmFwData => exact execPldmFwData_keeps (.refl s) h
  | pldmVerifyComplete => exact execPldmVerifyComplete_keeps (.refl s) h
  | pldmActivateFirmware => exact execPldmActivateFirmware_keeps (.refl s) h
  | bbRecordAppend => exact execBbRecordAppend_keeps (.refl s) h
  | repairReport => exact execRepairReport_keeps (.refl s) h
  | serviceSpiRead => exact execServiceSpiRead_keeps (.refl s) h
  | cellWopen => exact execCellWopen_keeps (.refl s) h
  | cellCloseNow => exact execCellCloseNow_keeps (.refl s) h
  | cellCloseQuiesce => exact execCellCloseQuiesce_keeps (.refl s) h
  | cellCloseEnded => exact execCellCloseEnded_keeps (.refl s) h
  | cellWquery => exact execCellWquery_keeps (.refl s) h
  | registerWrite => exact execRegisterWrite_keeps (.refl s) h
  | fwRestarted => exact execFwRestarted_keeps (.refl s) h
  | proboscisAccess => exact execProboscisAccess_keeps (.refl s) h
  | scpmOverClears => exact execScpmOverClears_keeps (.refl s) h
  | selfRefreshExit => exact execSelfRefreshExit_keeps (.refl s) h

/-- A step keeps the panel whole and takes exactly the front command off the queue. -/
theorem step_keeps (h : step s = .next t) : Keeps { s with pending := s.pending.tail } t := by
  cases hp : s.pending with
  | nil =>
    rw [step_of_empty hp] at h
    rw [List.tail_nil, ← hp]
    exact next_keeps h State.tick_keeps
  | cons c l =>
    rw [step_of_front hp] at h
    exact exec_keeps c h

/-! ### No well-formed command stops the panel (assumption log 11) -/

/-- A well-formed segment passes the check that its arrival makes (R47–R49): a PUT or GET stays in its line, an atomic has its length,
and each kind of target has room for it. -/
theorem segOk_of_segmentOk {u : Tgt} {g : Segment} (h : segmentOk u g = true) : segOk u g = true := by
  simp only [segmentOk, Bool.and_eq_true, decide_eq_true_eq] at h
  obtain ⟨⟨⟨htgt, hpos⟩, hroom⟩, hop⟩ := h
  have hsize : segSize g = g.size := rfl
  simp only [segOk, hsize, Bool.and_eq_true, decide_eq_true_eq]
  refine ⟨⟨⟨hpos, ?line⟩, ?len⟩, ?target⟩
  case line => cases ho : g.op <;> simp_all [opAtomic]
  case len => cases ho : g.op <;> simp_all [opAtomic]
  case target => cases u <;> simp_all [tgtOk, Tgt.size]

/-- The span of an aperture of BAR4 (R380): that of a physical function, or that of a VF. -/
theorem aptSpan_eq (f : Fin 50) : aptSpan f.val = if f.val % 25 = 0 then 2 ^ 32 else 2 ^ 30 := by
  have hpf : isPf f.val = true ↔ f.val % 25 = 0 := by
    simp only [isPf, Bool.or_eq_true, beq_iff_eq]
    omega
  simp only [aptSpan, hpf]

/-- A well-formed aperture access has bytes, at most 4 KiB of them, and begins within BAR4 (R380, R383). -/
theorem apertureOk_bounds {f : Fin 50} {off n : Nat} (h : apertureOk f off n = true) : 1 ≤ n ∧ n ≤ 4096 ∧ off < 16 * aptSpan f.val := by
  simp only [apertureOk, ← aptSpan_eq, Bool.and_eq_true, decide_eq_true_eq] at h
  obtain ⟨⟨hpos, hmax⟩, hoff⟩ := h
  exact ⟨hpos, hmax, hoff⟩

theorem execSegmentArrival_runs {u : Tgt} {g : Segment} (h : segmentOk u g = true) : ∃ t, execSegmentArrival u g s = .next t :=
  ⟨_, if_pos (segOk_of_segmentOk h)⟩

theorem execCtlRegRd_runs {u : CtlTgt} {tag : Byte} {off n : Nat} (h : accessOk off n = true) : ∃ t, execCtlRegRd u tag off n s = .next t :=
  ⟨_, if_pos h⟩

theorem execCtlRegWr_runs {u : CtlTgt} {tag : Byte} {off : Nat} {vs : List W32} (h : accessOk off vs.length = true) :
    ∃ t, execCtlRegWr u tag off vs s = .next t :=
  ⟨_, if_pos h⟩

theorem execCtlMbx_runs {g : Segment} (h : mboxPutOk g = true) : ∃ t, execCtlMbx g s = .next t := by
  simp only [mboxPutOk, Bool.and_eq_true, beq_iff_eq, decide_eq_true_eq] at h
  obtain ⟨⟨hput, hseg⟩, hoff⟩ := h
  exact ⟨_, if_pos ⟨hput, segOk_of_segmentOk hseg, hoff⟩⟩

theorem execApertureWrite_runs {f : Fin 50} {off : Nat} {bs : List Byte} {tee : Bool} (h : apertureOk f off bs.length = true) :
    ∃ t, execApertureWrite f off bs tee s = .next t := by
  obtain ⟨hpos, hmax, hoff⟩ := apertureOk_bounds h
  have hne : bs ≠ [] := List.ne_nil_of_length_pos hpos
  exact ⟨_, if_neg (by simp only [hne, false_or]; omega)⟩

theorem execApertureRead_runs {f : Fin 50} {off n : Nat} {tee : Bool} (h : apertureOk f off n = true) :
    ∃ t, execApertureRead f off n tee s = .next t := by
  obtain ⟨hpos, hmax, hoff⟩ := apertureOk_bounds h
  exact ⟨_, if_neg (by omega)⟩

/-- DMA_WRITE runs, unless the command whose turn it is asks for another number of bytes than host memory gave. -/
theorem execDmaWrite_runs_or (f : Fin 50) (q : Fin 8) (tag : W16) (bs : Option (List Byte)) (s : State) :
    (∃ t, execDmaWrite f q tag bs s = .next t)
      ∨ ∃ (b : List Byte) (d : HostCmd), bs = some b ∧ s.turn f.val q.val tag 0x13 = some d ∧ b.length ≠ d.len := by
  unfold execDmaWrite
  cases bs with
  | none => cases s.turn f.val q.val tag 0x13 <;> exact .inl ⟨_, rfl⟩
  | some b =>
    cases hd : s.turn f.val q.val tag 0x13 with
    | none => exact .inl ⟨_, rfl⟩
    | some d =>
      by_cases hlen : b.length = d.len
      · exact .inl ⟨_, if_neg (by simp [hlen])⟩
      · exact .inr ⟨b, d, rfl, rfl, hlen⟩

/-- A well-formed command runs, but a DMA_WRITE with the wrong number of bytes: seven rows check their operands, and the meaning of
every other row is a next state as it stands. -/
theorem exec_runs_or (c : Instr) (s : State) (h : c.wellFormed = true) :
    (∃ t, exec c s = .next t)
      ∨ ∃ (f : Fin 50) (q : Fin 8) (tag : W16) (bs : List Byte) (d : HostCmd),
        c = .dmaWrite f q tag (some bs) ∧ s.turn f.val q.val tag 0x13 = some d ∧ bs.length ≠ d.len := by
  cases c with
  | segmentArrival => exact .inl (execSegmentArrival_runs h)
  | ctlRegRd => exact .inl (execCtlRegRd_runs h)
  | ctlRegWr => exact .inl (execCtlRegWr_runs h)
  | ctlMbx => exact .inl (execCtlMbx_runs h)
  | apertureWrite => exact .inl (execApertureWrite_runs h)
  | apertureRead => exact .inl (execApertureRead_runs h)
  | dmaWrite f q tag bs =>
    obtain hrun | ⟨b, d, rfl, hturn, hlen⟩ := execDmaWrite_runs_or f q tag bs s
    · exact .inl hrun
    · exact .inr ⟨f, q, tag, b, d, rfl, hturn, hlen⟩
  | _ => exact .inl ⟨_, rfl⟩

/-- A step answers a next state where the front command, if there is one, is well formed and no DMA_WRITE. -/
theorem step_runs (h : ∀ c, s.pending.head? = some c → c.wellFormed = true ∧ ∀ f q tag bs, c ≠ .dmaWrite f q tag bs) :
    ∃ t, step s = .next t := by
  cases hp : s.pending with
  | nil => exact ⟨_, step_of_empty hp⟩
  | cons c l =>
    obtain ⟨hwf, hdma⟩ := h c (by rw [hp, List.head?_cons])
    rw [step_of_front hp]
    obtain hrun | ⟨f, q, tag, bs, d, hc, _⟩ := exec_runs_or c { s with pending := l } hwf
    · exact hrun
    · exact absurd hc (hdma f q tag (some bs))

/-- Settles O57: every command keeps the panel whole, and only a DMA_WRITE with the wrong number of bytes stops. -/
theorem everyStepKeepsThePanelWhole : Obligations.EveryStepKeepsThePanelWhole :=
  ⟨fun _ _ => step_keeps, exec_runs_or, fun _ => step_runs⟩

end Sys2Proof.Machine

/-! PROOFS. The family of the panel's anatomy: what each instar of bring-up leaves (O46). -/

namespace Sys2Proof.Machine

variable {s : State}

/-! ### Folds -/

/-- What every step of a fold leaves alone, the fold leaves alone. -/
theorem foldl_frame {σ β γ : Type} (g : σ → γ) {f : σ → β → σ} (hf : ∀ s x, g (f s x) = g s) (l : List β) (s : σ) :
    g (l.foldl f s) = g s :=
  List.foldlRecOn (motive := fun t => g t = g s) l f rfl fun t h x _ => (hf t x).trans h

/-- What the step of one element establishes and every step keeps holds after a fold over a list with that element. -/
theorem foldl_establishes {σ β : Type} {P : σ → Prop} {f : σ → β → σ} {a : β} (hset : ∀ s, P (f s a)) (hkeep : ∀ s x, P s → P (f s x)) :
    ∀ (l : List β) (s : σ), a ∈ l → P (l.foldl f s)
  | b :: l, s, h => by
    obtain rfl | h := List.mem_cons.1 h
    · exact List.foldlRecOn (motive := P) l f (hset s) fun t ht x _ => hkeep t x ht
    · exact foldl_establishes hset hkeep l _ h

/-- A key written once more with the value it holds still holds it, whichever key is written. -/
theorem Table.get_put_keep {α : Type} [DecidableEq α] {d v : α} (hv : v ≠ d) {t : Table α} {i j : Nat} (h : Table.get d t i = v) :
    Table.get d (Table.put d t j v) i = v := by
  by_cases hj : j = i
  · rw [hj, Table.get_put_val hv]
  · rw [Table.get_put_ne hj, h]

/-- A run of writes of one value, read at a key among those written. -/
theorem Table.get_foldl_put_mem {α : Type} [DecidableEq α] {d v : α} (hv : v ≠ d) {l : List Nat} {i : Nat} (h : i ∈ l) (t : Table α) :
    Table.get d (l.foldl (fun t k => t.put d k v) t) i = v :=
  foldl_establishes (P := fun t => Table.get d t i = v) (f := fun t k => t.put d k v) (fun t => Table.get_put_val hv i t)
    (fun _ _ => Table.get_put_keep hv) l t h

/-- A run of writes of one value leaves a key that held it. -/
theorem Table.get_foldl_put_keep {α : Type} [DecidableEq α] {d v : α} (hv : v ≠ d) {i : Nat} {t : Table α} (h : Table.get d t i = v) (l : List Nat) :
    Table.get d (l.foldl (fun t k => t.put d k v) t) i = v :=
  List.foldlRecOn (motive := fun t => Table.get d t i = v) l _ h fun _ h _ _ => Table.get_put_keep hv h

/-! ### What the operations of bring-up leave alone -/

@[simp] theorem State.ringPorts_hub {k : Nat} : (s.ringPorts k).hub = s.hub := by
  unfold State.ringPorts
  split
  · exact foldl_frame State.hub (fun t i => by dsimp only; split <;> rfl) _ _
  · split <;> rfl

@[simp] theorem State.ringPorts_ports {k : Nat} : (s.ringPorts k).ports = s.ports := by
  unfold State.ringPorts
  split
  · exact foldl_frame State.ports (fun t i => by dsimp only; split <;> rfl) _ _
  · split <;> rfl

@[simp] theorem State.ringsUp_hub {fast : Bool} : (s.ringsUp fast).hub = { s.hub with ringOn := true } := by
  unfold State.ringsUp
  exact (foldl_frame State.hub (fun _ _ => State.updNode_hub) _ _).trans (foldl_frame State.hub (fun _ _ => State.ringPorts_hub) _ _)

@[simp] theorem State.ringsUp_ports {fast : Bool} : (s.ringsUp fast).ports = s.ports := by
  unfold State.ringsUp
  exact (foldl_frame State.ports (fun _ _ => State.updNode_ports) _ _).trans (foldl_frame State.ports (fun _ _ => State.ringPorts_ports) _ _)

@[simp] theorem State.setRegion_hub {k v : Nat} : (s.setRegion k v).hub = { s.hub with region := s.hub.region.put 0 k v } := by
  unfold State.setRegion
  dsimp only
  split
  · rfl
  · rw [State.ringPorts_hub]
    rfl

@[simp] theorem State.setRegion_ports {k v : Nat} : (s.setRegion k v).ports = s.ports := by
  unfold State.setRegion
  dsimp only
  split
  · rfl
  · rw [State.ringPorts_ports]
    rfl

@[simp] theorem State.setClocks_hub {n : Nat} : (s.setClocks n).hub = s.hub := by
  unfold State.setClocks
  split
  · rfl
  · exact State.wr_hub.trans (foldl_frame State.hub (fun _ _ => State.wr_hub) _ _)

@[simp] theorem State.bootCounts_hub : s.bootCounts.hub = s.hub := by
  unfold State.bootCounts
  simp only [State.hwr_hub]
@[simp] theorem State.bootCounts_ports : s.bootCounts.ports = s.ports := by
  unfold State.bootCounts
  simp only [State.hwr_ports]
@[simp] theorem State.bootCounts_nodes : s.bootCounts.nodes = s.nodes := by
  unfold State.bootCounts
  simp only [State.hwr_nodes]

/-- Boot windows stand in tiles and stack nodes. -/
@[simp] theorem State.openBoot_nodes {dies snodes : List Nat} : (s.openBoot dies snodes).nodes = s.nodes := by
  unfold State.openBoot
  exact (foldl_frame State.nodes (fun _ _ => State.updStack_nodes) _ _).trans
    (foldl_frame State.nodes (fun _ _ => foldl_frame State.nodes (fun _ _ => State.updTile_nodes) _ _) _ _)

/-- A chunk that lands changes a tile, a stack or a die's spare tile. -/
theorem State.landChunk_hub_regs {r c : Nat} {poison : Bool} : (s.landChunk r c poison).hub = s.hub ∧ (s.landChunk r c poison).regs = s.regs := by
  unfold State.landChunk
  split
  · exact ⟨rfl, rfl⟩
  · split
    · exact ⟨rfl, rfl⟩
    · dsimp only
      split
      · split
        · split <;> exact ⟨rfl, rfl⟩
        · exact ⟨rfl, rfl⟩
      · exact ⟨rfl, rfl⟩

@[simp] theorem State.landChunk_hub {r c : Nat} {poison : Bool} : (s.landChunk r c poison).hub = s.hub := State.landChunk_hub_regs.1
@[simp] theorem State.landChunk_regs {r c : Nat} {poison : Bool} : (s.landChunk r c poison).regs = s.regs := State.landChunk_hub_regs.2

@[simp] theorem Boot.site_badPort {b : Boot} {k why : Nat} : (b.site k why).badPort = b.badPort := by
  unfold Boot.site
  split <;> rfl
@[simp] theorem Boot.site_kat {b : Boot} {k why : Nat} : (b.site k why).kat = b.kat := by
  unfold Boot.site
  split <;> rfl
@[simp] theorem Boot.tile_kat {b : Boot} {k t why : Nat} : (b.tile k t why).kat = b.kat := by
  unfold Boot.tile
  split <;> rfl

@[simp] theorem State.receiverBad_kat {r cause : Nat} : (s.receiverBad r cause).hub.boot.kat = s.hub.boot.kat := by
  unfold State.receiverBad
  split
  · exact Boot.site_kat
  · exact Boot.tile_kat

@[simp] theorem State.updBoot_ports {f : Boot → Boot} : (s.updBoot f).ports = s.ports := rfl
@[simp] theorem State.updBoot_regs {f : Boot → Boot} : (s.updBoot f).regs = s.regs := rfl
@[simp] theorem State.updBoot_hub {f : Boot → Boot} : (s.updBoot f).hub = { s.hub with boot := f s.hub.boot } := rfl
@[simp] theorem State.updBoot_nodes {f : Boot → Boot} : (s.updBoot f).nodes = s.nodes := rfl

@[simp] theorem State.bootDone_hub {code : Nat} :
    (s.bootDone code).hub = { s.hub with boot := { s.hub.boot with work := true, code := code } } := rfl
@[simp] theorem State.bootDone_regs {code : Nat} : (s.bootDone code).regs = s.regs := rfl
@[simp] theorem State.bootDone_hrd {code : Nat} {f : Fd} : (s.bootDone code).hrd f = s.hrd f := State.hrd_congr State.bootDone_regs f
theorem State.bootDone_work {code : Nat} : (s.bootDone code).hub.boot.work = true := rfl
theorem State.bootDone_code {code : Nat} : (s.bootDone code).hub.boot.code = code := rfl

/-! ### An instar under way -/

theorem State.booting_not {i : Nat} (h : s.booting i = true) : ¬(!s.booting i) = true := by rw [h]; decide

/-- Its work is not done. -/
theorem State.work_of_booting {i : Nat} (h : s.booting i = true) : s.hub.boot.work = false := by
  simp only [State.booting, Bool.and_eq_true, Bool.not_eq_true'] at h
  exact h.2

theorem State.booting_of_loading (h : s.loading = true) : s.booting 5 = true := by
  rw [State.loading, Bool.and_eq_true] at h
  exact h.1

/-! ### Instar 1 -/

theorem State.runClears_of_nil (h : s.hub.rot.clears = []) : s.runClears = s := by
  unfold State.runClears
  rw [h]
  show s.updHub _ = s
  simp only [State.updHub, ← h]

/-- Where no phase has failed, no region is off for its phases (R516). -/
theorem State.phaseFate_of_nil (h : s.hub.phases = []) (key site : Nat) : s.phaseFate key site = 0 := by
  have hf : ∀ rail sub, s.railFails site rail sub = 0 := fun _ _ => by rw [State.railFails, h]; rfl
  unfold State.phaseFate
  simp only [hf]
  split <;> rfl

/-- The tables of the MRAMs as read follow the two copies alone. -/
theorem State.mramTable_congr {t : State} (h : t.hub.bbx = s.hub.bbx) (f : Mram → List (BitVec 64)) : t.mramTable f = s.mramTable f := by
  unfold State.mramTable
  rw [h]

theorem State.neverPowered_congr {t : State} (h : t.hub.bbx = s.hub.bbx) (k : Nat) : t.neverPowered k = s.neverPowered k := by
  unfold State.neverPowered
  rw [State.mramTable_congr h]

/-- A fault of the hub's own ends bring-up at once (R462). -/
theorem execInstarSkeleton_hubFault (dark : List StackNo) (silent : List (Fin 288)) (ports : List (Fin 4)) (hb : s.booting 1 = true) :
    execInstarSkeleton dark silent ports true s = .next (s.bootFatal 0x1F0 2) := by
  unfold execInstarSkeleton
  rw [if_neg (State.booting_not hb), if_pos (by rfl)]

/-- Instar 1 without a fault of the hub: it knows what is dark or silent, and every site that may have power has it. -/
theorem execInstarSkeleton_powers {dark : List StackNo} {silent : List (Fin 288)} {ports : List (Fin 4)} (hb : s.booting 1 = true)
    (hf : s.hub.score.fwUp = true) (hc : s.hub.rot.clears = []) (hp : s.mramTable (·.phase) = []) :
    ∃ t, execInstarSkeleton dark silent ports false s = .next t ∧ t.hub.boot.work = true ∧ t.hub.boot.dark = dark.map (·.val)
      ∧ t.hub.boot.silent = silent.map (·.val) ∧ ∀ k, k < 288 → (∀ d ∈ dark, d.val ≠ k / 12) → s.neverPowered k = false →
        s.hub.fuseOpen.contains k = false → t.hub.region.get 0 k = 1 := by
  unfold execInstarSkeleton
  rw [if_neg (State.booting_not hb), if_neg (by simp [hf]), State.runClears_of_nil hc]
  extract_lets ds s1 s2 on s3 keys
  have h2 : s2.hub = s1.hub := foldl_frame State.hub (fun t k => by split <;> rfl) _ _
  have hbbx : s2.hub.bbx = s.hub.bbx := by
    rw [h2]
    rfl
  have hphases : s3.hub.phases = [] := by
    show (s2.mramTable (·.phase)).map _ = []
    rw [State.mramTable_congr hbbx, hp]
    rfl
  have hkeys : keys = [] := List.filter_eq_nil_iff.2 fun k _ => by
    rw [State.phaseFate_of_nil hphases]
    decide
  rw [hkeys, List.foldl_nil]
  refine ⟨_, rfl, ?_⟩
  rw [State.updBoot_hub, State.ringsUp_hub]
  refine ⟨rfl, congrArg (fun h : Hub => h.boot.dark) h2, congrArg (fun h : Hub => h.boot.silent) h2, fun k hk hdark hnever hopen => ?_⟩
  have hon : k ∈ on := by
    have hfuse : s2.hub.fuseOpen = s.hub.fuseOpen := by
      rw [h2]
      rfl
    have hds : ds.contains (k / 12) = false := by
      refine Bool.eq_false_iff.2 fun h => ?_
      obtain ⟨d, hd, hk⟩ := List.mem_map.1 (List.contains_iff_mem.1 h)
      exact hdark d hd hk
    refine List.mem_filter.2 ⟨List.mem_range.2 hk, ?_⟩
    rw [State.neverPowered_congr hbbx, hfuse, hnever, hopen, hds]
    rfl
  exact Table.get_foldl_put_keep (by decide) (Table.get_foldl_put_mem (by decide) hon _) _

/-! ### Instar 2 -/

/-- With neither copy of the MRAM readable the panel cannot be identified. -/
theorem execInstarIdentify_noMram {u : State} (hb : s.booting 2 = true) (hu : u = s.burnFuses) (hp : u.hub.boot.silentPorts.contains 0 = false)
    (hid : u.idOk (u.idRecord 288) 0x1F1 = true) (h1 : u.hub.bbx.hub.readable = false) (h2 : u.hub.bbx.east.readable = false) :
    execInstarIdentify s = .next (u.bootFatal 0x1F0 4) := by
  subst hu
  unfold execInstarIdentify
  rw [if_neg (State.booting_not hb), if_neg (by rw [hp, hid]; decide), if_pos (by rw [h1, h2]; decide)]

/-- With a copy readable, the fuses, the soft map and the stacks decide the site map, and a panel without a working die ends. -/
theorem execInstarIdentify_maps {u v : State} (hb : s.booting 2 = true) (hu : u = s.burnFuses)
    (hp : u.hub.boot.silentPorts.contains 0 = false) (hid : u.idOk (u.idRecord 288) 0x1F1 = true)
    (hm : u.hub.bbx.hub.readable = true ∨ u.hub.bbx.east.readable = true)
    (hv : v = (((((List.range 24).foldl (fun s k => if s.hub.boot.bad (12 * k + 5) then s.updStack k (fun x => { x with st := 2 }) else s)
      ((u.readMaps.fuseChecks).softChecks)).buildMap.ringsUp false).phasesShown).bootCounts)) :
    execInstarIdentify s = .next (if v.someDie then v.bootDone 0 else v.bootFatal 0x1F0 5) := by
  subst hu hv
  unfold execInstarIdentify
  rw [if_neg (State.booting_not hb), if_neg (by rw [hp, hid]; decide), if_neg (by obtain h | h := hm <;> simp [h])]

/-! ### Instar 3 -/

/-- A fault of a PLL of the hub or of the time-base master ends bring-up at once. -/
theorem execInstarClocks_fault (un : List (Fin 288)) (hb : s.booting 3 = true) : execInstarClocks un true s = .next (s.bootFatal 0x1F0 6) := by
  unfold execInstarClocks
  rw [if_neg (State.booting_not hb), if_pos rfl]

/-- A port die whose clock has just been switched to its full rate. -/
theorem State.port_updPort_fast (q : Nat) : ((s.updPort q (fun x => { x with fast := true })).port q).fast = true := by
  have hne : ({ s.port q with fast := true } : Port) ≠ {} := fun h => Bool.noConfusion (congrArg Port.fast h)
  exact congrArg Port.fast (Table.get_put_val hne q s.ports)

/-- Instar 3 without a fault of a hub PLL: every port die that is not bad runs at its full rate. -/
theorem execInstarClocks_fast (un : List (Fin 288)) (hb : s.booting 3 = true) :
    ∃ t, execInstarClocks un false s = .next t ∧ t.hub.boot.work = true ∧ t.hub.boot.code = 0
      ∧ ∀ q, 1 ≤ q → q ≤ 3 → s.hub.boot.badPort.contains q = false → (t.port q).fast = true := by
  unfold execInstarClocks
  rw [if_neg (State.booting_not hb), if_neg Bool.false_ne_true]
  extract_lets uns s1 on s2 ns s3 s4
  have hbad : s3.hub.boot.badPort = s.hub.boot.badPort := calc
    s3.hub.boot.badPort = s2.hub.boot.badPort :=
      foldl_frame (fun t : State => t.hub.boot.badPort) (fun t n => by rw [State.setClocks_hub, State.wr_hub, State.wr_hub]) _ _
    _ = s1.hub.boot.badPort := foldl_frame (fun t : State => t.hub.boot.badPort) (fun t k => by rw [State.setRegion_hub]) _ _
    _ = s.hub.boot.badPort := foldl_frame Boot.badPort (fun b k => Boot.site_badPort) _ _
  refine ⟨_, rfl, State.bootDone_work, State.bootDone_code, fun q h1 h3 hq => ?_⟩
  have hmem : q ∈ [1, 2, 3].filter (fun q => !s3.hub.boot.badPort.contains q) := by
    rw [hbad]
    refine List.mem_filter.2 ⟨?_, by rw [hq]; rfl⟩
    simp only [List.mem_cons, List.not_mem_nil, or_false]
    omega
  have h4 : (s4.port q).fast = true := by
    refine foldl_establishes (P := fun t : State => (t.port q).fast = true) (a := q) ?_ ?_ _ _ hmem
    · exact fun t => State.port_updPort_fast q
    · intro t p ht
      by_cases hp : p = q
      · rw [hp]
        exact State.port_updPort_fast q
      · rw [State.wr_port, State.wr_port, State.port_updPort_ne hp, State.port_congr State.setRegion_ports]
        exact ht
  refine (congrArg Port.fast (State.port_congr (s := s4) ?_ q)).trans h4
  rw [State.bootDone, State.updBoot_ports, State.bootCounts_ports, State.ringsUp_ports]

/-! ### Instar 4 -/

/-- A router that has just been made ready. -/
theorem State.node_updFab_ready (n : Nat) : ((s.updFab n (fun f => { f with ready := true })).node n).fab.ready = true := by
  have hne : ({ s.node n with fab := { (s.node n).fab with ready := true } } : Node) ≠ {} := fun h => Bool.noConfusion (congrArg (fun x : Node => x.fab.ready) h)
  exact congrArg (fun x : Node => x.fab.ready) (Table.get_put_val hne n s.nodes)

/-- Instar 4: the hub's router and the port dies' are ready. -/
theorem execInstarTrain_ready (links : List LinkTrain) (tables : List RouterTables) (lanes : List (Nat × Nat × Nat)) (hb : s.booting 4 = true) :
    ∃ t, execInstarTrain links tables lanes s = .next t ∧ t.hub.boot.work = true ∧ ∀ n, 264 ≤ n → n ≤ 268 → (t.node n).fab.ready = true := by
  unfold execInstarTrain
  rw [if_neg (State.booting_not hb)]
  extract_lets s1 dies snodes s2 s3 s4 s5 s6 s7
  refine ⟨_, rfl, rfl, fun n h1 h2 => ?_⟩
  have hmem : n ∈ dies ++ snodes.map (240 + ·) ++ [264, 265, 266, 267, 268] := by
    refine List.mem_append_right _ ?_
    simp only [List.mem_cons, List.not_mem_nil, or_false]
    omega
  have h7 : (s7.node n).fab.ready = true := by
    refine foldl_establishes (P := fun t : State => (t.node n).fab.ready = true) (a := n) ?_ ?_ _ _ hmem
    · exact fun t => State.node_updFab_ready n
    · intro t m ht
      by_cases hm : m = n
      · rw [hm]
        exact State.node_updFab_ready n
      · rw [State.updFab, State.node_updNode_ne hm]
        exact ht
  refine (congrArg (fun x : Node => x.fab.ready) (State.node_congr (s := s7) ?_ n)).trans h7
  rw [State.updBoot_nodes, State.bootCounts_nodes, State.openBoot_nodes]

/-! ### Instar 5: the bundle -/

section
variable (hb : s.booting 5 = true) (hm : s.hub.boot.miss = [])
include hb hm

/-- A bad place of the bundle (R468). -/
theorem execInstarLoad_badPlace (b : Option Bundle) (hp : s.fwPlaceOk = false) : execInstarLoad b s = .next (s.bootDone 8) := by
  unfold execInstarLoad
  rw [if_neg (by simp [hb, hm]), if_pos (by simp [hp])]

/-- Function 0 makes no requests (R469). -/
theorem execInstarLoad_noMaster (b : Option Bundle) (hp : s.fwPlaceOk = true) (hbm : (s.fn 0).busMaster = false) :
    execInstarLoad b s = .next (s.bootDone 7) := by
  unfold execInstarLoad
  rw [if_neg (by simp [hb, hm]), if_neg (by simp [hp]), if_pos (by simp [hbm])]

variable (hp : s.fwPlaceOk = true) (hbm : (s.fn 0).busMaster = true)
include hp hbm

/-- A read of the bundle failed (R469). -/
theorem execInstarLoad_unread : execInstarLoad none s = .next (s.bootDone 7) := by
  unfold execInstarLoad
  rw [if_neg (by simp [hb, hm]), if_neg (by simp [hp]), if_neg (by simp [hbm])]

variable {z : Bundle}

/-- A bundle whose header does not keep R468. -/
theorem execInstarLoad_badHeader (hh : bundleHeaderOk z (s.hrd bootFwLen / 4096) = false) : execInstarLoad (some z) s = .next (s.bootDone 8) := by
  unfold execInstarLoad
  rw [if_neg (by simp [hb, hm]), if_neg (by simp [hp]), if_neg (by simp [hbm])]
  dsimp only
  rw [if_pos (by simp [hh])]

variable (hh : bundleHeaderOk z (s.hrd bootFwLen / 4096) = true)
include hh

/-- A bundle whose digest, signatures or version the policy refuses (R469, R579). -/
theorem execInstarLoad_unverified (hz : zbDigestOk z = false ∨ zbSigFormed z = false ∨ z.sigOk = false
      ∨ s.policyOk (s.hrd polMinSvnBundle) (zbSvn z) (zbSigner z) (zbOpSig z) = false) : execInstarLoad (some z) s = .next (s.bootDone 9) := by
  unfold execInstarLoad
  rw [if_neg (by simp [hb, hm]), if_neg (by simp [hp]), if_neg (by simp [hbm])]
  dsimp only
  rw [if_neg (by simp [hh]), if_pos (by obtain h | h | h | h := hz <;> simp [h])]

omit hb hm hp hbm hh in
/-- The counts of rounds and of receivers served point to point, cleared. -/
theorem State.rounds_cleared (h : Table.wf 0 s.regs = true) :
    ((s.hwr bootRounds 0).hwr bootP2p 0).hrd bootRounds = 0 ∧ ((s.hwr bootRounds 0).hwr bootP2p 0).hrd bootP2p = 0 := by
  rw [State.hrd_hwr_apart (State.hwr_wf h) (by decide) (by decide) (by decide), State.hrd_hwr_same h (by decide),
    State.hrd_hwr_same (State.hwr_wf h) (by decide)]
  decide

/-- Instar 5 takes a bundle that passes every check: it is measured and held, and its rounds begin. -/
theorem execInstarLoad_takes (hd : zbDigestOk z = true) (hf : zbSigFormed z = true) (hs : z.sigOk = true)
    (hpol : s.policyOk (s.hrd polMinSvnBundle) (zbSvn z) (zbSigner z) (zbOpSig z) = true) (hr : Table.wf 0 s.regs = true) :
    ∃ t, execInstarLoad (some z) s = .next t ∧ t.hub.boot.bundle = some z ∧ t.hub.rot.bundleSvn = BitVec.ofNat 16 (zbSvn z)
      ∧ t.hrd bootRounds = 0 ∧ t.hrd bootP2p = 0
      ∧ t.hub.rot.meas = s.hub.rot.meas.put [] (measKey 3 0) (bytesLE 48 (zbWord z 32 48) ++ bytesLE 8 (zbWord z 24 8) ++ bytesLE 2 (zbSvn z)) := by
  unfold execInstarLoad
  rw [if_neg (by simp [hb, hm]), if_neg (by simp [hp]), if_neg (by simp [hbm])]
  dsimp -zeta only
  rw [if_neg (by simp [hh]), if_neg (by simp [hd, hf, hs, hpol])]
  extract_lets s0 s1 s2
  have hbundle : s2.hub.boot.bundle = some z := rfl
  have hsvn : s2.hub.rot.bundleSvn = BitVec.ofNat 16 (zbSvn z) := rfl
  have hmeas : s2.hub.rot.meas = s.hub.rot.meas.put [] (measKey 3 0)
      (bytesLE 48 (zbWord z 32 48) ++ bytesLE 8 (zbWord z 24 8) ++ bytesLE 2 (zbSvn z)) := rfl
  have hwf1 : Table.wf 0 s1.regs = true := hr
  obtain ⟨hrounds, hp2p⟩ : s2.hrd bootRounds = 0 ∧ s2.hrd bootP2p = 0 := State.rounds_cleared (by rw [State.updBoot_regs, hwf1])
  clear_value s2
  refine ⟨_, rfl, ?_⟩
  split
  · rw [State.bootDone_hub, State.bootDone_hrd, State.bootDone_hrd]
    exact ⟨hbundle, hsvn, hrounds, hp2p, hmeas⟩
  · exact ⟨hbundle, hsvn, hrounds, hp2p, hmeas⟩

end

/-! ### Instar 5: the rounds -/

/-- A round of the broadcast leaves what was lost, and ends the instar's work where that is nothing (R471, R472). -/
theorem execBroadcastRoundEnd_leaves (lost : List (Receiver × Nat × Bool)) (hl : s.loading = true) (hn : s.hub.boot.round ≤ 8)
    (hr : Table.wf 0 s.regs = true) :
    ∃ t, execBroadcastRoundEnd lost s = .next t
      ∧ t.hub.boot.miss = s.hub.boot.miss.filter (fun x => lost.any (fun l => l.1.key == x.1 && l.2.1 == x.2)) ∧ t.hrd bootRounds = s.hub.boot.round
      ∧ t.hub.boot.round = s.hub.boot.round + 1 ∧ t.hub.boot.work = decide (t.hub.boot.miss = []) := by
  unfold execBroadcastRoundEnd
  rw [if_neg (by simp only [hl, Bool.not_true, Bool.false_or, decide_eq_true_eq]; omega)]
  extract_lets m fate s1 left n s2
  have hs1 : s1.hub = s.hub ∧ s1.regs = s.regs :=
    ⟨foldl_frame State.hub (fun t x => by split <;> simp only [State.landChunk_hub]) _ _,
      foldl_frame State.regs (fun t x => by split <;> simp only [State.landChunk_regs]) _ _⟩
  have hleft : left = m.filter (fun x => lost.any (fun l => l.1.key == x.1 && l.2.1 == x.2)) :=
    List.filter_congr fun x _ => by rw [Option.isSome_map, List.isSome_find?]
  have hwf : Table.wf 0 s1.regs = true := by rw [hs1.2, hr]
  have hwork : s2.hub.boot.work = false := (congrArg (·.boot.work) hs1.1).trans (State.work_of_booting (State.booting_of_loading hl))
  have hrounds : s2.hrd bootRounds = n := (State.hrd_hwr_same hwf (by decide)).trans (Nat.mod_eq_of_lt (show n < 16 by omega))
  have hmiss : s2.hub.boot.miss = left := rfl
  have hround : s2.hub.boot.round = n + 1 := rfl
  have hwf2 : Table.wf 0 s2.regs = true := State.hwr_wf hwf
  rw [← hleft]
  clear_value s2
  refine ⟨_, rfl, ?_⟩
  split
  next h =>
    rw [State.bootDone_hub, State.bootDone_hrd]
    exact ⟨hmiss, hrounds, hround, (decide_eq_true (hmiss.trans h)).symm⟩
  next h =>
    have hend : s2.hub.boot.work = decide (s2.hub.boot.miss = []) := by
      rw [hwork, hmiss]
      exact (decide_eq_false h).symm
    split
    · rw [State.hwr_hub, State.hrd_hwr_apart hwf2 (by decide) (by decide) (by decide)]
      exact ⟨hmiss, hrounds, hround, hend⟩
    · exact ⟨hmiss, hrounds, hround, hend⟩

/-- An attempt that loses nothing leaves nothing of its receiver missing (R473). -/
theorem execP2pLoadAttempt_completes (r : Receiver) (hl : s.loading = true) (hn : 8 < s.hub.boot.round) (hr : ∃ x ∈ s.hub.boot.miss, x.1 = r.key) :
    ∃ t, execP2pLoadAttempt r [] s = .next t ∧ t.hub.boot.miss = s.hub.boot.miss.filter (fun x => x.1 != r.key)
      ∧ t.hub.boot.work = decide (t.hub.boot.miss = []) := by
  unfold execP2pLoadAttempt
  extract_lets k mine s1 left n s2 s3
  have hmine : mine.isEmpty = false := by
    obtain ⟨x, hx, hk⟩ := hr
    exact List.isEmpty_eq_false_iff_exists_mem.2 ⟨x, List.mem_filter.2 ⟨hx, beq_iff_eq.2 hk⟩⟩
  have hs1 : s1.hub = s.hub := foldl_frame State.hub (fun t x => State.landChunk_hub) _ _
  have hs3 : s3 = s2 := if_neg fun h => h.2 (List.filter_false _)
  have hmiss : s2.hub.boot.miss = s.hub.boot.miss.filter (fun x => x.1 != k) := by
    rw [← hs1]
    show (if n < 3 then s1.hub.boot.miss.filter (fun x => x.1 != k || false) else _) = _
    simp only [Bool.or_false, ite_self]
  have hwork : s2.hub.boot.work = false := (congrArg (·.boot.work) hs1).trans (State.work_of_booting (State.booting_of_loading hl))
  rw [if_neg (by simp only [hl, hmine, Bool.not_true, Bool.false_or, Bool.or_false, decide_eq_true_eq]; omega), hs3]
  clear_value s2
  refine ⟨_, rfl, ?_⟩
  split
  next h =>
    rw [State.bootDone_hub, State.bootCounts_hub]
    exact ⟨hmiss, (decide_eq_true h).symm⟩
  next h => exact ⟨hmiss, hwork.trans (decide_eq_false h).symm⟩

/-! ### Instar 6 -/

/-- A receiver that has reported counts once. -/
theorem State.katResult_again {r : Nat} (ok : Bool) (h : s.hub.boot.kat.get 0 r ≠ 0) : s.katResult r ok = s := if_pos (Or.inr h)

/-- The first report of a receiver is kept (R474). -/
theorem State.katResult_get {r : Nat} (ok : Bool) (hr : s.receivers.contains r = true) (h : s.hub.boot.kat.get 0 r = 0)
    (hwf : Table.wf 0 s.hub.boot.kat = true) : (s.katResult r ok).hub.boot.kat.get 0 r = if ok then 1 else 2 := by
  unfold State.katResult
  rw [if_neg (by simp only [hr, h]; decide)]
  dsimp only
  cases ok
  · rw [if_neg Bool.false_ne_true, State.receiverBad_kat]
    exact Table.get_put_same hwf r 2
  · exact Table.get_put_same hwf r 1

/-- A wave of results is counted, and the work is done once every receiver has reported (R474, R475). -/
theorem execInstarProve_eq (hb : s.booting 6 = true) (l : List (Receiver × Bool)) :
    execInstarProve l s = .next ((l.foldl (fun s x => s.katResult x.1.key x.2) s).katDone) := by
  unfold execInstarProve
  rw [if_neg (State.booting_not hb)]

/-- A receiver that does not report in time has failed (R474). -/
theorem execKatReportTimeout_eq (hb : s.booting 6 = true) (r : Receiver) :
    execKatReportTimeout r s = .next ((s.katResult r.key false).katDone) := by
  unfold execKatReportTimeout
  rw [if_neg (State.booting_not hb)]

/-! ### Instar 7 -/

/-- A panel left without a working die ends (R478). -/
theorem execInstarReconcile_noDie (hb : s.booting 7 = true) (hd : s.settle.1.passThree.1.someDie = false) (b : Bool) :
    execInstarReconcile b s = .next (s.settle.1.passThree.1.bootFatal 0x1F0 5) := by
  unfold execInstarReconcile
  rw [if_neg (State.booting_not hb)]
  dsimp only
  rw [if_pos (by rw [hd]; rfl)]

/-- A panel with a working die is recorded and measured, and the measurements decide (R478, R578). -/
theorem execInstarReconcile_someDie {u : State} (hb : s.booting 7 = true) (hd : s.settle.1.passThree.1.someDie = true) (b : Bool)
    (hu : u = (s.settle.1.passThree.1.settleRecords (s.settle.2 ++ s.settle.1.passThree.2) s.settle.2).measureBoot) :
    execInstarReconcile b s = .next (if !u.measureOk then u.bootFatal 0x1F0 10 else u.toImago s b) := by
  unfold execInstarReconcile
  rw [if_neg (State.booting_not hb)]
  extract_lets r p s3
  have hp : p.1.someDie = true := hd
  have hs3 : s3 = u := hu.symm
  rw [if_neg (by rw [hp]; decide), hs3]

/-- Instar 7 records the soft map as used and the policy (R577). -/
theorem State.measureBoot_meas (h : Table.wf [] s.hub.rot.meas = true) :
    s.measureBoot.hub.rot.meas.get [] (measKey 5 0) = s.policyWords
      ∧ s.measureBoot.hub.rot.meas.get [] (measKey 4 0) = (s.mramTable (·.soft)).flatMap (fun r => bytesLE 8 r.toNat) :=
  ⟨Table.get_put_same (Table.put_wf h _ _) _ _, (Table.get_put_ne (by decide) _).trans (Table.get_put_same h _ _)⟩

/-! ### What a reason raised leaves of the hub's words -/

/-- A write of a function's word leaves every word of the hub. -/
theorem State.reg_setReg_fn {f o o' : Nat} {v : W32} (h : o < 2 ^ 24) : (s.setReg (fnPlace f) o' v).reg 264 o = s.reg 264 o :=
  State.reg_setReg_ne (by unfold fnPlace; omega)

theorem State.reg_wr_fn {f o v : Nat} {d : Fd} (h : o < 2 ^ 24) : (s.wr (fnPlace f) d v).reg 264 o = s.reg 264 o := State.reg_setReg_fn h

/-- A write of a word of the hub leaves its others. -/
theorem State.reg_hwr_ne {o v : Nat} {d : Fd} (h : d.off ≠ o) : (s.hwr d v).reg 264 o = s.reg 264 o := State.reg_setReg_ne (by omega)

theorem State.reg_sat_ne {o : Nat} {d : Fd} (h : d.off ≠ o) : (s.sat 264 d).reg 264 o = s.reg 264 o := by
  unfold State.sat
  split
  · exact State.reg_hwr_ne h
  · rfl

section
variable {o : Nat} (h : o < 2 ^ 24)
include h

theorem State.reg_msix {f vec : Nat} : (s.msix f vec).reg 264 o = s.reg 264 o := by
  unfold State.msix
  dsimp only
  split
  · exact State.reg_setReg_fn h
  · rfl

theorem State.reg_sendReply {f q opc : Nat} {tag code : W16} {final event vf1 : Bool} {data : List Byte} :
    (s.sendReply f q tag code final event opc vf1 data).reg 264 o = s.reg 264 o := by
  unfold State.sendReply
  dsimp only
  split
  · rfl
  · split
    · exact State.reg_msix h
    · rfl

theorem State.reg_eventTo {e : Event} {f : Nat} : (s.eventTo e f).reg 264 o = s.reg 264 o := by
  unfold State.eventTo
  dsimp only
  split
  · rw [State.reg_sendReply h, State.updFn_reg, State.dec, State.reg_wr_fn h, State.dec, State.reg_wr_fn h, State.updHub_reg]
  · split
    · rw [State.reg_wr_fn h, State.updFn_reg]
    · rfl

theorem State.reg_event {kind detail p : Nat} {vf : Bool} : (s.event kind detail p vf).reg 264 o = s.reg 264 o :=
  foldl_frame (fun t : State => t.reg 264 o) (fun _ _ => State.reg_eventTo h) _ _

theorem State.reg_outWake {f : Nat} : (s.outWake f).reg 264 o = s.reg 264 o := by
  unfold State.outWake
  split
  · split <;> rfl
  · split
    · exact State.reg_msix h
    · rfl

theorem State.reg_mbaSend {f : Nat} {msg : List W32} : (s.mbaSend f msg).reg 264 o = s.reg 264 o := by
  unfold State.mbaSend
  split
  · rfl
  · dsimp only
    rw [State.reg_outWake h, State.updFn_reg, State.inc, State.reg_wr_fn h, State.reg_wr_fn h]
    exact foldl_frame (fun t : State => t.reg 264 o) (fun t i => State.reg_wr_fn h) _ _

theorem State.reg_mbaPfs {code arg : Nat} : (s.mbaPfs code arg).reg 264 o = s.reg 264 o :=
  foldl_frame (fun t : State => t.reg 264 o) (fun t f => by
    unfold State.mbaOut
    split
    · exact State.reg_mbaSend h
    · rfl) _ _

omit h in
/-- A black-box record counts a drop at most. -/
theorem State.reg_bb {src code sev site part cause : Nat} {vals : List Byte} (hd : bbDrops.off ≠ o) :
    (s.bb src code sev site part cause vals).reg 264 o = s.reg 264 o := by
  unfold State.bb
  dsimp only
  split
  · exact State.reg_sat_ne hd
  · rfl

omit h in
theorem State.reg_ite_hwr_ne {c : Prop} [Decidable c] {d : Fd} {v : Nat} (hd : d.off ≠ o) :
    (if c then s.hwr d v else s).reg 264 o = s.reg 264 o := by
  split
  · exact State.reg_hwr_ne hd
  · rfl

/-- A reason writes the words of the reasons, and the count of dropped records at most. -/
theorem State.reg_raiseReason {n : Nat} (hd : bbDrops.off ≠ o) (hr : fltRrReasons.off ≠ o) : (s.raiseReason n).reg 264 o = s.reg 264 o := by
  have ha : fltRrActive.off ≠ o := hr
  have hp : fltRrPrompt.off ≠ o := hr
  have hf : fltRrFirst.off ≠ o := hr
  unfold State.raiseReason
  dsimp only
  split
  · rfl
  · rw [State.emit_reg, State.reg_mbaPfs h, State.reg_event h, State.reg_bb hd, State.reg_ite_hwr_ne hf, State.reg_ite_hwr_ne hp,
      State.reg_hwr_ne ha, State.reg_hwr_ne hr]

theorem State.reg_recomputeReasons (hd : bbDrops.off ≠ o) (hr : fltRrReasons.off ≠ o) : s.recomputeReasons.reg 264 o = s.reg 264 o := by
  have ha : fltRrActive.off ≠ o := hr
  have hp : fltRrPrompt.off ≠ o := hr
  unfold State.recomputeReasons
  extract_lets hold keep s1
  have h1 : s1.reg 264 o = s.reg 264 o := by
    show (((s.hwr _ _).hwr _ _).hwr _ _).reg 264 o = _
    rw [State.reg_hwr_ne hp, State.reg_hwr_ne ha, State.reg_hwr_ne hr]
  rw [← h1]
  exact foldl_frame (fun t : State => t.reg 264 o) (fun t n => State.reg_raiseReason h hd hr) _ _

end

/-- The end of instar 7: the panel is in imago (R460). -/
theorem State.toImago_imago (hs : Canon s) (old : State) (b : Bool) : (s.toImago old b).hrd bootImago = 1 := by
  unfold State.toImago
  generalize hu : State.hwr _ bootChrysalis 0 = u
  have hkeeps : Keeps s u := by
    rw [← hu]
    exact State.hwr_keeps (State.bootCounts_keeps (State.formLayout_keeps (State.clearBoot_keeps (State.rerouteOf_keeps
      (foldl_keeps (fun _ _ h => State.settleRemaps_keeps h) _ _ (State.unseal_keeps (.refl s)))))))
  have hwf : Table.wf 0 u.regs = true := (hkeeps.canon hs).1
  have hword : ((u.hwr bootImago 1).recomputeReasons.bootDone 0).reg 264 bootImago.off = (u.hwr bootImago 1).reg 264 bootImago.off :=
    (State.reg_congr State.bootDone_regs _ _).trans (State.reg_recomputeReasons (by decide) (by decide) (by decide))
  exact (congrArg (fld · _ _) hword).trans (State.hrd_hwr_same hwf (by decide))

/-- Settles O46: each instar by the equations of its command, and what eclosion leaves by the registers that its steps leave alone. -/
theorem bringUpInstars : Obligations.BringUpInstars := by
  unfold Obligations.BringUpInstars
  intro s hs
  exact ⟨
    fun dark silent ports hb hf => ⟨execInstarSkeleton_hubFault dark silent ports hb, fun hc hp _ => execInstarSkeleton_powers hb hf hc hp⟩,
    fun hb u v hu hp => ⟨fun hid h1 h2 => execInstarIdentify_noMram hb hu hp hid h1 h2,
      fun hid hm hv => execInstarIdentify_maps hb hu hp hid hm hv⟩,
    fun un hb => ⟨execInstarClocks_fault un hb, execInstarClocks_fast un hb⟩,
    fun links tables lanes hb => execInstarTrain_ready links tables lanes hb,
    fun z hb hm => ⟨execInstarLoad_badPlace hb hm (some z), execInstarLoad_noMaster hb hm (some z), fun hp hbm =>
      ⟨execInstarLoad_unread hb hm hp hbm, execInstarLoad_badHeader hb hm hp hbm, execInstarLoad_unverified hb hm hp hbm,
        fun hh hd hf hsig hpol => execInstarLoad_takes hb hm hp hbm hh hd hf hsig hpol hs.1⟩⟩,
    fun lost hl hn => execBroadcastRoundEnd_leaves lost hl hn hs.1,
    fun r hl hn hr => execP2pLoadAttempt_completes r hl hn hr,
    fun hb => ⟨execInstarProve_eq hb, execKatReportTimeout_eq hb⟩,
    fun r ok h => State.katResult_again ok h,
    fun r hr h hwf => ⟨State.katResult_get true hr h hwf, State.katResult_get false hr h hwf⟩,
    fun hb => ⟨fun hd => execInstarReconcile_noDie hb hd, fun hd b u hu =>
      ⟨fun hok => (execInstarReconcile_someDie hb hd b hu).trans (by rw [if_pos (by rw [hok]; rfl)]),
        fun hok => (execInstarReconcile_someDie hb hd b hu).trans (by rw [if_neg (by rw [hok]; decide)])⟩⟩,
    fun recs skipped => rfl,
    State.measureBoot_meas,
    State.toImago_imago hs⟩

end Sys2Proof.Machine

/-! PROOFS. The family of the programming model: windows that the host opens, segments at their targets, the commands of the ports,
apertures and twins, cell windows, answers and retransmission, window commands of tiles and stacks, fences, remote operations
(O7, O9, O10, O14, O15, O17, O22, O23, O26, O27, O36). -/

namespace Sys2Proof.Machine

variable {s t : State}

/-! ### What the ports do leaves the cells and the partitions -/

/-- Tiles, stacks, the network side of every die-cell and the partitions are as before. -/
structure SamePanel (s t : State) : Prop where
  tiles : t.tiles = s.tiles
  snodes : t.snodes = s.snodes
  nodes : t.nodes = s.nodes
  parts : t.parts = s.parts

theorem SamePanel.cells (h : SamePanel s t) : SameCells s t := ⟨h.tiles, h.snodes, h.nodes⟩

theorem SamePanel.refl : SamePanel s s := ⟨rfl, rfl, rfl, rfl⟩

theorem SamePanel.trans {r : State} (h : SamePanel s t) (g : SamePanel t r) : SamePanel s r :=
  ⟨g.tiles.trans h.tiles, g.snodes.trans h.snodes, g.nodes.trans h.nodes, g.parts.trans h.parts⟩

/-- A choice of two steps that each leave the panel. -/
theorem SamePanel.ite {c : Prop} [Decidable c] {x y : State} (hx : SamePanel s x) (hy : SamePanel s y) : SamePanel s (if c then x else y) := by
  split
  · exact hx
  · exact hy

theorem State.msix_samePanel {f vec : Nat} : SamePanel s (s.msix f vec) :=
  SamePanel.ite ⟨rfl, rfl, rfl, rfl⟩ ⟨rfl, rfl, rfl, rfl⟩

theorem State.sendReply_samePanel {f q opc : Nat} {tag code : W16} {final event vf1 : Bool} {data : List Byte} :
    SamePanel s (s.sendReply f q tag code final event opc vf1 data) := by
  unfold State.sendReply
  extract_lets p x i n r c lim s1
  have h1 : SamePanel s s1 := ⟨rfl, rfl, rfl, rfl⟩
  exact .ite .refl (.ite (h1.trans State.msix_samePanel) h1)

theorem State.begin_samePanel {c : HostCmd} {g : HostCmd → HostCmd} : SamePanel s (s.begin c g) :=
  SamePanel.ite ⟨rfl, rfl, rfl, rfl⟩ ⟨rfl, rfl, rfl, rfl⟩

theorem State.beginHw_samePanel {c : HostCmd} {g : HostCmd → HostCmd} : SamePanel s (s.beginHw c g) :=
  SamePanel.ite State.begin_samePanel (State.begin_samePanel.trans State.sendReply_samePanel)

theorem State.endCmd_samePanel {c : HostCmd} {code : W16} {data : List Byte} : SamePanel s (s.endCmd c code data) := by
  unfold State.endCmd
  extract_lets s1 s2 s3 s4
  have h3 : SamePanel s s3 := SamePanel.ite ⟨rfl, rfl, rfl, rfl⟩ ⟨rfl, rfl, rfl, rfl⟩
  have h4 : SamePanel s s4 := SamePanel.ite (h3.trans ⟨rfl, rfl, rfl, rfl⟩) h3
  exact SamePanel.ite h4 (h4.trans State.sendReply_samePanel)

/-! ### Windows that the host opens and closes -/

/-- Settles O10: the command's checks pass, so it opens the window. -/
theorem hostWindowOpens : Obligations.HostWindowOpens := by
  unfold Obligations.HostWindowOpens
  rintro s f q tag c m r - hturn hcell rfl hidx hrights hmode hbase hlimit hrange hclosed
  refine ⟨_, rfl, ?_⟩
  rw [exec_windowOpen, execWindowOpen, State.fwRun_of_partTurn hturn, hcell]
  dsimp only
  rw [if_neg (by rw [hrange]; simp [hidx, hrights, hmode, hbase, hlimit]), if_neg (not_not.2 hclosed)]

/-! ### Segments at a tile -/

/-- A packet for one tile has no copies (R298). -/
theorem mateTgts_of_zero (u : Tgt) {g : Segment} (h : g.mates = 0) : mateTgts u g = [] := by
  have hb : bitsOf g.mates 16 = [] := by
    rw [h]
    decide
  unfold mateTgts
  cases u <;> simp [hb]

section
variable {u : Tgt} {g : Segment} (hg : g.sched = false)
include hg

/-- An unscheduled segment issued more than 1 ms ago is counted and dropped (R299). -/
theorem State.arriveSeg_aged (h : g.issue + 1000000 < s.now) :
    s.arriveSeg u g = s.updFab (tgtNode u) (fun f => { f with aged := satInc f.aged }) := by
  unfold State.arriveSeg
  rw [hg, if_neg Bool.false_ne_true, if_pos h]

variable (hage : s.now ≤ g.issue + 1000000)
include hage

/-- A duplicate is held with its original, or answered again, at each of its targets (R302). -/
theorem State.arriveSeg_dup (h : (((s.node (tgtNode u)).dup.get {} g.node.toNat).meet g.seq).2 = .dup) :
    s.arriveSeg u g = (u :: mateTgts u g).foldl (fun s u =>
      if (s.unit u).waits g then s.updUnit u (fun x => { x with held := x.held ++ [g] }) else s.answerDup u g) s := by
  unfold State.arriveSeg
  rw [hg, if_neg Bool.false_ne_true, if_neg (Nat.not_lt.2 hage)]
  dsimp only
  rw [h]

variable (hfresh : (((s.node (tgtNode u)).dup.get {} g.node.toNat).meet g.seq).2 = .fresh)
include hfresh

/-- A fresh number that every target rejects stays unaccepted (R68, R300). -/
theorem State.arriveSeg_rejected (h : (u :: mateTgts u g).all (fun u => (s.segCheck u g).isSome) = true) :
    s.arriveSeg u g = (u :: mateTgts u g).foldl (fun s u => s.landSeg u g) (s.updNode (tgtNode u) (fun x => { x with
      dup := x.dup.put {} g.node.toNat (((s.node (tgtNode u)).dup.get {} g.node.toNat).meet g.seq).1 })) := by
  unfold State.arriveSeg
  rw [hg, if_neg Bool.false_ne_true, if_neg (Nat.not_lt.2 hage)]
  dsimp only
  rw [hfresh]
  dsimp only
  rw [if_pos h]

/-- A fresh number that a target accepts and has room for is accepted (R68, R300). -/
theorem State.arriveSeg_accepted (h : (u :: mateTgts u g).all (fun u => (s.segCheck u g).isSome) = false) (hroom : s.segFull u g = false) :
    s.arriveSeg u g = (u :: mateTgts u g).foldl (fun s u => s.landSeg u g) (s.updNode (tgtNode u) (fun x => { x with
      dup := x.dup.put {} g.node.toNat ((((s.node (tgtNode u)).dup.get {} g.node.toNat).meet g.seq).1.accept g.seq) })) := by
  unfold State.arriveSeg
  rw [hg, if_neg Bool.false_ne_true, if_neg (Nat.not_lt.2 hage)]
  dsimp only
  rw [hfresh]
  dsimp only
  rw [h, hroom, if_neg Bool.false_ne_true, if_neg Bool.false_ne_true]

end

/-- A die-cell's map of numbers decides nothing of the checks at a scratchpad. -/
theorem State.segCheck_updNode {k n : Nat} {f : Node → Node} {g : Segment} : (s.updNode n f).segCheck (.tile k) g = s.segCheck (.tile k) g := rfl

/-- A segment that passes the checks at a scratchpad waits there for its access (R226). -/
theorem State.landSeg_tile_accepts {k : Nat} {g : Segment} (h : s.segCheck (.tile k) g = none) :
    s.landSeg (.tile k) g = s.updTile k (fun x => { x with w := { x.w with acc := x.w.acc ++
      [⟨fld g.tag 15 8, (x.w.window (fld g.tag 15 8)).gen, (x.w.window (fld g.tag 15 8)).cnt, (x.w.window (fld g.tag 15 8)).cmode, g⟩] } }) := by
  unfold State.landSeg
  rw [h]
  rfl

/-- A segment that fails a check at a scratchpad raises its window's count, if it names one, and is answered (R67). -/
theorem State.landSeg_tile_rejects {k : Nat} {g : Segment} {code : BitVec 4} (h : s.segCheck (.tile k) g = some code) :
    s.landSeg (.tile k) g = (if fld g.tag 15 8 < 64 then
        s.updTile k (fun x => { x with w := x.w.updWin (fld g.tag 15 8) (fun w => { w with rej := satInc w.rej }) }) else s).answer g
      ⟨code, [], false, 0⟩ := by
  unfold State.landSeg
  rw [h]
  dsimp only
  congr 1
  unfold State.rejectSeg
  simp only [segBlock, and_true]
  rfl

/-- Settles O15: the duplicate test decides, then the checks at the one target, and what an acceptance or a rejection writes. -/
theorem segmentsAtTheirTarget : Obligations.SegmentsAtTheirTarget := by
  unfold Obligations.SegmentsAtTheirTarget
  rintro s k g ⟨-, htiles, -⟩ hg
  have hone (hm : g.mates = 0) : Tgt.tile k.val :: mateTgts (.tile k.val) g = [.tile k.val] := by rw [mateTgts_of_zero _ hm]
  refine ⟨fun hok => ?_, fun hok hage hf hc hfull => ?_, fun hok hm hage hf hc hfull => ?_, fun code hok hm hage hf hc => ?_,
    fun hok hm hage hop hf hw => ?_, fun hok hage => ?_⟩
  · rw [Stops, exec_segmentArrival, execSegmentArrival, hok]
    rfl
  all_goals simp only [Runs, exec_segmentArrival, execSegmentArrival, if_pos hok]
  · rw [State.arriveSeg_accepted (u := .tile k.val) hg hage hf hc hfull]
    rfl
  · refine ⟨_, rfl, ?_⟩
    rw [State.arriveSeg_accepted (u := .tile k.val) hg hage hf (by rw [hone hm]; simp [hc]) hfull, hone hm, List.foldl_cons, List.foldl_nil,
      State.landSeg_tile_accepts (by rw [State.segCheck_updNode, hc]), State.tile_updTile_same (by exact htiles)]
    exact ⟨rfl, rfl, rfl, rfl, rfl, fun m hmk => State.tile_updTile_ne hmk.symm⟩
  · refine ⟨_, rfl, ?_⟩
    rw [State.arriveSeg_rejected (u := .tile k.val) hg hage hf (by rw [hone hm]; simp [hc]), hone hm, List.foldl_cons, List.foldl_nil,
      State.landSeg_tile_rejects (by rw [State.segCheck_updNode, hc]), State.answer, State.emit_tile]
    by_cases hlt : fld g.tag 15 8 < 64
    · rw [if_pos hlt, State.tile_updTile_same (by exact htiles)]
      exact ⟨rfl, rfl, rfl, fun _ => rfl, rfl, fun m hmk => State.emit_tile.trans (State.tile_updTile_ne hmk.symm)⟩
    · rw [if_neg hlt]
      exact ⟨rfl, rfl, rfl, fun h => absurd h hlt, rfl, fun m _ => rfl⟩
  · refine ⟨_, rfl, ?_⟩
    rw [State.arriveSeg_dup (u := .tile k.val) hg hage hf, hone hm, List.foldl_cons, List.foldl_nil, if_neg (by rw [State.unit, hw]; decide), State.answerDup, hop]
    exact ⟨rfl, rfl, rfl⟩
  · rw [State.arriveSeg_aged (u := .tile k.val) hg hage]
    exact ⟨_, rfl, rfl, rfl, rfl, rfl⟩

/-! ### Canonical tables after an update -/

theorem State.updPart_parts_wf {p : Nat} {g : Part → Part} (h : Table.wf {} s.parts = true) : Table.wf {} (s.updPart p g).parts = true :=
  Table.upd_wf h _ _
theorem State.updNode_nodes_wf {n : Nat} {f : Node → Node} (h : Table.wf {} s.nodes = true) : Table.wf {} (s.updNode n f).nodes = true :=
  Table.upd_wf h _ _

/-! ### RUN_STEP, DOORBELL and QUERY_COUNTER -/

section
variable {c : HostCmd} (hbar : s.partBar c = none) (hflow : s.hrd thmFlowStop = 0) (hhole : (s.part c.part).holed = false) (hpair : s.pairAlike c.part = true)
include hbar hflow hhole hpair

/-- RUN_STEP on a READY partition: it begins, and the partition runs for the steps asked for. -/
theorem State.runStep_ready (h : (s.part c.part).sch.state = .ready) :
    s.runStep c = ((s.beginHw c id).updPart c.part (fun y => { y with
      wbs := { y.wbs with steps := if cmdB c.cmd 8 12 = 0 then none else some (cmdB c.cmd 8 12) } })).updPart c.part (fun y => { y with
        sch := { y.sch with state := .running, why := 0 }, wbs := { y.wbs with started := true } }) := by
  unfold State.runStep
  dsimp only
  rw [hbar, hflow, hhole, hpair, h]
  simp

/-- RUN_STEP on a partition that a request has halted: it begins, and the partition goes on from its last checkpoint. -/
theorem State.runStep_halted (h : (s.part c.part).sch.state = .halted) (hwhy : (s.part c.part).sch.why = 1) (hhot : s.partHot c.part = false)
    (hheld : (s.part c.part).wbs.withheld = false) (hforced : (s.part c.part).wbs.forced = false) :
    s.runStep c = (((s.beginHw c id).updPart c.part (fun y => { y with
      wbs := { y.wbs with steps := if cmdB c.cmd 8 12 = 0 then none else some (cmdB c.cmd 8 12) } })).updPart c.part (fun y => { y with
        sch := { y.sch with why := 0 } })).setSch c.part .rollback := by
  unfold State.runStep
  dsimp only
  rw [hbar, hflow, hhole, hpair, h, hwhy, hhot, hheld, hforced]
  simp

end

/-- Settles O7: each command's branch is decided by its guards, and beginning a command leaves the panel. -/
theorem portCommands : Obligations.PortCommands := by
  unfold Obligations.PortCommands
  rintro s f q tag c ⟨-, -, -, -, -, -, hparts⟩
  have hbegin : SamePanel s (s.beginHw c id) := State.beginHw_samePanel
  have hwf : Table.wf {} (s.beginHw c id).parts = true := by
    rw [hbegin.parts]
    exact hparts
  refine ⟨fun hturn hbar hflow hst hhole hpair => ⟨_, rfl, ?_⟩, fun hturn hbar hflow hst hhole hpair hwhy hhot hheld hforced => ⟨_, rfl, ?_⟩,
    fun hturn hbar h1 hmax => ?_, fun m hturn hbar hplain hcell hk => ?_, fun hturn hbar harm => ?_, fun hrun hopc hstill => ?_,
    fun hrun hopc hdone => ?_⟩
  · simp only [hturn]
    rw [State.runStep_ready hbar hflow hhole hpair hst, State.part_updPart_same (by exact State.updPart_parts_wf hwf), State.part_updPart_same hwf]
    exact ⟨rfl, rfl, rfl, rfl, hbegin.cells⟩
  · simp only [hturn]
    rw [State.runStep_halted hbar hflow hhole hpair hst hwhy hhot hheld hforced, State.setSch,
      State.part_updPart_same (by exact State.updPart_parts_wf (State.updPart_parts_wf hwf)),
      State.part_updPart_same (by exact State.updPart_parts_wf hwf)]
    exact ⟨rfl, rfl, hbegin.cells⟩
  · simp only [exec_doorbell, execDoorbell, hturn, hbar]
    rw [if_neg (by omega)]
  · simp only [exec_queryCounter, execQueryCounter, hturn, hbar, hplain, hcell]
    rw [if_neg Bool.false_ne_true, if_neg (Nat.not_le.2 hk)]
  · simp only [exec_queryCounter, execQueryCounter, hturn, hbar]
    rw [if_pos harm]
  · simp only [exec_queryCounterTimeout, execQueryCounterTimeout, hrun]
    rw [if_neg (not_not.2 hopc), if_neg (by simpa using hstill)]
  · simp only [exec_queryCounterTimeout, execQueryCounterTimeout, hrun]
    rw [if_neg (not_not.2 hopc), if_pos (by rw [hdone]; rfl)]

/-! ### Apertures, windows closed by the host, twins -/

/-- Partition `p` joined to its twin `o`, its root's lead set (R343, R553): what SET_TWIN does to each of the two. -/
def State.joinTwin (s : State) (lead : W16) (p o : Nat) : State :=
  (s.updPart p (fun x => { x with
    lead0 := some (s.node x.root).sync.lead, sch := { x.sch with twinOn := true, twinPart := BitVec.ofNat 5 o } })).updNode (s.part p).root
    (fun n => { n with sync := { n.sync with lead := lead } })

theorem State.joinTwin_parts_wf {lead : W16} {p o : Nat} (h : Table.wf {} s.parts = true) : Table.wf {} (s.joinTwin lead p o).parts = true := by
  rw [State.joinTwin, State.updNode_parts]
  exact State.updPart_parts_wf h

theorem State.hwr_samePanel {f : Fd} {v : Nat} : SamePanel s (s.hwr f v) := ⟨rfl, rfl, rfl, rfl⟩

theorem State.part_joinTwin_same {lead : W16} {p o : Nat} (h : Table.wf {} s.parts = true) : (s.joinTwin lead p o).part p
    = { s.part p with lead0 := some (s.node (s.part p).root).sync.lead, sch := { (s.part p).sch with twinOn := true, twinPart := BitVec.ofNat 5 o } } :=
  State.updNode_part.trans (State.part_updPart_same h)

theorem State.part_joinTwin_ne {lead : W16} {p o m : Nat} (h : p ≠ m) : (s.joinTwin lead p o).part m = s.part m :=
  State.updNode_part.trans (State.part_updPart_ne h)

theorem State.lead_joinTwin {lead : W16} {p o : Nat} (h : Table.wf {} s.nodes = true) : ((s.joinTwin lead p o).node (s.part p).root).sync.lead = lead := by
  rw [State.joinTwin, State.node_updNode_same (by exact h)]

/-- SET_TWIN on two partitions at rest that can be twins joins each to the other, with the larger lead plus the relay's latency. -/
theorem execSetTwin_joins {f : Fin 50} {q : Fin 8} {tag : W16} {c : HostCmd} {lat : Fin 257} {a b : Nat} (hturn : Turn f.val q.val tag 0x1A c s)
    (ha : cmdB c.cmd 8 9 = a) (hb : cmdB c.cmd 9 10 = b) (ha24 : a < 24) (hb24 : b < 24) (hab : a ≠ b) (hon : cmdB c.cmd 10 11 = 1)
    (hfa : (s.part a).formed = true) (hfb : (s.part b).formed = true) (hra : s.atRest a = true) (hrb : s.atRest b = true) (hok : s.twinOk a b = true) :
    ∃ t, exec (.setTwin f q tag lat) s = .next t ∧ SamePanel ((s.joinTwin (BitVec.ofNat 16 (max (s.lead a) (s.lead b) + lat.val)) a b).joinTwin
      (BitVec.ofNat 16 (max (s.lead a) (s.lead b) + lat.val)) b a) t := by
  rw [exec_setTwin, execSetTwin, State.fwRun_of_turn hturn]
  dsimp only
  rw [ha, hb, hon, if_neg (by omega), if_neg (by simp [hfa, hfb, hra, hrb]), if_neg Nat.one_ne_zero, if_neg (by simp [hok])]
  exact ⟨_, rfl, State.hwr_samePanel.trans State.endCmd_samePanel⟩

/-- The two partitions, the leads and the tiles after both have been joined. -/
theorem State.joinTwin_joinTwin {lead : W16} {a b : Nat} (hs : Canon s) (hab : a ≠ b) {u : State} (hu : u = (s.joinTwin lead a b).joinTwin lead b a) :
    (u.part a).sch.twinOn = true ∧ (u.part b).sch.twinOn = true ∧ (u.part a).sch.twinPart = BitVec.ofNat 5 b
      ∧ (u.part b).sch.twinPart = BitVec.ofNat 5 a ∧ (u.node (s.part b).root).sync.lead = lead ∧ u.tiles = s.tiles := by
  obtain ⟨-, -, -, hnodes, -, -, hparts⟩ := hs
  have hpb : (s.joinTwin lead a b).part b = s.part b := State.part_joinTwin_ne hab
  have hua : u.part a = (s.joinTwin lead a b).part a := by rw [hu, State.part_joinTwin_ne hab.symm]
  rw [hua, State.part_joinTwin_same hparts, ← hpb, hu, State.part_joinTwin_same (State.joinTwin_parts_wf hparts),
    State.lead_joinTwin (by exact State.updNode_nodes_wf hnodes)]
  exact ⟨rfl, rfl, rfl, rfl, rfl, rfl⟩

/-- Settles O9: the guards of each command decide its branch. -/
theorem aperturesAndWindowsOfTheHost : Obligations.AperturesAndWindowsOfTheHost := by
  unfold Obligations.AperturesAndWindowsOfTheHost
  intro s f q tag c hs
  refine ⟨fun d hturn hapt hsize hbase hspace hd hin => ?_, fun hturn hbad => ?_, fun hturn hapt => ?_, fun hrun hopc hacc => ?_,
    fun off bs tee hne hlen hoff hup => ?_, fun off bs tee hbad => ?_, fun off len tee h1 hlen hoff hup => ?_, fun tee hup => ?_,
    fun m hturn hcell hidx hopen => ?_, fun lat hturn ha hb hab hon hfa hfb hra hrb hok => ?_⟩
  · have hgood : s.aptOk f.val c.part c.cmd = true := by
      simp only [State.aptOk, hd]
      simp [hapt, hsize, hbase, hspace, hin]
    rw [exec_apertureMap, execApertureMap, State.fwRun_of_partTurn hturn, hgood]
    rfl
  · have hgood : s.aptOk f.val c.part c.cmd = false := by
      unfold State.aptOk
      obtain h | h | h | h := hbad
      · simp [Nat.not_lt.2 h]
      · simp [Nat.not_le.2 h]
      · simp [h]
      · simp [Nat.not_le.2 h]
    rw [exec_apertureMap, execApertureMap, State.fwRun_of_partTurn hturn, hgood]
    rfl
  · rw [exec_apertureUnmap, execApertureUnmap, State.fwRun_of_turn hturn, if_neg (Nat.not_le.2 hapt)]
  · simp only [exec_apertureUnmapComplete, execApertureUnmapComplete, hrun]
    rw [if_pos hopc, State.aptDone, if_neg]
    simpa using hacc
  · rw [exec_apertureWrite, execApertureWrite, if_neg (by simp [hne, hlen, hoff]), if_neg (by rw [hup]; decide)]
  · rw [Stops, exec_apertureWrite, execApertureWrite, if_pos hbad]
  · rw [exec_apertureRead, execApertureRead, if_neg (by omega), if_neg (by rw [hup]; decide)]
  · rw [exec_fnAptFenceRead, execFnAptFenceRead, if_neg (by rw [hup]; decide)]
  · rw [exec_windowClose, execWindowClose, State.fwRun_of_partTurn hturn, hcell]
    dsimp only
    rw [if_neg (Nat.not_le.2 hidx), if_neg hopen]
  · obtain ⟨t, ht, hsame⟩ := execSetTwin_joins hturn rfl rfl ha hb hab hon hfa hfb hra hrb hok
    refine ⟨t, ht, ?_⟩
    beta_reduce
    rw [State.part_congr hsame.parts, State.part_congr hsame.parts, State.node_congr hsame.nodes, hsame.tiles]
    exact State.joinTwin_joinTwin hs hab rfl

/-! ### Cell windows -/

/-- Settles O14: with the members known, the guards of each command decide its branch. -/
theorem cellWindows : Obligations.CellWindows := by
  unfold Obligations.CellWindows
  intro s p c l hl
  refine ⟨?_, fun hhead hcnt hclosed => ?_, fun u hu hhead hcnt hopen => ?_, fun hhead hcnt htime hopen hne => ?_,
    fun r hrun hpart hcmd hmem hpend => ?_, fun hhead hop hgen => ?_⟩
  · rintro r hhead rfl hrange hsrc hgen hclosed
    refine ⟨_, _, rfl, rfl, ?_⟩
    simp only [exec_cellWopen, execCellWopen, hhead, hl]
    rw [if_neg (by rw [hsrc, List.all_eq_true.2 hrange]; decide), if_neg (by rw [hgen]; simpa using hclosed)]
  · simp only [exec_cellCloseNow, execCellCloseNow, hhead, hl]
    rw [if_neg (by rw [hcnt]; decide), if_pos (by simpa using hclosed)]
  · simp only [exec_cellCloseNow, execCellCloseNow, hhead, hl]
    rw [if_neg (by rw [hcnt]; decide), if_neg (by simpa using ⟨u, hu, hopen⟩)]
  · obtain ⟨u, hu⟩ := List.exists_mem_of_ne_nil l hne
    simp only [exec_cellCloseQuiesce, execCellCloseQuiesce, hhead, hl]
    rw [if_neg (by rw [hcnt]; decide), if_neg, if_neg, if_neg]
    · simp only [htime, false_or, List.any_map]
      simpa using fun t ht _ => (hopen t ht).2
    · simpa using fun t ht => by simp [(hopen t ht).1]
    · simpa using ⟨u, hu, by simp [(hopen u hu).1]⟩
  · subst hcmd
    have hfind : s.hub.cellRun.find? (fun r => r.part == p.val && (s.members p.val (cellOf r.cmd)).all
        (fun t => ((s.unit t).window (fld r.cmd 103 96)).pend.all (fun q => q.dest != .cell r.id))) = some r := by
      rw [hrun]
      exact List.find?_cons_of_pos (by simp +contextual [hpart, hmem, hpend])
    have hdrop : s.hub.cellRun.filter (fun c => c.id != r.id) = [] := by simp [hrun]
    simp only [exec_cellCloseEnded, execCellCloseEnded, hfind, State.updHub, hdrop, hmem]
  · simp only [exec_cellWquery, execCellWquery, hhead, hop, if_true, hl]
    rw [if_pos hgen]

/-! ### Answers to the segments of a die-cell and their retransmission -/

section
variable {d n : Nat} {q : W16}

/-- An answer to no outstanding segment changes nothing (R302). -/
theorem State.issAnswer_of_none (h : s.issFind d n q = none) (a : Answer) : s.issAnswer d n q a = s := by
  unfold State.issAnswer
  rw [h]

variable {g : IssSeg} (hg : s.issFind d n q = some g)
include hg

/-- The first answer to an outstanding segment: off its list, what it was for, and held sends go on. -/
theorem State.issAnswer_of_some (a : Answer) : s.issAnswer d n q a
    = (((s.updNode d (fun x => { x with iss := { x.iss with out := x.iss.out.filter (fun h => !(h.node == n && h.seg.seq == q)) } })).issDone d g a).issPump
      d).sxeWake d := by
  unfold State.issAnswer
  rw [hg]

/-- After seven retransmissions a segment is answered TIMEOUT (R82). -/
theorem State.issRetransmit_timeout (h : 7 ≤ g.retries) :
    s.issRetransmit d n q = (s.till (g.seg.issue + s.issRto d)).issAnswer d n q ⟨rcTimeout, [], false, 0⟩ := by
  unfold State.issRetransmit
  rw [hg]
  exact if_pos h

/-- A segment whose target the first router marks down is answered TARGET_DOWN (R295). -/
theorem State.issRetransmit_down (h : g.retries < 7) (hdown : s.routeDown d n = true) :
    s.issRetransmit d n q = (s.till (g.seg.issue + s.issRto d)).issAnswer d n q ⟨rcTargetDown, [], false, 0⟩ := by
  unfold State.issRetransmit
  rw [hg]
  exact (if_neg (Nat.not_le.2 h)).trans (if_pos hdown)

/-- Any other segment whose time is over goes out again, with a fresh issue time, and nothing but its record and time changes. -/
theorem State.issRetransmit_again (h : g.retries < 7) (h6 : bit ((s.node d).fab.route.get 0 n) 6 = false)
    (h7 : bit ((s.node d).fab.route.get 0 n) 7 = true) :
    g.seg.issue + s.issRto d ≤ (s.issRetransmit d n q).now
      ∧ (s.issRetransmit d n q).out = s.out ++ [.request g.tgt { g.seg with issue := (s.issRetransmit d n q).now }]
      ∧ (s.issRetransmit d n q).tiles = s.tiles ∧ (s.issRetransmit d n q).snodes = s.snodes ∧ (s.issRetransmit d n q).hub = s.hub
      ∧ (s.issRetransmit d n q).regs = s.regs := by
  have hup : s.routeDown d n = false := by
    unfold State.routeDown
    dsimp only
    rw [h6, h7]
    rfl
  unfold State.issRetransmit
  rw [hg]
  dsimp only
  rw [if_neg (Nat.not_le.2 h), if_neg (by rw [show (s.till _).routeDown d n = s.routeDown d n from rfl, hup]; decide)]
  exact ⟨Nat.le_max_right _ _, rfl, rfl, rfl, rfl, rfl⟩

end

/-- Settles O17: by the equations of an answer and of a retransmission, at a die-cell and at a port die. -/
theorem answersAndRetransmission : Obligations.AnswersAndRetransmission := by
  unfold Obligations.AnswersAndRetransmission
  intro s d n q
  exact ⟨fun g a hg => congrArg Host.Outcome.next (State.issAnswer_of_some hg a),
    fun a hnone => ⟨_, rfl, State.issAnswer_of_none hnone a⟩,
    fun g hg h h6 h7 => ⟨_, rfl, State.issRetransmit_again hg h h6 h7⟩,
    fun p g hd hg h h6 h7 => ⟨s.issRetransmit d.val n.val q, by rw [hd]; rfl, State.issRetransmit_again hg h h6 h7⟩,
    fun g hg h hdown => congrArg Host.Outcome.next (State.issRetransmit_down hg h hdown),
    fun g hg h => congrArg Host.Outcome.next (State.issRetransmit_timeout hg h)⟩

/-! ### Writes of a tile into its own scratchpad -/

theorem bytesLE_length (k v : Nat) : (bytesLE k v).length = k := by
  induction k generalizing v with
  | zero => rfl
  | succ k ih => rw [bytesLE, List.length_cons, ih]

theorem State.updTile_of_tile {n : Nat} {x : Tile} {f : Tile → Tile} (h : s.tile n = x) : s.updTile n f = s.setTile n (f x) := by
  rw [State.updTile, h]

theorem State.updTile_setTile {n : Nat} {x : Tile} {f : Tile → Tile} (h : Table.wf {} s.tiles = true) : (s.setTile n x).updTile n f = s.setTile n (f x) := by
  rw [State.updTile_of_tile (State.tile_setTile_same h), State.setTile_setTile h]

/-- Bytes for banks that are on are written. -/
theorem State.tileWrite_of_powered {n unit pc off : Nat} {bs : List Byte} {poison : Bool} (h : (s.tile n).spm.refused off bs.length = none) :
    s.tileWrite n unit pc off bs poison = s.setTile n { s.tile n with spm := (s.tile n).spm.write off bs poison } := by
  unfold State.tileWrite
  rw [h]
  rfl

/-- A write of a running tile into banks that are on, and issue goes on. -/
theorem State.tileWrite_advanceOk {n pc off : Nat} {bs : List Byte} (hw : Table.wf {} s.tiles = true)
    (hrun : (s.tile n).seq.st = .run) (h : (s.tile n).spm.refused off bs.length = none) :
    (s.tileWrite n 0 pc off bs false).advanceOk n pc
      = (s.setTile n { s.tile n with spm := (s.tile n).spm.write off bs false }).advance n pc := by
  rw [State.tileWrite_of_powered h, State.advanceOk, State.tile_setTile_same hw]
  exact if_neg (by rw [hrun]; decide)

/-- A result word of a running tile in banks that are on, and issue goes on. -/
theorem State.windowResult_advanceOk {n pc i raddr : Nat} {status : BitVec 8} (hw : Table.wf {} s.tiles = true)
    (hrun : (s.tile n).seq.st = .run) (h : (s.tile n).spm.refused raddr 4 = none) :
    (s.windowResult n pc i raddr status).advanceOk n pc = (s.setTile n { s.tile n with
      spm := (s.tile n).spm.write raddr (bytesLE 4 (resultWord ((s.tile n).w.window i) i status)) false }).advance n pc :=
  State.tileWrite_advanceOk hw hrun (by rw [bytesLE_length]; exact h)

/-! ### Window commands of a tile -/

section
variable {n pc : Nat} {w : Insn}

/-- WOPEN of an index that is not CLOSED ends WIN_BUSY. -/
theorem doWopen_busy (h : ((s.tile n).w.window (fld w 111 106)).st ≠ .closed) :
    doWopen n w pc s = (s.windowResult n pc (fld w 111 106) (fld w 61 38) stBusy).advanceOk n pc := if_pos h

/-- WOPEN of a CLOSED index with a bad range ends BAD_PARAM. -/
theorem doWopen_badRange (h : ((s.tile n).w.window (fld w 111 106)).st = .closed) (hr : (wopenReq w pc).rangeOk spmTop64 32 = false) :
    doWopen n w pc s = (s.windowResult n pc (fld w 111 106) (fld w 61 38) stBadParam).advanceOk n pc :=
  (if_neg (not_not.2 h)).trans (if_pos (by rw [hr]; rfl))

section
variable (h : ((s.tile n).w.window (fld w 111 106)).st = .closed) (hr : (wopenReq w pc).rangeOk spmTop64 32 = true)
  (hsrc : s.sourceOk (s.tile n).id.part.toNat (wopenReq w pc).skind (wopenReq w pc).srcval = true)
include h hr hsrc

/-- A good WOPEN holds issue until 4 µs after the index's last OPEN. -/
theorem doWopen_holds (hd : s.now < (s.tile n).w.openDue (fld w 111 106)) : doWopen n w pc s = s.holdAt n pc (.wopen (wopenReq w pc)) :=
  (if_neg (not_not.2 h)).trans ((if_neg (by rw [hr, hsrc]; decide)).trans (if_pos hd))

/-- A good WOPEN that is due opens the window. -/
theorem doWopen_commits (hd : (s.tile n).w.openDue (fld w 111 106) ≤ s.now) : doWopen n w pc s = s.commitOpen n pc (wopenReq w pc) :=
  (if_neg (not_not.2 h)).trans ((if_neg (by rw [hr, hsrc]; decide)).trans (if_neg (Nat.not_lt.2 hd)))

end

/-- An open commits: the window, then its result word, and issue goes on. -/
theorem State.commitOpen_of_powered (hw : Table.wf {} s.tiles = true) (hrun : (s.tile n).seq.st = .run) {r : WopenReq} {raddr p : Nat}
    (hd : r.dest = .tileWord raddr p) (h : (s.tile n).spm.refused raddr 4 = none) {v : WinUnit}
    (hv : v = (s.tile n).w.open_ r s.now (s.dieTb (tileDie n))) : s.commitOpen n pc r = (s.setTile n { s.tile n with
      w := v, spm := (s.tile n).spm.write raddr (bytesLE 4 (resultWord (v.window r.idx) r.idx 0)) false }).advance n pc := by
  subst hv
  unfold State.commitOpen
  rw [hd]
  dsimp only
  rw [State.updTile, State.windowResult_advanceOk (State.setTile_tiles_wf hw) (by rw [State.tile_setTile_same hw]; exact hrun)
    (by rw [State.tile_setTile_same hw]; exact h), State.tile_setTile_same hw, State.setTile_setTile hw]
  rfl

/-- CLOSE_NOW of an index that is not CLOSED starts its close. -/
theorem doCloseNow_starts (h : ((s.tile n).w.window (fld w 111 106)).st ≠ .closed) : doCloseNow n w pc s
    = (((s.setTile n { s.tile n with w := (s.tile n).w.closeNow (fld w 111 106) (some (fld w 105 101)) (.tileWord (fld w 61 38) pc) }).settleTile
        n).tilePoll n).advanceOk n pc :=
  congrArg (State.advanceOk · n pc) (if_neg h)

/-- CLOSE_NOW of a CLOSED index ends at once. -/
theorem doCloseNow_ends (h : ((s.tile n).w.window (fld w 111 106)).st = .closed) :
    doCloseNow n w pc s = (s.closeEnds n pc (fld w 111 106) (fld w 61 38) (fld w 105 101) stAlreadyClosed).advanceOk n pc :=
  congrArg (State.advanceOk · n pc) (if_pos h)

/-- CLOSE_QUIESCE of a QUIESCING index ends WIN_BUSY. -/
theorem doCloseQuiesce_busy (h : ((s.tile n).w.window (fld w 111 106)).st = .quiescing) :
    doCloseQuiesce n w pc s = (s.closeEnds n pc (fld w 111 106) (fld w 55 32) (fld w 105 101) stBusy).advanceOk n pc :=
  congrArg (State.advanceOk · n pc) ((if_neg (by rw [h]; decide)).trans (if_pos h))

section
variable (h : ((s.tile n).w.window (fld w 111 106)).st = .open)
include h

/-- CLOSE_QUIESCE of an OPEN index without a counter, or with a time of 0, ends BAD_PARAM. -/
theorem doCloseQuiesce_bad (hb : ((s.tile n).w.window (fld w 111 106)).cnt = 0xFF ∨ fld w 31 16 = 0) :
    doCloseQuiesce n w pc s = (s.closeEnds n pc (fld w 111 106) (fld w 55 32) (fld w 105 101) stBadParam).advanceOk n pc :=
  congrArg (State.advanceOk · n pc) ((if_neg (by rw [h]; decide)).trans ((if_neg (by rw [h]; decide)).trans (if_pos hb)))

/-- CLOSE_QUIESCE of an OPEN index with a counter starts its close. -/
theorem doCloseQuiesce_starts (hc : ((s.tile n).w.window (fld w 111 106)).cnt ≠ 0xFF) (ht : fld w 31 16 ≠ 0) : doCloseQuiesce n w pc s
    = (((s.setTile n { s.tile n with
        w := (s.tile n).w.quiesce (fld w 111 106) (fld w 95 64 + 2 ^ 32 * fld w 15 0) (s.now + 1000 * fld w 31 16) (some (fld w 105 101))
          (.tileWord (fld w 55 32) pc) }).settleTile n).tilePoll n).advanceOk n pc :=
  congrArg (State.advanceOk · n pc) ((if_neg (by rw [h]; decide)).trans ((if_neg (by rw [h]; decide)).trans (if_neg (not_or.2 ⟨hc, ht⟩))))

end

end

/-- What a command of a tile's program does, where its instruction issues. -/
theorem issueAs_next {k : InsnKind} {n : Nat} {w w' : Insn} {act : Insn → Nat → State → State} (hi : Issues k n w w' s)
    (h : act w' (s.tile n).seq.pc s = t) : (Host.Outcome.next (s.issueAs k n act) : Result) = .next t :=
  congrArg Host.Outcome.next ((State.issueAs_of_issues hi).trans h)

/-- Settles O22: each instruction issues, and what it does follows from the state of the window it names. -/
theorem tileWindowCommands : Obligations.TileWindowCommands := by
  unfold Obligations.TileWindowCommands
  rintro s n w w' x ⟨-, hw, -⟩ rfl
  refine ⟨fun hi hp => ⟨fun hc hr hsrc hd => ?_, fun hc hr hsrc hd => issueAs_next hi (doWopen_holds hc hr hsrc hd), fun hc => ?_, fun hc hr => ?_⟩,
    fun r hh => ?_,
    fun hi => ⟨fun hc => issueAs_next hi (doCloseNow_starts hc), fun hc => issueAs_next hi (doCloseNow_ends hc)⟩,
    fun hi => ⟨fun ho hc ht => issueAs_next hi (doCloseQuiesce_starts ho hc ht), fun hq => issueAs_next hi (doCloseQuiesce_busy hq),
      fun ho hb => issueAs_next hi (doCloseQuiesce_bad ho hb)⟩,
    fun hi hp => issueAs_next hi (State.windowResult_advanceOk hw hi.run hp),
    fun hi => issueAs_next hi rfl,
    fun hi hp => issueAs_next hi (State.tileWrite_advanceOk hw hi.run (by rw [bytesLE_length]; exact hp))⟩
  · exact issueAs_next hi ((doWopen_commits hc hr hsrc hd).trans (State.commitOpen_of_powered hw hi.run rfl hp rfl))
  · exact issueAs_next hi ((doWopen_busy hc).trans (State.windowResult_advanceOk hw hi.run hp))
  · exact issueAs_next hi ((doWopen_badRange hc hr).trans (State.windowResult_advanceOk hw hi.run hp))
  · simp only [exec_wopenHoldRelease, execWopenHoldRelease, hh]

/-! ### FENCE, END, WAITCNT, ILOAD and STEP -/

/-- A key whose value is changed by one of a run of changes, or was so before, has what each change establishes. -/
theorem Table.get_foldl_upd {α : Type} [DecidableEq α] {d : α} {P : α → Prop} {f : α → α} (hf : ∀ v, P (f v)) {i : Nat} :
    ∀ (l : List Nat) (t : Table α), Table.wf d t = true → P (t.get d i) ∨ i ∈ l → P ((l.foldl (fun t k => t.upd d k f) t).get d i)
  | [], _, _, h => h.resolve_right List.not_mem_nil
  | k :: l, t, ht, h => by
    refine Table.get_foldl_upd hf l (t.upd d k f) (Table.upd_wf ht k f) ?_
    by_cases hk : k = i
    · rw [hk, Table.get_upd_same ht]
      exact .inl (hf _)
    · rw [Table.get_upd_ne t hk]
      exact h.imp_right fun hm => (List.mem_cons.1 hm).resolve_left (Ne.symm hk)

/-- END leaves every level inactive. -/
theorem Looper.stop_level_inactive {l : Looper} (h : Table.wf {} l.lev = true) {L : Nat} (hL : L < 4) : (l.stop.level L).active = false :=
  Table.get_foldl_upd (P := fun v : LoopLevel => v.active = false) (fun _ => rfl) _ _ h (.inr (List.mem_range.2 hL))

/-- END whose units are complete and have not failed: no level stays active, and the sequencer is IDLE. -/
theorem State.endComplete_idles {n : Nat} (hh : (s.tile n).seq.hold = .endFence) (hdone : (s.tile n).fenceDone 15 = true)
    (herr : (s.tile n).tdma.err.v = false) : s.endComplete n = s.setTile n { s.tile n with
      loop := (s.tile n).loop.stop, seq := { (s.tile n).seq with st := .idle, hold := .none, pc := ((s.tile n).seq.holdPc + 1) % 2048 } } := by
  simp only [State.endComplete, hh, hdone, herr]
  rfl

section
variable {n pc : Nat}

section
variable {c v : Nat}

/-- A counter's error bit decides first. -/
theorem State.tryWait_error (h : ((s.tile n).w.ccnt c).err = true) : s.tryWait n pc c v = s.raise n exRemote 4 pc := if_pos h

variable (h : ((s.tile n).w.ccnt c).err = false)
include h

theorem State.tryWait_reached (hv : v ≤ ((s.tile n).w.ccnt c).val.toNat) : s.tryWait n pc c v = s.advance n pc :=
  (if_neg (by rw [h]; decide)).trans (if_pos hv)

theorem State.tryWait_holds (hv : ((s.tile n).w.ccnt c).val.toNat < v) : s.tryWait n pc c v = s.holdAt n pc (.waitcnt c v) :=
  (if_neg (by rw [h]; decide)).trans (if_neg (Nat.not_le.2 hv))

end

variable {w : Insn}

/-- Words outside the body of every active level. -/
theorem not_inBody {l : Looper} {dst k : Nat} (h : ∀ L, L < 4 → (l.level L).active = true → dst + k ≤ (l.level L).first ∨ (l.level L).last < dst) :
    ¬(List.range 4).any (fun L => (l.level L).active && decide ((l.level L).first < dst + k) && decide (dst ≤ (l.level L).last)) = true := by
  intro hany
  obtain ⟨L, hL, hin⟩ := List.any_eq_true.1 hany
  simp only [Bool.and_eq_true, decide_eq_true_eq] at hin
  obtain ⟨⟨ha, hf⟩, hl⟩ := hin
  have := h L (List.mem_range.1 hL) ha
  omega

/-- ILOAD into the body of an active level raises LOOP_FAULT. -/
theorem doIload_inBody (h : ∃ L, L < 4 ∧ ((s.tile n).loop.level L).active = true ∧ ((s.tile n).loop.level L).first < fld w 34 24 + (fld w 45 35 + 1)
    ∧ fld w 34 24 ≤ ((s.tile n).loop.level L).last) : doIload n w pc s = s.raise n exLoop 0 pc := by
  obtain ⟨L, hL, ha, hf, hl⟩ := h
  exact if_pos (List.any_eq_true.2 ⟨L, List.mem_range.2 hL, by simp [ha, hf, hl]⟩)

section
variable (h : ∀ L, L < 4 → ((s.tile n).loop.level L).active = true →
  fld w 34 24 + (fld w 45 35 + 1) ≤ ((s.tile n).loop.level L).first ∨ ((s.tile n).loop.level L).last < fld w 34 24)
include h

/-- ILOAD outside every active body, from banks that are on, holds issue. -/
theorem doIload_holds (hp : (s.tile n).spm.refused (fld w 23 0) (16 * (fld w 45 35 + 1)) = none) :
    doIload n w pc s = s.holdAt n pc (.iload (fld w 23 0) (fld w 34 24) (fld w 45 35 + 1)) := by
  unfold doIload
  simp only [hp]
  exact if_neg (not_inBody h)

/-- ILOAD outside every active body, from a bank that is off, is the bank fault. -/
theorem doIload_bankOff {f : Nat × Nat} (hf : (s.tile n).spm.refused (fld w 23 0) (16 * (fld w 45 35 + 1)) = some f) :
    doIload n w pc s = s.bankFault n f 0 pc := by
  unfold doIload
  simp only [hf]
  exact if_neg (not_inBody h)

end

end

/-- Settles O23: each instruction issues, and each event finds the hold it ends. -/
theorem fencesWaitsAndLoads : Obligations.FencesWaitsAndLoads := by
  unfold Obligations.FencesWaitsAndLoads
  rintro s n w w' x - rfl
  refine ⟨fun hi => issueAs_next hi rfl, fun m hh hdone => ⟨fun hok => ?_, fun hm herr => ?_⟩, fun hi => issueAs_next hi rfl,
    fun hh hdone herr hclosing => ?_, fun hwf L hL => Looper.stop_level_inactive hwf hL, fun hi => issueAs_next hi rfl, fun hh hdone => ?_,
    fun hi => ⟨fun he => issueAs_next hi (State.tryWait_error he), fun he hv => issueAs_next hi (State.tryWait_reached he hv),
      fun he hv => issueAs_next hi (State.tryWait_holds he hv)⟩,
    fun c v hh => ⟨fun he hv => ?_, fun he => ?_⟩,
    fun hi => ⟨fun hout => ⟨fun hp => ?_, fun f hf => ?_⟩, fun hin => issueAs_next hi (doIload_inBody hin)⟩,
    fun src dst k hh => ⟨fun hp => ?_, fun f hf => ?_⟩, fun src dst k spm q => ⟨rfl, rfl⟩⟩
  · simp only [exec_fenceComplete, execFenceComplete, hh, hdone, Bool.not_true]
    rw [if_neg Bool.false_ne_true, if_neg]
    obtain h | h := hok <;> simp [h]
  · simp only [exec_fenceComplete, execFenceComplete, hh, hdone, Bool.not_true]
    rw [if_neg Bool.false_ne_true, if_pos (by rw [hm, herr]; rfl)]
  · rw [exec_endComplete, execEndComplete, State.endComplete_idles hh hdone herr]
    exact congrArg Host.Outcome.next (if_neg fun h => absurd h.2.1 (by rw [State.setTile_part, hclosing]; decide))
  · simp only [exec_fenceComplete, execFenceComplete, hh, hdone]
    rfl
  · simp only [exec_waitcntComplete, execWaitcntComplete, hh, State.tryWait_reached he hv]
  · simp only [exec_waitcntComplete, execWaitcntComplete, hh, State.tryWait_error he]
  · exact issueAs_next hi (doIload_holds hout hp)
  · exact issueAs_next hi (doIload_bankOff hout hf)
  · simp only [exec_iloadComplete, execIloadComplete, hh, hp]
  · simp only [exec_iloadComplete, execIloadComplete, hh, hf]

/-! ### Remote operations of a tile -/

section
variable {n : Nat} {o : TdmaOp} {x : Tile} (hx : s.tile n = x)
include hx

/-- An operation whose local bytes are off is the bank fault (R210, R241). -/
theorem State.startOp_bankOff {f : Nat × Nat} (h : x.spm.refused o.local_.1 o.local_.2 = some f) :
    s.startOp n o = s.bankFault n f 3 o.pc.toNat := by
  unfold State.startOp
  rw [hx]
  simp only [h]

variable (hp : x.spm.refused o.local_.1 o.local_.2 = none)
include hp

/-- An operation to an address of no memory fails ADDR_FAULT (R56). -/
theorem State.startOp_badAddress (h : decodePga o.pga o.len (s.partStacks x.id.part.toNat).length = none) :
    s.startOp n o = s.setTile n (x.tdmaFail o rcAddrFault) := by
  unfold State.startOp
  rw [hx]
  simp only [hp, h]

variable {d : Dest} (hd : decodePga o.pga o.len (s.partStacks x.id.part.toNat).length = some d)
include hd

/-- An operation to another partition fails PART_FAULT (R83). -/
theorem State.startOp_otherPart (h : s.destInPart x.id.part.toNat d = false) :
    s.startOp n o = s.setTile n (x.tdmaFail o rcPartFault) := by
  unfold State.startOp
  rw [hx]
  simp only [hp, hd, h, Bool.not_false, if_true]

variable (hin : s.destInPart x.id.part.toNat d = true)
include hin

/-- An operation of no bytes is complete at once (R210). -/
theorem State.startOp_empty (h : o.len = 0) : s.startOp n o = s.countSource n o 0 := by
  unfold State.startOp
  rw [hx]
  simp only [hp, hd, hin, Bool.not_true, Bool.false_eq_true, if_false]
  rw [if_pos h]

variable (hlen : o.len ≠ 0)
include hlen

/-- A PUT or GET is outstanding, its segments going out as its destination cuts them (R49). -/
theorem State.startOp_segments (h : opAtomic o.op = false) : s.startOp n o = ((s.setTile n { x with tdma := { x.tdma with
    out := x.tdma.out ++ [⟨o, d.segments (s.partStacks x.id.part.toNat) o.len, [], x.tdma.slot⟩] } }).pump n).updTile n
      Tile.retire := by
  unfold State.startOp
  rw [hx]
  simp only [hp, hd, hin, hlen, h, Bool.not_true, Bool.false_eq_true, if_false]

/-- An atomic at a plain address is outstanding with its one segment. -/
theorem State.startOp_atomic {tg : Tgt} {off : Nat} (h : opAtomic o.op = true) (hdir : d = .direct tg off) :
    s.startOp n o = ((s.setTile n { x with tdma := { x.tdma with
      out := x.tdma.out ++ [⟨o, [(tg, off, 0, o.len)], [], x.tdma.slot⟩] } }).pump n).updTile n Tile.retire := by
  subst hdir
  unfold State.startOp
  rw [hx]
  simp only [hp, hd, hin, hlen, h, Bool.not_true, Bool.false_eq_true, if_false, if_true]

end

/-- The oldest queued operation starts while fewer than 64 are outstanding and no exception is taken. -/
theorem execTdmaOpStart_starts {n : TileNo} {o : TdmaOp} {rest : List TdmaOp} (hq : (s.tile n.val).tdma.q = o :: rest)
    (hexc : (s.tile n.val).seq.st ≠ .exc) (hroom : (s.tile n.val).tdma.out.length < 64) : exec (.tdmaOpStart n) s
      = .next ((s.setTile n.val { s.tile n.val with tdma := { (s.tile n.val).tdma with q := rest } }).startOp n.val o) := by
  simp only [exec_tdmaOpStart, execTdmaOpStart, hq]
  rw [if_neg (not_or.2 ⟨hexc, Nat.not_le.2 hroom⟩)]

/-- Settles O26: each instruction issues, and the start of a queued operation follows its checks. -/
theorem remoteOperations : Obligations.RemoteOperations := by
  unfold Obligations.RemoteOperations
  rintro s n w w' x ⟨-, hw, -⟩ rfl
  refine ⟨fun hi => issueAs_next hi rfl, fun hi => issueAs_next hi rfl, fun hi => issueAs_next hi rfl, fun hi => issueAs_next hi rfl,
    fun hi => issueAs_next hi rfl, fun hi => issueAs_next hi rfl, fun op pc => ⟨rfl, rfl, ?_⟩, fun h => by rw [h]; rfl,
    fun o rest hq => ⟨fun h => ?_, fun hexc hroom => ?_⟩⟩
  · cases op <;> rfl
  · simp only [exec_tdmaOpStart, execTdmaOpStart, hq]
    rw [if_pos h]
  · have hx := State.tile_setTile_same (t := n.val) (x := { s.tile n.val with tdma := { (s.tile n.val).tdma with q := rest } }) hw
    rw [execTdmaOpStart_starts hq hexc hroom]
    refine ⟨fun f hf => ?_, fun hp => ⟨fun hd => ?_, fun d hd => ⟨fun hin => ?_, fun hin h0 => ?_, fun hin hlen hop => ?_, fun tg off hin hlen hop hdir => ?_⟩⟩⟩
    · rw [State.startOp_bankOff hx hf]
    · rw [State.startOp_badAddress hx hp hd, State.setTile_setTile hw]
    · rw [State.startOp_otherPart hx hp hd hin, State.setTile_setTile hw]
    · rw [State.startOp_empty hx hp hd hin h0]
    · rw [State.startOp_segments hx hp hd hin hlen hop, State.setTile_setTile hw]
      rfl
    · rw [State.startOp_atomic hx hp hd hin hlen hop hdir, State.setTile_setTile hw]

/-! ### Answers to the segments of a tile and their retransmission -/

/-- What an OK answer to a PUT lands: nothing. -/
theorem State.land_put {n : Nat} {o : TdmaOp} {g : TdmaSeg} {a : Answer} (h : o.op = .put) : s.land n o g a = s := by
  unfold State.land
  rw [h]

/-- GET data land with their poison (R69). -/
theorem State.land_get {n : Nat} {o : TdmaOp} {g : TdmaSeg} {a : Answer} (h : o.op = .get) (hc : a.code = rcOk ∨ a.code = rcPoisoned) :
    s.land n o g a = s.tileWrite n 3 o.pc.toNat (o.laddr + g.pos) (a.data.take g.len) a.poison := by
  unfold State.land
  rw [h]
  exact if_pos (by simpa using hc)

/-- An applied atomic's old value lands (R78). -/
theorem State.land_atomic {n : Nat} {o : TdmaOp} {g : TdmaSeg} {a : Answer} (h : opAtomic o.op = true) (hc : a.code = rcOk) :
    s.land n o g a = s.tileWrite n 3 o.pc.toNat (o.laddr + 16) (bytesLE o.len a.old.toNat) false := by
  unfold State.land
  split
  next hop => simp [hop, opAtomic] at h
  next hop => simp [hop, opAtomic] at h
  next => exact if_pos hc

/-- An answer that is neither OK nor POISONED lands nothing. -/
theorem State.land_failed {n : Nat} {o : TdmaOp} {g : TdmaSeg} {a : Answer} (hc : a.code ≠ rcOk) (hp : a.code ≠ rcPoisoned) : s.land n o g a = s := by
  unfold State.land
  split
  next => rfl
  next => exact if_neg (by simp [hc, hp])
  next => exact if_neg hc

section
variable {n nd : Nat} {q : W16} {x : Tile} (hx : s.tile n = x)
include hx

theorem State.tdmaAnswer_of_none (h : x.tdma.find nd q = none) (a : Answer) : s.tdmaAnswer n nd q a = s := by
  unfold State.tdmaAnswer
  rw [hx, h]

variable {i : Nat} {o : TdmaOut} {g : TdmaSeg} (hg : x.tdma.find nd q = some (i, o, g))
include hg

/-- An OK answer lands its bytes and counts. -/
theorem State.tdmaAnswer_ok {a : Answer} (h : a.code = rcOk) : s.tdmaAnswer n nd q a
    = ((((s.setTile n { x with tdma := x.tdma.done i o g }).land n o.op g a).countSource n o.op g.len).pump n).updTile n Tile.retire := by
  unfold State.tdmaAnswer
  rw [hx, hg]
  dsimp only
  rw [if_pos h, State.updTile_of_tile hx]

/-- Any other answer fails its operation. -/
theorem State.tdmaAnswer_failed {a : Answer} (h : a.code ≠ rcOk) : s.tdmaAnswer n nd q a
    = ((((s.setTile n { x with tdma := x.tdma.done i o g }).land n o.op g a).updTile n (fun y => y.tdmaFail o.op a.code)).pump n).updTile n
      Tile.retire := by
  unfold State.tdmaAnswer
  rw [hx, hg]
  dsimp only
  rw [if_neg h, State.updTile_of_tile hx]

/-- After seven retransmissions an operation fails with TIMEOUT (R82). -/
theorem State.tdmaRetransmit_timeout (h : 7 ≤ g.retries) : s.tdmaRetransmit n nd q
    = (((s.till (g.issue + x.tdma.rtoNs)).setTile n (({ x with tdma := x.tdma.done i o g } : Tile).tdmaFail o.op rcTimeout)).pump n).updTile n
      Tile.retire := by
  unfold State.tdmaRetransmit
  dsimp only
  rw [hx, hg]
  exact if_pos h

variable (h : g.retries < 7)
include h

/-- An operation whose target the first router marks down fails with TARGET_DOWN (R295). -/
theorem State.tdmaRetransmit_down (hd : s.targetDown n nd = true) : s.tdmaRetransmit n nd q
    = (((s.till (g.issue + x.tdma.rtoNs)).setTile n (({ x with tdma := x.tdma.done i o g } : Tile).tdmaFail o.op rcTargetDown)).pump n).updTile n
      Tile.retire := by
  unfold State.tdmaRetransmit
  dsimp only
  rw [hx, hg]
  exact (if_neg (Nat.not_le.2 h)).trans (if_pos hd)

/-- Any other segment goes out again, with a fresh issue time, its bytes read now (R82, R210). -/
theorem State.tdmaRetransmit_again (hd : s.targetDown n nd = false) {now : Nat} (hnow : now = max s.now (g.issue + x.tdma.rtoNs)) :
    s.tdmaRetransmit n nd q = ((s.till (g.issue + x.tdma.rtoNs)).setTile n { x with
      spm := (x.request n now o.slot o.op { g with issue := now, retries := g.retries + 1 }).1
      tdma := { x.tdma with out := x.tdma.out.set i { o with sent := o.sent.map (fun h =>
        if h.node == nd && h.seq == q then { g with issue := now, retries := g.retries + 1 } else h) } } }).emit
      (.request g.tgt (x.request n now o.slot o.op { g with issue := now, retries := g.retries + 1 }).2) := by
  subst hnow
  unfold State.tdmaRetransmit
  dsimp only
  rw [hx, hg]
  exact (if_neg (Nat.not_le.2 h)).trans (if_neg (by rw [show (s.till _).targetDown n nd = s.targetDown n nd from rfl, hd]; decide))

end

theorem WinUnit.ccnt_setErr_same {u : WinUnit} {c : Nat} (h : Table.wf {} u.cc = true) : (u.setErr c).ccnt c = { u.ccnt c with err := true } := by
  rw [WinUnit.ccnt, WinUnit.setErr, Table.get_upd_same h]
  rfl

theorem WinUnit.ccnt_setErr_ne {u : WinUnit} {c d : Nat} (h : c ≠ d) : (u.setErr c).ccnt d = u.ccnt d := by
  rw [WinUnit.ccnt, WinUnit.setErr, Table.get_upd_ne _ h]
  rfl

/-- The counter of an operation that has failed, and no other, has its error bit set (R211). -/
theorem Tile.tdmaFail_ccnt {x : Tile} {o : TdmaOp} (h : o.scnten = true) (hw : Table.wf {} x.w.cc = true) (code : BitVec 4) :
    (x.tdmaFail o code).w.ccnt o.scnt = { x.w.ccnt o.scnt with err := true }
      ∧ ∀ c, c ≠ o.scnt → (x.tdmaFail o code).w.ccnt c = x.w.ccnt c := by
  have hset : (x.tdmaFail o code).w = x.w.setErr o.scnt := if_pos h
  rw [hset]
  exact ⟨WinUnit.ccnt_setErr_same hw, fun c hc => WinUnit.ccnt_setErr_ne hc.symm⟩

/-- Settles O27: what an answer lands, and how its operation goes on. -/
theorem remoteAnswers : Obligations.RemoteAnswers := by
  unfold Obligations.RemoteAnswers
  intro s n nd q a x hs hx
  obtain ⟨-, hw, -⟩ := hs
  have hans {u : State} (h : s.tdmaAnswer n.val nd.val q a = u) :
      exec (.tdmaResponse (.tile n) nd q a) s = .next (u.hostPoll (s.partOfSector (n.val / 160))) := by
    rw [← h]
    rfl
  refine ⟨fun hnone => hans (State.tdmaAnswer_of_none hx hnone a), fun i o g hg => ⟨fun hc hop => ?_, fun hc hop => ?_, fun hc hop => ?_,
    fun hc hop => ?_, fun hc hp => ?_, fun h hd => ?_, fun h hd => congrArg Host.Outcome.next (State.tdmaRetransmit_down hx hg h hd),
    fun h => congrArg Host.Outcome.next (State.tdmaRetransmit_timeout hx hg h)⟩,
    fun o code => ⟨rfl, fun h => if_neg (by rw [h]; decide), fun h hwf => Tile.tdmaFail_ccnt h hwf code⟩⟩
  · exact hans (by rw [State.tdmaAnswer_ok hx hg hc, State.land_put hop])
  · exact hans (by rw [State.tdmaAnswer_ok hx hg hc, State.land_get hop (.inl hc)])
  · exact hans (by rw [State.tdmaAnswer_ok hx hg hc, State.land_atomic hop hc])
  · exact hans (by rw [State.tdmaAnswer_failed hx hg (by rw [hc]; decide), State.land_get hop (.inr hc)])
  · exact hans (by rw [State.tdmaAnswer_failed hx hg hc, State.land_failed hc hp, State.updTile_setTile hw])
  · refine ⟨_, congrArg Host.Outcome.next (State.tdmaRetransmit_again hx hg h hd rfl), rfl, rfl, ?_⟩
    rw [State.emit_tile, State.tile_setTile_same (by exact hw)]
    exact ⟨rfl, rfl, rfl, rfl, fun m hm => State.emit_tile.trans (State.tile_setTile_ne hm.symm), rfl, rfl⟩

/-! ### Window commands of a stack node -/

section
variable {k : Nat} {x : Stack} (hx : s.stack k = x) {c : BitVec 512} {r : List (BitVec 512)} (hq : x.cmdq = c :: r)
include hx hq

/-- While a CLOSE_NOW is still at work the next command waits (R261). -/
theorem State.snRun_of_closeOpen (h : x.closeOpen = true) (op : Nat) (f : BitVec 512 → State → State) : s.snRun k op f = s := by
  unfold State.snRun
  rw [hx, hq]
  exact if_pos (.inr h)

/-- Otherwise the command at the head leaves the queue and runs (R261). -/
theorem State.snRun_of_head (h : x.closeOpen = false) (f : BitVec 512 → State → State) :
    s.snRun k (fld c 7 0) f = f c (s.setStack k { x with cmdq := r }) := by
  unfold State.snRun
  rw [hx, hq]
  exact (if_neg (by rw [h]; simp)).trans (by rw [State.updStack, hx])

end

section
variable {k : Nat} {x : Stack} (hx : s.stack k = x) {c : BitVec 512} {q : WopenReq}
  (hreq : q = { idx := fld c 103 96, rights := BitVec.ofNat 3 (fld c 106 104), skind := BitVec.ofNat 2 (fld c 108 107)
                srcval := BitVec.ofNat 16 (fld c 124 109), cnt := BitVec.ofNat 8 (fld c 132 125), cmode := BitVec.ofNat 2 (fld c 134 133)
                base64 := fld c 166 135, limit64 := fld c 198 167, dest := .none })
include hx

/-- WOPEN of an index that is not CLOSED ends WIN_BUSY. -/
theorem State.snWopen_busy (h : (x.w.window (fld c 103 96)).st ≠ .closed) : s.snWopen k c = s.snWinResult k c (fld c 103 96) stBusy := by
  unfold State.snWopen
  rw [hx]
  exact if_pos h

variable (h : (x.w.window (fld c 103 96)).st = .closed)
include hreq h

/-- WOPEN of a CLOSED index with a bad range or source ends BAD_PARAM. -/
theorem State.snWopen_bad (hb : q.rangeOk stackTop64 64 = false ∨ s.sourceOk (s.partOfSector k) q.skind q.srcval = false) :
    s.snWopen k c = s.snWinResult k c (fld c 103 96) stBadParam := by
  subst hreq
  unfold State.snWopen
  rw [hx]
  refine (if_neg (not_not.2 h)).trans (if_pos ?_)
  obtain hb | hb := hb <;> simp [hb]

/-- A good WOPEN opens the window, 4 µs after the index's last OPEN. -/
theorem State.snWopen_opens (hr : q.rangeOk stackTop64 64 = true) (hsrc : s.sourceOk (s.partOfSector k) q.skind q.srcval = true) :
    s.snWopen k c = ((s.till (x.w.openDue q.idx)).setStack k { x with
      w := x.w.open_ q (s.till (x.w.openDue q.idx)).now ((s.till (x.w.openDue q.idx)).dieTb (stackNode k)) }).snWinResult k c (fld c 103 96) stOk := by
  subst hreq
  unfold State.snWopen
  rw [hx]
  exact (if_neg (not_not.2 h)).trans (if_neg (by rw [hr, hsrc]; decide))

end

/-- Settles O36: the head leaves the queue, and what it does follows from the state of the window it names. -/
theorem stackWindowCommands : Obligations.StackWindowCommands := by
  unfold Obligations.StackWindowCommands
  rintro s k x c r q ⟨-, -, hw, -⟩ hx hq hreq
  have hy : (s.setStack k.val { x with cmdq := r }).stack k.val = { x with cmdq := r } := State.stack_setStack_same hw
  have hset (y : Stack) : (s.setStack k.val { x with cmdq := r }).setStack k.val y = s.setStack k.val y := State.setStack_setStack hw
  refine ⟨fun hopen => ?_, fun hfree => ?_⟩
  · have hwait := State.snRun_of_closeOpen hx hq hopen
    refine ⟨congrArg _ (hwait _ _), congrArg _ (hwait _ _), congrArg _ (hwait _ _), congrArg _ (hwait _ _), congrArg _ (hwait _ _), ?_⟩
    simp only [exec_snBadOpcode, execSnBadOpcode, hx, hq]
    rw [if_pos (.inr hopen)]
  · have hrun {op : Nat} {f : BitVec 512 → State → State} {u : State} (hop : fld c 7 0 = op) (hu : f c (s.setStack k.val { x with cmdq := r }) = u) :
        (Host.Outcome.next (s.snRun k.val op f) : Result) = .next u :=
      congrArg Host.Outcome.next (by rw [← hop, State.snRun_of_head hx hq hfree, hu])
    refine ⟨fun hop => ⟨fun hc hr hsrc => hrun hop ?_, fun hc => hrun hop (State.snWopen_busy hy hc), fun hc hb => hrun hop (State.snWopen_bad hy hreq hc hb)⟩,
      fun hop => ⟨fun hc => hrun hop ?_, fun hc => hrun hop ?_⟩,
      fun hop => ⟨fun hc => hrun hop ?_, fun hc => hrun hop ?_, fun hc hb => hrun hop ?_, fun hc hn ht => hrun hop ?_⟩,
      fun hop => hrun hop rfl, fun hop => hrun hop ?_, fun hop => ?_⟩
    · rw [State.snWopen_opens hy hreq hc hr hsrc]
      exact congrArg (State.snWinResult · k.val c (fld c 103 96) stOk) (congrArg (fun u : State => u.till _) (hset _))
    · simp only [hy]
      rw [if_pos hc]
    · simp only [hy, hset]
      rw [if_neg hc]
    · simp only [hy]
      rw [if_pos hc]
    · simp only [hy]
      rw [if_neg (by rw [hc]; decide), if_pos hc]
    · simp only [hy]
      rw [if_neg (by rw [hc]; decide), if_neg (by rw [hc]; decide), if_pos hb]
    · simp only [hy, hset]
      rw [if_neg (by rw [hc]; decide), if_neg (by rw [hc]; decide), if_neg (not_or.2 ⟨hn, ht⟩)]
      rfl
    · simp only [State.updStack, hy, hset]
    · simp only [exec_snBadOpcode, execSnBadOpcode, hx, hq]
      rw [if_neg (not_or.2 ⟨by omega, by rw [hfree]; decide⟩), State.updStack, hx]

end Sys2Proof.Machine

/-! PROOFS. The family of the number formats: the accumulator of the INT32 modes (O58). -/

namespace Sys2Proof.Machine

/-! ### A MAC step in an INT32 mode -/

/-- The model's reading of a word in two's complement is the library's. -/
theorem signedOf_toNat {w : Nat} (x : BitVec w) : signedOf w x.toNat = x.toInt := by
  have hx := x.isLt
  cases w with
  | zero => rw [BitVec.eq_nil x]; rfl
  | succ w =>
    rw [signedOf, Nat.mod_eq_of_lt hx, BitVec.toInt_eq_toNat_cond, Nat.add_sub_cancel]
    have hhalf : x.toNat < 2 ^ w ↔ 2 * x.toNat < 2 ^ (w + 1) := by omega
    simp only [hhalf, Int.ofNat_eq_natCast, Nat.cast_pow, Nat.cast_ofNat]

/-- The model's word of an integer is the library's. -/
theorem ofNat_intMod (w : Nat) (v : Int) : BitVec.ofNat w (intMod w v) = BitVec.ofInt w v := by
  apply BitVec.eq_of_toNat_eq
  have hlt : (v % (2 ^ w : Nat)).toNat < 2 ^ w := BitVec.toNat_ofInt v ▸ (BitVec.ofInt w v).isLt
  rw [BitVec.toNat_ofInt, BitVec.toNat_ofNat, intMod, ← Nat.mod_eq_of_lt hlt]
  norm_cast

/-- The products are added up exactly before anything is clamped. -/
theorem macStepInt_eq (acc : W32) (ps : List Int) : macStepInt acc ps
    = if acc.toInt + ps.sum < -2147483648 then (0x80000000, Flags.saturated ||| Flags.inexact)
      else if 2147483647 < acc.toInt + ps.sum then (0x7FFFFFFF, Flags.saturated ||| Flags.inexact)
      else (BitVec.ofInt 32 (acc.toInt + ps.sum), Flags.none) := by
  have hsum : ps.foldl (· + ·) acc.toInt = acc.toInt + ps.sum := by rw [List.sum_eq_foldl, ← List.foldl_assoc (op := fun u v : Int => u + v), add_zero]
  simp only [macStepInt, signedOf_toNat, hsum, ofNat_intMod]
  rfl

section
variable {acc : W32} {ps : List Int}

theorem macStepInt_inRange (hlo : -2 ^ 31 ≤ acc.toInt + ps.sum) (hhi : acc.toInt + ps.sum ≤ 2 ^ 31 - 1) :
    macStepInt acc ps = (BitVec.ofInt 32 (acc.toInt + ps.sum), Flags.none) :=
  (macStepInt_eq acc ps).trans ((if_neg (by omega)).trans (if_neg (by omega)))

theorem macStepInt_above (h : 2 ^ 31 - 1 < acc.toInt + ps.sum) : macStepInt acc ps = (0x7FFFFFFF, Flags.saturated ||| Flags.inexact) :=
  (macStepInt_eq acc ps).trans ((if_neg (by omega)).trans (if_pos (by omega)))

theorem macStepInt_below (h : acc.toInt + ps.sum < -2 ^ 31) : macStepInt acc ps = (0x80000000, Flags.saturated ||| Flags.inexact) :=
  (macStepInt_eq acc ps).trans (if_pos (by omega))

end

/-! ### A cell's steps in an INT32 mode -/

/-- Flags that were raised stay raised beside others. -/
theorem bitVec_or_and_self {w : Nat} (x y : BitVec w) : (x ||| y) &&& x = x := by
  ext i hi
  simpa using Or.inl

theorem Mode.isInt_iff {md : Mode} : md.isInt = true ↔ md = .i8 ∨ md = .t2i := by
  cases md <;> decide

section
variable {m : Mxa} {w : Insn} {x : MmaIn} {fw : Fmt} {k K r n j : Nat} {a : W32 × Flags}

/-- The first step is a cell's accumulation of one step, and the others follow it. -/
theorem Mxa.accInt_succ (c : Nat) : m.accInt w x fw k K r n j (c + 1) a = m.accInt w x fw k K r n (j + 1) c (m.accInt w x fw k K r n j 1 a) := rfl

/-- One step takes the accumulator that the products of its reduction indices give, and raises their flags beside those raised before (and
INVALID_T2 where a weight is the reserved code). -/
theorem Mxa.accInt_one {ps : List Int}
    (hps : ps = (((List.range k).map (fun q => k * j + q)).filter (fun i => decide (i < K))).map (fun i =>
      signedOf 8 (m.rowBuf.get (512 * r + 32 * fld w 63 59 + i)).toNat * (if fw = .t2 then t2Value (x.weight fw k i n) else signedOf 8 (x.weight fw k i n)))) :
    ∃ t2 : Flags, m.accInt w x fw k K r n j 1 a = ((macStepInt a.1 ps).1, a.2 ||| (macStepInt a.1 ps).2 ||| t2) := by
  subst hps
  simp only [Mxa.accInt, beq_iff_eq]
  exact ⟨_, rfl⟩

/-- A step reads the weight codes and not their scales. -/
theorem Mxa.accInt_scl (scl : List Byte) (c : Nat) : m.accInt w { x with scl := scl } fw k K r n j c a = m.accInt w x fw k K r n j c a := by
  induction c generalizing j a with
  | zero => rfl
  | succ c ih => exact ih

end

/-- Settles O58: a step clamps the exact sum, and a cell's accumulation is a chain of such steps over the weight codes. -/
theorem integerMacStep : Obligations.IntegerMacStep := by
  unfold Obligations.IntegerMacStep
  refine ⟨fun _ => Mode.isInt_iff, fun acc ps => ?_, fun m w x fw k K r n j a ps hps => ?_, fun m b w x fa fw md r n hmd => if_pos hmd⟩
  · simp only [signedOf_toNat]
    refine ⟨fun hlo hhi => ?_, fun h => ?_, fun h => ?_⟩
    · rw [macStepInt_inRange hlo hhi]
      exact ⟨BitVec.toInt_ofInt_eq_self (by decide) hlo (by omega), rfl⟩
    · rw [macStepInt_above h]
      exact ⟨by decide, rfl⟩
    · rw [macStepInt_below h]
      exact ⟨by decide, rfl⟩
  · obtain ⟨t2, hone⟩ := Mxa.accInt_one (a := a) hps
    refine ⟨by rw [hone], ?_, ?_, fun c => Mxa.accInt_succ c, fun c scl => Mxa.accInt_scl scl c⟩
    · rw [hone, BitVec.or_comm a.2, BitVec.or_assoc, bitVec_or_and_self]
    · rw [hone, BitVec.or_assoc, bitVec_or_and_self]

end Sys2Proof.Machine

/-! PROOFS. The family of the matrix array: its queue and the head (O28), the start and the end of an MMA (O29), drains and row buffers (O30), and
the scratchpad's bytes, where a drain of a transposed MX format escapes its ranges (O34). -/

namespace Sys2Proof.Machine

variable {s : State}

/-! ### Folds and tables -/

/-- A fold in which every step of an element with `P` writes one value at one place, and every other step leaves that place. -/
theorem foldl_write {σ β γ : Type} (g : σ → γ) {f : σ → β → σ} {P : β → Prop} [DecidablePred P] {v : γ} {l : List β}
    (hf : ∀ s, ∀ x ∈ l, g (f s x) = if P x then v else g s) (s : σ) : g (l.foldl f s) = if ∃ x ∈ l, P x then v else g s := by
  induction l generalizing s with
  | nil => simp
  | cons x l ih =>
    rw [List.foldl_cons, ih (fun s y hy => hf s y (List.mem_cons_of_mem _ hy)), hf s x List.mem_cons_self]
    by_cases hx : P x <;> simp [hx]

/-- A run of values from key `i` on, read at any key. -/
theorem Table.get_putList {α : Type} [DecidableEq α] {d : α} {j : Nat} :
    ∀ (vs : List α) {t : Table α} {i : Nat}, Table.wf d t = true →
      (Table.putList d t i vs).get d j = if i ≤ j ∧ j < i + vs.length then vs.getD (j - i) d else t.get d j
  | [], t, i, _ => by
    rw [if_neg (by simp)]
    rfl
  | v :: vs, t, i, h => by
    rw [Table.putList, Table.get_putList vs (Table.put_wf h _ _), List.length_cons]
    obtain hj | rfl | hj := Nat.lt_trichotomy j i
    · rw [if_neg (by omega), if_neg (by omega), Table.get_put_ne (by omega)]
    · rw [if_neg (by omega), if_pos (by omega), Table.get_put_same h, Nat.sub_self, List.getD_cons_zero]
    · obtain ⟨k, rfl⟩ := Nat.exists_eq_add_of_lt hj
      by_cases hk : i + k + 1 < i + (vs.length + 1)
      · rw [if_pos (by omega), if_pos (by omega), show i + k + 1 - (i + 1) = k by omega, show i + k + 1 - i = k + 1 by omega, List.getD_cons_succ]
      · rw [if_neg (by omega), if_neg (by omega), Table.get_put_ne (by omega)]

/-- A fold that puts each value of a list at its index is one run of values. -/
theorem Table.foldl_put_zipIdx {α β : Type} [DecidableEq β] {d : β} (f : α → β) :
    ∀ (vs : List α) (t : Table β) (i : Nat), (vs.zipIdx i).foldl (fun t v => t.put d v.2 (f v.1)) t = Table.putList d t i (vs.map f)
  | [], _, _ => rfl
  | v :: vs, t, i => Table.foldl_put_zipIdx f vs (t.put d i (f v)) (i + 1)

/-- A command that sets a tile changes no other. -/
theorem State.onlyTile_setTile {n : Nat} {x : Tile} : OnlyTile n s (s.setTile n x) :=
  ⟨rfl, fun _ hm => State.tile_setTile_ne hm.symm⟩

/-! ### Cells, banks and bits -/

@[simp] theorem UMem.get_set_same {w k : Nat} {m : UMem w} {v : BitVec w} : (m.set k v).get k = v := by
  rw [UMem.get, UMem.set, Table.get_put_val (Option.some_ne_none v)]

theorem UMem.get_set_ne {w j k : Nat} {m : UMem w} {v : BitVec w} (h : j ≠ k) : (m.set j v).get k = m.get k := by
  rw [UMem.get, UMem.set, Table.get_put_ne h]
  rfl

theorem bit_setBit {w i j : Nat} {x : BitVec w} (hi : i < w) : bit (setBit x i) j = (decide (i = j) || bit x j) := by
  unfold bit setBit
  rw [BitVec.getLsbD_or, BitVec.getLsbD_ofNat, Nat.testBit_two_pow, Bool.or_comm]
  by_cases h : i = j
  · subst h
    simp [hi]
  · simp [h]

variable {m : Mxa} {b c : Bool} {y : Bank}

@[simp] theorem Mxa.bank_setBank_same : (m.setBank b y).bank b = y := by cases b <;> rfl
theorem Mxa.bank_setBank_ne (h : b ≠ c) : (m.setBank c y).bank b = m.bank b := by
  obtain rfl := Bool.eq_not.2 h
  cases c <;> rfl
@[simp] theorem Mxa.setBank_q : (m.setBank b y).q = m.q := by cases b <;> rfl
@[simp] theorem Mxa.setBank_veins : (m.setBank b y).veins = m.veins := by cases b <;> rfl
@[simp] theorem Mxa.setBank_drains : (m.setBank b y).drains = m.drains := by cases b <;> rfl
@[simp] theorem Mxa.setBank_cflags : (m.setBank b y).cflags = m.cflags := by cases b <;> rfl

@[simp] theorem Mxa.clearBefore_q : (m.clearBefore b).q = m.q := by
  unfold Mxa.clearBefore
  split
  · exact Mxa.setBank_q
  · rfl
@[simp] theorem Mxa.clearBefore_veins : (m.clearBefore b).veins = m.veins := by
  unfold Mxa.clearBefore
  split
  · exact Mxa.setBank_veins
  · rfl

/-- Without a drain under way there is no clearing to take. -/
theorem Mxa.clearBefore_of_noDrain (h : m.drains = []) : m.clearBefore b = m := by
  unfold Mxa.clearBefore
  rw [h]
  rfl

/-! ### Ranges that are read -/

section
variable {n unit pc : Nat} {rs : List (Nat × Nat)} {f : State → State}

theorem State.guardRanges_powered (h : (s.tile n).spm.refusedAny rs = none) : s.guardRanges n unit pc rs f = f s := by
  unfold State.guardRanges
  rw [h]

theorem State.guardRanges_bankOff {a : Nat × Nat} (h : (s.tile n).spm.refusedAny rs = some a) :
    s.guardRanges n unit pc rs f = s.bankFault n a unit pc := by
  unfold State.guardRanges
  rw [h]

end

/-! ### The queue of the matrix array -/

/-- The unit that an instruction names (R193): 0 the sequencer, 1 MXA, 2 VXE, 3 TDMA, 4 synchronisation, 5 the looper. -/
def InsnKind.unit : InsnKind → Nat
  | .nop | .jmp | .pset | .fence | .iload | .endp | .wopen | .closeNow | .closeQuiesce | .wquery | .ccntSet | .ccntGet => 0
  | .mma | .mdrain | .rbload | .rbshift | .posld | .posgen | .mxset | .mfence => 1
  | .vfa | .via | .vcmp | .vsel | .vkop | .vcvt | .vtr | .vred | .vscan | .vxscan | .vcomb | .vld | .vst | .vdqpop | .viota | .vrot => 2
  | .ttgt | .put | .get | .fadd | .cswap | .for_ => 3
  | .waitcnt | .bar | .cwait | .flagor | .step => 4
  | .loop | .lstride | .lbind => 5

theorem unit_of_insnKind {w : Insn} {k : InsnKind} (h : insnKind w = some k) : fld w 127 125 = k.unit := by
  unfold insnKind at h
  generalize fld w 127 125 = u, fld w 124 120 = o at h
  split at h <;> cases h <;> rfl

/-- An instruction of the matrix array enters the end of its queue, the sequencer goes on, and the head runs (R195). -/
theorem doQueued_of_mxa {n pc : Nat} {w : Insn} {k : InsnKind} {x : Tile} (hx : s.tile n = x) (hk : k.unit = 1) (h : insnKind w = some k) :
    doQueued n w pc s
      = ((s.setTile n { x with mxa := { x.mxa with q := x.mxa.q ++ [⟨w, BitVec.ofNat 11 pc⟩] } }).advance n pc).mxaSettle n := by
  subst hx
  have not_remote {k' : InsnKind} (hk' : k'.unit = 3) : insnKind w ≠ some k' := fun he => by
    rw [h] at he
    cases he
    rw [hk] at hk'
    cases hk'
  unfold doQueued
  split
  case h_7 => exact if_pos ((unit_of_insnKind h).trans hk)
  all_goals exact absurd ‹_› (not_remote rfl)

section
variable {n : Nat} {x : Tile} (hx : s.tile n = x) {i : QInsn} {r : List QInsn} (hq : x.mxa.q = i :: r) (j : Nat)
include hx hq

/-- A head that breaks its bank's type raises ILLEGAL_INSN (R134). -/
theorem State.mxaHead_illegal (h : x.mxa.headIllegal i.w = true) : s.mxaHead n (j + 1) = s.raise n exIllegal 1 i.pc.toNat := by
  simp only [State.mxaHead, hx, hq, h, if_true]

variable (h : x.mxa.headIllegal i.w = false)
include h

theorem State.mxaHead_posgen (hk : insnKind i.w = some .posgen) : s.mxaHead n (j + 1)
    = (s.setTile n { x with mxa := ({ x.mxa with q := r } : Mxa).setPos (bit i.w 96) (posgenValues i.w) }).mxaHead n j := by
  simp only [State.mxaHead, hx, hq, h, hk, Mxa.pop, List.tail_cons, Bool.false_eq_true, if_false]

theorem State.mxaHead_mxset (hk : insnKind i.w = some .mxset) :
    s.mxaHead n (j + 1) = (s.setTile n { x with mxa := ({ x.mxa with q := r } : Mxa).mxset i.w }).mxaHead n j := by
  simp only [State.mxaHead, hx, hq, h, hk, Mxa.pop, List.tail_cons, Bool.false_eq_true, if_false]

/-- An MFENCE leaves once no drain is in progress (R149). -/
theorem State.mxaHead_mfence_leaves (hk : insnKind i.w = some .mfence) (hd : x.mxa.drains = []) :
    s.mxaHead n (j + 1) = (s.setTile n { x with mxa := { x.mxa with q := r } }).mxaHead n j := by
  simp only [State.mxaHead, hx, hq, h, hk, hd, Mxa.pop, List.tail_cons, List.isEmpty_nil, Bool.false_eq_true, if_false, if_true]

theorem State.mxaHead_mfence_waits (hk : insnKind i.w = some .mfence) (hd : x.mxa.drains ≠ []) : s.mxaHead n (j + 1) = s := by
  simp only [State.mxaHead, hx, hq, h, hk, List.isEmpty_eq_false_iff.2 hd, Bool.false_eq_true, if_false]

theorem State.mxaHead_posld (hk : insnKind i.w = some .posld) (hp : x.spm.refused (fld i.w 23 0) 256 = none) : s.mxaHead n (j + 1)
    = (s.setTile n { x with
        spm := (x.spm.readUse (fld i.w 23 0) 256).1
        mxa := ({ x.mxa with q := r } : Mxa).setPos (bit i.w 96)
          ((List.range 64).map (fun j => ofLE (((x.spm.readUse (fld i.w 23 0) 256).2.1.drop (4 * j)).take 3))) }).mxaHead n j := by
  simp only [State.mxaHead, hx, hq, h, hk, hp, Mxa.pop, List.tail_cons, Bool.false_eq_true, if_false]

end

/-- The positions that QPOS or KPOS holds after a list is set. -/
theorem Mxa.setPos_get {kp : Bool} {vs : List Nat} {i : Nat} (h : i < vs.length) :
    (if kp then (m.setPos kp vs).kpos else (m.setPos kp vs).qpos).get 0 i = BitVec.ofNat 24 (vs.getD i 0) := by
  have hget : (if kp then (m.setPos kp vs).kpos else (m.setPos kp vs).qpos) = Table.putList 0 [] 0 (vs.map (BitVec.ofNat 24)) := by
    rw [← Table.foldl_put_zipIdx]
    cases kp <;> rfl
  rw [hget, Table.get_putList _ Table.nil_wf, List.length_map, if_pos (by omega), Nat.sub_zero]
  simp [List.getD_eq_getElem?_getD, h]

theorem posgenValues_getD {w : Insn} {i : Nat} (h : i < 64) :
    (posgenValues w).getD i 0 = intMod 24 (Int.ofNat (fld w 87 64) + Int.ofNat i * signedOf 8 (fld w 95 88)) := by
  simp [posgenValues, List.getD_eq_getElem?_getD, h]

/-- Settles O28: each instruction issues into the queue, and the head runs by the equation of its kind. -/
theorem matrixArrayQueue : Obligations.MatrixArrayQueue := by
  unfold Obligations.MatrixArrayQueue
  intro s n w w' x hx
  have issues {k : InsnKind} (hi : Issues k n.val w w' s) :
      (Host.Outcome.next (s.issueAs k n.val (doQueued n.val)) : Result) = .next (doQueued n.val w' x.seq.pc s) :=
    issueAs_next hi (by rw [hx])
  have mxa : ∀ k ∈ [InsnKind.mma, .mdrain, .rbload, .rbshift, .posld, .posgen, .mxset, .mfence], k.unit = 1 := by decide
  refine ⟨fun k hk h => doQueued_of_mxa hx (mxa k hk) h, issues, issues, issues, issues, issues, issues, issues, issues, fun i r m hq => ⟨?_, fun h => ⟨?_, ?_, ?_, ?_, ?_⟩⟩,
    fun kp vs i => Mxa.setPos_get, fun i => posgenValues_getD⟩
  · exact State.mxaHead_illegal hx hq m
  · exact State.mxaHead_posgen hx hq m h
  · exact State.mxaHead_mxset hx hq m h
  · exact State.mxaHead_mfence_leaves hx hq m h
  · exact State.mxaHead_mfence_waits hx hq m h
  · exact State.mxaHead_posld hx hq m h

/-! ### The start of an MMA -/

/-- An MMA at the head of tile `x`'s queue: its formats and mode, and no drain to the vector engine holds its bank. -/
structure MmaReady (x : Tile) (i : QInsn) (r : List QInsn) (fa fw : Fmt) (md : Mode) : Prop where
  queue : x.mxa.q = i :: r
  kind : insnKind i.w = some .mma
  mode : mmaMode i.w = some (fa, fw, md)
  free : x.mxa.vxeDrainOn (bit i.w 103) = false

theorem execMmaVeinStart_of_ready {n : TileNo} {i : QInsn} {r : List QInsn} {fa fw : Fmt} {md : Mode}
    (h : MmaReady (s.tile n.val) i r fa fw md) : exec (.mmaVeinStart n) s = .next (s.mmaStart n.val i fa fw md) := by
  obtain ⟨hq, hk, hm, hf⟩ := h
  simp [execMmaVeinStart, hq, hk, hm, hf]

/-! ### What an MMA writes in its bank -/

section
variable {b0 : Bank} {w : Insn} {inp : MmaIn} {fa fw : Fmt} {md : Mode} {r c k n : Nat} {p : Bank × Table Byte}

/-- One fed cell of a row: its accumulation, its LIVE bit and its column's flags. -/
def Mxa.mmaCell (m : Mxa) (b0 : Bank) (w : Insn) (inp : MmaIn) (fa fw : Fmt) (md : Mode) (r : Nat) (p : Bank × Table Byte) (n : Nat) :
    Bank × Table Byte :=
  ({ p.1 with acc := p.1.acc.set (64 * r + n) (m.cell b0 w inp fa fw md r n).1, live := p.1.live.set r (setBit (p.1.live.get r) n) },
    p.2.upd 0 n (· ||| (m.cell b0 w inp fa fw md r n).2))

theorem Mxa.mmaRow_eq : m.mmaRow b0 w inp fa fw md p r = (m.fedCols w r).foldl (m.mmaCell b0 w inp fa fw md r) p := rfl

theorem Mxa.mem_fedCols : n ∈ m.fedCols w r ↔ n < 64 ∧ m.fed w r n = true := by
  rw [Mxa.fedCols, List.mem_filter, List.mem_range]

theorem Mxa.mmaCell_acc (hn : n < 64) (hc : c < 64) : (m.mmaCell b0 w inp fa fw md k p n).1.acc.get (64 * r + c)
    = if k = r ∧ n = c then (m.cell b0 w inp fa fw md r c).1 else p.1.acc.get (64 * r + c) := by
  by_cases h : k = r ∧ n = c
  · obtain ⟨rfl, rfl⟩ := h
    rw [if_pos ⟨rfl, rfl⟩]
    exact UMem.get_set_same
  · rw [if_neg h]
    exact UMem.get_set_ne (by omega)

theorem Mxa.mmaCell_live (hn : n < 64) : bit ((m.mmaCell b0 w inp fa fw md k p n).1.live.get r) c
    = if k = r ∧ n = c then true else bit (p.1.live.get r) c := by
  by_cases hk : k = r
  · subst hk
    have hset : (m.mmaCell b0 w inp fa fw md k p n).1.live.get k = setBit (p.1.live.get k) n := UMem.get_set_same
    rw [hset, bit_setBit hn]
    by_cases hc : n = c <;> simp [hc]
  · rw [if_neg (fun h => hk h.1)]
    exact congrArg (bit · c) (UMem.get_set_ne hk)

/-- The one fed column of row `k` that is column `c` of row `r`. -/
theorem Mxa.exists_fedCol (hc : c < 64) : (∃ n ∈ m.fedCols w k, k = r ∧ n = c) ↔ k = r ∧ m.fed w r c = true := by
  constructor
  · rintro ⟨n, hn, rfl, rfl⟩
    exact ⟨rfl, (Mxa.mem_fedCols.1 hn).2⟩
  · rintro ⟨rfl, hf⟩
    exact ⟨c, Mxa.mem_fedCols.2 ⟨hc, hf⟩, rfl, rfl⟩

theorem Mxa.exists_fedRow (hr : r < 64) : (∃ k ∈ List.range 64, k = r ∧ m.fed w r c = true) ↔ m.fed w r c = true :=
  ⟨fun ⟨_, _, _, hf⟩ => hf, fun hf => ⟨r, List.mem_range.2 hr, rfl, hf⟩⟩

/-- What every fed cell writes at place `g` of cell (r, c), and no other cell, an MMA writes there where the cell is fed. -/
theorem Mxa.foldl_mmaRow {γ : Type} (g : Bank × Table Byte → γ) {v : γ} (hr : r < 64) (hc : c < 64)
    (hg : ∀ k n p, n < 64 → g (m.mmaCell b0 w inp fa fw md k p n) = if k = r ∧ n = c then v else g p) :
    g ((List.range 64).foldl (m.mmaRow b0 w inp fa fw md) p) = if m.fed w r c = true then v else g p := by
  have hrow (p : Bank × Table Byte) (k : Nat) : g (m.mmaRow b0 w inp fa fw md p k) = if k = r ∧ m.fed w r c = true then v else g p := by
    rw [Mxa.mmaRow_eq, foldl_write g (fun p n hn => hg k n p (Mxa.mem_fedCols.1 hn).1)]
    simp only [Mxa.exists_fedCol hc]
  rw [foldl_write g fun p k _ => hrow p k]
  simp only [Mxa.exists_fedRow hr]

/-- Accumulators and LIVE bits after an MMA are those of its 64 rows in turn, from those of its bank. -/
theorem Mxa.mma_rows : ∃ cf, (m.mma w inp fa fw md).1.acc
      = ((List.range 64).foldl (m.mmaRow (m.bank (bit w 103)) w inp fa fw md) (m.bank (bit w 103), cf)).1.acc
    ∧ (m.mma w inp fa fw md).1.live
      = ((List.range 64).foldl (m.mmaRow (m.bank (bit w 103)) w inp fa fw md) (m.bank (bit w 103), cf)).1.live :=
  ⟨_, rfl, rfl⟩

/-- A fed cell holds its accumulation, every other cell what it held (R119). -/
theorem Mxa.mma_acc (hr : r < 64) (hc : c < 64) : (m.mma w inp fa fw md).1.acc.get (64 * r + c)
    = if m.fed w r c then (m.cell (m.bank (bit w 103)) w inp fa fw md r c).1 else (m.bank (bit w 103)).acc.get (64 * r + c) := by
  obtain ⟨cf, hacc, -⟩ := Mxa.mma_rows (m := m) (w := w) (inp := inp) (fa := fa) (fw := fw) (md := md)
  rw [hacc]
  exact Mxa.foldl_mmaRow (fun p => p.1.acc.get (64 * r + c)) hr hc fun _ _ _ hn => Mxa.mmaCell_acc hn hc

/-- A fed cell is LIVE, every other as it was (R132). -/
theorem Mxa.mma_live (hr : r < 64) (hc : c < 64) : bit ((m.mma w inp fa fw md).1.live.get r) c
    = (m.fed w r c || bit ((m.bank (bit w 103)).live.get r) c) := by
  obtain ⟨cf, -, hlive⟩ := Mxa.mma_rows (m := m) (w := w) (inp := inp) (fa := fa) (fw := fw) (md := md)
  rw [hlive, Mxa.foldl_mmaRow (fun p => bit (p.1.live.get r) c) hr hc fun _ _ _ hn => Mxa.mmaCell_live hn]
  cases m.fed w r c <;> rfl

/-- The initial value of a cell: what it holds, 0, or the bias of its column (R131). -/
theorem mmaInit_eq : mmaInit b0 w inp r c = if fld w 102 101 = 0 then b0.acc.get (64 * r + c)
    else if fld w 102 101 = 1 then 0 else BitVec.ofNat 32 (ofLE ((inp.bias.drop (4 * c)).take 4)) := by
  unfold mmaInit
  split
  next h => rw [if_pos h]
  next h => rw [if_neg (by rw [h]; decide), if_pos h]
  next h0 h1 => rw [if_neg h0, if_neg h1]

end

/-! ### The end of an MMA -/

/-- The oldest MMA of tile `x` ends: its flags are ORed and its bank is READY. -/
def Tile.mmaEnds (x : Tile) (q : MmaRun) (rest : List MmaRun) : Tile :=
  ({ x with mxa := { ((x.mxa.orFlags q.cflags).1.setBank q.bank { x.mxa.bank q.bank with st := .ready }) with veins := rest } } : Tile).raiseFlags
    (x.mxa.orFlags q.cflags).2

theorem execMmaComplete_last {n : TileNo} {x : Tile} {q : MmaRun} {rest : List MmaRun} (hx : s.tile n.val = x) (hv : x.mxa.veins = q :: rest)
    (hlast : rest.any (fun p => p.bank == q.bank) = false) (hst : (x.mxa.bank q.bank).st = .accum) :
    exec (.mmaComplete n) s = .next (s.setTile n.val (x.mmaEnds q rest)) := by
  have hb : (x.mxa.orFlags q.cflags).1.bank q.bank = x.mxa.bank q.bank := rfl
  rw [exec_mmaComplete, execMmaComplete, State.updTile_of_tile hx]
  simp only [hv, hlast, hb, hst, Bool.false_eq_true, if_false, if_true]
  rfl

section
variable {x : Tile} {q : MmaRun} {rest : List MmaRun}

theorem Tile.mmaEnds_bank_same : (x.mmaEnds q rest).mxa.bank q.bank = { x.mxa.bank q.bank with st := .ready } :=
  Mxa.bank_setBank_same (m := (x.mxa.orFlags q.cflags).1)

theorem Tile.mmaEnds_bank_not : (x.mmaEnds q rest).mxa.bank (!q.bank) = x.mxa.bank (!q.bank) :=
  Mxa.bank_setBank_ne (m := (x.mxa.orFlags q.cflags).1) (Bool.not_ne_self q.bank)

theorem Tile.mmaEnds_cflags : (x.mmaEnds q rest).mxa.cflags = (x.mxa.orFlags q.cflags).1.cflags := Mxa.setBank_cflags

end

/-- Settles O29: the start reads its ranges and writes cell by cell, and the end leaves its bank READY. -/
theorem matrixMultiply : Obligations.MatrixMultiply := by
  unfold Obligations.MatrixMultiply
  rintro s n x ⟨-, hw, -⟩ rfl
  refine ⟨fun i r fa fw md hq hk hm hf hp => ?_, fun i r fa fw md f hq hk hm hf hp => ?_, fun hd b => Mxa.clearBefore_of_noDrain hd,
    fun m w inp fa fw md r c hr hc => ⟨Mxa.mma_acc hr hc, Mxa.mma_live hr hc, mmaInit_eq, fun b => Mxa.bank_setBank_ne⟩,
    fun q rest hv hlast hst => ⟨_, execMmaComplete_last rfl hv hlast hst, State.onlyTile_setTile, ?_⟩⟩
  · rw [execMmaVeinStart_of_ready ⟨hq, hk, hm, hf⟩, State.mmaStart, State.guardRanges_powered hp]
    simp only [Mxa.pop, Mxa.veinsFree, Mxa.setBank_q, Mxa.setBank_veins, Mxa.clearBefore_q, Mxa.clearBefore_veins, hq, List.tail_cons]
  · rw [execMmaVeinStart_of_ready ⟨hq, hk, hm, hf⟩, State.mmaStart, State.guardRanges_bankOff hp]
  · rw [State.tile_setTile_same hw, Tile.mmaEnds_bank_same, Tile.mmaEnds_bank_not, Tile.mmaEnds_cflags]
    exact ⟨rfl, rfl, rfl, rfl, rfl, rfl, rfl, rfl, rfl, rfl, rfl⟩

/-! ### Drains -/

/-- A drain at the head of tile `x`'s queue, its bank READY, and, where it goes to the vector engine, no other drain delivers (R140). -/
structure DrainReady (x : Tile) (i : QInsn) (r : List QInsn) : Prop where
  queue : x.mxa.q = i :: r
  kind : insnKind i.w = some .mdrain
  ready : (x.mxa.bank (bit i.w 104)).st = .ready
  free : bit i.w 103 = true → x.mxa.vxeDrainOn false = false ∧ x.mxa.vxeDrainOn true = false

section
variable {x : Tile} {i : QInsn} {r : List QInsn}

theorem execDrainStart_of_ready {n : TileNo} (h : DrainReady (s.tile n.val) i r) : exec (.drainStart n) s = .next (s.drainBegin n.val i) := by
  obtain ⟨hq, hk, hst, hf⟩ := h
  have hfree : (!(bit i.w 103 && ((s.tile n.val).mxa.vxeDrainOn false || (s.tile n.val).mxa.vxeDrainOn true))) = true := by
    cases ht : bit i.w 103
    · rfl
    · simp [hf ht]
  simp only [exec_drainStart, execDrainStart, hq]
  rw [if_pos ⟨hk, hst, hfree⟩]

/-- A drain to the vector engine writes nothing in the scratchpad. -/
theorem Bank.drainRanges_toVxe {b : Bank} {w : Insn} (h : bit w 103 = true) : b.drainRanges w = [] := by
  unfold Bank.drainRanges
  split
  · rfl
  · rw [h]
    rfl

variable {n : Nat} (hx : s.tile n = x)
include hx

/-- A drain with a range off power is the bank fault (R153). -/
theorem State.drainBegin_bankOff {f : Nat × Nat} (hp : x.spm.refusedAny ((x.mxa.bank (bit i.w 104)).drainRanges i.w) = some f) :
    s.drainBegin n i = (s.setTile n { x with
      mxa := { x.mxa with drains := x.mxa.drains ++ [⟨i, 0, [], false, (x.mxa.bank (bit i.w 104)).drainRanges i.w⟩] } }).bankFault n f 1
        i.pc.toNat := by
  unfold State.drainBegin
  simp only [hx, hp]
  rw [State.updTile_of_tile hx]

variable (hq : x.mxa.q = i :: r)
include hq

/-- A drain to the scratchpad writes its lines, and its bank is draining (R140, R142). -/
theorem State.drainBegin_toSpm {d : Fmt} (ht : bit i.w 103 = false) (hd : Fmt.ofCode (fld i.w 111 108) = some d)
    (hp : x.spm.refusedAny ((x.mxa.bank (bit i.w 104)).drainRanges i.w) = none) : s.drainBegin n i = (s.setTile n { x with
      spm := (drainToSpm (x.mxa.bank (bit i.w 104)) i.w d x.srKey x.spm).1
      mxa := { (x.mxa.setBank (bit i.w 104) { x.mxa.bank (bit i.w 104) with st := .draining }) with
        q := r, drains := x.mxa.drains ++ [⟨i, 64, (drainToSpm (x.mxa.bank (bit i.w 104)) i.w d x.srKey x.spm).2, false,
          (x.mxa.bank (bit i.w 104)).drainRanges i.w⟩] } }).mxaSettle n := by
  unfold State.drainBegin
  simp only [hx, hp, ht, hd, hq, Mxa.pop, Mxa.setBank_q, Mxa.setBank_drains, List.tail_cons, Bool.false_eq_true, if_false]

/-- A drain to the vector engine sends its first rows, and its bank is draining (R145). -/
theorem State.drainBegin_toVxe (hw : Table.wf {} s.tiles = true) (ht : bit i.w 103 = true) : s.drainBegin n i = (s.setTile n (({ x with
      mxa := { (x.mxa.setBank (bit i.w 104) { x.mxa.bank (bit i.w 104) with st := .draining }) with
        q := r, drains := x.mxa.drains ++ [⟨i, 0, [], false, []⟩] } } : Tile).deliver 8)).mxaSettle n := by
  have hp : x.spm.refusedAny ((x.mxa.bank (bit i.w 104)).drainRanges i.w) = none := by
    rw [Bank.drainRanges_toVxe ht]
    rfl
  unfold State.drainBegin
  simp only [hx, hp, ht, hq, State.updTile_setTile hw, Mxa.pop, Mxa.setBank_q, Mxa.setBank_drains, List.tail_cons, if_true]

end

/-- What the delivery of rows leaves of a tile: all but the drain queue, which only grows and never past 8 rows, and the drains' progress. -/
structure Delivered (x y : Tile) : Prop where
  spm : y.spm = x.spm
  seq : y.seq = x.seq
  w : y.w = x.w
  bank0 : y.mxa.bank0 = x.mxa.bank0
  bank1 : y.mxa.bank1 = x.mxa.bank1
  room : x.vxe.dq.length ≤ 8 → y.vxe.dq.length ≤ 8
  rows : x.vxe.dq <+: y.vxe.dq

theorem Delivered.refl (x : Tile) : Delivered x x := ⟨rfl, rfl, rfl, rfl, rfl, id, List.prefix_rfl⟩

theorem Delivered.trans {x y z : Tile} (h : Delivered x y) (g : Delivered y z) : Delivered x z :=
  ⟨g.spm.trans h.spm, g.seq.trans h.seq, g.w.trans h.w, g.bank0.trans h.bank0, g.bank1.trans h.bank1, fun hx => g.room (h.room hx), h.rows.trans g.rows⟩

/-- One row goes out where the queue has room. -/
theorem Delivered.row {x : Tile} {d : DqRow} {l : List DrainRun} (h : x.vxe.dq.length < 8) :
    Delivered x { x with vxe := { x.vxe with dq := x.vxe.dq ++ [d] }, mxa := { x.mxa with drains := l } } :=
  ⟨rfl, rfl, rfl, rfl, rfl, fun _ => by rw [List.length_append]; exact h, List.prefix_append _ _⟩

theorem Tile.deliver_delivered (x : Tile) (k : Nat) : Delivered x (x.deliver k) := by
  induction k generalizing x with
  | zero => exact .refl x
  | succ k ih =>
    unfold Tile.deliver
    split
    · exact .refl x
    · split
      next => exact .refl x
      next h => exact (Delivered.row (Nat.lt_of_not_le h)).trans (ih _)

theorem execDrainEnd_of_find {n : TileNo} {x : Tile} {d : DrainRun} (hx : s.tile n.val = x)
    (h : x.mxa.drains.find? (fun d => decide (64 ≤ d.row)) = some d) : exec (.drainEnd n) s = .next ((s.setTile n.val (({ x with
      mxa := { ((x.mxa.orFlags d.cflags).1.setBank (bit d.insn.w 104) (((x.mxa.orFlags d.cflags).1.bank (bit d.insn.w 104)).drained (bit d.insn.w 101)
        d.cleared)) with drains := x.mxa.drains.erase d } } : Tile).raiseFlags (x.mxa.orFlags d.cflags).2)).mxaSettle n.val) := by
  have hdr : (x.mxa.orFlags d.cflags).1.drains = x.mxa.drains := rfl
  simp only [exec_drainEnd, execDrainEnd, hx, h, Mxa.setBank_drains, hdr]

/-- What a drain leaves of its bank at its end: without RETAIN the bank is IDLE and empty, with RETAIN it is READY as it was (R132, R133). -/
theorem Bank.drained_of_draining {b : Bank} (h : b.st = .draining) :
    b.drained false false = { b.clearDrained with st := .idle } ∧ b.drained true false = { b with st := .ready } := by
  unfold Bank.drained
  rw [h]
  exact ⟨rfl, rfl⟩

/-! ### The row buffers -/

section
variable {n : TileNo} {i : QInsn} {r : List QInsn} (hq : (s.tile n.val).mxa.q = i :: r)
include hq

theorem execRbloadComplete_of_head (hk : insnKind i.w = some .rbload) : exec (.rbloadComplete n) s
    = .next (s.guardRanges n.val 1 i.pc.toNat (rbloadRanges i.w) (fun s => (s.setTile n.val { s.tile n.val with
        mxa := (rbload i.w 0 (fld i.w 76 70) ((s.tile n.val).mxa, (s.tile n.val).spm)).1.pop.veinsFree
        spm := (rbload i.w 0 (fld i.w 76 70) ((s.tile n.val).mxa, (s.tile n.val).spm)).2 }).mxaSettle n.val)) := by
  simp only [exec_rbloadComplete, execRbloadComplete, hq]
  rw [if_neg (not_not.2 hk)]

theorem execRbshiftComplete_of_head (hk : insnKind i.w = some .rbshift) : exec (.rbshiftComplete n) s
    = .next (s.guardRanges n.val 1 i.pc.toNat [rbshiftTail i.w] (fun s => (s.setTile n.val { s.tile n.val with
        mxa := ((s.tile n.val).mxa.pop.shift i.w ((s.tile n.val).spm.readUse (rbshiftTail i.w).1 (rbshiftTail i.w).2).2.1
          ((s.tile n.val).spm.readUse (rbshiftTail i.w).1 (rbshiftTail i.w).2).2.2).veinsFree
        spm := ((s.tile n.val).spm.readUse (rbshiftTail i.w).1 (rbshiftTail i.w).2).1 }).mxaSettle n.val)) := by
  simp only [exec_rbshiftComplete, execRbshiftComplete, hq]
  rw [if_neg (not_not.2 hk)]

end

/-- Settles O30: the start of a drain by its target, the delivery of rows by induction on how many, its end, and the row buffers. -/
theorem drainsAndRowBuffers : Obligations.DrainsAndRowBuffers := by
  unfold Obligations.DrainsAndRowBuffers
  rintro s n x ⟨-, hw, -⟩ rfl
  refine ⟨fun i r d hq hk hst ht hd => ?_, fun i r hq hk hst ht hf0 hf1 => ?_, rfl, fun k => ?_, fun d hd => execDrainEnd_of_find rfl hd, fun b hb => ?_,
    fun i r hq hk hp => ?_, fun i r hq hk hp => ?_, fun i r f hq => ⟨fun hk hp => ?_, fun hk hp => ?_⟩⟩
  · rw [execDrainStart_of_ready ⟨hq, hk, hst, fun h => by rw [ht] at h; cases h⟩]
    exact ⟨fun hp => congrArg Host.Outcome.next (State.drainBegin_toSpm rfl hq ht hd hp), fun f hp => congrArg Host.Outcome.next (State.drainBegin_bankOff rfl hp)⟩
  · rw [execDrainStart_of_ready ⟨hq, hk, hst, fun _ => ⟨hf0, hf1⟩⟩, State.drainBegin_toVxe rfl hq hw ht]
  · obtain ⟨hspm, hseq, hwin, h0, h1, hroom, hrows⟩ := (s.tile n.val).deliver_delivered k
    exact ⟨hspm, hseq, hwin, h0, h1, hroom, hrows⟩
  · obtain ⟨hidle, hready⟩ := Bank.drained_of_draining hb
    rw [hidle]
    exact ⟨rfl, fun _ => rfl, rfl, rfl, hready⟩
  · rw [execRbloadComplete_of_head hq hk, State.guardRanges_powered hp]
    rfl
  · rw [execRbshiftComplete_of_head hq hk, State.guardRanges_powered hp, Mxa.pop, hq]
    rfl
  · rw [execRbloadComplete_of_head hq hk, State.guardRanges_bankOff hp]
  · rw [execRbshiftComplete_of_head hq hk, State.guardRanges_bankOff hp]

/-! ### The bytes that a drain writes -/

/-- A bank of which one cell, row 0 and column 1, is LIVE: it holds 1.0 in FP32. -/
def offDiagonalBank : Bank := { live := { cells := [(0, some 2)] }, acc := { cells := [(1, some 0x3F800000)] } }

/-- MDRAIN to MXFP8 in column order, its lines from offset 0 on, 64 bytes apart, its scale bytes from 0x1000 on. -/
def transposedMxDrain : Insn := BitVec.ofNat 128 (2 ^ 125 + 2 * 2 ^ 120 + 5 * 2 ^ 108 + 2 ^ 102 + 4 * 2 ^ 48 + 0x1000 * 2 ^ 24)

/-- The ranges of the drain name its one cell as element 0 of column 1. -/
theorem drainRanges_transposedMxDrain : offDiagonalBank.drainRanges transposedMxDrain = [(64, 1), (0x1002, 1)] := by decide +kernel

/-- Its lines are rows nevertheless: the scale byte of row 0, 2^-8, goes to 0x1000. -/
theorem drainToSpm_transposedMxDrain :
    (drainToSpm offDiagonalBank transposedMxDrain .mxE4m3 ⟨0, 0, 0⟩ {}).1.data.get 0 0x1000 = 119 := by decide +kernel

/-- Refutes O34: its clause on drains takes every word, and TRANSPOSE with an MX format, which R142 excludes and `insnLegal` refuses, writes row by
row what `Bank.drainRanges` counts column by column. In an empty scratchpad the scale byte of row 0 is written outside the ranges. -/
theorem not_scratchpadBytes : ¬ Obligations.ScratchpadBytes := by
  unfold Obligations.ScratchpadBytes
  intro h
  obtain ⟨-, -, -, -, -, hdrain, -⟩ := h {} rfl rfl
  have houtside : ∀ rg ∈ offDiagonalBank.drainRanges transposedMxDrain, 0x1000 < rg.1 ∨ rg.1 + rg.2 ≤ 0x1000 := by
    rw [drainRanges_transposedMxDrain]
    decide
  have hkept := hdrain offDiagonalBank transposedMxDrain .mxE4m3 ⟨0, 0, 0⟩ 0x1000 rfl (by decide) (by decide) houtside
  rw [drainToSpm_transposedMxDrain] at hkept
  exact absurd hkept (by decide)

end Sys2Proof.Machine

/-! PROOFS. The family of the vector engine: its queue (O31), the start, the waits and the completion of its head (O32), and what an instruction
writes in lanes and masks (O33). -/

namespace Sys2Proof.Machine

variable {s : State}

/-! ### Lanes and masks that an instruction writes -/

/-- A run of writes whose writes of key `j` all write `v`, read at `j`. -/
theorem Table.get_foldl_put {α β : Type} [DecidableEq α] {d v : α} {key : β → Nat} {val : β → α} {j : Nat} :
    ∀ {l : List β} {t : Table α}, Table.wf d t = true → (∀ b ∈ l, key b = j → val b = v) →
      (l.foldl (fun t b => t.put d (key b) (val b)) t).get d j = if ∃ b ∈ l, key b = j then v else t.get d j
  | [], _, _, _ => by simp
  | b :: l, t, ht, hl => by
    rw [List.foldl_cons, Table.get_foldl_put (Table.put_wf ht _ _) fun c hc => hl c (List.mem_cons_of_mem b hc)]
    by_cases hb : key b = j
    · subst hb
      simp [hl b List.mem_cons_self rfl, Table.get_put_same ht]
    · simp [hb, Table.get_put_ne hb]

section
variable {x : Vxe} {w : Insn} {r l i k : Nat} {res : VRes}

theorem Vxe.mem_active : l ∈ x.active w ↔ l < 64 ∧ bit (x.mask (vKm w)) l = true := by
  rw [Vxe.active, List.mem_filter, List.mem_range]

theorem Vxe.laneWise_vw {srcV : List Nat} {f : Nat → Nat × Flags} :
    (x.laneWise w srcV f).vw = (x.active w).map fun l => (vVD w, l, BitVec.ofNat 32 (f l).1) := List.map_map

theorem Vxe.vsel_vw : (x.vsel w).vw
    = (x.active w).map fun l => (vVD w, l, BitVec.ofNat 32 (if bit (x.mask (fld w 17 15)) l then (x.lane (vVA w) l).toNat else x.srcB w l)) :=
  Vxe.laneWise_vw (srcV := vSrcs w true false)

theorem Vxe.vrot_vw : (x.vrot w).vw = (x.active w).map fun l => (vVD w, l, x.lane (vVA w) ((l + vImm w % 64) % 64)) := by
  simp only [Vxe.vrot, Vxe.laneWise_vw, BitVec.ofNat_toNat, BitVec.setWidth_eq]

/-- An instruction that writes `g l` in lane `l` of VD, for each active lane: those lanes hold it, every other lane and register is as it was (R167). -/
theorem Vxe.lane_apply_active {g : Nat → W32} (hv : Table.wf 0 x.v = true) (hl : l < 64) (hvw : res.vw = (x.active w).map fun l => (vVD w, l, g l)) :
    (x.apply res).lane r l = if r = vVD w ∧ bit (x.mask (vKm w)) l then g l else x.lane r l := by
  have key_eq : ∀ {l'}, l' < 64 → 64 * vVD w + l' = 64 * r + l → vVD w = r ∧ l' = l := by omega
  have hwritten : (∃ l' ∈ x.active w, 64 * vVD w + l' = 64 * r + l) ↔ r = vVD w ∧ bit (x.mask (vKm w)) l = true := by
    constructor
    · rintro ⟨l', hl', he⟩
      obtain ⟨hlt, hb⟩ := Vxe.mem_active.1 hl'
      obtain ⟨rfl, rfl⟩ := key_eq hlt he
      exact ⟨rfl, hb⟩
    · rintro ⟨rfl, hb⟩
      exact ⟨l, Vxe.mem_active.2 ⟨hl, hb⟩, rfl⟩
  have hfold : (x.apply res).v = (x.active w).foldl (fun t l => t.put 0 (64 * vVD w + l) (g l)) x.v := by
    simp only [Vxe.apply, hvw, List.foldl_map]
  rw [Vxe.lane, hfold, Table.get_foldl_put hv fun l' hl' he => congrArg g (key_eq (Vxe.mem_active.1 hl').1 he).2]
  simp only [hwritten]
  rfl

/-- An instruction that writes no lane leaves every vector register. -/
theorem Vxe.lane_apply_of_vw_nil (hvw : res.vw = []) : (x.apply res).lane r l = x.lane r l := by
  simp only [Vxe.lane, Vxe.apply, hvw, List.foldl_nil]

theorem Vxe.mask_apply_of_kw_nil (hkw : res.kw = []) : (x.apply res).mask k = x.mask k := by
  simp only [Vxe.mask, Vxe.apply, hkw, List.foldl_nil]

/-- An instruction that writes mask register `i` leaves every other, and k0 in any case (R156). -/
theorem Vxe.mask_apply_ne {m : W64} (hkw : res.kw = [(i, m)]) (hk : k ≠ i ∨ k = 0) : (x.apply res).mask k = x.mask k := by
  obtain hk | rfl := hk
  · simp only [Vxe.mask, Vxe.apply, hkw, List.foldl_cons, List.foldl_nil]
    split
    · rfl
    · split
      · rfl
      · exact Table.get_put_ne hk.symm _
  · rfl

theorem Vxe.mask_apply_same {m : W64} (hw : Table.wf 0 x.k = true) (hkw : res.kw = [(i, m)]) (hi : i ≠ 0) : (x.apply res).mask i = m := by
  simp only [Vxe.mask, Vxe.apply, hkw, List.foldl_cons, List.foldl_nil, if_neg hi]
  exact Table.get_put_same hw i m

theorem Vxe.vkop_kw : ∃ m, (x.vkop w).kw = [(vKD w, m)] := by
  unfold Vxe.vkop
  dsimp only
  split <;> exact ⟨_, rfl⟩

theorem Vxe.vkop_and_kw (h : vSub w = 0) : (x.vkop w).kw = [(vKD w, x.mask (fld w 7 5) &&& x.mask (fld w 12 10))] := by
  simp only [Vxe.vkop, h]

end

/-- The word of a list has the bits that the list names. -/
theorem bit_maskOf {ls : List Nat} {l : Nat} (h : ∀ i ∈ ls, i < 64) : bit (maskOf ls) l = decide (l ∈ ls) := by
  have hset (m : W64) (i : Nat) (hi : i ∈ ls) : bit (setBit m i) l = if i = l then true else bit m l := by
    rw [bit_setBit (h i hi)]
    by_cases he : i = l <;> simp [he]
  have hzero : bit (0#64) l = false := BitVec.getLsbD_zero
  rw [maskOf, foldl_write (bit · l) hset]
  simp [hzero]

/-- A compare's bit of an inactive lane is 0 (R165). -/
theorem Vxe.bit_maskOf_active {x : Vxe} {w : Insn} {l : Nat} (hl : l < 64) (p : Nat → Bool) :
    bit (maskOf ((x.active w).filter p)) l = (bit (x.mask (vKm w)) l && p l) := by
  rw [bit_maskOf fun i hi => (Vxe.mem_active.1 (List.mem_filter.1 hi).1).1]
  simp [List.mem_filter, Vxe.mem_active, hl]

/-! ### Integer sub-operations of VIA -/

section
variable (a b : W32)

theorem viaLane_add : BitVec.ofNat 32 (viaLane 0 a.toNat b.toNat).1 = a + b := by
  apply BitVec.eq_of_toNat_eq
  simp [viaLane]

theorem viaLane_sub : BitVec.ofNat 32 (viaLane 1 a.toNat b.toNat).1 = a - b := by
  apply BitVec.eq_of_toInt_eq
  rw [viaLane, ofNat_intMod, signedOf_toNat, signedOf_toNat, BitVec.toInt_ofInt, BitVec.toInt_sub]

theorem viaLane_mul : BitVec.ofNat 32 (viaLane 2 a.toNat b.toNat).1 = a * b := by
  apply BitVec.eq_of_toNat_eq
  simp [viaLane]

theorem viaLane_and : BitVec.ofNat 32 (viaLane 9 a.toNat b.toNat).1 = a &&& b := by
  simp only [viaLane, BitVec.ofNat_and, BitVec.ofNat_toNat, BitVec.setWidth_eq]

theorem viaLane_or : BitVec.ofNat 32 (viaLane 10 a.toNat b.toNat).1 = a ||| b := by
  simp only [viaLane, BitVec.ofNat_or, BitVec.ofNat_toNat, BitVec.setWidth_eq]

theorem viaLane_xor : BitVec.ofNat 32 (viaLane 11 a.toNat b.toNat).1 = a ^^^ b := by
  simp only [viaLane, BitVec.ofNat_xor, BitVec.ofNat_toNat, BitVec.setWidth_eq]

theorem viaLane_shr : BitVec.ofNat 32 (viaLane 14 a.toNat b.toNat).1 = a >>> (b.toNat % 32) := by
  have hlt : a.toNat / 2 ^ (b.toNat % 32) < 2 ^ 32 := (Nat.div_le_self _ _).trans_lt a.isLt
  apply BitVec.eq_of_toNat_eq
  rw [viaLane, BitVec.toNat_ofNat, Nat.mod_eq_of_lt hlt, BitVec.toNat_ushiftRight, Nat.shiftRight_eq_div_pow]

theorem viaLane_sar : BitVec.ofNat 32 (viaLane 15 a.toNat b.toNat).1 = a.sshiftRight (b.toNat % 32) := by
  rw [viaLane, ofNat_intMod, signedOf_toNat, ← Int.shiftRight_eq_div_pow]
  rfl

end

/-- Settles O33: each instruction's result lists its lanes or its mask, and a result is written by what it lists. -/
theorem vectorResults : Obligations.VectorResults := by
  unfold Obligations.VectorResults
  intro v w r l hv hk _ hl
  obtain ⟨m, hvkop⟩ := v.vkop_kw (w := w)
  refine ⟨Vxe.lane_apply_active hv hl Vxe.laneWise_vw, Vxe.lane_apply_active hv hl Vxe.vsel_vw, Vxe.lane_apply_active hv hl Vxe.laneWise_vw,
    Vxe.lane_apply_active hv hl Vxe.vrot_vw, fun k => ⟨Vxe.mask_apply_of_kw_nil rfl, Vxe.mask_apply_of_kw_nil rfl⟩, Vxe.lane_apply_of_vw_nil rfl,
    fun k h => ⟨Vxe.mask_apply_ne rfl h, Vxe.mask_apply_ne hvkop h⟩, fun h => ?_, fun h h0 => Vxe.mask_apply_same hk (Vxe.vkop_and_kw h0) h, rfl,
    fun a b => ⟨viaLane_add a b, viaLane_sub a b, viaLane_mul a b, viaLane_and a b, viaLane_or a b, viaLane_xor a b, viaLane_shr a b, viaLane_sar a b⟩⟩
  rw [Vxe.mask_apply_same hk rfl h, Vxe.bit_maskOf_active hl]

/-! ### The queue of the vector engine -/

/-- An instruction that is not one of the TDMA's enters the end of its unit's queue (R195). -/
theorem doQueued_of_unit_ne_tdma {n pc : Nat} {w : Insn} {k : InsnKind} (hk : k.unit ≠ 3) (h : insnKind w = some k) : doQueued n w pc s
    = if k.unit = 1 then ((s.updTile n fun x => { x with mxa := { x.mxa with q := x.mxa.q ++ [⟨w, BitVec.ofNat 11 pc⟩] } }).advance n pc).mxaSettle n
      else (s.updTile n fun x => { x with vxe := { x.vxe with q := x.vxe.q ++ [⟨w, BitVec.ofNat 11 pc⟩] } }).advance n pc := by
  rw [← unit_of_insnKind h, doQueued, h]
  split
  case h_7 => rfl
  all_goals
    cases ‹some k = _›
    exact absurd rfl hk

/-- An instruction of the vector engine enters the end of its queue, and the sequencer goes on (R184, R195). -/
theorem doQueued_of_vxe {n pc : Nat} {w : Insn} {k : InsnKind} {x : Tile} (hx : s.tile n = x) (hk : k.unit = 2) (h : insnKind w = some k) :
    doQueued n w pc s = (s.setTile n { x with vxe := { x.vxe with q := x.vxe.q ++ [⟨w, BitVec.ofNat 11 pc⟩] } }).advance n pc := by
  rw [doQueued_of_unit_ne_tdma (by rw [hk]; decide) h, if_neg (by rw [hk]; decide), State.updTile_of_tile hx]

/-- Settles O31: each instruction issues into the queue of unit 2. -/
theorem vectorQueue : Obligations.VectorQueue := by
  unfold Obligations.VectorQueue
  intro s n w w' x hx
  have issues {k : InsnKind} (hi : Issues k n.val w w' s) :
      (Host.Outcome.next (s.issueAs k n.val (doQueued n.val)) : Result) = .next (doQueued n.val w' x.seq.pc s) :=
    issueAs_next hi (by rw [hx])
  have vxe : ∀ k ∈ [InsnKind.vfa, .via, .vcmp, .vsel, .vkop, .vcvt, .vtr, .vred, .vscan, .vxscan, .vcomb, .vld, .vst, .vdqpop, .viota, .vrot],
    k.unit = 2 := by decide
  exact ⟨fun k hk => doQueued_of_vxe hx (vxe k hk), issues, issues, issues, issues, issues, issues, issues, issues, issues, issues, issues, issues,
    issues, issues, issues, issues⟩

/-! ### The head of the queue -/

section
variable {n : Nat} {x : Tile} {i : QInsn} {r : List QInsn} {v : Vxe}

theorem execVxeInsnStart_of_head {n : TileNo} {k : InsnKind} (hx : s.tile n.val = x) (hq : x.vxe.q = i :: r) (hwait : x.vxe.wait = .none)
    (hk : insnKind i.w = some k) : exec (.vxeInsnStart n) s = .next (s.vxeStart n.val i k) := by
  simp only [exec_vxeInsnStart, execVxeInsnStart, hx, hq, hwait, hk]

/-- A VXSCAN one of whose channels does not serve the tile raises SYNC_MISMATCH (R181). -/
theorem State.vxscanStart_offDomain (h : (vxChannels i.w).any (fun c => !s.onChannel n c) = true) :
    s.vxscanStart n i = s.raise n exMismatch 2 i.pc.toNat := by
  simp only [State.vxscanStart, h, if_true]

/-- A VXSCAN of one channel arrives there and waits (R181, R206). -/
theorem State.vxscanStart_arrives {c : Nat} (hw : Table.wf {} s.tiles = true) (hx : s.tile n = x) (hc : vxChannels i.w = [c])
    (hon : s.onChannel n c = true) (harm : s.armed n c = false) : s.vxscanStart n i = s.setTile n { x with
      arr := x.arr.put none c (some (x.vxe.scanArrival i.w 0)), vxe := { x.vxe with wait := .prefix_ i }, dlv := x.dlv.put .none c .none } := by
  simp only [State.vxscanStart, hc, List.any_cons, List.any_nil, hon, harm, hx, List.zipIdx_cons, List.zipIdx_nil, List.foldl_cons, List.foldl_nil,
    State.arrive, State.updTile_of_tile hx, State.updTile_setTile hw, Bool.not_true, Bool.or_false, Bool.false_eq_true, if_false]

section
variable {k : InsnKind} (hx : s.tile n = x) (hv : v = { x.vxe with q := x.vxe.q.tail })
include hx hv

/-- An instruction on registers alone writes its results, and its flags wait (R184, R185). -/
theorem State.vxeStart_registers (hk : k ∉ [InsnKind.vld, .vst, .vdqpop, .vxscan]) :
    s.vxeStart n i k = s.setTile n { x with vxe := v.ran i (v.compute k i.w x.srKey) [] } := by
  subst hx hv
  unfold State.vxeStart
  dsimp only
  split
  case h_5 => rfl
  all_goals exact absurd (by decide) hk

/-- A load or a store with an active lane's word past the scratchpad's top is illegal (R168). -/
theorem State.vxeStart_past (hk : k = .vld ∨ k = .vst) (hpast : (v.memRanges i.w).any (fun p => decide (spmTop < p.1 + 4)) = true) :
    s.vxeStart n i k = s.raise n exIllegal 2 i.pc.toNat := by
  subst hx hv
  obtain rfl | rfl := hk <;> exact if_pos hpast

section
variable (hin : (v.memRanges i.w).any (fun p => decide (spmTop < p.1 + 4)) = false)
include hin

/-- A load or a store in a bank off power has started, and is the bank fault (R188, R241). -/
theorem State.vxeStart_bankOff {f : Nat × Nat} (hk : k = .vld ∨ k = .vst) (hp : x.spm.refusedAny (v.memRanges i.w) = some f) : s.vxeStart n i k
    = (s.setTile n { x with vxe := { v with run := v.run ++ [⟨i, v.memRanges i.w, []⟩] } }).bankFault n f 2 i.pc.toNat := by
  subst hx hv
  obtain rfl | rfl := hk <;> simp only [State.vxeStart, hin, hp, State.vxeRefused, State.updTile, Bool.false_eq_true, if_false]

theorem State.vxeStart_vld (hp : x.spm.refusedAny (v.memRanges i.w) = none) : s.vxeStart n i .vld
    = s.setTile n { x with spm := (v.vld i.w x.spm).1, vxe := v.ran i (v.vld i.w x.spm).2 (v.memRanges i.w) } := by
  subst hx hv
  simp only [State.vxeStart, hin, hp, Bool.false_eq_true, if_false]

theorem State.vxeStart_vst (hp : x.spm.refusedAny (v.memRanges i.w) = none) : s.vxeStart n i .vst
    = s.setTile n { x with spm := v.vst i.w x.spm, vxe := v.ran i {} (v.memRanges i.w) } := by
  subst hx hv
  simp only [State.vxeStart, hin, hp, Bool.false_eq_true, if_false]

end

/-- A VDQPOP takes the oldest row of the drain queue (R170). -/
theorem State.vxeStart_vdqpop_takes {d : DqRow} {rest : List DqRow} (hdq : x.vxe.dq = d :: rest) : s.vxeStart n i .vdqpop
    = s.setTile n { x with vxe := ({ v with dq := rest } : Vxe).ran i (vdqpop i.w d) [] } := by
  subst hx hv
  simp only [State.vxeStart, hdq]

/-- On an empty queue it waits while a drain to the vector engine is coming (R170). -/
theorem State.vxeStart_vdqpop_waits (hdq : x.vxe.dq = []) (hcoming : x.mxa.vxeDrainComing = true) :
    s.vxeStart n i .vdqpop = s.setTile n { x with vxe := { v with wait := .row i } } := by
  subst hx hv
  simp only [State.vxeStart, hdq, hcoming, if_true]

/-- Otherwise it raises DQ_EMPTY (R170). -/
theorem State.vxeStart_vdqpop_empty (hdq : x.vxe.dq = []) (hcoming : x.mxa.vxeDrainComing = false) :
    s.vxeStart n i .vdqpop = s.raise n exDqEmpty 2 i.pc.toNat := by
  subst hx hv
  simp only [State.vxeStart, hdq, hcoming, Bool.false_eq_true, if_false]

theorem State.vxeStart_vxscan : s.vxeStart n i .vxscan = (s.setTile n { x with vxe := v }).vxscanStart n i := by
  subst hx hv
  rfl

end

/-! ### Waits and completion -/

section
variable {n : TileNo} (hx : s.tile n.val = x)
include hx

/-- A waiting VDQPOP takes the row that has come (R170). -/
theorem execVdqpopRowArrival_takes {d : DqRow} {rest : List DqRow} (hwait : x.vxe.wait = .row i) (hdq : x.vxe.dq = d :: rest) :
    exec (.vdqpopRowArrival n) s
      = .next (s.setTile n.val { x with vxe := ({ x.vxe with dq := rest, wait := .none } : Vxe).ran i (vdqpop i.w d) [] }) := by
  rw [exec_vdqpopRowArrival, execVdqpopRowArrival, State.updTile_of_tile hx]
  simp only [hwait, hdq]

/-- Once every channel has delivered, a VXSCAN writes its prefixes (R182). -/
theorem execVxscanPrefixArrival_writes (hwait : x.vxe.wait = .prefix_ i)
    (hall : ((vxChannels i.w).map (fun c => x.dlv.get .none c)).contains .none = false)
    (hgood : ((vxChannels i.w).map (fun c => x.dlv.get .none c)).contains .mismatch = false) :
    exec (.vxscanPrefixArrival n) s = .next (s.setTile n.val { x with
      vxe := ({ x.vxe with wait := .none } : Vxe).ran i (x.vxe.prefixes i.w ((vxChannels i.w).map (fun c => x.dlv.get .none c))) []
      dlv := (vxChannels i.w).foldl (fun d c => d.put .none c .none) x.dlv }) := by
  simp only [exec_vxscanPrefixArrival, execVxscanPrefixArrival, hx, hwait, hall, hgood, Bool.false_eq_true, if_false]

/-- A channel whose members differ raises SYNC_MISMATCH (R183). -/
theorem execVxscanPrefixArrival_mismatch (hwait : x.vxe.wait = .prefix_ i)
    (hbad : ((vxChannels i.w).map (fun c => x.dlv.get .none c)).contains .mismatch = true) : exec (.vxscanPrefixArrival n) s
      = .next ((s.setTile n.val { x with vxe := { x.vxe with wait := .none } }).raise n.val exMismatch 2 i.pc.toNat) := by
  simp only [exec_vxscanPrefixArrival, execVxscanPrefixArrival, hx, hwait, hbad, if_true]

/-- A completing instruction leaves those running and ORs its flags into the lane, tile and step flags (R185). -/
theorem execVxeInsnComplete_ors {m : Nat} {q : VxeRun} (hrun : x.vxe.run[m]? = some q) : exec (.vxeInsnComplete n m) s
    = .next (s.setTile n.val (({ x with vxe := { (x.vxe.orFlags q.lflags).1 with run := x.vxe.run.eraseIdx m } } : Tile).raiseFlags
        (x.vxe.orFlags q.lflags).2)) := by
  rw [exec_vxeInsnComplete, execVxeInsnComplete, State.updTile_of_tile hx]
  simp only [hrun]

end

end

/-- Settles O32: the head starts by the equation of its kind, and each wait and each completion by its own. -/
theorem vectorExecution : Obligations.VectorExecution := by
  unfold Obligations.VectorExecution
  rintro s n x i r v ⟨-, hw, -⟩ hx hv
  refine ⟨fun k hq hwait hk => ?_, fun d rest hwait hdq => execVdqpopRowArrival_takes hx hwait hdq,
    fun hwait => ⟨execVxscanPrefixArrival_writes hx hwait, execVxscanPrefixArrival_mismatch hx hwait⟩, fun m q => execVxeInsnComplete_ors hx⟩
  have hpop : v = { x.vxe with q := x.vxe.q.tail } := by rw [hv, hq, List.tail_cons]
  have onRegisters : ∀ k ∈ [InsnKind.vfa, .via, .vcmp, .vsel, .vkop, .vcvt, .vtr, .vred, .vscan, .vcomb, .viota, .vrot],
    k ∉ [InsnKind.vld, .vst, .vdqpop, .vxscan] := by decide
  rw [execVxeInsnStart_of_head hx hq hwait hk]
  refine ⟨fun h => ?_, fun h hin hp => ?_, fun h hin hp => ?_, fun f h hin hp => ?_, fun h hpast => ?_, fun d rest h hdq => ?_, fun h hdq hc => ?_,
    fun h hdq hc => ?_, fun h hoff => ?_, fun c h hc hon harm => ?_⟩
  · rw [State.vxeStart_registers hx hpop (onRegisters k h)]
  · rw [h, State.vxeStart_vld hx hpop hin hp]
  · rw [h, State.vxeStart_vst hx hpop hin hp]
  · rw [State.vxeStart_bankOff hx hpop hin h hp]
  · rw [State.vxeStart_past hx hpop h hpast]
  · rw [h, State.vxeStart_vdqpop_takes hx hpop hdq]
  · rw [h, State.vxeStart_vdqpop_waits hx hpop hdq hc]
  · rw [h, State.vxeStart_vdqpop_empty hx hpop hdq hc]
  · rw [h, State.vxeStart_vxscan hx hpop]
    exact congrArg Host.Outcome.next (State.vxscanStart_offDomain hoff)
  · rw [h, State.vxeStart_vxscan hx hpop, State.vxscanStart_arrives (State.setTile_tiles_wf hw) (State.tile_setTile_same hw) hc hon harm,
      State.setTile_setTile hw]

end Sys2Proof.Machine

/-! PROOFS. The family of the tile sequencer: issue (O18), loops and jumps (O20), FIRST and LAST (O59), predicates, strides and bindings (O21),
barriers (O24), the command queue (O25), the synchronisation network (O40), and the state after reset (O56). -/

namespace Sys2Proof.Machine

variable {s : State}

/-! ### The word that the looper adjusts -/

/-- Every adjustable slot lies below bit 96. -/
theorem InsnKind.slot_below {k : InsnKind} {w : Insn} {i hi lo : Nat} (h : k.slot w i = some (hi, lo)) : lo ≤ hi ∧ hi < 96 := by
  unfold InsnKind.slot at h
  split at h <;> split at h <;> grind

/-- A slot's adjustment leaves the word from bit 96 up. -/
theorem adjustSlot_above {l : Looper} {k : InsnKind} {i : Nat} {g : BitVec 4} {o : Option Insn} {w' : Insn} (h : adjustSlot l k i g o = some w') :
    ∃ w, o = some w ∧ ∀ hi lo, 96 ≤ lo → fld w' hi lo = fld w hi lo := by
  cases o with
  | none => cases h
  | some w =>
    refine ⟨w, rfl, fun hi lo hlo => ?_⟩
    unfold adjustSlot at h
    dsimp only at h
    split at h
    · cases h; rfl
    · split at h
      · cases h
      · next hi' lo' hslot =>
        obtain ⟨hle, hlt⟩ := InsnKind.slot_below hslot
        cases h
        exact fld_setFld_above w hle (by omega) (by omega)

/-- A word without a binding is not adjusted (R202). -/
theorem adjustWord_unbound {l : Looper} {k : InsnKind} {w : Insn} (h : fld w 114 112 = 0) : adjustWord l k w = some w := if_pos h

/-- The looper's adjustment leaves the word from bit 96 up. -/
theorem adjustWord_above {l : Looper} {k : InsnKind} {w w' : Insn} (h : adjustWord l k w = some w') {hi lo : Nat} (hlo : 96 ≤ lo) :
    fld w' hi lo = fld w hi lo := by
  unfold adjustWord at h
  dsimp only at h
  split at h
  · cases h; rfl
  · obtain ⟨w2, h2, hw2⟩ := adjustSlot_above h
    obtain ⟨w1, h1, hw1⟩ := adjustSlot_above h2
    obtain ⟨w0, h0, hw0⟩ := adjustSlot_above h1
    cases h0
    rw [hw2 hi lo hlo, hw1 hi lo hlo, hw0 hi lo hlo]

/-- The looper's adjustment leaves the instruction what it is. -/
theorem insnKind_of_adjustWord {l : Looper} {k : InsnKind} {w w' : Insn} (h : adjustWord l k w = some w') : insnKind w' = insnKind w := by
  unfold insnKind
  rw [adjustWord_above h (show 96 ≤ 125 by decide), adjustWord_above h (show 96 ≤ 120 by decide)]

/-! ### What issue does where an instruction does not issue -/

section
variable {k : InsnKind} {n : Nat} {w : Insn} {act : Insn → Nat → State → State} (hrun : (s.tile n).seq.st = .run)
  (hgood : (List.range 4).any (fun i => (s.tile n).seq.imemBad.contains (4 * (s.tile n).seq.pc + i)) = false)
  (hw : (s.tile n).seq.imem.get 0 (s.tile n).seq.pc = w)
include hrun hgood hw

/-- A word of no instruction raises ILLEGAL_INSN (R193). -/
theorem State.issueAs_of_noKind (hk : insnKind w = none) : s.issueAs k n act = s.raise n exIllegal (fld w 127 125) (s.tile n).seq.pc := by
  unfold State.issueAs
  dsimp only
  rw [hgood, hw, hk]
  simp [hrun]

omit hrun in
/-- A word of another instruction is another row's (log 2). -/
theorem State.issueAs_of_otherKind {k' : InsnKind} (hk : insnKind w = some k') (hne : k' ≠ k) : s.issueAs k n act = s := by
  unfold State.issueAs
  dsimp only
  rw [hgood, hw, hk]
  simp [hne]

/-- A word of the row's own kind: its predicate, its adjustment, its legality and its hold decide in turn (R193–R195, R202). -/
theorem State.issueAs_of_kind (hk : insnKind w = some k) : s.issueAs k n act =
    if (s.tile n).executes w then
      (adjustWord (s.tile n).loop k w).elim (s.raise n exIllegal (fld w 127 125) (s.tile n).seq.pc) fun w' =>
        if insnLegal k w' then ((s.tile n).blocked k w').elim (act w' (s.tile n).seq.pc s) fun u => s.holdAt n (s.tile n).seq.pc (.queue u)
        else s.raise n exIllegal (fld w 127 125) (s.tile n).seq.pc
    else if insnLegal k w then s.advance n (s.tile n).seq.pc else s.raise n exIllegal (fld w 127 125) (s.tile n).seq.pc := by
  unfold State.issueAs
  dsimp only
  rw [hgood, hw, hk]
  cases he : (s.tile n).executes w with
  | false => simp [hrun]
  | true =>
    cases adjustWord (s.tile n).loop k w with
    | none => simp [hrun]
    | some w' => cases hl : insnLegal k w' <;> cases hb : (s.tile n).blocked k w' <;> simp [hrun, hl, hb]

end

/-- The row of an instruction of a tile issues it there. -/
theorem exec_of_issueRow {c : Instr} {n : TileNo} {k : InsnKind} (h : issueRow c = some (n, k)) (s : State) :
    ∃ act, exec c s = .next (s.issueAs k n.val act) := by
  cases c <;> cases h <;> exact ⟨_, rfl⟩

/-- One of an instruction's four pieces is marked as bad. -/
theorem any_piece_bad {l : List Nat} {b : Nat} : (List.range 4).any (fun i => l.contains (b + i)) = true ↔ ∃ i, i < 4 ∧ b + i ∈ l := by
  simp only [List.any_eq_true, List.mem_range, List.contains_iff_mem]

/-- Settles O18: the branches of issue, one lemma each, at the row's own kind. -/
theorem issueOfAnInstruction : Obligations.IssueOfAnInstruction := by
  unfold Obligations.IssueOfAnInstruction
  refine ⟨fun l k w w' => ⟨adjustWord_unbound, fun h => ⟨insnKind_of_adjustWord h, adjustWord_above h (by decide)⟩⟩, ?_⟩
  intro s c n k w hrow hw
  obtain ⟨act, hexec⟩ := exec_of_issueRow hrow s
  have next {t : State} (h : s.issueAs k n.val act = t) : exec c s = .next t := hexec.trans (congrArg Host.Outcome.next h)
  refine ⟨fun hidle => next (State.issueAs_of_idle hidle), fun hrun => ⟨fun hbad => ?_, fun hgood => ?_⟩⟩
  · exact next (hw ▸ State.issueAs_of_bad hrun (any_piece_bad.2 hbad))
  · replace hgood := Bool.eq_false_iff.2 fun hbad =>
      have ⟨i, hi, hm⟩ := any_piece_bad.1 hbad
      hgood i hi hm
    have hkind := fun hk => State.issueAs_of_kind (k := k) (act := act) hrun hgood hw hk
    exact ⟨fun hk => next (State.issueAs_of_noKind hrun hgood hw hk),
      fun k' hk hne => next (State.issueAs_of_otherKind hgood hw hk hne),
      fun hk he hl => next ((hkind hk).trans (by simp [he, hl])),
      fun hk he hl => next ((hkind hk).trans (by simp [he, hl])),
      fun hk he ha => next ((hkind hk).trans (by simp [he, ha])),
      fun w' hk he ha hl => next ((hkind hk).trans (by simp [he, ha, hl])),
      fun w' u hk he ha hl hb => next ((hkind hk).trans (by simp [he, ha, hl, hb]))⟩

/-! ### Where issue goes on -/

section
variable {l : Looper} {i L k : Nat}

/-- Where no active body ends, the next index follows. -/
theorem Looper.resolve_none (h : l.endsAt i = none) : l.resolve i k = (l, i + 1) := by
  cases k with
  | zero => rfl
  | succ k => simp only [Looper.resolve, h]

variable (h : l.endsAt i = some L)
include h

/-- A body with iterations left starts again (R199). -/
theorem Looper.resolve_again (hi : (l.level L).i + 1 < (l.level L).n) :
    l.resolve i (k + 1) = ({ l with lev := l.lev.put {} L { l.level L with i := (l.level L).i + 1 } }, (l.level L).first) := by
  simp only [Looper.resolve, h]
  exact if_pos hi

/-- A body without iterations left becomes inactive, and the next body's end there decides (R199). -/
theorem Looper.resolve_done (hi : (l.level L).n ≤ (l.level L).i + 1) :
    l.resolve i (k + 1) = Looper.resolve { l with lev := l.lev.put {} L { l.level L with active := false } } i k := by
  simp only [Looper.resolve, h]
  exact if_neg (Nat.not_lt.2 hi)

end

section
variable {n pc i : Nat} {l : Looper} (h : (s.tile n).loop.resolve pc 5 = (l, i))
include h

/-- Issue goes on at an index of IMEM. -/
theorem State.advance_of_resolve (hi : i ≤ 2047) : s.advance n pc =
    s.setTile n { s.tile n with loop := l, seq := { (s.tile n).seq with st := .run, hold := .none, pc := i } } := by
  unfold State.advance
  dsimp only
  rw [h]
  exact if_neg (Nat.not_lt.2 hi)

/-- Issue that goes past IMEM raises LOOP_FAULT (R212). -/
theorem State.advance_of_resolve_past (hi : 2047 < i) :
    s.advance n pc = (s.setTile n { s.tile n with loop := l }).raise n exLoop ((s.tile n).unitAt pc) pc := by
  unfold State.advance
  dsimp only
  rw [h]
  exact if_pos hi

end

/-! ### LOOP and JMP -/

section
variable {n pc : Nat} {w : Insn}

/-- LOOP of an active level, past IMEM, or past an enclosing body raises LOOP_FAULT (R200). -/
theorem doLoop_raises (h : ((s.tile n).loop.level (fld w 111 110)).active = true ∨ 2047 < pc + fld w 10 0
      ∨ ∃ M, M < 4 ∧ ((s.tile n).loop.level M).active = true ∧ ((s.tile n).loop.level M).last < pc + fld w 10 0) :
    doLoop n w pc s = s.raise n exLoop 5 pc := by
  refine if_pos ?_
  simp only [Bool.or_eq_true, Bool.and_eq_true, decide_eq_true_eq, List.any_eq_true, List.mem_range, or_assoc]
  exact h

section
variable (hoff : ((s.tile n).loop.level (fld w 111 110)).active = false) (hend : pc + fld w 10 0 ≤ 2047)
  (hin : ∀ M, M < 4 → ((s.tile n).loop.level M).active = true → pc + fld w 10 0 ≤ ((s.tile n).loop.level M).last)
include hoff hend hin

/-- The checks of LOOP pass. -/
theorem loop_checks_pass : ¬((((s.tile n).loop.level (fld w 111 110)).active || decide (2047 < pc + fld w 10 0)
      || (List.range 4).any (fun M => ((s.tile n).loop.level M).active && decide (((s.tile n).loop.level M).last < pc + fld w 10 0))) = true) := by
  simp only [Bool.or_eq_true, Bool.and_eq_true, decide_eq_true_eq, List.any_eq_true, List.mem_range, hoff]
  rintro ((h | h) | ⟨M, hM, ha, hlast⟩)
  · cases h
  · exact Nat.not_lt.2 hend h
  · exact Nat.not_lt.2 (hin M hM ha) hlast

/-- LOOP starts its level at iteration 0 over the body that follows (R199). -/
theorem doLoop_starts (hn : fld w 87 64 ≠ 0) : doLoop n w pc s = s.setTile n { s.tile n with
    loop := { (s.tile n).loop with
      lev := (s.tile n).loop.lev.put {} (fld w 111 110) ⟨true, fld w 87 64, 0, pc + 1, pc + fld w 10 0, (s.tile n).loop.started + 1⟩
      started := (s.tile n).loop.started + 1 }
    seq := { (s.tile n).seq with pc := pc + 1 } } :=
  (if_neg (loop_checks_pass hoff hend hin)).trans (if_neg hn)

/-- LOOP of count 0 skips its body (R199). -/
theorem doLoop_skips (hn : fld w 87 64 = 0) (hlast : pc + fld w 10 0 < 2047) (hnone : (s.tile n).loop.endsAt (pc + fld w 10 0) = none) :
    doLoop n w pc s = s.setTile n { s.tile n with seq := { (s.tile n).seq with pc := pc + fld w 10 0 + 1 } } := by
  refine (if_neg (loop_checks_pass hoff hend hin)).trans ((if_pos hn).trans ?_)
  rw [Looper.resolve_none hnone]
  exact if_neg (by dsimp only; omega)

end

/-- JMP out of an active body, or from a body's last instruction, raises LOOP_FAULT (R200). -/
theorem doJmp_raises (h : ∃ L, L < 4 ∧ ((s.tile n).loop.level L).active = true ∧ (fld w 10 0 < ((s.tile n).loop.level L).first
      ∨ ((s.tile n).loop.level L).last < fld w 10 0 ∨ ((s.tile n).loop.level L).last = pc)) : doJmp n w pc s = s.raise n exLoop 0 pc := by
  refine if_pos ?_
  simp only [Bool.or_eq_true, Bool.and_eq_true, decide_eq_true_eq, List.any_eq_true, List.mem_range, or_assoc]
  exact h

/-- JMP inside every active body holds for its two cycles (R203). -/
theorem doJmp_holds (h : ∀ L, L < 4 → ((s.tile n).loop.level L).active = true → ((s.tile n).loop.level L).first ≤ fld w 10 0
      ∧ fld w 10 0 ≤ ((s.tile n).loop.level L).last ∧ ((s.tile n).loop.level L).last ≠ pc) :
    doJmp n w pc s = s.setTile n { s.tile n with seq := { (s.tile n).seq with st := .hold, hold := .jmp, holdPc := pc, pc := fld w 10 0 } } := by
  refine if_neg fun hbad => ?_
  simp only [Bool.or_eq_true, Bool.and_eq_true, decide_eq_true_eq, List.any_eq_true, List.mem_range] at hbad
  obtain ⟨L, hL, ha, hbad⟩ := hbad
  obtain ⟨hfirst, hlast, hend⟩ := h L hL ha
  omega

end

/-- Settles O20: how the looper resolves an index, and the checks of LOOP and JMP. -/
theorem loopsAndJumps : Obligations.LoopsAndJumps := by
  unfold Obligations.LoopsAndJumps
  rintro s n w w' x rfl
  refine ⟨fun pc hpc hnone => State.advance_of_resolve (Looper.resolve_none hnone) hpc,
    fun pc L hL hi hfirst => State.advance_of_resolve (Looper.resolve_again hL hi) hfirst,
    fun pc L hpc hL hi hnone => State.advance_of_resolve ((Looper.resolve_done hL hi).trans (Looper.resolve_none hnone)) hpc,
    fun hnone => State.advance_of_resolve_past (Looper.resolve_none hnone) (by decide), fun hi => issueAs_next hi rfl,
    fun hi hoff hend hin => ⟨fun hn => issueAs_next hi (doLoop_starts hoff hend hin hn),
      fun hn hlast hnone => issueAs_next hi (doLoop_skips hoff hend hin hn hlast hnone)⟩,
    fun hi hbad => issueAs_next hi (doLoop_raises hbad), fun hi hin => issueAs_next hi (doJmp_holds hin),
    fun hi hbad => issueAs_next hi (doJmp_raises hbad), fun hh => ?_⟩
  simp only [exec_issueHoldRelease, execIssueHoldRelease, hh]

/-! ### Predicates -/

section
variable {x : Tile} {p L : Nat}

/-- p1 to p7 are what is written. -/
theorem Tile.pred_written (h0 : p ≠ 0) (h : p < 8) : x.pred p = x.seq.pred.toNat.testBit p := (if_neg h0).trans (if_pos h)

/-- Predicate 8 + L is FIRST of level L (R201). -/
theorem Tile.pred_first (hL : L < 4) : x.pred (8 + L) = ((x.loop.level L).active && decide ((x.loop.level L).i = 0)) := by
  have hmod : (8 + L) % 4 = L := by omega
  unfold Tile.pred
  dsimp only
  rw [if_neg (by omega), if_neg (by omega), if_pos (by omega), hmod]

/-- Predicate 12 + L is LAST of level L (R201). -/
theorem Tile.pred_last (hL : L < 4) : x.pred (12 + L) = ((x.loop.level L).active && decide ((x.loop.level L).i + 1 = (x.loop.level L).n)) := by
  have hmod : (12 + L) % 4 = L := by omega
  unfold Tile.pred
  dsimp only
  rw [if_neg (by omega), if_neg (by omega), if_neg (by omega), hmod]

/-- An instruction executes where its predicate differs from its inversion bit (R194). -/
theorem Tile.executes_iff {w : Insn} : x.executes w = true ↔ (x.pred (fld w 119 116) = true ↔ bit w 115 = false) := by
  unfold Tile.executes
  cases x.pred (fld w 119 116) <;> cases bit w 115 <;> decide

end

/-- Bits placed side by side make a number below the next power of two, whose bits they are. -/
theorem foldl_b2n_bits (f : Nat → Bool) : ∀ n : Nat, (List.range n).foldl (fun a p => a + b2n (f p) * 2 ^ p) 0 < 2 ^ n
    ∧ ∀ i, i < n → ((List.range n).foldl (fun a p => a + b2n (f p) * 2 ^ p) 0).testBit i = f i
  | 0 => ⟨Nat.one_pos, fun _ h => absurd h (Nat.not_lt_zero _)⟩
  | n + 1 => by
    obtain ⟨hlt, hbits⟩ := foldl_b2n_bits f n
    rw [List.range_succ, List.foldl_append, List.foldl_cons, List.foldl_nil, Nat.add_comm _ (b2n (f n) * 2 ^ n), Nat.mul_comm (b2n (f n))]
    refine ⟨?_, fun i hi => ?_⟩
    · rw [Nat.pow_succ]
      have : 2 ^ n * b2n (f n) ≤ 2 ^ n * 1 := Nat.mul_le_mul_left _ (by cases f n <;> decide)
      omega
    · rw [Nat.testBit_two_pow_mul_add _ hlt]
      obtain hi | rfl := Nat.lt_succ_iff_lt_or_eq.1 hi
      · rw [if_pos hi, hbits i hi]
      · rw [if_neg (Nat.lt_irrefl _), Nat.sub_self]
        cases f i <;> rfl

/-- SEQ_PRED shows every predicate (R215). -/
theorem Tile.predWord_testBit {x : Tile} {p : Nat} (hp : p < 16) : x.predWord.testBit p = x.pred p := (foldl_b2n_bits x.pred 16).2 p hp

/-- Settles O59: the predicates of a level, read by an instruction and in SEQ_PRED. -/
theorem firstAndLastOfALoopLevel : Obligations.FirstAndLastOfALoopLevel := by
  unfold Obligations.FirstAndLastOfALoopLevel
  intro x L
  have hfirst := Tile.pred_first (x := x) L.isLt
  have hlast := Tile.pred_last (x := x) L.isLt
  refine ⟨?_, ?_, fun hoff => ⟨?_, ?_⟩, Tile.predWord_testBit (by omega), Tile.predWord_testBit (by omega), fun w _ => Tile.executes_iff⟩
  · rw [hfirst, Bool.and_eq_true, decide_eq_true_eq]
  · rw [hlast, Bool.and_eq_true, decide_eq_true_eq]
  · rw [hfirst, hoff, Bool.false_and]
  · rw [hlast, hoff, Bool.false_and]

/-! ### PSET, LSTRIDE and LBIND -/

theorem bit_clrBit {w i j : Nat} {x : BitVec w} : bit (clrBit x i) j = (bit x j && !decide (i = j)) := by
  unfold bit clrBit
  by_cases hj : j < w
  · rw [BitVec.getLsbD_and, BitVec.getLsbD_not, BitVec.getLsbD_ofNat, Nat.testBit_two_pow]
    simp [hj]
  · rw [BitVec.getLsbD_of_ge _ _ (Nat.not_lt.1 hj), BitVec.getLsbD_of_ge _ _ (Nat.not_lt.1 hj), Bool.false_and]

/-- A predicate reads what was last written into it, and no other predicate changes. -/
theorem Seq.setPred_testBit {q : Seq} {i p : Nat} {v : Bool} (hi : i < 8) :
    (q.setPred i v).pred.toNat.testBit p = if p = i then v else q.pred.toNat.testBit p := by
  change bit (if v then setBit q.pred i else clrBit q.pred i) p = if p = i then v else bit q.pred p
  cases v
  · rw [if_neg Bool.false_ne_true, bit_clrBit]
    obtain rfl | h := eq_or_ne p i
    · simp
    · simp [h, h.symm]
  · rw [if_pos rfl, bit_setBit hi]
    obtain rfl | h := eq_or_ne p i
    · simp
    · simp [h, h.symm]

/-- A field is below the power of two of its width. -/
theorem fld_lt {n hi lo : Nat} (w : BitVec n) : fld w hi lo < 2 ^ (hi + 1 - lo) := Nat.mod_lt _ (Nat.two_pow_pos _)

/-- Settles O21: what each predicate reads, what PSET writes by its mode, and that each instruction goes on. -/
theorem predicatesStridesAndBindings : Obligations.PredicatesStridesAndBindings := by
  unfold Obligations.PredicatesStridesAndBindings
  rintro s n w w' x rfl
  refine ⟨fun p hp => ?_, fun hi => ⟨issueAs_next hi rfl, fun p _ => Seq.setPred_testBit (fld_lt w'), fun hm => ?_, fun hm => ?_, fun hm => ?_⟩,
    fun hi => issueAs_next hi rfl, fun hi => issueAs_next hi rfl⟩
  · split_ifs with h0 h8 h12
    · rw [h0]; rfl
    · exact Tile.pred_written h0 h8
    · obtain ⟨L, rfl⟩ := Nat.exists_eq_add_of_le (Nat.not_lt.1 h8)
      rw [Tile.pred_first (by omega), Nat.add_sub_cancel_left]
    · obtain ⟨L, rfl⟩ := Nat.exists_eq_add_of_le (Nat.not_lt.1 h12)
      rw [Tile.pred_last (by omega), Nat.add_sub_cancel_left]
  all_goals simp only [psetValue, hm]

/-! ### Arrivals of a tile -/

/-- An arrival made and held. -/
theorem State.arrive_holdAt {n pc ch : Nat} {a : Arrival} {h : HoldOp} (hw : Table.wf {} s.tiles = true) : (s.arrive n ch a).holdAt n pc h
    = s.setTile n { s.tile n with
        arr := (s.tile n).arr.put none ch (some a), seq := { (s.tile n).seq with st := .hold, hold := h, holdPc := pc } } :=
  State.updTile_setTile hw

section
variable {n ch : Nat} {a b c : State}

/-- On a channel whose domain has not the tile, the first outcome of a channel's checks (R206). -/
theorem channelCheck_off (h : s.onChannel n ch = false) : (if !s.onChannel n ch then a else if s.armed n ch then b else c) = a :=
  if_pos (by rw [h]; rfl)

variable (h : s.onChannel n ch = true)
include h

/-- On an armed channel, the second (R393). -/
theorem channelCheck_armed (ha : s.armed n ch = true) : (if !s.onChannel n ch then a else if s.armed n ch then b else c) = b :=
  (if_neg (by rw [h]; decide)).trans (if_pos ha)

/-- On a channel that no QUERY_COUNTER has armed, the third. -/
theorem channelCheck_free (ha : s.armed n ch = false) : (if !s.onChannel n ch then a else if s.armed n ch then b else c) = c :=
  (if_neg (by rw [h]; decide)).trans (if_neg (by rw [ha]; decide))

end

section
variable {n pc ch c v : Nat}

/-- CWAIT arrives once its counter has reached the value, or its error bit is set (R205, R206). -/
theorem State.tryCwait_arrives (hw : Table.wf {} s.tiles = true) (h : ((s.tile n).w.ccnt c).err = true ∨ v ≤ ((s.tile n).w.ccnt c).val.toNat) :
    s.tryCwait n pc ch c v = s.setTile n { s.tile n with
      arr := (s.tile n).arr.put none ch (some ⟨.cwait, ((s.tile n).w.ccnt c).err, false, false, 0⟩)
      seq := { (s.tile n).seq with st := .hold, hold := .cwait ch c v true, holdPc := pc } } :=
  (if_pos (by simpa using h)).trans (State.arrive_holdAt hw)

/-- CWAIT without its counter's value holds (R205). -/
theorem State.tryCwait_holds (he : ((s.tile n).w.ccnt c).err = false) (hv : ((s.tile n).w.ccnt c).val.toNat < v) :
    s.tryCwait n pc ch c v = s.holdAt n pc (.cwait ch c v false) :=
  if_neg (by simp [he, hv])

end

/-- Settles O24: each instruction issues, and its channel's checks decide what it does. -/
theorem barriersOfATile : Obligations.BarriersOfATile := by
  unfold Obligations.BarriersOfATile
  rintro s n w w' x ⟨-, hw, -⟩ rfl
  refine ⟨fun hi => ⟨fun hc ha => issueAs_next hi ((channelCheck_free hc ha).trans (State.arrive_holdAt hw)),
      fun hc => issueAs_next hi (channelCheck_off hc), fun hc ha => issueAs_next hi (channelCheck_armed hc ha)⟩,
    fun hi => ⟨fun hc ha => issueAs_next hi ((channelCheck_free hc ha).trans (State.arrive_holdAt hw)),
      fun hc => issueAs_next hi (channelCheck_off hc), fun hc ha => issueAs_next hi (channelCheck_armed hc ha)⟩,
    fun hi => ⟨fun hc ha => ⟨fun hv => issueAs_next hi ((channelCheck_free hc ha).trans (State.tryCwait_arrives hw hv)),
        fun he hv => issueAs_next hi ((channelCheck_free hc ha).trans (State.tryCwait_holds he hv))⟩,
      fun hc => issueAs_next hi (channelCheck_off hc), fun hc ha => issueAs_next hi (channelCheck_armed hc ha)⟩,
    fun ch c v hh hv => ?_⟩
  simp only [exec_cwaitArrival, execCwaitArrival, hh, State.tryCwait_arrives hw hv]

/-! ### The command queue, SEQ_ENABLE and the reset of a tile -/

/-- Hub firmware frees locks by its registers and its mailboxes alone. -/
theorem State.mbbFreeOf_frame {γ : Type} (g : State → γ) (hg : ∀ s k m, g (State.mbbFree s k m) = g s) (c : W16) : g (s.mbbFreeOf c) = g s :=
  foldl_frame g (fun s i => by split; exacts [hg s _ _, rfl]) _ s

/-- A recalled arrival moves within the synchronisation nodes alone. -/
theorem State.recall_frame {γ : Type} (g : State → γ) (hg : ∀ s n f, g (State.updNode s n f) = g s) (n ch t : Nat) : g (s.recall n ch t) = g s := by
  unfold State.recall
  dsimp only
  split
  · exact hg s n _
  · exact (foldl_frame g (fun s (m : Member × Arrival) => hg s m.1.home _) _ _).trans (hg s n _)

/-- What neither a synchronisation node nor hub firmware holds is, after the reset of a tile, as the tile's own reset leaves it. -/
theorem State.seqReset_frame {γ : Type} (g : State → γ) (hnode : ∀ s n f, g (State.updNode s n f) = g s)
    (hhub : ∀ s k m, g (State.mbbFree s k m) = g s) (t : Nat) : g (s.seqReset t) = g (s.updTile t Tile.reset) :=
  (State.mbbFreeOf_frame g hhub _).trans (foldl_frame g (fun _ (p : Nat × Nat) => State.recall_frame g hnode p.1 p.2 t) _ _)

@[simp] theorem State.seqReset_tiles {t : Nat} : (s.seqReset t).tiles = (s.updTile t Tile.reset).tiles := State.seqReset_frame (·.tiles) (fun _ _ _ => rfl) (fun _ _ _ => rfl) t
@[simp] theorem State.seqReset_snodes {t : Nat} : (s.seqReset t).snodes = s.snodes := State.seqReset_frame (·.snodes) (fun _ _ _ => rfl) (fun _ _ _ => rfl) t
@[simp] theorem State.seqReset_fns {t : Nat} : (s.seqReset t).fns = s.fns := State.seqReset_frame (·.fns) (fun _ _ _ => rfl) (fun _ _ _ => rfl) t
@[simp] theorem State.seqReset_ports {t : Nat} : (s.seqReset t).ports = s.ports := State.seqReset_frame (·.ports) (fun _ _ _ => rfl) (fun _ _ _ => rfl) t
@[simp] theorem State.seqReset_parts {t : Nat} : (s.seqReset t).parts = s.parts := State.seqReset_frame (·.parts) (fun _ _ _ => rfl) (fun _ _ _ => rfl) t

/-- The tile after its reset. -/
theorem State.seqReset_tile_same {t : Nat} (h : Table.wf {} s.tiles = true) : (s.seqReset t).tile t = (s.tile t).reset :=
  (State.tile_congr State.seqReset_tiles t).trans (State.tile_updTile_same h)

/-- A reset leaves every other tile. -/
theorem State.seqReset_tile_ne {t u : Nat} (h : t ≠ u) : (s.seqReset t).tile u = s.tile u :=
  (State.tile_congr State.seqReset_tiles u).trans (State.tile_updTile_ne h)

/-- A queue with room takes the entry (R191). -/
theorem Seq.pushCmd_room {q : Seq} {v : W32} (h : q.cmdq.length < 16) : q.pushCmd v = { q with cmdq := q.cmdq ++ [fld v 10 0] } :=
  if_neg (Nat.not_le.2 h)

/-- A full queue notes the overflow (R191). -/
theorem Seq.pushCmd_full {q : Seq} {v : W32} (h : 16 ≤ q.cmdq.length) : q.pushCmd v = { q with cmdqOvf := true } := if_pos h

/-- SEQ_ENABLE set moves a STOPPED sequencer to IDLE (R190). -/
theorem Seq.enable_true {q : Seq} : q.enable true = { q with en := true, st := if q.st = .stopped then .idle else q.st } := by
  unfold Seq.enable
  cases q.st <;> rfl

/-- SEQ_ENABLE cleared moves an IDLE sequencer to STOPPED (R215). -/
theorem Seq.enable_false {q : Seq} : q.enable false = { q with en := false, st := if q.st = .idle then .stopped else q.st } := by
  unfold Seq.enable
  cases q.st <;> rfl

/-- Settles O25: what a write of each register leaves of the sequencer, and what a reset leaves of the tile. -/
theorem theTileCommandQueue : Obligations.TheTileCommandQueue := by
  unfold Obligations.TheTileCommandQueue
  rintro s n x ⟨-, hw, -⟩ rfl
  refine ⟨fun v => ⟨fun h => ?_, fun h => ?_⟩, ?_, ?_, fun e r hidle hq => ?_, s.seqReset n.val, rfl, ?_⟩
  · rw [exec_tileCmdqWrite, execTileCmdqWrite, State.updTile, Seq.pushCmd_room h]
  · rw [exec_tileCmdqWrite, execTileCmdqWrite, State.updTile, Seq.pushCmd_full h]
  · rw [exec_seqEnableSet, execSeqEnableSet, State.updTile, Seq.enable_true]
  · rw [exec_seqEnableClear, execSeqEnableClear, State.updTile, Seq.enable_false]
  · simp only [exec_seqTakeEntry, execSeqTakeEntry, State.updTile, hidle, hq]
  · simp only [State.seqReset_tile_same hw, Tile.reset, true_and]
    exact ⟨fun m hm => State.seqReset_tile_ne hm.symm, State.seqReset_snodes, State.seqReset_fns, State.seqReset_ports, State.seqReset_parts⟩

/-! ### The synchronisation network -/

section
variable {n ch : Nat} {l : List (Member × Arrival)} (hn : Table.wf {} s.nodes = true)
include hn

/-- Arrivals that are combined join those that the node holds (R311). -/
theorem State.got_syncAdd (hg : Table.wf [] (s.node n).sync.got = true) :
    ((s.syncAdd n ch l).node n).sync.got.get [] ch = (s.node n).sync.got.get [] ch ++ l := by
  rw [State.syncAdd, State.node_updNode_same hn]
  exact Table.get_upd_same hg ch (· ++ l)

theorem State.edges_syncAdd : ((s.syncAdd n ch l).node n).sync.edges = (s.node n).sync.edges := by rw [State.syncAdd, State.node_updNode_same hn]

/-- A channel that is emptied holds no arrivals. -/
theorem State.got_syncClear (hg : Table.wf [] (s.node n).sync.got = true) : ((s.syncClear n ch).node n).sync.got.get [] ch = [] := by
  rw [State.syncClear, State.node_updNode_same hn]
  exact Table.get_put_same hg ch []

end

theorem State.node_syncAdd_ne {n m ch : Nat} {l : List (Member × Arrival)} (h : n ≠ m) : (s.syncAdd n ch l).node m = s.node m :=
  State.node_updNode_ne h
theorem State.node_syncClear_ne {n m ch : Nat} (h : n ≠ m) : (s.syncClear n ch).node m = s.node m := State.node_updNode_ne h

/-- A member tile's arrival moves from the tile into its die's node (R309). -/
theorem State.syncFromTile_of_member {n ch t : Nat} {a : Arrival} (ha : (s.tile t).arr.get none ch = some a) (hon : bit (s.chCfg n ch) 24 = true)
    (hmem : bit (s.chCfg n ch) (8 + t % 16) = true) :
    s.syncFromTile n ch t = (s.updTile t (fun x => { x with arr := x.arr.put none ch none })).syncAdd n ch [(.tile t, a)] := by
  unfold State.syncFromTile
  rw [ha]
  exact if_pos (by rw [hon, hmem]; rfl)

/-- A child whose arrivals are complete sends them to its parent (R311). -/
theorem State.syncFromEdge_of_full {n ch e m : Nat} (hm : s.syncChild n ch e = some m) (hfull : s.syncFull m ch = true) :
    s.syncFromEdge n ch e = ((s.syncClear m ch).syncAdd n ch ((s.node m).sync.got.get [] ch)).updNode n
      (fun x => { x with sync := { x.sync with edges := x.sync.edges.upd 0 ch (fun b => setBit b e) } }) := by
  unfold State.syncFromEdge
  rw [hm]
  exact if_pos hfull

/-- Members of different instructions all get a mismatch (R206). -/
theorem State.syncDeliver_differ {ch : Nat} {l : List (Member × Arrival)} {a : Nat × Arrival} {r : List (Nat × Arrival)} (h : s.ranked l = a :: r)
    (hd : ∃ b ∈ r, b.2.sig ≠ a.2.sig) : s.syncDeliver ch l = (a :: r).foldl (fun s m => s.mismatchAt m.1 ch) s := by
  obtain ⟨b, hb, hne⟩ := hd
  unfold State.syncDeliver
  rw [h]
  exact if_pos (List.any_eq_true.2 ⟨b.2, List.mem_map_of_mem (List.mem_cons_of_mem _ hb), decide_eq_true hne⟩)

/-- A single member of a barrier receives its own result. -/
theorem State.syncDeliver_bar {ch t : Nat} {l : List (Member × Arrival)} {a : Arrival} (h : s.ranked l = [(t, a)]) (hb : a.sig = .bar) :
    s.syncDeliver ch l = s.deliverTo t ch a.fault (a.payload.toNat % 2 ^ 32) .none := by
  unfold State.syncDeliver
  rw [h]
  simp [hb]

/-- A FLAGOR whose word goes to banks that are on writes it, sets its predicate, and goes on (R206). -/
theorem State.deliverTo_flagor {t ch pd raddr v : Nat} {f : Bool} (hw : Table.wf {} s.tiles = true) (hh : (s.tile t).seq.hold = .flagor ch pd raddr)
    (hst : (s.tile t).seq.st = .hold) (hp : (s.tile t).spm.refused raddr 4 = none) (hpd : pd ≠ 0) :
    s.deliverTo t ch f v .none = (s.setTile t { s.tile t with
      spm := (s.tile t).spm.write raddr (bytesLE 4 v) false
      seq := { (s.tile t).seq with pred := if v ≠ 0 then setBit (s.tile t).seq.pred pd else clrBit (s.tile t).seq.pred pd } }).advance t
        (s.tile t).seq.holdPc := by
  have hok : (s.tile t).seq.st ≠ .exc := by rw [hst]; decide
  conv_lhs =>
    unfold State.deliverTo
    simp only [hh]
  rw [if_neg (not_not.2 rfl), if_neg hpd, State.tileWrite_of_powered (by rw [bytesLE_length]; exact hp), State.updTile_setTile hw,
    State.tile_setTile_same hw]
  exact if_neg hok

/-- Settles O40: the way of an arrival up the tree, and of a result to each kind of member. -/
theorem synchronisationNetwork : Obligations.SynchronisationNetwork := by
  unfold Obligations.SynchronisationNetwork
  rintro s n ⟨-, hw, -, hn, -⟩
  refine ⟨fun ch i a ha hon hmem hg => ?_, fun ch e m hm hne hfull hg hgm he => ?_, fun ch hroot hfull => ?_,
    fun ch l a r => State.syncDeliver_differ, fun ch l t a => State.syncDeliver_bar, fun t ch f v hh => ?_, fun t ch c v w b hh => ?_,
    fun t ch pd raddr v f => State.deliverTo_flagor hw⟩
  · have hi : (16 * n.val + i.val) % 16 = i.val := by omega
    exact ⟨_, congrArg Host.Outcome.next (State.syncFromTile_of_member ha hon (by rw [hi]; exact hmem)),
      State.updNode_tile.trans (State.tile_updTile_same hw), State.got_syncAdd hn hg, rfl⟩
  · have hc : Table.wf {} (s.syncClear m ch).nodes = true := State.updNode_nodes_wf hn
    have ha : Table.wf {} ((s.syncClear m ch).syncAdd n ch ((s.node m).sync.got.get [] ch)).nodes = true := State.updNode_nodes_wf hc
    refine ⟨_, congrArg Host.Outcome.next (State.syncFromEdge_of_full hm hfull), ?_, ?_, ?_, rfl⟩
    · rw [State.node_updNode_same ha]
      dsimp only
      rw [State.got_syncAdd hc (by rw [State.node_syncClear_ne hne]; exact hg), State.node_syncClear_ne hne]
    · rw [State.node_updNode_same ha]
      dsimp only
      rw [State.edges_syncAdd hc, State.node_syncClear_ne hne, Table.get_upd_same he, bit_setBit e.isLt]
      simp
    · rw [State.node_updNode_ne hne.symm, State.node_syncAdd_ne hne.symm, State.got_syncClear hn hgm]
  · rw [exec_syncDelivery, execSyncDelivery, if_pos (by rw [hroot, hfull]; rfl)]
  · unfold State.deliverTo
    simp only [hh, if_true]
  · unfold State.deliverTo
    simp only [hh, ne_eq, not_true_eq_false, if_false, if_true, Bool.false_eq_true, and_self]

/-! ### The state after reset -/

/-- Settles O56: each register's reset value, and tables that list nothing. -/
theorem theStateAfterReset : Obligations.TheStateAfterReset :=
  ⟨⟨rfl, rfl, rfl, rfl, rfl, rfl, rfl⟩, rfl, rfl, rfl, rfl, rfl, rfl, rfl, rfl, rfl, rfl, rfl, rfl, rfl, rfl, fun _ => ⟨rfl, fun _ => ⟨rfl, rfl⟩⟩⟩

end Sys2Proof.Machine

/-! PROOFS. The family of the scratchpad's commands: its memory operations, power, scrub and row repair (O35). -/

namespace Sys2Proof.Machine

variable {s : State}

/-! ### Memory operations -/

section
variable {p : Spm} {d : BitVec 128} {r : List (BitVec 128)}

/-- A 16-byte write to SPM_MOPQ joins a queue with room (R228). -/
theorem Spm.pushMop_room {bs : List Byte} (hlen : bs.length = 16) (hroom : p.mopq.length < 8) :
    p.pushMop 0x40 bs = { p with mopq := p.mopq ++ [BitVec.ofNat 128 (ofLE bs)] } := by
  rw [Spm.pushMop, if_neg (by simp [hlen]), if_neg (Nat.not_le.2 hroom)]

/-- A full queue notes the overflow (R228). -/
theorem Spm.pushMop_full {bs : List Byte} (hlen : bs.length = 16) (hfull : 8 ≤ p.mopq.length) : p.pushMop 0x40 bs = { p with mopOvf := true } := by
  rw [Spm.pushMop, if_neg (by simp [hlen]), if_pos hfull]

/-- The head starts once no memory operation runs, by the row of its own operation (R229). -/
theorem Spm.startMop_head (hq : p.mopq = d :: r) (hrun : p.mopRun = false) : p.startMop (fld d 1 0)
    = { p.runMop d with mopRun := true, mopStop := if p.mopStops d then some (p.mopStopAt d) else none } := by
  unfold Spm.startMop
  rw [hq]
  exact if_neg (by simp [hrun])

end

/-- The head of the queue has ended: SPM_FAULT where it stopped, the error bit of its counter where it stopped or its descriptor is bad (R230). -/
def Tile.mopEnded (x : Tile) (d : BitVec 128) (r : List (BitVec 128)) : Tile :=
  { x with
    spm := match x.spm.mopStop with
      | some a => ({ x.spm with mopq := r, mopRun := false, mopStop := none } : Spm).recordFault a 3 6
      | none => { x.spm with mopq := r, mopRun := false, mopStop := none }
    w := if x.spm.mopStop.isSome || mopBadDesc d then x.w.setErr (fld d 6 2) else x.w }

/-- A memory operation that runs, or whose descriptor is bad, ends and raises its counter (R230). -/
theorem execMopEnd_of_head {n : TileNo} {x : Tile} {d : BitVec 128} {r : List (BitVec 128)} (hx : s.tile n.val = x) (hq : x.spm.mopq = d :: r)
    (hends : x.spm.mopRun = true ∨ mopBadDesc d = true) : exec (.mopEnd n) s
      = .next (((s.setTile n.val (x.mopEnded d r)).tileBump n.val (fld d 6 2) 1).tilePoll n.val) := by
  subst hx
  rw [exec_mopEnd, execMopEnd]
  simp only [hq]
  rw [if_neg (by obtain h | h := hends <;> simp [h])]
  cases hs : (s.tile n.val).spm.mopStop <;> simp only [Tile.mopEnded, hs]

/-- Dropping the keys of one kind from a table leaves the others. -/
theorem Table.get_filter_key {α : Type} {d : α} {keep : Nat → Bool} {i : Nat} :
    ∀ t : Table α, Table.get d (t.filter fun kv => keep kv.1) i = if keep i then Table.get d t i else d
  | [] => by simp
  | (k, v) :: t => by
    have ih := Table.get_filter_key (d := d) (keep := keep) (i := i) t
    by_cases hk : keep k <;> by_cases hi : k = i <;> simp_all [Table.get]

/-! ### Power -/

section
variable {p : Spm} {q a : Nat} {v : QState}

@[simp] theorem Spm.quarter_setQuarter_same : (p.setQuarter q v).quarter q = v := by
  unfold Spm.setQuarter
  split
  · next h => simp [Spm.quarter, h]
  · split
    · next h => simp [Spm.quarter, h]
    · split
      · next h => simp [Spm.quarter, h]
      · next h0 h1 h2 => simp [Spm.quarter, h0, h1, h2]

@[simp] theorem Spm.setQuarter_data : (p.setQuarter q v).data = p.data := by
  unfold Spm.setQuarter
  repeat' split
  all_goals rfl

/-- A cleared quarter reads zero, and every other quarter as before (R242). -/
theorem Spm.clearQuarter_get : (p.clearQuarter q).data.get 0 a = if a / 0x400000 = q then 0 else p.data.get 0 a := by
  rw [Spm.clearQuarter, Table.get_filter_key (keep := fun k => k / 0x400000 != q)]
  by_cases h : a / 0x400000 = q <;> simp [h]

/-- A quarter that comes from OFF is ON and zero (R242). -/
theorem Spm.quarterOn_powering (h : p.quarter q = .powering) : p.quarterOn q = (p.clearQuarter q).setQuarter q .on := by
  rw [Spm.quarterOn, h]

/-- A quarter that comes back from RETAIN is ON (R242). -/
theorem Spm.quarterOn_rising (h : p.quarter q = .retain) (hr : bit p.rising q = true) :
    p.quarterOn q = ({ p with rising := clrBit p.rising q } : Spm).setQuarter q .on := by
  rw [Spm.quarterOn, h]
  exact if_pos hr

end

section
variable {x : Tile} {q : Nat}

/-- PWR_UP of a quarter that is ON, or on its way, has nothing to do (R242). -/
theorem Tile.power_up_already (h : x.spm.quarter q = .on ∨ x.spm.quarter q = .powering) : x.power q 0 = { x with spm := x.spm.pwrResult q 0 2 } := by
  obtain h | h := h <;> rw [Tile.power, h]

theorem Tile.power_up_off (h : x.spm.quarter q = .off) : x.power q 0 = { x with spm := (x.spm.setQuarter q .powering).pwrResult q 0 0 } := by
  rw [Tile.power, h]

theorem Tile.power_up_retain (h : x.spm.quarter q = .retain) : x.power q 0
    = { x with spm := ({ x.spm with rising := setBit x.spm.rising q } : Spm).pwrResult q 0 0 } := by
  rw [Tile.power, h]

theorem Tile.power_retain (h : x.pwrBusy q true = false) : x.power q 1 = { x with spm := (x.spm.setQuarter q .retain).pwrResult q 1 0 } :=
  if_neg (by rw [h]; decide)

theorem Tile.power_retain_busy (h : x.pwrBusy q true = true) : x.power q 1 = { x with spm := x.spm.pwrResult q 1 1 } := if_pos h

theorem Tile.power_down (h : x.pwrBusy q false = false) (hk : bit x.spm.kept q = false) : x.power q 2
    = { x with spm := ({ x.spm with rising := clrBit x.spm.rising q }.setQuarter q .off).pwrResult q 2 0 } :=
  if_neg (by rw [h, hk]; decide)

theorem Tile.power_down_busy (h : x.pwrBusy q false = true ∨ bit x.spm.kept q = true) : x.power q 2 = { x with spm := x.spm.pwrResult q 2 1 } :=
  if_pos (by simpa using h)

/-- A power command that is no power-up from OFF changes its tile alone. -/
theorem State.tilePower_of_not_off {n op : Nat} (h : op ≠ 0 ∨ (s.tile n).spm.quarter q ≠ .off) : s.tilePower n q op = s.setTile n ((s.tile n).power q op) :=
  if_neg (by tauto)

/-- A power-up from OFF asks for its token too (R242). -/
theorem State.tilePower_up_off {n : Nat} (h : (s.tile n).spm.quarter q = .off) :
    s.tilePower n q 0 = (s.setTile n ((s.tile n).power q 0)).inrushAsk (n / 160) (tileCell n) .quarter q :=
  if_pos ⟨rfl, h⟩

/-- A quarter that waits for no token finishes its power-up (R242). -/
theorem execQuarterOn_done {n : TileNo} {q : Fin 4} (h : (s.tile n.val).spm.quarter q.val = .powering →
    s.inrushOpen (n.val / 160) (tileCell n.val) .quarter q.val = false) :
    exec (.quarterOn n q) s = .next (s.setTile n.val { s.tile n.val with spm := (s.tile n.val).spm.quarterOn q.val }) := by
  rw [exec_quarterOn, execQuarterOn, if_neg fun ⟨hq, hopen⟩ => by simp [h hq] at hopen]
  rfl

end

/-! ### Scrub and row repair -/

section
variable {p : Spm} {h b row : Nat}

/-- A read of a scratchpad whose check symbols match changes nothing (R233). -/
theorem Spm.readHalf_of_clean (hdev : p.dev = []) : p.readHalf h = (p, false) := by
  rw [Spm.readHalf, hdev]
  exact if_pos rfl

/-- The scrub of a scratchpad whose check symbols match changes nothing (R234). -/
theorem Spm.scrubBanks_of_clean (hdev : p.dev = []) : ∀ b n, p.scrubBanks row b n = p
  | _, 0 => rfl
  | b, n + 1 => by
    rw [Spm.scrubBanks]
    simp only [Spm.readHalf_of_clean hdev, ite_self]
    cases p.servedRow b row <;> exact Spm.scrubBanks_of_clean hdev (b + 1) n

/-- A copied half-row leaves the repair queue and the retired banks. -/
theorem Spm.copyHalf_repairQ : (p.copyHalf h).repairQ = p.repairQ := by
  unfold Spm.copyHalf
  split <;> rfl
theorem Spm.copyHalf_retired : (p.copyHalf h).retired = p.retired := by
  unfold Spm.copyHalf
  split <;> rfl

/-- The scratchpad once row `r` has moved to spare row `k` (R238). -/
def Spm.moveRow (p : Spm) (r : RepairRow) (k : Nat) : Spm :=
  let h := (1024 * r.row + 64 * r.bank) / 32
  let p1 := ((p.copyHalf h).copyHalf (h + 1)).dropRemap r.bank r.row
  { p1 with rmap := p1.rmap.put {} (32 * r.bank + k) ⟨BitVec.ofNat 14 r.row, true, 2, false⟩ }

@[simp] theorem Spm.moveRow_repairQ {r : RepairRow} {k : Nat} : (p.moveRow r k).repairQ = p.repairQ := by
  unfold Spm.moveRow Spm.dropRemap
  dsimp only
  rw [Spm.copyHalf_repairQ, Spm.copyHalf_repairQ]
@[simp] theorem Spm.moveRow_retired {r : RepairRow} {k : Nat} : (p.moveRow r k).retired = p.retired := by
  unfold Spm.moveRow Spm.dropRemap
  dsimp only
  rw [Spm.copyHalf_retired, Spm.copyHalf_retired]

/-- The remap entry of the spare row that takes a row in is valid (R237). -/
theorem Spm.moveRow_valid {r : RepairRow} {k : Nat} : ((p.moveRow r k).rmap.get {} (32 * r.bank + k)).valid = true := by
  unfold Spm.moveRow
  dsimp only
  rw [Table.get_put_val (by simp)]

end

section
variable {n : TileNo} {x : Tile} {r : RepairRow} {rest : List RepairRow} (hx : s.tile n.val = x) (hq : x.spm.repairQ = r :: rest)
include hx hq

/-- The oldest queued row moves to the next usable spare (R238). -/
theorem execLiveRowRepair_moves {k : Nat} (hk : ({ x.spm with repairQ := rest } : Spm).nextSpare r.bank = some k) : exec (.liveRowRepair n) s
    = .next ((s.setTile n.val { x with spm := ({ x.spm with repairQ := rest } : Spm).moveRow r k }).report (tileDie n.val)
      (.spmRepair n.val r.bank r.row false)) := by
  subst hx
  rw [exec_liveRowRepair, execLiveRowRepair]
  simp only [hq, hk]
  rfl

/-- Without a usable spare its bank retires at once where a read of it was uncorrectable (R239). -/
theorem execLiveRowRepair_retires (hk : ({ x.spm with repairQ := rest } : Spm).nextSpare r.bank = none) (hue : r.ue = true) :
    exec (.liveRowRepair n) s = .next ((s.setTile n.val { x with spm := { x.spm with repairQ := rest, retired := setBit x.spm.retired r.bank } }).report
      (tileDie n.val) (.tileFailure n.val)) := by
  subst hx
  rw [exec_liveRowRepair, execLiveRowRepair]
  simp only [hq, hk]
  rw [if_pos hue]

/-- Without a usable spare its bank is noted to retire where every read of it was corrected (R239). -/
theorem execLiveRowRepair_notes (hk : ({ x.spm with repairQ := rest } : Spm).nextSpare r.bank = none) (hue : r.ue = false) :
    exec (.liveRowRepair n) s = .next ((s.setTile n.val { x with spm := { x.spm with repairQ := rest, retirePend := setBit x.spm.retirePend r.bank } }).report
      (tileDie n.val) (.spmRepair n.val r.bank r.row true)) := by
  subst hx
  rw [exec_liveRowRepair, execLiveRowRepair]
  simp only [hq, hk]
  rw [if_neg (by rw [hue]; decide)]

end

/-- Settles O35: the queue of memory operations by the equations of its writes, its start and its end, and each command by its guards. -/
theorem scratchpadCommands : Obligations.ScratchpadCommands := by
  unfold Obligations.ScratchpadCommands
  rintro s n x ⟨-, hw, -⟩ rfl
  refine ⟨fun off bs => ⟨fun hoff hlen hroom => ?_, fun hoff hlen hfull => ?_, fun hbad => ?_⟩,
    fun d r hq hrun => ⟨fun hop => ?_, fun hop => ?_⟩,
    fun d r hq => ⟨fun hrun hgood hstop => ?_, fun a hrun hgood hstop => ?_, fun hbad hstop => ?_⟩,
    fun q => ⟨fun h => ?_, fun h => ?_, fun h => ?_, fun h => ?_, fun h => ?_, fun h hk => ?_, fun h => ?_, fun h hopen => ?_,
      fun h hopen _ => ⟨_, execQuarterOn_done fun _ => hopen, State.onlyTile_setTile, ?_⟩,
      fun h hr => ⟨_, execQuarterOn_done fun hq => absurd (h.symm.trans hq) nofun, State.onlyTile_setTile, ?_⟩⟩,
    fun hint hdev => ?_,
    fun r rest hq => ⟨fun k hk => ⟨_, execLiveRowRepair_moves rfl hq hk, ⟨rfl, State.onlyTile_setTile.2⟩, ?_⟩, execLiveRowRepair_retires rfl hq,
      execLiveRowRepair_notes rfl hq⟩⟩
  · rw [exec_spmMopqWrite, execSpmMopqWrite, State.updTile, hoff, Spm.pushMop_room hlen hroom]
  · rw [exec_spmMopqWrite, execSpmMopqWrite, State.updTile, hoff, Spm.pushMop_full hlen hfull]
  · rw [exec_spmMopqWrite, execSpmMopqWrite, State.updTile, Spm.pushMop, if_pos hbad]
  · rw [exec_mopFill, execMopFill, State.updTile, ← hop, Spm.startMop_head hq hrun]
  · rw [exec_mopCopy, execMopCopy, State.updTile, ← hop, Spm.startMop_head hq hrun]
  · rw [execMopEnd_of_head rfl hq (.inl hrun), Tile.mopEnded]
    simp [hstop, hgood]
  · rw [execMopEnd_of_head rfl hq (.inl hrun), Tile.mopEnded]
    simp [hstop]
  · rw [execMopEnd_of_head rfl hq (.inr hbad), Tile.mopEnded]
    simp [hstop, hbad]
  · rw [exec_pwrUp, execPwrUp, State.tilePower_up_off h, Tile.power_up_off h]
  · rw [exec_pwrUp, execPwrUp, State.tilePower_of_not_off (.inr (by simp [h])), Tile.power_up_retain h]
  · rw [exec_pwrUp, execPwrUp, State.tilePower_of_not_off (.inr (by obtain h | h := h <;> simp [h])), Tile.power_up_already h]
  · rw [exec_pwrRetain, execPwrRetain, State.tilePower_of_not_off (.inl (by decide)), Tile.power_retain h]
  · rw [exec_pwrRetain, execPwrRetain, State.tilePower_of_not_off (.inl (by decide)), Tile.power_retain_busy h]
  · rw [exec_pwrDown, execPwrDown, State.tilePower_of_not_off (.inl (by decide)), Tile.power_down h hk]
  · rw [exec_pwrDown, execPwrDown, State.tilePower_of_not_off (.inl (by decide)), Tile.power_down_busy h]
  · rw [exec_quarterOn, execQuarterOn, if_pos ⟨h, hopen⟩]
  · rw [State.tile_setTile_same hw, Spm.quarterOn_powering h]
    exact ⟨Spm.quarter_setQuarter_same, fun a => by rw [Spm.setQuarter_data, Spm.clearQuarter_get]⟩
  · rw [State.tile_setTile_same hw, Spm.quarterOn_rising h hr]
    exact ⟨Spm.quarter_setQuarter_same, Spm.setQuarter_data⟩
  · rw [exec_spmScrubTick, execSpmScrubTick, State.updTile, if_neg hint, Spm.scrubBanks_of_clean hdev]
  · rw [State.report_tile, State.tile_setTile_same hw]
    exact ⟨Spm.moveRow_repairQ, Spm.moveRow_valid, rfl, Spm.moveRow_retired, rfl, rfl⟩

end Sys2Proof.Machine

/-! PROOFS. The family of hub firmware: its watchdog and restarts, load shedding, telemetry, updates, repairs and the black box (O53). -/

namespace Sys2Proof.Machine

variable {s : State}

/-! ### Restarts and mismatches -/

/-- Hub firmware that runs again tells the physical functions how often it was restarted (R601, R609). -/
theorem execFwRestarted_runs (hdown : s.hub.score.fwUp = false) (hr : s.hub.score.restarts ≠ []) (hm : s.hub.feed.mainGood = true) :
    ∃ u : State, exec .fwRestarted s = .next (u.mbaPfs 0x0102 (s.hrd fwRestarts))
      ∧ u.hub.score = { s.hub.score with fwUp := true, kickAt := s.now } ∧ u = { s with hub := u.hub } :=
  ⟨s.updHub fun h => { h with
      score := { h.score with fwUp := true, kickAt := s.now }
      hb := (List.range 269).foldl (fun t n => if s.timed n then t.put 0 n s.now else t) h.hb
      molt := Table.mapListed {} h.molt (fun _ m => if m.ldies = [] then m else { m with at_ := s.now }) },
    congrArg Host.Outcome.next (if_neg (by simp [hdown, hr, hm])), rfl, rfl⟩

/-- The state after a mismatch of the safety core's two halves: counted, recorded, and its time noted (R602). -/
def State.mismatchNoted (s : State) : State :=
  ((s.inc 264 scoreResets).bb srcScore 0x0802 1 0x1F0 31 0 []).updHub fun h => { h with score := { h.score with mismatchAt := some s.now } }

/-- A first mismatch, or one a second after the last, is noted. -/
theorem execScoreMismatch_notes (hm : s.hub.feed.mainGood = true) (h : ∀ a, s.hub.score.mismatchAt = some a → a + 1000000000 ≤ s.now) :
    exec .scoreMismatch s = .next s.mismatchNoted := by
  rw [exec_scoreMismatch]
  unfold execScoreMismatch
  dsimp only
  rw [if_neg (by simp [hm])]
  cases ha : s.hub.score.mismatchAt with
  | none => rfl
  | some a =>
    rw [if_neg (by simp [Nat.not_lt.2 (h a ha)])]
    rfl

/-- A second mismatch within a second enters cocoon (R602). -/
theorem execScoreMismatch_cocoon {a : Nat} (hm : s.hub.feed.mainGood = true) (ha : s.hub.score.mismatchAt = some a) (h : s.now < a + 1000000000)
    (hp : s.hrd bootPhase ≠ 3) : exec .scoreMismatch s = .next (s.mismatchNoted.cocoon 2 (decide (s.hrd bootImago = 1)) true) := by
  rw [exec_scoreMismatch]
  unfold execScoreMismatch
  dsimp only
  rw [if_neg (by simp [hm]), ha, if_pos (by simp [h, hp])]
  rfl

/-! ### Shedding and telemetry -/

/-- A backlog at the high-water mark sheds most (R599). -/
theorem State.shedNext_full (n : Nat) (h : s.hrd fwHwm ≤ s.hrd fwBacklog) : s.shedNext n = 2 := if_pos h

/-- Level 2 holds while the backlog is at least half the high-water mark (R599). -/
theorem State.shedNext_stays (n : Nat) (h : s.hrd fwBacklog < s.hrd fwHwm) (h2 : s.hrd fwShed = 2) (hb : s.hrd fwHwm ≤ 2 * s.hrd fwBacklog) :
    s.shedNext n = 2 := by
  unfold State.shedNext
  simp [Nat.not_le.2 h, h2, Nat.not_lt.2 hb]

/-- From level 0 a share above 80 % sheds (R599). -/
theorem State.shedNext_from_zero (n : Nat) (h : s.hrd fwBacklog < s.hrd fwHwm) (h0 : s.hrd fwShed = 0) : s.shedNext n = if 80 < n then 1 else 0 := by
  unfold State.shedNext
  simp [Nat.not_le.2 h, h0]

/-- From level 1 a share below 60 % ends the shedding (R599). -/
theorem State.shedNext_from_one (n : Nat) (h : s.hrd fwBacklog < s.hrd fwHwm) (h1 : s.hrd fwShed = 1) : s.shedNext n = if n < 60 then 0 else 1 := by
  unfold State.shedNext
  simp [Nat.not_le.2 h, h1]

/-- A telemetry record has 64 bytes (R604). -/
theorem State.telRecord_length (q : Nat) : (s.telRecord q).length = 64 := by
  unfold State.telRecord
  simp only [List.length_append, bytesLE_length, List.length_replicate]

/-- Telemetry goes into the SRAM as `m` at this beat, and TEL_SEQ reads `q`. -/
def State.telemetryPut (s : State) (m : Table Byte) (q : Nat) : State :=
  (s.updHub fun h => { h with sram := m, score := { h.score with telBeat := s.now } }).hwr telSeq q

section
variable {m : Table Byte} {q : Nat}

@[simp] theorem State.telemetryPut_now : (s.telemetryPut m q).now = s.now := rfl
@[simp] theorem State.telemetryPut_sram : (s.telemetryPut m q).hub.sram = m := rfl
theorem State.telemetryPut_cells {a : State} (h : SameCells a s) : SameCells a (s.telemetryPut m q) := h
theorem State.telemetryPut_edges {a : State} (h : SameEdges a s) : SameEdges a (s.telemetryPut m q) := h
theorem State.telemetryPut_seq (hw : Table.wf 0 s.regs = true) : (s.telemetryPut m q).hrd telSeq = q % 2 ^ 32 := by
  unfold State.telemetryPut
  rw [State.hrd_hwr_same (by exact hw) (by decide)]
  rfl

end

/-- The record of this beat goes to the place of TEL_SEQ, which then advances (R604). -/
theorem execTelemetryWrite_of_up {u : State} (hup : s.hub.score.fwUp = true)
    (hu : u = s.till (s.hub.score.telBeat + 1000000 * s.hrd telPeriod * s.hrd telDecim)) : exec .telemetryWrite s
      = .next (u.telemetryPut (u.hub.sram.putList 0 (0x80000 + 64 * (u.hrd telSeq % 4096)) (u.telRecord ((u.hrd telSeq + 1) % 2 ^ 32)))
        ((u.hrd telSeq + 1) % 2 ^ 32)) := by
  rw [exec_telemetryWrite, execTelemetryWrite, if_neg (by simp [hup]), ← hu]
  unfold State.telemetryPut State.updHub
  dsimp only

/-! ### Firmware updates -/

/-- While slot 0 runs, slot B takes an update (R608). -/
theorem State.updSlot_of_zero {f : FwSlot → FwSlot} (h : s.hrd hubFwSlot = 0) :
    s.updSlot f = s.updHub fun h => { h with bbx := { h.bbx with slotB := f h.bbx.slotB } } := by
  unfold State.updSlot
  simp only [if_pos h]

section
variable (hu : s.updating = true)
include hu

/-- Bytes past the end of the slot are refused (R608). -/
theorem execPldmFwData_past {off : Nat} {bs : List Byte} (h : slotBytes < off + bs.length) : exec (.pldmFwData off bs) s = .next (s.vdm 1 []) := by
  rw [exec_pldmFwData, execPldmFwData, if_neg (by simp [hu]), if_pos h]

/-- Bytes within the slot are written into it (R608). -/
theorem execPldmFwData_writes {off : Nat} {bs : List Byte} (h : off + bs.length ≤ slotBytes) : exec (.pldmFwData off bs) s
    = .next ((s.updSlot fun x => { x with valid := false, img := x.img.putList 0 off bs }).vdm 0 []) := by
  rw [exec_pldmFwData, execPldmFwData, if_neg (by simp [hu]), if_neg (Nat.not_lt.2 h)]

/-- An image whose signatures verify, by a policy that admits it, makes the slot valid (R578, R579). -/
theorem execPldmVerifyComplete_valid {svn : W16} {k : Fin 4} {o : Bool} (h : s.policyOk (s.hrd polMinSvnHub) svn.toNat k.val o = true) :
    exec (.pldmVerifyComplete true svn k o) s
      = .next ((s.updSlot fun x => { x with valid := true, svn := svn, signer := BitVec.ofNat 2 k.val, opSig := o }).vdm 0 []) := by
  rw [exec_pldmVerifyComplete, execPldmVerifyComplete, if_neg (by simp [hu]), h]
  rfl

/-- An image whose signatures do not verify empties the slot (R608). -/
theorem execPldmVerifyComplete_invalid {svn : W16} {k : Fin 4} {o : Bool} :
    exec (.pldmVerifyComplete false svn k o) s = .next ((s.updSlot fun _ => {}).vdm 1 []) := by
  rw [exec_pldmVerifyComplete, execPldmVerifyComplete, if_neg (by simp [hu])]
  rfl

end

/-! ### Repairs -/

/-- The repair of a stack at the front of the inbox leaves it and is recorded; a soft repair goes into the black box too (R269). -/
theorem execRepairReport_stack {n k q c kind : Nat} {l : List CtlPkt} {u v : State} (hup : s.hub.score.fwUp = true)
    (hi : s.hub.inbox = ⟨n, .msg (.stackRepair k q c kind)⟩ :: l) (hu : u = { s with hub := { s.hub with inbox := l } })
    (hv : v = u.mramAppend fun m => { m with stkRep := m.stkRep ++ [stkRec k q c kind] }) : exec .repairReport s
      = .next (if kind = 0 then v.bb srcFw 0x0600 0 (s.siteCode (stackNode k)) (s.partOfSector k) 0 (bytesLE 8 (stkRec k q c kind).toNat) else v) := by
  subst hv hu
  rw [exec_repairReport, execRepairReport]
  simp only [hup, hi, State.updHub, List.find?_cons, List.eraseP_cons]
  rfl

/-! ### Black-box records -/

/-- A field of the hub follows its word. -/
theorem State.hrd_of_reg {t : State} {f : Fd} (h : t.reg 264 f.off = s.reg 264 f.off) : t.hrd f = s.hrd f := congrArg (fld · f.hi f.lo) h

section
variable {r : BbRec} {perm tooMany : Bool}

theorem State.hub_ite_hwr {c : Prop} [Decidable c] {d : Fd} {v : Nat} : (if c then s.hwr d v else s).hub = s.hub := by
  split <;> rfl

theorem State.noteRecord_hub : (s.noteRecord r perm tooMany).hub = s.hub := by
  unfold State.noteRecord
  dsimp only
  rw [State.hub_ite_hwr, State.hwr_hub, State.hub_ite_hwr, State.hub_ite_hwr]
  cases perm <;> rfl

/-- A written record moves BB_SEQ_NEXT on and counts in its region; no other word of these is written (R612). -/
theorem State.reg_noteRecord {o : Nat} (h4 : bbPermFull.off ≠ o) (hC : bbWrapOldest.off ≠ o) (h10 : bbClearSeq.off ≠ o) :
    (s.noteRecord r perm tooMany).reg 264 o
      = (if perm then (s.hwr bbSeqNext (s.hrd bbSeqNext + 1)).inc 264 bbPermCount else s.hwr bbSeqNext (s.hrd bbSeqNext + 1)).reg 264 o := by
  have hw : bbWrapped.off ≠ o := h4
  unfold State.noteRecord
  dsimp only
  rw [State.reg_ite_hwr_ne h10, State.reg_hwr_ne hC, State.reg_ite_hwr_ne hw, State.reg_ite_hwr_ne h4]

variable (hw : Table.wf 0 s.regs = true)
include hw

theorem State.noteRecord_seqNext : (s.noteRecord r perm tooMany).hrd bbSeqNext = (s.hrd bbSeqNext + 1) % 2 ^ 32 := by
  rw [State.hrd_of_reg (State.reg_noteRecord (by decide) (by decide) (by decide))]
  cases perm
  · exact State.hrd_hwr_same hw (by decide)
  · exact (State.hrd_hwr_apart (State.hwr_wf hw) (by decide) (by decide) (by decide)).trans (State.hrd_hwr_same hw (by decide))

theorem State.noteRecord_permCount (h : s.hrd bbPermCount < permMax) : (s.noteRecord r true tooMany).hrd bbPermCount = s.hrd bbPermCount + 1 := by
  rw [State.hrd_of_reg (State.reg_noteRecord (by decide) (by decide) (by decide))]
  refine (State.hrd_hwr_same (State.hwr_wf hw) (by decide)).trans ?_
  have hc : (s.hwr bbSeqNext (s.hrd bbSeqNext + 1)).rd 264 bbPermCount = s.hrd bbPermCount :=
    State.hrd_hwr_apart hw (by decide) (by decide) (by decide)
  rw [hc]
  exact Nat.mod_eq_of_lt (Nat.lt_of_le_of_lt h (by decide))

end

/-- Nothing is written while neither copy can be (R612). -/
theorem State.bbxWrite_unreadable (hh : s.hub.bbx.hub.readable = false) (he : s.hub.bbx.east.readable = false) : s.bbxWrite = s := by
  unfold State.bbxWrite
  dsimp only
  split
  · rfl
  · exact if_pos (by simp [hh, he])

/-- The oldest staged record goes into both copies (R612). -/
theorem State.bbxWrite_both {x y : BbRec} {l : List BbRec} (hs : s.hub.bbx.staged = x :: l) (hh : s.hub.bbx.hub.readable = true)
    (he : s.hub.bbx.east.readable = true) (hy : y = { x with seq := BitVec.ofNat 32 (s.hrd bbSeqNext) }) {perm tooMany : Bool} {old : Option Nat}
    (hp : perm = (decide (x.sev = 2) && decide (s.hrd bbPermCount < permMax))) (ht : tooMany = (!perm && decide (wrapMax ≤ s.hub.bbx.wrapOf.length)))
    (ho : old = if tooMany then s.hub.bbx.wrapOf.head?.map (fun y => y.seq.toNat) else none) :
    s.bbxWrite = ({ s with hub := { s.hub with bbx := { s.hub.bbx with
      staged := l, hub := s.hub.bbx.hub.record y perm old, east := s.hub.bbx.east.record y perm old } } } : State).noteRecord y perm tooMany := by
  subst ho ht hp hy
  unfold State.bbxWrite
  dsimp only
  rw [hs]
  exact (if_neg (by simp [hh])).trans (if_pos (by simp [hh, he]))

theorem Mram.record_permanent {m : Mram} {r : BbRec} {old : Option Nat} (h : m.readable = true) : m.record r true old = { m with perm := m.perm ++ [r] } := by
  unfold Mram.record
  rw [if_neg (by simp [h])]
  rfl

theorem Mram.record_wrapping {m : Mram} {r : BbRec} (h : m.readable = true) : m.record r false none = { m with wrap := m.wrap ++ [r] } := by
  unfold Mram.record
  rw [if_neg (by simp [h])]
  rfl

/-- The fuller copy holds fewer records than a region does where both do. -/
theorem Bbx.wrapOf_length_lt {b : Bbx} {n : Nat} (hh : b.hub.wrap.length < n) (he : b.east.wrap.length < n) : b.wrapOf.length < n := by
  unfold Bbx.wrapOf
  split <;> assumption

/-- Settles O53: each command by its guards, and what the black box's registers read after a record. -/
theorem hubFirmwareTelemetryAndUpdates : Obligations.HubFirmwareTelemetryAndUpdates := by
  unfold Obligations.HubFirmwareTelemetryAndUpdates
  rintro s ⟨hw, -⟩
  refine ⟨fun hup => ⟨?_, ?_, ?_⟩, execFwRestarted_runs, fun hm u hu => ⟨fun ha => ?_, fun a ha hlate => ?_, fun a ha hsoon hp => ?_⟩,
    fun a b c d n u hup hn hu => ?_,
    fun n => ⟨s.shedNext_full n, s.shedNext_stays n, fun hb h0 => ⟨fun h => ?_, fun h => ?_⟩, fun hb h1 => ⟨fun h => ?_, fun h => ?_⟩⟩,
    fun u hup hu => ?_, fun s q => s.telRecord_length q,
    fun hu h0 => ⟨fun _ _ => execPldmFwData_past hu, fun off bs h => ⟨_, execPldmFwData_writes hu h, ?_⟩,
      fun svn k o h => ⟨_, execPldmVerifyComplete_valid hu h, ?_⟩, fun svn k o => ⟨_, execPldmVerifyComplete_invalid hu, ?_⟩, fun b => ?_⟩,
    fun n k q c kind l hup hi => ⟨fun hk => ?_, fun hk => ?_⟩,
    fun x l hs => ⟨fun hh he => congrArg Host.Outcome.next (State.bbxWrite_unreadable hh he), fun y hh he hy => ?_⟩⟩
  · rw [exec_scoreKick, execScoreKick, if_pos hup]
    rfl
  · rw [exec_scoreWatchdogExpiry, execScoreWatchdogExpiry, if_pos hup]
  · rw [exec_fwUnrecoverableError, execFwUnrecoverableError, if_pos hup]
  · rw [hu]
    exact execScoreMismatch_notes hm fun a h => by simp [ha] at h
  · rw [hu]
    exact execScoreMismatch_notes hm fun b h => by simp_all
  · rw [hu]
    exact execScoreMismatch_cocoon hm ha hsoon hp
  · rw [exec_shedLevelEval, execShedLevelEval, if_neg (by simp [hup])]
    subst hn hu
    rfl
  · rw [State.shedNext_from_zero n hb h0, if_pos h]
  · rw [State.shedNext_from_zero n hb h0, if_neg (Nat.not_lt.2 h)]
  · rw [State.shedNext_from_one n hb h1, if_neg (Nat.not_lt.2 h)]
  · rw [State.shedNext_from_one n hb h1, if_pos h]
  · have hseq : u.hrd telSeq = s.hrd telSeq := by rw [hu, State.till_hrd]
    have hsram : u.hub = s.hub := by rw [hu, State.till_hub]
    obtain ⟨hcells, hedges⟩ : SameCells s u ∧ SameEdges s u := by rw [hu]; exact ⟨⟨rfl, rfl, rfl⟩, rfl, rfl, rfl⟩
    have hwu : Table.wf 0 u.regs = true := by rw [hu]; exact hw
    refine ⟨_, execTelemetryWrite_of_up hup hu, ?_⟩
    dsimp only
    rw [State.telemetryPut_seq hwu, Nat.mod_mod, State.telemetryPut_now, State.telemetryPut_sram, hseq, hsram]
    exact ⟨rfl, rfl, rfl, State.telemetryPut_cells hcells, State.telemetryPut_edges hedges⟩
  · rw [State.updSlot_of_zero h0]
    exact ⟨rfl, rfl, rfl⟩
  · rw [State.updSlot_of_zero h0]
    exact ⟨rfl, rfl⟩
  · rw [State.updSlot_of_zero h0]
    exact ⟨rfl, rfl⟩
  · rw [exec_pldmActivateFirmware, execPldmActivateFirmware, if_neg (by simp [hu])]
  · rw [execRepairReport_stack hup hi rfl rfl, if_neg hk]
  · subst hk
    rw [execRepairReport_stack hup hi rfl rfl, if_pos rfl]
    rfl
  · refine ⟨s.bbxWrite, rfl, ?_, ?_, fun hsev hc => ?_, fun hsev hwh hwe => ?_⟩
    · rw [State.bbxWrite_both hs hh he hy rfl rfl rfl, State.noteRecord_hub]
    · rw [State.bbxWrite_both hs hh he hy rfl rfl rfl, State.noteRecord_seqNext (by exact hw)]
      rfl
    · rw [State.bbxWrite_both hs hh he hy (perm := true) (tooMany := false) (old := none) (by simp [hsev, hc]) rfl rfl, State.noteRecord_hub,
        Mram.record_permanent hh, Mram.record_permanent he]
      exact ⟨rfl, rfl, rfl, State.noteRecord_permCount (by exact hw) hc⟩
    · have hroom : ¬wrapMax ≤ s.hub.bbx.wrapOf.length := Nat.not_le.2 (Bbx.wrapOf_length_lt hwh hwe)
      rw [State.bbxWrite_both hs hh he hy (perm := false) (tooMany := false) (old := none) (by rw [decide_eq_false hsev, Bool.false_and])
        (by simp [hroom]) rfl, State.noteRecord_hub,
        Mram.record_wrapping hh, Mram.record_wrapping he]
      exact ⟨rfl, rfl, rfl⟩

end Sys2Proof.Machine

/-! PROOFS. The family of the power regions: eFuses, phases, the states of a region and inrush tokens (O2). -/

namespace Sys2Proof.Machine

variable {s : State}

/-! ### The states of a region -/

@[simp] theorem State.ringPorts_tiles {k : Nat} : (s.ringPorts k).tiles = s.tiles := by
  unfold State.ringPorts
  split
  · exact foldl_frame State.tiles (fun t i => by dsimp only; split <;> rfl) _ _
  · split <;> rfl

@[simp] theorem State.setRegion_tiles {k v : Nat} : (s.setRegion k v).tiles = s.tiles := by
  unfold State.setRegion
  dsimp only
  split
  · rfl
  · rw [State.ringPorts_tiles]
    rfl

@[simp] theorem State.setPower_tiles {n v : Nat} : (s.setPower n v).tiles = s.tiles := by
  unfold State.setPower
  split
  · exact State.setRegion_tiles
  · rfl

@[simp] theorem State.setClocks_tiles {n : Nat} : (s.setClocks n).tiles = s.tiles := by
  unfold State.setClocks
  split
  · rfl
  · exact State.wr_tiles.trans (foldl_frame State.tiles (fun _ _ => State.wr_tiles) _ _)

/-- A die outside every partition, whose quarters are off, falls asleep (R512). -/
theorem execRegionSleep_sleeps {d : DieNo} (hp : s.power d.val = 3) (hfree : 24 ≤ s.partOfNode d.val)
    (hquiet : ∀ i : Fin 16, ∀ q : Fin 4, (s.tile (16 * d.val + i.val)).spm.quarter q.val = .off) :
    exec (.regionSleep d) s = .next (s.setPower d.val 2) := by
  have hall : (List.range 16).all (fun i => (List.range 4).all (fun q =>
      match (s.tile (16 * d.val + i)).spm.quarter q with | .retain => true | .off => true | _ => false)) = true := by
    refine List.all_eq_true.2 fun i hi => List.all_eq_true.2 fun q hq => ?_
    rw [hquiet ⟨i, List.mem_range.1 hi⟩ ⟨q, List.mem_range.1 hq⟩]
  exact congrArg Host.Outcome.next (if_pos ⟨hp, by simp [hfree], hall⟩)

/-- A die of no partition falls to AON and loses what it held (R512). -/
theorem execRegionAon_falls {d : DieNo} (hp : s.power d.val = 2 ∨ s.power d.val = 3) (hfree : 24 ≤ s.partOfNode d.val) :
    exec (.regionAon d) s = .next ((s.dieOff d.val).setPower d.val 1) := congrArg Host.Outcome.next (if_pos ⟨hp, hfree⟩)

/-- A sleeping die wakes to ACTIVE (R512). -/
theorem execRegionWake_wakes {d : DieNo} (hp : s.power d.val = 2) :
    exec (.regionWake d) s = .next ((s.setPower d.val 3).setClocks d.val) := congrArg Host.Outcome.next (if_pos hp)

/-! ### Inrush tokens -/

theorem Fd.ok_of {o hi lo : Nat} (h : lo ≤ hi) (hhi : hi < 32) (ho : o < 2 ^ 24) : Fd.ok ⟨o, hi, lo⟩ = true := by
  unfold Fd.ok
  rw [decide_eq_true h, decide_eq_true hhi, decide_eq_true ho]
  rfl

section
variable {k : Nat} (hk : k < 24)
include hk

theorem scpmI_ok : (scpmI k).ok = true := Fd.ok_of (by decide) (by decide) (by omega)
theorem scpmIlim_ok : (scpmIlim k).ok = true := Fd.ok_of (by decide) (by decide) (by omega)
theorem scpmEfuse_ok : (scpmEfuse k).ok = true := Fd.ok_of (by decide) (by decide) (by omega)
theorem scpmRsv_ok : (scpmRsv k).ok = true := Fd.ok_of (by decide) (by decide) (by omega)
theorem scpmQdepth_ok : (scpmQdepth k).ok = true := Fd.ok_of (by decide) (by decide) (by omega)

/-- The words that follow the queue and the tokens are those two fields alone. -/
theorem State.noteScpm_hrd {f : Fd} (hw : Table.wf 0 s.regs = true) (hf : f.ok = true) (hr : (scpmRsv k).apart f = true)
    (hq : (scpmQdepth k).apart f = true) : (s.noteScpm k).hrd f = s.hrd f :=
  (State.hrd_hwr_apart (State.hwr_wf hw) (scpmQdepth_ok hk) hf hq).trans (State.hrd_hwr_apart hw (scpmRsv_ok hk) hf hr)

variable (hw : Table.wf 0 s.regs = true)
include hw

theorem State.noteScpm_current : (s.noteScpm k).hrd (scpmI k) = s.hrd (scpmI k) :=
  State.noteScpm_hrd hk hw (scpmI_ok hk) (by simp [Fd.apart, scpmRsv, scpmI]) (by simp [Fd.apart, scpmQdepth, scpmI])
theorem State.noteScpm_limit : (s.noteScpm k).hrd (scpmIlim k) = s.hrd (scpmIlim k) :=
  State.noteScpm_hrd hk hw (scpmIlim_ok hk) (by simp [Fd.apart, scpmRsv, scpmIlim]) (by simp [Fd.apart, scpmQdepth, scpmIlim])
theorem State.noteScpm_efuse : (s.noteScpm k).hrd (scpmEfuse k) = s.hrd (scpmEfuse k) :=
  State.noteScpm_hrd hk hw (scpmEfuse_ok hk) (by simp [Fd.apart, scpmRsv, scpmEfuse]) (by simp [Fd.apart, scpmQdepth, scpmEfuse])

end

@[simp] theorem State.noteScpm_hub {k : Nat} : (s.noteScpm k).hub = s.hub := rfl
theorem State.noteScpm_cells {a : State} {k : Nat} (h : SameCells a s) : SameCells a (s.noteScpm k) := h
theorem State.noteScpm_edges {a : State} {k : Nat} (h : SameEdges a s) : SameEdges a (s.noteScpm k) := h

/-- The head waits while it does not fit under 90 % of the limit (R521). -/
theorem State.grantHeads_waits {k n : Nat} {r : Inrush} {l : List Inrush} (hq : (s.hub.scpm.get {} k).queue = r :: l)
    (h : 90 * s.hrd (scpmIlim k) < s.hrd (scpmI k) * 100 + (s.hub.scpm.get {} k).rsv + r.ma) : s.grantHeads k (n + 1) = s := by
  unfold State.grantHeads
  dsimp only
  rw [hq]
  exact if_pos h

/-- The sector's queue and tokens set to `x`. -/
def State.putScpm (s : State) (k : Nat) (x : Scpm) : State := s.updHub fun h => { h with scpm := h.scpm.put {} k x }

theorem State.putScpm_get {k : Nat} {x : Scpm} (hw : Table.wf {} s.hub.scpm = true) : (s.putScpm k x).hub.scpm.get {} k = x := Table.get_put_same hw _ _

/-- A request that reaches an empty queue and does not fit waits there (R520, R521). -/
theorem State.inrushAsk_waits {k : Nat} {cell : W16} {cls : InrushClass} {r : Inrush} (hk : k < 24) (hwr : Table.wf 0 s.regs = true)
    (hw : Table.wf {} s.hub.scpm = true) (he : s.hrd (scpmEfuse k) = 0) (hq : (s.hub.scpm.get {} k).queue = [])
    (hr : r = { cell := cell, cls := cls, unit := 0, ma := classMa cls, at_ := s.now, slow := false })
    (hfit : 90 * s.hrd (scpmIlim k) < s.hrd (scpmI k) * 100 + (s.hub.scpm.get {} k).rsv + classMa cls) :
    s.inrushAsk k cell cls 0 = (s.putScpm k { s.hub.scpm.get {} k with queue := [r] }).noteScpm k := by
  unfold State.inrushAsk
  dsimp only
  rw [if_neg (by omega), hq, ← hr]
  show ((s.putScpm k { s.hub.scpm.get {} k with queue := [r] }).noteScpm k).grantHeads k (0 + 1) = _
  have hget := State.putScpm_get (k := k) (x := { s.hub.scpm.get {} k with queue := [r] }) hw
  have hwp : Table.wf 0 (s.putScpm k { s.hub.scpm.get {} k with queue := [r] }).regs = true := hwr
  refine State.grantHeads_waits (r := r) (l := []) ?_ ?_
  · rw [State.noteScpm_hub, hget]
  · rw [State.noteScpm_limit hk hwp, State.noteScpm_current hk hwp, State.noteScpm_hub, hget, hr]
    exact hfit

/-- With an empty queue a grant reads the bus current and serves nobody (R521). -/
theorem execInrushGrant_empty {k : StackNo} {i : BitVec 12} (hq : (s.hub.scpm.get {} k.val).queue = []) :
    exec (.inrushGrant k i) s = .next (s.hwr (scpmI k.val) i.toNat) := by
  rw [exec_inrushGrant, execInrushGrant, hq]
  rfl

/-- A sector's one request that waited 1 ms ramps slowly (R522). -/
theorem execInrushWaitExpiry_one {k : StackNo} {r : Inrush} (hq : (s.hub.scpm.get {} k.val).queue = [r]) :
    exec (.inrushWaitExpiry k) s = .next ((((s.till (r.at_ + 1000000)).putScpm k.val { s.hub.scpm.get {} k.val with
      queue := [], granted := (s.hub.scpm.get {} k.val).granted ++ [{ r with ma := r.ma / 4, slow := true }] }).inc 264 (scpmSlow k.val)).noteScpm k.val) := by
  rw [exec_inrushWaitExpiry]
  unfold execInrushWaitExpiry
  dsimp only
  rw [hq]
  rfl

/-- A stack that trains leaves the hub. -/
theorem State.trainStack_hub {k : Nat} : (s.trainStack k).hub = s.hub := by
  unfold State.trainStack
  rfl

/-- The end of a ramp releases the cell's oldest token; with an empty queue nobody is granted one (R521). -/
theorem execRampEnd_releases {k : StackNo} {cell : W16} {i : Nat} (hq : (s.hub.scpm.get {} k.val).queue = [])
    (hi : (s.hub.scpm.get {} k.val).granted.findIdx? (fun r => r.cell == cell) = some i) :
    ∃ t, exec (.rampEnd k cell) s = .next t
      ∧ t.hub = (s.putScpm k.val { s.hub.scpm.get {} k.val with granted := (s.hub.scpm.get {} k.val).granted.eraseIdx i }).hub := by
  rw [exec_rampEnd]
  unfold execRampEnd
  dsimp only
  rw [hi, hq]
  refine ⟨_, rfl, ?_⟩
  dsimp only
  split
  · exact State.trainStack_hub
  · rfl

/-! ### A sector's eFuse -/

/-- What a power-down of regions leaves alone: the registers and what boot knows. -/
def State.bootRegs (s : State) : Table W32 × Boot := (s.regs, s.hub.boot)

@[simp] theorem State.ringPorts_regs {k : Nat} : (s.ringPorts k).regs = s.regs := by
  unfold State.ringPorts
  split
  · exact foldl_frame State.regs (fun t i => by dsimp only; split <;> rfl) _ _
  · split <;> rfl

@[simp] theorem State.setRegion_regs {k v : Nat} : (s.setRegion k v).regs = s.regs := by
  unfold State.setRegion
  dsimp only
  split
  · rfl
  · rw [State.ringPorts_regs]
    rfl

theorem State.setRegion_bootRegs {k v : Nat} : (s.setRegion k v).bootRegs = s.bootRegs := by
  unfold State.bootRegs
  rw [State.setRegion_regs, State.setRegion_hub]

theorem State.setPower_bootRegs {n v : Nat} : (s.setPower n v).bootRegs = s.bootRegs := by
  unfold State.setPower
  split
  · exact State.setRegion_bootRegs
  · rfl

theorem State.updTile_bootRegs {t : Nat} {f : Tile → Tile} : (s.updTile t f).bootRegs = s.bootRegs := rfl
theorem State.updNode_bootRegs {n : Nat} {f : Node → Node} : (s.updNode n f).bootRegs = s.bootRegs := rfl
theorem State.updStack_bootRegs {k : Nat} {f : Stack → Stack} : (s.updStack k f).bootRegs = s.bootRegs := rfl

theorem State.dieOff_bootRegs {n : Nat} : (s.dieOff n).bootRegs = s.bootRegs := by
  refine Eq.trans ?_ (State.setPower_bootRegs (n := n) (v := 0))
  unfold State.dieOff
  dsimp only
  split
  · exact (foldl_frame State.bootRegs (fun _ _ => State.updTile_bootRegs) _ _).trans State.updNode_bootRegs
  · split
    · exact State.updStack_bootRegs
    · rfl

theorem State.cutSite_bootRegs {p : Nat} : (s.cutSite p).bootRegs = s.bootRegs := by
  refine foldl_frame State.bootRegs (fun t q => ?_) _ _
  dsimp only
  split
  · rfl
  · exact foldl_frame State.bootRegs (fun t e => by split <;> rfl) _ _

/-- A record touches the black box and its count of drops alone. -/
theorem State.bb_boot {src code sev site part cause : Nat} {vals : List Byte} : (s.bb src code sev site part cause vals).hub.boot = s.hub.boot := by
  unfold State.bb
  dsimp only
  split
  · rw [State.sat_hub]
    rfl
  · rfl

/-- A sector's eFuse before the boot's end: its register shows it, its tokens end, and it is dark (R494, R519). -/
theorem execSectorEfuseTrip_boot {k : StackNo} (hw : Table.wf 0 s.regs = true) (he : s.hrd (scpmEfuse k.val) = 0) (hi : s.hrd bootImago = 0) :
    ∃ t, exec (.sectorEfuseTrip k) s = .next t ∧ t.hrd (scpmEfuse k.val) = 1 ∧ t.hub.boot.dark = s.hub.boot.dark ++ [k.val] := by
  rw [exec_sectorEfuseTrip]
  unfold execSectorEfuseTrip
  extract_lets s0
  rw [if_neg (by omega), if_neg (by omega)]
  have hfold : ((List.range 12).foldl (fun s i => match s.nodeAt (12 * k.val + i) with
      | some n => ((s.setRegion (12 * k.val + i) 0).cutSite (12 * k.val + i)).dieOff n
      | none => (s.setRegion (12 * k.val + i) 0).cutSite (12 * k.val + i)) s0).bootRegs = s0.bootRegs := by
    refine foldl_frame State.bootRegs (fun t i => ?_) _ _
    split
    · rw [State.dieOff_bootRegs, State.cutSite_bootRegs, State.setRegion_bootRegs]
    · rw [State.cutSite_bootRegs, State.setRegion_bootRegs]
  generalize (List.range 12).foldl _ s0 = u at hfold ⊢
  obtain ⟨hregs, hboot⟩ := Prod.mk.inj hfold
  have hdark : s0.hub.boot = s.hub.boot := State.bb_boot
  have hefuse : s0.hrd (scpmEfuse k.val) = 1 := calc
    s0.hrd (scpmEfuse k.val) = ((s.hwr (scpmEfuse k.val) 1).dropInrush k.val (fun _ => true)).hrd (scpmEfuse k.val) :=
      State.hrd_of_reg (State.reg_bb (by simp [bbDrops, scpmEfuse]; omega))
    _ = (s.hwr (scpmEfuse k.val) 1).hrd (scpmEfuse k.val) := State.noteScpm_efuse k.isLt (by exact State.hwr_wf hw)
    _ = 1 := by
      rw [State.hrd_hwr_same hw (scpmEfuse_ok k.isLt)]
      simp [scpmEfuse]
  refine ⟨_, rfl, (State.hrd_congr (s := s0) hregs _).trans hefuse, ?_⟩
  rw [← hdark, ← hboot]
  rfl

/-! ### Frames: what leaves the hub -/

/-- What both branches of a choice give, the choice gives. -/
theorem ite_frame {σ γ : Type} (g : σ → γ) {v : γ} {c : Prop} [Decidable c] {x y : σ} (hx : g x = v) (hy : g y = v) :
    g (if c then x else y) = v := by
  split <;> assumption

@[simp] theorem State.msix_hub {f vec : Nat} : (s.msix f vec).hub = s.hub := ite_frame State.hub rfl rfl

@[simp] theorem State.sendReply_hub {f q opc : Nat} {tag code : W16} {final event vf1 : Bool} {data : List Byte} :
    (s.sendReply f q tag code final event opc vf1 data).hub = s.hub := by
  unfold State.sendReply
  extract_lets p x i n r c lim s1
  have h1 : s1.hub = s.hub := rfl
  exact ite_frame State.hub rfl (ite_frame State.hub (State.msix_hub.trans h1) h1)

@[simp] theorem State.outWake_hub {f : Nat} : (s.outWake f).hub = s.hub :=
  ite_frame State.hub (ite_frame State.hub rfl rfl) (ite_frame State.hub State.msix_hub rfl)

@[simp] theorem State.mbaSend_hub {f : Nat} {msg : List W32} : (s.mbaSend f msg).hub = s.hub := by
  unfold State.mbaSend
  refine ite_frame State.hub rfl ?_
  extract_lets p s1 s2
  have h1 : s1.hub = s.hub := foldl_frame State.hub (fun _ _ => State.wr_hub) _ _
  clear_value s1
  exact State.outWake_hub.trans h1

@[simp] theorem State.mbaOut_hub {f : Nat} {msg : List W32} : (s.mbaOut f msg).hub = s.hub := ite_frame State.hub State.mbaSend_hub rfl

@[simp] theorem State.mbaPfs_hub {code arg : Nat} : (s.mbaPfs code arg).hub = s.hub := foldl_frame State.hub (fun _ _ => State.mbaOut_hub) _ _

@[simp] theorem State.mapTiles_hub {l : List Nat} {f : Nat → Tile → Tile} : (s.mapTiles l f).hub = s.hub := foldl_frame State.hub (fun _ _ => by rfl) _ _
@[simp] theorem State.mapStacks_hub {l : List Nat} {f : Stack → Stack} : (s.mapStacks l f).hub = s.hub := foldl_frame State.hub (fun _ _ => by rfl) _ _
@[simp] theorem State.mapNodes_hub {l : List Nat} {f : Node → Node} : (s.mapNodes l f).hub = s.hub := foldl_frame State.hub (fun _ _ => by rfl) _ _

@[simp] theorem State.noteInvalid_hub {p n : Nat} : (s.noteInvalid p n).hub = s.hub := rfl

@[simp] theorem State.cutSite_hub {p : Nat} : (s.cutSite p).hub = s.hub := by
  refine foldl_frame State.hub (fun t q => ?_) _ _
  dsimp only
  split
  · rfl
  · exact foldl_frame State.hub (fun _ _ => by exact ite_frame State.hub rfl rfl) _ _

@[simp] theorem State.rerouteOf_hub {l : List Nat} : (s.rerouteOf l).hub = s.hub :=
  foldl_frame State.hub (fun _ _ => by exact foldl_frame State.hub (fun _ _ => by rfl) _ _) _ _

@[simp] theorem State.railsReport_hub {p : Nat} {self : Bool} : (s.railsReport p self).hub = s.hub :=
  foldl_frame State.hub (fun _ _ => by exact foldl_frame State.hub (fun _ _ => by exact ite_frame State.hub rfl rfl) _ _) _ _

@[simp] theorem State.unbindKeys_hub {p : Nat} : (s.unbindKeys p).hub = s.hub :=
  (foldl_frame State.hub (fun _ _ => by rfl) _ _).trans (foldl_frame State.hub (fun _ _ => by exact ite_frame State.hub rfl rfl) _ _)

@[simp] theorem State.unmapPart_hub {p : Nat} : (s.unmapPart p).hub = s.hub := foldl_frame State.hub (fun _ _ => by rfl) _ _

/-! #### A partition's program entered, its trees and its clock -/

@[simp] theorem State.powerWindows_hub {p : Nat} : (s.powerWindows p).hub = s.hub := State.mapTiles_hub

@[simp] theorem State.writeRoutes_hub {p : Nat} : (s.writeRoutes p).hub = s.hub :=
  (foldl_frame State.hub (fun _ _ => by split <;> rfl) _ _).trans State.mapNodes_hub

@[simp] theorem State.writeTileXd_hub {p t : Nat} : (s.writeTileXd p t).hub = s.hub := foldl_frame State.hub (fun _ _ => by rfl) _ _
@[simp] theorem State.writeStackXd_hub {p k rank : Nat} : (s.writeStackXd p k rank).hub = s.hub := rfl

@[simp] theorem State.writeExchange_hub {p : Nat} : (s.writeExchange p).hub = s.hub :=
  State.mapNodes_hub.trans ((foldl_frame State.hub (fun _ _ => State.writeStackXd_hub) _ _).trans
    (foldl_frame State.hub (fun _ _ => State.writeTileXd_hub) _ _))

@[simp] theorem State.enterProgram_hub {p : Nat} : (s.enterProgram p).hub = s.hub := by
  unfold State.enterProgram
  rw [State.writeExchange_hub, State.writeRoutes_hub, State.powerWindows_hub]

@[simp] theorem State.setChannel_hub {ch dom : Nat} {members : List (Nat × Nat)} {all : List Nat} : (s.setChannel ch dom members all).hub = s.hub := by
  unfold State.setChannel
  split
  · rfl
  · exact foldl_frame State.hub (fun _ _ => by rfl) _ _

@[simp] theorem State.stepChannel_hub {p : Nat} : (s.stepChannel p).hub = s.hub := State.setChannel_hub

@[simp] theorem State.writeSync_hub {p : Nat} : (s.writeSync p).hub = s.hub :=
  (foldl_frame State.hub (fun _ _ => State.setChannel_hub) _ _).trans (State.stepChannel_hub.trans State.mapNodes_hub)

@[simp] theorem State.twinLead_hub {p : Nat} : (s.twinLead p).hub = s.hub := ite_frame State.hub rfl rfl

@[simp] theorem State.resync_hub {p : Nat} : (s.resync p).hub = s.hub := by
  unfold State.resync
  dsimp only
  rw [State.twinLead_hub, State.updPart_hub, State.updNode_hub, State.mapNodes_hub, State.writeSync_hub]

/-! #### Windows closed and opened, results sent -/

@[simp] theorem State.issueSeg_hub {n : Nat} {src : Src} {tgt : Tgt} {g : Segment} {why : IssWhy} : (s.issueSeg n src tgt g why).hub = s.hub :=
  ite_frame State.hub rfl (ite_frame State.hub rfl rfl)

@[simp] theorem State.sendResult_hub {k : Nat} {pga : Pga} {tag : W16} {bs : List Byte} : (s.sendResult k pga tag bs).hub = s.hub := by
  unfold State.sendResult
  dsimp only
  split
  · rfl
  · refine ite_frame State.hub rfl ?_
    split <;> exact State.issueSeg_hub

@[simp] theorem State.snCloseLost_hub {k : Nat} : (s.snCloseLost k).hub = s.hub :=
  foldl_frame State.hub (fun _ _ => by split <;> simp only [State.sendResult_hub]) _ _

@[simp] theorem State.snAbandon_hub {k : Nat} : (s.snAbandon k).hub = s.hub := by
  unfold State.snAbandon
  dsimp only
  split
  · exact State.snCloseLost_hub
  · exact State.sendResult_hub.trans State.snCloseLost_hub

@[simp] theorem State.partCloseWindows_hub {p : Nat} : (s.partCloseWindows p).hub = s.hub := State.mapStacks_hub.trans State.mapTiles_hub

@[simp] theorem State.openScheduled_hub {p : Nat} : (s.openScheduled p).hub = s.hub := by
  refine foldl_frame State.hub (fun t w => ?_) _ _
  dsimp only
  refine ite_frame State.hub ?_ rfl
  rw [State.mapStacks_hub, State.mapTiles_hub, foldl_frame State.hub (fun _ _ => State.updStack_hub), State.mapTiles_hub, State.till_hub]

@[simp] theorem State.enterCode_hub {p r : Nat} {start : Bool} : (s.enterCode p r start).hub = s.hub := State.mapTiles_hub

/-! ### Frames: what leaves the regions, the eFuses and the phases -/

/-- The states of the regions, the open eFuses and the failed phases. -/
def State.supply (s : State) : Table Nat × List Nat × List (Nat × Nat × Nat) := (s.hub.region, s.hub.fuseOpen, s.hub.phases)

theorem State.supply_congr {t : State} (h : t.hub = s.hub) : t.supply = s.supply := by
  unfold State.supply
  rw [h]

@[simp] theorem State.sat_supply {p : Nat} {f : Fd} : (s.sat p f).supply = s.supply := State.supply_congr State.sat_hub
@[simp] theorem State.sendReply_supply {f q opc : Nat} {tag code : W16} {final event vf1 : Bool} {data : List Byte} :
    (s.sendReply f q tag code final event opc vf1 data).supply = s.supply := State.supply_congr State.sendReply_hub
@[simp] theorem State.mbaPfs_supply {code arg : Nat} : (s.mbaPfs code arg).supply = s.supply := State.supply_congr State.mbaPfs_hub
@[simp] theorem State.editAnat_supply {f : Anat → Anat} : (s.editAnat f).supply = s.supply := rfl
@[simp] theorem State.updPart_supply {p : Nat} {g : Part → Part} : (s.updPart p g).supply = s.supply := rfl

@[simp] theorem State.bb_supply {src code sev site part cause : Nat} {vals : List Byte} : (s.bb src code sev site part cause vals).supply = s.supply :=
  ite_frame State.supply (State.sat_supply.trans rfl) rfl

@[simp] theorem State.eventTo_supply {e : Event} {f : Nat} : (s.eventTo e f).supply = s.supply := by
  unfold State.eventTo
  dsimp only
  split
  · exact State.sendReply_supply.trans rfl
  · exact ite_frame State.supply rfl rfl

@[simp] theorem State.event_supply {kind detail p : Nat} {vf : Bool} : (s.event kind detail p vf).supply = s.supply :=
  foldl_frame State.supply (fun _ _ => State.eventTo_supply) _ _

@[simp] theorem State.raiseReason_supply {n : Nat} : (s.raiseReason n).supply = s.supply := by
  unfold State.raiseReason
  refine ite_frame State.supply rfl ?_
  extract_lets s1 s2 s3 s4
  have h2 : s2.supply = s.supply := ite_frame State.supply rfl rfl
  have h3 : s3.supply = s.supply := ite_frame State.supply h2 h2
  exact State.mbaPfs_supply.trans (State.event_supply.trans (State.bb_supply.trans h3))

@[simp] theorem State.checkSpares_supply : s.checkSpares.supply = s.supply := ite_frame State.supply State.raiseReason_supply rfl

@[simp] theorem State.endCmd_supply {c : HostCmd} {code : W16} {data : List Byte} : (s.endCmd c code data).supply = s.supply := by
  unfold State.endCmd
  extract_lets s1 s2 s3 s4
  have h3 : s3.supply = s.supply := ite_frame State.supply rfl rfl
  have h4 : s4.supply = s.supply := ite_frame State.supply h3 h3
  exact ite_frame State.supply h4 (State.sendReply_supply.trans h4)

@[simp] theorem State.stopped_supply {p why : Nat} : (s.stopped p why).supply = s.supply :=
  State.event_supply.trans (foldl_frame State.supply (fun _ _ => by exact ite_frame State.supply State.endCmd_supply State.endCmd_supply) _ _)

@[simp] theorem State.reroute_supply : s.reroute.supply = s.supply := by
  unfold State.reroute
  extract_lets l
  have h : (s.rerouteOf l).supply = s.supply := State.supply_congr State.rerouteOf_hub
  clear_value l
  generalize s.rerouteOf l = u at h ⊢
  exact h

@[simp] theorem State.rerouteLate_supply : s.rerouteLate.supply = s.supply := ite_frame State.supply State.reroute_supply rfl

@[simp] theorem State.haltNow_supply {p why : Nat} : (s.haltNow p why).supply = s.supply :=
  State.stopped_supply.trans (State.rerouteLate_supply.trans State.updPart_supply)

@[simp] theorem State.strand_supply {k own : Nat} : (s.strand k own).supply = s.supply := foldl_frame State.supply (fun _ _ => State.haltNow_supply) _ _

@[simp] theorem State.portLost_supply {q : Nat} : (s.portLost q).supply = s.supply :=
  ite_frame State.supply (State.raiseReason_supply.trans rfl) (State.raiseReason_supply.trans rfl)

@[simp] theorem State.softAppend_supply {r : BitVec 64} : (s.softAppend r).supply = s.supply := by
  unfold State.softAppend
  extract_lets add full s1 s2
  have h2 : s2.supply = s.supply := ite_frame State.supply rfl rfl
  exact ite_frame State.supply (State.raiseReason_supply.trans h2) h2

@[simp] theorem State.abortCmds_supply {p : Nat} {keep : HostCmd → Bool} : (s.abortCmds p keep).supply = s.supply :=
  State.updPart_supply.trans (foldl_frame State.supply (fun _ _ => State.endCmd_supply) _ _)

@[simp] theorem State.haltRequest_supply {p why : Nat} : (s.haltRequest p why).supply = s.supply := by
  unfold State.haltRequest
  split <;> rfl

@[simp] theorem State.dropInrush_supply {k : Nat} {gone : W16 → Bool} : (s.dropInrush k gone).supply = s.supply := rfl

@[simp] theorem State.stackDegraded_supply {k : Nat} : (s.stackDegraded k).supply = s.supply := by
  unfold State.stackDegraded
  extract_lets st p s1 s2 s3 s4
  have h1 : s1.supply = s.supply := State.editAnat_supply
  have h2 : s2.supply = s.supply := ite_frame State.supply h1 h1
  have h3 : s3.supply = s.supply := State.event_supply.trans (State.haltRequest_supply.trans h2)
  have h4 : s4.supply = s.supply := ite_frame State.supply (State.bb_supply.trans h3) h3
  exact ite_frame State.supply h1 (State.raiseReason_supply.trans h4)

@[simp] theorem State.mbbFree_supply {k m : Nat} : (s.mbbFree k m).supply = s.supply := rfl

@[simp] theorem State.mbbFreeTiles_supply {p : Nat} : (s.mbbFreeTiles p).supply = s.supply :=
  foldl_frame State.supply (fun _ _ => by exact foldl_frame State.supply (fun _ _ => by exact ite_frame State.supply State.mbbFree_supply rfl) _ _) _ _

@[simp] theorem State.partTileReset_supply {p : Nat} : (s.partTileReset p).supply = s.supply := by
  unfold State.partTileReset
  dsimp only
  rw [State.supply_congr State.mapNodes_hub, State.supply_congr State.mapTiles_hub, State.mbbFreeTiles_supply]

@[simp] theorem State.partCloseAll_supply {p : Nat} {re : Bool} : (s.partCloseAll p re).supply = s.supply := by
  unfold State.partCloseAll
  extract_lets s1 s2 s3 blocks s4 s5 s6
  have h1 : s1.hub = s.hub :=
    State.mapTiles_hub.trans (State.partCloseWindows_hub.trans (foldl_frame State.hub (fun _ _ => State.snAbandon_hub) _ _))
  have h3 : s3.hub = s.hub := State.mapNodes_hub.trans (State.mapStacks_hub.trans h1)
  have h4 : s4.supply = s3.supply := rfl
  have h5 : s5.hub = s4.hub := foldl_frame State.hub (fun _ _ => by exact foldl_frame State.hub (fun _ _ => by rfl) _ _) _ _
  have h6 : s6.hub = s5.hub := foldl_frame State.hub (fun _ _ => by rfl) _ _
  exact State.updPart_supply.trans ((State.supply_congr (h6.trans h5)).trans (h4.trans (State.supply_congr h3)))

@[simp] theorem State.restore_supply {p : Nat} {molt : Bool} : (s.restore p molt).supply = s.supply := by
  unfold State.restore
  extract_lets c seed s0 s1 s2
  have h1 : s1.supply = s.supply :=
    State.partTileReset_supply.trans (ite_frame State.supply State.partCloseAll_supply (State.supply_congr State.partCloseWindows_hub))
  exact (State.supply_congr (State.enterCode_hub.trans (State.openScheduled_hub.trans State.mapTiles_hub))).trans h1

/-- A partition that runs goes on in the variant whose key is the invalid set `bad`, or halts SHRUNK (R491). -/
def State.goOnWithout (s : State) (p : Nat) (bad : List Nat) : State :=
  match (s.part p).img with
  | none => s.haltNow p 5
  | some z =>
    match z.variants.findIdx? (fun v => v.key == bad) with
    | none => s.haltNow p 5
    | some i =>
      let v := z.variants.getD i z.base
      let r := (v.ckpts.find? (fun c => fld c.1 15 0 == (s.part p).ckpt.id.toNat)).map (fun c => fld c.1 25 16)
      let s1 := (s.updPart p (fun x => { x with variant := i + 1, ckpt := { x.ckpt with rec_ := r.getD 0 } })).enterProgram p
      (((((s1.hwr (fpVariant p) 1).hwr (ecVariant p) 1).setSch p .rollback).rerouteLate).resync p).restore p true

theorem State.goOnWithout_supply {p : Nat} {bad : List Nat} : (s.goOnWithout p bad).supply = s.supply := by
  unfold State.goOnWithout
  split
  · exact State.haltNow_supply
  · split
    · exact State.haltNow_supply
    · exact State.restore_supply.trans ((State.supply_congr State.resync_hub).trans (State.rerouteLate_supply.trans
        (State.supply_congr (s := s) State.enterProgram_hub)))

@[simp] theorem State.shrink_supply {n p : Nat} : (s.shrink n p).supply = s.supply := by
  unfold State.shrink
  extract_lets site s1 s2 s3 s4 bad x
  have h2 : s2.supply = s.supply := (State.supply_congr State.noteInvalid_hub).trans (State.softAppend_supply.trans rfl)
  have h3 : s3.supply = s.supply := State.event_supply.trans (State.bb_supply.trans h2)
  have h4 : s4.supply = s.supply := State.reroute_supply.trans (State.raiseReason_supply.trans h3)
  have hrun : (s4.goOnWithout p bad).supply = s.supply := State.goOnWithout_supply.trans h4
  clear_value s4
  split
  · exact hrun
  · exact hrun
  · exact hrun
  · exact h4

/-! ### A port die's region -/

/-- A loss noted (R482, R493), before what its die-cell's kind asks for. -/
def State.lossNoted (s : State) (n cause : Nat) : State :=
  let p := s.partOfNode n
  let s1 := s.updHub (fun h => { h with lost := h.lost ++ [n], probe := h.probe.put 0 n 0 })
  let s2 := ((s1.hwr fltLastPsite (s.siteCode n)).hwr fltLastCause cause).hwr fltLastPart p
  let s3 := if cause = 1 then s2.inc 264 fltHbLost else s2
  match s.siteOf n with
  | some k => s3.strand k p
  | none => s3

theorem State.lossNoted_supply {n cause : Nat} : (s.lossNoted n cause).supply = s.supply := by
  unfold State.lossNoted
  extract_lets p s1 s2 s3
  have h3 : s3.supply = s.supply := ite_frame State.supply rfl rfl
  clear_value s3
  split
  · exact State.strand_supply.trans h3
  · exact h3

/-- A port die that is lost is down; no region, eFuse or phase changes (R495). -/
theorem State.declareLost_port_supply {n cause : Nat} (h : 265 ≤ n) : (s.declareLost n cause).supply = s.supply := by
  unfold State.declareLost
  refine ite_frame State.supply rfl ?_
  extract_lets p s1 s2 s3 s4
  have h4 : s4.supply = s.supply := State.lossNoted_supply (n := n) (cause := cause)
  clear_value s4
  rw [if_neg (by omega), if_neg (by omega), if_neg (by omega)]
  exact State.portLost_supply.trans h4

/-- A port die's region goes off last, after its loss is declared or noted for boot (R516). -/
theorem State.regionOff_port {key : Nat} (h : 288 ≤ key) (h2 : key < 292) : ∃ u : State, s.regionOff key = u.setRegion key 0 ∧ u.supply = s.supply := by
  refine ⟨_, (if_neg (by omega)).trans (if_pos h), ite_frame State.supply (State.declareLost_port_supply (by omega)) rfl⟩

/-- A port die's open eFuse noted and recorded (R517). -/
def State.fuseNoted (s : State) (key : Nat) : State :=
  (s.updHub fun h => { h with fuseOpen := h.fuseOpen ++ [key] }).bb srcFw 0x0305 2 (0x1F1 + (key - 288)) 31 0 []

theorem State.fuseNoted_supply {key : Nat} : (s.fuseNoted key).supply = (s.hub.region, s.hub.fuseOpen ++ [key], s.hub.phases) := State.bb_supply

/-- A port die's eFuse is noted, and its region is switched off (R517). -/
theorem execSiteEfuseTrip_port {key : Fin 293} (hon : s.hub.region.get 0 key.val ≠ 0) (h : 288 ≤ key.val) (h2 : key.val < 292) :
    exec (.siteEfuseTrip key) s = .next ((s.fuseNoted key.val).regionOff key.val) := by
  rw [exec_siteEfuseTrip]
  unfold execSiteEfuseTrip
  dsimp only
  have hport : ¬key.val < 288 := by omega
  have hhub : ¬key.val = 292 := by omega
  rw [if_neg hon, if_neg hport, if_neg hport, if_neg hport, if_neg hhub]
  rfl

/-! ### A region switched off leaves the failed phases -/

/-- The rails' phases that failed. -/
def State.failed (s : State) : List (Nat × Nat × Nat) := s.hub.phases

theorem State.failed_of_supply {t : State} (h : t.supply = s.supply) : t.failed = s.failed := congrArg (fun x => x.2.2) h
theorem State.failed_of_hub {t : State} (h : t.hub = s.hub) : t.failed = s.failed := congrArg Hub.phases h

@[simp] theorem State.setRegion_failed {k v : Nat} : (s.setRegion k v).failed = s.failed := by rw [State.failed, State.setRegion_hub, State.failed]

@[simp] theorem State.setPower_failed {n v : Nat} : (s.setPower n v).failed = s.failed := by
  unfold State.setPower
  split
  · exact State.setRegion_failed
  · rfl

@[simp] theorem State.dieOff_failed {n : Nat} : (s.dieOff n).failed = s.failed := by
  unfold State.dieOff
  extract_lets s2
  have h2 : s2.failed = s.failed := State.setPower_failed
  have hdie : ((List.range 16).foldl (fun s i => s.updTile (16 * n + i) (fun x => { ({} : Tile) with id := x.id, w := x.w.lost }))
      (s2.updNode n (fun x => { x with spareSpm := {}, spareXe := {} }))).hub = s2.hub := foldl_frame State.hub (fun _ _ => State.updTile_hub) _ _
  exact ite_frame State.failed ((State.failed_of_hub hdie).trans h2) (ite_frame State.failed h2 h2)

@[simp] theorem State.moltStart_failed {n p : Nat} : (s.moltStart n p).failed = s.failed := by
  unfold State.moltStart
  extract_lets m s1 run s2 s3
  have h2 : s2.supply = s.supply := ite_frame State.supply rfl rfl
  have h3 : s3.supply = s.supply :=
    State.abortCmds_supply.trans ((State.supply_congr (State.railsReport_hub.trans State.unbindKeys_hub)).trans h2)
  clear_value s3
  exact (State.failed_of_hub State.hwr_hub).trans ((State.failed_of_supply State.reroute_supply).trans
    (State.dieOff_failed.trans ((State.failed_of_hub State.unmapPart_hub).trans (State.failed_of_supply h3))))

@[simp] theorem State.declareLost_failed {n cause : Nat} : (s.declareLost n cause).failed = s.failed := by
  unfold State.declareLost
  refine ite_frame State.failed rfl ?_
  extract_lets p s1 s2 s3 s4
  have h4 : s4.failed = s.failed := State.failed_of_supply (State.lossNoted_supply (n := n) (cause := cause))
  clear_value s4
  have hoff : (s4.dieOff n).failed = s.failed := State.dieOff_failed.trans h4
  refine ite_frame State.failed
    (ite_frame State.failed (ite_frame State.failed (State.moltStart_failed.trans h4) ((State.failed_of_supply State.shrink_supply).trans hoff))
      ((State.failed_of_supply State.reroute_supply).trans hoff))
    (ite_frame State.failed ((State.failed_of_supply State.stackDegraded_supply).trans (State.dieOff_failed.trans h4))
      (ite_frame State.failed h4 ((State.failed_of_supply State.portLost_supply).trans h4)))

/-- The region of a site goes off without a word on the phases of any rail (R516). -/
theorem State.regionOff_failed {key : Nat} (h : key < 288) : (s.regionOff key).failed = s.failed := by
  unfold State.regionOff
  rw [if_neg (by omega), if_neg (by omega)]
  extract_lets s0 s1
  have h0 : s0.failed = s.failed := State.failed_of_supply (by
    show (match s.nodeAt key with | some n => s.dropInrush (key / 12) (cellOn n) | none => s).supply = s.supply
    split
    · exact State.dropInrush_supply
    · rfl)
  have h1 : s1.failed = s.failed := (State.failed_of_hub State.cutSite_hub).trans (State.setRegion_failed.trans h0)
  clear_value s1
  refine ite_frame State.failed ?_ ?_
  · split
    · exact State.declareLost_failed.trans h1
    · exact (State.failed_of_supply (State.reroute_supply.trans (State.strand_supply.trans (State.checkSpares_supply.trans State.editAnat_supply)))).trans h1
  · split
    · exact State.dieOff_failed.trans h1
    · exact h1

/-- What a rail's failed phases lead to leaves their record (R516). -/
theorem State.phaseAct_failed {key : Nat} (h : key < 288) : (s.phaseAct key).failed = s.failed := by
  unfold State.phaseAct
  extract_lets site node s1 s2
  clear_value node
  have h1 : s1.hub = s.hub := by
    cases node with
    | none => rfl
    | some n => exact foldl_frame State.hub (fun _ _ => by split <;> rfl) _ _
  have h2 : s2.hub = s.hub := by
    refine Eq.trans ?_ h1
    cases node <;> rfl
  clear_value s1 s2
  split
  · exact State.failed_of_hub h1
  · exact (State.failed_of_supply State.raiseReason_supply).trans (State.failed_of_hub h2)
  · exact (State.regionOff_failed h).trans (State.failed_of_hub h1)

/-- A site's failed phase disconnected, kept in both copies of the MRAM and recorded (R515). -/
def State.phaseNoted (s : State) (key rail phase : Nat) : State :=
  ((s.updHub fun h => { h with phases := h.phases ++ [(key, rail, phase)] }).mramAppend fun m =>
    { m with phase := m.phase ++ [phaseRec key rail phase] }).bb srcFw 0x0304 1 key (s.partOfSector (key / 12)) 0 (bytesLE 1 rail ++ bytesLE 1 phase)

theorem State.phaseNoted_failed {key rail phase : Nat} : (s.phaseNoted key rail phase).failed = s.hub.phases ++ [(key, rail, phase)] :=
  State.failed_of_supply State.bb_supply

/-- A site's failed phase is noted, and its rail's fate follows (R516). -/
theorem execPhaseFailure_site {key : Fin 293} {rail : Fin 8} {phase : Fin 16} (hon : s.hub.region.get 0 key.val ≠ 0) (h : key.val < 288)
    (hnew : s.hub.phases.contains (key.val, rail.val, phase.val) = false) :
    exec (.phaseFailure key rail phase) s = .next ((s.phaseNoted key.val rail.val phase.val).phaseAct key.val) := by
  rw [exec_phaseFailure]
  unfold execPhaseFailure
  dsimp only
  rw [if_pos h, if_pos h, if_neg (by rw [hnew]; simpa using hon)]
  rfl

/-- Settles O2: each command by its guards, and the frames of what a region's loss leads to. -/
theorem regionsPhasesAndInrush : Obligations.RegionsPhasesAndInrush := by
  unfold Obligations.RegionsPhasesAndInrush
  rintro s ⟨hregs, -⟩
  refine ⟨fun key hon hw h1 h2 => ?_, fun k => execSectorEfuseTrip_boot hregs, fun key rail phase hon h hnew => ?_,
    fun d hp hfree hquiet => ⟨_, execRegionSleep_sleeps hp hfree hquiet, rfl⟩, fun d hp hfree => ⟨_, execRegionAon_falls hp hfree, rfl⟩,
    fun d hp => ⟨_, execRegionWake_wakes hp, rfl, ?_⟩,
    fun k => ⟨fun cell cls hw he hq hfit => ?_, fun i hq => ?_, fun r hw hq => ?_, fun cell i hw hq hi => ?_⟩⟩
  · obtain ⟨u, hoff, hu⟩ := State.regionOff_port (s := s.fuseNoted key.val) h1 h2
    obtain ⟨hregion, hrest⟩ := Prod.mk.inj (hu.trans State.fuseNoted_supply)
    obtain ⟨hfuse, -⟩ := Prod.mk.inj hrest
    refine ⟨_, (execSiteEfuseTrip_port hon h1 h2).trans (congrArg _ hoff), ?_⟩
    dsimp only
    rw [State.setRegion_hub]
    exact ⟨Table.get_put_same (by rw [hregion]; exact hw) _ _, hfuse⟩
  · refine ⟨_, execPhaseFailure_site hon h hnew, ?_⟩
    show _ ∈ State.failed _
    rw [State.phaseAct_failed h, State.phaseNoted_failed]
    exact List.mem_append_right _ (List.mem_singleton.2 rfl)
  · rw [State.setClocks_tiles, State.setPower_tiles]
  · refine ⟨_, congrArg Host.Outcome.next (State.inrushAsk_waits k.isLt hregs hw he hq rfl hfit), ?_⟩
    dsimp only
    rw [State.noteScpm_hub, State.putScpm_get hw]
    exact ⟨rfl, rfl, State.noteScpm_cells ⟨rfl, rfl, rfl⟩, State.noteScpm_edges ⟨rfl, rfl, rfl⟩⟩
  · refine ⟨_, execInrushGrant_empty hq, ?_, rfl, rfl⟩
    exact (State.hrd_hwr_same hregs (scpmI_ok k.isLt)).trans (Nat.mod_eq_of_lt i.isLt)
  · refine ⟨_, execInrushWaitExpiry_one hq, ?_⟩
    dsimp only
    rw [State.noteScpm_hub, State.inc_hub, State.putScpm_get (by exact hw)]
    exact ⟨rfl, rfl, Nat.le_max_right _ _⟩
  · obtain ⟨t, ht, hhub⟩ := execRampEnd_releases hq hi
    refine ⟨t, ht, ?_⟩
    dsimp only
    rw [hhub, State.putScpm_get hw]

end Sys2Proof.Machine

/-! PROOFS. The family of the stack nodes: the engine SXE and SN_FENCE (O37), power, late reads, scrub, repair, temperature, training and wipe
(O38). -/

namespace Sys2Proof.Machine

variable {s : State}

/-! ### The stack's transfer engine -/

section
variable {k op : Nat} {ok : BitVec 512 → Bool} {x : Stack} (hx : s.stack k = x) {c : BitVec 512} {r : List (BitVec 512)}
include hx

/-- While the engine is idle and no command waits for it, the head of the queue starts (R261). -/
theorem State.sxeCommand_of_idle (hidle : x.sxe = none) (hw : x.sxq = []) : s.sxeCommand k op ok = s.snRun k op fun c s => s.sxeStart k c (ok c) := by
  unfold State.sxeCommand
  simp only [hx, hidle, hw]

/-- While the engine runs, the head of the queue steps aside (R261). -/
theorem State.sxeCommand_of_busy {j : SxeJob} (hrun : x.sxe = some j) :
    s.sxeCommand k op ok = s.snRun k op fun c s => s.updStack k fun x => { x with sxq := x.sxq ++ [c] } := by
  unfold State.sxeCommand
  simp only [hx, hrun]

/-- A SXE command at the head starts once no CLOSE_NOW is at work (R261). -/
theorem State.sxeCommand_head (hq : x.cmdq = c :: r) (hop : fld c 7 0 = op) (hw : x.sxq = []) (hidle : x.sxe = none) (hopen : x.closeOpen = false) :
    s.sxeCommand k op ok = (s.setStack k { x with cmdq := r }).sxeStart k c (ok c) := by
  rw [State.sxeCommand_of_idle hx hidle hw, ← hop, State.snRun_of_head hx hq hopen]

/-- A SXE command at the head that finds the engine busy joins those that wait for it (R261). -/
theorem State.sxeCommand_stepsAside {j : SxeJob} (hs : Table.wf {} s.snodes = true) (hq : x.cmdq = c :: r) (hop : fld c 7 0 = op) (hrun : x.sxe = some j)
    (hopen : x.closeOpen = false) : s.sxeCommand k op ok = s.setStack k { x with cmdq := r, sxq := x.sxq ++ [c] } := by
  rw [State.sxeCommand_of_busy hx hrun, ← hop, State.snRun_of_head hx hq hopen, State.updStack, State.stack_setStack_same hs, State.setStack_setStack hs]

/-- The oldest command that waits starts once the engine is idle (R261). -/
theorem State.sxeCommand_waiting (hw : x.sxq = c :: r) (hidle : x.sxe = none) (hop : fld c 7 0 = op) :
    s.sxeCommand k op ok = (s.setStack k { x with sxq := r }).sxeStart k c (ok c) := by
  subst hx
  unfold State.sxeCommand
  dsimp only
  split
  · next c' r' _ hw' =>
    obtain ⟨rfl, rfl⟩ := List.cons.inj (hw'.symm.trans hw)
    exact if_pos hop
  · next hw' => exact absurd (hw'.symm.trans hw) nofun
  · next hrun => exact absurd (hidle.symm.trans hrun) nofun

omit hx in
/-- Bad parameters, or a destination that the issuer's checks refuse, end a command DESC_FAULT (R266). -/
theorem State.sxeStart_descFault {good : Bool} (h : good = false ∨ s.sxeDestOk k c = false) : s.sxeStart k c good
    = s.sendResult k (BitVec.ofNat 56 (fld c 87 32)) (BitVec.ofNat 16 (fld c 31 16)) (snResult 0 0 stDescFault 0 0) :=
  if_pos (by simpa using h)

/-- A stack that is not ACTIVE ends a command BANK_OFF (R250). -/
theorem State.sxeStart_bankOff (hd : s.sxeDestOk k c = true) (hpw : x.pw ≠ .active) : s.sxeStart k c true
    = s.sendResult k (BitVec.ofNat 56 (fld c 87 32)) (BitVec.ofNat 16 (fld c 31 16)) (snResult 0 0 stBankOff 0 0) :=
  (if_neg (by simp [hd])).trans (if_pos (hx ▸ hpw))

/-- Any other command sends its segments (R264, R265). -/
theorem State.sxeStart_goes (hd : s.sxeDestOk k c = true) (hpw : x.pw = .active) : s.sxeStart k c true
    = (s.setStack k { x with sxe := some ⟨c, 0, 0, stOk, 0, sxeSegs c (s.partStacks (s.partOfSector k)), 0, [], false⟩ }).sxeGo k := by
  subst hx
  exact (if_neg (by simp [hd])).trans (if_neg (not_not.2 hpw))

end

section
variable {k : StackNo} {x : Stack} (hx : s.stack k.val = x)
include hx

/-- A command with all its segments answered ends with its result (R266). -/
theorem execSxeCommandEnd_answered {j : SxeJob} (hj : x.sxe = some j) (hopen : j.open_ = 0) (hrest : j.rest = []) : exec (.sxeCommandEnd k) s
    = .next ((s.setStack k.val { x with sxe := none }).sendResult k.val (BitVec.ofNat 56 (fld j.cmd 87 32)) (BitVec.ofNat 16 (fld j.cmd 31 16))
      (snResult 0 0 j.status j.rcode j.bytes)) := by
  subst hx
  rw [exec_sxeCommandEnd, execSxeCommandEnd]
  simp only [hj]
  rw [if_neg (by simp [hopen, hrest])]
  rfl

/-- SN_FENCE waits for SXE work and for the closes of its queue (R261). -/
theorem execSnFence_waits (h : x.sxe.isSome ∨ x.sxq ≠ [] ∨ (∃ kv ∈ x.w.win, ∃ p ∈ kv.2.pend, p.queued = true)) : exec (.snFence k) s = .next s := by
  subst hx
  rw [exec_snFence, execSnFence]
  exact congrArg _ (if_pos (by simpa [or_assoc] using h))

/-- With none of them pending it ends (R261). -/
theorem execSnFence_ends {c : BitVec 512} {r : List (BitVec 512)} (hq : x.cmdq = c :: r) (hop : fld c 7 0 = 8) (hidle : x.sxe = none) (hw : x.sxq = [])
    (hopen : x.closeOpen = false) (hpend : ∀ kv ∈ x.w.win, ∀ p ∈ kv.2.pend, p.queued = false) : exec (.snFence k) s
    = .next ((s.setStack k.val { x with cmdq := r }).sendResult k.val (BitVec.ofNat 56 (fld c 87 32)) (BitVec.ofNat 16 (fld c 31 16))
      (snResult 0 0 stOk 0 0)) := by
  rw [exec_snFence, execSnFence]
  refine congrArg _ ((if_neg ?_).trans (hop ▸ State.snRun_of_head hx hq hopen _))
  subst hx
  simpa [hidle, hw] using hpend

end

/-- The source address of element `i` of run `j` of a strided read (R264). -/
theorem sxeStridedAt_element {c : BitVec 512} {i j : Nat} (hi : i < fld c 159 136) :
    sxeStridedAt c ((j * fld c 159 136 + i) * 2 ^ fld c 135 133)
      = intMod 37 (Int.ofNat (fld c 132 96) + Int.ofNat j * signedOf 40 (fld c 223 184) + Int.ofNat i * signedOf 40 (fld c 263 224)) := by
  have hrun : (j * fld c 159 136 + i) / fld c 159 136 = j := by
    rw [Nat.mul_comm, Nat.mul_add_div (by omega), Nat.div_eq_of_lt hi, Nat.add_zero]
  have helem : (j * fld c 159 136 + i) % fld c 159 136 = i := by
    rw [Nat.mul_comm, Nat.mul_add_mod, Nat.mod_eq_of_lt hi]
  unfold sxeStridedAt
  dsimp only
  rw [Nat.mul_div_cancel _ (Nat.two_pow_pos _), Nat.mul_mod_left, hrun, helem, Nat.add_zero]

/-- Settles O37: a SXE command starts, steps aside or waits by the state of the engine, and its start ends by the first check that fails. -/
theorem stackEngineCommands : Obligations.StackEngineCommands := by
  unfold Obligations.StackEngineCommands
  rintro s k x c r ⟨-, -, hs, -⟩ hx
  have hnext {u t : State} (h : u = t) : (Host.Outcome.next u : Result) = .next t := congrArg _ h
  exact ⟨fun hq hop hw hidle hopen => hnext (State.sxeCommand_head hx hq hop hw hidle hopen),
    fun hq hop hw hidle hopen => hnext (State.sxeCommand_head hx hq hop hw hidle hopen),
    fun j hq hrun hopen => ⟨fun hop => hnext (State.sxeCommand_stepsAside hx hs hq hop hrun hopen),
      fun hop => hnext (State.sxeCommand_stepsAside hx hs hq hop hrun hopen)⟩,
    fun hw hidle => ⟨fun hop => hnext (State.sxeCommand_waiting hx hw hidle hop), fun hop => hnext (State.sxeCommand_waiting hx hw hidle hop)⟩,
    fun _ => State.sxeStart_descFault, State.sxeStart_bankOff hx, State.sxeStart_goes hx, fun _ => execSxeCommandEnd_answered hx,
    execSnFence_ends hx, execSnFence_waits hx, fun _ _ _ => sxeStridedAt_element⟩

/-! ### Power -/

section
variable {x : Stack} {own : Nat}

theorem Stack.power_selfRefresh (h : x.pwrBusy own = false) {fw : Bool} :
    x.power 1 fw own = { x.pwrResult 1 0 with pw := .selfRefresh, waking := false } := if_neg (by simp [h])

/-- SELF_REFRESH of a stack that is not ACTIVE and quiet is BUSY (R274). -/
theorem Stack.power_selfRefresh_busy (h : x.pwrBusy own = true) {fw : Bool} : x.power 1 fw own = x.pwrResult 1 1 := if_pos h

theorem Stack.power_off (h : x.pwrBusy own = false) : x.power 2 true own
    = { x.pwrResult 2 0 with pw := .off, waking := false, mem := [], dev := [], remap := [], spareUsed := 0 } :=
  if_neg (by simp [h])

/-- Only hub firmware's OFF is evaluated (R274). -/
theorem Stack.power_off_refused : x.power 2 false own = x.pwrResult 2 3 := rfl

/-- WAKE brings a stack out of SELF_REFRESH and of OFF (R274). -/
theorem Stack.power_wake (h : x.pw = .selfRefresh ∨ x.pw = .off) {fw : Bool} : x.power 0 fw own = { x.pwrResult 0 0 with waking := true } := by
  obtain h | h := h <;> rw [Stack.power, h]

/-- A stack that is awake has nothing to do (R274). -/
theorem Stack.power_wake_awake (h : x.pw = .active ∨ x.pw = .init) {fw : Bool} : x.power 0 fw own = x.pwrResult 0 2 := by
  obtain h | h := h <;> rw [Stack.power, h]

/-- A power command that is no WAKE from OFF changes its stack alone. -/
theorem State.stackPower_alone {k op : Nat} {fw : Bool} (h : op ≠ 0 ∨ (s.stack k).pw ≠ .off) :
    s.stackPower k op fw own = s.setStack k ((s.stack k).power op fw own) :=
  if_neg (by tauto)

/-- A WAKE from OFF asks for its token too (R274). -/
theorem State.stackPower_wake_off {k : Nat} {fw : Bool} (h : (s.stack k).pw = .off) (hw : (s.stack k).waking = false) :
    s.stackPower k 0 fw own = (s.setStack k ((s.stack k).power 0 fw own)).inrushAsk k (nodeCell (stackNode k)) .stackRails 0 :=
  if_pos (by simp [h, hw])

/-- A woken stack leaves SELF_REFRESH (R274). -/
theorem execSelfRefreshExit_woken {k : StackNo} (hx : s.stack k.val = x) (hpw : x.pw = .selfRefresh) (hw : x.waking = true) (hcool : x.tooHot = false) :
    exec (.selfRefreshExit k) s = .next (s.setStack k.val { x with pw := .active, waking := false }) := by
  rw [exec_selfRefreshExit, execSelfRefreshExit, State.updStack, hx, if_pos (by simp [hpw, hw, hcool])]

end

/-! ### Patrol scrub and chunk repair -/

section
variable {x : Stack} {b : Nat}

/-- A read of a burst of a stack whose check symbols match changes nothing (R257). -/
theorem Stack.readBurst_of_clean (hdev : x.dev = []) {now : Nat} : x.readBurst b now = (x, false, false) := by
  rw [Stack.readBurst, hdev]
  rfl

/-- The patrol reads one burst of a stack whose check symbols match and moves on (R268). -/
theorem execSnPatrolScrub_of_clean {k : StackNo} (hs : Table.wf {} s.snodes = true) (hx : s.stack k.val = x) (hper : x.scrubHrs ≠ 0)
    (hpw : x.pw = .active) (hdev : x.dev = []) : exec (.snPatrolScrub k) s
      = .next (s.setStack k.val { x with scrubAt := (x.scrubAt + 1) % 2147483648 }) := by
  rw [exec_snPatrolScrub, execSnPatrolScrub]
  simp only [hx, Stack.readBurst_of_clean hdev, ite_self]
  rw [if_neg (not_or.2 ⟨hper, not_not.2 hpw⟩), State.checkRead, State.stack_setStack_same hs, if_pos rfl]
  rfl

/-- Check symbols that match decode as clean (R256). -/
theorem decodeBurst_zero : decodeBurst 0 = .clean := by decide

/-- The repair of a burst changes the stack's bytes and check symbols alone (R269). -/
theorem Stack.repairBurst_keeps {γ : Type} (g : Stack → γ) (hg : ∀ (x : Stack) m d, g { x with mem := m, dev := d } = g x) :
    g (x.repairBurst b) = g x := by
  unfold Stack.repairBurst
  split
  · exact hg _ _ _
  · exact hg _ x.mem _
  · rfl

theorem Stack.repairBurst_of_clean (hdev : x.dev = []) : x.repairBurst b = x := by
  rw [Stack.repairBurst, hdev, Table.get_nil, decodeBurst_zero]

/-- The four bursts of a chunk from `b` on repaired (R269). -/
def Stack.repairChunk (x : Stack) (b : Nat) : Stack := (((x.repairBurst b).repairBurst (b + 1)).repairBurst (b + 2)).repairBurst (b + 3)

/-- The repair of a chunk changes the stack's bytes and check symbols alone (R269). -/
theorem Stack.repairChunk_keeps {γ : Type} (g : Stack → γ) (hg : ∀ (x : Stack) m d, g { x with mem := m, dev := d } = g x) :
    g (x.repairChunk b) = g x := by
  simp only [Stack.repairChunk, Stack.repairBurst_keeps g hg]

@[simp] theorem Stack.repairChunk_rq : (x.repairChunk b).rq = x.rq := Stack.repairChunk_keeps Stack.rq fun _ _ _ => rfl
@[simp] theorem Stack.repairChunk_spareUsed : (x.repairChunk b).spareUsed = x.spareUsed := Stack.repairChunk_keeps Stack.spareUsed fun _ _ _ => rfl
@[simp] theorem Stack.repairChunk_w : (x.repairChunk b).w = x.w := Stack.repairChunk_keeps Stack.w fun _ _ _ => rfl
@[simp] theorem Stack.repairChunk_cmdq : (x.repairChunk b).cmdq = x.cmdq := Stack.repairChunk_keeps Stack.cmdq fun _ _ _ => rfl

theorem Stack.repairChunk_of_clean (hdev : x.dev = []) : x.repairChunk b = x := by
  unfold Stack.repairChunk
  simp only [Stack.repairBurst_of_clean hdev]

/-- The copy of a chunk whose check symbols match changes no byte. -/
theorem Stack.repairChunk_mem_of_clean (hdev : x.dev = []) : (x.repairChunk b).mem = x.mem := by rw [Stack.repairChunk_of_clean hdev]

end

section
variable {k : StackNo} {x : Stack} (hx : s.stack k.val = x) {r : SnChunk} {rest : List SnChunk} (hq : x.rq = r :: rest)
include hx hq

/-- A bank with resources left repairs the oldest queued chunk (R269). -/
theorem execSnChunkRepair_ppr : exec (.snChunkRepair k true) s
    = .next ((s.setStack k.val (({ x with rq := rest } : Stack).repairChunk ((r.chunk * 16384 + r.q * 256) / 64))).report (stackNode k.val)
      (.stackRepair k.val r.q r.chunk 0)) := by
  subst hx
  rw [exec_snChunkRepair, execSnChunkRepair]
  simp only [hq]
  rfl

/-- The oldest queued chunk that cannot be repaired moves to the spare store (R269). -/
theorem execSnChunkRepair_remaps (hroom : x.spareUsed < 4096) {y : Stack}
    (hy : y = ({ x with rq := rest } : Stack).repairChunk ((r.chunk * 16384 + r.q * 256) / 64)) : exec (.snChunkRepair k false) s
    = .next ((s.setStack k.val { y with spareUsed := y.spareUsed + 1, remap := y.remap.put false (r.q * 2 ^ 23 + r.chunk) true }).report
      (stackNode k.val) (.stackRepair k.val r.q r.chunk 1)) := by
  have hused : y.spareUsed = x.spareUsed := by rw [hy, Stack.repairChunk_spareUsed]
  subst hx
  rw [exec_snChunkRepair, execSnChunkRepair]
  simp only [hq]
  rw [← Stack.repairChunk, ← hy, if_neg (by decide), if_pos (hused ▸ hroom)]

/-- With the spare store full, its channel is retired (R269, R270). -/
theorem execSnChunkRepair_full (hfull : 4096 ≤ x.spareUsed) : exec (.snChunkRepair k false) s
    = .next ((s.retireChannel k.val (r.q / 2) 3).report (stackNode k.val) (.stackRepair k.val (r.q / 2 * 2) r.chunk 2)) := by
  subst hx
  rw [exec_snChunkRepair, execSnChunkRepair]
  simp only [hq]
  rw [← Stack.repairChunk, Stack.repairChunk_spareUsed, if_neg (by decide), if_neg (Nat.not_lt.2 hfull)]

end

/-- A command that sets a stack and reports changes no other stack. -/
theorem State.onlyStack_setStack_report {k n : Nat} {x : Stack} {m : CtlMsg} : OnlyStack k s ((s.setStack k x).report n m) :=
  ⟨rfl, fun _ hm => Table.get_put_ne hm.symm _⟩

/-! ### Channels retired -/

section
variable {x : Stack} {c why st a : Nat}

/-- A retired channel lists its state and its reason (R270). -/
theorem Stack.retireChan_chan (h : BitVec.ofNat 2 st ≠ 0) : (x.retireChan c why st).chan.get {} c = ⟨BitVec.ofNat 2 st, BitVec.ofNat 4 why⟩ :=
  Table.get_put_val (fun he => h (congrArg SnChan.state he)) _ _

/-- What a retired channel held is gone (R270). -/
theorem Stack.retireChan_mem : (x.retireChan c why st).mem.get 0 a = if snChannel a = c then 0 else x.mem.get 0 a := by
  rw [Stack.retireChan, Table.get_filter_key (keep := fun k => !(snChannel k == c))]
  by_cases h : snChannel a = c <;> simp [h]

end

/-! ### Recalibration -/

/-- Channel `c` in a recalibration of stack `k` whose channels `failed` fail (R270). -/
def State.recalStep (k : Nat) (failed : List (Fin 32)) (s : State) (c : Nat) : State :=
  let x := s.stack k
  let n := if failed.any (fun f => f.val == c) then x.recal.get 0 c + 1 else 0
  let s1 := s.setStack k { x with recal := x.recal.put 0 c n }
  if 2 ≤ n ∧ (x.chan.get {} c).state = 0 then s1.retireChannel k c 2 else s1

/-- A recalibration notes the count of on-die ECC and takes the channels in turn (R270, R273, assumption log 101). -/
theorem execSnRecalibration_eq {k : StackNo} {x : Stack} (hx : s.stack k.val = x) {failed : List (Fin 32)} {ecc : W32} :
    exec (.snRecalibration k failed ecc) s
      = .next ((List.range 32).foldl (State.recalStep k.val failed) (s.setStack k.val { x with odecc := ecc })) := hx ▸ rfl

section
variable {k : Nat} {x : Stack} (hs : Table.wf {} s.snodes = true) {failed : List (Fin 32)} {c : Nat}
include hs

/-- A channel that passes, and had not failed before, changes nothing. -/
theorem State.recalStep_passed (hf : ∀ f ∈ failed, f.val ≠ c) (hw : Table.wf 0 x.recal = true) (h0 : x.recal.get 0 c = 0) :
    State.recalStep k failed (s.setStack k x) c = s.setStack k x := by
  have hput : x.recal.put 0 c 0 = x.recal := by
    have h := Table.put_get hw c
    rwa [h0] at h
  unfold State.recalStep
  simp only [show failed.any (fun f => f.val == c) = false by simpa using hf, Bool.false_eq_true, if_false, State.stack_setStack_same hs, hput,
    State.setStack_setStack hs]
  exact if_neg (by omega)

/-- A channel that fails for the first time is counted. -/
theorem State.recalStep_failed (hf : ∃ f ∈ failed, f.val = c) (h0 : x.recal.get 0 c = 0) :
    State.recalStep k failed (s.setStack k x) c = s.setStack k { x with recal := x.recal.put 0 c 1 } := by
  unfold State.recalStep
  simp only [show failed.any (fun f => f.val == c) = true by simpa using hf, if_true, State.stack_setStack_same hs, h0, State.setStack_setStack hs]
  exact if_neg (by omega)

/-- A channel in service that fails for the second time in succession is retired (R270). -/
theorem State.recalStep_retires (hf : ∃ f ∈ failed, f.val = c) (h1 : x.recal.get 0 c = 1) (hst : (x.chan.get {} c).state = 0) :
    State.recalStep k failed (s.setStack k x) c = (s.setStack k { x with recal := x.recal.put 0 c 2 }).retireChannel k c 2 := by
  unfold State.recalStep
  simp only [show failed.any (fun f => f.val == c) = true by simpa using hf, if_true, State.stack_setStack_same hs, h1, State.setStack_setStack hs]
  exact if_pos ⟨by omega, hst⟩

/-- Channels that pass, and had not failed before, change nothing. -/
theorem State.foldl_recalStep_passed (hw : Table.wf 0 x.recal = true) {l : List Nat}
    (hf : ∀ c ∈ l, (∀ f ∈ failed, f.val ≠ c) ∧ x.recal.get 0 c = 0) : l.foldl (State.recalStep k failed) (s.setStack k x) = s.setStack k x :=
  List.foldlRecOn (motive := (· = s.setStack k x)) l _ rfl fun t ht c hc => by
    subst ht
    exact State.recalStep_passed hs (hf c hc).1 hw (hf c hc).2

end

/-- One channel's count, read at another. -/
theorem Table.get_singleton_ne {α : Type} {d v : α} {i j : Nat} (h : i ≠ j) : Table.get d [(i, v)] j = d := if_neg h

section
variable {k : StackNo} {x : Stack} (hx : s.stack k.val = x) (hs : Table.wf {} s.snodes = true) {ecc : W32}
include hx hs

/-- A recalibration that no channel fails leaves the count of on-die ECC (R273). -/
theorem execSnRecalibration_passed (hr : x.recal = []) : exec (.snRecalibration k [] ecc) s = .next (s.setStack k.val { x with odecc := ecc }) := by
  rw [execSnRecalibration_eq hx, State.foldl_recalStep_passed hs (failed := []) (by rw [hr]; rfl) fun c _ => ⟨nofun, by rw [hr]; rfl⟩]

/-- A recalibration that one channel fails counts it (R270). -/
theorem execSnRecalibration_failed {c : Fin 32} (hr : x.recal = []) : exec (.snRecalibration k [c] ecc) s
    = .next (s.setStack k.val { x with odecc := ecc, recal := [(c.val, 1)] }) := by
  obtain ⟨before, after, hl⟩ := List.append_of_mem (List.mem_range.2 c.isLt)
  have hnd : (before ++ c.val :: after).Nodup := hl ▸ List.nodup_range
  have hne : c.val ∉ before ∧ c.val ∉ after := by
    rw [List.nodup_middle, List.nodup_cons, List.mem_append] at hnd
    tauto
  have hpass {l : List Nat} (h : c.val ∉ l) : ∀ i ∈ l, ∀ f ∈ [c], f.val ≠ i := by
    rintro i hi f hf rfl
    exact h (List.mem_singleton.1 hf ▸ hi)
  rw [execSnRecalibration_eq hx, hl, List.foldl_append, List.foldl_cons,
    State.foldl_recalStep_passed hs (by rw [hr]; rfl) fun i hi => ⟨hpass hne.1 i hi, by rw [hr]; rfl⟩,
    State.recalStep_failed hs ⟨c, List.mem_singleton_self c, rfl⟩ (by rw [hr]; rfl), hr,
    State.foldl_recalStep_passed hs rfl fun i hi => ⟨hpass hne.2 i hi, Table.get_singleton_ne fun h => hne.2 (by rwa [h])⟩]
  rfl

/-- The last channel, in service, fails its second recalibration in succession and is retired (R270). -/
theorem execSnRecalibration_retires (hr : x.recal = [(31, 1)]) (hst : (x.chan.get {} 31).state = 0) : exec (.snRecalibration k [31] ecc) s
    = .next ((s.setStack k.val { x with odecc := ecc, recal := [(31, 2)] }).retireChannel k.val 31 2) := by
  have hne {i : Nat} (h : i ∈ List.range 31) : 31 ≠ i := (List.mem_range.1 h).ne'
  rw [execSnRecalibration_eq hx, List.range_succ, List.foldl_append,
    State.foldl_recalStep_passed hs (by rw [hr]; rfl) fun i hi => ⟨by simpa using hne hi, by rw [hr]; exact Table.get_singleton_ne (hne hi)⟩,
    List.foldl_cons, List.foldl_nil,
    State.recalStep_retires (x := { x with odecc := ecc }) (c := 31) hs ⟨31, List.mem_singleton_self _, rfl⟩ (by rw [hr]; rfl) hst, hr]
  rfl

end

/-! ### Temperature -/

section
variable {k : StackNo} {x : Stack} (hx : s.stack k.val = x) {temp : Byte}
include hx

/-- Up to 95 °C a stack that was not cut off records its temperature and its rate of refresh (R273). -/
theorem execSnTemperatureChange_cool (h : temp.toNat ≤ 95) (hcool : x.tooHot = false) : exec (.snTemperatureChange k temp) s
    = .next (s.setStack k.val { x with temp := temp, ref2x := decide (85 < temp.toNat), hot := false }) := by
  subst hx
  rw [exec_snTemperatureChange, execSnTemperatureChange]
  simp [show ¬ 95 < temp.toNat by omega, show ¬ 105 ≤ temp.toNat by omega, hcool]

/-- Above 95 °C it is hot and reports (R273). -/
theorem execSnTemperatureChange_hot (h : 95 < temp.toNat) (hlt : temp.toNat < 105) (hcool : x.tooHot = false) : exec (.snTemperatureChange k temp) s
    = .next ((s.setStack k.val { x with temp := temp, ref2x := true, hot := true }).report (stackNode k.val) (.stackHot k.val temp)) := by
  subst hx
  rw [exec_snTemperatureChange, execSnTemperatureChange]
  simp [h, show 85 < temp.toNat by omega, show ¬ 105 ≤ temp.toNat by omega, hcool]

/-- At 105 °C an ACTIVE stack is forced into self-refresh and its partition asked to halt (R273). -/
theorem execSnTemperatureChange_cut (h : 105 ≤ temp.toNat) (hpw : x.pw = .active) : exec (.snTemperatureChange k temp) s
    = .next ((((s.setStack k.val { x with temp := temp, ref2x := true, hot := true, pw := .selfRefresh, tooHot := true, waking := true }).report
      (stackNode k.val) (.stackHot k.val temp)).haltRequest (s.partOfSector k.val) 1).event 6 1 31 false) := by
  subst hx
  rw [exec_snTemperatureChange, execSnTemperatureChange]
  simp only [h, hpw, show 95 < temp.toNat by omega, show 85 < temp.toNat by omega]
  rfl

end

/-! ### Training and the wipe -/

section
variable {k : StackNo} {x : Stack} (hx : s.stack k.val = x)
include hx

/-- The wipe after training zeroes every burst and ends INIT (R259, R272). -/
theorem execStackWipeComplete_wipes (hpw : x.pw = .init) (hstep : 6 ≤ x.train.step.toNat) (hfail : x.train.fail = false) (hst : x.st ≠ 2) :
    exec (.stackWipeComplete k) s = .next (s.setStack k.val { x with
      mem := [], dev := [], mkey := x.key, bkey := [], pw := .active, train := { x.train with step := 7, done := true } }) := by
  rw [exec_stackWipeComplete, execStackWipeComplete, State.updStack, hx, if_pos ⟨hpw, hstep, by simp [hfail], hst⟩]

/-- Before the end of training, or after a failure, there is nothing to wipe. -/
theorem execStackWipeComplete_idle (hs : Table.wf {} s.snodes = true) (h : x.pw ≠ .init ∨ x.train.step.toNat < 6 ∨ x.train.fail = true ∨ x.st = 2) :
    exec (.stackWipeComplete k) s = .next s := by
  rw [exec_stackWipeComplete, execStackWipeComplete, State.updStack, hx, if_neg ?_, ← hx, State.setStack_stack hs]
  rintro ⟨hpw, hstep, hfail, hst⟩
  obtain h | h | h | h := h
  · exact h hpw
  · omega
  · simp [h] at hfail
  · exact hst h

variable {step : BitVec 3} {code : Byte} {ms : W16} (hpw : x.pw = .init) (hstep : x.train.step.toNat < 6)
include hpw hstep

/-- Training that succeeds in time, with every channel and no repair to replay, clears the key for the wipe (R272). -/
theorem execStackTrainDone_trained (hch : x.chan = []) (hms : ms.toNat ≤ 500)
    (hrec : (s.mramTable (·.stkRep)).filter (fun r => decide (fld r 4 0 = k.val)) = []) : exec (.stackTrainDone k true step code ms []) s
      = .next (((x.train.at_.elim s (fun a => s.till (a + 1000000 * ms.toNat))).setStack k.val { x with
        st := 0, key := 0, xtsOn := false, train := { x.train with step := 6, fail := false, code := code } }).stackDegraded k.val) := by
  subst hx
  rw [exec_stackTrainDone, execStackTrainDone]
  simp only [hrec, List.foldl_nil]
  rw [if_neg (by simp [hpw]; omega)]
  cases (s.stack k.val).train.at_ <;>
    simp [show ¬ 500 < ms.toNat by omega, Stack.retiredCount, hch]

/-- A stack that fails its training, or takes more than 500 ms, is retired (R271, R272). -/
theorem execStackTrainDone_failed {ok : Bool} (h : ok = false ∨ 500 < ms.toNat) : exec (.stackTrainDone k ok step code ms []) s
    = .next (((x.train.at_.elim s (fun a => s.till (a + 1000000 * ms.toNat))).setStack k.val { x with
      st := 2, train := { x.train with step := step, fail := true, code := code } }).stackDegraded k.val) := by
  subst hx
  rw [exec_stackTrainDone, execStackTrainDone]
  simp only [List.foldl_nil]
  rw [if_neg (by simp [hpw]; omega)]
  cases (s.stack k.val).train.at_ <;>
    simp [show (!ok || decide (500 < ms.toNat)) = true by simpa using h]

end

/-! ### Scheduled reads -/

section
variable {k : StackNo} {x : Stack} (hx : s.stack k.val = x) {j : Nat} {d : BitVec 256} (hex : s.exchanging (stackNode k.val) = true)
  (hd : x.xdesc (s.node (stackNode k.val)).fab.phase.toNat j = some d)
include hx hex hd

/-- A stack at rest, or a hole, gives no data (R270, R273). -/
theorem execStackReadRelease_none (h : x.pw ≠ .active ∨ x.holeIn (fld d 132 96) (fld d 88 64) = true) :
    exec (.stackReadRelease k j) s = .next (s.tillTb (s.phaseAt (stackNode k.val) (fld d 159 136))) := by
  subst hx
  rw [exec_stackReadRelease, execStackReadRelease]
  simp only [hex, hd, Bool.not_true, Bool.false_eq_true, if_false]
  rw [if_pos h]

/-- Any other read is released at its time (R332). -/
theorem execStackReadRelease_reads {u : State} {y : Stack × List Byte × List Bool} (hu : u = s.tillTb (s.phaseAt (stackNode k.val) (fld d 159 136)))
    (hy : y = x.readMarks (fld d 132 96) (fld d 88 64) u.now u.freeCtr) (hpw : x.pw = .active) (hh : x.holeIn (fld d 132 96) (fld d 88 64) = false) :
    exec (.stackReadRelease k j) s
      = .next (((u.setStack k.val { y.1 with ready := Table.put ([], []) y.1.ready j y.2 }).drawn).checkRead k.val x) := by
  subst hx hy hu
  rw [exec_stackReadRelease, execStackReadRelease]
  simp only [hex, hd, Bool.not_true, Bool.false_eq_true, if_false]
  rw [if_neg (by simp [hpw, hh])]

end

/-- Settles O38: each command by its guards, and what a repair and a retirement leave of the stack. -/
theorem stackPowerReadsAndRepair : Obligations.StackPowerReadsAndRepair := by
  unfold Obligations.StackPowerReadsAndRepair
  rintro s k x ⟨-, -, hs, -⟩ rfl
  refine ⟨fun h => ?_, fun h => ?_, fun h => ?_, ?_, fun h => ?_, fun h hw => ?_, fun h => ?_, execSelfRefreshExit_woken rfl, rfl,
    execSnPatrolScrub_of_clean hs rfl,
    fun r rest hq => ⟨⟨_, execSnChunkRepair_ppr rfl hq, State.onlyStack_setStack_report, ?_⟩,
      fun hroom => ⟨_, execSnChunkRepair_remaps rfl hq hroom rfl, State.onlyStack_setStack_report, ?_⟩, execSnChunkRepair_full rfl hq⟩,
    fun _ => execSnRecalibration_passed rfl hs, fun _ _ => execSnRecalibration_failed rfl hs, fun _ => execSnRecalibration_retires rfl hs,
    fun c why st => or_iff_not_imp_right.2 Stack.retireChan_chan, fun _ _ _ _ _ => Stack.retireChan_mem,
    fun temp => ⟨execSnTemperatureChange_cool rfl, fun h hlt => execSnTemperatureChange_hot rfl h (by omega), execSnTemperatureChange_cut rfl⟩,
    execStackWipeComplete_wipes rfl, execStackWipeComplete_idle rfl hs,
    fun _ _ _ hpw hch hstep => execStackTrainDone_trained rfl hpw hstep hch, fun _ _ _ _ hpw hstep => execStackTrainDone_failed rfl hpw hstep,
    fun j d hex hd => ⟨execStackReadRelease_none rfl hex hd, fun u y => execStackReadRelease_reads rfl hex hd⟩⟩
  · rw [exec_snSelfRefresh, execSnSelfRefresh, State.stackPower_alone (.inl (by decide)), Stack.power_selfRefresh h]
    rfl
  · rw [exec_snSelfRefresh, execSnSelfRefresh, State.stackPower_alone (.inl (by decide)), Stack.power_selfRefresh_busy h]
    rfl
  · rw [exec_snOff, execSnOff, State.stackPower_alone (.inl (by decide)), Stack.power_off h]
    rfl
  · rw [exec_snOff, execSnOff, State.stackPower_alone (.inl (by decide)), Stack.power_off_refused]
    rfl
  · rw [exec_snWake, execSnWake, State.stackPower_alone (.inr (by simp [h])), Stack.power_wake (.inl h)]
    rfl
  · rw [exec_snWake, execSnWake, State.stackPower_wake_off h hw, Stack.power_wake (.inr h)]
    rfl
  · rw [exec_snWake, execSnWake, State.stackPower_alone (.inr (by obtain h | h := h <;> simp [h])), Stack.power_wake_awake h]
    rfl
  · rw [State.report_stack, State.stack_setStack_same hs]
    exact ⟨Stack.repairChunk_rq, Stack.repairChunk_spareUsed, rfl, Stack.repairChunk_w, Stack.repairChunk_cmdq⟩
  · rw [State.report_stack, State.stack_setStack_same hs]
    exact ⟨Stack.repairChunk_rq, congrArg (· + 1) Stack.repairChunk_spareUsed, Table.get_put_val (by decide) _ _, rfl,
      Stack.repairChunk_mem_of_clean (x := { s.stack k.val with rq := rest })⟩

end Sys2Proof.Machine

/-! PROOFS. The family of the fabric: heads at a router, scheduled flits and the control network (O39); wingbeats, exchanges, combines, resumes
and the watchdog of a running schedule (O41). -/

namespace Sys2Proof.Machine

variable {s : State}

/-! ### Changes of a die-cell -/

section
variable {n : Nat}

theorem State.updNode_congr {f g : Node → Node} (h : f (s.node n) = g (s.node n)) : s.updNode n f = s.updNode n g := by
  rw [State.updNode, State.updNode, Table.upd, Table.upd]
  exact congrArg (fun v => { s with nodes := s.nodes.put {} n v }) h

variable (hn : Table.wf {} s.nodes = true)
include hn

theorem State.updNode_updNode {f g : Node → Node} : (s.updNode n f).updNode n g = s.updNode n fun x => g (f x) := by
  simp only [State.updNode, Table.upd, Table.put_put hn, Table.get_put_same hn]

theorem State.updNode_of_fixed {f : Node → Node} (h : f (s.node n) = s.node n) : s.updNode n f = s := by
  rw [State.updNode_congr (g := id) h, State.updNode, Table.upd, id, Table.put_get hn]

theorem State.fab_updFab {f : Fab → Fab} : ((s.updFab n f).node n).fab = f (s.node n).fab := by
  rw [State.updFab, State.node_updNode_same hn]

theorem State.updFab_nodes_wf {f : Fab → Fab} : Table.wf {} (s.updFab n f).nodes = true := State.updNode_nodes_wf hn

theorem State.updFab_updFab {f g : Fab → Fab} : (s.updFab n f).updFab n g = s.updFab n fun x => g (f x) := State.updNode_updNode hn

/-- Where no head of a local source waits, nothing is to be cleared. -/
theorem State.updFab_clearInject (h : (s.node n).fab.inject = []) : s.updFab n (fun f => { f with inject := [] }) = s := by
  refine State.updNode_of_fixed hn ?_
  rw [← h]

end

/-- What is sent one by one is sent in order. -/
theorem State.foldl_emit {α : Type} {g : α → Out} : ∀ (l : List α) (s : State), l.foldl (fun s a => s.emit (g a)) s = { s with out := s.out ++ l.map g }
  | [], s => by rw [List.foldl_nil, List.map_nil, List.append_nil]
  | a :: l, s => by
    rw [List.foldl_cons, State.foldl_emit l, List.map_cons, ← List.singleton_append, ← List.append_assoc]
    rfl

/-! ### What a router meets in a head -/

section
variable {n fc : Nat} {h : PktHead}

/-- An uncorrectable flit from a local source fails no link. -/
theorem State.linkUe_local {e : Nat} (he : 4 ≤ e) : s.linkUe n e = s := if_pos he

/-- Up to the sixteenth uncorrectable flit within 1 ms, a link goes on (R303). -/
theorem State.linkUe_few {e : Nat} (he : e < 4) {ts : List Nat} (hts : ts = (((s.node n).fab.link.get {} e).ues.filter fun u => decide (s.now < u + 1000000)))
    (hfew : ts.length < 16) : s.linkUe n e = s.updFab n fun f => { f with
      link := f.link.put {} e { (s.node n).fab.link.get {} e with ues := ts ++ [s.now] } } := by
  subst hts
  unfold State.linkUe
  rw [if_neg (Nat.not_le.2 he)]
  refine if_neg fun hlong => ?_
  have := hlong.1
  rw [List.length_append, List.length_singleton] at this
  omega

section
variable (hclean : ∀ d ∈ h.devs, decodeBurst d = .clean) (hup : 4 ≤ h.inPort ∨ (s.node n).fab.present n h.inPort h.inCh = true)
include hclean hup

/-- A clean head over a link in service is dropped for its type or its destination alone (R286, R295). -/
theorem State.meetHead_of_clean : s.meetHead n h =
    if fld h.hdr 3 0 = 0 ∨ 8 < fld h.hdr 3 0 then (s.updFab n (fun f => { f with bad := satInc f.bad }), false)
    else if bit ((s.node n).fab.route.get 0 (fld h.hdr 63 48)) 6 || !bit ((s.node n).fab.route.get 0 (fld h.hdr 63 48)) 7 then
      (if h.inPort = 4 then s.emit (.answer (BitVec.ofNat 16 (fld h.hdr 47 32)) (BitVec.ofNat 16 (fld h.hdr 95 80)) ⟨rcTargetDown, [], false, 0⟩)
       else s.updFab n (fun f => { f with tdown := satInc f.tdown }), false)
    else (s, true) := by
  have hnone {f : BitVec 24 → Bool} (hf : ∀ d, decodeBurst d = .clean → f d = false) : h.devs.filter f = [] :=
    List.filter_eq_nil_iff.2 fun d hd => by simp [hf d (hclean d hd)]
  have hgood : ¬ (h.inPort < 4 ∧ (!(s.node n).fab.present n h.inPort h.inCh) = true) := by
    rintro ⟨hlt, hcut⟩
    obtain hp | hp := hup
    · omega
    · simp [hp] at hcut
  unfold State.meetHead
  dsimp only
  rw [hnone, hnone]
  · exact if_neg (by simpa using hgood)
  · exact fun d hd => by simp [hd]
  · exact fun d hd => by simp [hd]

/-- A head of a reserved type is counted and goes no further (R286). -/
theorem State.meetHead_reserved (hty : fld h.hdr 3 0 = 0 ∨ 8 < fld h.hdr 3 0) :
    s.meetHead n h = (s.updFab n (fun f => { f with bad := satInc f.bad }), false) :=
  (State.meetHead_of_clean hclean hup).trans (if_pos hty)

variable (hlo : 1 ≤ fld h.hdr 3 0) (hhi : fld h.hdr 3 0 ≤ 8)
include hlo hhi

/-- A head whose destination is down goes no further: it is answered at its first router, and counted at a later one (R295). An invalid
entry is as one that is down (assumption log 30). -/
theorem State.meetHead_down (hdown : bit ((s.node n).fab.route.get 0 (fld h.hdr 63 48)) 6 = true ∨ bit ((s.node n).fab.route.get 0 (fld h.hdr 63 48)) 7 = false) :
    s.meetHead n h =
      (if h.inPort = 4 then s.emit (.answer (BitVec.ofNat 16 (fld h.hdr 47 32)) (BitVec.ofNat 16 (fld h.hdr 95 80)) ⟨rcTargetDown, [], false, 0⟩)
       else s.updFab n (fun f => { f with tdown := satInc f.tdown }), false) := by
  rw [State.meetHead_of_clean hclean hup, if_neg (by omega), if_pos (by simpa using hdown)]

/-- Any other head asks for an output. -/
theorem State.meetHead_goes (h6 : bit ((s.node n).fab.route.get 0 (fld h.hdr 63 48)) 6 = false)
    (h7 : bit ((s.node n).fab.route.get 0 (fld h.hdr 63 48)) 7 = true) : s.meetHead n h = (s, true) := by
  rw [State.meetHead_of_clean hclean hup, if_neg (by omega), if_neg (by rw [h6, h7]; decide)]

end

/-- A packet whose one flit cannot be corrected is dropped, and its link counts the flit (R285, R303). -/
theorem State.meetHead_of_bad {d : BitVec 24} (hd : h.devs = [d]) (hb : decodeBurst d = .bad) :
    s.meetHead n h = ((s.updFab n (fun f => { f with drop := satInc f.drop })).linkUe n h.inPort, false) := by
  have hnone {f : BitVec 24 → Bool} (hf : f d = false) : [d].filter f = [] := List.filter_cons_of_neg (by simp [hf])
  have hone : [d].filter (fun d => decodeBurst d == .bad) = [d] := List.filter_cons_of_pos (by simp [hb])
  unfold State.meetHead
  dsimp only
  rw [hd, hone, hnone]
  · exact if_pos (.inl (Nat.succ_ne_zero _))
  · simp [hb]

/-- A head from an edge that goes no further leaves what the router made of it. -/
theorem State.headIn_stopped {t : State} (hm : s.meetHead n h = (t, false)) : s.headIn n fc h = t := by
  rw [State.headIn, hm]
  rfl

/-- A head of a local source that goes no further leaves what the router made of it. -/
theorem State.headInject_stopped {t : State} (hm : s.meetHead n h = (t, false)) : s.headInject n fc h = t := by
  rw [State.headInject, hm]
  rfl

section
variable (hm : s.meetHead n h = (s, true))
include hm

/-- A head from an edge leaves on the output that its route and the free channels give (R288, R296). -/
theorem State.headIn_routes {o : Nat × Nat × Bool}
    (ho : routeHead ((s.node n).fab.route.get 0 (fld h.hdr 63 48)) (s.freeList n fc h.hdr) = some o) : s.headIn n fc h = s.hopHead n fc h o := by
  rw [State.headIn, hm]
  simp only [ho]
  rfl

/-- A local head enters on the lowest free channel of its first output (R288). -/
theorem State.headInject_enters {c : Nat}
    (hc : ((s.freeList n fc h.hdr)[fld ((s.node n).fab.route.get 0 (fld h.hdr 63 48)) 2 0]?).join = some c) :
    s.headInject n fc h = s.hopHead n fc h (fld ((s.node n).fab.route.get 0 (fld h.hdr 63 48)) 2 0, c, false) := by
  rw [State.headInject, hm]
  simp only [hc]
  rfl

/-- A local head whose first output has no free channel waits (R288, assumption log 29). -/
theorem State.headInject_waits (hc : ((s.freeList n fc h.hdr)[fld ((s.node n).fab.route.get 0 (fld h.hdr 63 48)) 2 0]?).join = none) :
    s.headInject n fc h = s.updFab n (fun f => { f with inject := f.inject ++ [h] }) := by
  rw [State.headInject, hm]
  simp only [hc]
  rfl

end

end

section
variable {n fc : Nat} {h : PktHead} {o : Nat × Nat × Bool} (hn : Table.wf {} s.nodes = true)
include hn

theorem State.hopHead_nodes_wf : Table.wf {} (s.hopHead n fc h o).nodes = true := by
  unfold State.hopHead
  rw [State.emit_nodes]
  exact State.updFab_nodes_wf hn

/-- A head that takes an output leaves those that wait. -/
theorem State.hopHead_inject : ((s.hopHead n fc h o).node n).fab.inject = (s.node n).fab.inject := by
  unfold State.hopHead
  rw [State.emit_node, State.fab_updFab hn]

end

/-! ### The heads of one fc -/

section
variable {n : NodeNo} {fc : Nat} {h : PktHead} (hin : (s.node n.val).fab.inject = [])
include hin

/-- One head from an edge, which leaves no head of a local source waiting. -/
theorem execRouterHeadArrival_edge {t : State} (hp : h.inPort < 4) (ht : s.headIn n.val fc h = t) (htn : Table.wf {} t.nodes = true)
    (hti : (t.node n.val).fab.inject = []) : exec (.routerHeadArrival n fc [h]) s = .next t := by
  have hedge : [h].filter (fun h => decide (h.inPort < 4)) = [h] := List.filter_cons_of_pos (decide_eq_true hp)
  have hlocal : [h].filter (fun h => decide (4 ≤ h.inPort)) = [] := List.filter_cons_of_neg (by simpa using hp)
  rw [exec_routerHeadArrival, execRouterHeadArrival, hin, hedge, hlocal]
  change Host.Outcome.next ((s.headIn n.val fc h).updFab n.val _) = _
  rw [ht, State.updFab_clearInject htn hti]

/-- Two heads from edges take their outputs in the order of their ranks, whichever order they are given in (R288). -/
theorem execRouterHeadArrival_two {g : PktHead} (hg : g.inPort < 4) (hp : h.inPort < 4) (hlt : PktHead.rank g < PktHead.rank h) :
    exec (.routerHeadArrival n fc [g, h]) s = .next (((s.headIn n.val fc g).headIn n.val fc h).updFab n.val fun f => { f with inject := [] })
      ∧ exec (.routerHeadArrival n fc [h, g]) s = exec (.routerHeadArrival n fc [g, h]) s := by
  have hedges (a b : PktHead) (ha : a.inPort < 4) (hb : b.inPort < 4) : [a, b].filter (fun h => decide (h.inPort < 4)) = [a, b] := by simp [ha, hb]
  have hlocals (a b : PktHead) (ha : a.inPort < 4) (hb : b.inPort < 4) : [a, b].filter (fun h => decide (4 ≤ h.inPort)) = [] := by
    simp [Nat.not_le.2 ha, Nat.not_le.2 hb]
  have hgh : sortBy PktHead.rank [g, h] = [g, h] := by simp [sortBy, insertBy, Nat.not_lt.2 hlt.le]
  have hhg : sortBy PktHead.rank [h, g] = [g, h] := by simp [sortBy, insertBy, hlt]
  simp only [exec_routerHeadArrival, execRouterHeadArrival, hin, hedges _ _ hg hp, hedges _ _ hp hg, hlocals _ _ hg hp, hlocals _ _ hp hg, hgh, hhg]
  exact ⟨rfl, trivial⟩

variable (hn : Table.wf {} s.nodes = true)
include hn

/-- A change of a router that leaves its waiting heads is all that a head from an edge does. -/
theorem execRouterHeadArrival_edge_updFab {g : Fab → Fab} (hp : h.inPort < 4) (ht : s.headIn n.val fc h = s.updFab n.val g)
    (hg : (g (s.node n.val).fab).inject = (s.node n.val).fab.inject) : exec (.routerHeadArrival n fc [h]) s = .next (s.updFab n.val g) :=
  execRouterHeadArrival_edge hin hp ht (State.updFab_nodes_wf hn) (by rw [State.fab_updFab hn, hg, hin])

/-- One head of a local source. -/
theorem execRouterHeadArrival_local (hp : 4 ≤ h.inPort) : exec (.routerHeadArrival n fc [h]) s = .next (s.headInject n.val fc h) := by
  have hedge : [h].filter (fun h => decide (h.inPort < 4)) = [] := List.filter_cons_of_neg (by simpa using hp)
  have hlocal : [h].filter (fun h => decide (4 ≤ h.inPort)) = [h] := List.filter_cons_of_pos (decide_eq_true hp)
  rw [exec_routerHeadArrival, execRouterHeadArrival, hin, hedge, hlocal]
  change Host.Outcome.next ((s.updFab n.val _).headInject n.val fc h) = _
  rw [State.updFab_clearInject hn hin]

/-- A head from an edge that takes an output is all that its arrival does. -/
theorem execRouterHeadArrival_hops {o : Nat × Nat × Bool} (hp : h.inPort < 4) (ht : s.headIn n.val fc h = s.hopHead n.val fc h o) :
    exec (.routerHeadArrival n fc [h]) s = .next (s.hopHead n.val fc h o) :=
  execRouterHeadArrival_edge hin hp ht (State.hopHead_nodes_wf hn) ((State.hopHead_inject hn).trans hin)

end

/-- A stale head ranks before one that is not, and of two alike the one of the higher age first (R288). -/
theorem PktHead.rank_lt {g h : PktHead} (hage : 64 ≤ fld g.hdr 13 7 ∧ fld h.hdr 13 7 < 64 ∨ fld h.hdr 13 7 < fld g.hdr 13 7)
    (hgp : g.inPort < 8) (hgc : g.inCh < 64) (hhp : h.inPort < 8) (hhc : h.inCh < 64) : PktHead.rank g < PktHead.rank h := by
  have hg : fld g.hdr 13 7 < 128 := fld_lt g.hdr
  have hh : fld h.hdr 13 7 < 128 := fld_lt h.hdr
  unfold PktHead.rank
  split <;> split <;> omega

/-- A channel is free where it is present, no packet occupies it, and no entry reserves it over the packet's flits (R288). -/
theorem Fab.free_iff {f : Fab} {n p c fc k : Nat} : f.free n p c fc k = true ↔ f.present n p c = true ∧ f.busy.get 0 (64 * p + c) ≤ fc
    ∧ ∀ r ∈ f.runs, ∀ e ∈ f.entriesOf r.num, (p, c) ∈ f.entryOutputs e → fc + k ≤ r.t + fld e 23 0 ∨ r.t + fld e 23 0 + fld e 39 24 ≤ fc := by
  have hres : f.reserved p c fc k = false ↔ ∀ r ∈ f.runs, ∀ e ∈ f.entriesOf r.num, (p, c) ∈ f.entryOutputs e →
      fc + k ≤ r.t + fld e 23 0 ∨ r.t + fld e 23 0 + fld e 39 24 ≤ fc := by
    rw [Fab.reserved, List.any_eq_false]
    refine forall₂_congr fun r _ => ?_
    rw [Bool.not_eq_true, List.any_eq_false]
    refine forall₂_congr fun e _ => ?_
    rw [Bool.and_eq_true, Bool.and_eq_true, List.contains_iff_mem, decide_eq_true_eq, decide_eq_true_eq, and_assoc, not_and, not_and_or, Nat.not_lt,
      Nat.not_lt]
  rw [Fab.free, Bool.and_eq_true, Bool.and_eq_true, Bool.not_eq_true', hres, decide_eq_true_eq]
  tauto

/-- The first output, where it has a free channel (R296). -/
theorem routeHead_primary {e : BitVec 13} {free : List (Option Nat)} {c : Nat} (h : (free[fld e 2 0]?).join = some c) :
    routeHead e free = some (fld e 2 0, c, false) := by
  unfold routeHead
  dsimp only
  rw [h]

/-! ### Scheduled flits -/

section
variable {n : NodeNo} {fc inp ch : Nat} {dev : BitVec 24}

/-- A scheduled flit that no entry covers is counted as missed and fails the phase (R291). -/
theorem execScheduledFlitArrival_missed (hd : decodeBurst dev = .clean) (he : (s.node n.val).fab.entryFor fc inp ch = none) :
    exec (.scheduledFlitArrival n fc inp ch dev) s = .next (s.updFab n.val fun f => { f with miss := satInc f.miss, exMiss := true }) := by
  rw [exec_scheduledFlitArrival, execScheduledFlitArrival]
  simp only [hd, he]
  rfl

/-- A scheduled flit leaves on every present output of its entry, poisoned where it came poisoned (R285, R291). -/
theorem execScheduledFlitArrival_leaves {e : BitVec 80} (hd : decodeBurst dev = .clean ∨ decodeBurst dev = .poisoned)
    (hup : 4 ≤ inp ∨ (s.node n.val).fab.present n.val inp ch = true) (he : (s.node n.val).fab.entryFor fc inp ch = some e) :
    exec (.scheduledFlitArrival n fc inp ch dev) s = .next { s with
      out := s.out ++ (((s.node n.val).fab.entryOutputs e).filter fun o => (s.node n.val).fab.present n.val o.1 o.2).map
        fun o => Out.flit n.val o.1 o.2 (decodeBurst dev == .poisoned) } := by
  have hcut : (decide (inp < 4) && !(s.node n.val).fab.present n.val inp ch) = false := by
    obtain hp | hp := hup
    · simp [Nat.not_lt.2 hp]
    · simp [hp]
  rw [exec_scheduledFlitArrival, execScheduledFlitArrival]
  simp only [he, hcut]
  obtain hd | hd := hd <;> simp only [hd] <;> exact congrArg _ (State.foldl_emit _ s)

/-- A scheduled flit of a local source that cannot be corrected fails the phase and leaves poisoned (R285, R303). -/
theorem execScheduledFlitArrival_bad {e : BitVec 80} (hd : decodeBurst dev = .bad) (hp : 4 ≤ inp) (he : (s.node n.val).fab.entryFor fc inp ch = some e) :
    exec (.scheduledFlitArrival n fc inp ch dev) s = .next { s.updFab n.val (fun f => { f with exUe := true }) with
      out := s.out ++ (((s.node n.val).fab.entryOutputs e).filter fun o => (s.node n.val).fab.present n.val o.1 o.2).map
        fun o => Out.flit n.val o.1 o.2 true } := by
  rw [exec_scheduledFlitArrival, execScheduledFlitArrival]
  simp only [he, hd, State.linkUe_local hp]
  exact congrArg _ (State.foldl_emit _ (s.updFab n.val fun f => { f with exUe := true }))

end

/-! ### The control network -/

section
variable {n : Nat} {c d : CtlPkt} {q r : List CtlPkt}

/-- The oldest packet, of priority, goes first (R308). -/
theorem takeCtl_prio (hs : c.src = n) (hp : c.prio = true) : takeCtl (c :: r) n = some (c, r) := by
  simp [takeCtl, List.findIdx?_cons, hs, hp]

/-- The oldest packet goes first where no younger one has priority (R308). -/
theorem takeCtl_oldest (hs : c.src = n) (hr : ∀ a ∈ r, a.src = n → a.prio = false) : takeCtl (c :: r) n = some (c, r) := by
  cases hp : c.prio with
  | true => exact takeCtl_prio hs hp
  | false =>
    have hnone : r.findIdx? (fun c => c.src == n && c.prio) = none := List.findIdx?_eq_none_iff.2 fun a ha => by
      by_cases hsrc : a.src = n
      · simp [hr a ha hsrc]
      · simp [hsrc]
    simp [takeCtl, List.findIdx?_cons, hs, hp, hnone]

/-- A packet of priority passes one without (R308). -/
theorem takeCtl_passes (hc : c.prio = false) (hs : d.src = n) (hp : d.prio = true) : takeCtl (c :: d :: r) n = some (d, c :: r) := by
  simp [takeCtl, List.findIdx?_cons, hc, hs, hp]

theorem satAdd_zero {w : Nat} (x : BitVec w) : satAdd x 0 = x := by
  rw [satAdd, Nat.add_zero, if_pos x.isLt, BitVec.ofNat_toNat, BitVec.setWidth_eq]

/-- A link whose checks do not fail repeats nothing (R307). -/
theorem State.ctlCross_clean (hn : Table.wf {} s.nodes = true) {l : Nat × Nat} : s.ctlCross n l 0 = s := by
  have hretry (m : Nat) : s.updNode m (fun y => { y with ctl := { y.ctl with retry := satAdd y.ctl.retry (min 2 0) } }) = s := by
    refine State.updNode_of_fixed hn ?_
    rw [Nat.min_zero, satAdd_zero]
  unfold State.ctlCross
  rw [if_pos (by decide)]
  split
  · exact hretry _
  · rfl

/-- A packet comes through over links whose checks do not fail (R306, R307). -/
theorem State.ctlGo_clean (hn : Table.wf {} s.nodes = true) : ∀ w, s.ctlGo n [] w = (s, true)
  | [] => rfl
  | _ :: w => by
    rw [State.ctlGo, List.find?_nil, Option.map_none, Option.getD_none, State.ctlCross_clean hn]
    exact State.ctlGo_clean hn w

theorem State.ctlTravel_clean (hn : Table.wf {} s.nodes = true) {w : List (Nat × Nat)} (hw : s.ctlWay n = some w) : s.ctlTravel n [] = (s, true) := by
  rw [State.ctlTravel, hw]
  dsimp only
  rw [State.ctlGo_clean hn, if_pos rfl]

section
variable {errs : List (Fin 13 × Fin 4)} {kind : CtlPkt → Bool} {act : State → CtlPkt → State}

/-- The next packet, of the kind asked for, comes through and is acted on. -/
theorem State.ctlArrive_comes (hn : Table.wf {} s.nodes = true) {w : List (Nat × Nat)} (hw : s.ctlWay n = some w) (hq : takeCtl s.ctlq n = some (c, q))
    (hk : kind c = true) : s.ctlArrive n [] kind act = act { s with ctlq := q } c := by
  rw [State.ctlArrive, hq]
  dsimp only
  rw [hk, State.ctlTravel_clean hn hw]
  rfl

/-- A next packet of another kind stays where it is. -/
theorem State.ctlArrive_other (hq : takeCtl s.ctlq n = some (c, q)) (hk : kind c = false) : s.ctlArrive n errs kind act = s := by
  rw [State.ctlArrive, hq]
  dsimp only
  rw [hk]
  rfl

/-- Where no way works, every packet waits (R306). -/
theorem State.ctlArrive_waits (hw : s.ctlWay n = none) : s.ctlArrive n errs kind act = s := by
  unfold State.ctlArrive
  split
  · rfl
  · rw [State.ctlTravel, hw]
    exact ite_self s

end

section
variable (hsite : s.siteOf n = none) {l : Nat × Nat}
include hsite

/-- A port die's link that passes in the end counts its repeats at the sender (R307). -/
theorem State.ctlCross_repeats {fails : Nat} (hf : fails < 3) :
    s.ctlCross n l fails = s.updNode n (fun y => { y with ctl := { y.ctl with retry := satAdd y.ctl.retry (min 2 fails) } }) := by
  unfold State.ctlCross
  rw [hsite]
  exact if_pos hf

/-- A port die's link is marked failed at the third failed check (R307, assumption log 96). -/
theorem State.ctlCross_fails : (s.ctlCross n l 3).hub.ringDown.contains (312 + (n - 265)) = true := by
  unfold State.ctlCross
  rw [hsite]
  dsimp only [Option.map_none]
  rw [if_neg (by decide), State.ringPorts_hub]
  exact List.contains_iff_mem.2 (List.mem_append_right _ (List.mem_singleton_self _))

end

end

/-- Settles O39: what a router meets in a head decides what the head's arrival does; a scheduled flit follows its entry; a control packet
comes where a way works. -/
theorem routersAndTheControlNetwork : Obligations.RoutersAndTheControlNetwork := by
  unfold Obligations.RoutersAndTheControlNetwork
  rintro s n x ⟨-, -, -, hn, -⟩ rfl
  refine ⟨fun fc h hin hclean hup => ⟨fun hty => ?_, fun hlo hhi hdown => ⟨fun hp => ?_, fun hp => ?_⟩,
      fun hlo hhi h6 h7 => ⟨fun o hp ho => ?_, fun c hp hc => ?_, fun hp hc => ?_⟩⟩,
    fun fc h d hin hd hb => ⟨fun hp => ?_, fun l hp hl hfew => ?_⟩,
    fun fc g h hin hg hp => execRouterHeadArrival_two hin hg hp,
    fun g h => PktHead.rank_lt, fun p c fc k => Fab.free_iff, fun e free c => routeHead_primary,
    fun fc inp ch dev hd _ he => ⟨_, execScheduledFlitArrival_missed hd he, State.fab_updFab hn, rfl, fun m hm => State.node_updNode_ne hm.symm⟩,
    fun fc inp ch dev e => execScheduledFlitArrival_leaves, fun fc inp ch dev e => execScheduledFlitArrival_bad, rfl,
    fun w hw => ⟨fun r hq => ?_, fun r tag code ws hq hr => ?_, fun r m hq hr => ?_, fun r tag code ws hq => ⟨?_, ?_⟩⟩,
    fun hw errs => ?_, fun l fails hsite => State.ctlCross_repeats hsite, fun l hsite _ => State.ctlCross_fails hsite, fun t b r f => rfl⟩
  · have hm := State.meetHead_reserved hclean hup hty
    by_cases hp : h.inPort < 4
    · exact execRouterHeadArrival_edge_updFab hin hn hp (State.headIn_stopped hm) rfl
    · rw [execRouterHeadArrival_local hin hn (Nat.not_lt.1 hp), State.headInject_stopped hm]
  · rw [execRouterHeadArrival_local hin hn hp.ge, State.headInject_stopped (State.meetHead_down hclean hup hlo hhi hdown), if_pos hp]
    rfl
  · exact execRouterHeadArrival_edge_updFab hin hn hp
      ((State.headIn_stopped (State.meetHead_down hclean hup hlo hhi hdown)).trans (if_neg (by omega))) rfl
  · exact execRouterHeadArrival_hops hin hn hp (State.headIn_routes (State.meetHead_goes hclean hup hlo hhi h6 h7) ho)
  · rw [execRouterHeadArrival_local hin hn hp.ge, State.headInject_enters (State.meetHead_goes hclean hup hlo hhi h6 h7) hc]
  · rw [execRouterHeadArrival_local hin hn hp.ge, State.headInject_waits (State.meetHead_goes hclean hup hlo hhi h6 h7) hc]
    refine congrArg _ (State.updNode_congr ?_)
    simp only [hin, List.nil_append]
  · rw [execRouterHeadArrival_local hin hn hp, State.headInject_stopped (State.meetHead_of_bad hd hb), State.linkUe_local hp]
  · subst hl
    refine execRouterHeadArrival_edge_updFab hin hn hp ((State.headIn_stopped (State.meetHead_of_bad hd hb)).trans ?_) rfl
    rw [State.linkUe_few hp rfl (by rw [State.fab_updFab hn]; exact hfew), State.updFab_updFab hn, State.fab_updFab hn]
    rfl
  · exact congrArg Host.Outcome.next (State.ctlArrive_comes hn hw (by rw [hq]; exact takeCtl_prio rfl rfl) rfl)
  · exact congrArg Host.Outcome.next (State.ctlArrive_comes hn hw (by rw [hq]; exact takeCtl_oldest rfl hr) rfl)
  · exact congrArg Host.Outcome.next (State.ctlArrive_comes hn hw (by rw [hq]; exact hr.elim (takeCtl_prio rfl) (takeCtl_oldest rfl)) rfl)
  · exact congrArg Host.Outcome.next (State.ctlArrive_other (by rw [hq]; exact takeCtl_passes rfl rfl rfl) rfl)
  · exact congrArg Host.Outcome.next (State.ctlArrive_comes hn hw (by rw [hq]; exact takeCtl_passes rfl rfl rfl) rfl)
  · exact ⟨congrArg Host.Outcome.next (State.ctlArrive_waits hw), congrArg Host.Outcome.next (State.ctlArrive_waits hw), congrArg Host.Outcome.next (State.ctlArrive_waits hw)⟩

/-! ### Tiles changed together -/

section
variable {l : List Nat} {f : Nat → Tile → Tile}

/-- Tiles changed together leave all else of the panel. -/
theorem State.mapTiles_leaves {γ : Type} (g : State → γ) (hg : ∀ (s : State) t x, g (s.setTile t x) = g s) : g (s.mapTiles l f) = g s :=
  foldl_frame g (fun s t => hg s t _) l s

theorem State.tile_mapTiles_of_notMem {t : Nat} (ht : t ∉ l) : (s.mapTiles l f).tile t = s.tile t :=
  List.foldlRecOn (motive := fun u : State => u.tile t = s.tile t) l _ rfl fun _ hu _ hk =>
    (State.tile_updTile_ne (ne_of_mem_of_not_mem hk ht)).trans hu

/-- Each tile of a list without repeats is changed once. -/
theorem State.tile_mapTiles_of_mem {t : Nat} (hw : Table.wf {} s.tiles = true) (hl : l.Nodup) (ht : t ∈ l) :
    (s.mapTiles l f).tile t = f t (s.tile t) := by
  induction l generalizing s with
  | nil => exact absurd ht List.not_mem_nil
  | cons k l ih =>
    obtain ⟨hk, hl⟩ := List.nodup_cons.1 hl
    change ((s.updTile k (f k)).mapTiles l f).tile t = _
    obtain rfl | ht := List.mem_cons.1 ht
    · rw [State.tile_mapTiles_of_notMem hk, State.tile_updTile_same hw]
    · rw [ih (s := s.updTile k (f k)) (State.setTile_tiles_wf hw) hl ht, State.tile_updTile_ne (ne_of_mem_of_not_mem ht hk).symm]

end

/-- The tiles of L-die `n` are sixteen. -/
theorem nodup_dieTiles (n : Nat) : ((List.range 16).map fun i => 16 * n + i).Nodup :=
  List.nodup_range.map fun _ _ h => Nat.add_left_cancel h

theorem mem_dieTiles {n i : Nat} (h : i < 16) : 16 * n + i ∈ (List.range 16).map fun i => 16 * n + i :=
  List.mem_map_of_mem (List.mem_range.2 h)

/-! ### Wingbeats -/

section
variable {p : PartNo} (hpair : s.pair p.val = [p.val])
include hpair

/-- The first wingbeat of a run goes once every tile holds at STEP (R320). -/
theorem execWingbeatSend_first (h : s.firstReady p.val = true) : exec (.wingbeatSend p) s = .next ((s.sendFirst p.val false).endNowait [p.val]) := by
  rw [exec_wingbeatSend, execWingbeatSend, hpair]
  exact congrArg _ (if_pos (by simp [h]))

/-- A later wingbeat goes once the combine lets it (R322). -/
theorem execWingbeatSend_next (h0 : s.firstReady p.val = false) (h : s.nextReady p.val = true) :
    exec (.wingbeatSend p) s = .next ((s.sendNext [p.val]).endNowait [p.val]) := by
  rw [exec_wingbeatSend, execWingbeatSend, hpair]
  exact congrArg _ ((if_neg (by simp [h0])).trans (if_pos (by simp [h])))

/-- A partition in ROLLBACK whose tiles hold again, without a halt that waits or an L-die that is lost, resumes (R336). -/
theorem execResumeWingbeat_resumes (hst : (s.part p.val).sch.state = .rollback) (hwb : (s.part p.val).wbs.wb = none) (hat : s.allAtStep p.val = true)
    (hhalt : (s.part p.val).wbs.haltReq = 0) (hmolt : (s.hub.molt.get {} p.val).ldies = []) : exec (.resumeWingbeat p) s
      = .next ((((s.sendFirst p.val true).updPart p.val (fun x => { x with sch := { x.sch with rollback := x.sch.rollback + 1 } })).moltEnd
        p.val true).endNowait [p.val]) := by
  rw [exec_resumeWingbeat, execResumeWingbeat, hpair]
  dsimp only
  rw [if_neg (by simp [hst, hwb, hat, hmolt]), if_neg (by simp [hhalt])]
  rfl

end

/-- What a wingbeat's arrival makes of its die-cell (R293, R314). -/
def Node.meetWb (x : Node) (wb : Wingbeat) : Node :=
  { x with
    xbusy := !wb.noExchange
    fab := if wb.noExchange then x.fab else { x.fab with
      phase := BitVec.ofNat 12 wb.phase, runs := (⟨wb.phase, wb.seq, wb.t⟩ :: x.fab.runs).take 2 } }

/-- What a wingbeat's arrival makes of the exchange engines of a die-cell: their lists begin, and digests start anew (R329, R344). -/
def State.beginLists (s : State) (n : Nat) : State :=
  if n < 240 then s.mapTiles ((List.range 16).map (fun i => 16 * n + i)) (fun _ x => { x with xe := { x.xe with digest := 0, sent := 0 } })
  else s.updStack (n - 240) (fun x => { x with ready := [], xe := { x.xe with digest := 0, sent := 0 } })

theorem execWingbeatArrival_meets {n : NodeNo} {wb : Wingbeat} (hp : s.partOfNode n.val < 24) (hwb : (s.part (s.partOfNode n.val)).wbs.wb = some wb) :
    exec (.wingbeatArrival n) s = .next ((s.updNode n.val (fun x => x.meetWb wb)).beginLists n.val) := by
  rw [exec_wingbeatArrival, execWingbeatArrival]
  dsimp only
  rw [if_pos hp, hwb]
  rfl

section
variable {n : Nat}

/-- The engines' lists leave all but tiles and stacks. -/
theorem State.beginLists_leaves {γ : Type} (g : State → γ) (ht : ∀ (s : State) t x, g (s.setTile t x) = g s) (hs : ∀ (s : State) k x, g (s.setStack k x) = g s) :
    g (s.beginLists n) = g s := by
  unfold State.beginLists
  split
  · exact State.mapTiles_leaves g ht
  · exact hs _ _ _

@[simp] theorem State.beginLists_hub : (s.beginLists n).hub = s.hub := State.beginLists_leaves State.hub (fun _ _ _ => rfl) fun _ _ _ => rfl
@[simp] theorem State.beginLists_nodes : (s.beginLists n).nodes = s.nodes := State.beginLists_leaves State.nodes (fun _ _ _ => rfl) fun _ _ _ => rfl
@[simp] theorem State.beginLists_fns : (s.beginLists n).fns = s.fns := State.beginLists_leaves State.fns (fun _ _ _ => rfl) fun _ _ _ => rfl
@[simp] theorem State.beginLists_ports : (s.beginLists n).ports = s.ports := State.beginLists_leaves State.ports (fun _ _ _ => rfl) fun _ _ _ => rfl
@[simp] theorem State.beginLists_parts : (s.beginLists n).parts = s.parts := State.beginLists_leaves State.parts (fun _ _ _ => rfl) fun _ _ _ => rfl

/-- The sixteen engines of a compute die begin anew, and no stack does. -/
theorem State.beginLists_die (hw : Table.wf {} s.tiles = true) (hn : n < 240) :
    (∀ i, i < 16 → ((s.beginLists n).tile (16 * n + i)).xe = { (s.tile (16 * n + i)).xe with digest := 0, sent := 0 })
      ∧ (s.beginLists n).snodes = s.snodes := by
  rw [State.beginLists, if_pos hn]
  refine ⟨fun i hi => ?_, State.mapTiles_leaves State.snodes fun _ _ _ => rfl⟩
  rw [State.tile_mapTiles_of_mem hw (nodup_dieTiles n) (mem_dieTiles hi)]

/-- A stack node's engine begins anew, and no tile's does. -/
theorem State.beginLists_stack (hs : Table.wf {} s.snodes = true) (hn : 240 ≤ n) : (s.beginLists n).tiles = s.tiles
    ∧ ((s.beginLists n).stack (n - 240)).xe = { (s.stack (n - 240)).xe with digest := 0, sent := 0 } := by
  rw [State.beginLists, if_neg (Nat.not_lt.2 hn)]
  exact ⟨rfl, by rw [State.stack_updStack_same hs]⟩

end

/-! ### Exchanges -/

section
variable {n : NodeNo} {i : Fin 16} {j : Nat} {late : List Nat} (hx : s.exchanging n.val = true)
include hx

section
variable {o : Nat} (hn : n.val < 240) (hj : (s.tile (16 * n.val + i.val)).xe.sent = j)
  (ho : (s.tile (16 * n.val + i.val)).xdescOff (s.node n.val).fab.phase.toNat j = some o)
include hn hj ho

/-- A tile's next descriptor goes out at its time (R327, R328). -/
theorem execXchgStreamStart_tile {d : BitVec 256} (hr : (s.tile (16 * n.val + i.val)).spm.refused o 32 = none) (hd : d = (s.tile (16 * n.val + i.val)).xdesc o) :
    exec (.xchgStreamStart n i j late) s = .next ((((s.descRead (16 * n.val + i.val) o).tillTb (s.phaseAt n.val (fld d 55 32))).tileStream
      (16 * n.val + i.val) d late ((s.part (s.partOfNode n.val)).sch.state == .replaying)).tilePoll (16 * n.val + i.val)) := by
  rw [exec_xchgStreamStart, execXchgStreamStart]
  dsimp only
  rw [if_neg (by simp [hx]), if_pos hn, if_pos hj, ho, hd]
  exact congrArg _ (if_neg (by simp [hr]))

/-- A descriptor in a bank that is off is the bank fault (R241). -/
theorem execXchgStreamStart_refused {f : Nat × Nat} (hr : (s.tile (16 * n.val + i.val)).spm.refused o 32 = some f) :
    exec (.xchgStreamStart n i j late) s = .next (s.bankFault (16 * n.val + i.val) f 3 0) := by
  rw [exec_xchgStreamStart, execXchgStreamStart]
  dsimp only
  rw [if_neg (by simp [hx]), if_pos hn, if_pos hj, ho]
  refine congrArg _ ((if_pos (by simp [hr])).trans ?_)
  rw [State.descRead, hr]

end

/-- A stack's next descriptor goes out at its time (R328, R332). -/
theorem execXchgStreamStart_stack {d : BitVec 256} (hlo : 240 ≤ n.val) (hhi : n.val < 264) (hj : (s.stack (n.val - 240)).xe.sent = j)
    (hd : (s.stack (n.val - 240)).xdesc (s.node n.val).fab.phase.toNat j = some d) :
    exec (.xchgStreamStart n i j late) s = .next ((s.tillTb (s.phaseAt n.val (fld d 55 32))).stackStream (n.val - 240) j d late) := by
  rw [exec_xchgStreamStart, execXchgStreamStart]
  dsimp only
  rw [if_neg (by simp [hx]), if_neg (Nat.not_lt.2 hlo), if_pos hhi, if_pos hj, hd]

end

/-- A die-cell without an exchange that has not reported in this beat reports a clear status at its wingbeat's release (R318). -/
theorem execExchangeReport_clear {n : NodeNo} (hp : s.partOfNode n.val < 24) (hch : bit (s.chCfg n.val 16) 24 = true)
    (hwb : (s.part (s.partOfNode n.val)).wbs.wb = none) (hst : (s.part (s.partOfNode n.val)).sch.state = .running)
    (hstart : (s.part (s.partOfNode n.val)).wbs.started = false)
    (hgot : ((s.node n.val).sync.got.get [] 16).any (fun g => g.1 == Member.node n.val) = false) (hbusy : (s.node n.val).xbusy = false) :
    exec (.exchangeReport n) s = .next (((s.tillTb (s.part (s.partOfNode n.val)).wbs.rel).updNode n.val (fun x => { x with xbusy := false })).syncAdd
      n.val 16 [(.node n.val, ⟨.step, false, false, false, 0⟩)]) := by
  rw [exec_exchangeReport, execExchangeReport]
  dsimp only
  rw [if_pos ⟨hp, hch, by rw [hwb]; rfl, .inl hst, by rw [hstart]; rfl, by rw [hgot]; rfl⟩]
  simp only [hbusy]
  rfl

/-! ### Combines -/

section
variable {p w : Nat}

/-- Bits 8 to 13 of a status word, which call for more than a commit (R334). -/
theorem fld_causes : fld (BitVec.ofNat 64 w) 13 8 = w / 256 % 64 := by
  rw [fld, BitVec.toNat_ofNat, Nat.shiftRight_eq_div_pow]
  omega

theorem fld_causes_of_testBit {i : Nat} (hi : i < 6) (h : w.testBit (8 + i) = true) : fld (BitVec.ofNat 64 w) 13 8 ≠ 0 := by
  intro h0
  have h1 : (w / 256 % 64).testBit i = true := by
    rw [show (64 : Nat) = 2 ^ 6 from rfl, show (256 : Nat) = 2 ^ 8 from rfl, Nat.testBit_mod_two_pow, Nat.testBit_div_two_pow, Nat.add_comm i 8, h]
    simpa using hi
  rw [← fld_causes, h0, Nat.zero_testBit] at h1
  exact Bool.false_ne_true h1

/-- A single partition's combine with a cause notes it, and its lowest row of R334 decides. -/
theorem State.combine_of_causes {u v : State} (hw : w = s.stepWord p) (hu : u = (s.clearStep p).updHub (fun h => { h with rearms := Table.put 0 h.rearms p 0 }))
    (hv : v = u.updPart p (fun y => { y with sch := { y.sch with lastCause := BitVec.ofNat 14 w } })) (hc : fld (BitVec.ofNat 64 w) 13 8 ≠ 0) :
    s.combine [p] = if w.testBit 9 then v.haltNow p 2 else if w.testBit 8 then v.rollback p else v.failReplay [p] s.tb := by
  subst hv hu
  unfold State.combine
  simp [← hw, hc]

/-- A single partition's combine of a word without a cause commits (R319). -/
theorem State.combine_of_clear {u : State} (hw : w = s.stepWord p) (hu : u = (s.clearStep p).updHub (fun h => { h with rearms := Table.put 0 h.rearms p 0 }))
    (hc : w < 256) : s.combine [p] = u.commitStep p s.tb w := by
  have h0 : fld (BitVec.ofNat 64 w) 13 8 = 0 := by rw [fld_causes]; omega
  have h8 : w.testBit 8 = false := Nat.testBit_lt_two_pow hc
  have h9 : w.testBit 9 = false := Nat.testBit_lt_two_pow (hc.trans (by decide))
  subst hu
  unfold State.combine
  simp [← hw, h0, h8, h9]

end

theorem execStepCombine_single {p : PartNo} (hpair : s.pair p.val = [p.val]) (hfull : s.combineFull p.val = true) :
    exec (.stepCombine p) s = .next (s.combine [p.val]) := by
  rw [exec_stepCombine, execStepCombine, hpair]
  exact congrArg _ (if_pos (by simp [hfull]))

/-! ### The watchdog -/

/-- A beat that does not complete in time halts a partition one of whose tiles has stopped, where every die-cell answers and no exception is
under way (R337). -/
theorem execWingbeatWatchdog_halts {p : PartNo} (hst : (s.part p.val).sch.state = .running) (hc : (s.part p.val).wbs.cAt = none)
    (hwb : (s.part p.val).wbs.wb = none) (hstart : (s.part p.val).wbs.started = false) (hclosing : (s.part p.val).wbs.closing = false)
    (htb : s.hub.tb.startAt = none) (hidle : ∃ t ∈ s.liveTiles p.val, (s.tile t).seq.hold ≠ .step true ∧ (s.tile t).seq.st = .idle)
    (hexc : ∀ t ∈ s.liveTiles p.val, (s.tile t).seq.hold ≠ .step true → (s.tile t).seq.st ≠ .exc) :
    exec (.wingbeatWatchdog p []) s = .next ((s.inc 264 fltWdCnt).haltNow p.val 4) := by
  have htill (k : Nat) : s.tillTb k = s := by rw [State.tillTb, htb]
  have hlive : (s.inc 264 fltWdCnt).liveTiles p.val = s.liveTiles p.val := rfl
  have hnoexc : ((s.liveTiles p.val).filter (fun t => (s.tile t).seq.hold != .step true)).any (fun t => (s.tile t).seq.st == .exc) = false := by
    simpa using hexc
  have hstopped : ((s.liveTiles p.val).filter (fun t => (s.tile t).seq.hold != .step true)).any
      (fun t => (s.tile t).seq.st == .stopped || (s.tile t).seq.st == .idle) = true := by
    obtain ⟨t, ht, hh, hi⟩ := hidle
    exact List.any_eq_true.2 ⟨t, List.mem_filter.2 ⟨ht, by simpa using hh⟩, by rw [hi]; rfl⟩
  rw [exec_wingbeatWatchdog, execWingbeatWatchdog]
  dsimp only
  rw [if_neg (by simp [hst, hc, hwb, hstart, hclosing])]
  simp only [htill, hlive, State.inc_tile, hnoexc, hstopped, List.any_nil, List.filter_false]
  rfl

/-- Settles O41: each event by its guards; a wingbeat's arrival by what it makes of the die-cell and of its engines; a combine by the bits of the
status word. -/
theorem runningASchedule : Obligations.RunningASchedule := by
  unfold Obligations.RunningASchedule
  rintro s p ⟨-, hw, hs, hn, -⟩
  refine ⟨execWingbeatSend_first, execWingbeatSend_next, fun n wb hp hwb hno => ⟨_, execWingbeatArrival_meets hp hwb, ?_⟩,
    fun n wb hp hwb hx => ⟨_, execWingbeatArrival_meets hp hwb, ?_⟩, fun wb hwb => ?_, fun t hh => ?_,
    fun n i j late hx => ⟨fun o d hn hj ho => execXchgStreamStart_tile hx hn hj ho, fun o f hn hj ho => execXchgStreamStart_refused hx hn hj ho,
      fun d => execXchgStreamStart_stack hx⟩,
    fun n => execExchangeReport_clear, fun hpair hfull => ⟨execStepCombine_single hpair hfull, fun u hu => ⟨fun h9 => ?_, fun h9 h8 => ?_,
      fun hlt hge h9 h8 => ?_, State.combine_of_clear rfl hu⟩⟩, execResumeWingbeat_resumes, execWingbeatWatchdog_halts⟩
  · refine ⟨?_, State.beginLists_hub, ⟨State.beginLists_fns, State.beginLists_ports, State.beginLists_parts⟩,
      State.beginLists_die (s := s.updNode n.val fun x => x.meetWb wb) hw, State.beginLists_stack (s := s.updNode n.val fun x => x.meetWb wb) hs⟩
    rw [State.node_congr State.beginLists_nodes, State.node_updNode_same hn, Node.meetWb, hno]
    rfl
  · have hnode : ((s.updNode n.val fun x => x.meetWb wb).beginLists n.val).node n.val = (s.node n.val).meetWb wb :=
      (State.node_congr State.beginLists_nodes _).trans (State.node_updNode_same hn)
    refine ⟨?_, ?_, ?_, State.beginLists_hub, State.beginLists_fns, State.beginLists_ports, State.beginLists_parts⟩ <;>
      rw [hnode, Node.meetWb, hx] <;> rfl
  · rw [exec_wingbeatRelease, execWingbeatRelease, hwb]
  · rw [State.leaveStep, hh]
  · rw [State.combine_of_causes rfl hu rfl (fld_causes_of_testBit (i := 1) (by decide) h9), if_pos h9]
  · rw [State.combine_of_causes rfl hu rfl (fld_causes_of_testBit (i := 0) (by decide) h8), if_neg (by simp [h9]), if_pos h8]
  · have hc : fld (BitVec.ofNat 64 (s.stepWord p.val)) 13 8 ≠ 0 := by rw [fld_causes]; omega
    rw [State.combine_of_causes rfl hu rfl hc, if_neg (by simp [h9]), if_neg (by simp [h8])]

end Sys2Proof.Machine

/-! PROOFS. The family of hub firmware's commands and the sectors' mailboxes: NOP, images, halts, resets, DMA, events and port roles (O8),
and the class B mailboxes (O13). -/

namespace Sys2Proof.Machine

variable {s : State}

/-! ### Commands of hub firmware -/

@[simp] theorem State.begin_fn {c : HostCmd} {g : HostCmd → HostCmd} {f : Nat} : (s.begin c g).fn f = s.fn f := by
  unfold State.begin
  dsimp only
  split <;> rfl

/-- The role of the next boot is no matter of a command's end. -/
@[simp] theorem State.endCmd_roleNext {c : HostCmd} {code : W16} {data : List Byte} : (s.endCmd c code data).hub.roleNext = s.hub.roleNext := by
  unfold State.endCmd
  extract_lets s1 s2 s3 s4
  have h3 : s3.hub.roleNext = s.hub.roleNext := ite_frame (fun t : State => t.hub.roleNext) rfl rfl
  have h4 : s4.hub.roleNext = s.hub.roleNext := ite_frame (fun t : State => t.hub.roleNext) h3 h3
  exact ite_frame (fun t : State => t.hub.roleNext) h4 ((congrArg Hub.roleNext State.sendReply_hub).trans h4)

section
variable {c : HostCmd} {e : LoadErr}

theorem State.loadFail_cells : SameCells s (s.loadFail c e) := State.endCmd_samePanel.cells

/-- A load that failed leaves its error in SCH_LOAD_* and the image as it was (R351). -/
theorem State.part_loadFail_same (h : Table.wf {} s.parts = true) : (s.loadFail c e).part c.part = { s.part c.part with sch := { (s.part c.part).sch with
    loadCode := BitVec.ofNat 8 e.1, loadSect := BitVec.ofNat 12 e.2.1, loadRec := BitVec.ofNat 32 e.2.2 } } :=
  (State.part_congr State.endCmd_samePanel.parts _).trans (State.part_updPart_same h)

end

section
variable {f : Fin 50} {q : Fin 8} {tag : W16} {c : HostCmd}

section
variable (hturn : PartTurn f.val q.val tag 0x10 c s) (hrest : s.atRest c.part = true) (hbm : (s.fn f.val).busMaster = true)
include hturn hrest hbm

/-- A file that places an image without a fault is loaded (R351). -/
theorem execLoadImage_sound {file : List Byte} {z : Zsi} {zs : List Zsi} (hplace : s.placeImage c.part file = .ok (z, zs))
    (hok : s.loadFault c.part z zs = none) : exec (.loadImage f q tag true (some file)) s = .next ((s.loadImage c.part z).endCmd c scOk []) := by
  rw [exec_loadImage, execLoadImage, State.fwRun_of_partTurn hturn, if_neg (by simp [hrest]), if_neg (by decide), if_neg (by simp [hbm])]
  simp only [hplace, hok]

/-- The first fault of a file's placement or of the checks on its image ends the load (R351). -/
theorem execLoadImage_faulty {file : List Byte} {e : LoadErr} (hbad : s.placeImage c.part file = .error e
    ∨ ∃ z zs, s.placeImage c.part file = .ok (z, zs) ∧ s.loadFault c.part z zs = some e) :
    exec (.loadImage f q tag true (some file)) s = .next (s.loadFail c e) := by
  rw [exec_loadImage, execLoadImage, State.fwRun_of_partTurn hturn, if_neg (by simp [hrest]), if_neg (by decide), if_neg (by simp [hbm])]
  obtain hplace | ⟨z, zs, hplace, hfault⟩ := hbad
  · simp only [hplace]
  · simp only [hplace, hfault]

end

/-- DMA_WRITE with the bytes that it asks for begins with them and moves its first segment (R397). -/
theorem execDmaWrite_moves {bs : List Byte} (hturn : PartTurn f.val q.val tag 0x13 c s) (hmax : c.len ≤ 16777216)
    (hbm : (s.fn f.val).busMaster = true) (hlen : bs.length = c.len) : exec (.dmaWrite f q tag (some bs)) s
      = .next ((s.begin c (fun y => { y with data := bs })).moveNext { c with begun := true, data := bs }) := by
  rw [exec_dmaWrite]
  simp only [execDmaWrite, hturn.cmd]
  rw [if_neg (by simp [hlen]), State.fwRun_of_partTurn hturn, if_neg (by exact Nat.not_lt.2 hmax), if_neg (by simp [hbm])]

end

/-- Settles O8: each command's guards decide its branch; a reply and a failed load leave the cells. -/
theorem firmwareCommands : Obligations.FirmwareCommands := by
  unfold Obligations.FirmwareCommands
  rintro s f q tag c ⟨-, -, -, -, -, -, hparts⟩
  refine ⟨fun hturn => ?_, fun file z zs hturn hrest hbm hplace hok => execLoadImage_sound hturn hrest hbm hplace hok,
    fun file e hturn hrest hbm hbad => ⟨_, execLoadImage_faulty hturn hrest hbm hbad, ?_⟩, fun room file hturn hrest => ?_, fun hturn hst => ?_,
    fun hturn hst => ?_, fun hturn => ?_, fun bs hturn hmax hbm hlen => execDmaWrite_moves hturn hmax hbm hlen, fun hturn hmax hbm => ?_,
    fun hturn hfew hevq => ?_, fun hturn hrole => ?_⟩
  · rw [exec_hostNop, execHostNop, State.fwRun_of_turn hturn]
  · dsimp only
    rw [State.part_loadFail_same hparts]
    exact ⟨rfl, rfl, rfl, rfl, State.loadFail_cells⟩
  · rw [exec_loadImage, execLoadImage, State.fwRun_of_partTurn hturn, if_pos (by simp [hrest])]
  · rw [exec_halt, execHalt, State.fwRun_of_partTurn hturn, hst]
  · rw [exec_halt, execHalt, State.fwRun_of_partTurn hturn, hst]
  · rw [exec_resetPartition, execResetPartition, State.fwRun_of_partTurn hturn]
  · rw [exec_dmaRead, execDmaRead, State.fwRun_of_partTurn hturn, if_neg (by exact Nat.not_lt.2 hmax), if_neg (by simp [hbm])]
  · rw [exec_asyncEvent, execAsyncEvent, State.fwRun_of_turn hturn, if_neg (Nat.not_le.2 hfew)]
    dsimp only
    rw [State.begin_fn, hevq]
  · rw [Runs, exec_setPortRole, execSetPortRole, State.fwRun_of_turn hturn, if_neg (Nat.not_lt.2 hrole)]
    exact ⟨_, rfl, State.endCmd_roleNext, State.endCmd_samePanel.cells⟩

/-! ### The words of a sector's mailbox -/

section
variable {k m : Nat} (hk : k < 24) (hm : m < 4)
include hk hm

theorem mbbHeld_ok : (mbbHeld k m).ok = true := Fd.ok_of (by decide) (by decide) (by omega)
theorem mbbOwner_ok : (mbbOwner k m).ok = true := Fd.ok_of (by decide) (by decide) (by omega)
theorem mbbPend_ok : (mbbPend k m).ok = true := Fd.ok_of (by decide) (by decide) (by omega)
theorem mbbTaken_ok : (mbbTaken k m).ok = true := Fd.ok_of (by decide) (by decide) (by omega)
theorem mbbSeq_ok : (mbbSeq k m).ok = true := Fd.ok_of (by decide) (by decide) (by omega)

omit hk hm in
/-- A freed lock's words are the three that are cleared. -/
theorem State.mbbFree_hrd {f : Fd} :
    (s.mbbFree k m).hrd f = (((s.hwr (mbbHeld k m) 0).hwr (mbbPend k m) 0).hwr (mbbTaken k m) 0).hrd f := State.updHub_hrd

variable (hw : Table.wf 0 s.regs = true)
include hw

/-- A freed lock is held by nobody, with no message pending or taken (R414). -/
theorem State.mbbFree_clears : (s.mbbFree k m).hrd (mbbHeld k m) = 0 ∧ (s.mbbFree k m).hrd (mbbPend k m) = 0
    ∧ (s.mbbFree k m).hrd (mbbTaken k m) = 0 := by
  have h1 : Table.wf 0 (s.hwr (mbbHeld k m) 0).regs = true := State.hwr_wf hw
  have h2 : Table.wf 0 ((s.hwr (mbbHeld k m) 0).hwr (mbbPend k m) 0).regs = true := State.hwr_wf h1
  have hheld := mbbHeld_ok hk hm
  have hpend := mbbPend_ok hk hm
  have htaken := mbbTaken_ok hk hm
  simp only [State.mbbFree_hrd]
  refine ⟨?_, ?_, ?_⟩
  · rw [State.hrd_hwr_apart h2 htaken hheld (by simp [Fd.apart, mbbTaken, mbbHeld]),
      State.hrd_hwr_apart h1 hpend hheld (by simp [Fd.apart, mbbPend, mbbHeld]), State.hrd_hwr_same hw hheld, Nat.zero_mod]
  · rw [State.hrd_hwr_apart h2 htaken hpend (by simp [Fd.apart, mbbTaken, mbbPend]), State.hrd_hwr_same h1 hpend, Nat.zero_mod]
  · rw [State.hrd_hwr_same h2 htaken, Nat.zero_mod]

/-- A read of a free lock grants it to the reader and reads 0 (R413). -/
theorem State.mbbLock_grants {c : W16} (hfree : s.hrd (mbbHeld k m) = 0) : (s.mbbLock k m c).1.hrd (mbbHeld k m) = 1
    ∧ (s.mbbLock k m c).1.hrd (mbbOwner k m) = c.toNat ∧ (s.mbbLock k m c).2 = 0 := by
  have hheld := mbbHeld_ok hk hm
  have howner := mbbOwner_ok hk hm
  have h1 : Table.wf 0 (s.hwr (mbbHeld k m) 1).regs = true := State.hwr_wf hw
  rw [State.mbbLock, if_pos hfree]
  simp only [State.updHub_hrd]
  refine ⟨?_, ?_, trivial⟩
  · rw [State.hrd_hwr_apart h1 howner hheld (by simp [Fd.apart, mbbOwner, mbbHeld]), State.hrd_hwr_same hw hheld]
    rfl
  · rw [State.hrd_hwr_same h1 howner]
    exact Nat.mod_eq_of_lt c.isLt

/-- A GO while hub firmware runs makes the message pending under the held lock, and counts it (R415). -/
theorem State.mbbGo_pends (hup : s.hub.score.fwUp = true) : (s.mbbGo k m).hrd (mbbPend k m) = 1
    ∧ (s.mbbGo k m).hrd (mbbHeld k m) = s.hrd (mbbHeld k m)
    ∧ (s.mbbGo k m).hrd (mbbSeq k m) = (s.hrd (mbbSeq k m) + 1) % 2 ^ ((mbbSeq k m).hi + 1 - (mbbSeq k m).lo) := by
  have hheld := mbbHeld_ok hk hm
  have hpend := mbbPend_ok hk hm
  have hseq := mbbSeq_ok hk hm
  have h1 : Table.wf 0 (s.inc 264 (mbbSeq k m)).regs = true := State.inc_wf hw
  simp only [State.mbbGo, hup, if_true, State.updHub_hrd]
  refine ⟨?_, ?_, ?_⟩
  · rw [State.hrd_hwr_same h1 hpend]
    rfl
  · rw [State.hrd_hwr_apart h1 hpend hheld (by simp [Fd.apart, mbbPend, mbbHeld])]
    exact State.hrd_hwr_apart hw hseq hheld (by simp [Fd.apart, mbbSeq, mbbHeld])
  · rw [State.hrd_hwr_apart h1 hpend hseq (by simp [Fd.apart, mbbPend, mbbSeq])]
    exact State.hrd_hwr_same hw hseq

end

/-! ### What a mailbox leaves alone -/

section
variable {k m : Nat} {c : W16}

@[simp] theorem State.mbbFree_out : (s.mbbFree k m).out = s.out := rfl
theorem State.mbbFree_cells : SameCells s (s.mbbFree k m) := ⟨rfl, rfl, rfl⟩
theorem State.mbbFree_edges : SameEdges s (s.mbbFree k m) := ⟨rfl, rfl, rfl⟩

theorem State.mbbLock_frame (hfree : s.hrd (mbbHeld k m) = 0) :
    (s.mbbLock k m c).1.out = s.out ∧ SameCells s (s.mbbLock k m c).1 ∧ SameEdges s (s.mbbLock k m c).1 := by
  rw [State.mbbLock, if_pos hfree]
  exact ⟨rfl, ⟨rfl, rfl, rfl⟩, rfl, rfl, rfl⟩

theorem State.mbbGo_frame (hup : s.hub.score.fwUp = true) :
    (s.mbbGo k m).out = s.out ∧ SameCells s (s.mbbGo k m) ∧ SameEdges s (s.mbbGo k m) := by
  simp only [State.mbbGo, hup, if_true]
  exact ⟨rfl, ⟨rfl, rfl, rfl⟩, rfl, rfl, rfl⟩

end

theorem State.emit_cells {t : State} {o : Out} (h : SameCells s t) : SameCells s (t.emit o) := h
theorem State.emit_edges {t : State} {o : Out} (h : SameEdges s t) : SameEdges s (t.emit o) := h

section
variable {a : State} {src code sev site part cause : Nat} {vals : List Byte}

@[simp] theorem State.bb_now : (s.bb src code sev site part cause vals).now = s.now := ite_frame State.now State.sat_now rfl

theorem State.bb_cells (h : SameCells a s) : SameCells a (s.bb src code sev site part cause vals) := by
  obtain ⟨htiles, hsnodes, hnodes⟩ := h
  exact ⟨ite_frame State.tiles (State.sat_tiles.trans htiles) htiles, ite_frame State.snodes (State.sat_snodes.trans hsnodes) hsnodes,
    ite_frame State.nodes (State.sat_nodes.trans hnodes) hnodes⟩

theorem State.bb_edges (h : SameEdges a s) : SameEdges a (s.bb src code sev site part cause vals) := by
  obtain ⟨hfns, hports, hparts⟩ := h
  exact ⟨ite_frame State.fns (State.sat_fns.trans hfns) hfns, ite_frame State.ports (State.sat_ports.trans hports) hports,
    ite_frame State.parts (State.sat_parts.trans hparts) hparts⟩

end

/-! ### The commands of a sector's mailbox -/

section
variable {k : StackNo} {m : Fin 4} {c q : W16}

/-- The owner of a mailbox without a message may write it (R414). -/
theorem State.mbbRefuse_owner {k m : Nat} (hheld : s.hrd (mbbHeld k m) = 1) (howner : s.hrd (mbbOwner k m) = c.toNat)
    (hpend : s.hrd (mbbPend k m) = 0) (htaken : s.hrd (mbbTaken k m) = 0) : s.mbbRefuse k m c = none := by
  rw [State.mbbRefuse, if_neg (by simp [hheld, howner]), if_neg (by simp [hpend, htaken])]

/-- The owner's release frees the lock (R414). -/
theorem execMbbLockRelease_owner (hheld : s.hrd (mbbHeld k.val m.val) = 1) (howner : s.hrd (mbbOwner k.val m.val) = c.toNat)
    (hpend : s.hrd (mbbPend k.val m.val) = 0) (htaken : s.hrd (mbbTaken k.val m.val) = 0) :
    exec (.mbbLockRelease k m c q) s = .next ((s.mbbFree k.val m.val).emit (.answer c q ⟨rcOk, [], false, 0⟩)) := by
  have hbox : 64 * m.val / 64 % 4 = m.val := by omega
  rw [exec_mbbLockRelease, execMbbLockRelease, State.mbbWord, hbox, if_pos (by omega),
    if_pos ⟨hheld, howner, by rw [State.mbbRefuse_owner hheld howner hpend htaken]; rfl⟩]

/-- A lock whose owner has no message under way for 1 ms is freed, with a record (R414). -/
theorem execMbbLockExpiry_silent (hheld : s.hrd (mbbHeld k.val m.val) ≠ 0) (hpend : s.hrd (mbbPend k.val m.val) = 0)
    (htaken : s.hrd (mbbTaken k.val m.val) = 0) (hsend : (s.hub.mbb.get {} (4 * k.val + m.val)).sending = false) :
    exec (.mbbLockExpiry k m) s = .next (((s.till ((s.hub.mbb.get {} (4 * k.val + m.val)).grantAt + 1000000)).mbbFree k.val m.val).bb
      srcFw 0x0702 1 0xFFFF (s.partOfSector k.val) 0 []) := by
  rw [exec_mbbLockExpiry, execMbbLockExpiry, if_neg (by rw [hpend, htaken, hsend]; simp [hheld])]

/-- An answered result frees its mailbox's lock; the issue of the hub gives its segment up (R415). -/
theorem execMbbResultAnswered_sending (hsend : (s.hub.mbb.get {} (4 * k.val + m.val)).sending = true) : exec (.mbbResultAnswered k m) s
    = .next ((s.updNode hubNode (fun n => { n with iss := n.iss.giveUp (fun g => g.why == .mbb (4 * k.val + m.val)) })).mbbFree k.val m.val) := by
  have hsec : (4 * k.val + m.val) / 4 = k.val := by omega
  have hbox : (4 * k.val + m.val) % 4 = m.val := by omega
  rw [exec_mbbResultAnswered, execMbbResultAnswered, State.mbbAnswered, State.updNode_hub, if_pos hsend, hsec, hbox]

end

/-- Settles O13: each event's guards decide its branch, and the mailbox's words read what the branch writes. -/
theorem classBMailboxes : Obligations.ClassBMailboxes := by
  unfold Obligations.ClassBMailboxes
  rintro s k m c q ⟨hw, -⟩
  refine ⟨fun hfree => ⟨_, rfl, ?_⟩, fun hheld hother => ⟨_, rfl, ?_⟩, fun hheld howner hpend htaken =>
    ⟨_, execMbbLockRelease_owner hheld howner hpend htaken, ?_⟩, fun hheld howner hpend htaken hup => ?_, fun code hcode => ?_,
    fun hheld hpend htaken hsend => ⟨_, execMbbLockExpiry_silent hheld hpend htaken hsend, ?_⟩,
    fun hsend => ⟨_, execMbbResultAnswered_sending hsend, ?_⟩, fun hup => ⟨?_, ?_⟩, fun hpend => ?_, fun hcode => ?_, fun hcode => ?_⟩
  · obtain ⟨hheld, howner, hzero⟩ := State.mbbLock_grants k.isLt m.isLt hw (c := c) hfree
    obtain ⟨hout, hcells, hedges⟩ := State.mbbLock_frame (c := c) hfree
    rw [State.emit_hrd, State.emit_hrd, hheld, howner, hzero]
    exact ⟨rfl, rfl, congrArg (· ++ _) hout, hcells, hedges⟩
  · rw [State.mbbLock, if_neg hheld, if_neg hother]
    rfl
  · dsimp only
    rw [State.emit_hrd]
    exact ⟨(State.mbbFree_clears k.isLt m.isLt hw).1, congrArg (· ++ _) State.mbbFree_out, State.emit_cells State.mbbFree_cells,
      State.emit_edges State.mbbFree_edges⟩
  · obtain ⟨hnow, hstill, hseq⟩ := State.mbbGo_pends k.isLt m.isLt hw hup
    obtain ⟨hout, hcells, hedges⟩ := State.mbbGo_frame (k := k.val) (m := m.val) hup
    rw [Runs, exec_mbbGo, execMbbGo, State.mbbRefuse_owner hheld howner hpend htaken]
    exact ⟨_, rfl, hnow, hstill.trans hheld, hseq, congrArg (· ++ _) hout, hcells, hedges⟩
  · rw [Runs, exec_mbbGo, execMbbGo, hcode]
    exact ⟨_, rfl, rfl⟩
  · refine ⟨?_, ?_, State.bb_cells State.mbbFree_cells, State.bb_edges State.mbbFree_edges⟩
    · rw [State.hrd_of_reg (State.reg_bb (by simp [bbDrops, mbbHeld]; omega))]
      exact (State.mbbFree_clears k.isLt m.isLt (by exact hw)).1
    · rw [State.bb_now]
      exact Nat.le_max_right _ _
  · obtain ⟨hheld, hpend, htaken⟩ := State.mbbFree_clears k.isLt m.isLt
      (s := s.updNode hubNode (fun n => { n with iss := n.iss.giveUp (fun g => g.why == .mbb (4 * k.val + m.val)) })) (by exact hw)
    exact ⟨hheld, hpend, htaken, rfl, rfl, rfl, rfl⟩
  · rw [exec_mailboxTake, execMailboxTake, if_neg (by simp [hup])]
  · rw [exec_mailboxDone, execMailboxDone, if_neg (by simp [hup])]
  · rw [exec_mbxTimeoutExpiry, execMbxTimeoutExpiry, if_neg hpend]
  · rw [exec_mbbPing, execMbbPing, if_pos hcode, State.mbbFinish, hcode]
    rfl
  · rw [exec_mbbHaltSelf, execMbbHaltSelf, if_pos hcode, State.mbbFinish, hcode]
    rfl

end Sys2Proof.Machine

/-! PROOFS. The family of the host's queue pairs: their registers (O4), the intake of commands (O5) and their end (O6). -/

namespace Sys2Proof.Machine

variable {s : State}

/-! ### Fields of a function -/

/-- A write of one word leaves the fields of every other. -/
theorem State.rd_wr_off {p v : Nat} {f g : Fd} (h : f.off ≠ g.off) : (s.wr p f v).rd p g = s.rd p g := by
  unfold State.rd State.wr
  rw [State.reg_setReg_ne (by omega)]

/-- Everything but registers and functions is as before. -/
abbrev OnlyRegsFns (s t : State) : Prop := t = { s with regs := t.regs, fns := t.fns }

theorem OnlyRegsFns.refl : OnlyRegsFns s s := rfl
theorem OnlyRegsFns.regs {t : State} {r : Table W32} (h : OnlyRegsFns s t) : OnlyRegsFns s { t with regs := r } :=
  congrArg (fun x : State => { x with regs := r }) h
theorem OnlyRegsFns.wr {t : State} {p v : Nat} {d : Fd} (h : OnlyRegsFns s t) : OnlyRegsFns s (t.wr p d v) := h.regs
theorem OnlyRegsFns.updFn {t : State} {f : Nat} {g : Fn → Fn} (h : OnlyRegsFns s t) : OnlyRegsFns s (t.updFn f g) :=
  congrArg (fun x : State => { x with fns := (t.updFn f g).fns }) h

section
variable {q : Nat} (hq : q < 8)
include hq

theorem qpEn_ok : (qpEn q).ok = true := Fd.ok_of (by decide) (by decide) (by omega)
theorem qpCtail_ok : (qpCtail q).ok = true := Fd.ok_of (by decide) (by decide) (by omega)
theorem qpChead_ok : (qpChead q).ok = true := Fd.ok_of (by decide) (by decide) (by omega)
theorem qpShead_ok : (qpShead q).ok = true := Fd.ok_of (by decide) (by decide) (by omega)
theorem qpRun_ok : (qpRun q).ok = true := Fd.ok_of (by decide) (by decide) (by omega)
theorem qpStallSts_ok : (qpStallSts q).ok = true := Fd.ok_of (by decide) (by decide) (by omega)
theorem qpDmaErr_ok : (qpDmaErr q).ok = true := Fd.ok_of (by decide) (by decide) (by omega)
theorem qpCfgErr_ok : (qpCfgErr q).ok = true := Fd.ok_of (by decide) (by decide) (by omega)

end

/-! ### Writes of a pair's registers -/

/-- What a request to a function that does not serve it leaves: everything (R382). -/
theorem exec_pair_unserved {f : Fin 50} {q : Fin 8} {tee : Bool} (h : s.unserved f.val tee = true) :
    (∀ v : W32, exec (.qpCtailWrite f q v tee) s = .next s ∧ exec (.qpSheadWrite f q v tee) s = .next s)
      ∧ exec (.qpEnable f q tee) s = .next s ∧ exec (.qpDisable f q tee) s = .next s ∧ exec (.qpRunClear f q tee) s = .next s :=
  ⟨fun _ => ⟨congrArg Host.Outcome.next (if_pos h), congrArg Host.Outcome.next (if_pos h)⟩, congrArg Host.Outcome.next (if_pos h),
    congrArg Host.Outcome.next (if_pos h), congrArg Host.Outcome.next (if_pos h)⟩

section
variable {f : Fin 50} {q : Fin 8} {tee : Bool} (hserved : s.unserved f.val tee = false)
include hserved

/-- A tail write of a disabled pair is the register's alone. -/
theorem execQpCtailWrite_disabled {v : W32} (hen : s.rd (fnPlace f.val) (qpEn q.val) = 0) :
    exec (.qpCtailWrite f q v tee) s = .next (s.wr (fnPlace f.val) (qpCtail q.val) (fld v 11 0)) :=
  congrArg Host.Outcome.next ((if_neg (by simp [hserved])).trans (if_pos hen))

/-- A tail write of an enabled pair makes the commands up to it visible (R387). -/
theorem execQpCtailWrite_enabled {v : W32} (hen : s.rd (fnPlace f.val) (qpEn q.val) ≠ 0) :
    exec (.qpCtailWrite f q v tee) s = .next ((s.wr (fnPlace f.val) (qpCtail q.val) (fld v 11 0)).updFn f.val fun x => { x with
      visible := x.visible.put 0 q.val ((fld v 11 0 % 2 ^ s.rd (fnPlace f.val) (qpCsz q.val) + 2 ^ s.rd (fnPlace f.val) (qpCsz q.val)
        - s.rd (fnPlace f.val) (qpChead q.val) % 2 ^ s.rd (fnPlace f.val) (qpCsz q.val)) % 2 ^ s.rd (fnPlace f.val) (qpCsz q.val)) }) :=
  congrArg Host.Outcome.next ((if_neg (by simp [hserved])).trans (if_neg hen))

end

/-- The tail reads as written. -/
theorem State.rd_wr_qpCtail {p q : Nat} {v : W32} (hw : Table.wf 0 s.regs = true) (hq : q < 8) :
    (s.wr p (qpCtail q) (fld v 11 0)).rd p (qpCtail q) = fld v 11 0 :=
  (State.rd_wr_same hw (qpCtail_ok hq)).trans (Nat.mod_eq_of_lt (fld_lt _))

/-- The state in which a pair was just enabled (R389). -/
def State.pairOn (s : State) (f q : Nat) : State :=
  ((((((s.wr (fnPlace f) (qpEn q) 1).wr (fnPlace f) (qpRun q) 1).wr (fnPlace f) (qpChead q) 0).wr (fnPlace f) (qpCtail q) 0).wr (fnPlace f)
    (qpShead q) 0).wr (fnPlace f) (qpStallSts q) 0).updFn f (fun x => { x with
      visible := x.visible.put 0 q 0, stTail := x.stTail.put 0 q 0, coal := x.coal.put 0 q 0, dmaStop := x.dmaStop.put false q false })

/-- The registers of a pair that was just enabled. -/
theorem State.pairOn_rd {f q : Nat} (hw : Table.wf 0 s.regs = true) (hq : q < 8) :
    (s.pairOn f q).rd (fnPlace f) (qpEn q) = 1 ∧ (s.pairOn f q).rd (fnPlace f) (qpRun q) = 1 ∧ (s.pairOn f q).rd (fnPlace f) (qpChead q) = 0
      ∧ (s.pairOn f q).rd (fnPlace f) (qpCtail q) = 0 ∧ (s.pairOn f q).rd (fnPlace f) (qpShead q) = 0
      ∧ (s.pairOn f q).rd (fnPlace f) (qpStallSts q) = 0 := by
  unfold State.pairOn
  simp only [State.updFn_rd]
  have h1 := State.wr_wf (p := fnPlace f) (f := qpEn q) (v := 1) hw
  have h2 := State.wr_wf (p := fnPlace f) (f := qpRun q) (v := 1) h1
  have h3 := State.wr_wf (p := fnPlace f) (f := qpChead q) (v := 0) h2
  have h4 := State.wr_wf (p := fnPlace f) (f := qpCtail q) (v := 0) h3
  have h5 := State.wr_wf (p := fnPlace f) (f := qpShead q) (v := 0) h4
  refine ⟨?_, ?_, ?_, ?_, ?_, ?_⟩
  · rw [State.rd_wr_off (by simp [qpStallSts, qpEn]), State.rd_wr_off (by simp [qpShead, qpEn]), State.rd_wr_off (by simp [qpCtail, qpEn]),
      State.rd_wr_off (by simp [qpChead, qpEn]), State.rd_wr_off (by simp [qpRun, qpEn]), State.rd_wr_same hw (qpEn_ok hq)]
    rfl
  · rw [State.rd_wr_apart h5 (qpStallSts_ok hq) (qpRun_ok hq) (by simp [Fd.apart, qpStallSts, qpRun]), State.rd_wr_off (by simp [qpShead, qpRun]),
      State.rd_wr_off (by simp [qpCtail, qpRun]), State.rd_wr_off (by simp [qpChead, qpRun]), State.rd_wr_same h1 (qpRun_ok hq)]
    rfl
  · rw [State.rd_wr_off (by simp [qpStallSts, qpChead]), State.rd_wr_off (by simp [qpShead, qpChead]), State.rd_wr_off (by simp [qpCtail, qpChead]),
      State.rd_wr_same h2 (qpChead_ok hq), Nat.zero_mod]
  · rw [State.rd_wr_off (by simp [qpStallSts, qpCtail]), State.rd_wr_off (by simp [qpShead, qpCtail]), State.rd_wr_same h3 (qpCtail_ok hq), Nat.zero_mod]
  · rw [State.rd_wr_off (by simp [qpStallSts, qpShead]), State.rd_wr_same h4 (qpShead_ok hq), Nat.zero_mod]
  · rw [State.rd_wr_same h5 (qpStallSts_ok hq), Nat.zero_mod]

theorem State.pairOn_only {f q : Nat} : OnlyRegsFns s (s.pairOn f q) := .updFn (.wr (.wr (.wr (.wr (.wr (.wr .refl))))))

/-- A disabled pair: QP_EN reads 0, and its commands answer no more (R389). -/
theorem State.qpDisable_rd {f q : Nat} (hw : Table.wf 0 s.regs = true) (hq : q < 8) : (s.qpDisable f q).rd (fnPlace f) (qpEn q) = 0 :=
  (State.rd_wr_same hw (qpEn_ok hq)).trans (Nat.zero_mod _)

theorem State.qpDisable_mutes {f q : Nat} : ∀ c ∈ (s.qpDisable f q).hub.cmds, c.fn = f → c.qp = q → c.mute = true := by
  intro c hc hf hq
  obtain ⟨d, -, rfl⟩ := List.mem_map.1 hc
  split at hf
  · next h => rw [if_pos h]
  · next h =>
    rw [if_neg h] at hq
    exact absurd ⟨hf, hq⟩ h

/-- Settles O4: each write by its guards, and what the pair's registers read after it. -/
theorem queuePairRegisters : Obligations.QueuePairRegisters := by
  unfold Obligations.QueuePairRegisters
  rintro s f q tee ⟨hw, -, -, -, hfns, -⟩
  refine ⟨exec_pair_unserved, fun v hserved => ?_, fun v hserved => ?_, fun hserved hoff hok => ?_, fun hserved hoff hbad => ?_, fun hserved => ?_,
    fun hserved hoff => ?_, fun e hfetch hroom => ?_, fun e hfetch hroom => ?_, fun hus hcoal => ?_⟩
  · by_cases hen : s.rd (fnPlace f.val) (qpEn q.val) = 0
    · exact ⟨_, execQpCtailWrite_disabled hserved hen, State.rd_wr_qpCtail hw q.isLt, ⟨rfl, rfl, rfl⟩, rfl, rfl, rfl, rfl, fun _ => rfl,
        fun h => absurd hen h⟩
    · refine ⟨_, execQpCtailWrite_enabled hserved hen, State.rd_wr_qpCtail hw q.isLt, ⟨rfl, rfl, rfl⟩, rfl, rfl, rfl, rfl, fun h => absurd h hen,
        fun _ => ?_⟩
      rw [State.fn_updFn_same (by exact hfns)]
      rfl
  · have hwr : (s.wr (fnPlace f.val) (qpShead q.val) (fld v 12 0)).rd (fnPlace f.val) (qpShead q.val) = fld v 12 0 :=
      (State.rd_wr_same hw (qpShead_ok q.isLt)).trans (Nat.mod_eq_of_lt (fld_lt _))
    refine ⟨_, congrArg Host.Outcome.next (if_neg (by simp [hserved])), ?_⟩
    dsimp only
    split
    · exact ⟨(State.rd_wr_off (by simp [qpStallSts, qpShead])).trans hwr, rfl⟩
    · exact ⟨hwr, rfl⟩
  · obtain ⟨hen, hrun, hhead, htail, hshead, hstall⟩ := State.pairOn_rd (f := f.val) hw q.isLt
    exact ⟨s.pairOn f.val q.val, congrArg Host.Outcome.next ((if_neg (by simp [hserved])).trans ((if_neg (by omega)).trans (if_neg (by simp [hok])))),
      hen, hrun, hhead, htail, hshead, hstall, State.pairOn_only⟩
  · exact ⟨s.wr (fnPlace f.val) (qpCfgErr q.val) 1,
      congrArg Host.Outcome.next ((if_neg (by simp [hserved])).trans ((if_neg (by omega)).trans (if_pos (by simp [hbad])))),
      (State.rd_wr_off (by simp [qpCfgErr, qpEn])).trans hoff, State.rd_wr_same hw (qpCfgErr_ok q.isLt), rfl⟩
  · exact ⟨s.qpDisable f.val q.val, congrArg Host.Outcome.next (if_neg (by simp [hserved])), State.qpDisable_rd hw q.isLt, State.qpDisable_mutes,
      List.length_map _, ⟨rfl, rfl, rfl⟩, rfl⟩
  · exact ⟨s.wr (fnPlace f.val) (qpRun q.val) 0, congrArg Host.Outcome.next ((if_neg (by simp [hserved])).trans (if_pos hoff)),
      (State.rd_wr_same hw (qpRun_ok q.isLt)).trans (Nat.zero_mod _), rfl⟩
  · exact congrArg Host.Outcome.next ((if_neg (by simp [hfetch])).trans ((if_neg (by simp [hroom])).trans (if_neg (by decide))))
  · exact ⟨_, congrArg Host.Outcome.next ((if_neg (by simp [hfetch])).trans ((if_neg (by simp [hroom])).trans (if_pos (by decide)))),
      State.rd_wr_same hw (qpDmaErr_ok q.isLt), rfl, rfl⟩
  · exact congrArg Host.Outcome.next (if_neg (by simp [hus, hcoal]))

/-! ### Replies -/

theorem State.masters_congr {t : State} (hp : t.ports = s.ports) (hf : t.fns = s.fns) (f : Nat) : t.masters f = s.masters f := by
  unfold State.masters State.fnUp
  simp only [State.port_congr hp, State.fn_congr hf]

/-- A pending interrupt stands in the words of MSI-X's pending bits alone (R379). -/
theorem State.reg_msix_below {f vec p o : Nat} (ho : o < 0xC000) (hv : vec < 2 ^ 20) : (s.msix f vec).reg p o = s.reg p o := by
  unfold State.msix
  refine ite_frame (fun t : State => t.reg p o) ?_ rfl
  exact State.reg_setReg_ne (by omega)

section
variable {f q opc : Nat} {tag code : W16} {final event vf1 : Bool} {data : List Byte}

/-- A pair that is disabled, or of a function that makes no requests, gets no reply (R389). -/
theorem State.sendReply_of_off (h : s.rd (fnPlace f) (qpEn q) = 0 ∨ s.masters f = false) : s.sendReply f q tag code final event opc vf1 data = s :=
  if_pos (h.imp_right fun h => by simp [h])

theorem State.rd_sendReply {p : Nat} {d : Fd} (h : d.off < 0xC000) : (s.sendReply f q tag code final event opc vf1 data).rd p d = s.rd p d := by
  refine congrArg (fld · d.hi d.lo) ?_
  unfold State.sendReply
  extract_lets p' x i n r c lim s1
  refine ite_frame (fun t : State => t.reg p d.off) rfl (ite_frame (fun t : State => t.reg p d.off) ?_ rfl)
  exact State.reg_msix_below h (Nat.lt_trans (fld_lt _) (by simp [qpVec]))

/-- An interrupt puts out one message at most, and no reply. -/
theorem State.msix_out {f vec : Nat} : ∃ l : List Out, (s.msix f vec).out = s.out ++ l ∧ l.length ≤ 1 ∧ ∀ r, .reply r ∉ l := by
  unfold State.msix
  dsimp only
  split
  · exact ⟨[], (List.append_nil _).symm, by decide, by simp⟩
  · exact ⟨[_], rfl, by simp, by simp⟩

/-- An enabled pair of a function that makes requests gets one reply, with an interrupt at most (R387, R389). -/
theorem State.sendReply_of_on (hen : s.rd (fnPlace f) (qpEn q) ≠ 0) (hm : s.masters f = true) :
    ∃ (r : Reply32) (rest : List Out), (s.sendReply f q tag code final event opc vf1 data).out = s.out ++ .reply r :: rest ∧ rest.length ≤ 1
      ∧ (∀ x, .reply x ∉ rest) ∧ r.fn = f ∧ r.qp = q ∧ r.tag = tag ∧ r.code = code ∧ r.final = final ∧ r.event = event ∧ r.opc = opc := by
  unfold State.sendReply
  extract_lets p x i n r c lim s1
  have hout : s1.out = s.out ++ [.reply r] := rfl
  rw [if_neg (by simp [hm]; exact hen)]
  split
  · obtain ⟨l, hl, hlen, hno⟩ := State.msix_out (s := s1) (f := f) (vec := s.rd p (qpVec q))
    exact ⟨r, l, by rw [hl, hout, List.append_assoc, List.singleton_append], hlen, hno, rfl, rfl, rfl, rfl, rfl, rfl, rfl⟩
  · exact ⟨r, [], hout, by decide, by simp, rfl, rfl, rfl, rfl, rfl, rfl, rfl⟩

end

/-! ### The intake of a command -/

@[simp] theorem State.aptRefuse_hub {d : HostCmd} : (s.aptRefuse d).hub = s.hub := ite_frame State.hub rfl rfl
@[simp] theorem State.aptRefuse_rd {d : HostCmd} {p : Nat} {g : Fd} : (s.aptRefuse d).rd p g = s.rd p g :=
  ite_frame (fun t : State => t.rd p g) rfl rfl

section
variable {f q : Nat} {e : BitVec 512}

/-- The entry at the head is taken: QP_CHEAD moves on, and the pair does not stall (R387, R388). -/
def State.headTaken (s : State) (f q : Nat) : State :=
  ((s.wr (fnPlace f) (qpChead q) ((s.rd (fnPlace f) (qpChead q) + 1) % 2 ^ s.rd (fnPlace f) (qpCsz q))).wr (fnPlace f) (qpStallSts q) 0).updFn f
    fun x => { x with visible := x.visible.upd 0 q (· - 1) }

theorem State.headTaken_chead (hw : Table.wf 0 s.regs = true) (hq : q < 8) : (s.headTaken f q).rd (fnPlace f) (qpChead q)
    = (s.rd (fnPlace f) (qpChead q) + 1) % 2 ^ s.rd (fnPlace f) (qpCsz q) % 4096 :=
  (State.rd_wr_off (by simp [qpStallSts, qpChead])).trans (State.rd_wr_same hw (qpChead_ok hq))

/-- The command that an entry of native form asks for (R390). -/
def State.cmdOf (s : State) (f q : Nat) (e : BitVec 512) : HostCmd := {
  fn := f, qp := q, tag := BitVec.ofNat 16 (cmdB e 2 4), opc := fld e 7 0, part := cmdB e 4 5, cmd := e, vf1 := false
  fw := cmdFw (fld e 7 0), mark := (s.fn f).accNext }

/-- A command taken in is accepted: it joins the list, and counts as outstanding (R390). -/
def State.joins (s : State) (f q : Nat) (d : HostCmd) : State :=
  ((s.aptRefuse d).updHub (fun h => { h with cmds := h.cmds ++ [d] })).inc (fnPlace f) (qpOutst q)

variable (hfmt : s.rd (fnPlace f) (qpFmt q) = 0) (hphase : s.hrd bootPhase ≠ 3)
include hfmt hphase

/-- A command that the checks refuse ends at once (R391). -/
theorem State.takeCmd_refused {code : W16} (hc : s.cmdCheck f q e false = some code) : s.takeCmd f q e
    = (s.headTaken f q).sendReply f q (BitVec.ofNat 16 (cmdB e 2 4)) code true false (fld e 7 0) false [] := by
  unfold State.takeCmd
  simp [hfmt, hphase, hc, State.headTaken]

/-- A command that they pass joins the list, and one of hub firmware is answered ACCEPTED (R390, assumption log 56). -/
theorem State.takeCmd_accepted (hc : s.cmdCheck f q e false = none) : s.takeCmd f q e = if cmdFw (fld e 7 0)
    then ((((s.headTaken f q).joins f q (s.cmdOf f q e)).inc (fnPlace f) fnFwcmds).inc 264 fwBacklog).sendReply f q
      (BitVec.ofNat 16 (cmdB e 2 4)) scAccepted false false (fld e 7 0) false []
    else (s.headTaken f q).joins f q (s.cmdOf f q e) := by
  unfold State.takeCmd
  simp [hfmt, hphase, hc, State.headTaken, State.joins, State.cmdOf]

end

/-- Settles O5: the head moves on before the checks, and neither a reply nor the counts of commands touch it. -/
theorem commandIntake : Obligations.CommandIntake := by
  unfold Obligations.CommandIntake
  rintro s f q e ⟨hw, -⟩ hfmt hphase
  have hhead := State.headTaken_chead (f := f.val) hw q.isLt
  have hlow : (qpChead q.val).off < 0xC000 := by simp [qpChead]; omega
  refine ⟨?_, fun code hc => ?_, fun hc => ?_⟩
  · cases hc : s.cmdCheck f.val q.val e false with
    | some code => rw [State.takeCmd_refused hfmt hphase hc, State.rd_sendReply hlow, hhead]
    | none =>
      have hjoin : ((s.headTaken f.val q.val).joins f.val q.val (s.cmdOf f.val q.val e)).rd (fnPlace f.val) (qpChead q.val)
          = (s.headTaken f.val q.val).rd (fnPlace f.val) (qpChead q.val) :=
        (State.rd_wr_off (by simp [qpOutst, qpChead])).trans (State.updHub_rd.trans State.aptRefuse_rd)
      rw [State.takeCmd_accepted hfmt hphase hc, ← hhead, ← hjoin]
      split
      · refine (State.rd_sendReply hlow).trans ((State.rd_wr_place ?_ (by decide) (qpChead_ok q.isLt)).trans (State.rd_wr_off ?_))
        · unfold fnPlace
          omega
        · simp [fnFwcmds, qpChead]
          omega
      · rfl
  · rw [State.takeCmd_refused hfmt hphase hc, State.sendReply_hub]
    rfl
  · rw [State.takeCmd_accepted hfmt hphase hc]
    have hjoin : ((s.headTaken f.val q.val).joins f.val q.val (s.cmdOf f.val q.val e)).hub.cmds = s.hub.cmds ++ [s.cmdOf f.val q.val e] :=
      congrArg (fun h : Hub => h.cmds ++ [s.cmdOf f.val q.val e]) (State.aptRefuse_hub (s := s.headTaken f.val q.val))
    split
    · rw [State.sendReply_hub]
      exact hjoin
    · exact hjoin

/-! ### The end of a command -/

section
variable {c : HostCmd} {code : W16} {data : List Byte}

/-- A command leaves the list and the counts of commands, without a reply (R390). -/
def State.dropCmd (s : State) (c : HostCmd) : State :=
  let s2 := (s.updHub (fun h => { h with cmds := h.cmds.filter (fun d => !d.is c.fn c.qp c.tag) })).dec (fnPlace c.fn) (qpOutst c.qp)
  let s3 := if c.fw then s2.dec (fnPlace c.fn) fnFwcmds else s2
  if c.fw && !c.begun then s3.dec 264 fwBacklog else s3

theorem State.endCmd_eq : s.endCmd c code data = if c.mute then s.dropCmd c
    else (s.dropCmd c).sendReply c.fn c.qp c.tag code true false c.opc c.vf1 data := rfl

/-- What no count of commands touches, and no change of the list, stays. -/
theorem State.dropCmd_frame {γ : Type} (g : State → γ) (hwr : ∀ (t : State) (p v : Nat) (d : Fd), g (t.wr p d v) = g t) (hhub : ∀ (t : State) (h : Hub → Hub),
    g (t.updHub h) = g t) : g (s.dropCmd c) = g s := by
  unfold State.dropCmd
  extract_lets s2 s3
  have h2 : g s2 = g s := (hwr _ _ _ _).trans (hhub _ _)
  have h3 : g s3 = g s := ite_frame g ((hwr _ _ _ _).trans h2) h2
  exact ite_frame g ((hwr _ _ _ _).trans h3) h3

@[simp] theorem State.dropCmd_out : (s.dropCmd c).out = s.out := State.dropCmd_frame State.out (fun _ _ _ _ => rfl) fun _ _ => rfl
@[simp] theorem State.dropCmd_fns : (s.dropCmd c).fns = s.fns := State.dropCmd_frame State.fns (fun _ _ _ _ => rfl) fun _ _ => rfl
@[simp] theorem State.dropCmd_ports : (s.dropCmd c).ports = s.ports := State.dropCmd_frame State.ports (fun _ _ _ _ => rfl) fun _ _ => rfl
@[simp] theorem State.dropCmd_hub : (s.dropCmd c).hub = { s.hub with cmds := s.hub.cmds.filter (fun d => !d.is c.fn c.qp c.tag) } := by
  unfold State.dropCmd
  extract_lets s2 s3
  have h3 : s3.hub = s2.hub := ite_frame State.hub rfl rfl
  exact ite_frame State.hub h3 h3

theorem State.dropCmd_masters {f : Nat} : (s.dropCmd c).masters f = s.masters f := State.masters_congr State.dropCmd_ports State.dropCmd_fns f

/-- A field of the command's function but the counts of its commands stays. -/
theorem State.dropCmd_rd {d : Fd} (hok : d.ok = true) (h1 : (qpOutst c.qp).off ≠ d.off) (h2 : fnFwcmds.off ≠ d.off) :
    (s.dropCmd c).rd (fnPlace c.fn) d = s.rd (fnPlace c.fn) d := by
  unfold State.dropCmd
  extract_lets s2 s3
  have hs2 : s2.rd (fnPlace c.fn) d = s.rd (fnPlace c.fn) d := State.rd_wr_off h1
  have hs3 : s3.rd (fnPlace c.fn) d = s.rd (fnPlace c.fn) d :=
    ite_frame (fun t : State => t.rd (fnPlace c.fn) d) ((State.rd_wr_off h2).trans hs2) hs2
  exact ite_frame (fun t : State => t.rd (fnPlace c.fn) d)
    ((State.rd_wr_place (by unfold fnPlace; omega) (by decide) hok).trans hs3) hs3

@[simp] theorem State.endCmd_hub : (s.endCmd c code data).hub = { s.hub with cmds := s.hub.cmds.filter (fun d => !d.is c.fn c.qp c.tag) } :=
  ite_frame State.hub State.dropCmd_hub (State.sendReply_hub.trans State.dropCmd_hub)

end

/-- Settles O6: a command is dropped from the list, and one that is not muted is answered as its pair allows. -/
theorem commandEnds : Obligations.CommandEnds := by
  unfold Obligations.CommandEnds
  intro s c code data _ _ hq
  have hcells := State.endCmd_samePanel (s := s) (c := c) (code := code) (data := data)
  have hen : (s.dropCmd c).rd (fnPlace c.fn) (qpEn c.qp) = s.rd (fnPlace c.fn) (qpEn c.qp) :=
    State.dropCmd_rd (qpEn_ok hq) (by simp [qpOutst, qpEn]) (by simp [fnFwcmds, qpEn]; omega)
  refine ⟨by rw [State.endCmd_hub], hcells.tiles, hcells.parts, hcells.snodes, fun h => ?_, fun hmute hon hm => ?_⟩
  · rw [State.endCmd_eq]
    split
    · exact State.dropCmd_out
    · next hmute =>
      have hoff : (s.dropCmd c).rd (fnPlace c.fn) (qpEn c.qp) = 0 ∨ (s.dropCmd c).masters c.fn = false := by
        rw [hen, State.dropCmd_masters]
        exact h.resolve_left hmute
      rw [State.sendReply_of_off hoff, State.dropCmd_out]
  · have heq : s.endCmd c code data = (s.dropCmd c).sendReply c.fn c.qp c.tag code true false c.opc c.vf1 data := if_neg (by simp [hmute])
    rw [heq, ← State.dropCmd_out (s := s) (c := c)]
    exact State.sendReply_of_on (hen.trans_ne hon) (State.dropCmd_masters.trans hm)

end Sys2Proof.Machine

/-! PROOFS. How a waiting RUN_STEP ends (O60); the family of functions, links and TDISP interfaces (O11). -/

namespace Sys2Proof.Machine

variable {s : State}

/-! ### Frames: what leaves tiles, stacks, die-cells, port dies and partitions -/

/-- The units of the panel and its partitions. -/
def State.units (s : State) : Table Tile × Table Stack × Table Node × Table Port × Table Part := (s.tiles, s.snodes, s.nodes, s.ports, s.parts)

section
variable {t : State} (h : t.units = s.units)
include h

theorem State.units_cells : SameCells s t := by
  simp only [State.units, Prod.mk.injEq] at h
  exact ⟨h.1, h.2.1, h.2.2.1⟩
theorem State.units_ports : t.ports = s.ports := congrArg (fun x => x.2.2.2.1) h
theorem State.units_parts : t.parts = s.parts := congrArg (fun x => x.2.2.2.2) h

end

@[simp] theorem State.wr_units {p v : Nat} {d : Fd} : (s.wr p d v).units = s.units := rfl
@[simp] theorem State.sat_units {p : Nat} {d : Fd} : (s.sat p d).units = s.units := ite_frame State.units rfl rfl
@[simp] theorem State.updFn_units {f : Nat} {g : Fn → Fn} : (s.updFn f g).units = s.units := rfl
@[simp] theorem State.msix_units {f vec : Nat} : (s.msix f vec).units = s.units := ite_frame State.units rfl rfl

@[simp] theorem State.sendReply_units {f q opc : Nat} {tag code : W16} {final event vf1 : Bool} {data : List Byte} :
    (s.sendReply f q tag code final event opc vf1 data).units = s.units := by
  unfold State.sendReply
  extract_lets p x i n r c lim s1
  have h1 : s1.units = s.units := rfl
  exact ite_frame State.units rfl (ite_frame State.units (State.msix_units.trans h1) h1)

@[simp] theorem State.dropCmd_units {c : HostCmd} : (s.dropCmd c).units = s.units := State.dropCmd_frame State.units (fun _ _ _ _ => rfl) fun _ _ => rfl

@[simp] theorem State.endCmd_units {c : HostCmd} {code : W16} {data : List Byte} : (s.endCmd c code data).units = s.units :=
  ite_frame State.units State.dropCmd_units (State.sendReply_units.trans State.dropCmd_units)

@[simp] theorem State.eventTo_units {e : Event} {f : Nat} : (s.eventTo e f).units = s.units := by
  unfold State.eventTo
  dsimp only
  split
  · exact State.sendReply_units
  · exact ite_frame State.units rfl rfl

@[simp] theorem State.event_units {kind detail p : Nat} {vf : Bool} : (s.event kind detail p vf).units = s.units :=
  foldl_frame State.units (fun _ _ => State.eventTo_units) _ _

@[simp] theorem State.outWake_units {f : Nat} : (s.outWake f).units = s.units :=
  ite_frame State.units (ite_frame State.units rfl rfl) (ite_frame State.units State.msix_units rfl)

@[simp] theorem State.mbaSend_units {f : Nat} {msg : List W32} : (s.mbaSend f msg).units = s.units := by
  unfold State.mbaSend
  refine ite_frame State.units rfl ?_
  extract_lets p s1 s2
  have h1 : s1.units = s.units := foldl_frame State.units (fun _ _ => State.wr_units) _ _
  clear_value s1
  exact State.outWake_units.trans h1

@[simp] theorem State.mbaOut_units {f : Nat} {msg : List W32} : (s.mbaOut f msg).units = s.units := ite_frame State.units State.mbaSend_units rfl

@[simp] theorem State.mbaNext_units {f : Nat} : (s.mbaNext f).units = s.units := by
  unfold State.mbaNext
  split
  · rfl
  · exact State.mbaSend_units

@[simp] theorem State.mbaPfs_units {code arg : Nat} : (s.mbaPfs code arg).units = s.units := foldl_frame State.units (fun _ _ => State.mbaOut_units) _ _

@[simp] theorem State.bb_units {src code sev site part cause : Nat} {vals : List Byte} : (s.bb src code sev site part cause vals).units = s.units :=
  ite_frame State.units (State.sat_units.trans rfl) rfl

@[simp] theorem State.raiseReason_units {n : Nat} : (s.raiseReason n).units = s.units := by
  unfold State.raiseReason
  refine ite_frame State.units rfl ?_
  extract_lets s1 s2 s3 s4
  have h2 : s2.units = s.units := ite_frame State.units rfl rfl
  have h3 : s3.units = s.units := ite_frame State.units h2 h2
  exact State.mbaPfs_units.trans (State.event_units.trans (State.bb_units.trans h3))

/-! ### A halt -/

@[simp] theorem State.rerouteOf_parts {l : List Nat} : (s.rerouteOf l).parts = s.parts :=
  foldl_frame State.parts (fun _ _ => by exact foldl_frame State.parts (fun _ _ => by rfl) _ _) _ _

@[simp] theorem State.reroute_parts : s.reroute.parts = s.parts := by
  unfold State.reroute
  extract_lets l
  have h : (s.rerouteOf l).parts = s.parts := State.rerouteOf_parts
  clear_value l
  generalize s.rerouteOf l = u at h ⊢
  exact h

@[simp] theorem State.rerouteLate_parts : s.rerouteLate.parts = s.parts := ite_frame State.parts State.reroute_parts rfl

@[simp] theorem State.rerouteLate_cmds : s.rerouteLate.hub.cmds = s.hub.cmds := by
  refine ite_frame (fun t : State => t.hub.cmds) ?_ rfl
  unfold State.reroute
  extract_lets l
  have h : (s.rerouteOf l).hub = s.hub := State.rerouteOf_hub
  clear_value l
  generalize s.rerouteOf l = u at h ⊢
  exact (congrArg Hub.cmds h :)

/-- The partition is HALTED for its reason, and the routers that waited for it are written. -/
def State.haltNoted (s : State) (p why : Nat) : State :=
  (s.updPart p (fun x => { x with sch := { x.sch with state := .halted, why := BitVec.ofNat 4 why }, wbs := { x.wbs with haltReq := 0, cAt := none } })).rerouteLate

theorem State.haltNoted_part {p why : Nat} (h : Table.wf {} s.parts = true) : (s.haltNoted p why).part p = { s.part p with
    sch := { (s.part p).sch with state := .halted, why := BitVec.ofNat 4 why }, wbs := { (s.part p).wbs with haltReq := 0, cAt := none } } :=
  (State.part_congr State.rerouteLate_parts p).trans (State.part_updPart_same h)

/-- A stop that one RUN_STEP alone waits for ends that one (R393, R395). -/
theorem State.stopped_one {p why : Nat} {c : HostCmd} (h : s.hub.cmds.filter (fun d => d.part == p && d.begun && (d.opc == 1 || d.opc == 0x11)) = [c])
    (hopc : c.opc = 1) : s.stopped p why = (s.endCmd c (runStepCode why ((s.part p).wbs.steps.isSome && decide ((s.part p).wbs.steps = some 0)))
      (s.runData p)).event 1 why p true := by
  unfold State.stopped
  dsimp only
  rw [h, List.foldl_cons, List.foldl_nil, if_pos hopc]

/-- Settles O60: the halt is noted before the commands that wait for it end. -/
theorem howAWaitingRunStepEnds : Obligations.HowAWaitingRunStepEnds := by
  unfold Obligations.HowAWaitingRunStepEnds
  rintro s p why ⟨-, -, -, -, -, -, hparts⟩
  have hpart := State.haltNoted_part (p := p.val) (why := why.val) hparts
  refine ⟨s.haltNoted p.val why.val, rfl, ?_, by rw [hpart], by rw [hpart], State.rerouteLate_cmds, fun c hc hopc =>
    ⟨_, State.stopped_one hc hopc, ?_, ?_, ?_, ?_, ?_, ?_⟩⟩
  · rw [hpart]
    exact Nat.mod_eq_of_lt (Nat.lt_of_lt_of_le why.isLt (by decide))
  · intro hwhy hsteps
    rw [hsteps, hwhy]
    rfl
  · intro hwhy hsteps
    rw [decide_eq_false hsteps, Bool.and_false, hwhy]
    rfl
  all_goals
    intro hwhy
    rw [hwhy]
    rfl

end Sys2Proof.Machine

/-! PROOFS. The family of functions, links and TDISP interfaces (O11). -/

namespace Sys2Proof.Machine

variable {s : State}

/-! ### The tables of a canonical state -/

theorem Canon.regs (h : Canon s) : Table.wf 0 s.regs = true := h.1
theorem Canon.fns (h : Canon s) : Table.wf {} s.fns = true := h.2.2.2.2.1
theorem Canon.ports (h : Canon s) : Table.wf {} s.ports = true := h.2.2.2.2.2.1

/-! ### Folds -/

/-- What the steps of a list's elements leave alone, the fold over it leaves alone. -/
theorem foldl_frame_mem {σ β γ : Type} (g : σ → γ) {f : σ → β → σ} {l : List β} (hf : ∀ s, ∀ x ∈ l, g (f s x) = g s) (s : σ) :
    g (l.foldl f s) = g s :=
  List.foldlRecOn (motive := fun t => g t = g s) l f rfl fun t h x hx => (hf t x hx).trans h

/-- What the step of one element establishes where an invariant holds, and every step keeps, holds after a fold over a list with it. -/
theorem foldl_establishes_of {σ β : Type} {I P : σ → Prop} {f : σ → β → σ} {a : β} : ∀ (l : List β) (s : σ), (∀ s, ∀ x ∈ l, I s → I (f s x)) →
    (∀ s, I s → P (f s a)) → (∀ s, ∀ x ∈ l, I s → P s → P (f s x)) → I s → a ∈ l → P (l.foldl f s)
  | b :: l, s, hI, hset, hkeep, hs, h => by
    have hb : b ∈ b :: l := List.mem_cons_self
    have hI' : ∀ s, ∀ x ∈ l, I s → I (f s x) := fun s x hx => hI s x (List.mem_cons_of_mem _ hx)
    have hkeep' : ∀ s, ∀ x ∈ l, I s → P s → P (f s x) := fun s x hx => hkeep s x (List.mem_cons_of_mem _ hx)
    obtain rfl | h := List.mem_cons.1 h
    · exact (List.foldlRecOn (motive := fun t => I t ∧ P t) l f ⟨hI s a hb hs, hset s hs⟩ fun t ht x hx => ⟨hI' t x hx ht.1, hkeep' t x hx ht.1 ht.2⟩).2
    · exact foldl_establishes_of l _ hI' hset hkeep' (hI s b hb hs) h

/-! ### The steps of a function's reset -/

/-- Every pair of a function disabled. -/
def State.pairsOff (s : State) (f : Nat) : State := (List.range 8).foldl (fun s q => s.qpDisable f q) s

/-- A function's mailbox and interrupt words back to reset, and its record cleared; `e` is the end of its outbound message (R403, R409). -/
def State.wipe (s : State) (f : Nat) (e : MbxEnd → MbxEnd) : State :=
  (((s.resetFnRegs f 0x10000 0x11000).resetFnRegs f 0x8000 0xC008).wr (fnPlace f) fnEvq 0).updFn f (fun x => { x with
    apt := []
    evq := []
    evLost := false
    mbaIn := none
    outEnd := e x.outEnd })

theorem State.fnReset1_eq {f : Nat} : s.fnReset1 f = (((s.pairsOff f).dropHeld f).wipe f fun e =>
    if s.rd (fnPlace f) mbaOutPend = 1 then .receiverReset else e).mbaNext f := rfl

@[simp] theorem State.pairsOff_units {f : Nat} : (s.pairsOff f).units = s.units := foldl_frame State.units (fun _ _ => by rfl) _ _
@[simp] theorem State.dropHeld_units {f : Nat} : (s.dropHeld f).units = s.units := foldl_frame State.units (fun _ _ => by rfl) _ _
@[simp] theorem State.dropHeld_fns {f : Nat} : (s.dropHeld f).fns = s.fns := foldl_frame State.fns (fun _ _ => by rfl) _ _
@[simp] theorem State.wipe_units {f : Nat} {e : MbxEnd → MbxEnd} : (s.wipe f e).units = s.units := rfl

@[simp] theorem State.fnReset1_units {f : Nat} : (s.fnReset1 f).units = s.units := by
  rw [State.fnReset1_eq, State.mbaNext_units, State.wipe_units, State.dropHeld_units, State.pairsOff_units]

@[simp] theorem State.pfReset_units {b : Nat} : (s.pfReset b).units = s.units := by
  unfold State.pfReset
  rw [State.updFn_units]
  exact foldl_frame State.units (fun _ _ => State.fnReset1_units) _ _

@[simp] theorem State.portReset_units {b : Nat} : (s.portReset b).units = s.units := by rw [State.portReset, State.bb_units, State.pfReset_units]

/-! ### A function's record through its reset -/

section
variable {γ : Type} {k : Fn → γ} {f n : Nat} {g : Fn → Fn}

/-- A part of every function's record that a change leaves alone. -/
theorem State.fn_updFn_frame (hw : Table.wf {} s.fns = true) (hg : k (g (s.fn f)) = k (s.fn f)) : k ((s.updFn f g).fn n) = k (s.fn n) := by
  by_cases h : f = n
  · subst h
    rw [State.fn_updFn_same hw, hg]
  · rw [State.fn_updFn_ne h]

end

theorem State.updFn_fns_wf {f : Nat} {g : Fn → Fn} (h : Table.wf {} s.fns = true) : Table.wf {} (s.updFn f g).fns = true := Table.upd_wf h _ _

/-- What a function's reset clears of its record. -/
structure Fn.Cleared (x : Fn) : Prop where
  apt : x.apt = []
  evq : x.evq = []
  mbaIn : x.mbaIn = none

/-- The part of a function's record that its reset clears. -/
def Fn.core (x : Fn) : Table Aperture × List Event × Option MbaIn := (x.apt, x.evq, x.mbaIn)

theorem Fn.Cleared.of_core {x y : Fn} (h : x.core = y.core) (hy : y.Cleared) : x.Cleared := by
  simp only [Fn.core, Prod.mk.injEq] at h
  exact ⟨h.1.trans hy.apt, h.2.1.trans hy.evq, h.2.2.trans hy.mbaIn⟩

@[simp] theorem State.msix_fns {f vec : Nat} : (s.msix f vec).fns = s.fns := ite_frame State.fns rfl rfl
@[simp] theorem State.outWake_fns {f : Nat} : (s.outWake f).fns = s.fns :=
  ite_frame State.fns (ite_frame State.fns rfl rfl) (ite_frame State.fns State.msix_fns rfl)

theorem State.mbaSend_core {f n : Nat} {msg : List W32} (hw : Table.wf {} s.fns = true) : ((s.mbaSend f msg).fn n).core = (s.fn n).core := by
  unfold State.mbaSend
  refine ite_frame (fun t : State => (t.fn n).core) (State.fn_updFn_frame hw rfl) ?_
  extract_lets p s1 s2
  have h1 : s1.fns = s.fns := foldl_frame State.fns (fun _ _ => State.wr_fns) _ _
  clear_value s1
  have hw1 : Table.wf {} ((s1.wr p mbaOutPend 1).inc p mbaOutSeq).fns = true := by
    rw [← h1] at hw
    exact hw
  refine (congrArg Fn.core (State.fn_congr State.outWake_fns n)).trans ((State.fn_updFn_frame (k := Fn.core) hw1 rfl).trans ?_)
  exact congrArg Fn.core (State.fn_congr (s := s) (s' := (s1.wr p mbaOutPend 1).inc p mbaOutSeq) h1 n)

theorem State.mbaNext_core {f n : Nat} (hw : Table.wf {} s.fns = true) : ((s.mbaNext f).fn n).core = (s.fn n).core := by
  unfold State.mbaNext
  split
  · rfl
  · exact (State.mbaSend_core (State.updFn_fns_wf hw)).trans (State.fn_updFn_frame hw rfl)

section
variable {f : Nat} (hw : Table.wf {} s.fns = true)
include hw

theorem State.qpDisable_fns_wf {q : Nat} : Table.wf {} (s.qpDisable f q).fns = true := by
  rw [State.qpDisable, State.updHub_fns]
  exact State.updFn_fns_wf hw

theorem State.pairsOff_fns_wf : Table.wf {} (s.pairsOff f).fns = true :=
  List.foldlRecOn (motive := fun t : State => Table.wf {} t.fns = true) _ _ hw fun _ h _ _ => State.qpDisable_fns_wf h

omit hw in
theorem State.pairsOff_fn_ne {n : Nat} (hn : f ≠ n) : (s.pairsOff f).fn n = s.fn n := by
  unfold State.pairsOff
  refine foldl_frame (fun t : State => t.fn n) (fun t q => ?_) _ _
  rw [State.qpDisable, State.updHub_fn, State.fn_updFn_ne hn, State.wr_fn]

theorem State.wipe_fns_wf {e : MbxEnd → MbxEnd} : Table.wf {} (s.wipe f e).fns = true := by
  unfold State.wipe
  exact State.updFn_fns_wf hw

omit hw in
theorem State.wipe_fn_ne {e : MbxEnd → MbxEnd} {n : Nat} (hn : f ≠ n) : (s.wipe f e).fn n = s.fn n := by
  unfold State.wipe
  rw [State.fn_updFn_ne hn]
  rfl

theorem State.wipe_cleared {e : MbxEnd → MbxEnd} : ((s.wipe f e).fn f).Cleared := by
  unfold State.wipe
  rw [State.fn_updFn_same (by exact hw)]
  exact ⟨rfl, rfl, rfl⟩

theorem State.dropHeld_fns_wf : Table.wf {} ((s.pairsOff f).dropHeld f).fns = true := by
  rw [State.dropHeld_fns]
  exact State.pairsOff_fns_wf hw

/-- A function's reset clears its own record. -/
theorem State.fnReset1_cleared : ((s.fnReset1 f).fn f).Cleared := by
  rw [State.fnReset1_eq]
  exact .of_core (State.mbaNext_core (State.wipe_fns_wf (State.dropHeld_fns_wf hw))) (State.wipe_cleared (State.dropHeld_fns_wf hw))

/-- It leaves every other function's. -/
theorem State.fnReset1_core {n : Nat} (hn : f ≠ n) : ((s.fnReset1 f).fn n).core = (s.fn n).core := by
  rw [State.fnReset1_eq, State.mbaNext_core (State.wipe_fns_wf (State.dropHeld_fns_wf hw)), State.wipe_fn_ne hn,
    State.fn_congr State.dropHeld_fns n, State.pairsOff_fn_ne hn]

end

/-! ### A pair's control word through a reset -/

section
variable {p o : Nat} (hlo : o < 0x8000) (hmod : o % 64 = 0x10)
include hlo hmod

omit hlo in
/-- No count of commands stands in a word of this place. -/
theorem State.dropHeld_reg {f : Nat} : (s.dropHeld f).reg p o = s.reg p o :=
  foldl_frame (fun t : State => t.reg p o) (fun t c => by
    refine (State.reg_setReg_ne ?_).trans ((State.reg_setReg_ne ?_).trans rfl)
    · simp only [fnFwcmds]
      omega
    · simp only [qpOutst]
      omega) _ _

omit hmod in
theorem State.resetFnRegs_reg {f lo hi : Nat} (h : o < lo) : (s.resetFnRegs f lo hi).reg p o = s.reg p o := by
  unfold State.reg State.resetFnRegs
  dsimp only
  rw [Table.get_filter_key (keep := fun k => !(decide (k / 2 ^ 24 = fnPlace f) && decide (lo ≤ k % 2 ^ 24) && decide (k % 2 ^ 24 < hi)))]
  have hbelow : ¬lo ≤ (p * 2 ^ 24 + o) % 2 ^ 24 := by omega
  rw [if_pos (by rw [decide_eq_false hbelow, Bool.and_false, Bool.false_and]; rfl)]

theorem State.wipe_reg {f : Nat} {e : MbxEnd → MbxEnd} : (s.wipe f e).reg p o = s.reg p o := by
  refine (State.reg_setReg_ne ?_).trans ((State.resetFnRegs_reg hlo (by omega)).trans (State.resetFnRegs_reg hlo (by omega)))
  simp only [fnEvq]
  omega

omit hmod in
theorem State.outWake_reg {f : Nat} : (s.outWake f).reg p o = s.reg p o :=
  ite_frame (fun t : State => t.reg p o) (ite_frame (fun t : State => t.reg p o) rfl rfl)
    (ite_frame (fun t : State => t.reg p o) (State.reg_msix_below (by omega) (Nat.lt_trans (fld_lt _) (by simp [mbaVec]))) rfl)

omit hmod in
theorem State.mbaSend_reg {f : Nat} {msg : List W32} : (s.mbaSend f msg).reg p o = s.reg p o := by
  unfold State.mbaSend
  refine ite_frame (fun t : State => t.reg p o) rfl ?_
  extract_lets p' s1 s2
  have h1 : s1.reg p o = s.reg p o := foldl_frame_mem (fun t : State => t.reg p o) (fun t i hi => by
    have := List.mem_range.1 hi
    refine State.reg_setReg_ne ?_
    simp only [mbaOutData]
    omega) _
  clear_value s1
  refine (State.outWake_reg hlo).trans ((State.reg_setReg_ne ?_).trans ((State.reg_setReg_ne ?_).trans h1))
  · simp only [mbaOutSeq]
    omega
  · simp only [mbaOutPend]
    omega

omit hmod in
theorem State.mbaNext_reg {f : Nat} : (s.mbaNext f).reg p o = s.reg p o := by
  unfold State.mbaNext
  split
  · rfl
  · exact State.mbaSend_reg hlo

/-- Of a pair's control word, a reset of a function changes what disabling pairs changes. -/
theorem State.fnReset1_reg {f : Nat} : (s.fnReset1 f).reg p o = (s.pairsOff f).reg p o := by
  rw [State.fnReset1_eq, State.mbaNext_reg hlo, State.wipe_reg hlo hmod, State.dropHeld_reg hmod]

end

section
variable {f g q r : Nat} (hw : Table.wf 0 s.regs = true) (hq : q < 8)
include hw hq

/-- A disabled pair stays disabled while others are disabled. -/
theorem State.qpDisable_keepsOff (hr : r < 8) (h : s.rd (fnPlace g) (qpEn q) = 0) : (s.qpDisable f r).rd (fnPlace g) (qpEn q) = 0 := by
  by_cases hf : f = g
  · by_cases hrq : r = q
    · subst hrq hf
      exact State.qpDisable_rd hw hq
    · subst hf
      exact (State.rd_wr_off (by simp only [qpEn]; omega)).trans h
  · refine Eq.trans (congrArg (fld · _ _) (State.reg_setReg_ne ?_)) h
    simp only [qpEn, fnPlace]
    omega

omit hw in
theorem State.fnReset1_rdEn : (s.fnReset1 f).rd (fnPlace g) (qpEn q) = (s.pairsOff f).rd (fnPlace g) (qpEn q) :=
  congrArg (fld · (qpEn q).hi (qpEn q).lo) (State.fnReset1_reg (by simp only [qpEn]; omega) (by simp only [qpEn]; omega))

/-- A function's reset disables its pairs. -/
theorem State.fnReset1_off : (s.fnReset1 f).rd (fnPlace f) (qpEn q) = 0 := by
  rw [State.fnReset1_rdEn hq, State.pairsOff]
  exact foldl_establishes_of (I := fun t : State => Table.wf 0 t.regs = true) (P := fun t : State => t.rd (fnPlace f) (qpEn q) = 0) _ _
    (fun _ _ _ h => State.wr_wf h) (fun _ h => State.qpDisable_rd h hq) (fun _ _ hr h => State.qpDisable_keepsOff h hq (List.mem_range.1 hr)) hw
    (List.mem_range.2 hq)

/-- It leaves a disabled pair disabled, of whatever function. -/
theorem State.fnReset1_keepsOff (h : s.rd (fnPlace g) (qpEn q) = 0) : (s.fnReset1 f).rd (fnPlace g) (qpEn q) = 0 := by
  rw [State.fnReset1_rdEn hq, State.pairsOff]
  have hboth := List.foldlRecOn (motive := fun t : State => Table.wf 0 t.regs = true ∧ t.rd (fnPlace g) (qpEn q) = 0) (List.range 8)
    (fun s r => s.qpDisable f r) ⟨hw, h⟩ fun _ ht _ hr => ⟨State.wr_wf ht.1, State.qpDisable_keepsOff ht.1 hq (List.mem_range.1 hr) ht.2⟩
  exact hboth.2

end

/-! ### Resets of a port -/

/-- Function `f` is reset: its pairs are disabled and its record is cleared (R403, R409). -/
structure FnOff (t : State) (f : Nat) : Prop where
  pairs : ∀ q : Fin 8, t.rd (fnPlace f) (qpEn q.val) = 0
  record : (t.fn f).Cleared

theorem State.fnReset1_fnOff {f : Nat} (h : Canon s) : FnOff (s.fnReset1 f) f :=
  ⟨fun q => State.fnReset1_off h.regs q.isLt, State.fnReset1_cleared h.fns⟩

theorem FnOff.fnReset1 {f g : Nat} (hs : Canon s) (h : FnOff s g) : FnOff (s.fnReset1 f) g := by
  by_cases hf : f = g
  · exact hf ▸ State.fnReset1_fnOff hs
  · exact ⟨fun q => State.fnReset1_keepsOff hs.regs q.isLt (h.pairs q), .of_core (State.fnReset1_core hs.fns hf) h.record⟩

/-- A physical function's reset resets every function of its port. -/
theorem State.pfReset_fnOff {b : Nat} (hs : Canon s) (i : Fin 25) : FnOff (s.pfReset b) (25 * b + i.val) := by
  unfold State.pfReset
  generalize hu : (List.range 25).foldl (fun s i => s.fnReset1 (25 * b + i)) s = u
  have hkeeps : Keeps s u := hu ▸ foldl_keeps (fun _ _ h => State.fnReset1_keeps h) _ _ (.refl s)
  have hoff : FnOff u (25 * b + i.val) := by
    rw [← hu]
    exact foldl_establishes_of (I := Canon) (P := fun t => FnOff t (25 * b + i.val)) _ _ (fun t _ _ h => (State.fnReset1_keeps (.refl t)).canon h)
      (fun _ => State.fnReset1_fnOff) (fun _ _ _ h => FnOff.fnReset1 h) hs (List.mem_range.2 i.isLt)
  exact ⟨hoff.pairs, .of_core (State.fn_updFn_frame (k := Fn.core) (hkeeps.canon hs).fns rfl) hoff.record⟩

@[simp] theorem State.bb_fns {src code sev site part cause : Nat} {vals : List Byte} : (s.bb src code sev site part cause vals).fns = s.fns :=
  ite_frame State.fns State.sat_fns rfl

/-- The record of a port's reset leaves the functions and their words. -/
theorem FnOff.bb {f src code sev site part cause : Nat} {vals : List Byte} (h : FnOff s f) : FnOff (s.bb src code sev site part cause vals) f := by
  have hrd : ∀ q : Fin 8, (s.bb src code sev site part cause vals).rd (fnPlace f) (qpEn q.val) = s.rd (fnPlace f) (qpEn q.val) := fun q =>
    ite_frame (fun t : State => t.rd (fnPlace f) (qpEn q.val))
      (ite_frame (fun t : State => t.rd (fnPlace f) (qpEn q.val)) (State.rd_wr_place (by unfold fnPlace; omega) (by decide) (qpEn_ok q.isLt)) rfl) rfl
  exact ⟨fun q => (hrd q).trans (h.pairs q), .of_core (congrArg Fn.core (State.fn_congr State.bb_fns f)) h.record⟩

/-- VF Enable is clear after a physical function's reset. -/
theorem State.pfReset_vfEnable {b : Nat} (hs : Canon s) : ((s.pfReset b).fn (25 * b)).vfEnable = false := by
  unfold State.pfReset
  generalize hu : (List.range 25).foldl (fun s i => s.fnReset1 (25 * b + i)) s = u
  have hkeeps : Keeps s u := hu ▸ foldl_keeps (fun _ _ h => State.fnReset1_keeps h) _ _ (.refl s)
  rw [State.fn_updFn_same (hkeeps.canon hs).fns]

theorem State.portReset_vfEnable {b : Nat} (hs : Canon s) : ((s.portReset b).fn (25 * b)).vfEnable = false := by
  rw [State.portReset, State.fn_congr State.bb_fns, State.pfReset_vfEnable hs]

/-- A port's functions are reset, and its port die is `x`; cells and partitions are as in `s` (R403). -/
structure PortOff (s t : State) (b : Nat) (x : Port) : Prop where
  fns : ∀ i : Fin 25, FnOff t (25 * b + i.val)
  vfs : (t.fn (25 * b)).vfEnable = false
  port : t.port (2 * b) = x
  cells : SameCells s t
  parts : t.parts = s.parts

theorem State.portReset_portOff {b : Nat} (hs : Canon s) : PortOff s (s.portReset b) b (s.port (2 * b)) :=
  ⟨fun i => (State.pfReset_fnOff hs i).bb, State.portReset_vfEnable hs, State.port_congr (State.units_ports State.portReset_units) _,
    State.units_cells State.portReset_units, State.units_parts State.portReset_units⟩

theorem PortOff.updPort {t : State} {b : Nat} {x : Port} {g : Port → Port} (hw : Table.wf {} t.ports = true) (h : PortOff s t b x) :
    PortOff s (t.updPort (2 * b) g) b (g x) :=
  ⟨fun i => ⟨(h.fns i).pairs, (h.fns i).record⟩, h.vfs, by rw [State.port_updPort_same hw, h.port], h.cells, h.parts⟩

theorem State.portReset_ports_wf {b : Nat} (hs : Canon s) : Table.wf {} (s.portReset b).ports = true := ((State.portReset_keeps (.refl s)).canon hs).ports

/-- A hot reset leaves the port die as it was; a link-down leaves the link down (R403). -/
theorem execHotReset_portOff (hs : Canon s) (b : Fin 2) (down : Bool) : ∃ t, exec (.hotResetOrLinkDown b down) s = .next t
    ∧ PortOff s t b.val { s.port (2 * b.val) with linkUp := (s.port (2 * b.val)).linkUp && !down } := by
  have hoff := State.portReset_portOff (b := b.val) hs
  cases down with
  | false => exact ⟨s.portReset b.val, congrArg Host.Outcome.next (if_neg Bool.false_ne_true), by simpa using hoff⟩
  | true => exact ⟨(s.portReset b.val).updPort (2 * b.val) (fun x => { x with linkUp := false }), congrArg Host.Outcome.next (if_pos rfl),
      by simpa using hoff.updPort (State.portReset_ports_wf hs)⟩

/-! ### Training -/

/-- Lanes of port `b` within the `lanes` of its link form width `w`, from either end (R376). -/
def State.forms (s : State) (b lanes w : Nat) : Bool :=
  decide (w ≤ lanes) && ((List.range w).all (fun i => s.laneGood b i) || (List.range w).all (fun i => s.laneGood b (15 - i)))

/-- The first element of a falling list that a test passes, where every greater one fails it. -/
theorem find_of_pairwise {p : Nat → Bool} {w : Nat} {l : List Nat} (hl : l.Pairwise (· > ·)) (hw : w ∈ l) (hp : p w = true)
    (hno : ∀ v ∈ l, w < v → p v = false) : l.find? p = some w := by
  obtain ⟨as, bs, rfl⟩ := List.append_of_mem hw
  refine List.find?_eq_some_iff_append.2 ⟨hp, as, bs, rfl, fun v hv => ?_⟩
  have hgt : v > w := (List.pairwise_append.1 hl).2.2 v hv w List.mem_cons_self
  rw [hno v (List.mem_append_left _ hv) hgt]
  rfl

/-- The widest width that the lanes form (R375, R376). -/
theorem State.linkWidth_of_widest {b lanes w : Nat} (hw : w ∈ [16, 8, 4, 2, 1]) (hle : w ≤ lanes)
    (hgood : (∀ i < w, s.laneGood b i = true) ∨ ∀ i < w, s.laneGood b (15 - i) = true)
    (hwide : ∀ v ∈ [16, 8, 4, 2, 1], w < v → v ≤ lanes →
      (∃ i < v, s.laneGood b i = false) ∧ ∃ i < v, s.laneGood b (15 - i) = false) : s.linkWidth b lanes = some w := by
  refine find_of_pairwise (p := s.forms b lanes) (by decide) hw ?_ fun v hv hlt => ?_
  · simpa [State.forms, hle] using hgood
  · by_cases hv' : v ≤ lanes
    · obtain ⟨⟨i, hi, hbad⟩, j, hj, hrev⟩ := hwide v hv hlt hv'
      have h1 : (List.range v).all (fun i => s.laneGood b i) = false := List.all_eq_false.2 ⟨i, List.mem_range.2 hi, by simp [hbad]⟩
      have h2 : (List.range v).all (fun i => s.laneGood b (15 - i)) = false := List.all_eq_false.2 ⟨j, List.mem_range.2 hj, by simp [hrev]⟩
      rw [State.forms, h1, h2, Bool.or_false, Bool.and_false]
    · simp [State.forms, hv']

/-- The port trained at width `w` and the rate `rate` (R375). -/
def State.trained (s : State) (b w rate : Nat) : State :=
  s.updPort (2 * b) (fun x => { x with linkUp := true, width := w, rate := 16 * 2 ^ rate, perst := false })

/-- A link that forms a width comes up; a narrow one is a reason to replace the panel (R495). -/
theorem execPcieLinkUp_trains {b : Fin 2} {lanes : Fin 17} {rate : Fin 4} {w : Nat} (ht : s.mayTrain b.val = true)
    (hw : s.linkWidth b.val lanes.val = some w) : exec (.pcieLinkUp b lanes rate) s
      = .next (if w < 16 then (s.trained b.val w rate.val).raiseReason 7 else s.trained b.val w rate.val) := by
  rw [exec_pcieLinkUp, execPcieLinkUp, hw]
  simp only [ht]
  rfl

theorem execPcieLinkUp_idle {b : Fin 2} {lanes : Fin 17} {rate : Fin 4} (h : s.mayTrain b.val = false ∨ s.linkWidth b.val lanes.val = none) :
    exec (.pcieLinkUp b lanes rate) s = .next s := by
  rw [exec_pcieLinkUp, execPcieLinkUp]
  cases hw : s.linkWidth b.val lanes.val with
  | none => rfl
  | some w => simp [h.resolve_right (by simp [hw])]

/-! ### Bus Master Enable -/

/-- The DMA commands of function `f` that run. -/
def HostCmd.runsDma (c : HostCmd) (f : Nat) : Bool := c.fn == f && c.begun && (c.opc == 0x13 || c.opc == 0x14)

theorem HostCmd.runsDma_iff {c : HostCmd} {f : Nat} : c.runsDma f = true ↔ c.fn = f ∧ c.begun = true ∧ (c.opc = 0x13 ∨ c.opc = 0x14) := by
  simp [HostCmd.runsDma, and_assoc]

theorem State.bmeClear_eq {f : Nat} : s.bmeClear f = (s.hub.cmds.filter (·.runsDma f)).foldl (fun s c => s.endCmd c scDmaFault (bytesLE 4 c.bytes))
    (s.updFn f (fun x => { x with busMaster := false })) := rfl

/-- Commands ended one after the other: what is left was there before, and is none of them. -/
theorem endCmds_cmds {code : W16} {data : HostCmd → List Byte} : ∀ (l : List HostCmd) (s : State),
    ∀ c ∈ (l.foldl (fun s c => s.endCmd c code (data c)) s).hub.cmds, c ∈ s.hub.cmds ∧ c ∉ l
  | [], _, c, hc => ⟨hc, List.not_mem_nil⟩
  | d :: l, s, c, hc => by
    obtain ⟨hin, hno⟩ := endCmds_cmds l _ c hc
    rw [State.endCmd_hub] at hin
    obtain ⟨hin, hd⟩ := List.mem_filter.1 hin
    refine ⟨hin, fun h => ?_⟩
    obtain rfl | h := List.mem_cons.1 h
    · simp [HostCmd.is] at hd
    · exact hno h

/-- A reply leaves which functions may master the bus. -/
theorem State.sendReply_busMaster {f q opc n : Nat} {tag code : W16} {final event vf1 : Bool} {data : List Byte} (hw : Table.wf {} s.fns = true) :
    ((s.sendReply f q tag code final event opc vf1 data).fn n).busMaster = (s.fn n).busMaster := by
  unfold State.sendReply
  dsimp only
  refine ite_frame (fun t : State => (t.fn n).busMaster) rfl (ite_frame (fun t : State => (t.fn n).busMaster) ?_ ?_)
  · rw [State.fn_congr State.msix_fns, State.emit_fn]
    exact State.fn_updFn_frame (k := Fn.busMaster) hw rfl
  · rw [State.emit_fn]
    exact State.fn_updFn_frame (k := Fn.busMaster) hw rfl

theorem State.endCmd_busMaster {c : HostCmd} {code : W16} {data : List Byte} {n : Nat} (hw : Table.wf {} s.fns = true) :
    ((s.endCmd c code data).fn n).busMaster = (s.fn n).busMaster := by
  have hdrop : ((s.dropCmd c).fn n).busMaster = (s.fn n).busMaster := congrArg Fn.busMaster (State.fn_congr State.dropCmd_fns n)
  have hwd : Table.wf {} (s.dropCmd c).fns = true := by rw [State.dropCmd_fns, hw]
  exact ite_frame (fun t : State => (t.fn n).busMaster) hdrop ((State.sendReply_busMaster hwd).trans hdrop)

theorem State.bmeClear_busMaster {f : Nat} (hs : Canon s) : ((s.bmeClear f).fn f).busMaster = false := by
  rw [State.bmeClear_eq]
  have h0 : Canon (s.updFn f (fun x => { x with busMaster := false })) := (State.updFn_keeps (.refl s)).canon hs
  have hstart : ((s.updFn f (fun x => { x with busMaster := false })).fn f).busMaster = false := by rw [State.fn_updFn_same hs.fns]
  have hend := List.foldlRecOn (motive := fun t : State => Canon t ∧ (t.fn f).busMaster = false) (s.hub.cmds.filter (·.runsDma f))
    (fun s c => s.endCmd c scDmaFault (bytesLE 4 c.bytes)) ⟨h0, hstart⟩
    fun t ht c _ => ⟨(State.endCmd_keeps (.refl t)).canon ht.1, (State.endCmd_busMaster ht.1.fns).trans ht.2⟩
  exact hend.2

@[simp] theorem State.bmeClear_units {f : Nat} : (s.bmeClear f).units = s.units := by
  rw [State.bmeClear_eq]
  exact foldl_frame State.units (fun _ _ => State.endCmd_units) _ _

/-! ### TDISP -/

section
variable {f : Fin 50} (h0 : f.val ≠ 0) (h25 : f.val ≠ 25)
include h0 h25

theorem isPf_of_vf : isPf f.val = false := by simp [isPf, h0, h25]

/-- A message within a session that the function does not hold open is not heard. -/
theorem execTdispMessage_outside {n : Fin 4} {i : Fin 8} (hn : n.val ∉ (s.fn f.val).sessions) : exec (.tdispMessage f (.lock n i)) s = .next s
    ∧ exec (.tdispMessage f (.start n)) s = .next s ∧ exec (.tdispMessage f (.stop n)) s = .next s := by
  simp only [exec_tdispMessage, execTdispMessage, isPf_of_vf h0 h25]
  cases (s.fn f.val).tdisp <;> simp [hn]

end

/-- Settles O11: resets by what each function's reset clears and leaves, links by the widest width, commands by their guards. -/
theorem functionsLinksAndTdisp : Obligations.FunctionsLinksAndTdisp := by
  unfold Obligations.FunctionsLinksAndTdisp
  intro s hs
  refine ⟨fun b v => ⟨_, rfl, ?_⟩, fun b => ⟨_, rfl, ?_⟩, fun b down => ?_, fun b => ⟨_, rfl, ?_⟩,
    fun b lanes rate w ht hw hle hgood hwide => ⟨_, execPcieLinkUp_trains ht (State.linkWidth_of_widest hw hle hgood hwide), ?_⟩,
    fun b lanes rate => execPcieLinkUp_idle, fun f => ⟨_, rfl, ?_⟩, fun f c hc hf hb hopc => ?_, fun f tee hserved => ?_,
    fun f n i h0 h25 => ⟨fun hn => ⟨fun hu => ?_, fun hl => ?_, ?_⟩, ?_, execTdispMessage_outside h0 h25⟩⟩
  · obtain ⟨hpairs, ⟨hapt, hevq, hmba⟩⟩ := State.fnReset1_fnOff (f := 25 * b.val + v.val + 1) hs
    exact ⟨hpairs, hapt, hevq, hmba, State.units_cells State.fnReset1_units, State.units_parts State.fnReset1_units,
      State.units_ports State.fnReset1_units⟩
  · refine ⟨fun i => ?_, State.pfReset_vfEnable hs, State.units_cells State.pfReset_units, State.units_parts State.pfReset_units,
      State.units_ports State.pfReset_units⟩
    obtain ⟨hpairs, ⟨hapt, hevq, hmba⟩⟩ := State.pfReset_fnOff (b := b.val) hs i
    exact ⟨hapt, hevq, hmba, hpairs⟩
  · obtain ⟨t, ht, hfns, hvfs, hport, hcells, hparts⟩ := execHotReset_portOff hs b down
    exact ⟨t, ht, fun i => ⟨(hfns i).record.apt, (hfns i).record.evq, (hfns i).record.mbaIn, (hfns i).pairs⟩, hvfs, hport, hcells, hparts⟩
  · obtain ⟨hfns, hvfs, hport, hcells, hparts⟩ := (State.portReset_portOff (b := b.val) hs).updPort
      (g := fun x => { x with perst := true, linkUp := false }) (State.portReset_ports_wf hs)
    exact ⟨fun i => ⟨(hfns i).record.apt, (hfns i).record.evq, (hfns i).record.mbaIn, (hfns i).pairs⟩, hvfs, hport, hcells, hparts⟩
  · have hport : (s.trained b.val w rate.val).port (2 * b.val)
        = { s.port (2 * b.val) with linkUp := true, width := w, rate := 16 * 2 ^ rate.val, perst := false } := State.port_updPort_same hs.ports
    have hraise : ((s.trained b.val w rate.val).raiseReason 7).units = (s.trained b.val w rate.val).units := State.raiseReason_units
    dsimp only
    split
    · have hcells := State.units_cells hraise
      have hparts := State.units_parts hraise
      exact ⟨(State.port_congr (State.units_ports hraise) _).trans hport, hcells, hparts⟩
    · exact ⟨hport, ⟨rfl, rfl, rfl⟩, rfl⟩
  · refine ⟨State.bmeClear_busMaster hs, fun c hc => ?_, State.units_cells State.bmeClear_units, State.units_ports State.bmeClear_units,
      State.units_parts State.bmeClear_units⟩
    rw [State.bmeClear_eq] at hc
    obtain ⟨hin, hno⟩ := endCmds_cmds _ _ c hc
    exact ⟨hin, fun h => hno (List.mem_filter.2 ⟨hin, HostCmd.runsDma_iff.2 h⟩)⟩
  · have hrun : [c].filter (·.runsDma f.val) = [c] := List.filter_eq_self.2 (by simpa using HostCmd.runsDma_iff.2 ⟨hf, hb, hopc⟩)
    rw [exec_busMasterEnableCleared, execBusMasterEnableCleared, State.bmeClear_eq, hc, hrun, List.foldl_cons, List.foldl_nil]
  · exact ⟨s.inc (fnPlace f.val) fnBar2Wr, congrArg Host.Outcome.next (if_neg (by simp [hserved])), State.rd_wr_same hs.regs (by decide), rfl⟩
  · have hrun : exec (.tdispMessage f (.lock n i)) s = .next (s.updFn f.val fun x => { x with tdisp := .locked, stream := i.val + 1 }) := by
      simp [execTdispMessage, isPf_of_vf h0 h25, hu, hn]
    exact ⟨_, hrun, State.fn_updFn_same hs.fns, rfl⟩
  · have hrun : exec (.tdispMessage f (.start n)) s = .next (s.updFn f.val fun x => { x with tdisp := .run }) := by
      simp [execTdispMessage, isPf_of_vf h0 h25, hl, hn]
    exact ⟨_, hrun, State.fn_updFn_same hs.fns, rfl⟩
  · have hrun : exec (.tdispMessage f (.stop n)) s = .next (s.updFn f.val fun x => { x with tdisp := .unlocked }) := by
      simp [execTdispMessage, isPf_of_vf h0 h25, hn]
    exact ⟨_, hrun, State.fn_updFn_same hs.fns, rfl⟩
  · have hrun : exec (.tdispMessage f .error) s = .next (s.updFn f.val fun x => { x with tdisp := .error, apt := [] }) := by
      simp [execTdispMessage, isPf_of_vf h0 h25]
    exact ⟨_, hrun, State.fn_updFn_same hs.fns, rfl⟩

end Sys2Proof.Machine

/-! PROOFS. The family of the functions' mailboxes (O12). -/

namespace Sys2Proof.Machine

variable {s : State}

/-! ### An interrupt of a channel -/

/-- MSI-X's pending words lie below the mailbox's (R379, R409). -/
theorem State.reg_msix_mailbox {f vec p o : Nat} (ho : 0xC008 ≤ o) (ho' : o < 2 ^ 24) (hv : vec < 2 ^ 6) : (s.msix f vec).reg p o = s.reg p o := by
  unfold State.msix
  exact ite_frame (fun t : State => t.reg p o) (State.reg_setReg_ne (by omega)) rfl

section
variable {f p : Nat} {d : Fd} (hlo : 0xC008 ≤ d.off) (hhi : d.off < 2 ^ 24)
include hlo hhi

theorem State.mbaIrq_rd : (s.mbaIrq f).rd p d = s.rd p d :=
  ite_frame (fun t : State => t.rd p d) (congrArg (fld · d.hi d.lo) (State.reg_msix_mailbox hlo hhi (fld_lt _))) rfl

theorem State.outWake_rd : (s.outWake f).rd p d = s.rd p d :=
  ite_frame (fun t : State => t.rd p d) (ite_frame (fun t : State => t.rd p d) rfl rfl)
    (ite_frame (fun t : State => t.rd p d) (congrArg (fld · d.hi d.lo) (State.reg_msix_mailbox hlo hhi (fld_lt _))) rfl)

end

@[simp] theorem State.mbaIrq_units {f : Nat} : (s.mbaIrq f).units = s.units := ite_frame State.units State.msix_units rfl
@[simp] theorem State.mbaIrq_fns {f : Nat} : (s.mbaIrq f).fns = s.fns := ite_frame State.fns State.msix_fns rfl
@[simp] theorem State.mbaIrq_hub {f : Nat} : (s.mbaIrq f).hub = s.hub := ite_frame State.hub State.msix_hub rfl
@[simp] theorem State.mbaIrq_now {f : Nat} : (s.mbaIrq f).now = s.now := ite_frame State.now (ite_frame State.now rfl rfl) rfl

/-! ### The inbound side -/

section
variable {f : Nat} (hw : Table.wf 0 s.regs = true)
include hw

/-- A message pends: its number counts, and the snapshot of its words waits for hub firmware (R410). -/
def State.mbaSnap (s : State) (f : Nat) : State :=
  ((s.inc (fnPlace f) mbaInSeq).wr (fnPlace f) mbaInPend 1).updFn f (fun x => { x with
    mbaIn := some ⟨(List.range 16).map (fun i => BitVec.ofNat 32 (s.rd (fnPlace f) (mbaInData i))), s.now⟩ })

theorem State.mbaSnap_rd : (s.mbaSnap f).rd (fnPlace f) mbaInPend = 1
    ∧ (s.mbaSnap f).rd (fnPlace f) mbaInSeq = (s.rd (fnPlace f) mbaInSeq + 1) % 2 ^ (mbaInSeq.hi + 1 - mbaInSeq.lo) :=
  ⟨State.rd_wr_same (State.inc_wf hw) (by decide),
    (State.rd_wr_apart (State.inc_wf hw) (by decide) (by decide) (by decide)).trans (State.rd_wr_same hw (by decide))⟩

omit hw in
/-- A GO on a quiet inbound side of a panel whose hub firmware runs (R407, R410). -/
theorem State.mbaGo_quiet (hp : s.rd (fnPlace f) mbaInPend = 0) (ht : s.rd (fnPlace f) mbaInTaken = 0) (hd : s.rd (fnPlace f) mbaInDone = 0)
    (ho : s.rd (fnPlace f) mbaInTimeout = 0) (hr : s.rd (fnPlace f) mbaInRreset = 0) (hup : s.hub.score.fwUp = true) : s.mbaGo f = s.mbaSnap f :=
  (if_neg (by simp [hp, ht, hd, ho, hr])).trans (if_neg (by simp [hup]))

/-- A message that is in time is taken (R406). -/
theorem State.mbaTake_inTime {m : MbaIn} (hm : (s.fn f).mbaIn = some m) (hp : s.rd (fnPlace f) mbaInPend = 1) (hnow : s.now ≤ m.at_ + s.mbaTmo f) :
    s.mbaTake f = (s.wr (fnPlace f) mbaInPend 0).wr (fnPlace f) mbaInTaken 1
      ∧ (s.mbaTake f).rd (fnPlace f) mbaInPend = 0 ∧ (s.mbaTake f).rd (fnPlace f) mbaInTaken = 1 := by
  have heq : s.mbaTake f = (s.wr (fnPlace f) mbaInPend 0).wr (fnPlace f) mbaInTaken 1 := by
    rw [State.mbaTake, hm]
    exact if_pos ⟨hp, hnow⟩
  rw [heq]
  exact ⟨rfl, (State.rd_wr_apart (State.wr_wf hw) (by decide) (by decide) (by decide)).trans (State.rd_wr_same hw (by decide)),
    State.rd_wr_same (State.wr_wf hw) (by decide)⟩

/-- What the end of a taken message with result 0 leaves of the channel (R410). -/
structure MbaEnded (s t : State) (f : Nat) : Prop where
  taken : t.rd (fnPlace f) mbaInTaken = 0
  done : t.rd (fnPlace f) mbaInDone = 1
  result : t.rd (fnPlace f) mbaInResult = 0
  empty : (t.fn f).mbaIn = none
  units : t.units = s.units
  hub : t.hub = s.hub

theorem State.mbaDone_ok (hf : Table.wf {} s.fns = true) (ht : s.rd (fnPlace f) mbaInTaken ≠ 0) : MbaEnded s (s.mbaDone f mrOk) f := by
  rw [State.mbaDone, if_neg ht]
  have h1 := State.wr_wf (p := fnPlace f) (f := mbaInTaken) (v := 0) hw
  have h2 := State.wr_wf (p := fnPlace f) (f := mbaInDone) (v := 1) h1
  refine ⟨?_, ?_, ?_, ?_, ?_, ?_⟩
  · rw [State.mbaIrq_rd (by decide) (by decide), State.updFn_rd, State.rd_wr_off (by decide),
      State.rd_wr_apart h1 (by decide) (by decide) (by decide), State.rd_wr_same hw (by decide), Nat.zero_mod]
  · rw [State.mbaIrq_rd (by decide) (by decide), State.updFn_rd, State.rd_wr_off (by decide), State.rd_wr_same h1 (by decide)]
    rfl
  · rw [State.mbaIrq_rd (by decide) (by decide), State.updFn_rd, State.rd_wr_same h2 (by decide)]
    rfl
  · rw [State.fn_congr State.mbaIrq_fns, State.fn_updFn_same (by exact hf)]
  · rw [State.mbaIrq_units]
    rfl
  · rw [State.mbaIrq_hub]
    rfl

end

section
variable {f code : Nat}

theorem State.taken_of_mbaCode (h : s.mbaCode f = some code) : s.rd (fnPlace f) mbaInTaken ≠ 0 := by
  intro h0
  rw [State.mbaCode, if_pos h0] at h
  cases h

/-- The message whose code is known. -/
theorem State.mbaIn_of_mbaCode (h : s.mbaCode f = some code) : ∃ m, (s.fn f).mbaIn = some m ∧ fld (m.data.getD 0 0) 15 0 = code := by
  rw [State.mbaCode, if_neg (State.taken_of_mbaCode h)] at h
  exact Option.map_eq_some_iff.1 h

theorem State.mbaAct_ping (h : s.mbaCode f = some 1) : s.mbaAct f = (s, mrOk) := by
  obtain ⟨m, hm, hcode⟩ := State.mbaIn_of_mbaCode h
  simp only [State.mbaAct, hm, hcode]

theorem State.mbaAct_bbRead {m : MbaIn} (h : s.mbaCode f = some 2) (hm : (s.fn f).mbaIn = some m) : s.mbaAct f = s.mbaBbRead f m.data := by
  obtain ⟨m', hm', hcode⟩ := State.mbaIn_of_mbaCode h
  obtain rfl : m' = m := Option.some.inj (hm'.symm.trans hm)
  simp only [State.mbaAct, hm, hcode]

/-- A physical function's first HOST_MARK is timed and recorded (R609). -/
theorem State.mbaAct_hostMark (h : s.mbaCode f = some 3) (hpf : f % 25 = 0) (hfirst : s.hub.score.markAt = none) : ∃ bs, s.mbaAct f
    = ((s.updHub (fun h => { h with score := { h.score with markAt := some s.now } })).bb srcFw 0x0804 0 0xFFFF 31 0 bs, mrOk) := by
  obtain ⟨m, hm, hcode⟩ := State.mbaIn_of_mbaCode h
  refine ⟨(m.data.drop 1).flatMap (fun w => bytesLE 4 w.toNat), ?_⟩
  simp only [State.mbaAct, hm, hcode, State.mbaHostMark, hpf, hfirst]
  rfl

/-- A command that finishes a message of its code (R609). -/
theorem State.mbaFinish_of_code {t : State} {r : Nat} (h : s.mbaCode f = some code) (hact : s.mbaAct f = (t, r)) : s.mbaFinish f code = t.mbaDone f r := by
  rw [State.mbaFinish, if_pos h, hact]

end

@[simp] theorem State.bb_score {src code sev site part cause : Nat} {vals : List Byte} : (s.bb src code sev site part cause vals).hub.score = s.hub.score := by
  unfold State.bb
  dsimp only
  split
  · rw [State.sat_hub]
    rfl
  · rfl

/-- A record leaves the words of every function. -/
theorem State.bb_rd_fn {src code sev site part cause f : Nat} {vals : List Byte} {d : Fd} (hd : d.ok = true) :
    (s.bb src code sev site part cause vals).rd (fnPlace f) d = s.rd (fnPlace f) d :=
  ite_frame (fun t : State => t.rd (fnPlace f) d)
    (ite_frame (fun t : State => t.rd (fnPlace f) d) (State.rd_wr_place (by unfold fnPlace; omega) (by decide) hd) rfl) rfl

/-! ### The outbound side -/

section
variable {f : Nat} {msg : List W32}

theorem mbaOutData_ok {i : Nat} (hi : i < 16) : (mbaOutData i).ok = true := Fd.ok_of (by decide) (by decide) (by omega)

/-- The sixteen words of a message written into the channel. -/
def State.outWords (s : State) (f : Nat) (msg : List W32) : State :=
  (List.range 16).foldl (fun s i => s.wr (fnPlace f) (mbaOutData i) ((msg.getD i 0).toNat)) s

theorem State.outWords_rd (hw : Table.wf 0 s.regs = true) {i : Nat} (hi : i < 16) :
    (s.outWords f msg).rd (fnPlace f) (mbaOutData i) = (msg.getD i 0).toNat := by
  unfold State.outWords
  exact foldl_establishes_of (I := fun t : State => Table.wf 0 t.regs = true)
    (P := fun t : State => t.rd (fnPlace f) (mbaOutData i) = (msg.getD i 0).toNat)
    (f := fun s i => s.wr (fnPlace f) (mbaOutData i) ((msg.getD i 0).toNat)) (List.range 16) s (fun _ _ _ h => State.wr_wf h)
    (fun _ h => (State.rd_wr_same h (mbaOutData_ok hi)).trans (Nat.mod_eq_of_lt (msg.getD i 0).isLt))
    (fun _ j _ h hp => by
      by_cases hj : j = i
      · rw [hj]
        exact (State.rd_wr_same h (mbaOutData_ok hi)).trans (Nat.mod_eq_of_lt (msg.getD i 0).isLt)
      · exact (State.rd_wr_off (by simp only [mbaOutData]; omega)).trans hp) hw (List.mem_range.2 hi)

theorem State.outWords_wf (hw : Table.wf 0 s.regs = true) : Table.wf 0 (s.outWords f msg).regs = true :=
  List.foldlRecOn (motive := fun t : State => Table.wf 0 t.regs = true) (List.range 16) _ hw fun _ h _ _ => State.wr_wf h

theorem State.outWords_fns : (s.outWords f msg).fns = s.fns := foldl_frame State.fns (fun _ _ => by rfl) _ _

/-- A message that fills the channel of a function that makes requests (R407, R411). -/
theorem State.mbaSend_master (hbm : (s.fn f).busMaster = true) : s.mbaSend f msg = ((((s.outWords f msg).wr (fnPlace f) mbaOutPend 1).inc
    (fnPlace f) mbaOutSeq).updFn f (fun x => { x with outAt := s.now })).outWake f := if_neg (by simp [hbm])

/-- The channel once a message fills it. -/
theorem State.mbaSend_rd (hw : Table.wf 0 s.regs = true) (hbm : (s.fn f).busMaster = true) : (s.mbaSend f msg).rd (fnPlace f) mbaOutPend = 1
    ∧ ∀ i, i < 16 → (s.mbaSend f msg).rd (fnPlace f) (mbaOutData i) = (msg.getD i 0).toNat := by
  rw [State.mbaSend_master hbm]
  have h1 := State.outWords_wf (f := f) (msg := msg) hw
  refine ⟨?_, fun i hi => ?_⟩
  · rw [State.outWake_rd (by decide) (by decide), State.updFn_rd]
    exact (State.rd_wr_apart (State.wr_wf h1) (by decide) (by decide) (by decide)).trans (State.rd_wr_same h1 (by decide))
  · rw [State.outWake_rd (by simp only [mbaOutData]; omega) (by simp only [mbaOutData]; omega), State.updFn_rd]
    refine (State.rd_wr_off (by simp only [mbaOutData, mbaOutSeq]; omega)).trans
      ((State.rd_wr_off (by simp only [mbaOutData, mbaOutPend]; omega)).trans (State.outWords_rd hw hi))

theorem State.mbaSend_outAt (hf : Table.wf {} s.fns = true) (hbm : (s.fn f).busMaster = true) : ((s.mbaSend f msg).fn f).outAt = s.now := by
  rw [State.mbaSend_master hbm, State.fn_congr State.outWake_fns, State.fn_updFn_same]
  rw [State.inc_fns, State.wr_fns, State.outWords_fns, hf]

/-- Where no message waits, none follows (R609). -/
theorem State.mbaNext_none (h : (s.fn f).outq = []) : s.mbaNext f = s := by
  rw [State.mbaNext, h]

/-- The oldest waiting message follows (R609). -/
theorem State.mbaNext_some {m : List W32} {l : List (List W32)} (h : (s.fn f).outq = m :: l) :
    s.mbaNext f = (s.updFn f (fun x => { x with outq := l })).mbaSend f m := by
  rw [State.mbaNext, h]

/-- The end `e` of an outbound message leaves the channel free (R411). -/
def State.outOver (s : State) (f : Nat) (e : MbxEnd) : State := (s.wr (fnPlace f) mbaOutPend 0).updFn f (fun x => { x with outEnd := e })

theorem State.outOver_rd {e : MbxEnd} (hw : Table.wf 0 s.regs = true) : (s.outOver f e).rd (fnPlace f) mbaOutPend = 0 :=
  (State.rd_wr_same hw (by decide)).trans (Nat.zero_mod _)

theorem State.outOver_fn {e : MbxEnd} (hf : Table.wf {} s.fns = true) : (s.outOver f e).fn f = { s.fn f with outEnd := e } :=
  State.fn_updFn_same hf

end

section
variable {f : Fin 50} {tee : Bool}

/-- An ACK of a pending message frees the channel (R411). -/
theorem execMbaOutAck_pending (hserved : s.unserved f.val tee = false) (hp : s.rd (fnPlace f.val) mbaOutPend ≠ 0) :
    exec (.mbaOutAck f tee) s = .next ((s.outOver f.val .taken).mbaNext f.val) :=
  congrArg Host.Outcome.next ((if_neg (by simp [hserved])).trans (if_neg hp))

/-- A pending message's time-out frees it (R411). -/
theorem execMbxTimeoutExpiry_out (hp : s.rd (fnPlace f.val) mbaOutPend ≠ 0) : exec (.mbxTimeoutExpiry (.outA f)) s
    = .next (((s.till ((s.fn f.val).outAt + s.mbaTmo f.val)).outOver f.val .timeout).mbaNext f.val) :=
  congrArg Host.Outcome.next (if_neg hp)

/-- A pending message's time-out withdraws it (R406). -/
theorem execMbxTimeoutExpiry_in {m : MbaIn} (hm : (s.fn f.val).mbaIn = some m) (hp : s.rd (fnPlace f.val) mbaInPend ≠ 0) :
    exec (.mbxTimeoutExpiry (.inA f)) s = .next (((((s.till (m.at_ + s.mbaTmo f.val)).wr (fnPlace f.val) mbaInPend 0).wr (fnPlace f.val)
      mbaInTimeout 1).updFn f.val (fun x => { x with mbaIn := none })).mbaIrq f.val) := by
  rw [exec_mbxTimeoutExpiry, execMbxTimeoutExpiry]
  simp only [State.mbaExpire, hm, if_neg hp]

end

/-- Settles O12: each event by its guards, and what the channel's words read after it. -/
theorem classAMailboxes : Obligations.ClassAMailboxes := by
  unfold Obligations.ClassAMailboxes
  intro s f tee hs
  have hw := hs.regs
  refine ⟨fun h => ⟨congrArg Host.Outcome.next (if_pos h), congrArg Host.Outcome.next (if_pos h)⟩, fun hserved hp ht hd ho hr hup => ?_,
    fun m hup hm hp hnow => ?_, fun hup hcode => ?_, fun hcode => ?_, fun m r rs hcode hm hpf hn hrun => ?_, fun hcode hpf hfirst => ?_,
    fun m hm hp => ?_, fun msg hup hp hbm => ?_, fun hserved hp hq => ?_, fun m l hserved hp hq => ?_, fun hp hq => ?_⟩
  · obtain ⟨hpend, hseq⟩ := State.mbaSnap_rd (f := f.val) hw
    exact ⟨s.mbaSnap f.val, congrArg Host.Outcome.next ((if_neg (by simp [hserved])).trans (State.mbaGo_quiet hp ht hd ho hr hup)), hpend, hseq,
      congrArg Fn.mbaIn (State.fn_updFn_same (by exact hs.fns)), OnlyRegsFns.updFn (.wr (.wr .refl))⟩
  · obtain ⟨heq, hpend, htaken⟩ := State.mbaTake_inTime hw hm hp hnow
    refine ⟨s.mbaTake f.val, congrArg Host.Outcome.next (if_neg (by simp [hup])), hpend, htaken, ?_⟩
    rw [heq]
    rfl
  · have hend := State.mbaDone_ok (f := f.val) hw hs.fns (State.taken_of_mbaCode hcode)
    refine ⟨s.mbaDone f.val mrOk, ?_, hend.taken, hend.done, hend.result, hend.empty⟩
    simp [execMailboxDone, hup, hcode, State.mbaAct_ping hcode]
  · have hend := State.mbaDone_ok (f := f.val) hw hs.fns (State.taken_of_mbaCode hcode)
    exact ⟨s.mbaDone f.val mrOk, congrArg Host.Outcome.next (State.mbaFinish_of_code hcode (State.mbaAct_ping hcode)), hend.taken, hend.done,
      hend.result, hend.empty, State.units_cells hend.units, State.units_parts hend.units⟩
  · refine congrArg Host.Outcome.next (State.mbaFinish_of_code hcode ((State.mbaAct_bbRead hcode hm).trans ?_))
    simp only [State.mbaBbRead, hrun]
    rw [if_neg (not_not.2 hpf), if_neg hn]
  · obtain ⟨bs, hact⟩ := State.mbaAct_hostMark hcode hpf hfirst
    generalize hu : (s.updHub (fun h => { h with score := { h.score with markAt := some s.now } })).bb srcFw 0x0804 0 0xFFFF 31 0 bs = u at hact
    have hcanon : Canon u := hu ▸ (State.bb_keeps (State.updHub_keeps (.refl s) List.prefix_rfl List.prefix_rfl)).canon hs
    have htaken : u.rd (fnPlace f.val) mbaInTaken = s.rd (fnPlace f.val) mbaInTaken := by
      rw [← hu, State.bb_rd_fn (by decide), State.updHub_rd]
    have hmark : u.hub.score.markAt = some s.now := by rw [← hu, State.bb_score]; rfl
    have hunits : u.units = s.units := by rw [← hu, State.bb_units]; rfl
    have hend := State.mbaDone_ok (f := f.val) hcanon.regs hcanon.fns (htaken.trans_ne (State.taken_of_mbaCode hcode))
    exact ⟨u.mbaDone f.val mrOk, congrArg Host.Outcome.next (State.mbaFinish_of_code hcode hact), (by rw [hend.hub, hmark]), hend.done, hend.result,
      State.units_cells (hend.units.trans hunits)⟩
  · refine ⟨_, execMbxTimeoutExpiry_in hm hp, ?_, ?_, ?_, ?_, State.units_cells State.mbaIrq_units⟩
    · rw [State.mbaIrq_rd (by decide) (by decide), State.updFn_rd, State.rd_wr_apart (State.wr_wf (by exact hw)) (by decide) (by decide) (by decide),
        State.rd_wr_same (by exact hw) (by decide), Nat.zero_mod]
    · rw [State.mbaIrq_rd (by decide) (by decide), State.updFn_rd, State.rd_wr_same (State.wr_wf (by exact hw)) (by decide)]
      rfl
    · rw [State.fn_congr State.mbaIrq_fns, State.fn_updFn_same (by exact hs.fns)]
    · rw [State.mbaIrq_now]
      exact Nat.le_max_right _ _
  · obtain ⟨hpend, hwords⟩ := State.mbaSend_rd (msg := msg.take 16) hw hbm
    exact ⟨s.mbaSend f.val (msg.take 16), congrArg Host.Outcome.next ((if_pos hup).trans (if_pos hp)), hpend, State.mbaSend_outAt hs.fns hbm, hwords,
      State.units_cells State.mbaSend_units, State.mbaSend_hub⟩
  · have hfn := State.outOver_fn (e := .taken) (f := f.val) hs.fns
    exact ⟨s.outOver f.val .taken, (execMbaOutAck_pending hserved hp).trans (congrArg _ (State.mbaNext_none (by rw [hfn]; exact hq))),
      State.outOver_rd hw, congrArg Fn.outEnd hfn, OnlyRegsFns.updFn (.wr .refl)⟩
  · have hfn := State.outOver_fn (e := .taken) (f := f.val) hs.fns
    exact (execMbaOutAck_pending hserved hp).trans (congrArg _ (State.mbaNext_some (by rw [hfn]; exact hq)))
  · have hfn := State.outOver_fn (s := s.till ((s.fn f.val).outAt + s.mbaTmo f.val)) (e := .timeout) (f := f.val) hs.fns
    exact ⟨_, (execMbxTimeoutExpiry_out hp).trans (congrArg _ (State.mbaNext_none (by rw [hfn]; exact hq))), State.outOver_rd (by exact hw),
      congrArg Fn.outEnd hfn, Nat.le_max_right _ _, ⟨rfl, rfl, rfl⟩⟩

end Sys2Proof.Machine

/-! PROOFS. The family of the Ethernet port dies' commands: keys and connections (O47). -/

namespace Sys2Proof.Machine

variable {s : State}

/-! ### Registers written one after the other -/

/-- Fields of place `p` written in the order of a list. -/
def State.wrs (s : State) (p : Nat) (l : List (Fd × Nat)) : State := l.foldl (fun s x => s.wr p x.1 x.2) s

section
variable {p : Nat}

/-- Everything but registers is as before. -/
theorem State.wrs_only : ∀ (l : List (Fd × Nat)) (s : State), s.wrs p l = { s with regs := (s.wrs p l).regs }
  | [], _ => rfl
  | x :: l, s => State.wrs_only l (s.wr p x.1 x.2)

/-- Writes of fields that share no bit with a field leave it. -/
theorem State.rd_wrs_apart {g : Fd} (hg : g.ok = true) : ∀ (l : List (Fd × Nat)) (s : State), Table.wf 0 s.regs = true →
    (∀ x ∈ l, x.1.ok = true ∧ x.1.apart g = true) → (s.wrs p l).rd p g = s.rd p g
  | [], _, _, _ => rfl
  | x :: l, s, hw, h => by
    obtain ⟨hok, hap⟩ := h x List.mem_cons_self
    exact (State.rd_wrs_apart hg l (s.wr p x.1 x.2) (State.wr_wf hw) fun y hy => h y (List.mem_cons_of_mem _ hy)).trans
      (State.rd_wr_apart hw hok hg hap)

/-- Each of the fields written reads as its value where no later one shares a bit with it. -/
theorem State.rd_wrs_of_mem {x : Fd × Nat} {l : List (Fd × Nat)} (hw : Table.wf 0 s.regs = true) (hok : ∀ x ∈ l, x.1.ok = true)
    (hap : l.Pairwise (fun x y => y.1.apart x.1 = true)) (hx : x ∈ l) : (s.wrs p l).rd p x.1 = x.2 % 2 ^ (x.1.hi + 1 - x.1.lo) := by
  induction l generalizing s with
  | nil => exact absurd hx List.not_mem_nil
  | cons y l ih =>
    obtain ⟨hhead, htail⟩ := List.pairwise_cons.1 hap
    have hlater : ∀ z ∈ l, z.1.ok = true := fun z hz => hok z (List.mem_cons_of_mem _ hz)
    rcases List.mem_cons.1 hx with rfl | hx
    · exact (State.rd_wrs_apart (hok x List.mem_cons_self) l (s.wr p x.1 x.2) (State.wr_wf hw) fun z hz => ⟨hlater z hz, hhead z hz⟩).trans
        (State.rd_wr_same hw (hok x List.mem_cons_self))
    · exact ih (State.wr_wf hw) hlater htail hx

end

/-! ### The oldest command of a queue -/

section
variable {q p op : Nat} {c : BitVec 512} {r : List (BitVec 512)} {f : BitVec 512 → State → State}

/-- The oldest command of a partition's queue taken off it. -/
def State.cmdTaken (s : State) (q p : Nat) : State := s.updBlk q p (fun b => { b with cmdq := b.cmdq.drop 1 })

variable (heth : s.isEth q = true) (hun : (s.blk q p).unbinding = none) (hq : (s.blk q p).cmdq = c :: r)
include heth hun hq

theorem State.portHead_of_queue (h : fld c 7 0 = op ∨ fld c 7 0 = 0 ∨ 5 < fld c 7 0) : s.portHead q p op = some c := by
  simp only [State.portHead, heth, hun, hq, List.head?_cons, Option.bind_some, if_pos h]
  rfl

/-- A reserved opcode, or reserved bits, are BAD_PARAM (R431). -/
theorem State.portRun_reserved (h : fld c 7 0 = op ∨ fld c 7 0 = 0 ∨ 5 < fld c 7 0) (hbad : fld c 7 0 ≠ op ∨ pcReserved c = false) :
    s.portRun q p op f = (s.cmdTaken q p).portResult q p c prBadParam 0 := by
  rw [State.portRun, State.portHead_of_queue heth hun hq h]
  exact if_pos (hbad.imp_right fun h => by simp [h])

/-- A command whose unused bits are 0 runs (R431). -/
theorem State.portRun_runs (hop : fld c 7 0 = op) (hres : pcReserved c = true) : s.portRun q p op f = f c (s.cmdTaken q p) := by
  rw [State.portRun, State.portHead_of_queue heth hun hq (.inl hop)]
  exact if_neg (by simp [hop, hres])

end

/-! ### Keys -/

section
variable {k : Nat} (hk : k < 4096)
include hk

theorem tkOwner_ok : (tkOwner k).ok = true := Fd.ok_of (by decide) (by decide) (by omega)
theorem tkGen_ok : (tkGen k).ok = true := Fd.ok_of (by decide) (by decide) (by omega)
theorem tkBound_ok : (tkBound k).ok = true := Fd.ok_of (by decide) (by decide) (by omega)
theorem tkRights_ok : (tkRights k).ok = true := Fd.ok_of (by decide) (by decide) (by omega)
theorem tkLocal_ok : (tkLocal k).ok = true := Fd.ok_of (by decide) (by decide) (by omega)
theorem tkConn_ok : (tkConn k).ok = true := Fd.ok_of (by decide) (by decide) (by omega)
theorem tkCell_ok : (tkCell k).ok = true := Fd.ok_of (by decide) (by decide) (by omega)
theorem tkTag_ok : (Machine.tkTag k).ok = true := Fd.ok_of (by decide) (by decide) (by omega)
theorem tkPgaLo_ok : (tkPgaLo k).ok = true := Fd.ok_of (by decide) (by decide) (by omega)
theorem tkPgaHi_ok : (tkPgaHi k).ok = true := Fd.ok_of (by decide) (by decide) (by omega)
theorem tkLen64_ok : (tkLen64 k).ok = true := Fd.ok_of (by decide) (by decide) (by omega)
theorem tkInfl_ok : (tkInfl k).ok = true := Fd.ok_of (by decide) (by decide) (by omega)
theorem tkErr_ok : (tkErr k).ok = true := Fd.ok_of (by decide) (by decide) (by omega)

end

/-- What TK_BIND writes of key `k` (R422): its generation, and what the command `c` gives, of a window of cell `cell`. -/
def bindRegs (k gen : Nat) (cell : W16) (c : BitVec 512) : List (Fd × Nat) := [(tkGen k, gen), (tkBound k, 1), (tkRights k, fld c 197 195),
  (tkLocal k, fld c 198 198), (tkConn k, fld c 210 199), (tkCell k, cell.toNat), (Machine.tkTag k, (BitVec.ofNat 16 (fld c 226 211) : W16).toNat),
  (tkPgaLo k, fld c 163 108 % 2 ^ 32), (tkPgaHi k, fld c 163 108 / 2 ^ 32), (tkLen64 k, 64 * fld c 194 164 / 64), (tkInfl k, 0), (tkErr k, 0)]

section
variable {k gen : Nat} {cell : W16} {c : BitVec 512} (hk : k < 4096)
include hk

theorem bindRegs_ok : ∀ x ∈ bindRegs k gen cell c, x.1.ok = true := by
  simp only [bindRegs, List.forall_mem_cons, List.not_mem_nil, IsEmpty.forall_iff, implies_true, and_true]
  exact ⟨tkGen_ok hk, tkBound_ok hk, tkRights_ok hk, tkLocal_ok hk, tkConn_ok hk, tkCell_ok hk, tkTag_ok hk, tkPgaLo_ok hk, tkPgaHi_ok hk,
    tkLen64_ok hk, tkInfl_ok hk, tkErr_ok hk⟩

omit hk in
theorem bindRegs_apart : (bindRegs k gen cell c).Pairwise (fun x y => y.1.apart x.1 = true) := by
  simp [bindRegs, Fd.apart, tkGen, tkBound, tkRights, tkLocal, tkConn, tkCell, Machine.tkTag, tkPgaLo, tkPgaHi, tkLen64, tkInfl, tkErr]

omit hk in
/-- The binding leaves the owner. -/
theorem bindRegs_owner : ∀ x ∈ bindRegs k gen cell c, x.1.apart (tkOwner k) = true := by
  simp [bindRegs, Fd.apart, tkOwner, tkGen, tkBound, tkRights, tkLocal, tkConn, tkCell, Machine.tkTag, tkPgaLo, tkPgaHi, tkLen64, tkInfl, tkErr]

/-- The entry of a key just bound (R422, R423). -/
theorem State.bindRegs_rd (hw : Table.wf 0 s.regs = true) (hgen : gen < 256) : let w := s.wrs tkPlace (bindRegs k gen cell c)
    w.rd tkPlace (tkBound k) = 1 ∧ w.rd tkPlace (tkGen k) = gen ∧ w.rd tkPlace (tkRights k) = fld c 197 195
      ∧ w.rd tkPlace (tkOwner k) = s.rd tkPlace (tkOwner k) ∧ w.rd tkPlace (Machine.tkTag k) = fld c 226 211 ∧ w.tkPga k = fld c 163 108
      ∧ w.tkLen k = 64 * fld c 194 164 ∧ w.rd tkPlace (tkInfl k) = 0 := by
  intro w
  have hfit : ∀ (g : Fd) (v : Nat), (g, v) ∈ bindRegs k gen cell c → v < 2 ^ (g.hi + 1 - g.lo) → w.rd tkPlace g = v := fun g v hx hlt =>
    (State.rd_wrs_of_mem (x := (g, v)) hw (bindRegs_ok hk) (bindRegs_apart) hx).trans (Nat.mod_eq_of_lt hlt)
  have howner : w.rd tkPlace (tkOwner k) = s.rd tkPlace (tkOwner k) := State.rd_wrs_apart (tkOwner_ok hk) _ s hw fun x hx =>
    ⟨bindRegs_ok hk x hx, bindRegs_owner x hx⟩
  clear_value w
  have ha : fld c 163 108 < 2 ^ 56 := fld_lt c
  have htag : (BitVec.ofNat 16 (fld c 226 211)).toNat = fld c 226 211 := Nat.mod_eq_of_lt (fld_lt c)
  refine ⟨hfit (tkBound k) 1 (by simp [bindRegs]) (by simp [tkBound]), hfit (tkGen k) gen (by simp [bindRegs]) (by simpa [tkGen] using hgen),
    hfit (tkRights k) _ (by simp [bindRegs]) (fld_lt c), howner, hfit (Machine.tkTag k) _ (by simp [bindRegs, htag]) (fld_lt c), ?_, ?_,
    hfit (tkInfl k) 0 (by simp [bindRegs]) (Nat.two_pow_pos _)⟩
  · have hlo : w.rd tkPlace (tkPgaLo k) = fld c 163 108 % 2 ^ 32 := hfit _ _ (by simp [bindRegs]) (Nat.mod_lt _ (Nat.two_pow_pos _))
    have hhi : w.rd tkPlace (tkPgaHi k) = fld c 163 108 / 2 ^ 32 := hfit _ _ (by simp [bindRegs]) (by simp only [tkPgaHi]; omega)
    rw [State.tkPga, hlo, hhi]
    exact Nat.mod_add_div' _ _
  · have hlen : w.rd tkPlace (tkLen64 k) = fld c 194 164 := hfit _ _ (by simp [bindRegs]) (fld_lt c)
    rw [State.tkLen, hlen]

end

section
variable {q p : Nat} {c : BitVec 512}

/-- A binding that is free and matches its window fills the entry (R423). -/
theorem State.tkBind_ok {t : Tgt} {off : Nat} (ha : fld c 163 108 % 64 = 0) (hlen : fld c 194 164 ≠ 0) (hown : s.rd tkPlace (tkOwner (fld c 107 96)) = p)
    (hfree : s.rd tkPlace (tkBound (fld c 107 96)) = 0)
    (hd : decodePga (BitVec.ofNat 56 (fld c 163 108)) (64 * fld c 194 164) (s.partStacks p).length = some (.direct t off)) (hseg : segReg t = false)
    (hwin : s.bindWindow p t (BitVec.ofNat 16 (fld c 226 211)) (fld c 107 96) off (64 * fld c 194 164) (fld c 197 195) = true) :
    ∃ cell, s.tkBind q p c = (s.wrs tkPlace (bindRegs (fld c 107 96) (nextGen (BitVec.ofNat 8 (s.rd tkPlace (tkGen (fld c 107 96))))).toNat
      cell c)).portResult q p c prOk (fld c 107 96 + (nextGen (BitVec.ofNat 8 (s.rd tkPlace (tkGen (fld c 107 96))))).toNat * 2 ^ 12) := by
  have hlen' : ¬64 * fld c 194 164 = 0 := by omega
  simp only [State.tkBind, ha, hlen', hown, hfree, hd, hseg, hwin, ne_eq, not_true_eq_false, or_self, if_false, Bool.false_eq_true, Bool.not_true,
    zero_ne_one]
  exact ⟨_, rfl⟩

end

/-! ### Connections -/

/-- A field of one bit is 1 where the bit is set. -/
theorem fld_one_iff {n : Nat} (w : BitVec n) (i : Nat) : fld w i i = 1 ↔ bit w i = true := by
  simp [fld, bit, BitVec.getLsbD, Nat.testBit]

/-- The registers of the connection entry `i` that CONN_OPEN `c` fills for partition `p` (R425, R426). -/
def connRegs (p i : Nat) (c : BitVec 512) : List (Fd × Nat) := [(cnState i, if fld c 108 108 = 1 then 1 else 2), (cnUet i, fld c 108 108), (cnPart i, p),
  (cnPorts i, fld c 116 109), (cnEpoch i, 0), (cnErrwhy i, 0), (cnRcode i, 0), (cnTxctrLo i, 0), (cnTxctrHi i, 0), (cnWrOutst i, 0)]

section
variable {q p i : Nat} {c : BitVec 512}

theorem connRegs_ok (hi : i < 4096) : ∀ x ∈ connRegs p i c, x.1.ok = true := by
  have hfd : ∀ o hi lo, o ≤ 0x3C → lo ≤ hi → hi < 32 → Fd.ok ⟨0x300000 + o + 0x40 * i, hi, lo⟩ = true :=
    fun o hi lo ho hlo hhi => Fd.ok_of hlo hhi (by omega)
  simp only [connRegs, List.forall_mem_cons, List.not_mem_nil, IsEmpty.forall_iff, implies_true, and_true]
  exact ⟨hfd 0 2 0 (by omega) (by omega) (by omega), hfd 0 3 3 (by omega) (by omega) (by omega), hfd 0 8 4 (by omega) (by omega) (by omega),
    hfd 0 16 9 (by omega) (by omega) (by omega), hfd 0 20 17 (by omega) (by omega) (by omega), hfd 4 3 0 (by omega) (by omega) (by omega),
    hfd 4 7 4 (by omega) (by omega) (by omega), hfd 8 31 0 (by omega) (by omega) (by omega), hfd 12 31 0 (by omega) (by omega) (by omega),
    hfd 24 24 16 (by omega) (by omega) (by omega)⟩

theorem connRegs_apart : (connRegs p i c).Pairwise (fun x y => y.1.apart x.1 = true) := by
  simp [connRegs, Fd.apart, cnState, cnUet, cnPart, cnPorts, cnEpoch, cnErrwhy, cnRcode, cnTxctrLo, cnTxctrHi, cnWrOutst]

theorem State.connEntry_regs : (s.connEntry q p i c).regs = (s.wrs (265 + q) (connRegs p i c)).regs := rfl

/-- The entry that CONN_OPEN leaves (R425, R427). -/
theorem State.connEntry_rd (hw : Table.wf 0 s.regs = true) (hi : i < 4096) (hp : p < 32) : let w := s.connEntry q p i c
    w.rd (265 + q) (cnState i) = (if bit c 108 then 1 else 2) ∧ w.rd (265 + q) (cnPart i) = p
      ∧ w.rd (265 + q) (cnPorts i) = fld c 116 109 := by
  intro w
  have hfit : ∀ (g : Fd) (v : Nat), (g, v) ∈ connRegs p i c → v < 2 ^ (g.hi + 1 - g.lo) → w.rd (265 + q) g = v := fun g v hx hlt =>
    (State.rd_congr State.connEntry_regs _ g).trans
      ((State.rd_wrs_of_mem (x := (g, v)) hw (connRegs_ok hi) connRegs_apart hx).trans (Nat.mod_eq_of_lt hlt))
  exact ⟨hfit (cnState i) _ (by simp [connRegs, fld_one_iff]) (by simp only [cnState]; split <;> omega),
    hfit (cnPart i) p (by simp [connRegs]) (by simpa [cnPart] using hp), hfit (cnPorts i) _ (by simp [connRegs]) (fld_lt c)⟩

end

section
variable {q p i : Nat} {c : BitVec 512}

/-- A CONN_OPEN whose parameters are good: of an index in use, of a free one with a used nonce, and one that is taken (R425, R431). -/
theorem State.connOpenCmd_good (hmtu : fld c 409 408 ≠ 3) (huet : bit c 108 = true → fld c 409 408 = 2)
    (hports : bitsOf (BitVec.ofNat 8 (fld c 116 109)) 8 ≠ []) (hone : bit c 108 = false → (bitsOf (BitVec.ofNat 8 (fld c 116 109)) 8).length = 1) :
    s.connOpenCmd q p c = if s.rd (265 + q) (cnState (fld c 107 96)) ≠ 0 then s.portResult q p c prConnBusy 0
      else if (bitsOf (BitVec.ofNat 8 (fld c 116 109)) 8).all (fun j => !s.portOn q j) then s.portResult q p c prNoPort 0
      else if (s.conn q (fld c 107 96)).nonces.contains (BitVec.ofNat 64 (fld c 255 192)) then s.portResult q p c prNonceReused 0
      else (s.connEntry q p (fld c 107 96) c).portResult q p c prOk (portCode q * 2 ^ 20 + fld c 107 96) := by
  refine if_neg ?_
  rintro (h | ⟨h, hm⟩ | h | ⟨h, hl⟩)
  · exact hmtu h
  · exact hm (huet h)
  · exact hports h
  · exact hl (hone (by simpa using h))

end

/-- Settles O47: a command that is malformed never runs; what each of the five does once it runs is its own function, and the entries that
TK_BIND and CONN_OPEN leave are read off the list of registers that each writes. -/
theorem keyAndConnectionCommands : Obligations.KeyAndConnectionCommands := by
  unfold Obligations.KeyAndConnectionCommands
  intro s u q p c r hs heth hun hq hu
  replace hu : u = s.cmdTaken q.val p.val := hu
  have hw : Table.wf 0 u.regs = true := hu ▸ hs.regs
  have hk : fld c 107 96 < 4096 := fld_lt c
  have hreserved : ∀ {op : Nat} {f}, (fld c 7 0 = op ∨ fld c 7 0 = 0 ∨ 5 < fld c 7 0) → (fld c 7 0 ≠ op ∨ pcReserved c = false) →
      s.portRun q.val p.val op f = u.portResult q.val p.val c prBadParam 0 := fun h hbad => hu ▸ State.portRun_reserved heth hun hq h hbad
  have hruns : ∀ {op : Nat} {f}, fld c 7 0 = op → pcReserved c = true → s.portRun q.val p.val op f = f c u :=
    fun hop hres => hu ▸ State.portRun_runs heth hun hq hop hres
  clear hu
  refine ⟨?_, ?_, ?_, ?_, ?_, ?_, ?_⟩
  · intro x hx hop
    have hne : ∀ op, 1 ≤ op → op ≤ 5 → fld c 7 0 ≠ op := fun op h1 h5 => by omega
    simp only [List.mem_cons, List.not_mem_nil, or_false] at hx
    rcases hx with rfl | rfl | rfl | rfl | rfl
    · exact congrArg Host.Outcome.next (hreserved (.inr hop) (.inl (hne 1 (by omega) (by omega))))
    · exact congrArg Host.Outcome.next (hreserved (.inr hop) (.inl (hne 2 (by omega) (by omega))))
    · exact congrArg Host.Outcome.next (hreserved (.inr hop) (.inl (hne 3 (by omega) (by omega))))
    · exact congrArg Host.Outcome.next (hreserved (.inr hop) (.inl (hne 4 (by omega) (by omega))))
    · exact congrArg Host.Outcome.next (hreserved (.inr hop) (.inl (hne 5 (by omega) (by omega))))
  · intro x hx hop hres
    simp only [List.mem_cons, List.not_mem_nil, or_false] at hx
    rcases hx with rfl | rfl | rfl | rfl | rfl <;> exact congrArg Host.Outcome.next (hreserved (.inl hop) (.inr hres))
  · rintro hres hop k a rfl rfl ha hlen
    have hlen' : ¬64 * fld c 194 164 = 0 := by omega
    refine ⟨fun hown => ?_, fun hown hbound => ?_, fun t off hown hfree hd hseg => ⟨fun hwin => ?_, fun hwin => ?_⟩⟩
    · refine congrArg Host.Outcome.next ((hruns hop hres).trans ?_)
      simp only [State.tkBind, ha, hlen', hown, ne_eq, not_true_eq_false, not_false_eq_true, or_self, if_true, if_false]
    · refine congrArg Host.Outcome.next ((hruns hop hres).trans ?_)
      simp only [State.tkBind, ha, hlen', hown, hbound, ne_eq, not_true_eq_false, or_self, if_true, if_false]
    · refine congrArg Host.Outcome.next ((hruns hop hres).trans ?_)
      simp only [State.tkBind, ha, hlen', hown, hfree, hd, hseg, hwin, ne_eq, not_true_eq_false, or_self, if_true, if_false, Bool.false_eq_true,
        Bool.not_false, zero_ne_one]
    · obtain ⟨cell, hbind⟩ := State.tkBind_ok ha hlen hown hfree hd hseg hwin
      obtain ⟨hb, hg, hr, ho, ht, hp, hl, hi⟩ := State.bindRegs_rd (c := c) (cell := cell) hk hw
        (nextGen (BitVec.ofNat 8 (u.rd tkPlace (tkGen (fld c 107 96))))).isLt
      exact ⟨_, congrArg Host.Outcome.next ((hruns hop hres).trans hbind), State.wrs_only _ u, hb, hg, hr, ho.trans hown, ht, hp, hl, hi⟩
  · intro hres hop hown hlive
    refine congrArg Host.Outcome.next ((hruns hop hres).trans ?_)
    simp only [hown, hlive, ne_eq, not_true_eq_false, if_false, Bool.not_true, Bool.false_eq_true]
  · intro v d hd hinfl
    refine congrArg Host.Outcome.next ?_
    simp only [hd, hinfl, ne_eq, not_true_eq_false, if_false]
  · rintro i rfl hres hop hmtu huet hports hone
    have hopen := State.connOpenCmd_good (s := u) (q := q.val) (p := p.val) hmtu huet hports hone
    refine ⟨fun hbusy => ?_, fun hfree ⟨j, hj, hon⟩ => ⟨fun hnonce => ?_, fun hnonce => ?_⟩⟩
    · exact congrArg Host.Outcome.next ((hruns hop hres).trans (hopen.trans (if_pos hbusy)))
    all_goals
      have hany : ¬((bitsOf (BitVec.ofNat 8 (fld c 116 109)) 8).all (fun j => !u.portOn q.val j) = true) :=
        fun h => by simpa [hon] using List.all_eq_true.1 h j hj
      rw [if_neg (by simpa using hfree), if_neg hany] at hopen
    · exact congrArg Host.Outcome.next ((hruns hop hres).trans (hopen.trans (if_pos hnonce)))
    · exact ⟨congrArg Host.Outcome.next ((hruns hop hres).trans (hopen.trans (if_neg (by rw [hnonce]; exact Bool.false_ne_true)))),
        State.connEntry_rd hw hk (by omega)⟩
  · rintro i rfl hres
    refine ⟨fun hown => ⟨fun hop => ?_, fun hop => ?_⟩, fun hown => ⟨fun hop => ?_, fun hop => ?_⟩⟩
    · exact congrArg Host.Outcome.next ((hruns hop hres).trans (if_pos hown))
    · exact congrArg Host.Outcome.next ((hruns hop hres).trans (if_pos hown))
    · exact congrArg Host.Outcome.next ((hruns hop hres).trans (if_neg (by simpa using hown)))
    · exact congrArg Host.Outcome.next ((hruns hop hres).trans (if_neg (by simpa using hown)))

end Sys2Proof.Machine

/-! PROOFS. Work requests, frames, timeouts and the ports of an Ethernet port die (O48). -/

namespace Sys2Proof.Machine

variable {s : State}

/-! ### Counters -/

section
variable {p : Nat} {f g : Fd}

theorem State.rd_lt : s.rd p f < 2 ^ (f.hi + 1 - f.lo) := fld_lt _

/-- A saturating counter counts, up to its width. -/
theorem State.rd_sat (hw : Table.wf 0 s.regs = true) (hf : f.ok = true) :
    (s.sat p f).rd p f = min (2 ^ (f.hi + 1 - f.lo) - 1) (s.rd p f + 1) := by
  have hlt : s.rd p f < 2 ^ (f.hi + 1 - f.lo) := State.rd_lt
  unfold State.sat
  split
  next h => rw [State.rd_wr_same hw hf, Nat.mod_eq_of_lt h]; omega
  next h => omega

theorem State.rd_sat_apart (hw : Table.wf 0 s.regs = true) (hf : f.ok = true) (hg : g.ok = true) (h : f.apart g = true) :
    (s.sat p f).rd p g = s.rd p g := by
  unfold State.sat
  split
  · exact State.rd_wr_apart hw hf hg h
  · rfl

/-- A counter changes registers alone. -/
theorem State.sat_only : s.sat p f = { s with regs := (s.sat p f).regs } := by
  unfold State.sat
  split <;> rfl

end

/-! ### Work requests -/

section
variable {q p o : Nat} {w : BitVec 512} {r : List (BitVec 512)}

theorem State.updPort_ports_wf {f : Port → Port} (hw : Table.wf {} s.ports = true) : Table.wf {} (s.updPort q f).ports = true := Table.upd_wf hw q f

/-- A work request waits while its partition molts or the connection is full (R424, R432). -/
theorem State.wrNext_waits (hq : (s.blk q p).wrq = w :: r) (h : s.moltPaused p = true ∨ 256 ≤ s.rd (265 + q) (cnWrOutst (wrConn w))) :
    s.wrNext q p o = s := by
  unfold State.wrNext
  rw [hq]
  refine if_pos ?_
  rcases h with h | h <;> simp [h]

/-- Else it is taken, by the instruction of its operation or, where that is reserved, by any. -/
theorem State.wrNext_takes (heth : s.isEth q = true) (hq : (s.blk q p).wrq = w :: r) (hmolt : s.moltPaused p = false)
    (hroom : s.rd (265 + q) (cnWrOutst (wrConn w)) < 256) (ho : wrOp w = o ∨ wrOp w = 0 ∨ 5 < wrOp w) :
    s.wrNext q p o = (s.updBlk q p (fun b => { b with wrq := b.wrq.drop 1 })).wrTake q p w none := by
  unfold State.wrNext
  rw [hq]
  refine if_neg ?_
  rcases ho with ho | ho | ho <;> simp [heth, hmolt, ho, Nat.not_le.2 hroom]

/-- The status of the newest work request, whose name no other has. -/
theorem State.wrEnd_newest {l : List WorkReq} {x : WorkReq} {st : Nat} {code : BitVec 4} (hw : Table.wf {} s.ports = true)
    (hwrs : (s.port q).wrs = l ++ [x]) (hfate : x.fate = none) (hid : ∀ r ∈ l, r.id ≠ x.id) :
    ((s.wrEnd q x.id st code).port q).wrs = l ++ [{ x with fate := some (st, code) }] := by
  have hold : l.map (fun r => if r.id = x.id then (if r.fate.isSome then r else { r with fate := some (st, code) }) else r) = l :=
    (List.map_congr_left fun r hr => if_neg (hid r hr)).trans (List.map_id' l)
  rw [State.wrEnd, State.updWr, State.port_updPort_same hw]
  simp only [hwrs, List.map_append, hold, List.map_cons, List.map_nil, if_true, hfate, Option.isSome_none, Bool.false_eq_true, if_false]

/-- A reserved operation ends BAD_REQUEST as it is taken (R433). -/
theorem State.wrTake_bad (hw : Table.wf {} s.ports = true) (hop : wrOp w = 0 ∨ 5 < wrOp w) (hid : ∀ r ∈ (s.port q).wrs, r.id ≠ (s.port q).next) :
    ((s.wrTake q p w none).port q).wrs = (s.port q).wrs ++ [{ id := (s.port q).next, part := p, w := w, fate := some (5, 0) }] := by
  have hbad : ¬(1 ≤ wrOp w ∧ wrOp w ≤ 5) := by omega
  have hend : s.wrTake q p w none = ((s.updPort q (fun x => { x with
      wrs := x.wrs ++ [{ id := (s.port q).next, part := p, w := w }], next := x.next + 1 })).sat (265 + q) (cnWrOutst (wrConn w))).wrEnd q (s.port q).next 5 0 :=
    if_pos (by simp [hbad])
  rw [hend]
  refine State.wrEnd_newest (x := { id := (s.port q).next, part := p, w := w }) ?_ ?_ rfl hid
  · rw [State.sat_ports]
    exact State.updPort_ports_wf hw
  · rw [State.port, State.sat_ports]
    exact congrArg Port.wrs (State.port_updPort_same hw)

end

/-! ### Frames -/

section
variable {q j : Nat} {f : Frame}

theorem ptRxFcs_ok (hj : j < 8) : (ptRxFcs j).ok = true := Fd.ok_of (by decide) (by decide) (by omega)
theorem ptFecCorr_ok (hj : j < 8) : (ptFecCorr j).ok = true := Fd.ok_of (by decide) (by decide) (by omega)
theorem ptState_ok (hj : j < 8) : (ptState j).ok = true := Fd.ok_of (by decide) (by decide) (by omega)

/-- A frame on a port that is not UP is not received. -/
theorem State.frameRx_down (h : s.portUp q j = false) : s.frameRx q j f = s := if_pos (by simp [h])

/-- A frame whose FCS is wrong. -/
theorem State.frameRx_badFcs (hup : s.portUp q j = true) (hk : f.kind = .badFcs) :
    s.frameRx q j f = (s.fecCount (265 + q) j f.corrected).sat (265 + q) (ptRxFcs j) := by
  simp [State.frameRx, hup, hk]

/-- What a frame with a bad FCS changes: two counters (R421). -/
theorem State.badFcs_counts {n : Nat} (hw : Table.wf 0 s.regs = true) (hj : j < 8) :
    let t := (s.fecCount (265 + q) j n).sat (265 + q) (ptRxFcs j)
    t.rd (265 + q) (ptRxFcs j) = min (2 ^ 32 - 1) (s.rd (265 + q) (ptRxFcs j) + 1)
      ∧ t.rd (265 + q) (ptFecCorr j) = min (2 ^ 32 - 1) (s.rd (265 + q) (ptFecCorr j) + n) ∧ t = { s with regs := t.regs } := by
  have hw' : Table.wf 0 (s.fecCount (265 + q) j n).regs = true := State.wr_wf hw
  have happ : (ptFecCorr j).apart (ptRxFcs j) = true := by simp [Fd.apart, ptFecCorr, ptRxFcs]
  have happ' : (ptRxFcs j).apart (ptFecCorr j) = true := by simp [Fd.apart, ptFecCorr, ptRxFcs]
  refine ⟨?_, ?_, State.sat_only⟩
  · rw [State.rd_sat hw' (ptRxFcs_ok hj), State.fecCount, State.rd_wr_apart hw (ptFecCorr_ok hj) (ptRxFcs_ok hj) happ]
    rfl
  · rw [State.rd_sat_apart hw' (ptRxFcs_ok hj) (ptFecCorr_ok hj) happ', State.fecCount, State.rd_wr_same hw (ptFecCorr_ok hj)]
    exact Nat.mod_eq_of_lt (Nat.lt_of_le_of_lt (Nat.min_le_left _ _) (by simp [ptFecCorr]))

/-- A frame whose codewords and FCS are good, by what MACsec says of it (R421). -/
theorem State.frameRx_refused (hup : s.portUp q j = true) (hcw : f.kind ≠ .badCodeword) (hfcs : f.kind ≠ .badFcs)
    (hsec : (s.fecCount (265 + q) j f.corrected).macsecRx q j f = none) :
    s.frameRx q j f = (s.fecCount (265 + q) j f.corrected).sat (265 + q) (ptMacsecDrop j) := by
  simp [State.frameRx, hup, hcw, hfcs, hsec]

theorem State.frameRx_notMine {v : State} (hup : s.portUp q j = true) (hcw : f.kind ≠ .badCodeword) (hfcs : f.kind ≠ .badFcs)
    (hsec : (s.fecCount (265 + q) j f.corrected).macsecRx q j f = some v) (hmine : v.frameMine q j f = false) :
    s.frameRx q j f = v.sat (265 + q) (ptRxNoclass j) := by
  simp [State.frameRx, hup, hcw, hfcs, hsec, hmine]

/-- Without MACsec: a frame that is too long, of a kind that no port takes, or tagged (R419, R421). -/
theorem State.frameMine_plain (hoff : s.rd (265 + q) (ptMacsec j) = 0) (h : s.rd (265 + q) (ptMtu j) < f.len ∨ f.kind = .noClass ∨ f.sec ≠ none) :
    s.frameMine q j f = false := by
  refine Bool.eq_false_iff.2 fun hmine => ?_
  obtain ⟨hfit, hkind⟩ := Bool.and_eq_true_iff.1 hmine
  obtain ⟨hlen, hsec⟩ := Bool.and_eq_true_iff.1 hfit
  rcases h with h | h | h
  · exact absurd (of_decide_eq_true hlen) (Nat.not_le.2 h)
  · rw [h] at hkind
    exact Bool.false_ne_true hkind
  · rcases Bool.or_eq_true_iff.1 hsec with hsec | hsec
    · exact h (Option.isNone_iff_eq_none.1 hsec)
    · exact absurd (of_decide_eq_true hsec) (by simp [hoff])

end

/-! ### Connections and ports -/

section
variable {q c : Nat} {f : Conn → Conn}

/-- A connection that changes to one that is not as after reset. -/
theorem State.conn_updConn (hw : Table.wf {} s.ports = true) (h : f (s.conn q c) ≠ {}) : (s.updConn q c f).conn q c = f (s.conn q c) := by
  rw [State.conn, State.updConn, State.port_updPort_same hw]
  exact Table.get_put_val h c _

end

section
variable {q : Fin 4} {c : Fin 4096}

/-- A rate rises by a twentieth of the line, to the line at most (R434). -/
theorem cnpRateIncrease_rises {j : Nat} {l : List Nat} (hw : Table.wf {} s.ports = true)
    (hports : bitsOf (BitVec.ofNat 8 (s.rd (265 + q.val) (cnPorts c.val))) 8 = j :: l) (hrate : (s.conn q.val c.val).rate ≠ 0)
    (huet : s.connUet q.val c.val = false) (hopen : s.connOpen q.val c.val = true) :
    Runs (.cnpRateIncrease q c) s (fun t => t.now = max s.now ((s.conn q.val c.val).cnpAt + 55000)
      ∧ (t.conn q.val c.val).rate = (if modeRate (s.portMode q.val j) ≤ (s.conn q.val c.val).rate + modeRate (s.portMode q.val j) / 20 then 0
        else (s.conn q.val c.val).rate + modeRate (s.portMode q.val j) / 20) ∧ t = { s with now := t.now, ports := t.ports }) := by
  have hrun : ¬((s.conn q.val c.val).rate = 0 ∨ s.connUet q.val c.val = true ∨ (!s.connOpen q.val c.val) = true) := by simp [hrate, huet, hopen]
  refine ⟨_, congrArg Host.Outcome.next (if_neg hrun), rfl, ?_, rfl⟩
  rw [State.conn_updConn (s := s.till _) hw]
  · simp only [hports, List.map_cons, List.headD_cons]
    rfl
  · intro h
    have hat := congrArg Conn.cnpAt h
    simp at hat

end

section
variable {q j st : Nat}

/-- The state of a port as set (R417, R418). -/
theorem State.setPort_rd (hw : Table.wf 0 s.regs = true) (hj : j < 8) (hst : st < 8) : (s.setPort q j st).rd (265 + q) (ptState j) = st := by
  have hflap : Table.wf 0 (if s.portUp q j = true ∧ st ≠ 2 then s.sat (265 + q) (ptFlaps j) else s).regs = true := by
    split
    · exact State.sat_wf hw
    · exact hw
  have happ : ethPortsUp.apart (ptState j) = true := by
    have hoff : ethPortsUp.off ≠ (ptState j).off := by
      simp only [ethPortsUp, ptState]
      omega
    simp [Fd.apart, hoff]
  unfold State.setPort
  rw [State.rd_wr_apart (State.wr_wf hflap) (by decide) (ptState_ok hj) happ, State.rd_wr_same hflap (ptState_ok hj)]
  exact Nat.mod_eq_of_lt hst

end

/-- Settles O48: each rule is the branch of its own function that the hypotheses pick; the counters of a bad FCS, the rate and the state of
a trained port are read off what was written. -/
theorem workRequestsAndEthernetEvents : Obligations.WorkRequestsAndEthernetEvents := by
  unfold Obligations.WorkRequestsAndEthernetEvents
  intro s q hs
  have hnext : ∀ {a b : State}, a = b → (Host.Outcome.next a : Result) = .next b := fun h => congrArg _ h
  refine ⟨?_, ?_, ?_, ?_, ?_, ?_, ?_, ?_, ?_, ?_, ?_, ?_, ?_⟩
  · intro p w r heth hq
    refine ⟨fun x hx _ hwait => ?_, ?_⟩
    · simp only [List.mem_cons, List.not_mem_nil, or_false] at hx
      rcases hx with rfl | rfl | rfl | rfl | rfl <;> exact hnext (State.wrNext_waits hq hwait)
    · rintro _ rfl hmolt hroom
      exact ⟨fun ho => hnext (State.wrNext_takes heth hq hmolt hroom ho), fun ho => hnext (State.wrNext_takes heth hq hmolt hroom ho),
        fun ho => hnext (State.wrNext_takes heth hq hmolt hroom ho), fun ho => hnext (State.wrNext_takes heth hq hmolt hroom ho),
        fun ho => hnext (State.wrNext_takes heth hq hmolt hroom ho)⟩
  · exact fun p w hop hid => State.wrTake_bad hs.ports hop hid
  · intro i r st code hr hfate hclx horder
    refine hnext ?_
    have hgo : ¬(r.clx.isSome = true ∨ ((!s.connUet q.val (wrConn r.w)) = true
        ∧ ((s.port q.val).wrs.take i).any (fun e => wrConn e.w == wrConn r.w && e.clx.isNone) = true)) := by
      rintro (h | ⟨huet, hany⟩)
      · simp [hclx] at h
      · obtain ⟨e, he, hc⟩ := List.any_eq_true.1 hany
        simp only [Bool.and_eq_true, beq_iff_eq, Option.isNone_iff_eq_none] at hc
        exact horder (by simpa using huet) e he hc.1 hc.2
    simp only [hr, hfate]
    exact if_neg hgo
  · intro j f hdown
    refine hnext ?_
    split
    · exact State.frameRx_down hdown
    · rfl
  · intro j f heth hup
    have hrx : exec (.ethFrameRx q j f) s = .next (s.frameRx q.val j.val f) := hnext (if_pos heth)
    refine ⟨fun hk => ?_, ?_⟩
    · exact ⟨_, hrx.trans (hnext (State.frameRx_badFcs hup hk)), State.badFcs_counts hs.regs j.isLt⟩
    · rintro u v rfl hcw hfcs
      refine ⟨fun hsec => hrx.trans (hnext (State.frameRx_refused hup hcw hfcs hsec)),
        fun hsec hmine => hrx.trans (hnext (State.frameRx_notMine hup hcw hfcs hsec hmine)), fun hsec hmine => ⟨?_, ?_, ?_⟩⟩
      · exact fun a hk => hrx.trans (hnext (by simp [State.frameRx, hup, hk, hsec, hmine]))
      · exact fun a hk => hrx.trans (hnext (by simp [State.frameRx, hup, hk, hsec, hmine]))
      · exact fun dst src c hdr psn ecn b hk => hrx.trans (hnext (by simp [State.frameRx, hup, hk, hsec, hmine]))
  · intro j f g hon
    refine ⟨fun hsec => ?_, fun hsec hbad => ?_⟩
    · simp [State.macsecRx, hon, hsec]
    · rcases hbad with hbad | hbad <;> simp [State.macsecRx, hon, hsec, hbad]
  · exact fun j f hoff => ⟨if_pos hoff, State.frameMine_plain hoff⟩
  · intro c x r hun huet hopen hpaused
    refine ⟨hnext ?_, fun hover => ?_⟩
    · simp [hun, huet, hopen, hpaused]
    · simp [State.retryAll, hun, hover]
  · rintro c x n hx huet hopen hpaused u rfl
    refine ⟨fun hover => hnext ?_, fun hmore => hnext ?_⟩
    · simp [hx, huet, hopen, hpaused, hover]
    · simp [hx, huet, hopen, hpaused, Nat.not_le.2 hmore]
  · exact fun c j l hports hrate huet hopen => cnpRateIncrease_rises hs.ports hports hrate huet hopen
  · intro j ok heth hon hst
    have hrun : ¬(!s.isEth q.val || !s.portOn q.val j.val || (s.rd (265 + q.val) (ptState j.val) != 1 && s.rd (265 + q.val) (ptState j.val) != 3)) = true := by
      rcases hst with h | h <;> simp [heth, hon, h]
    refine ⟨fun hbad => hnext ?_, fun hgood hok => ⟨hnext ?_, State.setPort_rd hs.regs j.isLt (by decide)⟩⟩
    · have hfail : ((modeLanes (s.portMode q.val j.val) (j.val % 2)).any (fun l => (s.rd (265 + q.val) (qBadlane (j.val / 2))).testBit l)
          || !ok) = true := by
        rcases hbad with ⟨l, hl, hbit⟩ | hok
        · simp [List.any_eq_true.2 ⟨l, hl, hbit⟩]
        · simp [hok]
      exact (if_neg hrun).trans (if_pos hfail)
    · have hfine : ¬((modeLanes (s.portMode q.val j.val) (j.val % 2)).any (fun l => (s.rd (265 + q.val) (qBadlane (j.val / 2))).testBit l)
          || !ok) = true := by
        rw [List.any_eq_false.2 fun l hl => by simp [hgood l hl]]
        simp [hok]
      exact (if_neg hrun).trans (if_neg hfine)
  · intro j hup
    refine hnext ((if_pos hup).trans (if_neg ?_))
    simp [hup]
  · exact fun k heth => hnext (if_pos heth)

end Sys2Proof.Machine

/-! PROOFS. Groups, collectives, streams and endpoints of the collective engine (O49, O50). -/

namespace Sys2Proof.Machine

variable {s : State}

/-! ### The collective queue -/

section
variable {q p : Nat} {c : BitVec 512} {r : List (BitVec 512)} {ok : BitVec 512 → Bool} {f : BitVec 512 → State → State}

/-- The oldest command runs where none other of its partition does (R443). -/
theorem State.clxHead_of_queue (hok : ok c = true) (hq : (s.blk q p).clxq = c :: r) (heth : s.isEth q = true)
    (hfree : (s.port q).clx.any (fun x => x.part == p && !x.held && !x.parked) = false) : s.clxHead q p ok = some c := by
  simp [State.clxHead, heth, hfree, hq, hok]

/-- The oldest command of a collective queue taken off it. -/
def State.clxTaken (s : State) (q p : Nat) : State := s.updBlk q p (fun b => { b with clxq := b.clxq.drop 1 })

/-- Reserved bits are BAD_CMD (R443). -/
theorem State.clxRun_reserved (hhead : s.clxHead q p ok = some c) (hres : cxReserved c = false) :
    s.clxRun q p ok f = (s.clxTaken q p).clxRecord q p c ccBadCmd 0 0 false 0 := by
  rw [State.clxRun, hhead]
  exact if_pos (by simp [hres])

/-- A command whose unused bits are 0 runs. -/
theorem State.clxRun_runs (hhead : s.clxHead q p ok = some c) (hok : ok c = true) (hres : cxReserved c = true) :
    s.clxRun q p ok f = f c (s.clxTaken q p) := by
  rw [State.clxRun, hhead]
  exact if_neg (by simp [hok, hres])

/-- The keys that a command names are of the table. -/
theorem clxKeys_lt {root : Bool} : ∀ k ∈ clxKeys c root, k < 4096 := by
  have hs : cxStk c < 4096 := fld_lt c
  have hd : cxDtk c < 4096 := fld_lt c
  unfold clxKeys
  split
  · split
    · simp
    · split <;> simp [hs, hd]
  · simp [hs]
  · simp [hs]
  · simp

/-- Operations counted on keys leave every key's tag. -/
theorem State.rd_tkTag_counted {ks : List Nat} {k : Nat} (hw : Table.wf 0 s.regs = true) (hks : ∀ k ∈ ks, k < 4096) (hk : k < 4096) :
    (ks.foldl (fun s k => s.inc tkPlace (tkInfl k)) s).rd tkPlace (Machine.tkTag k) = s.rd tkPlace (Machine.tkTag k) := by
  have hkept := List.foldlRecOn (motive := fun t : State => Table.wf 0 t.regs = true ∧ t.rd tkPlace (Machine.tkTag k) = s.rd tkPlace (Machine.tkTag k))
    ks (fun s k => s.inc tkPlace (tkInfl k)) ⟨hw, rfl⟩ fun t ht k' hk' => by
      refine ⟨State.inc_wf ht.1, ?_⟩
      have hoff : (tkInfl k').off ≠ (Machine.tkTag k).off := by
        simp only [tkInfl, Machine.tkTag]
        omega
      exact (State.rd_wr_apart ht.1 (tkInfl_ok (hks k' hk')) (tkTag_ok hk) (by simp [Fd.apart, hoff])).trans ht.2
  exact hkept.2

/-- A command taken up leaves every key's tag. -/
theorem State.clxStart_tkTag {f : Clx → Clx} {k : Nat} (hw : Table.wf 0 s.regs = true) (hk : k < 4096) :
    (s.clxStart q p c f).1.tkTag k = s.tkTag k := by
  unfold State.tkTag State.clxStart
  exact congrArg _ (State.rd_tkTag_counted hw clxKeys_lt hk)

end

/-! ### Groups -/

/-- The registers that GROUP_CREATE fills of group `g` for partition `p` (R437). -/
def groupRegs (p g : Nat) (d : GroupDesc) : List (Fd × Nat) := [(grState g, 2), (grPart g, p), (grRail g, d.rail), (grNrails g, d.nrails), (grStateSelf g, 0),
  (grN g, d.n), (grRank g, d.rank), (grEpoch g, d.epoch.toNat), (grLostV g, 0), (grAborts g, 0), (grHeld g, 0)]

section
variable {q p g : Nat} {d : GroupDesc}

theorem groupRegs_ok (hg : g < 64) : ∀ x ∈ groupRegs p g d, x.1.ok = true := by
  have hfd : ∀ o hi lo, o ≤ 0x3C → lo ≤ hi → hi < 32 → Fd.ok ⟨0x500000 + o + 0x40 * g, hi, lo⟩ = true :=
    fun o hi lo ho hlo hhi => Fd.ok_of hlo hhi (by omega)
  simp only [groupRegs, List.forall_mem_cons, List.not_mem_nil, IsEmpty.forall_iff, implies_true, and_true]
  exact ⟨hfd 0 2 0 (by omega) (by omega) (by omega), hfd 0 7 3 (by omega) (by omega) (by omega), hfd 0 9 8 (by omega) (by omega) (by omega),
    hfd 0 11 10 (by omega) (by omega) (by omega), hfd 0 12 12 (by omega) (by omega) (by omega), hfd 4 12 0 (by omega) (by omega) (by omega),
    hfd 4 27 16 (by omega) (by omega) (by omega), hfd 8 31 0 (by omega) (by omega) (by omega), hfd 0x14 12 12 (by omega) (by omega) (by omega),
    hfd 0x1C 15 0 (by omega) (by omega) (by omega), hfd 0x1C 31 16 (by omega) (by omega) (by omega)⟩

theorem groupRegs_apart : (groupRegs p g d).Pairwise (fun x y => y.1.apart x.1 = true) := by
  simp [groupRegs, Fd.apart, grState, grPart, grRail, grNrails, grStateSelf, grN, grRank, grEpoch, grLostV, grAborts, grHeld]

theorem State.groupMake_regs : (s.groupMake q p g d).regs = (s.wrs (265 + q) (groupRegs p g d)).regs := by
  unfold State.groupMake
  exact foldl_frame State.regs (f := fun s k => s.heardFrom q g k) (fun _ _ => rfl) _ _

/-- The group that GROUP_CREATE leaves is ACTIVE (R437). -/
theorem State.groupMake_rd (hw : Table.wf 0 s.regs = true) (hg : g < 64) (hok : s.groupOk q p g d = true) : let w := s.groupMake q p g d
    w.rd (265 + q) (grState g) = 2 ∧ w.rd (265 + q) (grN g) = d.n ∧ w.rd (265 + q) (grRank g) = d.rank := by
  intro w
  have hfit : ∀ (f : Fd) (v : Nat), (f, v) ∈ groupRegs p g d → v < 2 ^ (f.hi + 1 - f.lo) → w.rd (265 + q) f = v := fun f v hx hlt =>
    (State.rd_congr State.groupMake_regs _ f).trans
      ((State.rd_wrs_of_mem (x := (f, v)) hw (groupRegs_ok hg) groupRegs_apart hx).trans (Nat.mod_eq_of_lt hlt))
  simp only [State.groupOk, Bool.and_eq_true, decide_eq_true_eq] at hok
  obtain ⟨⟨-, -, hn, hrank, -⟩, -⟩ := hok
  exact ⟨hfit (grState g) 2 (by simp [groupRegs]) (by simp [grState]), hfit (grN g) _ (by simp [groupRegs]) (by simp only [grN]; omega),
    hfit (grRank g) _ (by simp [groupRegs]) (by simp only [grRank]; omega)⟩

end

/-! ### Shrinking and collectives -/

section
variable {q p g : Nat} {c : BitVec 512}

/-- A shrink of an aborted group reads its bitmap of survivors (R447). -/
theorem State.shrinkBegin_aborted (hw : Table.wf 0 s.regs = true) (hq : q < 4) (hin : s.inGroup q p (cxGroup c) = true)
    (hst : s.rd (265 + q) (grState (cxGroup c)) = 3) (hepoch : s.rd (265 + q) (grEpoch (cxGroup c)) < fld c 351 320)
    (hkey : s.localKey p (cxStk c) (cxSpga c) 512 1 = true) : let v := ((s.wr (265 + q) (grState (cxGroup c)) 4).clxStart q p c id).1
    let l := v.locGet q p (v.tkTag (cxStk c)) (cxSpga c) 512 (fun pos => .clx (s.port q).next pos)
    s.shrinkBegin q p c = l.1.updClx q (s.port q).next (fun x => { x with open_ := l.2 }) := by
  have hgroup : cxGroup c < 64 := fld_lt c
  have hstate : (grState (cxGroup c)).ok = true := Fd.ok_of (by decide) (by decide) (by omega)
  have htag : ((s.wr (265 + q) (grState (cxGroup c)) 4).clxStart q p c id).1.tkTag (cxStk c) = s.tkTag (cxStk c) := by
    rw [State.clxStart_tkTag (State.wr_wf hw) (fld_lt c)]
    unfold State.tkTag
    rw [State.rd_wr_place (by unfold tkPlace; omega) hstate (tkTag_ok (fld_lt c))]
  intro v l
  have hgo : ¬(!s.inGroup q p (cxGroup c) || (s.rd (265 + q) (grState (cxGroup c)) != 2 && s.rd (265 + q) (grState (cxGroup c)) != 3)
      || decide (fld c 351 320 ≤ s.rd (265 + q) (grEpoch (cxGroup c))) || !s.localKey p (cxStk c) (cxSpga c) 512 1) = true := by
    simp [hin, hst, hkey, Nat.not_le.2 hepoch]
  have hshape : s.shrinkBegin q p c = ((v.locGet q p (s.tkTag (cxStk c)) (cxSpga c) 512 (fun pos => .clx (s.port q).next pos)).1.updClx q (s.port q).next
      (fun x => { x with open_ := (v.locGet q p (s.tkTag (cxStk c)) (cxSpga c) 512 (fun pos => .clx (s.port q).next pos)).2 })) := by
    refine (if_neg hgo).trans ?_
    rw [if_neg (by rw [hst]; decide)]
    rfl
  rw [hshape, ← htag]

/-- A shrink to an epoch that is not higher is BAD_CMD. -/
theorem State.shrinkBegin_stale (h : fld c 351 320 ≤ s.rd (265 + q) (grEpoch (cxGroup c))) :
    s.shrinkBegin q p c = s.clxRecord q p c ccBadCmd 0 0 false (s.groupTail q (cxGroup c)) := if_pos (by simp [h])

/-- A collective that may run and takes up none from before a molt, by the state of its group (R440, R446). -/
theorem State.collRun_fresh (hin : s.inGroup q p (cxGroup c) = true) (hok : s.collOk q p c = true)
    (hnone : (s.port q).clx.find? (fun x => x.ofGroup (cxGroup c) && x.parked && cxId x.cmd == cxId c && x.part == p) = none) :
    s.collRun q p c = if s.rd (265 + q) (grState (cxGroup c)) = 2 then (s.clxStart q p c id).1.collBegin q (s.port q).next
      else if (s.rd (265 + q) (grState (cxGroup c)) = 3 ∨ s.rd (265 + q) (grState (cxGroup c)) = 4) ∧ fld c 122 120 = 4 then
        (s.clxStart q p c (fun x => { x with held := true })).1.inc (265 + q) (grHeld (cxGroup c))
      else s.clxRecord q p c ccBadCmd 0 0 false (s.groupTail q (cxGroup c)) := by
  refine (if_neg (by simp [hin, hok])).trans ?_
  rw [hnone]
  rfl

end

/-- Settles O49: a command runs as its own function says once it heads the queue; the group that is created is read off its registers, and
the other events are the branches that their hypotheses pick. -/
theorem groupsAndCollectives : Obligations.GroupsAndCollectives := by
  unfold Obligations.GroupsAndCollectives
  intro s u q p c hs
  have hnext : ∀ {a b : State}, a = b → (Host.Outcome.next a : Result) = .next b := fun h => congrArg _ h
  have hgroup : cxGroup c < 64 := fld_lt c
  refine ⟨fun ok hok r hq heth hfree => State.clxHead_of_queue hok hq heth hfree, fun hu => ?_, ?_, ?_, ?_, ?_⟩
  · replace hu : u = s.clxTaken q.val p.val := hu
    have hw : Table.wf 0 u.regs = true := hu ▸ hs.regs
    have hruns : ∀ {ok : BitVec 512 → Bool} {f}, s.clxHead q.val p.val ok = some c → ok c = true → cxReserved c = true →
        s.clxRun q.val p.val ok f = f c u := fun hhead hok hres => hu ▸ State.clxRun_runs hhead hok hres
    have hreserved : ∀ {ok : BitVec 512 → Bool} {f}, s.clxHead q.val p.val ok = some c → cxReserved c = false →
        s.clxRun q.val p.val ok f = u.clxRecord q.val p.val c ccBadCmd 0 0 false 0 := fun hhead hres => hu ▸ State.clxRun_reserved hhead hres
    have his : ∀ {o : Nat}, fld c 7 0 = o → cxIs o c = true := fun h => by simp [cxIs, h]
    clear hu
    refine ⟨fun d hhead _ hres => hnext (hreserved hhead hres), fun d hhead hop hres => ⟨fun hbad => ?_, fun hok => ⟨?_, State.groupMake_rd hw hgroup hok⟩⟩,
      fun hhead hop hres hin => ⟨fun hstale => ?_, ?_⟩, fun hhead hop hres => ⟨fun hin => ?_, fun hout => ?_⟩, fun k hhead hop hk hres => ?_⟩
    · exact hnext ((hruns hhead (his hop) hres).trans (if_neg (by simp [hbad])))
    · exact hnext ((hruns hhead (his hop) hres).trans (if_pos hok))
    · exact hnext ((hruns hhead (his hop) hres).trans (State.shrinkBegin_stale hstale))
    · rintro v hepoch hst hkey rfl
      exact ⟨_, hnext (hruns hhead (his hop) hres), State.shrinkBegin_aborted hw q.isLt hin hst hepoch hkey⟩
    · exact hnext ((hruns hhead (his hop) hres).trans (if_pos hin))
    · exact hnext ((hruns hhead (his hop) hres).trans (if_neg (by simp [hout])))
    · have hrow : s.collRow q.val p.val k = u.collRun q.val p.val c := hruns hhead (by simp [hop, hk]) hres
      exact ⟨fun h => hnext (h ▸ hrow), fun h => hnext (h ▸ hrow), fun h => hnext (h ▸ hrow), fun h => hnext (h ▸ hrow), fun h => hnext (h ▸ hrow)⟩
  · intro hin hok hnone
    have hrun := State.collRun_fresh hin hok hnone
    exact ⟨fun hst => hrun.trans (if_pos hst), fun hst hk => hrun.trans ((if_neg (by simp [hst])).trans (if_pos ⟨.inl hst, hk⟩)),
      fun hst hk => hrun.trans ((if_neg (by simp [hst])).trans (if_neg (fun h => hk h.2)))⟩
  · intro g h hshrink
    refine ⟨fun hall hagree => hnext ?_, fun hall hagree => hnext ?_, fun hmissing => hnext ?_⟩
    · simp [hshrink, hall, hagree]
    · simp [hshrink, hall, hagree]
    · simp [hshrink, hmissing]
  · intro i x st code hx hparked hfate
    refine hnext ?_
    simp only [hx, hfate, hparked, Bool.false_eq_true, if_false]
  · intro i x hx hof hheld hparked hfate hms
    refine ⟨fun hslow => hnext ?_, fun hslow => hnext ?_⟩
    · simp [hx, hslow]
    · simp [hx, hof, hheld, hparked, hfate, hms, hslow]

end Sys2Proof.Machine

/-! PROOFS. Streams, endpoints, partners and the effective-capacity record (O50). -/

namespace Sys2Proof.Machine

variable {s : State}

/-! ### The effective-capacity record -/

/-- The fields of partition `p`'s record in the order in which they are written, with values (R449). -/
def ecRegs (p : Nat) (v : Fin 12 → Nat) : List (Fd × Nat) := [(ecLdies p, v 0), (ecLdiesImg p, v 1), (ecStacks p, v 2), (ecStacksDeg p, v 3), (ecVariant p, v 4),
  (ecDerate p, v 5), (ecScore p, v 6), (ecCapW p, v 7), (ecSlips p, v 8), (ecTimeLo p, v 9), (ecTimeHi p, v 10), (ecGen p, v 11)]

section
variable {p : Nat}

theorem ecRegs_ok {v : Fin 12 → Nat} (hp : p < 24) : ∀ x ∈ ecRegs p v, x.1.ok = true := by
  have hfd : ∀ o hi lo, o ≤ 0x14 → lo ≤ hi → hi < 32 → Fd.ok ⟨0x28000 + o + 0x40 * p, hi, lo⟩ = true :=
    fun o hi lo ho hlo hhi => Fd.ok_of hlo hhi (by omega)
  simp only [ecRegs, List.forall_mem_cons, List.not_mem_nil, IsEmpty.forall_iff, implies_true, and_true]
  exact ⟨hfd 4 7 0 (by omega) (by omega) (by omega), hfd 4 15 8 (by omega) (by omega) (by omega), hfd 4 20 16 (by omega) (by omega) (by omega),
    hfd 4 25 21 (by omega) (by omega) (by omega), hfd 4 26 26 (by omega) (by omega) (by omega), hfd 4 27 27 (by omega) (by omega) (by omega),
    hfd 8 15 0 (by omega) (by omega) (by omega), hfd 8 31 16 (by omega) (by omega) (by omega), hfd 12 31 0 (by omega) (by omega) (by omega),
    hfd 0x10 31 0 (by omega) (by omega) (by omega), hfd 0x14 31 0 (by omega) (by omega) (by omega), hfd 0 31 0 (by omega) (by omega) (by omega)⟩

theorem ecRegs_apart {v : Fin 12 → Nat} : (ecRegs p v).Pairwise (fun x y => y.1.apart x.1 = true) := by
  simp [ecRegs, Fd.apart, ecLdies, ecLdiesImg, ecStacks, ecStacksDeg, ecVariant, ecDerate, ecScore, ecCapW, ecSlips, ecTimeLo, ecTimeHi, ecGen]

/-- A rewrite writes the fields of the record: the time, and the generation that rises by 2. -/
theorem State.ecRewrite_wrs : ∃ v, s.ecRewrite p = s.wrs 264 (ecRegs p v) ∧ v 9 = s.tb % 2 ^ 32 ∧ v 10 = s.tb / 2 ^ 32 ∧ v 11 = s.hrd (ecGen p) + 2 :=
  ⟨![_, _, _, _, _, _, _, _, _, _, _, _], rfl, rfl, rfl, rfl⟩

/-- The record as rewritten (R449). -/
theorem State.ecRewrite_rd (hw : Table.wf 0 s.regs = true) (hp : p < 24) : (s.ecRewrite p).hrd (ecGen p) = (s.hrd (ecGen p) + 2) % 2 ^ 32
    ∧ (s.ecRewrite p).hrd (ecTimeLo p) = s.tb % 2 ^ 32 ∧ (s.ecRewrite p).hrd (ecTimeHi p) = s.tb / 2 ^ 32 % 2 ^ 32
    ∧ s.ecRewrite p = { s with regs := (s.ecRewrite p).regs } := by
  obtain ⟨v, hv, hlo, hhi, hgen⟩ := State.ecRewrite_wrs (s := s) (p := p)
  have hread : ∀ (f : Fd) (i : Fin 12), (f, v i) ∈ ecRegs p v → (s.wrs 264 (ecRegs p v)).hrd f = v i % 2 ^ (f.hi + 1 - f.lo) :=
    fun f i hx => State.rd_wrs_of_mem (x := (f, v i)) hw (ecRegs_ok hp) ecRegs_apart hx
  rw [hv, hread (ecGen p) 11 (by simp [ecRegs]), hread (ecTimeLo p) 9 (by simp [ecRegs]), hread (ecTimeHi p) 10 (by simp [ecRegs]), hlo, hhi, hgen]
  exact ⟨rfl, Nat.mod_mod _ _, rfl, State.wrs_only _ s⟩

end

/-! ### Streams and endpoints -/

section
variable {q p : Nat} {c : BitVec 512} {t : EpSlot}

/-- A response without a body to a client whose connection is gone ends PEER_FAIL, and its slot is free (R455). -/
theorem State.respond_peerGone (hheld : s.epHeld q p c = some t) (hlen : cxCount c = 0) (hgone : s.connOpen q t.conn = false) :
    s.respond q p c = (s.epFree q (cxEp c) (cxSlot c)).clxRecord q p c ccPeerFail 0 0 false 0 := by
  have hgood : ¬(t.rmax < cxCount c ∨ 2 ^ 24 < cxCount c ∨ (cxCount c ≠ 0 ∧ (!s.localKey p (cxStk c) (cxSpga c) (cxCount c) 1) = true)) := by
    simp [hlen]
  rw [State.respond, hheld]
  exact (if_neg hgood).trans (if_pos (by simp [hgone]))

/-- A message that is shorter than a request's header is MALFORMED (R454). -/
theorem State.epRequest_short {e : Nat} {m : List Byte} (h : m.length < 64) : s.epRequest q p e m
    = s.sendHeader q p (BitVec.ofNat 32 (msgField m 8 12)) (msgField m 16 24) (rpHeader (BitVec.ofNat 64 (msgField m 0 8)) 4 0) :=
  if_pos (.inl h)

end

/-- Settles O50: a command runs as its own function says once it heads the queue; the capacity record is read off the list of fields that its
rewrite writes, and the events of partners are the branches that their hypotheses pick. -/
theorem streamsEndpointsAndPartners : Obligations.StreamsEndpointsAndPartners := by
  unfold Obligations.StreamsEndpointsAndPartners
  intro s u q p c hs
  have hnext : ∀ {a b : State}, a = b → (Host.Outcome.next a : Result) = .next b := fun h => congrArg _ h
  have hpoll : ∀ {a b : State}, a = b → (Host.Outcome.next (a.portPoll q.val) : Result) = .next (b.portPoll q.val) := fun h => h ▸ rfl
  refine ⟨fun hu hres => ?_, ?_, ?_, ?_, ?_⟩
  · replace hu : u = s.clxTaken q.val p.val := hu
    have hw : Table.wf 0 u.regs = true := hu ▸ hs.regs
    have hruns : ∀ {o : Nat} {f}, s.clxHead q.val p.val (cxIs o) = some c → fld c 7 0 = o → s.clxRun q.val p.val (cxIs o) f = f c u :=
      fun hhead hop => hu ▸ State.clxRun_runs hhead (by simp [cxIs, hop]) hres
    clear hu
    refine ⟨fun hhead hop hkey hconn => ?_, fun hhead hop hkey => ?_, fun hhead hop hst hkey hsome hconn => ?_, fun hhead hop hh he => ?_,
      fun hhead hop hkey => ⟨fun hzero => ?_, ?_⟩, fun hhead hop hown hfree hsz hlive hright hfit hep => ?_, fun hhead hop => ⟨?_, ?_⟩,
      fun hhead hop => ⟨fun t ht => ?_, fun hnone => ?_⟩, fun hhead hop hbound hpart hslots => ?_⟩
    · exact hpoll ((hruns hhead hop).trans (if_neg (by simp [hkey, hconn])))
    · exact hpoll ((hruns hhead hop).trans (if_pos (by simp [hkey])))
    · refine hpoll ((hruns hhead hop).trans (if_neg ?_))
      have hall : (cxConns c).all (fun k => u.streamConn q.val p.val k) = true := List.all_eq_true.2 hconn
      rcases hst with hst | hst <;> simp [hst, hkey, hsome, hall]
    · exact hpoll ((hruns hhead hop).trans (if_pos (by simp [hh, he])))
    · exact hnext ((hruns hhead hop).trans ((if_neg (by simp [hkey])).trans (if_pos hzero)))
    · rintro v hsome rfl
      refine ⟨_, hnext ((hruns hhead hop).trans ((if_neg (by simp [hkey])).trans (if_neg hsome))), ?_⟩
      rw [State.clxStart_tkTag hw (fld_lt c)]
      rfl
    · exact hnext ((hruns hhead hop).trans (if_neg (by simp [hown, hfree, Nat.not_lt.2 hsz, hlive, hright, Nat.not_lt.2 hfit, hep])))
    · exact hpoll (hruns hhead hop)
    · exact fun t hheld hlen hgone => State.respond_peerGone hheld hlen hgone
    · refine hnext ((hruns hhead hop).trans ?_)
      simp only [ht]
    · refine hnext ((hruns hhead hop).trans ?_)
      simp only [hnone]
    · refine hnext ((hruns hhead hop).trans ((if_neg (by simp [hbound, hpart])).trans ?_))
      simp only [hslots, List.foldl_nil]
  · intro k e m r hm v hv
    have hep : v.ep q.val e = s.ep q.val e := by
      rw [hv, State.ep, State.port_updPort_same hs.ports]
      rfl
    have harrives : exec (.epRequestArrival q k) s = .next (if (s.ep q.val e).bound then v.epRequest q.val k.val e m else v) := by
      refine hnext ?_
      simp only [hm, hv]
    rw [← hep] at harrives
    exact ⟨fun hfree => harrives.trans (hnext (if_neg (by simp [hfree]))), fun hbound => ⟨harrives.trans (hnext (if_pos hbound)), State.epRequest_short⟩⟩
  · intro g k hpartner
    refine ⟨?_, fun hnone => hnext ?_, fun i hi herr => hnext ?_, fun hpaused => hnext ?_⟩
    · rintro v rfl
      exact hnext (if_neg (by simp [hpartner]))
    · simp [hpartner, hnone]
    · simp [hpartner, hi, herr]
    · simp [hpartner, hpaused]
  · exact fun g e k hg => ⟨fun he => hnext (if_pos ⟨hg, he⟩), fun he => hnext (if_neg fun h => he h.2)⟩
  · exact fun hfw hformed => ⟨_, hnext (if_pos ⟨hfw, hformed⟩), State.ecRewrite_rd hs.regs p.isLt⟩

end Sys2Proof.Machine

/-! PROOFS. What records, events and ended commands leave of the hub, and the feeds, standby power and the reset pins (O1). -/

namespace Sys2Proof.Machine

variable {s : State}

/-! ### The hub beyond its commands and its staged records -/

/-- The hub with no command outstanding and no record staged: what a record, an event or the end of a command leaves. -/
def State.settled (s : State) : Hub := { s.hub with cmds := [], routesOld := false, bbx := { s.hub.bbx with staged := [] } }

theorem State.settled_congr {t : State} (h : t.hub = s.hub) : t.settled = s.settled := by
  unfold State.settled
  rw [h]

theorem State.feed_of_settled {t : State} (h : t.settled = s.settled) : t.hub.feed = s.hub.feed := by
  have h' := congrArg Hub.feed h
  exact h'

theorem Bbx.stage_settled {b : Bbx} {r : BbRec} : { (b.stage r).1 with staged := [] } = { b with staged := [] } := by
  unfold Bbx.stage
  repeat' split
  all_goals rfl

section
variable {src code sev site part cause p why : Nat} {vals : List Byte}

@[simp] theorem State.bb_settled : (s.bb src code sev site part cause vals).settled = s.settled := by
  unfold State.bb
  extract_lets valid r b s1
  have h1 : s1.settled = s.settled := congrArg (fun b => { s.hub with cmds := [], routesOld := false, bbx := b }) Bbx.stage_settled
  exact ite_frame State.settled ((State.settled_congr State.sat_hub).trans h1) h1

@[simp] theorem State.eventTo_settled {e : Event} {f : Nat} : (s.eventTo e f).settled = s.settled := by
  unfold State.eventTo
  extract_lets x e'
  split
  · exact (State.settled_congr State.sendReply_hub).trans rfl
  · exact ite_frame State.settled rfl rfl

@[simp] theorem State.event_settled {kind detail : Nat} {vf : Bool} : (s.event kind detail p vf).settled = s.settled :=
  foldl_frame State.settled (fun _ _ => State.eventTo_settled) _ _

@[simp] theorem State.endCmd_settled {c : HostCmd} {code : W16} {data : List Byte} : (s.endCmd c code data).settled = s.settled := by
  unfold State.settled
  rw [State.endCmd_hub]

@[simp] theorem State.raiseReason_settled {n : Nat} : (s.raiseReason n).settled = s.settled := by
  unfold State.raiseReason
  refine ite_frame State.settled rfl ?_
  extract_lets s1 s2 s3 s4
  have h2 : s2.settled = s.settled := ite_frame State.settled rfl rfl
  have h3 : s3.settled = s.settled := ite_frame State.settled h2 h2
  exact (State.settled_congr State.mbaPfs_hub).trans (State.event_settled.trans (State.bb_settled.trans h3))

@[simp] theorem State.stopped_settled : (s.stopped p why).settled = s.settled :=
  State.event_settled.trans (foldl_frame State.settled (fun _ _ => by exact ite_frame State.settled State.endCmd_settled State.endCmd_settled) _ _)

@[simp] theorem State.rerouteLate_settled : s.rerouteLate.settled = s.settled := by
  refine ite_frame State.settled ?_ rfl
  unfold State.reroute
  extract_lets l
  have h : (s.rerouteOf l).settled = s.settled := State.settled_congr State.rerouteOf_hub
  clear_value l
  generalize s.rerouteOf l = u at h ⊢
  exact h

@[simp] theorem State.haltNow_settled : (s.haltNow p why).settled = s.settled :=
  State.stopped_settled.trans (State.rerouteLate_settled.trans (State.settled_congr State.updPart_hub))

@[simp] theorem State.ecRewrite_hub : (s.ecRewrite p).hub = s.hub := by
  obtain ⟨v, hv, -⟩ := State.ecRewrite_wrs (s := s) (p := p)
  rw [hv, State.wrs_only]

@[simp] theorem State.ecAll_settled : s.ecAll.settled = s.settled :=
  foldl_frame State.settled (fun _ _ => by exact ite_frame State.settled (State.settled_congr State.ecRewrite_hub) rfl) _ _

@[simp] theorem State.noteDerate_settled {tell : Bool} : (s.noteDerate tell).settled = s.settled := by
  unfold State.noteDerate
  extract_lets d same
  exact ite_frame State.settled (ite_frame State.settled State.event_settled rfl) (State.ecAll_settled.trans State.event_settled)

@[simp] theorem State.setLimit_settled {v : Nat} {tell : Bool} : (s.setLimit v tell).settled = s.settled :=
  State.noteDerate_settled.trans (ite_frame State.settled rfl rfl)

/-- The pairs of a function are disabled. -/
@[simp] theorem State.qpDisable_settled {f q : Nat} : (s.qpDisable f q).settled = s.settled := rfl

/-- A warm reset's first step ends commands and halts partitions. -/
@[simp] theorem State.warmStop_settled : s.warmStop.settled = s.settled := by
  unfold State.warmStop
  extract_lets s1 s2
  have h1 : s1.settled = s.settled := foldl_frame State.settled (fun _ _ => State.endCmd_settled) _ _
  have h2 : s2.settled = s1.settled := foldl_frame State.settled (fun _ _ => by exact ite_frame State.settled State.haltNow_settled rfl) _ _
  exact (foldl_frame State.settled (fun _ _ => foldl_frame State.settled (fun _ _ => State.qpDisable_settled) _ _) _ _).trans (h2.trans h1)

end

/-! ### The start of hub firmware -/

/-- The hub beyond SCORE too. -/
def State.settledFw (s : State) : Hub := { s.settled with score := {} }

section
variable {t : State} (h : t.settledFw = s.settledFw)
include h

theorem State.feed_of_settledFw : t.hub.feed = s.hub.feed := by
  have h' := congrArg Hub.feed h
  exact h'
theorem State.boot_of_settledFw : t.hub.boot = s.hub.boot := by
  have h' := congrArg Hub.boot h
  exact h'
theorem State.tb_of_settledFw : t.hub.tb = s.hub.tb := by
  have h' := congrArg Hub.tb h
  exact h'
theorem State.bootCount_of_settledFw : t.hub.bbx.bootCount = s.hub.bbx.bootCount := by
  have h' := congrArg (fun x : Hub => x.bbx.bootCount) h
  exact h'

end

theorem State.settledFw_congr {t : State} (h : t.settled = s.settled) : t.settledFw = s.settledFw :=
  congrArg (fun x : Hub => { x with score := {} }) h

/-- The start of firmware changes SCORE, and a slot that does not run is recorded (R608). -/
theorem State.startFw_settledFw : s.startFw.settledFw = s.settledFw := by
  unfold State.startFw
  extract_lets b firstB slot run
  have hrun : ∀ x, (run s x).settledFw = s.settledFw := fun x => rfl
  clear_value run
  exact ite_frame State.settledFw (hrun _) (ite_frame State.settledFw ((State.settledFw_congr State.bb_settled).trans (hrun _)) rfl)

theorem State.startFw_parts : s.startFw.parts = s.parts := by
  unfold State.startFw
  extract_lets b firstB slot run
  have hrun : ∀ x, (run s x).parts = s.parts := fun x => rfl
  clear_value run
  exact ite_frame State.parts (hrun _) (ite_frame State.parts ((State.bb_edges ⟨rfl, rfl, rfl⟩).2.2.trans (hrun _)) rfl)

/-- The start of firmware writes its version and slot, and counts a dropped record at most. -/
theorem State.startFw_hrd {f : Fd} (hf : f.off = 0x2000) : s.startFw.hrd f = s.hrd f := by
  have hreg : s.startFw.reg 264 f.off = s.reg 264 f.off := by
    unfold State.startFw
    extract_lets b firstB slot run
    have hrun : ∀ x, (run s x).reg 264 f.off = s.reg 264 f.off := fun x =>
      (State.reg_hwr_ne (by rw [hf]; decide)).trans (State.reg_hwr_ne (by rw [hf]; decide))
    clear_value run
    exact ite_frame (fun t : State => t.reg 264 f.off) (hrun _) (ite_frame (fun t : State => t.reg 264 f.off)
      ((State.reg_bb (by rw [hf]; decide)).trans (hrun _)) rfl)
  unfold State.hrd State.rd
  rw [hreg]

/-! ### Cold and warm reset -/

section
variable {stby : Bool}

/-- What power off leaves (R496, R508). -/
theorem State.cold_feed : (s.cold stby).hub.feed = { stby := stby } := ite_frame (fun t : State => t.hub.feed) rfl rfl

theorem State.cold_units : (s.cold stby).tiles = [] ∧ (s.cold stby).snodes = [] ∧ (s.cold stby).nodes = [] ∧ (s.cold stby).parts = []
    ∧ (s.cold stby).fns = [] ∧ (s.cold stby).ports = [] :=
  ⟨ite_frame State.tiles rfl rfl, ite_frame State.snodes rfl rfl, ite_frame State.nodes rfl rfl, ite_frame State.parts rfl rfl,
    ite_frame State.fns rfl rfl, ite_frame State.ports rfl rfl⟩

theorem State.cold_fuses : (s.cold stby).hub.fuses = s.hub.fuses := ite_frame (fun t : State => t.hub.fuses) rfl rfl

/-- Once the staged records are written or lost, none is staged. -/
theorem State.cold_staged (h : s.hub.bbx.staged = []) : (s.cold stby).hub.bbx.staged = [] := by
  have hbbx : (s.cold stby).hub.bbx = if stby then s.hub.bbx else { s.hub.bbx with staged := [] } :=
    ite_frame (fun t : State => t.hub.bbx) rfl rfl
  rw [hbbx]
  split
  · exact h
  · rfl

end

/-- A warm reset outside cocoon: the boot ladder is written back, then firmware starts (R497). -/
theorem State.warm_shape (hs : Canon s) (hgood : s.hub.feed.mainGood = true) (hphase : s.hrd bootPhase ≠ 3) : ∃ w : State,
    s.warm = ((((w.hwr bootInstar 0).hwr bootPhase 0).hwr bootChrysalis 1).hwr bootImago 0).startFw
      ∧ w.hub.feed = s.hub.feed ∧ w.parts = [] ∧ Table.wf 0 w.regs = true := by
  have hfeed : s.warmStop.hub.feed = s.hub.feed := State.feed_of_settled State.warmStop_settled
  have hcanon : Canon s.warmStop := (State.warmStop_keeps (.refl s)).canon hs
  unfold State.warm
  rw [if_neg (by simp [hgood, hphase])]
  extract_lets s1 h rot score tb hub s2 s3
  replace hfeed : s1.hub.feed = s.hub.feed := hfeed
  replace hcanon : Canon s1 := hcanon
  clear_value s1
  have hhub : s3.hub = hub := rfl
  have hkept : hub.feed = h.feed := rfl
  refine ⟨s3, rfl, (congrArg Hub.feed hhub).trans (hkept.trans hfeed), rfl, ?_⟩
  have hkeeps : Keeps s1 s3 := by
    refine State.keepRegs_keeps (tables_keeps (.refl s1) ?_ ?_) <;> exact List.prefix_rfl
  exact (hkeeps.canon hcanon).1

/-! ### The feeds -/

theorem State.powerLoss_staged : s.powerLoss.hub.bbx.staged = [] := rfl

/-- The boot that a feed starts: nothing after its latch touches the latch, the boot count or the time base. -/
theorem State.poweredUp (u : State) {v : Nat} {t : State} (ht : t = ((u.setLimit v false).wr 265 clkFpllLock 1).startFw) :
    t.hub.feed = u.hub.feed ∧ t.hub.bbx.bootCount = u.hub.bbx.bootCount ∧ t.hub.boot = u.hub.boot ∧ t.hub.tb = u.hub.tb := by
  have h : t.settledFw = u.settledFw := by
    rw [ht, State.startFw_settledFw]
    exact (State.settledFw_congr (State.settled_congr State.wr_hub)).trans (State.settledFw_congr State.setLimit_settled)
  exact ⟨State.feed_of_settledFw h, State.bootCount_of_settledFw h, State.boot_of_settledFw h, State.tb_of_settledFw h⟩

/-- Exactly one feed is present. -/
theorem one_feed : ∀ {f48 f12 : Bool}, f48 ≠ f12 → (f48 && f12) = false ∧ (!f48 && !f12) = false := by decide

theorem mainPowerGood_latches {f48 f12 e w : Bool} {vin : W16} (hstby : s.hub.feed.stby = true) (hoff : s.hub.feed.mainGood = false)
    (htrip : s.hub.feed.tripped = false) (hone : f48 ≠ f12) (hin : feedIn f48 vin.toNat = true) :
    Runs (.mainPowerGood f48 f12 e w vin) s (fun t =>
      t.hub.feed.mainGood = true ∧ t.hub.feed.latched = (if f48 then 1 else 2) ∧ t.hub.bbx.bootCount = s.hub.bbx.bootCount + 1
        ∧ t.hub.boot.powerAt = s.now ∧ t.hub.tb.startAt = some s.now ∧ t.pending = s.pending) := by
  obtain ⟨hnotBoth, hsome⟩ := one_feed hone
  have hgo : ¬(!s.hub.feed.stby || s.hub.feed.mainGood || s.hub.feed.tripped || (!f48 && !f12)) = true := by
    rw [hstby, hoff, htrip, hsome]
    decide
  have hvolt : ¬((f48 != f12) && !feedIn f48 vin.toNat) = true := by simp [hin]
  have hboth : ¬(f48 && f12) = true := ne_true_of_eq_false hnotBoth
  have hexec : ∃ (u : State) (v : Nat), exec (.mainPowerGood f48 f12 e w vin) s = .next (((u.setLimit v false).wr 265 clkFpllLock 1).startFw)
      ∧ u.hub.feed.mainGood = true ∧ u.hub.feed.latched = (if f48 then 1 else 2) ∧ u.hub.bbx.bootCount = s.hub.bbx.bootCount + 1
        ∧ u.hub.boot.powerAt = s.now ∧ u.hub.tb.startAt = some s.now :=
    ⟨_, _, congrArg Host.Outcome.next ((if_neg hgo).trans ((if_neg hvolt).trans (if_neg hboth))), rfl, rfl, rfl, rfl, rfl⟩
  obtain ⟨u, v, hrun, hgood, hlatch, hcount, hat, htb⟩ := hexec
  obtain ⟨hf, hc, hb, ht⟩ := State.poweredUp u (v := v) rfl
  exact ⟨_, hrun, by rw [hf, hgood], by rw [hf, hlatch], by rw [hc, hcount], by rw [hb, hat], by rw [ht, htb],
    (execMainPowerGood_keeps (.refl s) (exec_mainPowerGood.symm.trans hrun)).pending⟩

section
variable {src code sev site part cause : Nat} {vals : List Byte} {f : Fd}

/-- A record leaves every word of the hub but the count of dropped records. -/
theorem State.bb_hrd (h : bbDrops.off ≠ f.off) : (s.bb src code sev site part cause vals).hrd f = s.hrd f := by
  unfold State.hrd State.rd
  rw [State.reg_bb h]

end

/-- A lost pair of the 48 V feed shows in its bit, and the other bit stays (R506). -/
theorem State.pairLost_rd (hw : Table.wf 0 s.regs = true) (west : Bool) : let t := s.hwr (if west then pmgrPairW else pmgrPairE) 0
    t.hrd (if west then pmgrPairW else pmgrPairE) = 0 ∧ t.hrd (if west then pmgrPairE else pmgrPairW) = s.hrd (if west then pmgrPairE else pmgrPairW) := by
  cases west
  · exact ⟨State.hrd_hwr_same hw (by decide), State.hrd_hwr_apart hw (by decide) (by decide) (by decide)⟩
  · exact ⟨State.hrd_hwr_same hw (by decide), State.hrd_hwr_apart hw (by decide) (by decide) (by decide)⟩

/-- BBX shows which copies of the MRAM can be used (R617). -/
theorem State.setMramOk_rd (hw : Table.wf 0 s.regs = true) :
    s.setMramOk.hrd bbHubOk = b2n s.hub.bbx.hub.readable ∧ s.setMramOk.hrd bbEastOk = b2n s.hub.bbx.east.readable := by
  have hbit : ∀ b : Bool, b2n b % 2 ^ 1 = b2n b := by decide
  exact ⟨(State.hrd_hwr_apart (State.hwr_wf hw) (by decide) (by decide) (by decide)).trans ((State.hrd_hwr_same hw (by decide)).trans (hbit _)),
    (State.hrd_hwr_same (State.hwr_wf hw) (by decide)).trans (hbit _)⟩

/-- The boot ladder after a warm reset. -/
theorem State.ladder_rd (hw : Table.wf 0 s.regs = true) : let t := ((((s.hwr bootInstar 0).hwr bootPhase 0).hwr bootChrysalis 1).hwr bootImago 0).startFw
    t.hrd bootInstar = 0 ∧ t.hrd bootPhase = 0 ∧ t.hrd bootChrysalis = 1 ∧ t.hrd bootImago = 0 := by
  have h1 : Table.wf 0 (s.hwr bootInstar 0).regs = true := State.hwr_wf hw
  have h2 : Table.wf 0 ((s.hwr bootInstar 0).hwr bootPhase 0).regs = true := State.hwr_wf h1
  have h3 : Table.wf 0 (((s.hwr bootInstar 0).hwr bootPhase 0).hwr bootChrysalis 1).regs = true := State.hwr_wf h2
  refine ⟨?_, ?_, ?_, ?_⟩ <;> rw [State.startFw_hrd rfl]
  · rw [State.hrd_hwr_apart h3 (by decide) (by decide) (by decide), State.hrd_hwr_apart h2 (by decide) (by decide) (by decide),
      State.hrd_hwr_apart h1 (by decide) (by decide) (by decide)]
    exact State.hrd_hwr_same hw (by decide)
  · rw [State.hrd_hwr_apart h3 (by decide) (by decide) (by decide), State.hrd_hwr_apart h2 (by decide) (by decide) (by decide)]
    exact State.hrd_hwr_same h1 (by decide)
  · rw [State.hrd_hwr_apart h3 (by decide) (by decide) (by decide)]
    exact State.hrd_hwr_same h2 (by decide)
  · exact State.hrd_hwr_same h3 (by decide)

/-- Settles O1: records, events and ended commands leave the latch, the boot count and the time base; a reset is read off what it writes. -/
theorem feedsAndStandbyPower : Obligations.FeedsAndStandbyPower := by
  unfold Obligations.FeedsAndStandbyPower
  intro s hs
  refine ⟨fun f48 f12 e w vin hstby hoff htrip hone hin => mainPowerGood_latches hstby hoff htrip hone hin, fun hgood hlogged => ?_,
    fun west hgood hlatch hpair => ?_, fun hgood => ?_, fun hubOk eastOk hoff => ?_, fun hstby => ?_, fun hgood hphase => ?_, fun hstby => ?_⟩
  · refine ⟨_, congrArg Host.Outcome.next (if_neg (by simp [hgood, hlogged])), State.feed_of_settled State.bb_settled, State.bb_hrd (by decide),
      State.bb_cells ⟨rfl, rfl, rfl⟩, State.bb_edges ⟨rfl, rfl, rfl⟩⟩
  · obtain ⟨hlost, hother⟩ := State.pairLost_rd hs.regs west
    have hoff : ∀ b : Bool, bbDrops.off ≠ (if b then pmgrPairW else pmgrPairE).off := by decide
    have hoff' : ∀ b : Bool, bbDrops.off ≠ (if b then pmgrPairE else pmgrPairW).off := by decide
    exact ⟨_, congrArg Host.Outcome.next (if_neg (by simp [hgood, hlatch, hpair])), (State.bb_hrd (hoff west)).trans hlost,
      (State.bb_hrd (hoff' west)).trans hother, State.feed_of_settled State.bb_settled, State.bb_cells ⟨rfl, rfl, rfl⟩, State.bb_edges ⟨rfl, rfl, rfl⟩⟩
  · obtain ⟨htiles, hsnodes, -, hparts, -⟩ := State.cold_units (s := s.zeroBudgets.powerLoss) (stby := true)
    exact ⟨_, congrArg Host.Outcome.next (if_pos hgood), State.cold_feed, htiles, hsnodes, hparts, State.cold_staged State.powerLoss_staged⟩
  · obtain ⟨hhub, heast⟩ := State.setMramOk_rd (s := s.updHub (fun h => { h with
      feed := { h.feed with stby := true }, tb := { h.tb with rtcBase := 0, rtcAt := s.now }
      bbx := { h.bbx with hub := { h.bbx.hub with readable := hubOk }, east := { h.bbx.east with readable := eastOk } } })) hs.regs
    exact ⟨_, congrArg Host.Outcome.next (if_neg (by simp [hoff])), rfl, rfl, rfl, rfl, rfl, hhub, heast, ⟨rfl, rfl, rfl⟩, rfl, rfl, rfl⟩
  · have hloss : ∃ w : State, exec .standbyPowerLoss s = .next (w.cold false) ∧ w.hub.bbx.staged = [] := by
      by_cases hgood : s.hub.feed.mainGood = true
      · exact ⟨_, congrArg Host.Outcome.next ((if_neg (by simp [hstby])).trans (if_pos hgood)), State.powerLoss_staged⟩
      · exact ⟨_, congrArg Host.Outcome.next ((if_neg (by simp [hstby])).trans (if_neg hgood)), State.powerLoss_staged⟩
    obtain ⟨w, hrun, hstaged⟩ := hloss
    obtain ⟨htiles, hsnodes, -, hparts, -⟩ := State.cold_units (s := w) (stby := false)
    exact ⟨_, hrun, State.cold_feed, htiles, hsnodes, hparts, State.cold_staged hstaged⟩
  · obtain ⟨w, hwarm, hfeed, hparts, hw⟩ := State.warm_shape hs hgood hphase
    obtain ⟨hinstar, hph, hchr, himago⟩ := State.ladder_rd hw
    exact ⟨_, congrArg Host.Outcome.next hwarm, (State.feed_of_settledFw State.startFw_settledFw).trans hfeed, hinstar, hph, hchr, himago,
      State.startFw_parts.trans hparts⟩
  · obtain ⟨htiles, hsnodes, hnodes, hparts, hfns, hports⟩ := State.cold_units (s := s) (stby := true)
    exact ⟨_, congrArg Host.Outcome.next (if_pos hstby), State.cold_feed, htiles, hsnodes, hnodes, hparts, hfns, hports, State.cold_fuses⟩

end Sys2Proof.Machine

/-! PROOFS. The bring-up ladder: BOOT_GO, the end of an instar, its bound, and cocoon on request (O45). -/

namespace Sys2Proof.Machine

variable {s : State}

/-- A BOOT_GO is accepted for the next instar alone (R460). -/
theorem State.bootGo_accepted {t : Nat} (hgood : s.hub.feed.mainGood = true) (hflow : s.hrd thmFlowStop = 0) (himago : s.hrd bootImago = 0)
    (hphase : s.hrd bootPhase = 0 ∨ s.hrd bootPhase = 2) (hnext : t = s.hrd bootInstar + 1) (hlast : t ≤ 7) :
    s.bootGo t = (s.hwr bootPhase 1).updBoot (fun b => { b with startAt := s.now, target := t, work := false, code := 0 }) := by
  refine if_pos ?_
  rcases hphase with hphase | hphase <;> simp [hgood, hflow, himago, hphase, ← hnext, hlast]

theorem State.bootGo_dropped {t : Nat} (h : s.hub.feed.mainGood = false ∨ s.hrd thmFlowStop ≠ 0 ∨ s.hrd bootImago ≠ 0
    ∨ (s.hrd bootPhase ≠ 0 ∧ s.hrd bootPhase ≠ 2) ∨ t ≠ s.hrd bootInstar + 1) : s.bootGo t = s.sat 264 bootGoDrop := by
  refine if_neg ?_
  rcases h with h | h | h | ⟨h0, h2⟩ | h
  · simp [h]
  · simp [h]
  · simp [h]
  · simp [h0, h2]
  · simp [h]

/-- The tries of an instar, once its time and its failure are recorded. -/
theorem State.tries_recorded {v src code sev site part cause : Nat} {vals : List Byte} (hw : Table.wf 0 s.regs = true) :
    ((s.hwr bootStepMs v).bb src code sev site part cause vals).hrd bootTries = s.hrd bootTries :=
  (State.bb_hrd (by decide)).trans (State.hrd_hwr_apart hw (by decide) (by decide) (by decide))

/-- Settles O45: the ladder's rules are the branches that the phase, the target and the code pick. -/
theorem bringUpSequence : Obligations.BringUpSequence := by
  unfold Obligations.BringUpSequence
  intro s hs
  have hnext : ∀ {a b : State}, a = b → (Host.Outcome.next a : Result) = .next b := fun h => congrArg _ h
  refine ⟨fun t hgood hflow himago hphase ht => ?_, fun t h => hnext (State.bootGo_dropped h), fun hphase hwork hstacks => ⟨fun hok => ?_, ?_⟩,
    fun hphase => hnext (if_neg (by simp [hphase])), fun hgood hphase => hnext (if_neg (by simp [hgood, hphase]))⟩
  · exact ⟨_, hnext (State.bootGo_accepted hgood hflow himago hphase ht (by omega)), State.hrd_hwr_same hs.regs (by decide), rfl, rfl⟩
  all_goals
    have hdone : ¬(s.hrd bootPhase ≠ 1 ∨ (!s.hub.boot.work) = true ∨ (s.hub.boot.target = 4 ∧ (!s.stacksReady) = true)) := by
      rintro (h | h | ⟨h, hready⟩)
      · exact h hphase
      · simp [hwork] at h
      · simp [hstacks h] at hready
  · exact hnext ((if_neg hdone).trans (if_pos hok))
  · rintro u rfl hfailed
    rw [State.tries_recorded hs.regs]
    exact ⟨fun hmore => hnext ((if_neg hdone).trans ((if_neg hfailed).trans (if_neg (Nat.not_le.2 hmore)))),
      fun hlast => hnext ((if_neg hdone).trans ((if_neg hfailed).trans (if_pos hlast)))⟩

end Sys2Proof.Machine

/-! PROOFS. Management over MCTP, the service tool and the debug pins (O54). -/

namespace Sys2Proof.Machine

variable {s : State}

theorem clampNat_eq {lo hi n : Nat} (h : lo ≤ hi) : clampNat lo hi n = max lo (min hi n) := by
  unfold clampNat
  split
  · omega
  · split <;> omega

/-- A field written and answered over MCTP (R573, R603, R606). -/
theorem State.fieldWritten {f : Fd} {v : Nat} (hw : Table.wf 0 s.regs = true) (hf : f.ok = true) (hv : v < 2 ^ (f.hi + 1 - f.lo)) :
    let t := (s.hwr f v).vdm 0 []
    t.hrd f = v ∧ t = { s with regs := t.regs, out := s.out ++ [.mgmt 50 0 []] } :=
  ⟨(State.hrd_hwr_same hw hf).trans (Nat.mod_eq_of_lt hv), rfl⟩

/-- A byte of the permanent region of the hub-side MRAM (R610). -/
theorem State.mramByte_perm {a i : Nat} (hlo : 0x1000000 ≤ a) (hhi : a < 0x1800000) :
    s.mramByte false a i = regionByte s.hub.bbx.hub.perm ((a - 0x1000000) / 256) (a % 256) :=
  (if_neg (by omega)).trans ((if_neg (by omega)).trans (if_pos hhi))

/-- What the endpoint answers on standby power: the registers (R606). -/
theorem vdmRegRead_answers (hstby : s.hub.feed.stby = true) {off : BitVec 24} {n : Nat} (h1 : 1 ≤ n) (h16 : n ≤ 16) (halign : off.toNat % 4 = 0)
    (hend : off.toNat + 4 * n ≤ 2 ^ 24) : exec (.vdmRegRead off n) s = .next (if !s.hub.feed.mainGood && !(List.range n).all (fun i => standbyWord (off.toNat + 4 * i))
      then s.vdm 1 [] else (s.latch .hub off.toNat n).vdm 0 ((s.tgtWords .hub off.toNat n).flatMap (fun w => bytesLE 4 w.toNat))) :=
  congrArg Host.Outcome.next ((if_neg (by simp [hstby])).trans (if_neg (by omega)))

/-- The record reads (R606, R614). -/
theorem vdmBbRead_answers (hstby : s.hub.feed.stby = true) {k : Byte} {q : W32} {n : Byte} (hk : k.toNat ≤ 1) (h0 : n ≠ 0) (h16 : n.toNat ≤ 16) :
    exec (.vdmBbRead k q n) s = .next (if !(s.bbCopy (k == 1)).readable then s.vdm 1 []
      else s.vdm 0 (((List.range n.toNat).filterMap (fun i => (s.bbCopy (k == 1)).find (q.toNat + i))).flatMap BbRec.bytes)) := by
  refine congrArg Host.Outcome.next ((if_neg (by simp [hstby])).trans (if_neg ?_))
  rintro (h | h | h)
  · omega
  · exact h0 h
  · omega

/-- Settles O54: each answer is the branch that power and parameters pick; the four bounded fields fit what is written. -/
theorem outOfBandManagementAndDebugPins : Obligations.OutOfBandManagementAndDebugPins := by
  unfold Obligations.OutOfBandManagementAndDebugPins
  intro s hs
  have hnext : ∀ {a b : State}, a = b → (Host.Outcome.next a : Result) = .next b := fun h => congrArg _ h
  refine ⟨fun hstby => ?_, fun e off n => ⟨fun hstby l => ?_, ?_, fun hstby => ?_⟩, fun a i hlo hhi => State.mramByte_perm hlo hhi,
    fun hgood a => ⟨fun hlevel => ?_, fun hlevel => ?_⟩, fun t off bs => rfl⟩
  · have hup : ¬(!s.hub.feed.stby) = true := by simp [hstby]
    refine ⟨fun e => ⟨_, hnext (if_pos hstby), rfl, rfl⟩, fun off n hbad => hnext ((if_neg hup).trans (if_pos hbad)),
      fun off n h1 h16 halign hend hpower => ?_, fun off n i h1 h16 halign hend hoff hi hdark => ?_, fun t v hoff => ?_, fun v hgood => ?_,
      hnext (if_neg hup), fun k q n hk h0 h16 => ?_, fun hoff => ?_, fun hgood => ?_, fun off bs x hgood hbad => ?_, fun off bs hgood hlen hend => ?_⟩
    · refine (vdmRegRead_answers hstby h1 h16 halign hend).trans (hnext (if_neg ?_))
      rcases hpower with hgood | hwords
      · simp [hgood]
      · simp [List.all_eq_true.2 fun i hi => hwords i (List.mem_range.1 hi)]
    · refine (vdmRegRead_answers hstby h1 h16 halign hend).trans (hnext (if_pos ?_))
      have hall : (List.range n).all (fun i => standbyWord (off.toNat + 4 * i)) = false :=
        List.all_eq_false.2 ⟨i, List.mem_range.2 hi, by simp [hdark]⟩
      simp [hoff, hall]
    · exact hnext ((if_neg hup).trans (if_pos (by simp [hoff])))
    · have hwrites : ∀ x : State, (if !s.hub.feed.stby then s else if !s.hub.feed.mainGood then s.vdm 1 [] else x) = x :=
        fun x => (if_neg hup).trans (if_neg (by simp [hgood]))
      have hclamp : ∀ {lo hi : Nat}, lo ≤ hi → clampNat lo hi v.toNat = max lo (min hi v.toNat) := clampNat_eq
      refine ⟨hnext (hwrites _), hnext (hwrites _), ⟨_, hnext (hwrites _), State.fieldWritten hs.regs (by decide) ?_⟩,
        ⟨_, hnext ((hwrites _).trans (congrArg (fun n => (s.hwr thmTjThrottle n).vdm 0 []) (hclamp (by decide)))), State.fieldWritten hs.regs (by decide) ?_⟩,
        ⟨_, hnext ((hwrites _).trans (congrArg (fun n => (s.hwr fwHwm n).vdm 0 []) (hclamp (by decide)))), State.fieldWritten hs.regs (by decide) ?_⟩,
        ⟨_, hnext ((hwrites _).trans (congrArg (fun n => (s.hwr telPeriod n).vdm 0 []) (hclamp (by decide)))), State.fieldWritten hs.regs (by decide) ?_⟩⟩
      · simp only [thmGlycolPct]; omega
      · simp only [thmTjThrottle]; omega
      · simp only [fwHwm]; omega
      · simp only [telPeriod]; omega
    · have hread := vdmBbRead_answers hstby (q := q) hk h0 h16
      exact ⟨fun hno => hread.trans (hnext (if_pos (by rw [hno]; rfl))), fun hyes => hread.trans (hnext (if_neg (by rw [hyes]; exact Bool.false_ne_true)))⟩
    · exact ⟨hnext ((if_neg hup).trans (if_pos (by simp [hoff]))), hnext ((if_neg hup).trans (if_pos (by simp [hoff])))⟩
    · have hpow : ¬(!s.hub.feed.mainGood) = true := by simp [hgood]
      refine ⟨hnext ((if_neg hup).trans (if_neg hpow)), fun hphase => hnext ((if_neg hup).trans ((if_neg hpow).trans (if_neg ?_)))⟩
      have hcocoon : (s.vdm 0 []).hrd bootPhase ≠ 3 := hphase
      simp only [hcocoon, decide_false, Bool.or_false]
      exact hpow
    · exact hnext ((if_neg hup).trans ((if_neg (by simp [hgood])).trans (if_pos hbad)))
    · have hfits : ¬(1024 < bs.length ∨ 65536 < off + bs.length) := by omega
      have hchunk : ∀ x, (if !s.hub.feed.stby then s else if !s.hub.feed.mainGood then s.vdm 2 []
          else if 1024 < bs.length ∨ 65536 < off + bs.length then s.vdm 3 [] else x) = x :=
        fun x => (if_neg hup).trans ((if_neg (by simp [hgood])).trans (if_neg hfits))
      exact ⟨⟨_, hnext (hchunk _), rfl, rfl, rfl⟩, fun p => hnext (hchunk _)⟩
  · exact hnext (if_pos (by simp [hstby]))
  · exact hnext (if_pos (by simp))
  · exact ⟨_, hnext (if_neg (by simp [hstby])), rfl, rfl⟩
  · exact hnext ((if_neg (by simp [hgood])).trans (if_pos hlevel))
  · exact hnext ((if_neg (by simp [hgood])).trans (if_neg (Nat.not_lt.2 hlevel)))

end Sys2Proof.Machine

/-! PROOFS. The cap, the sectors' budgets and loans, and the window of the input power (O3). -/

namespace Sys2Proof.Machine

variable {s : State}

section
variable {k : Nat} {i : BitVec 12}

theorem scpmOver_ok (hk : k < 24) : (scpmOver k).ok = true := Fd.ok_of (by decide) (by decide) (by omega)

/-- A sector's current and whether it is over its limit, as written (R524). -/
theorem State.busShown_rd {v : Nat} (hw : Table.wf 0 s.regs = true) (hk : k < 24) (hv : v < 2) : let t := (s.hwr (scpmI k) i.toNat).hwr (scpmOver k) v
    t.hrd (scpmOver k) = v ∧ t.hrd (scpmI k) = i.toNat := by
  have happ : (scpmOver k).apart (scpmI k) = true := by simp [Fd.apart, scpmOver, scpmI]
  refine ⟨(State.hrd_hwr_same (State.hwr_wf hw) (scpmOver_ok hk)).trans (Nat.mod_eq_of_lt (by simpa [scpmOver] using hv)), ?_⟩
  exact (State.hrd_hwr_apart (State.hwr_wf hw) (scpmOver_ok hk) (scpmI_ok hk) happ).trans
    ((State.hrd_hwr_same hw (scpmI_ok hk)).trans (Nat.mod_eq_of_lt i.isLt))

/-- The dies of a sector that are ACTIVE follow from the regions and the site map. -/
theorem State.activeIn_congr {t : State} (h : ∀ n, t.power n = s.power n) : t.activeIn k = s.activeIn k := by
  unfold State.activeIn
  simp only [h]

/-- Where no loan runs, none ends. -/
theorem State.endLoans_none {gone : Loan → Bool} (h : (s.hub.scpm.get {} k).loans = []) : s.endLoans k gone
    = s.updHub (fun h => { h with scpm := h.scpm.upd {} k (fun x => { x with loans := x.loans.filter (fun l => !gone l) }) }) := by
  simp only [State.endLoans, h, List.filter_nil, List.map_nil, List.foldl_nil]

/-- Loans that end leave the sector's list, and the budgets alone change else (R528). -/
theorem State.endLoans_loans {gone : Loan → Bool} (hw : Table.wf {} s.hub.scpm = true) :
    ((s.endLoans k gone).hub.scpm.get {} k).loans = (s.hub.scpm.get {} k).loans.filter (fun l => !gone l) := by
  have hscpm : (s.endLoans k gone).hub.scpm = s.hub.scpm.upd {} k (fun x => { x with loans := x.loans.filter (fun l => !gone l) }) :=
    foldl_frame (fun t : State => t.hub.scpm) (f := fun s n => s.setBudget n) (fun _ _ => rfl) _ _
  rw [hscpm, Table.get_upd_same hw]

theorem State.endLoans_now {gone : Loan → Bool} : (s.endLoans k gone).now = s.now :=
  foldl_frame State.now (f := fun s n => s.setBudget n) (fun _ _ => rfl) _ _

theorem State.endLoans_cells {gone : Loan → Bool} : SameCells s (s.endLoans k gone) :=
  ⟨foldl_frame State.tiles (f := fun s n => s.setBudget n) (fun _ _ => rfl) _ _, foldl_frame State.snodes (f := fun s n => s.setBudget n) (fun _ _ => rfl) _ _,
    foldl_frame State.nodes (f := fun s n => s.setBudget n) (fun _ _ => rfl) _ _⟩

end

/-- A division of the power keeps the registers canonical. -/
theorem State.divided_wf (hs : Canon s) (reads : List DieRead) (ws : State → List (Nat × Nat)) :
    Table.wf 0 ((ws (reads.foldl (fun s r => s.noteRead r) s)).foldl (fun s x => s.shareOut reads x.1 x.2) (reads.foldl (fun s r => s.noteRead r) s)).regs = true := by
  have hnoted : Keeps s (reads.foldl (fun s r => s.noteRead r) s) := foldl_keeps (fun _ _ h => State.noteRead_keeps h) _ _ (.refl s)
  have hshared : Keeps s ((ws (reads.foldl (fun s r => s.noteRead r) s)).foldl (fun s x => s.shareOut reads x.1 x.2) (reads.foldl (fun s r => s.noteRead r) s)) :=
    foldl_keeps (fun _ _ h => State.shareOut_keeps h) _ _ hnoted
  exact (hshared.canon hs).1

/-- Settles O3: with no die active the sector's rules write its current and its bit alone; a division ends with PMGR_CAPPING; loans that lapse
leave the list; a sample that fits joins the window. -/
theorem powerBudgets : Obligations.PowerBudgets := by
  unfold Obligations.PowerBudgets
  intro s hs
  have hw := hs.regs
  refine ⟨fun f q tag c hturn hlo hhi hstep => ?_, fun k i hover hidle hloans => ?_, fun k i hon hin hidle => ?_, fun draw demand reads hgood hinstar => ?_,
    fun k l hscpm hl => ?_, fun p vin hgood hn hfit => ?_⟩
  · have hcap : ¬(cmdB c.cmd 8 12 < 4000 ∨ 15500 < cmdB c.cmd 8 12 ∨ cmdB c.cmd 8 12 % 50 ≠ 0) := by omega
    exact congrArg Host.Outcome.next ((State.fwRun_of_turn hturn _).trans (if_neg hcap))
  · have hloans' : (((s.hwr (scpmI k.val) i.toNat).hwr (scpmOver k.val) 1).hub.scpm.get {} k.val).loans = [] := hloans
    have hrun : exec (.sectorOvercurrent k i) s = .next ((((s.hwr (scpmI k.val) i.toNat).hwr (scpmOver k.val) 1).updHub (fun h => { h with
        scpm := h.scpm.upd {} k.val (fun x => { x with loans := x.loans.filter (fun _ => !true) }) })).drawn) := by
      refine congrArg Host.Outcome.next ((if_neg (Nat.not_le.2 hover)).trans ?_)
      rw [State.endLoans_none hloans']
      have hnone : ((((s.hwr (scpmI k.val) i.toNat).hwr (scpmOver k.val) 1).updHub (fun h => { h with
          scpm := h.scpm.upd {} k.val (fun x => { x with loans := x.loans.filter (fun _ => !true) }) })).drawn).activeIn k.val = [] :=
        (State.activeIn_congr fun _ => rfl).trans hidle
      simp only [hnone, List.zipIdx_nil, List.foldl_nil]
    obtain ⟨ho, hi⟩ := State.busShown_rd (i := i) hw k.isLt (by decide : 1 < 2)
    exact ⟨_, hrun, ho, hi, ⟨rfl, rfl, rfl⟩, rfl, rfl, rfl⟩
  · have hrun : exec (.scpmOverClears k i) s = .next ((s.hwr (scpmI k.val) i.toNat).hwr (scpmOver k.val) 0) := by
      refine congrArg Host.Outcome.next ((if_neg (by omega)).trans ?_)
      rw [hidle]
      rfl
    obtain ⟨ho, hi⟩ := State.busShown_rd (i := i) hw k.isLt (by decide : 0 < 2)
    exact ⟨_, hrun, ho, hi, ⟨rfl, rfl, rfl⟩, rfl, rfl, rfl⟩
  · have hgo : ¬(!s.hub.feed.mainGood || decide (s.hrd bootInstar < 2)) = true := by simp [hgood, Nat.not_lt.2 hinstar]
    have hbit : ∀ b : Bool, b2n b % 2 ^ 1 = b2n b := by decide
    exact ⟨_, congrArg Host.Outcome.next (if_neg hgo), (State.hrd_hwr_same (State.divided_wf hs reads fun t => divide (t.hrd pmgrLimitW - draw.toNat)
      (((List.range 24).filter (fun k => !(t.activeIn k).isEmpty)).map (fun k => (k, (demand.getD k 0).toNat, 10 * (t.activeIn k).length))) 24)
      (by decide)).trans (hbit _)⟩
  · refine ⟨((s.till l.end_).endLoans k.val (fun x => decide (x.end_ ≤ (s.till l.end_).now))), ?_, ?_, ?_, State.endLoans_cells (s := s.till l.end_)⟩
    · refine congrArg Host.Outcome.next ?_
      simp only [hl, List.foldl_nil]
      rfl
    · refine (State.endLoans_loans (s := s.till l.end_) hscpm).trans ?_
      rw [State.till_hub, hl]
      simp
    · rw [State.endLoans_now]
      exact Nat.le_max_right _ _
  · have hn' : s.hub.pinN + 1 < 1000 := by omega
    have hrun : exec (.inputPowerSample p vin) s = .next ((s.hwr pmgrVin vin.toNat).updHub (fun h => { h with
        pinSum := s.hub.pinSum + p.toNat, pinN := s.hub.pinN + 1 })) := by
      refine congrArg Host.Outcome.next ((if_neg (by simp [hgood])).trans ((if_pos hn').trans ?_))
      rw [if_neg (Nat.not_lt.2 hfit)]
    exact ⟨_, hrun, rfl, rfl,
      (State.hrd_hwr_same hw (by decide)).trans (Nat.mod_eq_of_lt vin.isLt), ⟨rfl, rfl, rfl⟩, rfl, rfl, rfl⟩

end Sys2Proof.Machine

/-! PROOFS. Policy packets (O52). -/

namespace Sys2Proof.Machine

variable {s : State} {j : PolicyJob}

/-! ### The checks -/

section
variable (hformed : pktFormed j.pkt j.total = true)
include hformed

theorem State.policyReason_panel (h : pktF j.pkt 8 4 ≠ s.hub.rot.panelTag.toNat) : s.policyReason j = some 2 :=
  (if_neg (by simp [hformed])).trans (if_pos h)

variable (hpanel : pktF j.pkt 8 4 = s.hub.rot.panelTag.toNat)
include hpanel

theorem State.policyReason_counter (h : pktF j.pkt 16 8 ≠ s.hub.rot.counter.toNat + 1) : s.policyReason j = some 3 :=
  (if_neg (by simp [hformed])).trans ((if_neg (by simp [hpanel])).trans (if_pos (.inl h)))

variable (hcounter : pktF j.pkt 16 8 = s.hub.rot.counter.toNat + 1) (hkind : pktKind j.pkt ≠ 1)
include hcounter hkind

/-- A packet but the first binding, past its first three checks. -/
theorem State.policyReason_numbered : s.policyReason j = if decide (¬s.hrd polRolesBound = 1) || decide (pktF j.pkt 32 48 ≠ s.hub.rot.roleSet.toNat) then some 4
    else if pktF j.pkt 80 48 ≠ j.pkt.hash.toNat then some 1
    else if !j.pkt.opOk then some 5
    else if !j.pkt.cuOk then some 6
    else if pktKind j.pkt = 0 ∨ 9 < pktKind j.pkt ∨ pktKind j.pkt = 8 ∧ s.hrd bootImago = 0 then some 7
    else if !s.policyContent j.pkt then some 8
    else if !(s.policyParts j.pkt).all (fun q => s.policyIdle q) then some 9
    else none := by
  refine (if_neg (by simp [hformed])).trans ((if_neg (by simp [hpanel])).trans ((if_neg (by simp [hcounter, hkind])).trans ?_))
  rw [if_neg hkind]

theorem State.policyReason_roles (h : s.hrd polRolesBound ≠ 1 ∨ pktF j.pkt 32 48 ≠ s.hub.rot.roleSet.toNat) : s.policyReason j = some 4 := by
  refine (State.policyReason_numbered hformed hpanel hcounter hkind).trans (if_pos ?_)
  rcases h with h | h <;> simp [h]

variable (hbound : s.hrd polRolesBound = 1) (hroles : pktF j.pkt 32 48 = s.hub.rot.roleSet.toNat) (hhash : pktF j.pkt 80 48 = j.pkt.hash.toNat)
include hbound hroles hhash

theorem State.policyReason_signatures : (j.pkt.opOk = false → s.policyReason j = some 5) ∧ (j.pkt.opOk = true → j.pkt.cuOk = false → s.policyReason j = some 6) := by
  have h := (State.policyReason_numbered hformed hpanel hcounter hkind).trans (if_neg (by simp [hbound, hroles]))
  replace h := h.trans (if_neg (by simp [hhash]))
  exact ⟨fun hop => h.trans (if_pos (by simp [hop])), fun hop hcu => h.trans ((if_neg (by simp [hop])).trans (if_pos (by simp [hcu])))⟩

end

/-! ### The packet at the front -/

section
variable {r : List PolicyJob} {kind : Nat} {act : State → PolicyPkt → State} (hfront : s.hub.rot.pkts = j :: r)
include hfront

theorem State.policyApply_other (h : pktKind j.pkt ≠ kind) : s.policyApply kind act = s := by
  rw [State.policyApply, hfront]
  exact if_pos h

theorem State.policyApply_refused {n : Nat} (hk : pktKind j.pkt = kind) (hn : s.policyReason j = some n) :
    s.policyApply kind act = (s.policyEnd j n).policyPump (r.length + 1) := by
  rw [State.policyApply, hfront]
  refine (if_neg (by simp [hk])).trans ?_
  simp only [hn]

/-- A packet that passes takes the effect of its kind, is counted, measured, recorded and ends OK (R590). -/
theorem State.policyApply_passed {step : State → State} {done : State → Nat → State} (hnone : s.policyReason j = none)
    (hstep : ∀ w : State, step w = (w.updRot (fun r => { r with counter := s.hub.rot.counter + 1 })).hwr polCounterLo ((s.hub.rot.counter + 1).toNat % 2 ^ 32))
    (hdone : ∀ (w : State) k, done w k
      = (((((step w).measure 5 0 (step w).policyWords).bb srcRot 0x0502 0 0x1F0 31 0 (bytesLE 2 k)).policyEnd j 0).policyPump (r.length + 1)))
    (hk : pktKind j.pkt = kind) : s.policyApply kind act = done (act s j.pkt) kind := by
  rw [hdone, hstep, State.policyApply, hfront]
  refine (if_neg (by simp [hk])).trans ?_
  simp only [hnone]

end

/-- What a packet of no command leaves behind (R595). -/
theorem State.policyEnd_noCmd {n : Nat} (hw : Table.wf 0 s.regs = true) (hfrm : j.frm = none) : (s.policyEnd j n).hrd polLastReason = n % 65536
    ∧ (s.policyEnd j n).hrd polLastKind = pktKind j.pkt % 65536 ∧ (s.policyEnd j n).hub.rot.pkts = s.hub.rot.pkts.drop 1 := by
  have hend : s.policyEnd j n = ((s.updRot (fun r => { r with pkts := r.pkts.drop 1 })).hwr polLastReason n).hwr polLastKind (pktKind j.pkt) := by
    simp only [State.policyEnd, hfrm]
  have hw' : Table.wf 0 (s.updRot (fun r => { r with pkts := r.pkts.drop 1 })).regs = true := hw
  rw [hend]
  exact ⟨(State.hrd_hwr_apart (State.hwr_wf hw') (by decide) (by decide) (by decide)).trans (State.hrd_hwr_same hw' (by decide)),
    State.hrd_hwr_same (State.hwr_wf hw') (by decide), rfl⟩

/-- A read of the counter's low half latches its high half (R595). -/
theorem polCounterLoRead_latches (hw : Table.wf 0 s.regs = true) (hgood : s.hub.feed.mainGood = true) :
    Runs .polCounterLoRead s (fun t => t.hrd polCounterHi = s.hub.rot.counter.toNat / 2 ^ 32
      ∧ t.out = s.out ++ [.regRead 264 0x34004 (BitVec.ofNat 32 (s.hubWord 0x34004))] ∧ t = { s with regs := t.regs, out := t.out }) := by
  have hhi : s.hub.rot.counter.toNat / 2 ^ 32 < 2 ^ 32 := by
    have hlt := s.hub.rot.counter.isLt
    omega
  exact ⟨_, congrArg Host.Outcome.next (if_neg (by simp [hgood])), (State.hrd_hwr_same hw (by decide)).trans (Nat.mod_eq_of_lt hhi), rfl, rfl⟩

/-- Settles O52: the checks of a packet answer in their order; the nine commands are one application at the front of the ROT's queue, each with
its own effect. -/
theorem policyPackets : Obligations.PolicyPackets := by
  unfold Obligations.PolicyPackets
  intro s j hs
  have hnext : ∀ {a b : State}, a = b → (Host.Outcome.next a : Result) = .next b := fun h => congrArg _ h
  refine ⟨fun f q tag c hturn => ⟨fun hbm x => ?_, fun hbm => ⟨?_, fun x => ?_⟩⟩, fun hbad => if_pos (by simp [hbad]),
    fun hformed h => State.policyReason_panel hformed h, fun hformed hpanel h => State.policyReason_counter hformed hpanel h,
    fun hformed hpanel hcounter hkind => ⟨fun h => State.policyReason_roles hformed hpanel hcounter hkind h,
      fun hbound hroles hhash => State.policyReason_signatures hformed hpanel hcounter hkind hbound hroles hhash⟩,
    fun r hfront => ⟨fun x hx => ?_, fun step done hnone hstep hdone => ?_⟩, fun n hfrm => State.policyEnd_noCmd hs.regs hfrm,
    fun hgood => polCounterLoRead_latches hs.regs hgood⟩
  · exact hnext ((State.fwRun_of_turn hturn _).trans (if_pos (by simp [hbm])))
  · exact hnext ((State.fwRun_of_turn hturn _).trans (if_neg (by simp [hbm])))
  · exact hnext ((State.fwRun_of_turn hturn _).trans (if_neg (by simp [hbm])))
  · simp only [List.mem_cons, List.not_mem_nil, or_false] at hx
    rcases hx with rfl | rfl | rfl | rfl | rfl | rfl | rfl | rfl | rfl <;>
      exact ⟨fun h => hnext (State.policyApply_other hfront h), fun n hk hn => hnext (State.policyApply_refused hfront hk hn)⟩
  · exact ⟨fun hk => hnext (State.policyApply_passed hfront hnone hstep hdone hk), fun hk => hnext (State.policyApply_passed hfront hnone hstep hdone hk),
      fun hk => hnext (State.policyApply_passed hfront hnone hstep hdone hk), fun hk => hnext (State.policyApply_passed hfront hnone hstep hdone hk),
      fun hk => hnext (State.policyApply_passed hfront hnone hstep hdone hk), fun hk => hnext (State.policyApply_passed hfront hnone hstep hdone hk),
      fun hk => hnext (State.policyApply_passed hfront hnone hstep hdone hk), fun hk => hnext (State.policyApply_passed hfront hnone hstep hdone hk),
      fun hk => hnext (State.policyApply_passed hfront hnone hstep hdone hk)⟩

end Sys2Proof.Machine

/-! PROOFS. Attestation over SPDM and the key protocol (O51). -/

namespace Sys2Proof.Machine

variable {s : State}

/-! ### Requests within a session -/

section
variable {v : SpdmVia} {n code : Nat} {ok : Bool} {act : State → State × List Byte}
variable (hup : s.spdmUp = true) (hopen : (s.sessionsOf v).contains n = true)
include hup hopen

/-- A request of the key protocol that may be answered (R581). -/
theorem State.keyReq_answered (hok : ok = true) : s.keyReq v n code ok act = (act s).1.emit (.mgmt (viaCode v) (code + 0x80) (act s).2) :=
  (if_neg (by rw [hup, hopen]; decide)).trans (if_neg (by rw [hok]; decide))

/-- One that is refused. -/
theorem State.keyReq_refused (hok : ok = false) : s.keyReq v n code ok act = s.emit (.mgmt (viaCode v) 0x100 [BitVec.ofNat 8 code]) :=
  (if_neg (by rw [hup, hopen]; decide)).trans (if_pos (by rw [hok]; rfl))

end

/-! ### Network keys -/

section
variable {p i : Nat} {key : BitVec 256}

/-- A network key of partition `p` written into its store (R583). -/
def State.nkPut (s : State) (p i : Nat) (key : BitVec 256) : State :=
  s.updRot (fun r => { r with owner := r.owner.upd {} p (fun o => { o with nk := o.nk.put 0 i key }) })

theorem State.nkPut_owner (hw : Table.wf {} s.hub.rot.owner = true) :
    (s.nkPut p i key).hub.rot.owner.get {} p = { s.hub.rot.owner.get {} p with nk := (s.hub.rot.owner.get {} p).nk.put 0 i key } :=
  Table.get_upd_same hw p (fun o => { o with nk := o.nk.put 0 i key })

theorem State.nkPut_nk (hw : Table.wf {} s.hub.rot.owner = true) (hnk : Table.wf 0 (s.hub.rot.owner.get {} p).nk = true) :
    ((s.nkPut p i key).hub.rot.owner.get {} p).nk.get 0 i = key := by
  rw [State.nkPut_owner hw]
  exact Table.get_put_same hnk i key

/-- The bit of a key in the mask, set and cleared (R595). -/
theorem bit_mask_set (w : W32) (hi : i < 16) : bit (setBit w (3 + i)) (3 + i) = true := by
  rw [bit_setBit (by omega)]
  simp

theorem bit_mask_clr (w : W32) : bit (clrBit w (3 + i)) (3 + i) = false := by
  rw [bit_clrBit]
  simp

/-- A word of the hub leaves the connections that a partition holds. -/
theorem State.connsOf_hubWord {q o : Nat} {w : W32} {g : Rot → Rot} (hq : q < 4) (ho : o < 2 ^ 24) : ((s.updRot g).setReg 264 o w).connsOf q p = s.connsOf q p := by
  have hrd : ∀ f : Fd, ((s.updRot g).setReg 264 o w).rd (265 + q) f = s.rd (265 + q) f := by
    intro f
    unfold State.rd
    rw [State.reg_setReg_ne (by omega)]
    rfl
  unfold State.connsOf
  simp only [hrd]
  rfl

end

/-! ### Owners -/

section
variable {p : Nat}

/-- The measurement of a partition is taken in the ROT alone. -/
theorem State.measurePart_only : s.measurePart p = { s with hub := { s.hub with rot := { s.hub.rot with meas := (s.measurePart p).hub.rot.meas } } } := by
  unfold State.measurePart
  split <;> rfl

/-- A partition whose owner is bound and measured (R577, R582). -/
theorem State.ownerBound_rd {o : Owner} (hs : Canon s) (hw : Table.wf {} s.hub.rot.owner = true) :
    let t := (((s.updRot (fun r => { r with owner := r.owner.put {} p o })).hwr (spOwned p) 1).measurePart p).drawn
    (p < 24 → t.hrd (spOwned p) = 1) ∧ t.hub.rot.owner.get {} p = o ∧ t.out = s.out ∧ SameCells s t ∧ SameEdges s t := by
  intro t
  have ht : t = (((s.updRot (fun r => { r with owner := r.owner.put {} p o })).hwr (spOwned p) 1).measurePart p).drawn := rfl
  rw [State.measurePart_only] at ht
  generalize (((s.updRot (fun r => { r with owner := r.owner.put {} p o })).hwr (spOwned p) 1).measurePart p).hub.rot.meas = m at ht
  clear_value t
  subst ht
  refine ⟨fun hp => ?_, Table.get_put_same hw p o, rfl, ⟨rfl, rfl, rfl⟩, rfl, rfl, rfl⟩
  exact State.hrd_hwr_same (s := s.updRot (fun r => { r with owner := r.owner.put {} p o })) hs.regs (Fd.ok_of (by decide) (by decide) (by omega))

end

/-! ### What the responder selects -/

/-- The algorithms that the panel selects where it is offered the one of each use (R580). -/
theorem algos_picked {sg hs ka ae : List Algo} (h1 : sg.contains .ecdsaP384 = true) (h2 : hs.contains .sha384 = true) (h3 : ka.contains .ecdhP384 = true)
    (h4 : ae.contains .aes256Gcm = true) : [AlgoUse.signature.pick sg, AlgoUse.hash.pick hs, AlgoUse.agreement.pick ka, AlgoUse.authenticated.pick ae] = [3, 1, 4, 7] := by
  simp only [AlgoUse.pick, AlgoUse.algo, h1, h2, h3, h4, if_true]
  rfl

theorem AlgoUse.pick_missing (u : AlgoUse) {offered : List Algo} (h : offered.contains u.algo = false) : u.pick offered = 0 :=
  if_neg (by rw [h]; exact Bool.false_ne_true)

theorem algos_missing {sg hs ka ae : List Algo} (h : sg.contains .ecdsaP384 = false ∨ hs.contains .sha384 = false ∨ ka.contains .ecdhP384 = false
    ∨ ae.contains .aes256Gcm = false) :
    [AlgoUse.signature.pick sg, AlgoUse.hash.pick hs, AlgoUse.agreement.pick ka, AlgoUse.authenticated.pick ae].contains 0 = true := by
  rw [List.contains_iff_mem]
  rcases h with h | h | h | h
  · simp [AlgoUse.pick_missing .signature h]
  · simp [AlgoUse.pick_missing .hash h]
  · simp [AlgoUse.pick_missing .agreement h]
  · simp [AlgoUse.pick_missing .authenticated h]

/-! ### What a session's requests leave -/

section
variable {p i : Nat}

/-- A network key taken out of the store and of the mask (R583, R595). -/
def State.nkCleared (s : State) (p i : Nat) : State :=
  (s.nkPut p i 0).setReg 264 (spNkMask p).off (clrBit (s.reg 264 (spNkMask p).off) (3 + i))

/-- The connections of a port die that use a network key go to ERROR (R583). -/
def State.nkErrors (s : State) (p i q : Nat) : State :=
  ((s.connsOf q p).filter (fun c => decide (((s.port q).conns.get {} c).nk = i))).foldl (fun s c => s.connError q c 0 0) s

theorem execNkClear_eq {v : SpdmVia} {n : Fin 4} {p : PartNo} {i : Fin 16} {m : Bool} : execNkClear v n p i m s = .next (s.keyReq v n.val 0x05 (s.nkAllowed v p.val m)
    (fun s => ([1, 2, 3].foldl (fun s q => s.nkErrors p.val i.val q) (s.nkCleared p.val i.val), []))) := rfl

theorem State.nkErrors_none (h : ∀ q, q = 1 ∨ q = 2 ∨ q = 3 → s.connsOf q p = []) : [1, 2, 3].foldl (fun s q => s.nkErrors p i q) s = s := by
  have hkept : ∀ q, q = 1 ∨ q = 2 ∨ q = 3 → s.nkErrors p i q = s := fun q hq => by simp [State.nkErrors, h q hq]
  simp only [List.foldl_cons, List.foldl_nil, hkept 1 (.inl rfl), hkept 2 (.inr (.inl rfl)), hkept 3 (.inr (.inr rfl))]

end

section
variable {v : SpdmVia} {n : Fin 4} {p : PartNo} {m w : Bool} {i : Fin 16} {k : BitVec 256}
variable (hs : Canon s) (hup : s.spdmUp = true) (hopen : (s.sessionsOf v).contains n.val = true) (hown : Table.wf {} s.hub.rot.owner = true)
variable (hallow : s.nkAllowed v p.val m = true) (hnk : Table.wf 0 (s.hub.rot.owner.get {} p.val).nk = true)
include hs hup hopen hown hallow hnk

/-- A network key set enters the store and shows in the mask (R581, R583, R595). -/
theorem nkSet_stores (hwrap : s.confPart p.val = false ∨ w = true) : Runs (.nkSet v n p i k m w) s (fun t : State =>
    (t.hub.rot.owner.get {} p.val).nk.get 0 i.val = k ∧ bit (t.reg 264 (spNkMask p.val).off) (3 + i.val) = true
      ∧ t.out = s.out ++ [.mgmt (viaCode v) 0x84 []] ∧ SameCells s t ∧ SameEdges s t) := by
  have hok : (s.nkAllowed v p.val m && (!s.confPart p.val || w)) = true := by
    rcases hwrap with h | h <;> simp [hallow, h]
  have hmask : ∀ (u : State) (x : W32), Table.wf 0 u.regs = true → bit ((u.setReg 264 (spNkMask p.val).off (setBit x (3 + i.val))).reg 264 (spNkMask p.val).off)
      (3 + i.val) = true := fun u x hw => by rw [State.reg_setReg_same hw, bit_mask_set x i.isLt]
  exact ⟨_, congrArg Host.Outcome.next (State.keyReq_answered hup hopen hok), State.nkPut_nk hown hnk, hmask (s.nkPut p.val i.val k) _ hs.regs, rfl,
    ⟨rfl, rfl, rfl⟩, rfl, rfl, rfl⟩

/-- A network key cleared leaves the store and the mask (R581, R583, R595). -/
theorem nkClear_clears (hconns : ∀ q, q = 1 ∨ q = 2 ∨ q = 3 → s.connsOf q p.val = []) : Runs (.nkClear v n p i m) s (fun t : State =>
    (t.hub.rot.owner.get {} p.val).nk.get 0 i.val = 0 ∧ bit (t.reg 264 (spNkMask p.val).off) (3 + i.val) = false
      ∧ t.out = s.out ++ [.mgmt (viaCode v) 0x85 []] ∧ SameCells s t ∧ SameEdges s t) := by
  have hmask : ∀ (u : State) (x : W32), Table.wf 0 u.regs = true → bit ((u.setReg 264 (spNkMask p.val).off (clrBit x (3 + i.val))).reg 264 (spNkMask p.val).off)
      (3 + i.val) = false := fun u x hw => by rw [State.reg_setReg_same hw, bit_mask_clr x]
  have hnone : ∀ q, q = 1 ∨ q = 2 ∨ q = 3 → (s.nkCleared p.val i.val).connsOf q p.val = [] := fun q hq =>
    (State.connsOf_hubWord (by omega) (by simp only [spNkMask]; omega)).trans (hconns q hq)
  have hrun := State.keyReq_answered (code := 0x05) (act := fun s => ([1, 2, 3].foldl (fun s q => s.nkErrors p.val i.val q) (s.nkCleared p.val i.val), []))
    hup hopen hallow
  dsimp only at hrun
  rw [State.nkErrors_none hnone] at hrun
  exact ⟨_, execNkClear_eq.trans (congrArg Host.Outcome.next hrun), State.nkPut_nk hown hnk, hmask (s.nkPut p.val i.val 0) _ hs.regs, rfl, ⟨rfl, rfl, rfl⟩, rfl, rfl, rfl⟩

end

/-- A fresh encapsulation key drawn for partition `p`, by session `k` of its function (R581). -/
def State.kemDrawn (s : State) (p k : Nat) : State :=
  s.drawKey.1.updRot (fun r => { r with owner := r.owner.upd {} p (fun o => { o with kemOut := some k, kemKey := s.drawKey.2 }) })

theorem execKemGet_eq {f : Fin 50} {n : Fin 4} : execKemGet f n s = .next (s.keyReq (.doe f) n.val 0x02
    (s.confVf f.val && !(s.hub.rot.owner.get {} (s.fnPartOf f.val)).bound) (fun s' => (s'.kemDrawn (s.fnPartOf f.val) (4 * f.val + n.val), []))) := rfl

/-- A free partition's owner is not in the way of a bind. -/
theorem not_ownerBusy {f : Fin 50} {n : Fin 4} (hfree : (s.hub.rot.owner.get {} (s.fnPartOf f.val)).bound = false) :
    ¬(s.spdmUp && (s.sessionsOf (.doe f)).contains n.val && s.confVf f.val && (s.hub.rot.owner.get {} (s.fnPartOf f.val)).bound) = true := by
  rw [hfree, Bool.and_false]
  exact Bool.false_ne_true

section
variable {f : Fin 50} {n : Fin 4} {id : BitVec 384} {ct : List Byte}
variable (hup : s.spdmUp = true) (hopen : (s.sessionsOf (.doe f)).contains n.val = true) (hconf : s.confVf f.val = true)
include hup hopen hconf

/-- A VF of a confidential partition without an owner draws an encapsulation key for its session (R581). -/
theorem kemGet_draws (hown : Table.wf {} s.hub.rot.owner = true) (hfree : (s.hub.rot.owner.get {} (s.fnPartOf f.val)).bound = false) :
    Runs (.kemGet f n) s (fun t : State => t.hub.rot.owner.get {} (s.fnPartOf f.val)
        = { s.hub.rot.owner.get {} (s.fnPartOf f.val) with kemOut := some (4 * f.val + n.val), kemKey := s.hub.rot.keyGen + 1 }
      ∧ t.out = s.out ++ [.mgmt f.val 0x82 []] ∧ t.regs = s.regs ∧ SameCells s t ∧ SameEdges s t) := by
  have hok : (s.confVf f.val && !(s.hub.rot.owner.get {} (s.fnPartOf f.val)).bound) = true := by
    rw [hconf, hfree]
    rfl
  have hrun := State.keyReq_answered (code := 0x02) (act := fun s' => (s'.kemDrawn (s.fnPartOf f.val) (4 * f.val + n.val), [])) hup hopen hok
  dsimp only at hrun
  refine ⟨_, execKemGet_eq.trans (congrArg Host.Outcome.next hrun), ?_, rfl, rfl, ⟨rfl, rfl, rfl⟩, rfl, rfl, rfl⟩
  exact Table.get_upd_same hown (s.fnPartOf f.val) (fun o => { o with kemOut := some (4 * f.val + n.val), kemKey := s.hub.rot.keyGen + 1 })

/-- A partition that has its owner answers OWNER_BUSY (R581). -/
theorem ownerBind_busy (hbound : (s.hub.rot.owner.get {} (s.fnPartOf f.val)).bound = true) : execOwnerBind f n id ct s = .next (s.emit (.mgmt f.val 0x101 [])) :=
  congrArg Host.Outcome.next (if_pos (by rw [hup, hopen, hconf, hbound]; rfl))

section
variable (hfree : (s.hub.rot.owner.get {} (s.fnPartOf f.val)).bound = false)
include hfree

/-- Only the session that drew the encapsulation key binds (R581). -/
theorem ownerBind_refused (hkem : (s.hub.rot.owner.get {} (s.fnPartOf f.val)).kemOut ≠ some (4 * f.val + n.val)) :
    execOwnerBind f n id ct s = .next (s.emit (.mgmt f.val 0x100 [3])) :=
  congrArg Host.Outcome.next ((if_neg (not_ownerBusy hfree)).trans
    (State.keyReq_refused hup hopen (by rw [hconf, decide_eq_false hkem]; rfl)))

/-- The owner is bound, and the answer proves its request key (R582). -/
theorem ownerBind_binds (hs : Canon s) (hown : Table.wf {} s.hub.rot.owner = true)
    (hkem : (s.hub.rot.owner.get {} (s.fnPartOf f.val)).kemOut = some (4 * f.val + n.val)) :
    Runs (.ownerBind f n id ct) s (fun t : State => t.hub.rot.owner.get {} (s.fnPartOf f.val) = { s.hub.rot.owner.get {} (s.fnPartOf f.val) with
        bound := true, id := id, kemOut := none, kemKey := 0, pmk := s.pmkOf (s.fnPartOf f.val) ct }
      ∧ t.hrd (spOwned (s.fnPartOf f.val)) = 1 ∧ t.out = s.out ++ [.mgmt f.val 0x83 (Config.hmac384 (t.hub.rot.owner.get {} (s.fnPartOf f.val)).ka
        ((List.range 48).map (fun i => Config.freeByte s.freeCtr (48 + i))))] ∧ SameCells s t ∧ SameEdges s t) := by
  have hp : s.fnPartOf f.val < 24 := by
    simp only [State.confVf, State.confPart, Bool.and_eq_true, decide_eq_true_eq] at hconf
    exact hconf.1.2.1
  obtain ⟨howned, howner, hout, hcells, hedges⟩ := State.ownerBound_rd (s := s) (p := s.fnPartOf f.val)
    (o := { s.hub.rot.owner.get {} (s.fnPartOf f.val) with bound := true, id := id, kemOut := none, kemKey := 0, pmk := s.pmkOf (s.fnPartOf f.val) ct }) hs hown
  refine ⟨_, congrArg Host.Outcome.next ((if_neg (not_ownerBusy hfree)).trans
    (State.keyReq_answered hup hopen (by rw [hconf, decide_eq_true hkem]; rfl))), ?_⟩
  exact ⟨howner, howned hp, (congrArg (· ++ [_]) hout).trans (congrArg (fun o : Owner => s.out ++ [Out.mgmt f.val 0x83 (Config.hmac384 o.ka
    ((List.range 48).map (fun i => Config.freeByte s.freeCtr (48 + i))))]) howner.symm), hcells, hedges⟩

end

end

/-- Settles O51: each answer of the responder is the branch that the request picks; within a session a request is answered or refused, and what
it leaves of owners and their keys is read off the owner's table. -/
theorem attestationAndTheKeyProtocol : Obligations.AttestationAndTheKeyProtocol := by
  unfold Obligations.AttestationAndTheKeyProtocol
  intro s v f n p hs hup hown
  have hnext : ∀ {a b : State}, a = b → (Host.Outcome.next a : Result) = .next b := fun h => congrArg _ h
  have hno : ¬(!s.spdmUp) = true := by simp [hup]
  refine ⟨fun l hl => hnext ((if_neg hno).trans (if_pos hl)), hnext ((if_neg hno).trans (if_pos (.inl rfl))),
    fun i h6 hsees => hnext ((if_neg hno).trans (if_pos (.inr ⟨h6, by simp [hsees]⟩))), fun i h0 hsees => ?_, fun sg hh ka ae => ⟨?_, ?_⟩,
    fun j k op => hnext (if_neg hno), fun i hfree => ?_, fun hfull => ?_, fun hopen => ?_, fun hopen hconf => ?_⟩
  · have hrec : ¬(i.val = 0 ∨ 6 ≤ i.val ∧ (!s.viaSees v p.val) = true) := by
      rintro (h | ⟨h6, hno⟩)
      · exact h0 h
      · rcases hsees with h | h
        · omega
        · simp [h] at hno
    refine ⟨fun m hm => hnext ((if_neg hno).trans ((if_neg hrec).trans ?_)), fun hm => hnext ((if_neg hno).trans ((if_neg hrec).trans ?_))⟩
    · simp only [hm]
      rfl
    · simp only [hm]
      rfl
  · intro h1 h2 h3 h4
    refine hnext ((if_neg hno).trans ?_)
    simp only [algos_picked h1 h2 h3 h4]
    rfl
  · intro h
    refine hnext ((if_neg hno).trans ?_)
    simp only [algos_missing h]
    rfl
  · refine hnext ((if_neg hno).trans ?_)
    simp only [hfree, if_true]
    rfl
  · refine hnext ((if_neg hno).trans ?_)
    simp only [hfull]
    rfl
  · refine ⟨fun x => hnext (State.keyReq_answered hup hopen rfl), fun i k m w => ⟨fun hallow hconf hw => ?_, fun hallow => ⟨?_, ?_⟩,
        fun hallow hwrap hnk => nkSet_stores hs hup hopen hown hallow hnk hwrap⟩,
      fun i m hallow hconns hnk => nkClear_clears hs hup hopen hown hallow hnk hconns, fun m hconf hallow => ?_, fun m hconf => ?_, fun hsees => ?_, fun k hvia => ⟨fun hsealed => ?_, fun hunsealed => ?_⟩⟩
    · exact hnext (State.keyReq_refused hup hopen (by simp [hallow, hconf, hw]))
    · exact hnext (State.keyReq_refused hup hopen (by simp [hallow]))
    · exact hnext (State.keyReq_refused hup hopen hallow)
    · exact hnext (State.keyReq_answered hup hopen (by simp [hallow, hconf]))
    · exact hnext (State.keyReq_refused hup hopen (by simp [hconf]))
    · refine hnext (State.keyReq_answered hup hopen ?_)
      rcases hsees with rfl | hsees
      · rfl
      · cases v with
        | mctp => rfl
        | doe g => exact hsees
    · exact hnext (State.keyReq_refused hup hopen (by simp [hsealed]))
    · refine hnext (State.keyReq_answered hup hopen ?_)
      rcases hvia with rfl | rfl <;> simp [hunsealed, isPf]
  · exact ⟨kemGet_draws hup hopen hconf hown, fun id ct => ownerBind_busy hup hopen hconf, fun id ct => ownerBind_refused hup hopen hconf,
      fun id ct hfree => ownerBind_binds hup hopen hconf hfree hs hown⟩

end Sys2Proof.Machine

/-! PROOFS. References, droops, eyespots and the time base (O43). -/

namespace Sys2Proof.Machine

variable {s : State}

/-! ### Droops and eyespots -/

theorem State.stretch_only {n t k : Nat} {going : Bool} : s.stretch n t k going = { s with regs := (s.stretch n t k going).regs } := rfl

/-- The stretched periods of a tile are counted up to the field's maximum, and the tile shows whether it is stretching (R539, R554). -/
theorem State.stretch_rd {n t k : Nat} {going : Bool} (hs : Canon s) (ht : t < 17) :
    (s.stretch n t k going).rd n (aclkStretchCnt t) = min 0xFFFFFFFF (s.rd n (aclkStretchCnt t) + k)
      ∧ (s.stretch n t k going).rd n (aclkStretching t) = b2n going := by
  have hcnt : (aclkStretchCnt t).ok = true := Fd.ok_of (by decide) (by decide) (by omega)
  have hing : (aclkStretching t).ok = true := Fd.ok_of (by decide) (by decide) (by omega)
  have hapart : (aclkStretching t).apart (aclkStretchCnt t) = true := by
    simp [Fd.apart, aclkStretching, aclkStretchCnt]
  refine ⟨?_, (State.rd_wr_same (State.wr_wf hs.regs) hing).trans ?_⟩
  · refine (State.rd_wr_apart (State.wr_wf hs.regs) hing hcnt hapart).trans ((State.rd_wr_same hs.regs hcnt).trans ?_)
    simp only [aclkStretchCnt]
    omega
  · cases going <;> rfl

/-- An eyespot that neither warns nor is critical (R539-R543). -/
theorem eyespotReport_calm {d : DieNo} {e : Fin 17} {code : BitVec 4} {k : W16} (hpow : s.power d.val = 3) (hw : s.rd d.val eyeWarnTh ≤ code.toNat)
    (hc : s.rd d.val eyeCritTh ≤ code.toNat) : execEyespotReport ⟨d.val, by omega⟩ ⟨e.val, by omega⟩ code k s
      = .next (((((((s.wr d.val (eyeMargin e.val) code.toNat).wr d.val (eyeWarnF e.val) 0).stretch d.val e.val k.toNat false).trimStep d.val false).eyeStep d.val
        e.val false).setClocks d.val).critTimer d.val e.val false) := by
  have hd := d.isLt
  have he := e.isLt
  have hwarn : decide (code.toNat < s.rd d.val eyeWarnTh) = false := decide_eq_false (by omega)
  have hcrit : decide (code.toNat < s.rd d.val eyeCritTh) = false := decide_eq_false (by omega)
  refine congrArg Host.Outcome.next ((if_neg (by simp only [hpow]; omega)).trans ((if_neg (Nat.ne_of_lt he)).trans ((if_neg (Nat.not_le.2 hd)).trans ?_)))
  simp only [hwarn, hcrit]
  rfl

/-! ### Pulses -/

/-- A node taken off the list of a pulse's receivers is not on it. -/
theorem not_contains_filter_ne (l : List Nat) (n : Nat) : (l.filter (· != n)).contains n = false := by
  rw [← Bool.not_eq_true, List.contains_iff_mem]
  simp

/-- A copy taken off a pulse, with the drift that it keeps (R550). -/
def State.pulseTaken (s : State) (n : Nat) (v : Int) : State :=
  s.updHub (fun h => { h with tb := { h.tb with diff := h.tb.diff.put 0 n v, pulse := h.tb.pulse.filter (· != n) } })

/-- What the arrival of a pulse at an awaiting copy does, by the copy's difference: none, one count, or more. -/
theorem tbPulseArrival_aligned {n : NodeNo} {v : Int} (hp : s.hub.tb.pulse.contains n.val = true) (hd : s.hub.tb.diff.get 0 n.val + v = 0) :
    execTbPulseArrival n v s = .next (s.pulseTaken n.val 0) :=
  congrArg Host.Outcome.next ((if_neg (by rw [hp]; decide)).trans (if_pos hd))

theorem tbPulseArrival_lost {n : NodeNo} {v : Int} (hp : s.hub.tb.pulse.contains n.val = true) (hd : 1 < (s.hub.tb.diff.get 0 n.val + v).natAbs) :
    execTbPulseArrival n v s = .next (s.copyLost n.val) :=
  congrArg Host.Outcome.next ((if_neg (by rw [hp]; decide)).trans ((if_neg (by omega)).trans (if_pos hd)))

theorem tbPulseArrival_corrected {n : NodeNo} {v : Int} (hp : s.hub.tb.pulse.contains n.val = true) (hd : (s.hub.tb.diff.get 0 n.val + v).natAbs = 1)
    (hidle : (s.node n.val).xbusy = false) :
    execTbPulseArrival n v s = .next (((s.pulseTaken n.val 0).inc n.val tbCorrCnt).inc 264 tbmCorrTotal) :=
  congrArg Host.Outcome.next ((if_neg (by rw [hp]; decide)).trans ((if_neg (by omega)).trans ((if_neg (by omega)).trans (if_neg (by rw [hidle]; decide)))))

/-- Settles O43: each command is the branch that its case picks; what is counted and stamped is read back from the field that was written. -/
theorem referencesEyespotsAndTheTimeBase : Obligations.ReferencesEyespotsAndTheTimeBase := by
  unfold Obligations.ReferencesEyespotsAndTheTimeBase
  intro s hs
  have hnext : ∀ {a b : State}, a = b → (Host.Outcome.next a : Result) = .next b := fun h => congrArg _ h
  refine ⟨fun hmain hsel hhold => hnext ((if_neg (by simp [hmain])).trans (if_pos ⟨hsel, hhold⟩)), fun hmain hsel => hnext ((if_neg (by simp [hmain])).trans (if_neg (hsel ·.1))),
    fun e q u hup hu => ?_, fun n hn hpow => hnext ((if_neg hn).trans (if_neg (not_not.2 hpow))), fun d t k hpow => ?_, fun n code k hn hpow => ?_,
    fun d e code k hpow hw hc => eyespotReport_calm hpow hw hc, fun a ha => ?_, fun n hp => ⟨fun hd => ?_, fun hd hidle hwf => ?_, fun v hv => tbPulseArrival_lost hp hv⟩,
    fun n hn hsync => hnext (if_neg (by rw [hsync]; simp [hn])), fun a o d ha hdisc => ?_, fun n hn hpow => ?_, fun hmain => hnext (if_neg (by rw [hmain]; decide)), fun v hup => ?_⟩
  · subst hu
    exact hnext (if_neg (by simp [hup]))
  · obtain ⟨hcnt, hing⟩ := State.stretch_rd (n := d.val) (k := k.toNat) (going := false) hs t.isLt
    exact ⟨_, hnext (if_neg (not_not.2 hpow)), hcnt, hing, State.stretch_only⟩
  · refine ⟨_, hnext ((if_neg (by omega)).trans ((if_pos rfl).trans (if_pos (by omega)))), ?_, rfl⟩
    exact (State.rd_wr_same hs.regs (by decide)).trans (Nat.mod_eq_of_lt code.isLt)
  · exact ⟨_, hnext (if_neg (by simp [ha])), rfl, rfl, rfl, rfl, ⟨rfl, rfl, rfl⟩, ⟨rfl, rfl, rfl⟩, rfl⟩
  · exact ⟨_, tbPulseArrival_aligned hp (by rw [hd]; rfl), not_contains_filter_ne _ _, ⟨rfl, rfl, rfl⟩, rfl⟩
  · exact ⟨_, tbPulseArrival_corrected hp (by rw [hd]; rfl) hidle, not_contains_filter_ne _ _, Table.get_put_same hwf n.val 0, ⟨rfl, rfl, rfl⟩, rfl, rfl, rfl⟩
  · refine ⟨_, hnext ((if_neg (by simp [ha])).trans (if_neg (by simp [hdisc]))), rfl, rfl, ?_, ⟨rfl, rfl, rfl⟩, rfl, rfl, rfl⟩
    exact (State.hrd_hwr_same hs.regs (by decide)).trans (Nat.mod_eq_of_lt (Nat.mod_lt _ (by decide)))
  · refine hnext ((if_neg (by omega)).trans ?_)
    rw [if_pos hn]
  · exact ⟨_, hnext (if_neg (by simp [hup])), State.hrd_hwr_same hs.regs (by decide), rfl, rfl, ⟨rfl, rfl, rfl⟩, rfl, rfl, rfl⟩

end Sys2Proof.Machine

/-! PROOFS. Flow, temperature, hot spots and the hard trip (O44). -/

namespace Sys2Proof.Machine

variable {s : State}

/-! ### The tray's readings -/

section
variable {flow status seq : W16}

/-- The two low bits of the coolant monitor's status, both clear. -/
theorem status_flags (h : status.toNat % 4 = 0) : status.getLsbD 0 = false ∧ status.getLsbD 1 = false := by
  simp only [BitVec.getLsbD, Nat.testBit_eq_decide_div_mod_eq]
  exact ⟨decide_eq_false (by omega), decide_eq_false (by omega)⟩

/-- A fresh flow sample in its range is not discarded (R559). -/
theorem flow_sample_good {c : Cool} (hseq : c.seq ≠ some seq) (hst : status.toNat % 4 = 0) (hflow : flow.toNat ≤ 6000) :
    (c.seq == some seq || status.getLsbD 1 || decide (6000 < flow.toNat)) = false := by
  rw [beq_false_of_ne hseq, (status_flags hst).2, decide_eq_false (by omega)]
  rfl

end

/-- A fresh flow sample joins the last, with the monitor's flags of it (R559, R560). -/
theorem coolantFlowRead_good {flow status seq : W16} (hmain : s.hub.feed.mainGood = true) (hseq : s.hub.cool.seq ≠ some seq) (hst : status.toNat % 4 = 0)
    (hlo : 600 ≤ flow.toNat) (hhi : flow.toNat ≤ 6000) :
    Runs (.coolantFlowRead (some (flow, status, seq))) s (fun t => t = { s with hub := { s.hub with cool := { s.hub.cool with
      seq := some seq, failed := false, sensor := false, bad := 0, low := 0, backSince := t.hub.cool.backSince
      flows := s.hub.cool.flows.filter (fun x => decide (s.now < x.1 + 10000000)) ++ [(s.now, flow.toNat)] } } }) := by
  obtain ⟨hfailed, hsensor⟩ := status_flags hst
  have hgood := ne_true_of_eq_false (flow_sample_good hseq hst hhi)
  refine ⟨_, congrArg Host.Outcome.next ((if_neg (by rw [hmain]; decide)).trans ((if_neg hgood).trans ((if_neg ?_).trans (if_neg ?_)))), ?_⟩
  · rw [if_neg (Nat.not_lt.2 hlo)]
    decide
  · exact ne_true_of_eq_false hfailed
  · simp only [hfailed, hsensor, if_neg (Nat.not_lt.2 hlo)]
    rfl

/-! ### The budget -/

/-- The throttled output is at most what the inlet allows (R557). -/
theorem pTherm_le_pInlet {sum n g : Nat} {tp t : Int} : pTherm sum n tp t g ≤ pInlet tp := by
  refine (Nat.min_le_left _ _).trans (Nat.div_le_of_le_mul ?_)
  exact (Nat.mul_le_mul_left _ (Nat.min_le_right _ _)).trans (Nat.mul_comm _ _).le

theorem pInlet_cool {t : Int} (h : t ≤ 4500) : pInlet t = 15500 := if_pos h

theorem pInlet_hot {t : Int} (h : 5500 < t) : pInlet t = 4000 := (if_neg (by omega)).trans (if_neg (by omega))

/-! ### Recovery -/

/-- The throttle marks of cool hot spots of a die-cell without tiles, cleared (R565). -/
def State.marksCleared (s : State) (n : Nat) : State :=
  (List.range (hotSpots n)).foldl (fun s h => if s.hotCool (s.hotAt n h) then s.wr n (hotFd n (hsThrottle h)) 0 else s) s

theorem State.marksCleared_frame {β : Type} {n : Nat} (g : State → β) (hg : ∀ (u : State) (h : Nat), g (u.wr n (hotFd n (hsThrottle h)) 0) = g u) :
    g (s.marksCleared n) = g s :=
  foldl_frame g (fun u h => by split; exacts [hg u h, rfl]) _ _

theorem throttleRecoveryStep_outer {n : NodeNo} (hn : 240 ≤ n.val) (hpow : s.power n.val ≠ 0) :
    execThrottleRecoveryStep n s = .next (s.marksCleared n.val) := by
  have hclocks : ∀ u : State, u.setClocks n.val = u := fun u => if_pos (.inl hn)
  simp only [execThrottleRecoveryStep, if_neg hpow, if_pos hn, Bool.true_and, hclocks]
  rfl

/-! ### Flow stops -/

/-- A running partition is forced to halt 20 ms after the flow stop (R568). -/
theorem flowStopForcedHalt_running {p : PartNo} (hstop : s.hrd thmFlowStop = 1) (hmolt : (s.hub.molt.get {} p.val).ldies = [])
    (hrun : (s.part p.val).sch.state = .running) : execFlowStopForcedHalt p s
      = .next ((((((s.till (s.hub.cool.stopAt + 20000000)).mapTiles (s.partTiles p.val) (fun _ x => { x with
        seq := { x.seq with en := false, st := .stopped, hold := .none } })).haltNow p.val 1).updPart p.val (fun x => { x with
        wbs := { x.wbs with wb := none, cAt := none, replayDue := false, withheld := false, forced := true } })).hwr thmForced 1)) := by
  refine congrArg Host.Outcome.next ((if_neg (by rw [hstop, hmolt]; decide)).trans ?_)
  simp only [hrun]
  rfl

/-- The end of a flow stop (R569). -/
theorem flowStopEnd_ends {a : Nat} {u : State} (hback : s.hub.cool.backSince = some a) (hstop : s.hrd thmFlowStop = 1) (hok : s.hub.cool.failed = false)
    (hu : u = ((s.till (a + 1000000000)).hwr thmFlowStop 0).setLimit ((s.till (a + 1000000000)).hwr thmFlowStop 0).limitNow false) :
    execFlowStopEnd true s = .next ((List.range 240).foldl (fun s n => s.setClocks n) (if u.hrd pmgrDerate = 1 then u.event 6 0 31 false else u)) := by
  subst hu
  have hno : ¬(s.hrd thmFlowStop = 0 ∨ s.hub.cool.failed = true ∨ (!true) = true) := by rw [hstop, hok]; decide
  simp only [execFlowStopEnd, hback]
  exact congrArg Host.Outcome.next (if_neg hno)

/-! ### The hard trip -/

/-- Power goes off but for standby, with some words kept; the trip shows, and goes out (R571). -/
def State.trippedOff (s : State) (r : Table W32) : State :=
  ((({ s.cold true with regs := r } : State).updHub (fun h => { h with feed := { h.feed with tripped := true } })).emit .thermtrip).emit (.pldmEvent 0x42)

theorem State.trippedOff_tile {r : Table W32} {k : Nat} : ((s.trippedOff r).tile k).seq.st ≠ .run := by
  have htiles : (s.trippedOff r).tiles = [] := State.cold_units.1
  unfold State.tile
  rw [htiles]
  exact SeqState.noConfusion

theorem hardTrip_trips {a : TripAt} (hmain : s.hub.feed.mainGood = true) : ∃ (u : State) (r : Table W32), execHardTrip a s = .next (u.trippedOff r) :=
  ⟨_, _, congrArg Host.Outcome.next (if_neg (by rw [hmain]; decide))⟩

/-- Settles O44: each reading, declaration and step is the branch that its case picks. -/
theorem coolingAndHeat : Obligations.CoolingAndHeat := by
  unfold Obligations.CoolingAndHeat
  intro s hs hmain
  have hnext : ∀ {a b : State}, a = b → (Host.Outcome.next a : Result) = .next b := fun h => congrArg _ h
  have hon : ¬(!s.hub.feed.mainGood) = true := by simp [hmain]
  refine ⟨fun flow status seq hseq hst hlo hhi => ?_, fun hbad hok => ?_, fun a hsens hlo hhi => ?_, hnext (if_pos hmain), fun c hstop => if_pos hstop,
    fun p hstop hmolt hrun => flowStopForcedHalt_running hstop hmolt hrun, fun a u hback hstop hok hu => flowStopEnd_ends hback hstop hok hu,
    fun xs tp u v hxs htp hu hv => ?_, fun sum n t g _ => ⟨pTherm_le_pInlet, pInlet_cool, pInlet_hot⟩, fun n hpow => ?_,
    fun a b m => ⟨rfl, rfl, rfl, rfl⟩, fun n hpow => hnext (if_pos hpow), fun n hn hpow => ?_, fun n t => rfl, fun a => ?_⟩
  · obtain ⟨t, hrun, ht⟩ := coolantFlowRead_good hmain hseq hst hlo hhi
    rw [ht] at hrun
    exact ⟨_, hrun, rfl, rfl, rfl, rfl, rfl, ⟨rfl, rfl, rfl⟩, ⟨rfl, rfl, rfl⟩, rfl⟩
  · refine ⟨_, hnext ((if_neg hon).trans ((if_pos rfl).trans ((if_neg (ne_true_of_eq_false hok)).trans (if_neg ?_)))), rfl, rfl, ⟨rfl, rfl, rfl⟩, ⟨rfl, rfl, rfl⟩, rfl⟩
    omega
  · have hok : coolOk s.hub.cool (some a) = true := by simp [coolOk, hsens, hlo, hhi]
    refine ⟨_, hnext ((if_neg hon).trans (if_pos hok)), ?_, State.hrd_hwr_same (State.wr_wf hs.regs) (by decide), rfl, ⟨rfl, rfl, rfl⟩, rfl, rfl, rfl⟩
    exact (State.hrd_hwr_apart (State.wr_wf hs.regs) (by decide) (by decide) (by decide)).trans ((State.hrd_hwr_same hs.regs (by decide)).trans
      (Nat.mod_eq_of_lt a.isLt))
  · refine hnext ((if_neg hon).trans ?_)
    simp only [hxs, ← htp, ← hu, List.length_eq_zero_iff, ← hv]
  · exact ⟨hnext (if_neg (by simp [hmain, hpow])), fun r => hnext (if_neg (by simp [hmain, hpow]))⟩
  · exact ⟨_, throttleRecoveryStep_outer (by omega) hpow, State.marksCleared_frame (fun t : State => t.hub.hot) (fun _ _ => rfl),
      State.marksCleared_frame State.tiles (fun _ _ => rfl), State.marksCleared_frame State.snodes (fun _ _ => rfl), State.marksCleared_frame State.nodes (fun _ _ => rfl)⟩
  · obtain ⟨u, r, hrun⟩ := hardTrip_trips (a := a) hmain
    exact ⟨_, hrun, rfl, fun k => State.trippedOff_tile, _, (List.append_assoc _ [_] [_])⟩

end Sys2Proof.Machine
